-- ==== Sys2Proof/Word.lean ====
section
/-! DEFINITION. The machine's words, and the sparse tables in which State holds whatever is numbered
(memory bytes by address, lines by line number, channels by number): a list of key and value pairs in
one canonical form, keys strictly rising and no entry equal to what an unlisted key reads as. -/

namespace Sys2Proof

/-- A byte of memory. -/
abbrev Byte := BitVec 8

/-- A 32-bit thread register (R49). -/
abbrev Word32 := BitVec 32

/-- A 64-bit register (00_scope, Registers). -/
abbrev Word := BitVec 64

/-- A 128-byte line, byte 0 in bits [7:0] (R6). -/
abbrev Line := BitVec 1024

/-- A sparse table: key and value pairs. -/
abbrev Tbl (α : Type) := List (Nat × α)

/-- What a key reads as; `d` is what an unlisted key reads as. -/
def Tbl.get {α : Type} (d : α) : Tbl α → Nat → α
  | [], _ => d
  | (k, v) :: t, i => if k = i then v else Tbl.get d t i

/-- Puts an entry in its place, in the stead of one with its key. -/
def Tbl.put {α : Type} : Tbl α → Nat → α → Tbl α
  | [], i, x => [(i, x)]
  | (k, v) :: t, i, x =>
    if i < k then (i, x) :: (k, v) :: t
    else if i = k then (k, x) :: t
    else (k, v) :: Tbl.put t i x

/-- Writes a key, keeping the canonical form: writing what an unlisted key reads as removes the entry. -/
def Tbl.set {α : Type} [DecidableEq α] (d : α) (t : Tbl α) (i : Nat) (x : α) : Tbl α :=
  if x = d then t.filter (fun e => decide (e.1 ≠ i)) else Tbl.put t i x

/-- Keys strictly rising above `lo`, and no entry equal to `d`. -/
def Tbl.wfFrom {α : Type} [DecidableEq α] (d : α) : Nat → Tbl α → Bool
  | _, [] => true
  | lo, (k, v) :: t => decide (lo ≤ k) && decide (v ≠ d) && Tbl.wfFrom d (k + 1) t

/-- The canonical form. -/
def Tbl.wf {α : Type} [DecidableEq α] (d : α) (t : Tbl α) : Bool := Tbl.wfFrom d 0 t

/-- Bits [lo + w - 1 : lo] of a word. -/
abbrev bits {n : Nat} (x : BitVec n) (lo w : Nat) : BitVec w := BitVec.extractLsb' lo w x

/-- Bits [lo + w - 1 : lo] of a word, as a number. -/
abbrev field {n : Nat} (x : BitVec n) (lo w : Nat) : Nat := (BitVec.extractLsb' lo w x).toNat

/-- The word with bits [lo + w - 1 : lo] replaced by the low w bits of v. -/
def putField {n : Nat} (x : BitVec n) (lo w : Nat) (v : Nat) : BitVec n :=
  let m : BitVec n := BitVec.ofNat n ((2 ^ w - 1) <<< lo)
  (x &&& ~~~m) ||| (BitVec.ofNat n ((v % 2 ^ w) <<< lo))

end Sys2Proof
end

