-- ==== Sys2Proof/Config.lean ====
section
/-! DEFINITION. What the spec leaves open: opaque constants, of which no proof can learn a value. A free value
is Config.free applied to the counter State.freeCount, which the step that uses it advances. -/

namespace Sys2Proof

/-- Free values (R42, R58, R115, R274, R287, R363, R391): clock samples, measured energies, random numbers. -/
opaque Config.free : Nat → BitVec 512

/-- Symbols in error of one granule read (R149). With five or more, which of the three outcomes of R149
the error pattern makes: detected, taken for a correction with wrong data, or another valid codeword. -/
inductive EccEvent
  | clean
  | one
  | two
  | poisoned
  | missedAsOne (d : BitVec 512)
  | missedAsTwo (d : BitVec 512)
  | undetected (d : BitVec 512)
  deriving DecidableEq, Repr, Inhabited

/-- ECC of the two granules of a line. -/
structure EccPair where
  lo : EccEvent
  hi : EccEvent
  deriving DecidableEq, Repr, Inhabited

/-- What a read of memory that is made inside another command's step meets (R149): cells fail as they will, and the module
makes no choice. -/
opaque Config.ecc : Nat → EccPair

/-- Entries of a service die's eviction buffer, less one (R192 names no number). -/
opaque Config.evictRoom : Nat

/-- Where the array splits n > 1 values of a reduction tree (R123): the left part's size less one, taken
modulo n - 1. -/
opaque Config.treeSplit : Nat → Nat

/-- In which order a radix-4 butterfly rounds its products and adds its terms (R123 fixes the format of its operations and
not their order): one choice for each kind of step. -/
opaque Config.butterfly : Nat → Nat

/-- The result that the array gives one of the FP32 functions of R115 within its bound, by operation, rounding and operand:
each has one defined result for given inputs (R135). -/
opaque Config.approx : Nat → Nat → Nat → Nat

/-- The energy weight of each kind of event, in pJ, which firmware holds (R434). -/
opaque Config.energyWeight : Nat → Nat

/-- The conversion loss, in thousandths of the energy charged (R434). -/
opaque Config.conversionLoss : Nat

/-- The signature of a 448-byte report by alias key k (R380). -/
opaque Config.sign : Nat → List Byte → List Byte

/-- The certificate chain of slot 0 with the alias certificate of key k (R371, R372, R381). -/
opaque Config.chain : Nat → List Byte

/-- The alias key derived from the log digest D(3) (R372, R373): its number. -/
opaque Config.aliasKey : BitVec 256 → Nat

/-- DEVICE_ID of the package (R371). -/
opaque Config.deviceId : BitVec 256

/-- The answer to an SPDM request, but for the measurement blocks, which R381 fixes. -/
opaque Config.spdm : Nat → List Byte → List Byte

/-- The physical address of the guest window (R240): the spec gives its size and not its place; it counts only
at or above the end of the pool. -/
opaque Config.guestWindow : Nat

/-- The PCI Vendor ID of the module's functions (R328, R461), which the spec does not state. -/
opaque Config.vendorId : BitVec 16

/-- The fuse value ROOT_HASH (R364). -/
opaque Config.rootHash : BitVec 256


end Sys2Proof
end

