-- ==== Sys2Proof/Syntax.lean ====
section
/-! DEFINITION. The commands: one constructor of Instr per row of the table of operations and events,
in the table's order, and the types of their operands. What a command leaves to the outside (a sensor's
reading, the symbols in error of a granule, whether a frame's tag verifies) is an operand of it. -/

namespace Sys2Proof

/-- A line of the pool, or of system memory: its address divided by 128 (R136, R200). -/
abbrev LineNo := BitVec 46

/-- What the fetch of an instruction word met: the word of the command, a word of a reserved class or OP (R57), or the
fault of R67 and R400 on the fetch. -/
inductive FetchOutcome | word | reserved (w : BitVec 64) | poison | translation | protection
  deriving DecidableEq, Repr

/-- A failed check of a cell in this step (R388), by physical column 0-16. -/
inductive CellEvent
  | none
  | retried (column : Fin 17)
  | wordLost (column : Fin 17)
  | columnFailed (column : Fin 17)
  deriving DecidableEq, Repr

/-- The part of the array SRAM that an uncorrectable error strikes (R389). -/
inductive SramPart | l1 (line : BitVec 46) | localStore | slot (n : Fin 4)
  deriving DecidableEq, Repr

/-- An ECC event of the array SRAM in this step (R389). -/
inductive SramEvent | none | corrected | uncorrected (part : SramPart)
  deriving DecidableEq, Repr

/-- A group resident on an array: the cohort's linear index and the group's number in it (R36-R40). -/
structure GroupRef where
  la : Fin 384
  cohort : Nat
  group : Fin 16
  deriving DecidableEq, Repr

/-- The issue of one instruction by one group: which group, the gating predicate of the word (R53), and
the physical events of the step. -/
structure Issue where
  g : GroupRef
  pred : Fin 8
  pneg : Bool
  fetch : FetchOutcome
  cell : CellEvent
  sram : SramEvent
  deriving DecidableEq, Repr

/-- NBR.N, NBR.S, NBR.E, NBR.W: OP 0x00-0x03 of class 0x7 (R55). -/
inductive Dir | north | south | east | west
  deriving DecidableEq, Repr

/-- The atomics of class 0x9 that return the old value, OP 0x00-0x07 (R55). -/
inductive AtomicOp | add | min | max | and | or | xor | exch | cas
  deriving DecidableEq, Repr

/-- The RED forms of class 0x9, OP 0x10-0x15 (R55). -/
inductive RedOp | add | min | max | and | or | xor
  deriving DecidableEq, Repr

/-- The two engines that run tile operations (R98). -/
inductive TileEngine | grid | loader
  deriving DecidableEq, Repr

/-- The park whose limit expires: a slot, or a group that waits with its fault pending (R68, R75). -/
inductive ParkRef | slot (n : Fin 16) | pending (cohort : Nat) (group : Fin 16)
  deriving DecidableEq, Repr

/-- A command of a channel: the channel and the slot count of its descriptor (RING_INDEX of R274). -/
structure CmdRef where
  ch : Fin 3072
  idx : BitVec 32
  deriving DecidableEq, Repr

/-- What a read of host memory or of a ring returned to the front end (R248, R252, R400). -/
inductive HostRead | data (d : List Byte) | failed
  deriving DecidableEq, Repr

/-- Who makes a firmware action: host software on a port, through the registers of R244 and R280, or
partition services by the firmware call of R282, with the address of its block in a0, and what host memory answers where the
block lies there. -/
inductive Caller
  | host (port : Fin 2)
  | services (p : Fin 16) (va : Word) (there : HostRead)
  deriving DecidableEq, Repr

/-- SHARE through the mailbox of a port (R383) or by the call 0x204 (R379). -/
inductive ShareCaller
  | mailbox (port : Fin 2) (len : Fin 8192)
  | services (p : Fin 16) (first count mask : BitVec 16)
  deriving DecidableEq, Repr

/-- Registration of a refill table by a register write or by the call 0x301 (R403). -/
inductive RefillCaller
  | host (port : Fin 2) (v : Word)
  | services (p : Fin 16) (va : BitVec 57)
  deriving DecidableEq, Repr

/-- A ring control block as read from host memory (R286). -/
structure RingBlock where
  records : Word
  kinds : Word
  log2 : Byte
  consumer : BitVec 32
  deriving DecidableEq, Repr

/-- The measured inputs of the attribution of R305. -/
structure StallSample where
  intervalUs : BitVec 32
  stall : Word
  waitQ : Word
  lat : Word
  deriving DecidableEq, Repr

/-- The real-time masters of R158. -/
inductive RtMaster | meridian (lp : Fin 12) | pcie (port : Fin 2) | ingest (n : Fin 16)
  deriving DecidableEq, Repr

/-- The service core of a die that makes a request (R186): its number in the die, the granule of the line that it reads, and
whether it fetches an instruction (R400). -/
structure CoreAsk where
  core : Fin 80
  granule : Fin 2
  fetch : Bool
  deriving DecidableEq, Repr

/-- A core's request: the partition it runs for, and the core (R186). -/
structure CoreReq where
  part : Fin 16
  who : CoreAsk
  deriving DecidableEq, Repr

/-- The bytes that a core writes to a line, and which (R187, R193). -/
structure CoreStore where
  data : Line
  mask : BitVec 128
  deriving DecidableEq, Repr

/-- What a churn does next: the channel of its operation, and what the ECC decode of its read finds (R149, R167). -/
structure ChurnTurn where
  unit : Fin 384
  ecc : EccEvent
  deriving DecidableEq, Repr

/-- The engine that makes a step and, of the loader, which of the operations it has in flight (R98). -/
structure TileTurn where
  engine : TileEngine
  n : Fin 8
  deriving DecidableEq, Repr

/-- The control blocks of a fault and a telemetry ring that lie in host memory, as read there (R287). -/
structure RingBlocks where
  fault : Option RingBlock
  telemetry : Option RingBlock
  deriving DecidableEq, Repr

/-- SECDED event of the slice in this step (R394). -/
inductive TagEcc | none | corrected | dataDouble (granule : Fin 2) | tagDouble
  deriving DecidableEq, Repr

/-- An eviction has two moments: the die moves the line to its eviction buffer and sends it; the home
examines what it received (R194, R195). -/
inductive EvStage | send | home
  deriving DecidableEq, Repr

/-- A flit (R226). -/
structure Flit where
  payload : Line
  seq : BitVec 16
  ack : BitVec 16
  cls : Byte
  rsvd : BitVec 24
  crc : Word
  deriving DecidableEq, Repr

/-- A flit as its transmitter sends it, and the bits that the wires turn over (R226, R227). -/
structure FlitRx where
  sent : Flit
  err : Flit
  deriving DecidableEq, Repr

/-- What a partial reset resets: a compute die, a service die (8 and 9), or a link. -/
inductive ResetWhat | die (d : Fin 10) | link (l : Fin 22)
  deriving DecidableEq, Repr

/-- The causes of a wire failure (R228). -/
inductive WireCause | eightReplays | crcRate | trackStopped | clockStopped
  deriving DecidableEq, Repr

/-- The causes of a partial reset of the guest site (R238). -/
inductive RetrainCause | host | sideband | adapterError
  deriving DecidableEq, Repr

/-- Cause 4 of R329. -/
inductive PortReset | perst | hotReset | linkDown
  deriving DecidableEq, Repr

/-- Enables in configuration space that the rules name (R217, R322, R323, R325, R397, R277). -/
inductive CfgBit | relaxedOrdering | pasid | pri | atomicRequester | msixMask (vector : Fin 2048)
  deriving DecidableEq, Repr

/-- A configuration request: a read, or a write of one of the enables. -/
inductive CfgOp | read | write (b : CfgBit) (v : Bool)
  deriving DecidableEq, Repr

/-- TH, the Extended TPH steering tag, and the Relaxed Ordering attribute of an inbound write (R218, R326). -/
structure TlpHints where
  th : Bool
  ext : Option (BitVec 16)
  ro : Bool
  deriving DecidableEq, Repr

/-- Completion status of a PCIe completion (R321). -/
inductive CplStatus | success | unsupported | abort | poisonedTlp
  deriving DecidableEq, Repr

/-- PRG response codes (R325). -/
inductive PrgResult | success | invalid | failure
  deriving DecidableEq, Repr

/-- The SPDM requests that R381 names. -/
inductive SpdmReq
  | getCertificate (slot : Byte) (off len : BitVec 16)
  | getMeasurements (index : Byte)
  | challenge (nonce : BitVec 256)
  | keyExchange
  | endSession
  deriving DecidableEq, Repr

/-- IDE_KM operations on a stream (R327). -/
inductive IdeOp | setKeys (firstFn lastFn : Fin 128) (lo hi : Word) | stop
  deriving DecidableEq, Repr

/-- A Meridian frame as received (R346): the 40-byte header and the payload, whether it lay in a
correctable codeword (R349), and whether its GCM tag verifies under the stream's key (R355). -/
structure Frame where
  hdr : BitVec 320
  payload : List Byte
  intact : Bool
  tagOk : Bool
  deriving DecidableEq, Repr

/-- A firmware image offered to the boot chain (R365, R366): its header fields, the SHA-256 of its
header and of its key, and whether its body digest and its HSS signature verify. -/
structure FwImage where
  magic : BitVec 32
  ty : Byte
  svn : Byte
  version : BitVec 32
  headerDigest : BitVec 256
  keyHash : BitVec 256
  bodyOk : Bool
  sigOk : Bool
  deriving DecidableEq, Repr

/-- What the boot chain finds: ROM version, slots A and B of the two types, and whether the cached alias
certificate names the current key and verifies (R366, R372). -/
structure BootImages where
  rom : BitVec 32
  spA : FwImage
  spB : FwImage
  resA : FwImage
  resB : FwImage
  certOk : Bool
  deriving DecidableEq, Repr

/-- An error report of a unit to its region controller (R391, R395). -/
structure Report where
  ty : BitVec 16
  unit : BitVec 16
  parts : BitVec 16
  channel : BitVec 16
  reporter : BitVec 16
  detail : BitVec 32
  address : Word
  deriving DecidableEq, Repr

/-- Droop-detected domains (R425). -/
inductive DroopDomain | cluster (n : Fin 20) | hubSwitch (h : Fin 4) | bankGroup (n : Fin 32)
  deriving DecidableEq, Repr

/-- One sensor's reading: its index of R421 and its value in 1/16 degree C, or no reading (R430, R431). -/
structure Reading where
  sensor : BitVec 12
  value : Option Int
  deriving DecidableEq, Repr

/-- A register access (R9): the port, the virtual function whose BAR0 it is (none: the physical
function's), the offset in bytes and the size in bytes. -/
structure RegAccess where
  port : Fin 2
  vf : Option (Fin 128)
  off : BitVec 20
  size : Nat
  deriving DecidableEq, Repr

/-- What makes a function ENABLED (R329). -/
inductive EnableCause | busMaster | toD0 | vfEnable (numVfs : Fin 128)
  deriving DecidableEq, Repr

/-- The peer security processor's message (R382). -/
inductive PeerMessage
  | opens (module : BitVec 12) (theirPart ourPart : Fin 16) (chainOk : Bool) (deviceId measurement : BitVec 256)
      (theirLocked : Bool) (policyOk : Bool) (theirRx : Fin 1024)
  | closes (module : BitVec 12) (tx : Fin 1024)
  deriving DecidableEq, Repr

/-- An access through the IEEE 1149.1 port (R385): what it reaches, and the value it writes, if it writes. -/
inductive DebugTarget
  | threadReg (g : GroupRef) (lane : Fin 64) (reg : Fin 255)
  | localStore (la : Fin 384) (off : Nat)
  | coreRun (core : Fin 160)
  | linkState (l : Fin 22)
  | protectedUnit
  deriving DecidableEq, Repr

/-- A debug-port access. -/
structure DebugAccess where
  target : DebugTarget
  write : Option Word32
  deriving DecidableEq, Repr

/-- The commands of the block, one constructor per row. -/
inductive Instr
  /-- INTEGER_OP (R472): A class 0x0 integer instruction (ADD, SUB, MUL.LO, MUL.HI, MAD, MIN, MAX, ABS, AND, OR, XOR, NOT, SHL, SHR, SAR, POPC, CLZ, BREV, or an immediate form) runs on the participating lanes of a group. -/
  | integerOp (i : Issue) (op : BitVec 8) (ops : BitVec 48)
  /-- FP32_OP (R114): A class 0x1 FP32 instruction (ADD, MUL, FMA, MIN, MAX, ABS, RCP, RSQ, SQRT, EXP2, LOG2, SIN, COS) runs on the participating lanes. -/
  | fp32Op (i : Issue) (op : BitVec 8) (ops : BitVec 48)
  /-- FP64_OP (R114): A class 0x2 FP64 instruction (ADD, MUL, FMA, MIN, MAX, RCP, SQRT) runs on register pairs. -/
  | fp64Op (i : Issue) (op : BitVec 8) (ops : BitVec 48)
  /-- PACKED16_OP (R472): A class 0x3 packed instruction (ADD2, MUL2, FMA2, MIN2, MAX2) runs on two BF16 or FP16 values per register. -/
  | packed16Op (i : Issue) (op : BitVec 8) (ops : BitVec 48)
  /-- CVT (R116): Converts a register between formats, unscaled or with block scaling. -/
  | cvt (i : Issue) (ops : BitVec 48)
  /-- UNPK12 (R112): Unpacks a U12P pair into two registers. -/
  | unpk12 (i : Issue) (ops : BitVec 48)
  /-- PK12 (R112): Packs two registers into a U12P pair. -/
  | pk12 (i : Issue) (ops : BitVec 48)
  /-- SETP (R472): Compares two registers and writes a predicate. -/
  | setp (i : Issue) (ops : BitVec 48)
  /-- PAND (R472): Writes a predicate from the AND of two predicates. -/
  | pand (i : Issue) (ops : BitVec 48)
  /-- POR (R472): Writes a predicate from the OR of two predicates. -/
  | por (i : Issue) (ops : BitVec 48)
  /-- PXOR (R472): Writes a predicate from the XOR of two predicates. -/
  | pxor (i : Issue) (ops : BitVec 48)
  /-- PNOT (R472): Writes the inverse of a predicate. -/
  | pnot (i : Issue) (ops : BitVec 48)
  /-- SHFL (R472): Each lane reads a register of the lane its selector names. -/
  | shfl (i : Issue) (ops : BitVec 48)
  /-- SHFL_XOR (R472): Each lane reads a register of the lane whose number is its own XOR the selector. -/
  | shflXor (i : Issue) (ops : BitVec 48)
  /-- BCAST (R472): Every lane reads a register of the lane that the leader lane's selector names. -/
  | bcast (i : Issue) (ops : BitVec 48)
  /-- BALLOT (R472): Writes a 64-bit mask of the lanes whose predicate is true. -/
  | ballot (i : Issue) (ops : BitVec 48)
  /-- VOTE (R472): Writes whether a predicate is true in any, or in every, participating lane. -/
  | vote (i : Issue) (ops : BitVec 48)
  /-- NBR (R472): NBR.N, NBR.S, NBR.E or NBR.W reads a register of the thread on the neighbouring cell. -/
  | nbr (i : Issue) (dir : Dir) (ops : BitVec 48)
  /-- LD (R472): Loads from global memory or local store into registers, after translation, protection and alignment checks. -/
  | ld (i : Issue) (ops : BitVec 48)
  /-- ST (R171): Stores registers to global memory or local store; the lanes that fall in one line are combined into one request. -/
  | st (i : Issue) (ops : BitVec 48)
  /-- PREFETCH (R472): Hints a line into L1; an access that would fault is dropped. -/
  | prefetch (i : Issue) (ops : BitVec 48)
  /-- ATOMIC (R56): A class 0x9 atomic that returns the old value (ADD, MIN, MAX, AND, OR, XOR, EXCH, CAS) is applied in ascending lane order. -/
  | atomic (i : Issue) (op : AtomicOp) (ops : BitVec 48)
  /-- RED (R165): A class 0x9 reduction with no return is sent to the home or a churn. -/
  | red (i : Issue) (op : RedOp) (ops : BitVec 48)
  /-- BRA (R59): A branch that can split the current path. -/
  | bra (i : Issue) (ops : BitVec 48)
  /-- BRX (R59): An indirect branch that makes one path per distinct target. -/
  | brx (i : Issue) (ops : BitVec 48)
  /-- CALL (R55): Writes the return address into a register pair and jumps. -/
  | call (i : Issue) (ops : BitVec 48)
  /-- RET (R59): Jumps to the address held in a register pair. -/
  | ret (i : Issue) (ops : BitVec 48)
  /-- EXIT (R64): The lanes exit with a cohort-scope release; they count as arrived at every barrier. -/
  | exit (i : Issue) (ops : BitVec 48)
  /-- YIELD (R60): Switches issue to the eligible path that has waited longest. -/
  | yield (i : Issue) (ops : BitVec 48)
  /-- NOP (R55): No operation. -/
  | nop (i : Issue) (ops : BitVec 48)
  /-- BAR_SYNC (R63): Arrives at a barrier and waits until the phase completes. -/
  | barSync (i : Issue) (ops : BitVec 48)
  /-- BAR_ARRIVE (R63): Arrives at a barrier and continues. -/
  | barArrive (i : Issue) (ops : BitVec 48)
  /-- BAR_WAIT (R64): Waits until the current phase of a barrier completes. -/
  | barWait (i : Issue) (ops : BitVec 48)
  /-- FENCE (R207): Performs a release, an acquire, or both, at its scope. -/
  | fence (i : Issue) (ops : BitVec 48)
  /-- S2V (R58): Writes a special value (lane, group, cohort, extents, array, clock, re-run count) into a register. -/
  | s2v (i : Issue) (ops : BitVec 48)
  /-- TLOAD (R95): Moves a tile from global memory into local store, converting as it goes. -/
  | tload (i : Issue) (ops : BitVec 48) (w2 : Word)
  /-- TSTORE (R95): Moves a tile from local store or the accumulator section to global memory or local store. -/
  | tstore (i : Issue) (ops : BitVec 48) (w2 : Word)
  /-- TCONTRACT (R94): Runs a contraction on the grid engine with the pattern in a slot. -/
  | tcontract (i : Issue) (ops : BitVec 48) (w2 : Word)
  /-- TSTENCIL (R94): Runs a 2D or 3D stencil on the grid engine. -/
  | tstencil (i : Issue) (ops : BitVec 48) (w2 : Word)
  /-- TFFT (R94): Runs a radix-4 FFT on the grid engine. -/
  | tfft (i : Issue) (ops : BitVec 48) (w2 : Word)
  /-- TREDUCE (R94): Runs a segmented reduction or scan on the grid engine. -/
  | treduce (i : Issue) (ops : BitVec 48) (w2 : Word)
  /-- TWAIT (R97): Holds the group until the named tile tokens clear, parking it for a fault held on a token. -/
  | twait (i : Issue) (ops : BitVec 48) (w2 : Word)
  /-- TDISCARD (R96): Drops the lines of a range from L1 and the last-level cache without writing them back. -/
  | tdiscard (i : Issue) (ops : BitVec 48) (w2 : Word)
  /-- PARK_SLOT_GRANTED (R68): A freed park slot is given to a group waiting with a pending fault. -/
  | parkSlotGranted (la : Fin 384)
  /-- PARK_LIMIT_EXPIRED (R75): A park unresolved within the park limit is resolved by kill and re-run, or by PARK_EXPIRED. -/
  | parkLimitExpired (la : Fin 384) (w : ParkRef)
  /-- BARRIER_DIVERGED (R65): After 256 clocks with every thread of a cohort at incomplete barriers, the cohort traps and the command's other cohorts are killed. -/
  | barrierDiverged (la : Fin 384) (cohort : Nat)
  /-- PATH_QUANTUM_SWITCH (R60): The current path has issued its quantum while another path is eligible, and issue switches. -/
  | pathQuantumSwitch (g : GroupRef)
  /-- OPERAND_ARRIVAL (R45): Data or an operand a waiting group awaits arrives, and the group becomes ready. -/
  | operandArrival (g : GroupRef)
  /-- TILE_QUEUE_SPACE_FREED (R44): Space frees in the tile queue, and a waiting group reissues its tile instruction. -/
  | tileQueueSpaceFreed (g : GroupRef)
  /-- TILE_OPERATION_COMPLETE (R97): A tile operation completes and its token clears, or a fault is held on the token. -/
  | tileOperationComplete (la : Fin 384) (e : TileTurn) (cell : CellEvent) (sram : SramEvent)
  /-- COHORT_RESIDENT (R38): A cohort becomes resident once its groups fit; L1 is invalidated and the pattern check runs on first residency. -/
  | cohortResident (la : Fin 384)
  /-- PATTERN_FETCH_COMPLETE (R88): A fetched pattern descriptor is validated and written into its slot. -/
  | patternFetchComplete (la : Fin 384) (slot : Fin 4)
  /-- DOORBELL_POLL (R250): The poll interval of a channel expires and the front end reads its doorbell. -/
  | doorbellPoll (ch : Fin 3072)
  /-- CHAN_NUDGE (R251): A write to a physical-function nudge slot wakes its channel. -/
  | chanNudge (port : Fin 2) (ch : Fin 3072)
  /-- VF_NUDGE (R251): A write to a virtual-function nudge slot wakes its channel. -/
  | vfNudge (port : Fin 2) (fn : Fin 128) (slot : Fin 512)
  /-- DOORBELL_READ (R248): A doorbell read returns PRODUCER, and the slots it covers are fetched; failures put the channel in ERROR. -/
  | doorbellRead (ch : Fin 3072) (host : HostRead)
  /-- DESCRIPTOR_FETCH (R255): A fetched descriptor is checked and handed to the scheduler, or completes with DESCRIPTOR_INVALID. -/
  | descriptorFetch (ch : Fin 3072) (host : HostRead)
  /-- LAUNCH (R256): Runs a kernel grid on the arrays named by its placement table. -/
  | launch (c : CmdRef)
  /-- STEP (R311): The step builder walks sequence entries, builds a work list and runs the template kernel. -/
  | step (c : CmdRef)
  /-- COPY (R258): Copies, converts or reduces strided elements with a copy engine. -/
  | copy (c : CmdRef)
  /-- FILL (R261): Fills a range with a repeating 8-byte value. -/
  | fill (c : CmdRef)
  /-- PATTERN_LOAD (R87): Loads a pattern descriptor into one slot of each named array. -/
  | patternLoad (c : CmdRef)
  /-- REPLAY (R74): Resolves parks by ticket with RESUME, SKIP or KILL. -/
  | replay (c : CmdRef)
  /-- CHECKPOINT (R413): Writes a stream of region snapshots to DEST. -/
  | checkpoint (c : CmdRef)
  /-- REMOTE_COPY (R359): Pushes data to, or pulls it from, another module over Meridian. -/
  | remoteCopy (c : CmdRef)
  /-- TABLE_INVALIDATE (R260): Drops cached translations, sequence entries or placement bytes. -/
  | tableInvalidate (c : CmdRef)
  /-- QUEUE_FENCE (R262): Holds later commands until earlier commands of its span complete. -/
  | queueFence (c : CmdRef)
  /-- SEMAPHORE_RETEST (R264): Waits are tested again on a reported write or every 64 µs, and the command starts with its claims when they hold. -/
  | semaphoreRetest (c : CmdRef)
  /-- COMMIT_POINT (R269): The last engine finishes; the numeric report, release, signals, claim releases, completion record and interrupt follow. -/
  | commitPoint (c : CmdRef)
  /-- INTERRUPT_HOLDOFF_EXPIRED (R278): The holdoff ends and a deferred channel interrupt is sent. -/
  | interruptHoldoffExpired (ch : Fin 3072)
  /-- KILL_DRAIN_COMPLETE (R273): A killed command has left its arrays and re-enters dispatch at the head with its re-run count raised. -/
  | killDrainComplete (c : CmdRef)
  /-- CHAN_WRITE (R245): CHAN_ACTION WRITE copies CHAN_DATA into a channel entry after checks. -/
  | chanWrite (who : Caller)
  /-- CHAN_READ (R245): CHAN_ACTION READ copies a channel entry into CHAN_DATA. -/
  | chanRead (who : Caller)
  /-- CHAN_STOP (R246): CHAN_ACTION STOP ends fetching and ends or aborts the channel's commands. -/
  | chanStop (who : Caller)
  /-- CHAN_START (R245): CHAN_ACTION START makes a channel ACTIVE from CONSUMED. -/
  | chanStart (who : Caller)
  /-- CHAN_DISABLE (R245): CHAN_ACTION DISABLE makes a stopped channel DISABLED. -/
  | chanDisable (who : Caller)
  /-- CHANNEL_STOPPED (R246): The last completion record of a stopping channel is written and the channel becomes STOPPED or ERROR. -/
  | channelStopped (ch : Fin 3072)
  /-- CREATE (R283): Creates a partition with a new memory key. -/
  | create (who : Caller)
  /-- DESTROY (R283): Stops the channels, ends the loans, releases the resources and erases the key of a partition. -/
  | destroy (who : Caller)
  /-- GRANT_ARRAYS (R284): Adds a range of logical arrays to a partition's floor and powers them. -/
  | grantArrays (who : Caller)
  /-- RELEASE_ARRAYS (R284): Removes a range of arrays from a floor, killing the commands on them. -/
  | releaseArrays (who : Caller)
  /-- GRANT_PLOTS (R147): Grants FREE plots after the admission check, key install and zeroing. -/
  | grantPlots (who : Caller)
  /-- RELEASE_PLOTS (R148): Releases plots to FREE or QUARANTINED. -/
  | releasePlots (who : Caller)
  /-- GRANT_CORES (R285): Appends free service cores to a partition's grant list. -/
  | grantCores (who : Caller)
  /-- RELEASE_CORES (R285): Stops, cleans and removes the highest-index cores of a grant list. -/
  | releaseCores (who : Caller)
  /-- SET_BANDWIDTH (R163): Sets a partition's guarantee and ceiling under admission. -/
  | setBandwidth (who : Caller)
  /-- SET_LIMITS (R281): Sets the seal, park, donation and report limits. -/
  | setLimits (who : Caller)
  /-- SET_QUEUE (R299): Sets the slice of a queue and suspends or resumes it. -/
  | setQueue (who : Caller)
  /-- SET_LOAN (R292): Makes or ends a loan offer. -/
  | setLoan (who : Caller)
  /-- SET_CREDITS (R302): Sets the Meridian credit floors of a partition. -/
  | setCredits (who : Caller)
  /-- SET_RINGS (R287): Registers the fault and telemetry ring control blocks. -/
  | setRings (who : Caller) (host : RingBlocks)
  /-- SET_SERVING (R307): Gives a partition its sequence entries and page pool. -/
  | setServing (who : Caller)
  /-- PART_READ (R281): PART_ACTION READ returns a partition's state in PART_ARG0–PART_ARG3. -/
  | partRead (who : Caller)
  /-- EXTEND (R379): Extends PARTITION_MEASUREMENT with a digest. -/
  | extend (p : Fin 16) (d : BitVec 256)
  /-- LOCK (R377): Locks a partition with its ACCEPTED list and disables the other channels. -/
  | lock (p : Fin 16) (accepted : BitVec 256) (flags : Byte)
  /-- REPORT (R380): The security call that signs and writes an attestation report. -/
  | report (p : Fin 16) (nonce : BitVec 256) (user : BitVec 512) (va : BitVec 57)
  /-- SHARE (R376): Sets the READ_MASK of the caller's plots, through the SBI call or the mailbox. -/
  | share (who : ShareCaller)
  /-- LINK_POLICY (R379): Records the peers allowed to open streams with a locked partition. -/
  | linkPolicy (p : Fin 16) (va : BitVec 57) (count : Byte)
  /-- REFILL_TABLE_REGISTER (R403): Registers a partition's refill table through ERR_REFILL_TABLE or SBI call 0x301. -/
  | refillTableRegister (who : RefillCaller)
  /-- SLICE_END (R295): A queue's slice expires, and contested occupants are killed or shielded. -/
  | sliceEnd (p : Fin 16) (q : Fin 64)
  /-- LOAN_IDLE_EXPIRED (R292): An offered array has been idle for IDLE µs, becomes lent, and LOAN_STARTED is posted. -/
  | loanIdleExpired (la : Fin 384)
  /-- DONATION_LIMIT_EXPIRED (R301): A donation passes DONATION_LIMIT, and the waiting command completes with SEMAPHORE_TIMEOUT. -/
  | donationLimitExpired (c : CmdRef)
  /-- SEAL_LIMIT_EXPIRED (R298): A sealed command outlasts 10 × SEAL_LIMIT and completes with SEALED_OVERRUN. -/
  | sealLimitExpired (c : CmdRef)
  /-- PLACEMENT_UNBOUND (R291): A command waits 2 s for an unbound logical array and completes. -/
  | placementUnbound (c : CmdRef)
  /-- INTERVAL_REPORT (R304): At the end of REPORT_INTERVAL the slow-down report is posted. -/
  | intervalReport (p : Fin 16) (m : StallSample)
  /-- REGULATOR_EPOCH (R160): At each epoch end a regulator adjusts its rate and tokens. -/
  | regulatorEpoch (hub : Fin 4) (p : Fin 16) (fill : Nat)
  /-- URGENCY_LEVEL_CHANGE (R158): A real-time master's buffer fill crosses a level, and controllers apply the new urgency. -/
  | urgencyLevelChange (m : RtMaster) (percent : Nat)
  /-- CHANNEL_REQUEST_SERVED (R156): A channel controller picks and serves its next request, decoding ECC on reads. -/
  | channelRequestServed (u : Fin 384) (ecc : EccPair) (rowHit : Option Nat)
  /-- SCRUB_READ (R151): The scrub reads a granule and writes back corrected data. -/
  | scrubRead (u : Fin 384) (granule : BitVec 26) (ecc : EccEvent)
  /-- CHANNEL_OUT_OF_SERVICE (R154): A failed channel leaves service; healthy bandwidth and the scaling factors are recomputed. -/
  | channelOutOfService (u : Fin 384)
  /-- CHURN_OPERATION (R167): A churn applies a reduction to a granule, or refuses it on poison. -/
  | churnOperation (u : ChurnTurn)
  /-- KEEP_SWEEP (R183): A slice sweeps one set, ageing keep lines and lapsing idle ones. -/
  | keepSweep (slice : Fin 96)
  /-- RDS (R189): The home handles a die's shared read, snooping an owner. -/
  | rds (d : Fin 2) (line : LineNo) (p : CoreReq) (ecc : TagEcc)
  /-- RDU (R189): The home handles a die's unique read, invalidating the other die. -/
  | rdu (d : Fin 2) (line : LineNo) (p : CoreReq) (ecc : TagEcc)
  /-- UPG (R193): The home handles an upgrade, or treats a crossed one as RdU. -/
  | upg (d : Fin 2) (line : LineNo) (p : CoreReq) (w : CoreStore)
  /-- EVC (R189): The home records a clean eviction and sends EvAck. -/
  | evc (d : Fin 2) (line : LineNo) (st : EvStage)
  /-- EVD (R195): The home writes a dirty eviction, or discards a stale one, and sends EvAck. -/
  | evd (d : Fin 2) (line : LineNo) (st : EvStage) (w : Option Line)
  /-- RD_ONCE (R190): The home serves a non-caching read. -/
  | rdOnce (req : Nat) (ecc : TagEcc)
  /-- WR_FULL (R190): The home writes a full line after SnpIND. -/
  | wrFull (req : Nat)
  /-- WR_PART (R190): The home merges a partial write after SnpI. -/
  | wrPart (req : Nat)
  /-- HOME_ATOMIC (R196): The home performs a returning atomic or CAS in the slice. -/
  | homeAtomic (req : Nat)
  /-- HOME_RED (R166): The home forwards a reduction to the churn or performs it itself. -/
  | homeRed (req : Nat)
  /-- DISCARD (R185): The home drops a line without write-back. -/
  | discard (req : Nat)
  /-- STASH (R199): The home writes a stashed line and pushes it to a core's die. -/
  | stash (p : Fin 16) (pa : BitVec 41) (data : List Byte) (target : BitVec 16)
  /-- STASH_PUSH (R199): A die installs a pushed line in a core's L2 as E, or declines it. -/
  | stashPush (d : Fin 2) (line : LineNo) (accept : Bool)
  /-- SNP_S (R191): A die answers a shared snoop. -/
  | snpS (d : Fin 2) (line : LineNo) (w : Option Line)
  /-- SNP_CUR (R191): A die answers a current-value snoop. -/
  | snpCur (d : Fin 2) (line : LineNo) (w : Option Line)
  /-- SNP_I (R191): A die answers an invalidating snoop, from its eviction buffer if needed. -/
  | snpI (d : Fin 2) (line : LineNo) (w : Option Line)
  /-- SNP_IND (R191): A die drops its copy without data. -/
  | snpInd (d : Fin 2) (line : LineNo) (w : Option Line)
  /-- RSP_FWD (R191): The home records a forward; the snooped die becomes O and the requester S. -/
  | rspFwd (d : Fin 2) (line : LineNo)
  /-- RSP_S_DATA (R191): The home writes returned data Dirty and records the die S. -/
  | rspSData (d : Fin 2) (line : LineNo)
  /-- RSP_I_DATA (R191): The home writes returned data Dirty and records the die I. -/
  | rspIData (d : Fin 2) (line : LineNo)
  /-- RSP_S (R191): A die reports it moved to S; data comes from the slice. -/
  | rspS (d : Fin 2) (line : LineNo)
  /-- RSP_E (R191): A die reports it kept E; data comes from the slice. -/
  | rspE (d : Fin 2) (line : LineNo)
  /-- RSP_I (R191): A die reports no copy; data comes from the slice. -/
  | rspI (d : Fin 2) (line : LineNo)
  /-- EV_ACK (R194): A die frees its eviction-buffer entry. -/
  | evAck (d : Fin 2) (line : LineNo)
  /-- FLIT_RECEIVE (R227): A lane group receives a flit, accepting it in sequence or discarding it on CRC error. -/
  | flitReceive (l : Fin 22) (dir : Fin 2) (g : Fin 80) (f : FlitRx)
  /-- D2D_REPLAY_TIMEOUT (R227): ACK does not advance for 256 cycles, and the transmitter replays. -/
  | d2dReplayTimeout (l : Fin 22) (dir : Fin 2) (g : Fin 80)
  /-- D2D_WIRE_FAILED (R228): A wire failure is declared and the link goes down. -/
  | d2dWireFailed (l : Fin 22) (g : Fin 80) (cause : WireCause)
  /-- LINK_TRAINING_STEP (R229): A link training step T1–T4 ends after its duration, passing or failing groups. -/
  | linkTrainingStep (l : Fin 22) (fail0 : BitVec 80) (fail1 : BitVec 80)
  /-- PASS_MASK_COMPARE (R230): Firmware compares the two ends' pass masks and brings the link up, retrains it or takes it down. -/
  | passMaskCompare (l : Fin 22)
  /-- DIE_LOST (R407): All lane groups of a die lose clock or track together; the die is fenced as lost. -/
  | dieLost (d : Fin 10) (clockLost : Bool) (resetSeen : Bool)
  /-- PARTIAL_RESET (R408): The 1 ms reset hold of a lost die ends, and its clock restarts and its links train. -/
  | partialReset (what : ResetWhat)
  /-- SELF_TEST_COMPLETE (R408): Self-test of a reset die ends; the fence lifts and arrays rebind, or the die stays fenced. -/
  | selfTestComplete (d : Fin 10) (healthy : BitVec 80)
  /-- HUB_LOST (R410): A hub die is lost; its compute dies are fenced, its stacks leave service and traffic reroutes. -/
  | hubLost (h : Fin 4)
  /-- GST_ENABLE (R236): GST_CONTROL.ENABLE powers the guest site and starts its training. -/
  | gstEnable (port : Fin 2) (v : Word)
  /-- GUEST_TRAINING_COMPLETE (R237): Guest training ends; the site comes up, retrains once, or is disabled. -/
  | guestTrainingComplete (hubCount : Fin 8) (guestCount : Fin 8) (guestMax : Fin 8) (guestRate : Fin 32) (vendor : BitVec 16) (product : BitVec 16)
  /-- GUEST_RETRAIN (R238): RETRAIN, a guest sideband reset request or an adapter error starts a partial reset of the guest site. -/
  | guestRetrain (cause : RetrainCause)
  /-- GUEST_READ (R240): The hub performs a guest READ for the owner partition and returns READ_RESP. -/
  | guestRead (msg : BitVec 128)
  /-- GUEST_WRITE (R240): The hub performs a posted guest WRITE for the owner partition. -/
  | guestWrite (msg : BitVec 128) (data : Line)
  /-- FLR (R331): A function-level reset of one function runs the reset steps. -/
  | flr (port : Fin 2) (fn : Fin 128)
  /-- VF_ENABLE_CLEARED (R329): VF Enable cleared or NumVFs lowered resets the virtual functions that disappear. -/
  | vfEnableCleared (port : Fin 2) (numVfs : Fin 128)
  /-- BUS_MASTER_ENABLE_CLEARED (R329): Bus Master Enable cleared or D3hot entered resets the function and disables it. -/
  | busMasterEnableCleared (port : Fin 2) (fn : Fin 128) (d3hot : Bool)
  /-- PF_FLR (R329): An FLR of a physical function resets every function of its port. -/
  | pfFlr (port : Fin 2)
  /-- PERST_ASSERTED (R447): PERSTn_N asserted, a Hot Reset or a link down resets every function of the port. -/
  | perstAsserted (port : Fin 2) (how : PortReset)
  /-- PERST_RELEASED (R447): A port trains its link and starts answering configuration requests. -/
  | perstReleased (port : Fin 2)
  /-- FUNCTION_RESET_COMPLETE (R331): Drains and cache cleaning end; records are written, channels disabled and readiness reported. -/
  | functionResetComplete (port : Fin 2) (fn : Fin 128)
  /-- CONFIG_REQUEST (R333): A configuration request is answered, with Request Retry Status until the Atlas is published. -/
  | configRequest (port : Fin 2) (fn : Fin 128) (op : CfgOp)
  /-- APERTURE_WRITE (R318): An inbound write to a BAR2 aperture is translated and performed, with stashing under TPH. -/
  | apertureWrite (port : Fin 2) (fn : Fin 128) (off : BitVec 36) (data : List Byte) (tlp : TlpHints)
  /-- APERTURE_READ (R318): An inbound read of a BAR2 aperture is translated and returned. -/
  | apertureRead (port : Fin 2) (fn : Fin 128) (off : BitVec 36) (len : Nat)
  /-- INBOUND_ATOMICOP (R315): A received AtomicOp completes with Unsupported Request. -/
  | inboundAtomicop (port : Fin 2) (fn : Fin 128)
  /-- PCIE_COMPLETION (R217): A completion returns data for a module read of host memory. -/
  | pcieCompletion (tag : Nat) (st : CplStatus) (data : List Byte)
  /-- ATS_INVALIDATE_REQUEST (R324): An ATS invalidate drops translations and completes once accesses are performed. -/
  | atsInvalidateRequest (port : Fin 2) (fn : Fin 128) (pasid : Option (BitVec 20)) (first : BitVec 52) (count : Nat)
  /-- PAGE_REQUEST_RESPONSE (R325): A PRI response resumes the waiting group or copy, or leaves it parked or faulted. -/
  | pageRequestResponse (tag : Nat) (r : PrgResult)
  /-- DOE_DISCOVERY (R328): A DOE Discovery object is answered. -/
  | doeDiscovery (port : Fin 2) (fn : Fin 128) (index : Byte)
  /-- SPDM_REQUEST (R381): An SPDM request (certificates, measurements, challenge, key exchange) is answered. -/
  | spdmRequest (port : Fin 2) (fn : Fin 128) (secured : Bool) (req : SpdmReq)
  /-- IDE_KM (R327): IDE keys are set for a stream through a secured session. -/
  | ideKm (port : Fin 2) (fn : Fin 128) (secured : Bool) (stream : Fin 5) (op : IdeOp)
  /-- LOCK_INTERFACE_REQUEST (R377): A TDISP lock adds its virtual function to ACCEPTED and locks the partition. -/
  | lockInterfaceRequest (port : Fin 2) (fn : Fin 128) (secured : Bool)
  /-- ATTESTATION_REPORT_REQUEST (R380): An Issol DOE report request is answered with a signed report. -/
  | attestationReportRequest (port : Fin 2) (fn : Fin 128) (secured : Bool) (nonce : BitVec 256) (user : BitVec 512) (part : Byte)
  /-- DOE_ABORT (R328): An Abort ends the DOE object in progress. -/
  | doeAbort (port : Fin 2) (fn : Fin 128)
  /-- IDE_INTEGRITY_FAILURE (R327): A TLP fails IDE integrity; it is discarded and the stream becomes insecure. -/
  | ideIntegrityFailure (port : Fin 2) (stream : Fin 5)
  /-- PCIE_FN_BIND (R317): A write binds a function to a partition or sets the core default, or is refused. -/
  | pcieFnBind (port : Fin 2) (v : Word)
  /-- FLIP (R337): Makes the other dirty bitmap active and starts draining the old one. -/
  | flip (port : Fin 2)
  /-- FLIP_COMPLETE (R337): The drain ends, merge-buffer words are written back, and FLIP_DONE is set. -/
  | flipComplete (port : Fin 2) (fn : Fin 128)
  /-- LNK_PORT_ENABLE (R343): ENABLE set trains a Meridian port; ENABLE cleared takes it down. -/
  | lnkPortEnable (port : Fin 2) (v : Word)
  /-- LNK_PORT_RETRAIN (R362): RETRAIN retrains a port from the start with its original lanes. -/
  | lnkPortRetrain (port : Fin 2) (v : Word)
  /-- HELLO (R343): HELLO is received, and the port comes up or is fenced. -/
  | hello (lp : Fin 12) (peer : BitVec 12) (peerPort : Fin 16) (sparePeer : Option (BitVec 12)) (mineHeard : Bool)
  /-- LINK_LOST (R343): A port's link is lost; the port retrains and hands its frames back to routing. -/
  | linkLost (lp : Fin 12)
  /-- PORT_TRAINING_FAILED (R343): A port fails training and retries, or is fenced after three failures. -/
  | portTrainingFailed (lp : Fin 12)
  /-- LANE_CORRECTION_THRESHOLD (R342): A lane's corrected-symbol rate starts a planned substitution. -/
  | laneCorrectionThreshold (lp : Fin 12) (lane : Fin 4)
  /-- LANE_ABRUPT_FAILURE (R342): A lane loses lock or repeats uncorrectable codewords; the port falls to half width. -/
  | laneAbruptFailure (lp : Fin 12) (lane : Fin 4)
  /-- SPARE_LANE_TRAINED (R342): The spare lane is trained and SUBSTITUTE is exchanged. -/
  | spareLaneTrained (k : Fin 4)
  /-- SUBSTITUTE (R342): A SUBSTITUTE frame arranges the switch to the spare at a codeword boundary. -/
  | substitute (lp : Fin 12) (lane : Fin 4) (spare : Fin 52)
  /-- LANE_SWITCH (R342): At the agreed codeword boundary the port switches to the spare and the Atlas is updated. -/
  | laneSwitch (lp : Fin 12)
  /-- MERIDIAN_READ (R356): A READ frame passes the receive checks and is performed for the stream's partition. -/
  | meridianRead (lp : Fin 12) (f : Frame)
  /-- MERIDIAN_WRITE (R356): A WRITE frame is performed and acknowledged. -/
  | meridianWrite (lp : Fin 12) (f : Frame)
  /-- BULK_WRITE (R356): A BULK_WRITE frame is performed and acknowledged. -/
  | bulkWrite (lp : Fin 12) (f : Frame)
  /-- MERIDIAN_ATOMIC (R356): An ATOMIC frame is performed at the home and answered. -/
  | meridianAtomic (lp : Fin 12) (f : Frame)
  /-- READ_DATA (R357): Read data arrives and fills a Remote line, or is delivered poisoned. -/
  | readData (lp : Fin 12) (f : Frame)
  /-- WRITE_ACK (R347): A write acknowledgement arrives, or a failed remote write kills the command. -/
  | writeAck (lp : Fin 12) (f : Frame)
  /-- ATOMIC_DATA (R357): An atomic response returns its old value, or reports a failure. -/
  | atomicData (lp : Fin 12) (f : Frame)
  /-- CREDIT (R348): Returned credits free frame buffers for a virtual channel. -/
  | credit (lp : Fin 12) (vc : Fin 4) (n : Byte)
  /-- HOP_REPLAY_TIMEOUT (R349): HOP_ACK does not advance for 2 µs, and the sender replays. -/
  | hopReplayTimeout (lp : Fin 12)
  /-- REMOTE_TIMEOUT (R358): No response arrives within 10 ms, and the remote request fails. -/
  | remoteTimeout (tag : Fin 16384)
  /-- LNK_ROUTE_ENTRY (R352): A route entry write takes effect once old-path writes are acknowledged. -/
  | lnkRouteEntry (port : Fin 2) (v : Word)
  /-- GET_EVENT_LOG (R383): Returns event-log bytes from an offset. -/
  | getEventLog (port : Fin 2) (len : Fin 8192)
  /-- GET_REPORT (R380): Returns a signed attestation report for a partition. -/
  | getReport (port : Fin 2) (len : Fin 8192)
  /-- GET_CERTS (R383): Returns the slot 0 certificate chain from an offset. -/
  | getCerts (port : Fin 2) (len : Fin 8192)
  /-- STREAM_OPEN (R382): Opens a pair of Meridian streams with a peer once both sides agree. -/
  | streamOpen (port : Fin 2) (len : Fin 8192)
  /-- STREAM_OPEN_TIMEOUT (R383): STREAM_OPEN fails with SEC_PEER_REFUSED after 10 s. -/
  | streamOpenTimeout (port : Fin 2)
  /-- STREAM_CLOSE (R382): Closes a stream and erases its keys. -/
  | streamClose (port : Fin 2) (len : Fin 8192)
  /-- UNLOCK (R386): A valid debug token erases keys, runs the debug bring-up and opens the debug port. -/
  | unlock (port : Fin 2) (sigOk : Bool) (keyHash : BitVec 256) (nonce : BitVec 256)
  /-- RECOVERY_IMAGE (R367): The management controller takes a recovery image over MCTP, checks it and resumes bring-up. -/
  | recoveryImage (img : FwImage)
  /-- GET_STATUS (R461): The management controller answers GET_STATUS and releases ALERT_N. -/
  | getStatus (bus : Fin 2) (cmd : Byte)
  /-- ERROR_REPORT (R395): A unit report reaches its region controller and joins or opens a merge entry. -/
  | errorReport (region : Fin 23) (r : Report)
  /-- MERGE_WINDOW_CLOSE (R395): After 4,096 clocks a merge entry sends one merged report to the chip collector. -/
  | mergeWindowClose (region : Fin 23) (ty : BitVec 16) (unit : BitVec 16)
  /-- COLLECTOR_REPORT (R396): The chip collector takes a report and opens or joins the suspect's entry. -/
  | collectorReport
  /-- SENTRY_RECORD (R134): The collector takes a sentry record and writes or counts it. -/
  | sentryRecord
  /-- COLLECTOR_WINDOW_END (R396): A 1 ms window ends; the merged record is written to the rings and notices sent. -/
  | collectorWindowEnd (unit : BitVec 16) (consumers : BitVec 64)
  /-- COLLECTOR_ENTRY_RETIRE (R396): An entry retires after 1 s idle or 60 s age, writing a FINAL record when needed. -/
  | collectorEntryRetire (unit : BitVec 16) (consumers : BitVec 64)
  /-- ERR_INJECT (R398): GO injects a report of the given type with INJECTED set. -/
  | errInject (port : Fin 2) (v : Word)
  /-- ERR_RING_ENABLE (R398): ENABLE going to 1 reads the error ring control block. -/
  | errRingEnable (port : Fin 2) (v : Word) (host : Option RingBlock)
  /-- REFILL_SOURCE_READ (R404): The source page arrives and is written by retirement. -/
  | refillSourceRead (page : Nat) (data : Option (List Byte))
  /-- REFILL_COMPLETE (R404): REFILLING clears, held work proceeds, and SHARED_PAGE_REFILLED is raised. -/
  | refillComplete (page : Nat)
  /-- REFILL_FAILED (R405): The refill misses its 10 ms limit or its source read fails. -/
  | refillFailed (page : Nat)
  /-- ARRAY_FENCED (R390): Firmware fences an array and starts its spare swap. -/
  | arrayFenced (slot : Fin 416) (cause : Fin 5)
  /-- SPARE_SELF_TEST_COMPLETE (R406): The spare passes or fails self-test, ARRAY_MAP is written and the Atlas update ends. -/
  | spareSelfTestComplete (slot : Fin 416) (pass : Bool)
  /-- DOMAIN_SWITCH_ON (R422): A queued power-domain request is switched on once fewer than 8 are coming up. -/
  | domainSwitchOn
  /-- DOMAIN_STABLE (R422): A domain is stable 20 ms after switch-on, or fails with DOMAIN_FAULT. -/
  | domainStable (dom : Fin 507) (ok : Bool)
  /-- INPUT_OUT_OF_RANGE (R417): Input below 40 V or above 60 V opens the hot-swap controller. -/
  | inputOutOfRange (mv : BitVec 16)
  /-- POWER_INPUT_FAULT (R417): Input in the fault band for over 1 ms is a module-fatal power fault. -/
  | powerInputFault (mv : BitVec 16)
  /-- SOFT_START_COMPLETE (R417): The bulk capacitance is charged. -/
  | softStartComplete
  /-- PWR_EN_ASSERTED (R446): PWR_EN is accepted and the rail sequence starts. -/
  | pwrEnAsserted
  /-- PWR_EN_DEASSERTED (R446): PGOOD falls, work stops and the rails descend. -/
  | pwrEnDeasserted
  /-- RAIL_STEP_COMPLETE (R418): A rail reaches regulation and the next step starts 1 ms later. -/
  | railStepComplete
  /-- RAIL_FAULT (R419): A rail misses regulation or leaves ±5 %, and the rails descend. -/
  | railFault (rail : Fin 9)
  /-- PHASE_FAILED (R420): A failed phase is shed and recorded. -/
  | phaseFailed (rail : Fin 9) (phase : Fin 38)
  /-- ROOT_PLL_LOCK (R423): The root PLL locks after rail step 9. -/
  | rootPllLock (modid : BitVec 12)
  /-- PLL_UNLOCK (R424): The root PLL or reference is lost; module-fatal. -/
  | pllUnlock
  /-- DROOP_STRETCH (R425): A droop detector stretches clock edges of its domain. -/
  | droopStretch (dom : DroopDomain)
  /-- CAP_LOOP_PERIOD (R427): Every 100 µs the cap loop adjusts duty and stages. -/
  | capLoopPeriod (watts : BitVec 16) (mv : BitVec 16) (tenMa : BitVec 16)
  /-- INPUT_OVERPOWER (R428): Input above 3,900 W for 5 µs forces duty to 8. -/
  | inputOverpower
  /-- SENSOR_READ (R430): Sensors are read every 100 µs and thermal steps move. -/
  | sensorRead (readings : List Reading)
  /-- THERMAL_TRIP (R432): A comparator trips; THERMTRIP_N is asserted and the rails open. -/
  | thermalTrip (sensor : BitVec 12)
  /-- POWER_STATE (R433): A rate-limited POWER_STATE event is posted with the current state. -/
  | powerState (p : Fin 16)
  /-- ENERGY_CALIBRATION (R435): Every 100 ms firmware recalibrates the energy factor k. The period's events of service cores, and
  of what is charged to nobody else (R434), are counted outside the model. -/
  | energyCalibration (cores : List (Fin 160 × Nat)) (rest : Nat)
  /-- SECURITY_BOOT (R366): The boot chain verifies and loads the firmware images and writes the event log. -/
  | securityBoot (b : BootImages)
  /-- DIE_LINK_TRAINING (R445): Internal links train and the resident image is released. -/
  | dieLinkTraining (ok : BitVec 22) (mismatch : BitVec 22)
  /-- MEMORY_TRAINING (R445): Memory training and self-test of every unit complete. -/
  | memoryTraining (channels : BitVec 384) (slots : BitVec 416) (cores : BitVec 160)
  /-- SPARE_ASSIGNMENT (R17): Firmware binds logical arrays to slots and switches spares off. -/
  | spareAssignment
  /-- ATLAS_PUBLISH (R445): The Atlas is published, the event log closes and PCIe becomes ready. -/
  | atlasPublish
  /-- BRINGUP_STALLED (R448): An event of bring-up passes its time and bring-up stops with FAULT_N. -/
  | bringupStalled (event : Fin 11)
  /-- LLC_PART_WAYS (R177): A write sets a partition's way mask and keep controls, refusing an overlapping mask. -/
  | llcPartWays (port : Fin 2) (v : Word)
  /-- MEM_BAND_MODE (R144): A write changes the modes of bands whose plots are all free or absent. -/
  | memBandMode (port : Fin 2) (v : Word)
  /-- REGISTER_WRITE (R11): A write to a register with no row of its own acts by its access type. -/
  | registerWrite (a : RegAccess) (v : Word)
  /-- FUNCTION_ENABLE (R329): Bus Master Enable set again, a return to D0, or VF Enable set makes a DISABLED function ENABLED and readiness is reported. -/
  | functionEnable (port : Fin 2) (fn : Fin 128) (how : EnableCause)
  /-- GUEST_READ_RESP (R239): A READ_RESP from the guest chiplet answers a hub READ of the guest window made for kernel code. -/
  | guestReadResp (msg : BitVec 128) (data : Line)
  /-- INPUT_PRESENT (R417): Input voltage appears at the connector and the hot-swap controller starts soft start of the bulk capacitance. -/
  | inputPresent (mv : BitVec 16)
  /-- RAIL_DESCENT_COMPLETE (R446): The rails have all fallen; FAULT_N and THERMTRIP_N are released and a pending PWR_EN is accepted 100 ms later. -/
  | railDescentComplete
  /-- IDLE_ARRAY_POWER_OFF (R422): An array that has been in no floor for 10 ms has its power domain switched off. -/
  | idleArrayPowerOff (slot : Fin 416)
  /-- HART_START (R409): Partition services start the returned cores of a reset service die with the SBI HART_START call. -/
  | hartStart (p : Fin 16) (index : Fin 256) (entry : Word)
  /-- START_INTERFACE_REQUEST (R328): A TDISP request moves a locked virtual function's interface from CONFIG_LOCKED to RUN. -/
  | startInterfaceRequest (port : Fin 2) (fn : Fin 128) (secured : Bool)
  /-- ERROR_RING_HOLDOFF_EXPIRED (R397): The holdoff of a host error ring ends and the deferred MSI-X interrupt is sent once. -/
  | errorRingHoldoffExpired (port : Fin 2)
  /-- PEER_STREAM_MESSAGE (R382): The peer module's security processor sends its STREAM_OPEN or STREAM_CLOSE over the SPDM session, opening or closing the stream pair. -/
  | peerStreamMessage (m : PeerMessage)
  /-- DEBUG_TRANSPORT_ACCESS (R385): An access through the IEEE 1149.1 debug port shifts zeros while locked, or reaches arrays, cores and fabric state when open. -/
  | debugTransportAccess (a : DebugAccess)
  /-- PCIE_LINK_UP (R315): A PCIe port's link training ends, at the width and rate reached, and LINK_UP and the Atlas PORTS entry are updated. -/
  | pcieLinkUp (port : Fin 2) (width : Fin 16) (rate : Fin 8) (flit : Bool)
  deriving DecidableEq, Repr

end Sys2Proof
end

