-- ==== Sys2Proof/Decode.lean ====
section
/-! DEFINITION. The command that a word spells, and the command that an XAI instruction word is. -/

namespace Sys2Proof

/-- The command that a word spells by the table's bits. No row of spec/opcode_table.json gives bits: the
commands are operations and events, so every word is refused. -/
def decodeTableWord (_nbits _w : Nat) : Option Instr := none

/-- The atomics of class 0x9 that return the old value, by OP (R55). -/
def atomicOps : List AtomicOp := [.add, .min, .max, .and, .or, .xor, .exch, .cas]

/-- The RED forms of class 0x9, by OP - 0x10 (R55). -/
def redOps : List RedOp := [.add, .min, .max, .and, .or, .xor]

/-- The neighbour moves of class 0x7, by OP (R55). -/
def nbrDirs : List Dir := [.north, .south, .east, .west]

/-- The instruction whose words a group fetches (R53, R55, R93): the command of its class and OP, with PRED, PNEG and
OPERANDS from the word, and the second word for class 0xD; none for a reserved class, or a reserved OP of classes 0x4 to
0xD. The commands of classes 0x0 to 0x3 take every OP, and refuse those that are reserved as they issue. -/
def xaiDecode (i : Issue) (w w2 : Word) : Option Instr :=
  let j : Issue := { i with pred := ⟨field w 49 3, (bits w 49 3).isLt⟩, pneg := w.getLsbD 48 }
  let op := field w 52 8
  let o : BitVec 48 := bits w 0 48
  match field w 60 4 with
  | 0 => some (.integerOp j (bits w 52 8) o)
  | 1 => some (.fp32Op j (bits w 52 8) o)
  | 2 => some (.fp64Op j (bits w 52 8) o)
  | 3 => some (.packed16Op j (bits w 52 8) o)
  | 4 => ([.cvt j o, .unpk12 j o, .pk12 j o] : List Instr)[op]?
  | 5 => ([.setp j o, .pand j o, .por j o, .pxor j o, .pnot j o] : List Instr)[op]?
  | 6 => ([.shfl j o, .shflXor j o, .bcast j o, .ballot j o, .vote j o] : List Instr)[op]?
  | 7 => nbrDirs[op]?.map (fun d => .nbr j d o)
  | 8 => ([.ld j o, .st j o, .prefetch j o] : List Instr)[op]?
  | 9 => if op < 16 then atomicOps[op]?.map (fun a => .atomic j a o) else redOps[op - 16]?.map (fun a => .red j a o)
  | 10 => ([.bra j o, .brx j o, .call j o, .ret j o, .exit j o, .yield j o, .nop j o] : List Instr)[op]?
  | 11 => if op = 16 then some (.fence j o) else ([.barSync j o, .barArrive j o, .barWait j o] : List Instr)[op]?
  | 12 => if op = 0 then some (.s2v j o) else none
  | 13 =>
    if op = 8 then some (.twait j o w2) else if op = 9 then some (.tdiscard j o w2)
    else ([.tload j o w2, .tstore j o w2, .tcontract j o w2, .tstencil j o w2, .tfft j o w2, .treduce j o w2] : List Instr)[op]?
  | _ => none

end Sys2Proof
end

