-- ==== Sys2Proof/Machine/Bits.lean ====
section
/-! DEFINITION. Byte strings, little-endian fields, SHA-256 and CRC-64, as the rules of several chapters use
them. -/

namespace Sys2Proof.Machine

/-- The n low bytes of a number, least significant first (R6). -/
def leBytes : Nat → Nat → List Byte
  | 0, _ => []
  | n + 1, v => BitVec.ofNat 8 v :: leBytes n (v / 256)

/-- The number whose little-endian bytes are given (R6). -/
def leNat : List Byte → Nat
  | [] => 0
  | b :: t => b.toNat + 256 * leNat t

/-- n bytes most significant first. -/
def beBytes (n v : Nat) : List Byte := (leBytes n v).reverse

/-- The number whose big-endian bytes are given. -/
def beNat (l : List Byte) : Nat := leNat l.reverse

/-- Byte i of a line. -/
def lineByte (d : Line) (i : Nat) : Byte := bits d (8 * i) 8

/-- Bytes off .. off + n - 1 of a line. -/
def lineBytes (d : Line) : Nat → Nat → List Byte
  | _, 0 => []
  | off, n + 1 => lineByte d off :: lineBytes d (off + 1) n

/-- The line with byte i replaced. -/
def setLineByte (d : Line) (i : Nat) (b : Byte) : Line := putField d (8 * i) 8 b.toNat

/-- The line with bytes from off replaced, those beyond the line dropped. -/
def setLineBytes : Line → Nat → List Byte → Line
  | d, _, [] => d
  | d, off, b :: t => setLineBytes (if off < 128 then setLineByte d off b else d) (off + 1) t

/-- The mask of n bytes from off. -/
def byteMask (off n : Nat) : BitVec 128 := BitVec.ofNat 128 ((2 ^ n - 1) <<< off)

/-- The bit mask of the bytes of a byte mask, from byte i on. -/
def wideMaskFrom (m : BitVec 128) : Nat → Nat → Nat
  | _, 0 => 0
  | i, n + 1 => (if m.getLsbD i then 0xFF else 0) + 256 * wideMaskFrom m (i + 1) n

/-- The line mask of a byte mask. -/
def wideMask (m : BitVec 128) : Line := BitVec.ofNat 1024 (wideMaskFrom m 0 128)

/-- New bytes where the mask has them, the old line elsewhere (R106, R190). -/
def mergeLine (old new : Line) (m : BitVec 128) : Line :=
  let w := wideMask m
  (old &&& ~~~w) ||| (new &&& w)

/-- The bytes of a 64-byte block. -/
def blockBytes (d : BitVec 512) : List Byte := leBytes 64 d.toNat

/-- Bits in set. -/
def popFrom {n : Nat} (x : BitVec n) : Nat → Nat
  | 0 => 0
  | k + 1 => (if x.getLsbD k then 1 else 0) + popFrom x k

/-- The number of bits that are set. -/
def pop {n : Nat} (x : BitVec n) : Nat := popFrom x n

/-- The positions of the bits that are set, ascending, below k. -/
def onesBelow {n : Nat} (x : BitVec n) : Nat → List Nat
  | 0 => []
  | k + 1 => onesBelow x k ++ (if x.getLsbD k then [k] else [])

/-- The positions of the bits that are set, ascending. -/
def ones {n : Nat} (x : BitVec n) : List Nat := onesBelow x n

/-- The least bit set at or above k, within fuel bits. -/
def lowestFrom {n : Nat} (x : BitVec n) : Nat → Nat → Option Nat
  | _, 0 => none
  | k, f + 1 => if x.getLsbD k then some k else lowestFrom x (k + 1) f

/-- ⌈a / b⌉. -/
def ceilDiv (a b : Nat) : Nat := (a + b - 1) / b

/-- 32-bit word rotation right. -/
def rotr (x : BitVec 32) (n : Nat) : BitVec 32 := (x >>> n) ||| (x <<< (32 - n))

/-- The greatest r below 2^n above `r` whose k-th power is at most x, found bit by bit. -/
def rootFrom (k x : Nat) : Nat → Nat → Nat
  | 0, r => r
  | n + 1, r => rootFrom k x n (if (r + 2 ^ n) ^ k ≤ x then r + 2 ^ n else r)

/-- The first 32 bits of the fraction of p's k-th root. -/
def rootFraction (k p : Nat) : BitVec 32 := BitVec.ofNat 32 (rootFrom k (p * 2 ^ (32 * k)) 37 0)

/-- The primes below n, ascending. -/
def primesBelow (n : Nat) : List Nat :=
  (List.range n).filter (fun p => 1 < p && (List.range p).all (fun d => d < 2 || p % d != 0))

/-- The round constants of SHA-256: cube roots of the first 64 primes. PRESUMED (FIPS 180-4, which the spec names and does
not define). -/
def shaConstants : List (BitVec 32) := (primesBelow 312).map (rootFraction 3)

/-- The starting value of SHA-256: square roots of the first eight primes. -/
def shaStart : List (BitVec 32) := (primesBelow 20).map (rootFraction 2)

/-- The exclusive or of x turned right by each amount. -/
def turns (x : BitVec 32) (by' : List Nat) : BitVec 32 := by'.foldl (fun v n => v ^^^ rotr x n) 0

/-- The message schedule, newest word first: n words on. -/
def shaSchedule : Nat → List (BitVec 32) → List (BitVec 32)
  | 0, w => w
  | n + 1, w =>
    let back := fun i => w.getD (i - 1) 0
    let near := turns (back 2) [17, 19] ^^^ (back 2 >>> 10)
    let far := turns (back 15) [7, 18] ^^^ (back 15 >>> 3)
    shaSchedule n ((back 16 + far + back 7 + near) :: w)

/-- One round on the eight working words, with the sum of its constant and its schedule word. -/
def shaRound (v : List (BitVec 32)) (kw : BitVec 32) : List (BitVec 32) :=
  let at' := fun i => v.getD i 0
  let pick := (at' 4 &&& at' 5) ||| (~~~(at' 4) &&& at' 6)
  let most := (at' 0 &&& at' 1) ||| (at' 2 &&& (at' 0 ||| at' 1))
  let t := at' 7 + kw + pick + turns (at' 4) [6, 11, 25]
  [t + most + turns (at' 0) [2, 13, 22], at' 0, at' 1, at' 2, at' 3 + t, at' 4, at' 5, at' 6]

/-- n big-endian 32-bit words of a byte string. -/
def beWords : Nat → List Byte → List (BitVec 32)
  | 0, _ => []
  | n + 1, l => BitVec.ofNat 32 (beNat (l.take 4)) :: beWords n (l.drop 4)

/-- The compression of n 64-byte blocks into the chaining words. -/
def shaBlocks : Nat → List (BitVec 32) → List Byte → List (BitVec 32)
  | 0, h, _ => h
  | n + 1, h, l =>
    let words := (shaSchedule 48 (beWords 16 (l.take 64)).reverse).reverse
    let v := (List.zipWith (· + ·) words shaConstants).foldl shaRound h
    shaBlocks n (List.zipWith (· + ·) h v) (l.drop 64)

/-- SHA-256 of a byte string, its 32 bytes with byte 0 in the low bits. -/
def sha256 (l : List Byte) : BitVec 256 :=
  let size := l.length
  let blocks := ceilDiv (size + 9) 64
  let text := l ++ 0x80 :: List.replicate (64 * blocks - size - 9) 0 ++ beBytes 8 (8 * size)
  BitVec.ofNat 256 (leNat ((shaBlocks blocks shaStart text).map (fun w => beBytes 4 w.toNat)).flatten)

/-- The bytes of a digest. -/
def digestBytes (d : BitVec 256) : List Byte := leBytes 32 d.toNat

/-- One byte of CRC-64 over the ECMA-182 polynomial, most significant bit first. PRESUMED: bit order, initial
value and final value are not in R226; this takes ECMA-182's own: order as sent, both zero. -/
def crc64Bits : Nat → BitVec 64 → BitVec 64
  | 0, c => c
  | n + 1, c => crc64Bits n (if c.getLsbD 63 then (c <<< 1) ^^^ 0x42F0E1EBA9EA3693 else c <<< 1)

/-- CRC-64 (ECMA-182) of a byte string (R226). -/
def crc64 : BitVec 64 → List Byte → BitVec 64
  | c, [] => c
  | c, b :: t => crc64 (crc64Bits 8 (c ^^^ (b.setWidth 64 <<< 56))) t

end Sys2Proof.Machine
end

