-- ==== Sys2Proof/Machine/StateArray.lean ====
section
/-! DEFINITION. The state of one array (02, 03, 04): its occupant, cohorts, groups, paths, registers,
barriers, park slots, L1, local store, accumulator section, pattern slots, tile queue, generators and
numeric counters. -/

namespace Sys2Proof.Machine

/-- CLASS of a park record (R67). -/
inductive ParkClass
  | translation | protection | poison | nanSentry | alignment | barrierDiverged
  deriving DecidableEq, Repr

/-- A path that waits at a barrier: in BAR.SYNC or in BAR.WAIT, on which barrier, for which phase of it,
and whether an acquire follows the completion, and at which scope (R60, R63, R208). -/
structure BarrierWait where
  inWait : Bool
  b : Fin 16
  phase : Nat
  acquire : Bool
  scope : Nat
  deriving DecidableEq, Repr

/-- A path: a program counter and a lane mask (R59), whether it waits at a barrier, and the count of
the group's issues at which it last issued or was made (R60: which has waited longest). -/
structure Path where
  pc : Word
  mask : BitVec 64
  wait : Option BarrierWait
  stamp : Nat
  deriving DecidableEq, Repr

/-- A fault met by an instruction or a tile operation (R67, R70). -/
structure ParkFault where
  cls : ParkClass
  access : BitVec 8
  lanes : BitVec 64
  addr : Word
  pc : Word
  deriving DecidableEq, Repr

/-- The sentry record of a trap (R133), the fields that the array gives. -/
structure SentryRec where
  la : Nat
  ticket : BitVec 32
  opClass : Nat
  cause : Nat
  fmtA : Byte
  fmtB : Byte
  fmtOut : Byte
  slot : Byte
  ch : Nat
  idx : BitVec 32
  cohort : Nat
  group : Nat
  part : Nat
  lane : Nat
  rerun : Nat
  patId : BitVec 32
  c0 : BitVec 32
  c1 : BitVec 32
  c2 : BitVec 32
  pc : Word
  stamp : Word
  deriving DecidableEq, Repr

/-- A host or remote read of an engine: what the buffer holds of one byte (R217, R357). -/
inductive BufByte | data (b : Byte) | poisoned | refused | unmapped
  deriving DecidableEq, Repr

/-- A tile operation as accepted (R94-R98), its register operands read from the leader lane. -/
inductive TileKind
  | load (ls gaddr rowElems rows gstride : Word) (fmtMem fmtLs rnd : Nat) (sat : Bool) (hint scope order : Nat) (lsStride : Word)
  | store (ls gaddr rowElems rows gstride : Word) (fmtMem fmtLs rnd : Nat) (sat : Bool) (hint scope order : Nat)
      (srcAcc : Bool) (acc : Nat) (destLs : Bool) (lsStride : Word)
  | grid (op : Nat) (a b : Word) (extent : Word) (slot : Fin 4) (acc : Nat) (init : Bool) (c d scaleA scaleB : Word)
  | discard (addr : Word) (len : Word)
  deriving DecidableEq, Repr

/-- An entry of the tile queue (R98). `accRead` is what the grid engine read of the accumulators for a TSTORE: the
format, elements of a row and the codes; `buf` what the loader has read of host memory, the guest window or other
modules, by virtual address; `sent` that its writes or discards have been sent; `held` the trap that its token then holds. -/
structure TileOp where
  seq : Nat
  cohort : Nat
  group : Fin 16
  token : Fin 8
  leader : Nat
  pc : Word
  kind : TileKind
  accRead : Option (Nat × Nat × List Word)
  buf : Tbl (Option BufByte)
  sent : Bool
  held : Option (ParkFault × Option SentryRec)
  deriving DecidableEq, Repr

/-- A tile token (R97, R100): clear, busy, or holding a fault with the operation as accepted. -/
inductive Token | clear | busy | faulted (f : ParkFault) (op : TileOp) (rec : Option SentryRec)
  deriving DecidableEq, Repr

/-- What came back for one line of a load or returning atomic. -/
inductive LoadResult
  | data (d : Line) (poison : BitVec 2)
  | olds (v : List (Nat × Word))
  | refused
  | poison
  deriving DecidableEq, Repr

/-- Where a line that an array reaches lies: the pool, another module, host memory, the guest window. -/
inductive LineKind | pool | remote | host | guest
  deriving DecidableEq, Repr

/-- One line's request of a load: its request number, the lanes with their byte offsets in the line, whether the line
that comes back may enter the L1 (no acquire and no newer store of the array since it was sent), and the result once it
has come back. -/
structure LoadPart where
  req : Nat
  kind : LineKind
  line : Nat
  lanes : List (Nat × Nat)
  fill : Bool
  result : Option LoadResult
  deriving DecidableEq, Repr

/-- What an access that a group awaits is: a load, a returning atomic or an acquiring reduction, with the operands of
its lanes as they were read at issue. -/
inductive LoadKind
  | read
  | atomic (op : AtomicOp) (vals : List (Nat × Word × Word))
  | red (op : RedOp) (vals : List (Nat × Word))
  deriving DecidableEq, Repr

/-- A load, returning atomic or acquiring reduction that a group has issued and whose results it awaits (R45, R205,
R212): the number that names it, its program counter and operand word, its lanes with their addresses, what was read at
once, and its requests by line. -/
structure LoadOp where
  seq : Nat
  pc : Word
  ops : BitVec 48
  kind : LoadKind
  mask : BitVec 64
  addrs : List (Nat × Word)
  done : List (Nat × List Byte)
  parts : List LoadPart
  deriving DecidableEq, Repr

/-- What a park is for (R67, R100): the instruction at the group's program counter; a tile operation by its token, met in
a TWAIT or by a tile instruction that names the token; or a load or atomic issued earlier. -/
inductive ParkSrc | instr | token (t : Fin 8) (twait : Bool) | load (seq : Nat)
  deriving DecidableEq, Repr

/-- Why a group waits (R45): for loads by their numbers, for a release at a scope, for an entry of the tile queue, for
tokens in a TWAIT or before a tile instruction, for the acquire of a TLOAD, at barriers, or for a park slot. -/
inductive WaitReason
  | operand (seqs : List Nat)
  | release (scope : Nat)
  | queueSlot
  | tokens (mask : BitVec 8) (twait : Bool)
  | tileAcquire
  | barrier
  | parkSlot (f : ParkFault) (src : ParkSrc) (rec : Option SentryRec)
  deriving DecidableEq, Repr

/-- The states of a group between two steps (R45); Issuing is the step of the issue itself. -/
inductive GroupState | ready | waiting (w : WaitReason) | parked (slot : Fin 16) | done
  deriving DecidableEq, Repr

/-- A resident group. `slot` is its place in its quadrant (R43). The head of `paths` is the current path (R59). Registers
are keyed 64 × register + lane, predicates are lane masks keyed by number. `loads` are in order of issue. -/
structure Group where
  cohort : Nat
  num : Fin 16
  quadrant : Nat
  slot : Nat
  st : GroupState
  paths : List Path
  issues : Nat
  sinceSwitch : Nat
  regs : Tbl Word32
  preds : Tbl (BitVec 64)
  tokens : Tbl Token
  loads : List LoadOp
  deriving DecidableEq, Repr

/-- A barrier of a cohort (R63, R64). -/
structure Barrier where
  phase : Nat
  arrived : Nat
  expected : Option Nat
  deriving DecidableEq, Repr

/-- A resident cohort. `lsBase` is where its local-store allocation begins in the array's local store.
`lsFresh` numbers the free values that its bytes of unspecified contents read as (R42). -/
structure Cohort where
  idx : Nat
  lsBase : Nat
  lsBytes : Nat
  lsFresh : Nat
  barriers : Tbl Barrier
  exited : Nat
  deriving DecidableEq, Repr

/-- A park (R68-R70): the group parked, or none for a cohort trap; the fault; what it is for; and the page request it
waits for (R73). -/
structure Park where
  ticket : BitVec 32
  cohort : Nat
  group : Option (Fin 16)
  fault : ParkFault
  src : ParkSrc
  pageReq : Option Nat
  deriving DecidableEq, Repr

/-- A line of the array L1 (R170). -/
structure L1Line where
  line : Nat
  data : Line
  instr : Bool
  stamp : Nat
  deriving DecidableEq, Repr

/-- A route entry of a pattern (R81). -/
structure Route where
  rowStride : Nat
  planeStride : Nat
  fmt : Nat
  transposed : Bool
  scaleStride : Nat
  deriving DecidableEq, Repr

/-- A point of a stencil (R83). -/
structure Point where
  dx : Int
  dy : Int
  dz : Int
  coef : Word
  deriving DecidableEq, Repr

/-- A validated pattern (R80-R85). -/
structure Pattern where
  kind : Nat
  addC : Bool
  outRnd : Nat
  outSat : Bool
  block : Nat
  subgrids : Nat
  sparseK : Nat
  log4n : Nat
  fftFlags : Nat
  operation : Nat
  exclusive : Bool
  segment : Nat
  a : Route
  b : Route
  c : Route
  d : Route
  points : List Point
  deriving DecidableEq, Repr

/-- A pattern slot that is valid (R77). -/
structure PatSlot where
  pat : Pattern
  id : BitVec 32
  part : Nat
  deriving DecidableEq, Repr

/-- A pattern listed by a LAUNCH (R88, R254). -/
structure PatRef where
  slot : Fin 4
  id : BitVec 32
  addr : Word
  deriving DecidableEq, Repr

/-- A stream of the prefetcher (R103): the line last accessed, the stride, the accesses at it, and the group whose
loads make it, none for the loader. -/
structure Stream where
  last : Nat
  stride : Int
  hits : Nat
  who : Option (Nat × Fin 16)
  deriving DecidableEq, Repr

/-- The command that occupies an array (R39): which, its partition, the next linear cohort index not yet
made resident there, the patterns still being fetched, and whether its first cohort became resident. -/
structure Occupant where
  cmd : CmdRef
  part : Fin 16
  next : Nat
  fetching : List PatRef
  resident : Bool
  draining : Bool
  deriving DecidableEq, Repr

/-- The numeric counters of a run on one array (R128). -/
structure NumCounts where
  crushed : Nat
  saturated : Nat
  nanDropped : Nat
  nanBlocks : Nat
  traps : Nat
  deriving DecidableEq, Repr

/-- One array, named by its logical number while it is bound (R14). -/
structure ArrayState where
  occ : Option Occupant
  cohorts : List Cohort
  groups : List Group
  parks : Tbl (Option Park)
  parkSeq : BitVec 19
  /-- Groups that wait with a fault pending, by cohort and number, in the order of their faults (R68). -/
  faultQ : List (Nat × Fin 16)
  /-- The slot, plus one, of the group that issued last in a quadrant (R43). -/
  last : Tbl Nat
  l1 : List L1Line
  l1Clock : Nat
  /-- Local store by byte: the value, and the partition whose command last wrote it (R42). -/
  ls : Tbl (Option (Byte × Fin 16))
  acc : Tbl Word32
  /-- The operand format, plus one, of the contraction that last wrote the accumulators at an offset (R91). -/
  accFmt : Tbl Nat
  slots : Tbl (Option PatSlot)
  tq : List TileOp
  tileSeq : Nat
  /-- Numbers of the loads issued on the array. -/
  loadSeq : Nat
  gens : Tbl Word
  counts : NumCounts
  sentryArmed : Bool
  streams : List Stream
  args : List Byte
  deriving DecidableEq, Repr

/-- An array with nothing on it. -/
def ArrayState.idle : ArrayState where
  occ := none
  cohorts := []
  groups := []
  parks := []
  parkSeq := 0
  faultQ := []
  last := []
  l1 := []
  l1Clock := 0
  ls := []
  acc := []
  accFmt := []
  slots := []
  tq := []
  tileSeq := 0
  loadSeq := 0
  gens := []
  counts := ⟨0, 0, 0, 0, 0⟩
  sentryArmed := false
  streams := []
  args := []

/-- The group belongs to a run that leaves its array: everything of the command on one array goes (R101). -/
def ArrayState.vacate (a : ArrayState) : ArrayState :=
  { a with
    occ := a.occ.map (fun o => { o with draining := true, fetching := [] })
    cohorts := []
    groups := []
    parks := []
    faultQ := []
    tq := []
    streams := [] }

/-- Nothing of an occupant survives on an array that changes hands or is switched off, but which partition last wrote
each byte of local store, and the count of parks, which names no two parks alike (R39, R41, R42, R70, R78, R90, R293). -/
def ArrayState.pass (a : ArrayState) : ArrayState :=
  { ArrayState.idle with occ := a.vacate.occ, parkSeq := a.parkSeq, tileSeq := a.tileSeq, loadSeq := a.loadSeq, ls := a.ls }

/-- A logical array bound to another slot, whose local store its self-test wrote last (R42, R78, R406). -/
def ArrayState.rebound (a : ArrayState) : ArrayState := { a.pass with ls := [] }

end Sys2Proof.Machine
end

