-- ==== Sys2Proof/Machine/StateMem.lean ====
section
/-! DEFINITION. The state of the memory pool, its channels, regulators and churns (05), of the last-level
cache, the two service dies' caches and the messages between them (06), and of the translation caches. -/

namespace Sys2Proof.Machine

/-- Who holds a plot (R145). ABSENT is not a holding: it follows from the unit list (R140). -/
inductive PlotHold | free | granted (owner : Fin 16) (readMask : BitVec 16) | quarantined
  deriving DecidableEq, Repr

/-- The operation that a home request asks for (R190). Byte masks have bit i for byte i of the line. An
atomic carries its lanes in ascending order: lane, byte offset in the line, operand and swap value. -/
inductive HomeOp
  | rdOnce
  | write (data : Line) (mask : BitVec 128)
  | atomic (op : AtomicOp) (size : Nat) (lanes : List (Nat × Nat × Word × Word))
  | red (op : RedOp) (size : Nat) (lanes : List (Nat × Nat × Word))
  | discard
  deriving DecidableEq, Repr

/-- Where the memory of a request lies (R345): a pool line, or a line of another module. -/
inductive Where | pool | remote (module : Nat)
  deriving DecidableEq, Repr

/-- The stages of a home request: in flight; being handled (snoops or memory awaited). -/
inductive ReqStage | sent | handling
  deriving DecidableEq, Repr

/-- What the answer of a home request is for: the load of its group; a tile operation, by its number, or an engine's
command, with the virtual address of the line's first byte; a page under refill (R404). -/
inductive ReqFor
  | group
  | tile (seq va : Nat)
  | engine (va : Nat)
  | refill
  deriving DecidableEq, Repr

/-- A non-caching request of an array or an engine to a home (R190): the array and group, its command, the line, the
operation, its hint and its scope. `tag` is the Meridian tag of a request sent to another module. -/
structure HomeReq where
  id : Nat
  la : Nat
  cohort : Nat
  group : Fin 16
  part : Fin 16
  cmd : CmdRef
  place : Where
  line : Nat
  op : HomeOp
  hint : Nat
  scope : Nat
  stage : ReqStage
  tag : Option Nat
  use : ReqFor
  deriving DecidableEq, Repr

/-- The class of a queued channel request (R156-R158). -/
inductive ReqClass | core | array | master (m : RtMaster)
  deriving DecidableEq, Repr

/-- What a channel request is for (R159, R189, R190): a read that fills a die's request or a home request; a churn operation, by
the number of its request; or data that has already moved, whose request takes its tracker, its tokens and its turn: a write,
a write-back, a read of an engine or of a page-table walk. -/
inductive FillFor
  | die (d : Fin 2) (unique : Bool) (who : CoreAsk)
  | home (req : Nat)
  | churn
  | moved
  deriving DecidableEq, Repr

/-- A request at a channel (R156, R159): arrival number, the bytes it debits (R160), whether it has entered the queue (R160,
R161), and how often later requests of its step passed it over. -/
structure MemReq where
  seq : Nat
  unit : Nat
  line : Nat
  bytes : Nat
  part : Fin 16
  cls : ReqClass
  entered : Bool
  passed : Nat
  target : FillFor
  deriving DecidableEq, Repr

/-- The operation of a churn (R165): a RED form with its SIZE, or OP of a COPY on an element format. -/
inductive ChurnDo
  | red (op : RedOp) (size : Nat)
  | copy (fmt op : Nat)
  deriving DecidableEq, Repr

/-- A churn operation that the home has accepted (R166-R169), with the number of its channel request; `refused` when it met
poison. -/
structure ChurnOp where
  seq : Nat
  unit : Nat
  line : Nat
  part : Fin 16
  cmd : CmdRef
  what : ChurnDo
  off : Nat
  v : Word
  refused : Bool
  deriving DecidableEq, Repr

/-- A regulator (R159, R160). -/
structure Regulator where
  rate : Int
  tokens : Int
  used : Nat
  deriving DecidableEq, Repr

/-- The class of a last-level-cache line (R181). -/
inductive LineClass | normal | keep | evictFirst
  deriving DecidableEq, Repr

/-- The per-die record of the home (R188). -/
inductive DieRec | i | s | x | o
  deriving DecidableEq, Repr

/-- The home's own data (R188). -/
inductive HomeData | clean | dirty | stale
  deriving DecidableEq, Repr

/-- A line of the last-level cache (R174-R183, R188). `remote` holds the epoch of a Remote line (R200),
whose line number is its 53-bit system physical address divided by 128. -/
structure LlcLine where
  line : Nat
  remote : Option Nat
  slice : Nat
  set : Nat
  way : Nat
  owner : Fin 16
  cls : LineClass
  idle : Nat
  stamp : Nat
  rec0 : DieRec
  rec1 : DieRec
  hd : HomeData
  data : Line
  poison : BitVec 2
  deriving DecidableEq, Repr

/-- The MOESI states of a line held by a die (R187). -/
inductive Moesi | m | o | e | s
  deriving DecidableEq, Repr

/-- A line in a die's caches or eviction buffer (R187, R194): the cluster cache's copy, and the cores of the die whose L2 and
whose L1 hold it (R186). -/
structure DieLine where
  st : Moesi
  data : Line
  poison : BitVec 2
  l2 : BitVec 80
  l1 : BitVec 80
  deriving DecidableEq, Repr

/-- An entry of a die's eviction buffer: the line as buffered, whether a snoop took it to I, and whether
its EvC or EvD still travels to the home (R194, R195). -/
structure EvEntry where
  kept : DieLine
  snooped : Bool
  atHome : Bool
  deriving DecidableEq, Repr

/-- The snoops (R191). -/
inductive Snoop | snpS | snpCur | snpI | snpInd
  deriving DecidableEq, Repr

/-- The responses to snoops (R191). -/
inductive Rsp
  | fwd (d : Line) (p : BitVec 2)
  | sData (d : Line) (p : BitVec 2)
  | iData (d : Line) (p : BitVec 2)
  | s | e | i
  deriving DecidableEq, Repr

/-- The request whose transaction is in progress at the home of a line (R175). -/
inductive TxnKind
  | rds (d : Fin 2) (p : Fin 16) (who : CoreAsk)
  | rdu (d : Fin 2) (p : Fin 16) (who : CoreAsk)
  | upg (d : Fin 2) (p : Fin 16) (who : CoreAsk) (w : Line) (mask : BitVec 128)
  | req (id : Nat)
  deriving DecidableEq, Repr

/-- A transaction (R175): the request, whether a snoop response is awaited from each die, and whether
data from memory is awaited. -/
structure Txn where
  kind : TxnKind
  wait0 : Bool
  wait1 : Bool
  memWait : Bool
  deriving DecidableEq, Repr

/-- A cached translation of a partition's 4 KiB page: the page's leaf entry (R251, R260), and the level at which the walk
found the leaf. -/
structure TlbEntry where
  part : Fin 16
  vpage : Nat
  leaf : Word
  level : Nat
  deriving DecidableEq, Repr

/-- A registered refillable page (R402, R403): its device physical page, the source address and the
function and PASID of the source. -/
structure RefillPage where
  page : Nat
  owner : Fin 16
  source : Word
  fn : BitVec 16
  pasid : BitVec 20
  deriving DecidableEq, Repr

/-- A page under refill (R404): the data once the source page arrived, and the partitions and number of
the commands killed for it. -/
structure Refilling where
  data : Option (List Byte)
  killed : Nat
  parts : BitVec 16
  deriving DecidableEq, Repr

/-- The keep controls of a partition (R177): fields and REFUSED of its LLC_PART_WAYS. -/
structure PartWays where
  mask : BitVec 16
  keepCap : Nat
  keepLease : Nat
  refused : Bool
  deriving DecidableEq, Repr

/-- The pool, its channels and caches. -/
structure MemState where
  /-- Plaintext of the pool by device physical address; unlisted bytes read 0 (R147). -/
  bytes : Tbl Byte
  /-- Poison marks by granule number (R150). -/
  poison : Tbl Bool
  plots : Tbl PlotHold
  /-- MEM_BAND_MODE.CONFINED and REFUSED (R144, R459). -/
  bandMode : BitVec 47
  bandRefused : Bool
  /-- Channels in service at memory training, from which the unit lists are built (R140). -/
  unitsAtBoot : BitVec 384
  /-- Channels in service now (R154). -/
  unitsUp : BitVec 384
  /-- Channels that left service at run time, which no later bring-up lists (R154, R140). -/
  unitsLost : BitVec 384
  /-- Stacks at half rate, by cause: the thermal limit (R430, R431); stage C is in PowState (R426). -/
  halfRate : BitVec 24
  /-- Retired pages: key 786432 × unit + channel-local page; the page of the retirement slice (R153). -/
  retired : Tbl (Option Nat)
  /-- RETIRED_MIB of the stacks as the last Atlas update left it (R29, R153). -/
  retiredMib : Tbl Nat
  /-- Corrections counted per channel-local page since bring-up (R152). -/
  corrections : Tbl Nat
  /-- Pages that could not be retired (R153). -/
  stuck : Tbl Bool
  /-- Partitions' memory keys present in the key slots (R374), as the number of the key. -/
  keys : Tbl (Option Nat)
  reqs : List MemReq
  reqSeq : Nat
  /-- The steps of R156 that took the last 64 requests of a unit, newest first. -/
  served : Tbl (List Nat)
  churn : List ChurnOp
  regs : Tbl (Option Regulator)
  /-- f(h) of R164 as last posted. -/
  factor : Tbl Nat
  urgency : List (RtMaster × Nat)
  llc : List LlcLine
  llcClock : Nat
  deadWays : List (Nat × Nat × Nat)
  ways : Tbl PartWays
  keepDemoted : Tbl Nat
  stashDeclined : Tbl Nat
  sweep : Tbl Nat
  /-- Shadow directories of the sampled sets (R305): key (slice × 512 + set / 64) × 16 + partition; tags with
  their class, newest first. -/
  shadow : Tbl (List (Nat × LineClass))
  shadowLost : Tbl Nat
  epoch : Tbl (BitVec 16)
  homeReqs : List HomeReq
  nextReq : Nat
  txns : Tbl (Option Txn)
  /-- Lines in the caches of die d: key 2 × line + d. -/
  die : Tbl (Option DieLine)
  evict : Tbl (Option EvEntry)
  snoops : Tbl (Option Snoop)
  rsps : Tbl (Option Rsp)
  evAcks : Tbl Bool
  /-- Stash pushes on their way to a die: the core's number in the die (R199). -/
  pushes : Tbl (Option (Fin 16 × Nat))
  tlb : List TlbEntry
  /-- Roots of the partitions' Sv57 tables: device physical page of the root, none before one is set. -/
  roots : Tbl (Option Nat)
  /-- Roots of the partitions' guest address spaces, which firmware installs (R240). -/
  guestRoots : Tbl (Option Nat)
  refillBase : Tbl Word
  refillRefused : Tbl Bool
  refillPages : List RefillPage
  refilling : Tbl (Option Refilling)
  deriving DecidableEq, Repr

/-- Reset values of LLC_PART_WAYS of PT1-PT15; PT0's WAY_MASK resets to 0xFFFF (R177). -/
def PartWays.reset : PartWays := ⟨0, 8, 1, false⟩

/-- The pool and caches without power. -/
def MemState.reset : MemState where
  bytes := []
  poison := []
  plots := []
  bandMode := 0
  bandRefused := false
  unitsAtBoot := 0
  unitsUp := 0
  unitsLost := 0
  halfRate := 0
  retired := []
  retiredMib := []
  corrections := []
  stuck := []
  keys := []
  reqs := []
  reqSeq := 0
  served := []
  churn := []
  regs := []
  factor := []
  urgency := []
  llc := []
  llcClock := 0
  deadWays := []
  ways := [(0, ⟨0xFFFF, 8, 1, false⟩)]
  keepDemoted := []
  stashDeclined := []
  sweep := []
  shadow := []
  shadowLost := []
  epoch := []
  homeReqs := []
  nextReq := 0
  txns := []
  die := []
  evict := []
  snoops := []
  rsps := []
  evAcks := []
  pushes := []
  tlb := []
  roots := []
  guestRoots := []
  refillBase := []
  refillRefused := []
  refillPages := []
  refilling := []

end Sys2Proof.Machine
end

