-- ==== Sys2Proof/Machine/StateChan.lean ====
section
/-! DEFINITION. The state of the channels, of the fetched commands and of the partitions (09, 10). -/

namespace Sys2Proof.Machine

/-- Why a channel is STOPPING (R246, R252, R331, R377): a STOP, entry into ERROR, the reset of its function, or the
lock of its partition, after which it is DISABLED. -/
inductive StopWhy | stop | error | reset | lock
  deriving DecidableEq, Repr

/-- What the front end keeps of a channel outside its entry (R250, R251, R278): whether it is hot, how
often the idle interval has doubled, the newest PRODUCER read, the line of the doorbell watched, the
holdoff in progress and an interrupt due at its end, and why the channel is STOPPING. -/
structure ChanDyn where
  hot : Bool
  backoff : Nat
  producer : BitVec 32
  doorLine : Option Nat
  holding : Bool
  irqDue : Bool
  stop : Option StopWhy
  assigned : Bool
  deriving DecidableEq, Repr

/-- A channel at bring-up: unassigned, nothing read. -/
def ChanDyn.reset : ChanDyn := ⟨false, 0, 0, none, false, false, none, false⟩

/-- The stages of a command that is not complete: fetched and not started; started, on its engine or
arrays; at its commit point (R269); killed and leaving its arrays, with the status and DETAIL with which
it then completes, or none when it re-runs (R273). -/
inductive CmdStage | fetched | running | finished | draining (fin : Option (Nat × BitVec 32))
  deriving DecidableEq, Repr

/-- An item of a STEP's build (R311, R312): entry, KIND, tokens, LAST, new pages. -/
structure StepItem where
  entry : Nat
  kind : Nat
  tokens : Nat
  last : Bool
  need : Nat
  deriving DecidableEq, Repr

/-- What the builder does to an entry at commit (R313). -/
inductive StepMark | paused | cancelled | pauseRequest | listFull
  deriving DecidableEq, Repr

/-- The build of a STEP's run (R311): its items, its marks, and the pages taken. -/
structure StepBuild where
  items : List StepItem
  marks : List (Nat × StepMark)
  pages : Nat
  deriving DecidableEq, Repr

/-- The placement of an array command (R289): the mode, and the entries as (first cohort, array). -/
structure Placement where
  mode : Nat
  entries : List (Nat × Nat)
  deriving DecidableEq, Repr

/-- A fetched command that is not complete (R253-R275). `slots` are its descriptor and extension blocks
as fetched; `started` is R271's sense; `claims` the SEMAPHORES entries claimed; `arrays` the logical
arrays it holds; `buf` the bytes its engine has read from host or remote memory, by virtual address; `wrote` whether it wrote host memory or memory of
another module; `sent` how far its engine has sent frames; `report` whether its numeric report was written. -/
structure Cmd where
  ch : Fin 3072
  idx : BitVec 32
  slots : List (BitVec 512)
  part : Fin 16
  queue : Fin 64
  stage : CmdStage
  started : Bool
  killed : Bool
  reruns : Nat
  waitsHeld : Bool
  claims : List Nat
  shielded : Bool
  arrays : List Nat
  placement : Option Placement
  launch : Option (List (BitVec 512))
  left : Nat
  counts : NumCounts
  build : Option StepBuild
  poisonKills : Nat
  parkKills : Nat
  buf : Tbl (Option BufByte)
  wrote : Bool
  sent : Nat
  report : Option Bool
  sealOverrun : Bool
  refillHeld : Option Nat
  tested : Bool
  donating : Option Nat
  deriving DecidableEq, Repr

/-- The states of a partition (R280). -/
inductive PartMode | absent | live | closing
  deriving DecidableEq, Repr

/-- The lock record of a partition (R377). -/
structure LockRecord where
  accepted : List (BitVec 16)
  guest : Bool
  policy : Bool
  deriving DecidableEq, Repr

/-- A loan offer (R292): the first array, the count, the borrower and IDLE. -/
structure Loan where
  first : Nat
  count : Nat
  borrower : Fin 16
  idle : Nat
  deriving DecidableEq, Repr

/-- A queue (R294-R300): suspended, SLICE in µs, whether its slice runs, whether its slice
has ended with a contender, and the donation that acts on it: the priority lent and the channel. -/
structure QueueState where
  suspended : Bool
  slice : Nat
  inSlice : Bool
  ended : Bool
  donation : Option (Nat × Nat)
  deriving DecidableEq, Repr

/-- A queue as CREATE leaves it (R281). -/
def QueueState.reset : QueueState := ⟨false, 2000, false, false, none⟩

/-- A ring (R286, R287): the control block's address, RECORDS, KINDS and LOG2 as read at SET_RINGS,
whether it lies at I/O virtual addresses of the function, and, for a ring in host memory, PRODUCER and
DROPPED as the module last wrote them. -/
structure RingReg where
  block : Word
  records : Word
  kinds : Word
  log2 : Nat
  host : Bool
  producer : BitVec 32
  dropped : BitVec 32
  deriving DecidableEq, Repr

/-- A partition (R279-R314, R377-R379). -/
structure Partition where
  mode : PartMode
  confined : Bool
  hub : Fin 4
  floor : List Nat
  cores : List Nat
  guarantee : Nat
  ceiling : Nat
  sealLimit : Nat
  parkLimit : Nat
  donationLimit : Nat
  reportInterval : Nat
  queues : Tbl QueueState
  loan : Option Loan
  credits : List Nat
  fault : Option RingReg
  telemetry : Option RingReg
  ringFn : BitVec 16
  ringPasid : BitVec 20
  serial : BitVec 32
  seqBase : Word
  seqCount : Nat
  pool : Word
  pageTokens : Nat
  serving : Bool
  kills : Nat
  keepBase : Nat
  stashBase : Nat
  irq2 : Bool
  measurement : BitVec 256
  lock : Option LockRecord
  policy : List (BitVec 256 × BitVec 256)
  coreDefault : Option (BitVec 16 × BitVec 20)
  powerDue : Bool
  deriving DecidableEq, Repr

/-- A partition that does not exist. -/
def Partition.absent : Partition where
  mode := .absent
  confined := false
  hub := 0
  floor := []
  cores := []
  guarantee := 0
  ceiling := 0
  sealLimit := 20
  parkLimit := 200
  donationLimit := 50
  reportInterval := 10
  queues := []
  loan := none
  credits := [0, 0, 0, 0]
  fault := none
  telemetry := none
  ringFn := 0
  ringPasid := 0
  serial := 0
  seqBase := 0
  seqCount := 0
  pool := 0
  pageTokens := 16
  serving := false
  kills := 0
  keepBase := 0
  stashBase := 0
  irq2 := false
  measurement := 0
  lock := none
  policy := []
  coreDefault := none
  powerDue := false

/-- An action that keeps BUSY at 1 until its condition holds (R282, R284, R422), or one that waits for its turn
(R452): a channel or a partition action, its code, its caller and what host memory holds of its control block. -/
inductive PendKind
  | queued (chan : Bool) (code : Nat) (who : Caller) (host : Option RingBlock × Option RingBlock) (ch : Nat) (args : List Word)
  | grantArrays (first count : Nat)
  | releaseArrays (first count : Nat)
  | destroy
  | chanStop (ch : Fin 3072)
  deriving DecidableEq, Repr

/-- An action in progress: the port whose BUSY it holds (none for a call of partition services), the
partition it acts on, and whether its port was reset meanwhile (R454). -/
structure PendAction where
  port : Option (Fin 2)
  part : Fin 16
  kind : PendKind
  discard : Bool
  deriving DecidableEq, Repr

/-- The PART and CHAN registers of one port (R244, R280). -/
structure ActionRegs where
  partSelect : BitVec 4
  partBusy : Bool
  partResult : Nat
  partArg : List Word
  chanSelect : BitVec 12
  chanBusy : Bool
  chanResult : Nat
  chanData : List Word
  deriving DecidableEq, Repr

/-- Reset values of the action registers (R244, R280). -/
def ActionRegs.reset : ActionRegs := ⟨0, false, 0, [0, 0, 0, 0], 0, false, 0, [0, 0, 0, 0, 0, 0, 0, 0]⟩

/-- Channels, commands and partitions. -/
structure ChanState where
  /-- The channel table (R242), by channel. -/
  entries : Tbl (BitVec 512)
  dyn : Tbl ChanDyn
  cmds : List Cmd
  parts : Tbl Partition
  /-- Arrays that are lent now (R292). -/
  lent : Tbl Bool
  /-- Reservations of arrays by commands that outrank (R296). -/
  reserved : List (Nat × CmdRef)
  acts : List PendAction
  /-- RESULT of the last call of partition services, in a1 (R282). -/
  callResult : Option Nat
  deriving DecidableEq, Repr

/-- No partition but PT0, which firmware makes at publication (R449). -/
def ChanState.reset : ChanState := ⟨[], [], [], [], [], [], [], none⟩

end Sys2Proof.Machine
end

