-- ==== Sys2Proof/Machine/StateHost.lean ====
section
/-! DEFINITION. The state of the host ports and their functions (11), of the Meridian link (12), of the
internal die-to-die links and the guest site (08). -/

namespace Sys2Proof.Machine

/-- TDISP states of a virtual function's interface (R328, R377). -/
inductive Tdisp | unlocked | locked | run | error
  deriving DecidableEq, Repr

/-- State of a function (R329, read in PCIE_FN_STATUS). -/
inductive FnMode | disabled | enabled | resetting
  deriving DecidableEq, Repr

/-- One function of a port (R316-R338). The enables are those of its configuration space that the rules
name; `pageFail` holds after a Response Failure until PRI Enable is cleared and set (R325). -/
structure FnState where
  mode : FnMode
  lastCause : Nat
  recordsLost : BitVec 32
  resets : BitVec 16
  toDisabled : Bool
  bound : Option (Fin 16)
  coreDefault : Bool
  corePasid : BitVec 20
  bindRefused : Bool
  busMaster : Bool
  d3hot : Bool
  relaxed : Bool
  pasidEn : Bool
  pri : Bool
  atomicReq : Bool
  pageFail : Bool
  masked : List Nat
  msixPending : List Nat
  doe : Nat
  tdisp : Tdisp
  orderNext : Bool
  dirtyBase0 : Word
  dirtyBase1 : Word
  dirtyIova : Word
  dirtyPages : BitVec 32
  dirtyEnable : Bool
  dirtyActive : Bool
  flipDone : Bool
  flipBusy : Bool
  outOfRange : Bool
  flipRefused : Bool
  deriving DecidableEq, Repr

/-- A function with every register at its reset value (R338), not enabled. -/
def FnState.reset : FnState where
  mode := .disabled
  lastCause := 0
  recordsLost := 0
  resets := 0
  toDisabled := false
  bound := none
  coreDefault := false
  corePasid := 0
  bindRefused := false
  busMaster := false
  d3hot := false
  relaxed := false
  pasidEn := false
  pri := false
  atomicReq := false
  pageFail := false
  masked := []
  msixPending := []
  doe := 0
  tdisp := .unlocked
  orderNext := false
  dirtyBase0 := 0
  dirtyBase1 := 0
  dirtyIova := 0
  dirtyPages := 0
  dirtyEnable := false
  dirtyActive := false
  flipDone := false
  flipBusy := false
  outOfRange := false
  flipRefused := false

/-- An IDE stream (R327): keys set, insecure, and the functions and addresses it covers. -/
structure IdeStream where
  keyed : Bool
  insecure : Bool
  firstFn : Nat
  lastFn : Nat
  lo : Word
  hi : Word
  deriving DecidableEq, Repr

/-- What a read or AtomicOp of host memory is for (R217, R322): a part of a group's load, with the offset in its
line; the old value of one lane of an atomic; a result that is discarded; a tile operation's or an engine's buffer, with the virtual
address of its first byte; the source page of a refill; a dirty-bitmap word's merge. -/
inductive HostFor
  | load (la cohort : Nat) (group : Fin 16) (req off : Nat)
  | old (la cohort : Nat) (group : Fin 16) (req lane : Nat)
  | drop
  | tile (la seq va : Nat)
  | engine (c : CmdRef) (va : Word)
  | refill (page : Nat)
  | flip (fn : Fin 128)
  deriving DecidableEq, Repr

/-- A request that returns data, as it leaves its port: a read, or an AtomicOp with its operands; each under a PASID. -/
inductive HostSend
  | read (pasid : Option (BitVec 20))
  | atomic (pasid : Option (BitVec 20)) (op : Nat) (v w : Word)
  deriving DecidableEq, Repr

/-- An outstanding request on a port that awaits a completion; `held` while it waits for one of the port's tags (R315). -/
structure HostTag where
  tag : Nat
  port : Fin 2
  fn : Fin 128
  addr : Word
  len : Nat
  use : HostFor
  held : Option HostSend
  deriving DecidableEq, Repr

/-- What a page request is for (R73, R325): a parked group, or an engine's command. -/
inductive PageFor | park (la : Nat) (slot : Fin 16) | engine (c : CmdRef) (va : Word)
  deriving DecidableEq, Repr

/-- A page request group (R325): `sent` once it left, within the function's allocation. -/
structure PageReq where
  tag : Nat
  sent : Bool
  port : Fin 2
  fn : Fin 128
  pasid : BitVec 20
  page : BitVec 52
  write : Bool
  use : PageFor
  deriving DecidableEq, Repr

/-- A translation of host memory held in the translation caches of the I/O die (R324). -/
structure AtsEntry where
  port : Fin 2
  fn : Fin 128
  pasid : Option (BitVec 20)
  page : BitVec 52
  deriving DecidableEq, Repr

/-- An Invalidate Request that is not complete (R324): its range of pages, and the number of the first host read made after
it arrived. -/
structure AtsInval where
  port : Fin 2
  fn : Fin 128
  first : BitVec 52
  count : Nat
  upTo : Nat
  deriving DecidableEq, Repr

/-- A PCIe port (R315, R338) and the Port registers of R457 that no other block holds; `drs` while the first readiness
after the release of PERST is to come (R330). -/
structure PortState where
  linkUp : Bool
  width : Nat
  rate : Nat
  flit : Bool
  numVfs : Nat
  released : Bool
  ready : Bool
  drs : Bool
  fnSelect : BitVec 7
  plotSelect : BitVec 11
  hubSelect : BitVec 2
  llcSelect : BitVec 4
  linkSelect : BitVec 4
  routeSelect : BitVec 12
  sensorSelect : BitVec 12
  refillSelect : BitVec 4
  ringEnable : Bool
  ringMin : Nat
  ringIrq : Bool
  ringHoldoff : BitVec 8
  ringVector : BitVec 11
  ringBlock : BitVec 64
  ring : Option RingReg
  ringHolding : Bool
  ringDue : Bool
  filtered : BitVec 16
  mboxBusy : Bool
  mboxResult : Nat
  mboxLen : Nat
  mbox : Tbl Byte
  regs : ActionRegs
  ide : List IdeStream
  deriving DecidableEq, Repr

/-- Reset values of a port's registers (R338, R398, R437, R459). -/
def PortState.reset : PortState where
  linkUp := false
  width := 0
  rate := 0
  flit := false
  numVfs := 0
  released := false
  ready := false
  drs := false
  fnSelect := 0
  plotSelect := 0
  hubSelect := 0
  llcSelect := 0
  linkSelect := 0
  routeSelect := 0
  sensorSelect := 0x800
  refillSelect := 0
  ringEnable := false
  ringMin := 0
  ringIrq := false
  ringHoldoff := 100
  ringVector := 0
  ringBlock := 0
  ring := none
  ringHolding := false
  ringDue := false
  filtered := 0
  mboxBusy := false
  mboxResult := 0
  mboxLen := 0
  mbox := []
  regs := ActionRegs.reset
  ide := []

/-- A request through an aperture on the inbound path of its port (R218, R318): its partition, the range of virtual addresses,
and the data of a write. -/
structure InReq where
  port : Fin 2
  fn : Fin 128
  part : Fin 16
  va : Nat
  len : Nat
  data : Option (List Byte)
  tlp : TlpHints
  deriving DecidableEq, Repr

/-- The host side. -/
structure HostState where
  port0 : PortState
  port1 : PortState
  /-- Functions: key 128 × port + function. -/
  fns : Tbl FnState
  reads : List HostTag
  nextTag : Nat
  pages : List PageReq
  nextPage : Nat
  ats : List AtsEntry
  /-- Invalidate Requests that wait for reads, in the order received (R324). -/
  invals : List AtsInval
  /-- Dirty-bitmap words in the merge buffers (R336): port, address of the word, bits set. -/
  merge : List (Fin 2 × Word × BitVec 64)
  /-- The inbound paths: requests that wait, in the order received. -/
  inbound : List InReq
  deriving DecidableEq, Repr

/-- The host side without power. -/
def HostState.reset : HostState := ⟨PortState.reset, PortState.reset, [], [], 0, [], 0, [], [], [], []⟩

/-- A Meridian frame as the module holds it: header and payload (R346). -/
structure TxFrame where
  hdr : BitVec 320
  payload : List Byte
  deriving DecidableEq, Repr

/-- STATE of a link port (R343). -/
inductive LpMode | down | training | up | fenced
  deriving DecidableEq, Repr

/-- A Meridian port (R339-R349, R362): its registers, the spare that serves it (the port lane it replaces and
the spare lane's number), the failed port lanes, half width on a pair, the substitution under way (port lane and spare lane; agreed), HELLO as heard,
HOP_SEQ to send and expected, the replay buffer with the partition of each frame, the credits spent, oldest first: the
virtual channel and the partition, and the credits to return by virtual channel. No partition is named for forwarded and
link-management frames. -/
structure LinkPort where
  enable : Bool
  spareEnable : Bool
  mode : LpMode
  spare : Option (Nat × Nat)
  failed : List Nat
  half : Option Nat
  subst : Option (Nat × Bool)
  trained : Bool
  fails : Nat
  peer : BitVec 12
  peerPort : BitVec 4
  sparePeer : Option (BitVec 12)
  corrected : BitVec 32
  uncorrected : BitVec 16
  replays : BitVec 16
  txSeq : BitVec 16
  rxSeq : BitVec 16
  replay : List (BitVec 16 × Option (Fin 16) × TxFrame)
  spent : List (Nat × Option (Fin 16))
  owed : Tbl Nat
  deriving DecidableEq, Repr

/-- A link port as bring-up leaves it (R339, R362). -/
def LinkPort.reset : LinkPort :=
  ⟨false, true, .down, none, [], none, none, false, 0, 0, 0, none, 0, 0, 0, 1, 1, [], [], []⟩

/-- A transmit stream (R354): the peer module, our partition, the peer's receive stream and partition, the
COUNTER last used, and the number of its key. -/
structure TxStream where
  peer : BitVec 12
  part : Fin 16
  peerPart : Fin 16
  rx : BitVec 10
  counter : BitVec 64
  key : Nat
  deriving DecidableEq, Repr

/-- A receive stream (R355): its peer and partition, the highest COUNTER received, the window of 4,096
counters below it already seen (bit i is highest - i), DUPLICATES and the REMOTE_AUTH_FAILED count. -/
structure RxStream where
  peer : BitVec 12
  part : Fin 16
  peerPart : Fin 16
  highest : BitVec 64
  seen : BitVec 4096
  duplicates : Nat
  failures : Nat
  key : Nat
  deriving DecidableEq, Repr

/-- What a remote request is for: a home request, of which an atomic sends one frame a lane; a copy engine's command, with
the virtual address at which pulled data is written. -/
inductive RemoteFor
  | home (req lane : Nat)
  | copy (c : CmdRef) (va : Nat)
  deriving DecidableEq, Repr

/-- A remote request outstanding under a tag (R348, R358): `lp` the port by which it was sent, none while it waits; `epoch`
the remote epoch under which a read's line may be cached, none once its partition has written the line (R200-R202). -/
structure RemoteReq where
  tag : Nat
  module : BitVec 12
  part : Fin 16
  cmd : Option CmdRef
  write : Bool
  atomic : Bool
  addr : BitVec 41
  len : Nat
  hint : Nat
  lp : Option (Fin 12)
  epoch : Option (BitVec 16)
  use : RemoteFor
  born : Nat
  deriving DecidableEq, Repr

/-- A route entry (R350, R352): PORT_MASK, HOPS, and a change that waits. -/
structure RouteEntry where
  mask : BitVec 12
  hops : Nat
  pending : Option (BitVec 12 × Nat)
  deriving DecidableEq, Repr

/-- The state of an internal link (R225-R232): down; in step T1-T4 of training, with the lane groups that pass at
each end so far; T5, its pass masks reported; up. -/
inductive LinkMode | down | training (step : Fin 4) (m0 m1 : BitVec 80) | compare (m0 m1 : BitVec 80) | up
  deriving DecidableEq, Repr

/-- An internal link: its state, whether its single retraining of R230 is spent, whether a wire failure recorded in flash keeps
it untrained (R234), and the hub that its traffic is rerouted through while it is down (R231). -/
structure DieLink where
  mode : LinkMode
  retrained : Bool
  barred : Bool
  via : Option Nat
  deriving DecidableEq, Repr

/-- One lane group and direction of an internal link (R226-R228): SEQ of the next flit sent, the flits held for replay, SEQ
expected, the last one accepted, whether the receiver discards after a CRC error, replays in a row in which the flit expected
failed, the numbers of the last CRC errors among the group's flits, newest first, the flits and replays counted, and how many
flits were sent and accepted since training. -/
structure LaneGroup where
  txSeq : BitVec 16
  held : List Flit
  rxSeq : BitVec 16
  rxAck : BitVec 16
  discarding : Bool
  failSame : Nat
  crcAt : List Nat
  flits : Nat
  replays : Nat
  sentCount : Nat
  tookCount : Nat
  deriving DecidableEq, Repr

/-- A lane group at the end of T6 (R229): the last SEQ sent and the last one acknowledged are zero. DEDUCED: the first flit
carries SEQ 1, so that an ACK of zero acknowledges none. -/
def LaneGroup.reset : LaneGroup := ⟨1, [], 1, 0, false, 0, [], 0, 0, 0, 0⟩

/-- The receiving side of one direction of a link (R226): the number of the next flit in the order dealt, and the flits that
came before it. -/
structure LinkIn where
  next : Nat
  early : List (Nat × Flit)
  deriving DecidableEq, Repr

/-- A flit that a link which went down had not acknowledged (R232): its link, direction and group, and the links with directions
that it still has to cross, the first of them under way once `sent`. -/
structure Transit where
  link : Nat
  dir : Fin 2
  group : Fin 80
  flit : Flit
  path : List (Nat × Fin 2)
  sent : Bool
  deriving DecidableEq, Repr

/-- Recovery of a die (R407-R410): present; lost, its reset held; self-test; fenced until the next
bring-up; barred by the flash record of R234. -/
inductive DieMode | present | lost | selfTest | fenced | barred
  deriving DecidableEq, Repr

/-- A die: its recovery state and whether it was lost in the last 60 s. -/
structure DieState where
  mode : DieMode
  lostOnce : Bool
  deriving DecidableEq, Repr

/-- The guest site (R235-R241). `offer` is the module count of the training in progress, `retried` whether
its one retraining is spent, `reads` the outstanding reads of the window: tag, length and use. `maxRate` and `maxModules` are the
limits latched at the training's start, `waiting` the hub's input buffer of guest requests, and `credits` and `dataCredits` what
the guest has left (R239). -/
structure GuestState where
  control : Word
  st : Fin 4
  modules : Nat
  rate : Nat
  mismatch : Bool
  vendor : BitVec 16
  product : BitVec 16
  owner : Fin 16
  offer : Nat
  offerRate : Nat
  retried : Bool
  reads : List (Nat × Nat × HostFor)
  nextTag : Nat
  maxRate : Nat
  maxModules : Nat
  waiting : List (BitVec 128 × Line)
  credits : Nat
  dataCredits : Nat
  deriving DecidableEq, Repr

/-- GST_CONTROL at reset: MAX_RATE 3, MAX_MODULES 4 (R241). -/
def GuestState.reset : GuestState := ⟨0x26, 0, 0, 0, false, 0, 0, 0, 0, 0, false, [], 0, 0, 0, [], 0, 0⟩

/-- Whose a waiting frame is: a partition's of this module, or one that is forwarded, with the port whose receive buffer it
still holds (R302, R348, R351). -/
inductive FrameOwner | part (p : Fin 16) | forwarded (held : Option (Fin 12))
  deriving DecidableEq, Repr

/-- The links. -/
structure LinkState where
  number : BitVec 12
  lps : Tbl LinkPort
  routes : Tbl RouteEntry
  tx : Tbl (Option TxStream)
  rx : Tbl (Option RxStream)
  reqs : List RemoteReq
  /-- Frames that wait for a route, a credit or a floor (R302, R350, R352). -/
  waiting : List (FrameOwner × TxFrame)
  d2d : Tbl DieLink
  groups : Tbl LaneGroup
  /-- Receiving sides of the internal links: key 2 × link + direction. -/
  ins : Tbl LinkIn
  /-- Flits re-sent over the path of a link that went down (R232). -/
  transit : List Transit
  dies : Tbl DieState
  guest : GuestState
  deriving DecidableEq, Repr

/-- The links without power. -/
def LinkState.reset : LinkState where
  number := 0
  lps := []
  routes := []
  tx := []
  rx := []
  reqs := []
  waiting := []
  d2d := []
  ins := []
  transit := []
  groups := []
  dies := []
  guest := GuestState.reset

end Sys2Proof.Machine
end

