-- ==== Sys2Proof/Machine/StateUnits.lean ====
section
/-! DEFINITION. The state of the security processor (13), of the error controllers and the chip collector
(14), of power, clocks and temperature (15), of the signals and the bring-up (16) and of the Atlas (01). -/

namespace Sys2Proof.Machine

/-- The fuses (R364). UDS is no state a rule reads but through derived keys, which Config gives. -/
structure Fuses where
  rootHash : BitVec 256
  ident : Nat
  svnSp : Nat
  svnRes : Nat
  debug : Nat
  deriving DecidableEq, Repr

/-- An event-log entry (R369). -/
structure LogEntry where
  ty : Nat
  digest : BitVec 256
  data : List Byte
  deriving DecidableEq, Repr

/-- An SPDM session on a function's mailbox (R381): its port and function. -/
structure Spdm where
  port : Fin 2
  fn : Fin 128
  deriving DecidableEq, Repr

/-- A STREAM_OPEN that waits for the peer (R382): the port, partition, peer module and peer partition. -/
structure OpenReq where
  port : Fin 2
  part : Fin 16
  peer : BitVec 12
  peerPart : Fin 16
  deriving DecidableEq, Repr

/-- What the peer's security processor asked for (R382): its module, partitions, whether its alias chain
verifies, its DEVICE_ID and partition measurement, whether its partition is LOCKED and its LINK_POLICY then
names ours, and its receive stream. -/
structure PeerOpen where
  peer : BitVec 12
  theirPart : Fin 16
  ourPart : Fin 16
  chainOk : Bool
  deviceId : BitVec 256
  measurement : BitVec 256
  policyOk : Bool
  rx : Fin 1024
  deriving DecidableEq, Repr

/-- The security processor (R363-R386). `aliasKey` is the number of the alias key in use, none once erased;
`certFor` the alias key that the flash's certificate names. -/
structure SecState where
  fuses : Fuses
  /-- The images found at security boot, kept while bring-up waits for a recovery image (R367). -/
  boot : Option BootImages
  /-- Security versions of the images in use, burned when bring-up completes (R368). -/
  svns : Nat × Nat
  log : List LogEntry
  logClosed : Bool
  digest : BitVec 256
  aliasKey : Option Nat
  certFor : Option Nat
  exhausted : Bool
  deviceId : BitVec 256
  nonce : BitVec 256
  debugOpen : Bool
  debugRefused : Bool
  sessions : List Spdm
  opens : List OpenReq
  peerOpens : List PeerOpen
  nextKey : Nat
  haltedCores : List Nat
  /-- The debug bring-up of R386 is under way. -/
  debugBring : Bool
  deriving DecidableEq, Repr

/-- The security processor before a bring-up, with unburned fuses. -/
def SecState.reset : SecState where
  fuses := ⟨Config.rootHash, 0, 0, 0, 0⟩
  boot := none
  svns := (0, 0)
  log := []
  logClosed := false
  digest := 0
  aliasKey := none
  certFor := none
  exhausted := false
  deviceId := 0
  nonce := 0
  debugOpen := false
  debugRefused := false
  sessions := []
  opens := []
  peerOpens := []
  nextKey := 0
  haltedCores := []
  debugBring := false

/-- Merged reports of one suspect (R395, R396): the type and severity of the most severe, and what the
record of R391 gathers. -/
structure Merged where
  ty : BitVec 16
  sev : Nat
  unit : BitVec 16
  region : Nat
  parts : BitVec 16
  channel : BitVec 16
  reporters : List (BitVec 16)
  detail : BitVec 32
  addr : Word
  stamp : Word
  reports : Nat
  injected : Bool
  deriving DecidableEq, Repr

/-- A collector entry (R396): its record so far, the severity last written, whether a 1 ms window is open,
and whether reports arrived since the last written record. -/
structure CollectorEntry where
  m : Merged
  written : Option Nat
  window : Bool
  newer : Bool
  deriving DecidableEq, Repr

/-- A spare swap in progress (R406): the logical array, the spare taken, the slot lost, and whether the spare has passed
its self-test. -/
structure Swap where
  la : Nat
  spare : Nat
  old : Nat
  passed : Bool
  deriving DecidableEq, Repr

/-- The error controllers and the chip collector (R395-R399, R134). `raised` are reports that units have
made and that no controller has taken yet, with their region. `merges` are the merge entries. `inbox` are the
merged reports on their way to the collector. `full` counts the reports of the entry of COLLECTOR_FULL, none when it is
closed. `sentry` are sentry records on their way to it. -/
structure ErrState where
  raised : List (Fin 23 × Report)
  merges : List Merged
  inbox : List Merged
  entries : List CollectorEntry
  full : Nat
  /-- The record of COLLECTOR_FULL's entry, once written: the reports in it, and its LOCAL_STAMP (R396). -/
  fullAt : Option (Nat × Word)
  serial : BitVec 32
  sentry : List (Fin 16 × SentryRec)
  /-- The ticket in the collector's sentry entry of a partition, and the records counted and not written (R134). -/
  sentryFull : Tbl (Option (BitVec 32))
  sentryDropped : Tbl Nat
  swaps : List Swap
  /-- Logical arrays whose binding ends once no command occupies them (R19). -/
  unbind : List Nat
  /-- Spare cores under bring-in, each with the failed core whose grant it is to carry (R22, R24). -/
  coreSwaps : List (Nat × Nat)
  alertUnread : Bool
  /-- ALERT_N is asserted (R441, R461). -/
  alertPin : Bool
  deriving DecidableEq, Repr

/-- No error. -/
def ErrState.reset : ErrState := ⟨[], [], [], [], 0, none, 0, [], [], [], [], [], [], false, false⟩

/-- The steps of the bring-up of R445: the last event that has completed. -/
inductive Stage
  | unpowered
  | softStart
  | rails (step : Fin 10)
  | railsUp
  | pllLocked
  | booted
  | linked
  | trained
  | assigned
  | published
  | descending
  deriving DecidableEq, Repr

/-- The report of the management controller (R461). -/
inductive MgmtReport | none | bootFailed (ty : Nat) | stalled (event : Nat) | failed (cause : Nat)
  deriving DecidableEq, Repr

/-- A switched power domain (R422): off, requested, coming up, on, failed. -/
inductive Domain | off | comingUp | on | failed
  deriving DecidableEq, Repr

/-- What a sensor last gave (R430, R431): nothing yet; no valid reading; a temperature in 1/16 °C. -/
inductive Sensor | unread | bad | temp (t : Int)
  deriving DecidableEq, Repr

/-- Power, clocks, temperature and signals (R416-R448). Steps are thermal steps by group: 0-22 regions,
23-46 stacks. `held*` count the 100 µs periods of held(x, t) in R427. -/
structure PowState where
  inputOk : Bool
  charged : Bool
  inputMv : BitVec 16
  current : BitVec 16
  watts : BitVec 16
  energy : Word
  pwrEn : Bool
  pwrPending : Bool
  stage : Stage
  pgood : Bool
  faultN : Bool
  tripN : Bool
  report : MgmtReport
  moduleFailed : Option (BitVec 16)
  needCycle : Bool
  modid : BitVec 12
  bootEpoch : Word
  badPhases : List (Nat × Nat)
  capStep : Nat
  duty : Nat
  stageB : Bool
  stageC : Bool
  unreachable : Bool
  heldOver8 : Nat
  heldOver : Nat
  heldUnder100 : Nat
  heldUnder200 : Nat
  overCap : BitVec 32
  stretches : BitVec 32
  sensors : Tbl Sensor
  /-- Thermal step of a group, and the readings since it last moved (R430). -/
  steps : Tbl (Nat × Nat)
  domains : Tbl Domain
  queue : List Nat
  flash : List (Nat × Nat)
  calibK : Nat
  deriving DecidableEq, Repr

/-- A module with no input, its duty and cap at their reset values (R426, R437). -/
def PowState.reset : PowState where
  inputOk := false
  charged := false
  inputMv := 0
  current := 0
  watts := 0
  energy := 0
  pwrEn := false
  pwrPending := false
  stage := .unpowered
  pgood := false
  faultN := false
  tripN := false
  report := .none
  moduleFailed := none
  needCycle := false
  modid := 0
  bootEpoch := 0
  badPhases := []
  capStep := 96
  duty := 64
  stageB := false
  stageC := false
  unreachable := false
  heldOver8 := 0
  heldOver := 0
  heldUnder100 := 0
  heldUnder200 := 0
  overCap := 0
  stretches := 0
  sensors := []
  steps := []
  domains := []
  queue := []
  flash := []
  calibK := 1000

/-- The events that units count for energy (R434): an instruction issued; the registers of a thread read and written; a step
of a tile operation; an access of array SRAM; a 100 ms period of an array occupied, and of one idle; a byte of a memory
request; a churn operation; an access of a copy engine or the front end; a descriptor taken; a step built; a 100 ms period of
a service core; and of all else. -/
inductive EnergyEvent
  | issue | registers | tile | sram | busy | idle | memory | churn | engine | front | builder | core | rest
  deriving DecidableEq, Repr

/-- The number of a kind of event. -/
def EnergyEvent.code : EnergyEvent → Nat
  | .issue => 0
  | .registers => 1
  | .tile => 2
  | .sram => 3
  | .busy => 4
  | .idle => 5
  | .memory => 6
  | .churn => 7
  | .engine => 8
  | .front => 9
  | .builder => 10
  | .core => 11
  | .rest => 12

/-- Adds to the figure of a key. -/
def addFigure {α : Type} [DecidableEq α] (l : List (α × Nat)) (k : α) (n : Nat) : List (α × Nat) :=
  if l.any (fun x => decide (x.1 = k)) then l.map (fun x => if x.1 = k then (k, x.2 + n) else x) else l ++ [(k, n)]

/-- The figure of a key. -/
def figure {α : Type} [DecidableEq α] (l : List (α × Nat)) (k : α) : Nat := ((l.find? (fun x => decide (x.1 = k))).map (·.2)).getD 0

/-- The energy account (R434, R435): events counted since bring-up, by kind; each partition's charges since its last
INTERVAL_REPORT, and each command's over all its runs, in 10^-18 J; the fraction of a µJ that a channel's records carry
forward; the modelled total since the last calibration, in 10^-15 J; and PWR_ENERGY then. -/
structure EnergyState where
  counts : List (EnergyEvent × Nat)
  parts : List (Fin 16 × Nat)
  cmds : List (CmdRef × Nat)
  carry : List (Fin 3072 × Nat)
  modelled : Nat
  metered : Word
  deriving DecidableEq, Repr

/-- Nothing counted or charged. -/
def EnergyState.reset : EnergyState := ⟨[], [], [], [], 0, 0⟩

/-- STATE of a slot (R32) and its column spare. -/
structure SlotState where
  st : Fin 4
  failedColumn : Option (Fin 16)
  deriving DecidableEq, Repr

/-- STATE of a core (CORE_STATE), FIRMWARE, and the failed core whose grant it carries (R24). -/
structure CoreState where
  st : Fin 4
  firmware : Bool
  replaced : Option Nat
  running : Bool
  pc : Word
  deriving DecidableEq, Repr

/-- The parts of the Atlas that change (R28-R35); the rest of its bytes follow from these and from the
other units' state. `arrayMap` holds the slot of each bound logical array. -/
structure AtlasState where
  generation : Word
  lastChange : Nat
  /-- Partitions to be told when the update in progress ends (R35). -/
  notify : BitVec 16
  arrayMap : Tbl (Option Nat)
  slots : Tbl SlotState
  cores : Tbl CoreState
  quarantined : Nat
  mirror : Word
  chanTable : Word
  deriving DecidableEq, Repr

/-- A slot that is powered down and healthy. -/
def SlotState.reset : SlotState := ⟨1, none⟩

/-- A core that is powered down and healthy. -/
def CoreState.reset : CoreState := ⟨1, false, none, false, 0⟩

/-- The Atlas before publication. -/
def AtlasState.reset : AtlasState := ⟨0, 0, 0, [], [], [], 0, 0, 0⟩

/-- What the block sends out, newest first in State.out. -/
inductive Out
  | msix (port : Fin 2) (fn : Fin 128) (vector : Nat)
  | coreIrq (core : Nat) (identity : Nat)
  | coreFault (core : Nat) (fetch : Bool) (granule : Nat)
  | hostWrite (port : Fin 2) (fn : Fin 128) (pasid : Option (BitVec 20)) (addr : Word) (data : List Byte) (ro : Bool)
  | hostRead (port : Fin 2) (fn : Fin 128) (pasid : Option (BitVec 20)) (addr : Word) (len : Nat) (tag : Nat)
  | hostAtomic (port : Fin 2) (fn : Fin 128) (pasid : Option (BitVec 20)) (addr : Word) (op : Nat) (v w : Word) (size : Nat) (tag : Nat)
  | completion (port : Fin 2) (fn : Fin 128) (status : Nat) (data : List Byte)
  | poisonedCompletion (port : Fin 2) (fn : Fin 128) (data : List Byte)
  | configRetry (port : Fin 2) (fn : Fin 128)
  | configDone (port : Fin 2) (fn : Fin 128)
  | drs (port : Fin 2)
  | frs (port : Fin 2) (fn : Fin 128)
  | aer (port : Fin 2) (fn : Fin 128)
  | pageRequest (port : Fin 2) (fn : Fin 128) (pasid : Option (BitVec 20)) (page : BitVec 52) (write : Bool) (tag : Nat)
  | stopMarker (port : Fin 2) (fn : Fin 128) (pasid : BitVec 20)
  | atsComplete (port : Fin 2) (fn : Fin 128)
  | doe (port : Fin 2) (fn : Fin 128) (ty : Nat) (data : List Byte)
  | doeError (port : Fin 2) (fn : Fin 128)
  | frame (lp : Fin 12) (f : TxFrame)
  | hello (lp : Fin 12) (module : BitVec 12) (sparePeer : Option (BitVec 12))
  | guest (msg : BitVec 128) (data : Line)
  | mctp (bus : Fin 2) (data : List Byte)
  | flit (l : Fin 22) (dir : Fin 2) (g : Fin 80) (f : Flit)
  | message (l : Fin 22) (dir : Fin 2) (cls : Nat) (payload : Line)
  | debug (v : Word32)
  | peer (module : BitVec 12) (opens : Bool) (part peerPart : Fin 16)
  deriving DecidableEq, Repr

end Sys2Proof.Machine
end

