-- ==== Sys2Proof/Machine/State.lean ====
section
/-! DEFINITION. The whole state of the block, its state after reset, and the ways a step can stop. -/

namespace Sys2Proof.Machine

/-- The block: its units, what it has sent out (newest first), the counter of the model's free values, and
the commands that wait, first in first out. -/
structure State where
  arr : Tbl ArrayState
  mem : MemState
  chan : ChanState
  host : HostState
  link : LinkState
  sec : SecState
  err : ErrState
  pow : PowState
  atlas : AtlasState
  energy : EnergyState
  out : List Out
  freeCount : Nat
  pending : List Instr
  deriving DecidableEq, Repr

/-- The block before any input voltage: nothing powered, every unit at its reset values (R416, R445). -/
def State.reset : State where
  arr := []
  mem := MemState.reset
  chan := ChanState.reset
  host := HostState.reset
  link := LinkState.reset
  sec := SecState.reset
  err := ErrState.reset
  pow := PowState.reset
  atlas := AtlasState.reset
  energy := EnergyState.reset
  out := []
  freeCount := 0
  pending := []

/-- Ways a step stops that the hardware itself reports as a stop. The block has none: its failures are
states of it (MODULE_FAILED, R412) or completion codes. -/
inductive Fault
  /-- Raised by no meaning: kept so that the type of a stop has a name. Safe. -/
  | none
  deriving DecidableEq, Repr

/-- Ways a step stops because the model has no effect to give. -/
inductive Refusal
  /-- Raised by a dispatch arm whose command has no meaning yet. Safe: nothing can be proved of it. -/
  | notModelled (mnemonic : String)
  deriving DecidableEq, Repr

end Sys2Proof.Machine
end

