-- ==== Sys2Proof/Machine/Numerics.lean ====
section
/-! DEFINITION. Exact numbers and one rounding at the end (04): dyadic values, IEEE 754 arithmetic on them,
rounding under RND with the generator streams of R121, and the functions of R115 within their bounds. -/

namespace Sys2Proof.Machine

/-- A value of a format: a NaN, an infinity, or (-1)^neg × m × 2^e. -/
inductive Num | nan | inf (neg : Bool) | fin (neg : Bool) (m : Nat) (e : Int)
  deriving DecidableEq, Repr

/-- The special codes of a floating-point format (R107): exponent all ones; one NaN code; none. -/
inductive Specials | ieee | oneNan | none
  deriving DecidableEq, Repr

/-- A floating-point format (R106): exponent and mantissa widths, and its special codes. -/
structure FloatFmt where
  eb : Nat
  mb : Nat
  special : Specials
  deriving DecidableEq, Repr

/-- The bias, 2^(eb-1) - 1 in every format of R106. -/
def FloatFmt.bias (f : FloatFmt) : Int := 2 ^ (f.eb - 1) - 1

/-- The code of the largest normal, without its sign (R106, R107). -/
def FloatFmt.maxMag (f : FloatFmt) : Nat :=
  match f.special with
  | .ieee => (2 ^ f.eb - 1) * 2 ^ f.mb - 1
  | .oneNan => 2 ^ (f.eb + f.mb) - 2
  | .none => 2 ^ (f.eb + f.mb) - 1

/-- The canonical NaN (R107, R108): +0 where the format has none (R117). -/
def FloatFmt.nan (f : FloatFmt) : Nat :=
  match f.special with
  | .ieee => (2 ^ f.eb - 1) * 2 ^ f.mb + 2 ^ (f.mb - 1)
  | .oneNan => 2 ^ (f.eb + f.mb) - 1
  | .none => 0

/-- A magnitude's code with its sign. -/
def FloatFmt.signed (f : FloatFmt) (neg : Bool) (mag : Nat) : Nat := (if neg then 2 ^ (f.eb + f.mb) else 0) + mag

/-- The value of a code (R106, R107, R109). -/
def FloatFmt.decode (f : FloatFmt) (raw : Nat) : Num :=
  let neg := decide (raw / 2 ^ (f.eb + f.mb) % 2 = 1)
  let mag := raw % 2 ^ (f.eb + f.mb)
  let x := mag / 2 ^ f.mb
  let t := mag % 2 ^ f.mb
  if f.maxMag < mag then (if f.special = .ieee ∧ t = 0 then .inf neg else .nan)
  else if x = 0 then .fin neg t (1 - f.bias - f.mb)
  else .fin neg (2 ^ f.mb + t) (x - f.bias - f.mb)

/-- The next state of a generator stream (R121). -/
def genNext (x : Word) : Word :=
  let x := x ^^^ (x <<< 13)
  let x := x ^^^ (x >>> 7)
  x ^^^ (x <<< 17)

/-- The draw that a stream's state gives (R121). -/
def genDraw (x : Word) : Nat := field x 48 16

/-- The initial state of stream c of a command on logical array la (R121). -/
def genSeed (seed : Word) (la c : Nat) : Word :=
  let x := seed ^^^ BitVec.ofNat 64 (la * 2 ^ 32) ^^^ BitVec.ofNat 64 (c * 2 ^ 16) ^^^ 0x2545F4914F6CDD1D
  if x = 0 then 1 else x

/-- m × 2^e cut at 2^q: the multiple below, the rest and the bits cut off. -/
def cutAt (m : Nat) (e q : Int) : Nat × Nat × Nat :=
  if q ≤ e then (m * 2 ^ (e - q).toNat, 0, 0)
  else
    let d := (q - e).toNat
    (m / 2 ^ d, m % 2 ^ d, d)

/-- Whether a value with rest r of 2^d above n rounds to n + 1: to nearest even or toward zero (R54). -/
def roundsUp (rnd n r d : Nat) : Bool :=
  decide (rnd = 0) && (decide (2 ^ d < 2 * r) || decide (2 * r = 2 ^ d ∧ n % 2 = 1))

/-- Stochastic rounding (R120) with the draw u. -/
def roundsUpDraw (r d u : Nat) : Bool := decide (65536 ≤ 65536 * r / 2 ^ d + u)

/-- A magnitude rounded to a multiple of 2^q under RND; `g` is the stream, which a draw advances. No draw is taken for an
exact value (R120), nor where `draws` is false. -/
def roundTo (m : Nat) (e q : Int) (rnd : Nat) (draws : Nat → Bool) (g : Word) : Nat × Word :=
  let (n, r, d) := cutAt m e q
  if r = 0 then (n, g)
  else if rnd = 2 then
    if draws n then (if roundsUpDraw r d (genDraw (genNext g)) then n + 1 else n, genNext g) else (n, g)
  else (if roundsUp rnd n r d then n + 1 else n, g)

/-- The exponent of the last place at a magnitude (R106, R115). -/
def FloatFmt.lastPlace (f : FloatFmt) (m : Nat) (e : Int) : Int :=
  if m = 0 then 1 - f.bias - f.mb else max (m.log2 + e) (1 - f.bias) - f.mb

/-- The code of a multiple n of 2^q, which can lie beyond the largest normal. -/
def FloatFmt.magCode (f : FloatFmt) (q : Int) (n : Nat) : Nat := (q + f.mb + f.bias - 1).toNat * 2 ^ f.mb + n

/-- A nonzero magnitude rounded into a format (R117, R120), as a code that can lie beyond the largest normal. -/
def FloatFmt.round (f : FloatFmt) (m : Nat) (e : Int) (rnd : Nat) (g : Word) : Nat × Word :=
  let q := f.lastPlace m e
  let (n, g) := roundTo m e q rnd (fun n => decide (f.magCode q n ≤ f.maxMag)) g
  (f.magCode q n, g)

/-- The result of vector arithmetic in a format (R108, R114): rounded once; beyond the largest normal an infinity, or the
largest normal toward zero. -/
def FloatFmt.result (f : FloatFmt) (rnd : Nat) (v : Num) : Nat :=
  match v with
  | .nan => f.nan
  | .inf neg => f.signed neg (f.maxMag + 1)
  | .fin neg m e =>
    if m = 0 then f.signed neg 0 else
    let mag := (f.round m e rnd 0).1
    f.signed neg (if f.maxMag < mag then (if rnd = 1 then f.maxMag else f.maxMag + 1) else mag)

/-! ### Exact arithmetic -/

/-- A sign change; a NaN stays. -/
def Num.flip : Num → Num
  | .nan => .nan
  | .inf n => .inf (!n)
  | .fin n m e => .fin (!n) m e

/-- The value is zero. -/
def Num.isZero : Num → Bool
  | .fin _ m _ => decide (m = 0)
  | _ => false

/-- A signed integer times 2^e, with the sign of a zero. -/
def Num.ofInt (i : Int) (e : Int) (zeroNeg : Bool) : Num := if i = 0 then .fin zeroNeg 0 0 else .fin (decide (i < 0)) i.natAbs e

/-- m as a signed integer in units of 2^e0, e0 not above e. -/
def scaleInt (neg : Bool) (m : Nat) (e e0 : Int) : Int := (if neg then -1 else 1) * (m * 2 ^ (e - e0).toNat : Nat)

/-- The exact sum; infinities of opposite signs give a NaN. A zero sum is -0 only for two -0. -/
def Num.add : Num → Num → Num
  | .nan, _ => .nan
  | _, .nan => .nan
  | .inf a, .inf b => if a = b then .inf a else .nan
  | .inf a, _ => .inf a
  | _, .inf b => .inf b
  | .fin na ma ea, .fin nb mb eb =>
    if ma = 0 ∧ mb = 0 then .fin (na && nb) 0 0
    else if ma = 0 then .fin nb mb eb
    else if mb = 0 then .fin na ma ea
    else
      let e0 := min ea eb
      .ofInt (scaleInt na ma ea e0 + scaleInt nb mb eb e0) e0 false

/-- The exact product; zero times an infinity gives a NaN. -/
def Num.mul : Num → Num → Num
  | .nan, _ => .nan
  | _, .nan => .nan
  | .inf a, .inf b => .inf (a != b)
  | .inf a, .fin b m _ => if m = 0 then .nan else .inf (a != b)
  | .fin a m _, .inf b => if m = 0 then .nan else .inf (a != b)
  | .fin a m e, .fin b n k => if m * n = 0 then .fin (a != b) 0 0 else .fin (a != b) (m * n) (e + k)

/-- The order of two values that are not NaN: negative, zero or positive as a lies below, with or above b; both zeros
are equal. -/
def Num.cmp : Num → Num → Int
  | .inf a, .inf b => if a = b then 0 else if a then -1 else 1
  | .inf a, _ => if a then -1 else 1
  | _, .inf b => if b then 1 else -1
  | .fin na ma ea, .fin nb mb eb =>
    let e0 := min ea eb
    scaleInt na ma ea e0 - scaleInt nb mb eb e0
  | _, _ => 0

/-- The sign bit. -/
def Num.neg : Num → Bool
  | .nan => false
  | .inf n => n
  | .fin n _ _ => n

/-- MIN and MAX (R114): the other operand of a NaN; -0 below +0. -/
def Num.minMax (mx : Bool) (a b : Num) : Num :=
  match a, b with
  | .nan, _ => b
  | _, .nan => a
  | _, _ =>
    let c := a.cmp b
    let below := decide (c < 0) || (decide (c = 0) && (a.neg || !b.neg))
    if below != mx then a else b

/-! ### Functions (R115) -/

/-- The greatest root r with r² ≤ n among those that extend r by bits below i. -/
def rootBits (n : Nat) : Nat → Nat → Nat
  | 0, r => r
  | i + 1, r =>
    let c := r + 2 ^ i
    rootBits n i (if c * c ≤ n then c else r)

/-- ⌊√n⌋. -/
def isqrt (n : Nat) : Nat := rootBits n (n.log2 / 2 + 1) 0

/-- √(m × 2^e) to 130 places more than it has, with a sticky bit below: rounding it to any format of R106 is exact. -/
def sqrtFin (m : Nat) (e : Int) : Num :=
  let (m, e) := if e % 2 = 0 then (m, e) else (2 * m, e - 1)
  let n := m * 2 ^ 260
  let r := isqrt n
  .fin false (2 * r + (if r * r = n then 0 else 1)) (e / 2 - 131)

/-- 1 / (m × 2^e) with a sticky bit. -/
def rcpFin (neg : Bool) (m : Nat) (e : Int) : Num :=
  let k := 200 + m.log2
  .fin neg (2 * (2 ^ k / m) + (if 2 ^ k % m = 0 then 0 else 1)) (-e - k - 1)

/-- ⌊π × 2^256⌋. -/
def piFix : Nat := 0x3243f6a8885a308d313198a2e03707344a4093822299f31d0082efa98ec4e6c89

/-- ⌊ln 2 × 2^200⌋. -/
def ln2Fix : Nat := 0xb17217f7d1cf79abc9e3b39803f2f6af40f343267298b62d8a

/-- The sum of t + t × x / k + …: terms of the exponential series in 200-bit fixed point. -/
def expSum (x : Nat) : Nat → Nat → Nat → Nat
  | 0, _, _ => 0
  | f + 1, k, t => t + expSum x f (k + 1) (t * x / 2 ^ 200 / (k + 1))

/-- 2^x of a finite x (R115). Far out of range it is a value that every format rounds to its bound. -/
def exp2Fin (neg : Bool) (m : Nat) (e : Int) : Num :=
  let x := scaleInt neg m e (-200)
  let x := if e < -200 then (if neg then -1 else 1) else x
  if 600 * 2 ^ 200 ≤ x then .fin false 1 600
  else if x ≤ -600 * 2 ^ 200 then .fin false 1 (-600)
  else .fin false (expSum ((x % 2 ^ 200).toNat * ln2Fix / 2 ^ 200) 60 0 (2 ^ 200)) (x / 2 ^ 200 - 200)

/-- n bits of log2 of y × 2^-256, 1 ≤ y × 2^-256 < 2. -/
def log2Bits : Nat → Nat → Nat → Nat
  | 0, _, acc => acc
  | n + 1, y, acc =>
    let y := y * y / 2 ^ 256
    if 2 ^ 257 ≤ y then log2Bits n (y / 2) (2 * acc + 1) else log2Bits n y (2 * acc)

/-- log2 (m × 2^e) of a positive value (R115). -/
def log2Fin (m : Nat) (e : Int) : Num :=
  let l := m.log2
  .ofInt ((l + e) * 2 ^ 120 + log2Bits 120 (m * 2 ^ 256 / 2 ^ l) 0) (-120) false

/-- Alternating series with terms t, t × r² / ((k + 1) (k + 2)), …, in 256-bit fixed point. -/
def trigSum (r2 : Nat) : Nat → Nat → Nat → Int
  | 0, _, _ => 0
  | f + 1, k, t => (t : Int) - trigSum r2 f (k + 2) (t * r2 / 2 ^ 256 / ((k + 1) * (k + 2)))

/-- sin or cos of a finite value (R115). -/
def trigFin (cosine neg : Bool) (m : Nat) (e : Int) : Num :=
  let x := m * 2 ^ (e + 256).toNat / 2 ^ (-(e + 256)).toNat
  let half := piFix / 2
  let k := (x / half + (if cosine then 1 else 0)) % 4
  let r := x % half
  let r2 := r * r / 2 ^ 256
  let v := if k % 2 = 0 then trigSum r2 60 1 r else trigSum r2 60 0 (2 ^ 256)
  let flips := decide (2 ≤ k) != (neg && !cosine)
  .ofInt (if flips then -v else v) (-256) (neg && !cosine)

/-- |a - b| ≤ t × 2^k for finite a and b. -/
def Num.near (a b : Num) (t : Nat) (k : Int) : Bool :=
  match a.add b.flip with
  | .fin _ m e => decide ((Num.fin false m e).cmp (.fin false t k) ≤ 0)
  | _ => false

/-- A result within a bound of an exact value: the free code where it lies within, else the rounded value. -/
def FloatFmt.within (f : FloatFmt) (rnd : Nat) (x : Num) (t : Nat) (k : Int) (free : Nat) : Nat :=
  let c := free % 2 ^ (f.eb + f.mb + 1)
  if (f.decode c).near x t k then c else f.result rnd x

/-- A result within n units in the last place (R115). -/
def FloatFmt.ulps (f : FloatFmt) (rnd : Nat) (x : Num) (n : Nat) (free : Nat) : Nat :=
  match x with
  | .fin _ m e => f.within rnd x n (f.lastPlace m e) free
  | _ => f.result rnd x

/-- The operations of classes 0x1, 0x2 and 0x3 (R55). -/
inductive FpOp | add | mul | fma | min | max | abs | rcp | rsq | sqrt | exp2 | log2 | sin | cos
  deriving DecidableEq, Repr

/-- Operands that an operation reads. -/
def FpOp.arity : FpOp → Nat
  | .add => 2
  | .mul => 2
  | .fma => 3
  | .min => 2
  | .max => 2
  | _ => 1

/-- The exact value of an operation (R114, R115); the functions of a zero or an infinity are IEEE 754's. -/
def FpOp.exact (op : FpOp) (a b c : Num) : Num :=
  match op with
  | .add => a.add b
  | .mul => a.mul b
  | .fma => (a.mul b).add c
  | .min => a.minMax false b
  | .max => a.minMax true b
  | .abs => match a with
    | .nan => .nan
    | .inf _ => .inf false
    | .fin _ m e => .fin false m e
  | .rcp => match a with
    | .nan => .nan
    | .inf n => .fin n 0 0
    | .fin n m e => if m = 0 then .inf n else rcpFin n m e
  | .sqrt => match a with
    | .fin n m e => if m = 0 then a else if n then .nan else sqrtFin m e
    | .inf false => a
    | _ => .nan
  | .rsq => match a with
    | .fin n m e => if m = 0 then .inf n else if n then .nan else
      (match sqrtFin m e with
        | .fin _ r k => rcpFin false r k
        | x => x)
    | .inf false => .fin false 0 0
    | _ => .nan
  | .exp2 => match a with
    | .nan => .nan
    | .inf n => if n then .fin false 0 0 else .inf false
    | .fin n m e => if m = 0 then .fin false 1 0 else exp2Fin n m e
  | .log2 => match a with
    | .fin n m e => if m = 0 then .inf true else if n then .nan else log2Fin m e
    | .inf false => a
    | _ => .nan
  | .sin => match a with
    | .fin n m e => if m = 0 then a else trigFin false n m e
    | _ => .nan
  | .cos => match a with
    | .fin n m e => if m = 0 then .fin false 1 0 else trigFin true n m e
    | _ => .nan

/-- The units in the last place that an operation may err by in FP32 (R115); 0: correctly rounded. -/
def FpOp.bound : FpOp → Nat
  | .rcp => 1
  | .rsq => 2
  | .exp2 => 2
  | .log2 => 2
  | .sin => 2
  | .cos => 2
  | _ => 0

/-- The result of an operation and the cause of a NaN result, 0 for none (R114, R115, R130). `exactly`: FP64 and packed
forms, correctly rounded. -/
def FpOp.run (op : FpOp) (f : FloatFmt) (exactly : Bool) (rnd : Nat) (a b c : Num) (free : Nat) : Nat × Nat :=
  let x := op.exact a b c
  let nanIn := decide (a = .nan) || (decide (2 ≤ op.arity) && decide (b = .nan)) || (decide (op.arity = 3) && decide (c = .nan))
  let r := if exactly ∨ op.bound = 0 then f.result rnd x
    else
      let far : Bool := match a with
        | .fin _ m e => decide (0 < (Num.fin false m e).cmp (.fin false 1 20))
        | _ => false
      if (op = .sin ∨ op = .cos) ∧ far then f.within rnd x 1 (-22) free else f.ulps rnd x op.bound free
  (r, if x = .nan then (if nanIn then 4 else 1) else 0)

end Sys2Proof.Machine
end

