-- ==== Sys2Proof/Machine/Formats.lean ====
section
/-! DEFINITION. The format codes and the conversions between them (04, R105-R128): values of codes, rounding and
clamping with what the numeric report counts, and block scaling. -/

namespace Sys2Proof.Machine

/-! ### Format codes (R105) -/

/-- Bits of an element of a format code in memory, per element (R105, R258); a U12P sample takes 12. -/
def fmtBits (f : Nat) : Nat :=
  match f % 16 with
  | 0 => 64 | 1 => 32 | 2 => 16 | 3 => 16 | 4 => 8 | 5 => 8 | 6 => 6 | 7 => 6
  | 8 => 4 | 9 => 8 | 10 => 32 | 11 => 16 | 12 => 8 | 13 => 4 | 14 => 12 | _ => 64

/-- An integer format. -/
def fmtIsInt (c : Nat) : Bool := decide (10 ≤ c % 16 ∧ c % 16 ≠ 14)

/-- A floating-point format: codes 0x0-0x8. -/
def fmtIsFloat (c : Nat) : Bool := decide (c % 16 ≤ 8)

/-- An MX element format: FP8, FP6 and FP4. -/
def fmtIsMx (c : Nat) : Bool := decide (4 ≤ c % 16 ∧ c % 16 ≤ 8)

/-- A reserved encoding in a format field of an array: INT64, or bit [4] on a format that is not an integer. -/
def fmtReserved (c : Nat) : Bool := decide (c % 16 = 15) || (decide (16 ≤ c) && !fmtIsInt c)

/-- The layout of a floating-point format (R106). -/
def floatFmt (c : Nat) : FloatFmt :=
  match c % 16 with
  | 0 => ⟨11, 52, .ieee⟩
  | 1 => ⟨8, 23, .ieee⟩
  | 2 => ⟨8, 7, .ieee⟩
  | 3 => ⟨5, 10, .ieee⟩
  | 4 => ⟨4, 3, .oneNan⟩
  | 5 => ⟨5, 2, .ieee⟩
  | 6 => ⟨3, 2, .none⟩
  | 7 => ⟨2, 3, .none⟩
  | _ => ⟨2, 1, .none⟩

/-- The range of an integer format (R110). -/
def intRange (c : Nat) : Int × Int :=
  let w := fmtBits c
  if 16 ≤ c then (0, 2 ^ w - 1) else (-(2 ^ (w - 1)), 2 ^ (w - 1) - 1)

/-- The integer that a code of an integer format stands for; the other bits are ignored (R105, R110). -/
def intValue (c raw : Nat) : Int :=
  let w := fmtBits c
  let v := raw % 2 ^ w
  if c < 16 ∧ 2 ^ (w - 1) ≤ v then (v : Int) - 2 ^ w else v

/-- The low bits of an integer in a format. -/
def intRaw (c : Nat) (i : Int) : Nat := (i % 2 ^ fmtBits c).toNat

/-- The value of a code (R106, R107, R110, R119); of U12P, of one sample. -/
def numOf (c raw : Nat) : Num :=
  if fmtIsFloat c then (floatFmt c).decode raw
  else if fmtIsInt c then .ofInt (intValue c raw) 0 false
  else if c % 16 = 9 then (if raw % 256 = 255 then .nan else .fin false 1 ((raw % 256 : Nat) - 127))
  else .fin false (raw % 4096) 0

/-! ### Counts (R128) -/

/-- Nothing counted. -/
def NumCounts.zero : NumCounts := ⟨0, 0, 0, 0, 0⟩

/-- A 32-bit counter that stops at its maximum. -/
def satAdd (a b : Nat) : Nat := min (a + b) (2 ^ 32 - 1)

/-- Counts added, each stopping at its maximum. -/
def NumCounts.plus (a b : NumCounts) : NumCounts :=
  ⟨satAdd a.crushed b.crushed, satAdd a.saturated b.saturated, satAdd a.nanDropped b.nanDropped, satAdd a.nanBlocks b.nanBlocks,
    satAdd a.traps b.traps⟩

/-- The sum of the counts of two arrays (R129). -/
def NumCounts.total (a b : NumCounts) : NumCounts :=
  ⟨a.crushed + b.crushed, a.saturated + b.saturated, satAdd a.nanDropped b.nanDropped, satAdd a.nanBlocks b.nanBlocks, a.traps + b.traps⟩

/-- One clamped result. -/
def NumCounts.sat : NumCounts := ⟨0, 1, 0, 0, 0⟩

/-- One NaN dropped. -/
def NumCounts.drop : NumCounts := ⟨0, 0, 1, 0, 0⟩

/-! ### Conversions (R113, R117-R120) -/

/-- What a conversion gives: the code, the counts, the cause of a NaN result (R130, 0 for none), and the stream. -/
structure Conv where
  raw : Nat
  counts : NumCounts
  cause : Nat
  g : Word
  deriving DecidableEq, Repr

/-- A value beyond the largest normal after rounding (R117). -/
def overflow (f : FloatFmt) (neg : Bool) (rnd : Nat) (sat : Bool) (g : Word) : Conv :=
  let top : Conv := ⟨f.signed neg f.maxMag, .sat, 0, g⟩
  match f.special with
  | .ieee => if sat ∨ rnd = 1 then top else ⟨f.signed neg (f.maxMag + 1), .zero, 0, g⟩
  | .oneNan => if sat then top else ⟨f.nan, .zero, 2, g⟩
  | .none => top

/-- A value converted into a floating-point format (R117, R128). -/
def toFloat (c : Nat) (v : Num) (rnd : Nat) (sat : Bool) (g : Word) : Conv :=
  let f := floatFmt c
  match v with
  | .nan => if f.special = .none then ⟨0, .drop, 0, g⟩ else ⟨f.nan, .zero, 4, g⟩
  | .inf neg =>
    (match f.special with
      | .ieee => if sat then ⟨f.signed neg f.maxMag, .sat, 0, g⟩ else ⟨f.signed neg (f.maxMag + 1), .zero, 0, g⟩
      | _ => overflow f neg rnd sat g)
  | .fin neg m e =>
    if m = 0 then ⟨f.signed neg 0, .zero, 0, g⟩ else
    let (mag, g) := f.round m e rnd g
    if f.maxMag < mag then overflow f neg rnd sat g
    else ⟨f.signed neg mag, if mag = 0 ∧ fmtIsMx c then ⟨1, 0, 0, 0, 0⟩ else .zero, 0, g⟩

/-- A value rounded to an integer under RND. -/
def roundInt (neg : Bool) (m : Nat) (e : Int) (rnd : Nat) (g : Word) : Int × Word :=
  let (n, g) := roundTo m e 0 rnd (fun _ => true) g
  (if neg then -(n : Int) else n, g)

/-- A floating-point value rounded and clamped to a range, a NaN giving 0 (R113, R118). -/
def toRange (lo hi : Int) (v : Num) (rnd : Nat) (g : Word) : Int × NumCounts × Word :=
  match v with
  | .nan => (0, .drop, g)
  | .inf neg => (if neg then lo else hi, .sat, g)
  | .fin neg m e =>
    let (i, g) := roundInt neg m e rnd g
    if i < lo then (lo, .sat, g) else if hi < i then (hi, .sat, g) else (i, .zero, g)

/-- An integer clamped to a range when SAT is 1 (R113, R118). -/
def clampInt (lo hi i : Int) (sat : Bool) : Int × NumCounts :=
  if sat ∧ i < lo then (lo, .sat) else if sat ∧ hi < i then (hi, .sat) else (i, .zero)

/-- The integer of a value that came from an integer format. -/
def Num.toInt : Num → Int
  | .fin neg m e => scaleInt neg m e 0
  | _ => 0

/-- A value converted into E8M0 (R119). -/
def toScale (v : Num) (g : Word) : Conv :=
  match v with
  | .fin _ m e =>
    if m = 0 then ⟨0, .zero, 0, g⟩ else
    let x := (m.log2 : Int) + e + 127
    if x < 0 then ⟨0, .sat, 0, g⟩ else if 254 < x then ⟨254, .sat, 0, g⟩ else ⟨x.toNat, .zero, 0, g⟩
  | .nan => ⟨255, .zero, 4, g⟩
  | .inf _ => ⟨255, .zero, 0, g⟩

/-- A value converted into a format; `fromInt`: it comes from an integer or a sample (R113, R117-R119). -/
def convert (dst : Nat) (fromInt : Bool) (v : Num) (rnd : Nat) (sat : Bool) (g : Word) : Conv :=
  if fmtIsFloat dst then toFloat dst v rnd sat g
  else if dst % 16 = 9 then toScale v g
  else
    let (lo, hi) := if dst % 16 = 14 then ((0 : Int), (4095 : Int)) else intRange dst
    if fromInt then
      let (i, n) := clampInt lo hi v.toInt sat
      ⟨intRaw dst i, n, 0, g⟩
    else
      let (i, n, g) := toRange lo hi v rnd g
      ⟨intRaw dst i, n, 0, g⟩

/-- Values of a format are integers: the integer formats and samples. -/
def fmtFromInt (c : Nat) : Bool := fmtIsInt c || decide (c % 16 = 14)

/-! ### Block scaling (R125-R127) -/

/-- emax of an element format (R126). -/
def fmtEmax (c : Nat) : Int :=
  match c % 16 with
  | 4 => 8
  | 5 => 15
  | 6 => 4
  | _ => 2

/-- The scale of a block and the cause of a NaN block (R126, R130): an infinity, else a NaN. -/
def blockScale (dst : Nat) (xs : List Num) : Nat × Nat :=
  let bad (x : Num) : Bool := match x with | .fin _ _ _ => false | _ => true
  if xs.any bad then (255, if xs.any (fun x => decide (x = .inf true ∨ x = .inf false)) then 3 else 4)
  else
    let mags := xs.filterMap (fun x => match x with | .fin _ m e => if m = 0 then none else some ((m.log2 : Int) + e) | _ => none)
    match mags with
    | [] => (0, 0)
    | a :: t =>
      let x := t.foldl max a - fmtEmax dst
      ((max (-127) (min 127 x) + 127).toNat, 0)

/-- One element of a block under its scale (R126). -/
def blockElem (dst scale : Nat) (allZero : Bool) (x : Num) (rnd : Nat) (g : Word) : Conv :=
  if scale = 255 ∨ allZero then ⟨0, .zero, 0, g⟩ else
  match x with
  | .fin n m e => toFloat dst (.fin n m (e - ((scale : Int) - 127))) rnd true g
  | _ => ⟨0, .zero, 0, g⟩

/-- An element decoded with its block's scale (R125). -/
def scaledNum (c raw scale : Nat) : Num :=
  if scale % 256 = 255 then .nan else
  match numOf c raw with
  | .fin n m e => .fin n m (e + ((scale % 256 : Nat) - 127))
  | x => x

/-- One churn operation of a COPY on an element (R165, R167). -/
def churnElem (df op old v : Nat) : Nat :=
  if df ≤ 3 then
    let f := floatFmt df
    let a := f.decode old
    let b := f.decode v
    f.result 0 (if op = 1 then a.add b else Num.minMax (decide (op = 3)) a b)
  else
    let less := decide (intValue df old ≤ intValue df v)
    match op with
    | 1 => (old + v) % 2 ^ fmtBits df
    | 2 => if less then old else v
    | 3 => if less then v else old
    | 4 => old &&& v
    | 5 => old ||| v
    | _ => old ^^^ v

end Sys2Proof.Machine
end

