-- ==== Sys2Proof/Machine/Ops.lean ====
section
/-! DEFINITION. The named operations over State that every family uses: reads and writes of its tables, free
values, what the block sends out, error reports, pool addresses and plots, and memory below the caches. -/

namespace Sys2Proof.Machine

/-! ### Tables of State -/

/-- The array that runs as a logical array. -/
def State.array (s : State) (la : Nat) : ArrayState := Tbl.get ArrayState.idle s.arr la

/-- Replaces an array's state. -/
def State.setArray (s : State) (la : Nat) (a : ArrayState) : State :=
  { s with arr := Tbl.set ArrayState.idle s.arr la a }

/-- A partition. -/
def State.partition (s : State) (p : Fin 16) : Partition := Tbl.get Partition.absent s.chan.parts p.val

/-- Replaces a partition. -/
def State.setPartition (s : State) (p : Fin 16) (x : Partition) : State :=
  { s with chan := { s.chan with parts := Tbl.set Partition.absent s.chan.parts p.val x } }

/-- A port. -/
def State.port (s : State) (n : Fin 2) : PortState := if n = 0 then s.host.port0 else s.host.port1

/-- Replaces a port. -/
def State.setPort (s : State) (n : Fin 2) (x : PortState) : State :=
  if n = 0 then { s with host := { s.host with port0 := x } } else { s with host := { s.host with port1 := x } }

/-- The key of a function of a port. -/
def fnKey (port : Fin 2) (fn : Fin 128) : Nat := 128 * port.val + fn.val

/-- A function. -/
def State.fn (s : State) (port : Fin 2) (f : Fin 128) : FnState := Tbl.get FnState.reset s.host.fns (fnKey port f)

/-- Replaces a function. -/
def State.setFn (s : State) (port : Fin 2) (f : Fin 128) (x : FnState) : State :=
  { s with host := { s.host with fns := Tbl.set FnState.reset s.host.fns (fnKey port f) x } }

/-- FUNCTION of a port's function, as channel-entry bytes [31:30] lay it out (R242). -/
def fnWord (port : Fin 2) (fn : Fin 128) : BitVec 16 := BitVec.ofNat 16 (fnKey port fn)

/-- A channel entry (R242). -/
def State.entry (s : State) (ch : Fin 3072) : BitVec 512 := Tbl.get 0 s.chan.entries ch.val

/-- What the front end keeps of a channel. -/
def State.dyn (s : State) (ch : Fin 3072) : ChanDyn := Tbl.get ChanDyn.reset s.chan.dyn ch.val

/-- Replaces what the front end keeps of a channel. -/
def State.setDyn (s : State) (ch : Fin 3072) (d : ChanDyn) : State :=
  { s with chan := { s.chan with dyn := Tbl.set ChanDyn.reset s.chan.dyn ch.val d } }

/-- A link port. -/
def State.lp (s : State) (n : Nat) : LinkPort := Tbl.get LinkPort.reset s.link.lps n

/-- Replaces a link port. -/
def State.setLp (s : State) (n : Nat) (x : LinkPort) : State :=
  { s with link := { s.link with lps := Tbl.set LinkPort.reset s.link.lps n x } }

/-- A slot (R32). -/
def State.slot (s : State) (n : Nat) : SlotState := Tbl.get SlotState.reset s.atlas.slots n

/-- Replaces a slot. -/
def State.setSlot (s : State) (n : Nat) (x : SlotState) : State :=
  { s with atlas := { s.atlas with slots := Tbl.set SlotState.reset s.atlas.slots n x } }

/-- A service core (CORE_STATE). -/
def State.core (s : State) (n : Nat) : CoreState := Tbl.get CoreState.reset s.atlas.cores n

/-- Replaces a core. -/
def State.setCore (s : State) (n : Nat) (x : CoreState) : State :=
  { s with atlas := { s.atlas with cores := Tbl.set CoreState.reset s.atlas.cores n x } }

/-- A die: 0-7 CD, 8-11 HB, 12-13 SD, 14 IOD (R392). -/
def State.dieState (s : State) (n : Nat) : DieState := Tbl.get ⟨.present, false⟩ s.link.dies n

/-- A hub die is present (R410). -/
def State.hubUp (s : State) (h : Nat) : Bool := decide ((s.dieState (8 + h)).mode = .present)

/-- Replaces a die. -/
def State.setDie (s : State) (n : Nat) (x : DieState) : State :=
  { s with link := { s.link with dies := Tbl.set ⟨.present, false⟩ s.link.dies n x } }

/-- A power domain (R421). -/
def State.domain (s : State) (n : Nat) : Domain := Tbl.get Domain.off s.pow.domains n

/-- Replaces a power domain. -/
def State.setDomain (s : State) (n : Nat) (x : Domain) : State :=
  { s with pow := { s.pow with domains := Tbl.set Domain.off s.pow.domains n x } }

/-- The command of a reference, while it is not complete. -/
def State.cmd (s : State) (c : CmdRef) : Option Cmd :=
  s.chan.cmds.find? (fun x => decide (x.ch = c.ch ∧ x.idx = c.idx))

/-- Replaces a command, by its reference. -/
def State.setCmd (s : State) (x : Cmd) : State :=
  { s with chan := { s.chan with cmds := s.chan.cmds.map (fun y => if y.ch = x.ch ∧ y.idx = x.idx then x else y) } }

/-- Drops a command that is complete. -/
def State.dropCmd (s : State) (c : CmdRef) : State :=
  { s with chan := { s.chan with cmds := s.chan.cmds.filter (fun y => !decide (y.ch = c.ch ∧ y.idx = c.idx)) } }

/-- The reference of a command. -/
def Cmd.ref (c : Cmd) : CmdRef := ⟨c.ch, c.idx⟩

/-- Sends something out. -/
def State.emit (s : State) (o : Out) : State := { s with out := o :: s.out }

/-- A free value of w bits, and the state with the counter advanced. -/
def State.freeVal (s : State) (w : Nat) : BitVec w × State :=
  ((Config.free s.freeCount).setWidth w, { s with freeCount := s.freeCount + 1 })

/-- Charges n events to a partition and, where they serve one, a command (R434): each count takes its weight, its part of the
conversion loss, and the factor k. -/
def State.charge (s : State) (p : Fin 16) (c : Option CmdRef) (e : EnergyEvent) (n : Nat) : State :=
  let x := s.energy
  let raw := n * Config.energyWeight e.code * (1000 + Config.conversionLoss)
  { s with energy := { x with
    counts := addFigure x.counts e n
    parts := addFigure x.parts p (raw * s.pow.calibK)
    cmds := match c with
      | some r => addFigure x.cmds r (raw * s.pow.calibK)
      | none => x.cmds
    modelled := x.modelled + raw } }

/-- ENERGY of a command's completion record in µJ, its account closed; the fraction goes forward on its channel (R435). -/
def State.recordEnergy (s : State) (c : CmdRef) : Nat × State :=
  let x := s.energy
  let v := figure x.cmds c + figure x.carry c.ch
  (v / 10 ^ 12, { s with energy := { x with
    cmds := x.cmds.filter (fun y => decide (y.1 ≠ c))
    carry := x.carry.filter (fun y => decide (y.1 ≠ c.ch)) ++ [(c.ch, v % 10 ^ 12)] } })

/-- ENERGY of a partition's INTERVAL_REPORT in µJ, at most the field's maximum; the fraction goes forward (R435). -/
def State.intervalEnergy (s : State) (p : Fin 16) : Nat × State :=
  let x := s.energy
  let v := figure x.parts p
  (min (v / 10 ^ 12) (2 ^ 32 - 1), { s with energy := { x with
    parts := x.parts.filter (fun y => decide (y.1 ≠ p)) ++ [(p, v % 10 ^ 12)] } })

/-- The Atlas is published and the module has not failed (R412, R445). -/
def State.up (s : State) : Bool := decide (s.pow.stage = .published) && s.pow.moduleFailed.isNone

/-- The module and the port serve requests (R330, R333). -/
def State.portServes (s : State) (port : Fin 2) : Bool := s.up && (s.port port).ready

/-- The function exists: the physical function, or an enabled virtual function (R315, R329). -/
def State.fnExists (s : State) (port : Fin 2) (fn : Fin 128) : Bool := decide (fn.val = 0 ∨ fn.val ≤ (s.port port).numVfs)

/-- A received TLP belongs to a stream in its insecure state and is discarded (R327). -/
def State.tlpDropped (s : State) (port : Fin 2) (fn : Fin 128) : Bool :=
  (s.port port).ide.any (fun x => x.insecure && decide (x.firstFn ≤ fn.val ∧ fn.val ≤ x.lastFn))

/-- The BAR0 of a function takes an access (R331, R333, R455): not while the function is RESETTING. DEDUCED: rules say so of
that state only. -/
def State.barServes (s : State) (port : Fin 2) (fn : Fin 128) : Bool :=
  s.portServes port && s.fnExists port fn && decide ((s.fn port fn).mode ≠ .resetting) && !s.tlpDropped port fn

/-- Logic is powered: the rails have come up and the descent has not begun (R416, R418). -/
def State.powered (s : State) : Bool :=
  match s.pow.stage with
  | .unpowered => false
  | .softStart => false
  | .rails _ => false
  | .descending => false
  | _ => true

/-! ### Error reports (R391-R393, R436) -/

/-- SEVERITY and LEVEL of a type (R393, R436), none for a reserved type. -/
def errType (ty : Nat) : Option (Nat × Nat) :=
  if ty = 0x0001 ∨ ty = 0x0003 then some (0, 0)
  else if ty = 0x0002 then some (2, 0)
  else if ty = 0x0010 then some (0, 1)
  else if ty = 0x0011 ∨ ty = 0x0012 ∨ ty = 0x0013 then some (2, 1)
  else if ty = 0x0020 ∨ ty = 0x0021 ∨ ty = 0x0023 ∨ ty = 0x0030 ∨ ty = 0x0038 ∨ ty = 0x0040 ∨ ty = 0x0065 then some (0, 2)
  else if ty = 0x0022 ∨ ty = 0x0024 ∨ ty = 0x0026 ∨ ty = 0x0027 ∨ ty = 0x0028 ∨ ty = 0x0031 ∨ ty = 0x003A then some (1, 2)
  else if ty = 0x0025 ∨ ty = 0x0039 ∨ ty = 0x0044 ∨ ty = 0x0045 ∨ ty = 0x0046 ∨ ty = 0x0064 ∨ ty = 0x0066 then some (2, 2)
  else if ty = 0x0041 ∨ ty = 0x0072 ∨ ty = 0x0073 ∨ ty = 0x0074 ∨ ty = 0x0075 then some (2, 3)
  else if ty = 0x0042 ∨ ty = 0x0043 ∨ ty = 0x0050 ∨ ty = 0x0051 ∨ ty = 0x0052 then some (3, 3)
  else if ty = 0x0053 ∨ ty = 0x0060 ∨ ty = 0x0061 ∨ ty = 0x0063 ∨ ty = 0x0067 then some (4, 3)
  else if ty = 0x0062 ∨ ty = 0x0068 ∨ ty = 0x0070 ∨ ty = 0x0071 ∨ ty = 0x0080 then some (0, 3)
  else if ty = 0x0076 then some (1, 3)
  else none

/-- A unit ID of R392. -/
def unitId (cls idx : Nat) : BitVec 16 := BitVec.ofNat 16 (cls * 4096 + idx)

/-- The region whose controller takes a unit's report (R15, R233, R387, R410). DEDUCED for dies and links. -/
def regionOf (unit : BitVec 16) : Fin 23 :=
  let i := field unit 0 12
  let r : Nat := match field unit 12 4 with
    | 1 => i / 26
    | 2 => i
    | 3 => if i < 8 then 16 + i / 2 else if i < 12 then 22 else if i = 12 then 16 else if i = 13 then 18 else 22
    | 4 => 16 + i / 96
    | 5 => 16 + i / 24
    | 6 => 20 + i / 80
    | 7 => if i < 8 then 16 + i / 2 else if i < 11 then 16 else if i < 13 then 17 else if i = 13 then 18
           else if i < 18 then 16 + (i - 14) else 16 + (i - 18)
    | 11 => 18
    | 12 => if i < 416 then i / 26 else if i < 448 then 16 + (i - 416) / 8 else if i < 468 then 20 + (i - 448) / 10
            else if i < 492 then 16 + (i - 468) / 6 else 22
    | _ => 22
  if h : r < 23 then ⟨r, h⟩ else 22

/-- A report of R391 without partition, channel or address. -/
def mkReport (ty : Nat) (unit : BitVec 16) (detail : Nat) : Report :=
  ⟨BitVec.ofNat 16 ty, unit, 0, 0xFFFF, unit, BitVec.ofNat 32 detail, 0⟩

/-- A unit makes a report: it waits for its region controller (R395). -/
def State.report (s : State) (r : Report) : State :=
  { s with err := { s.err with raised := s.err.raised ++ [(regionOf r.unit, r)] } }

/-- The bit of a partition. -/
def partBit (p : Fin 16) : BitVec 16 := BitVec.ofNat 16 (2 ^ p.val)

/-! ### Pool addresses (R136-R143) -/

/-- The pool's size in bytes (R136). -/
def poolBytes : Nat := 1128 * 2 ^ 30

/-- The units of a band's list, or of the hub set of a confined band (R140). -/
def State.unitList (s : State) (confined : Bool) (hub : Nat) : List Nat :=
  if confined then (List.range 96).filterMap (fun i =>
      if s.mem.unitsAtBoot.getLsbD (96 * hub + i) then some (96 * hub + i) else none)
  else (List.range 384).filter (fun i => s.mem.unitsAtBoot.getLsbD i)

/-- A band is hub-confined (R144). -/
def State.confinedBand (s : State) (band : Nat) : Bool := s.mem.bandMode.getLsbD band

/-- The hub of a confined plot (R139). -/
def hubOfPlot (plot : Nat) : Nat := plot % 24 / 6

/-- The number of units of the list that carries a plot. -/
def State.unitsOfPlot (s : State) (plot : Nat) : Nat :=
  (s.unitList (s.confinedBand (plot / 24)) (hubOfPlot plot)).length

/-- A plot is ABSENT: its list does not carry it (R140, R145). -/
def State.plotAbsent (s : State) (plot : Nat) : Bool :=
  if s.confinedBand (plot / 24) then decide (s.unitsOfPlot plot / 16 ≤ plot % 6)
  else decide (s.unitsOfPlot plot / 16 ≤ plot % 24)

/-- Where the projection places a pool address (R141): unit and channel-local address. -/
def State.project (s : State) (pa : Nat) : Nat × Nat :=
  let page := pa / 4096
  let band := page / 6291456
  let q0 := page % 6291456
  let conf := s.confinedBand band
  let l := s.unitList conf (q0 / 1572864)
  let q := if conf then q0 % 1572864 else q0
  let n := l.length
  let g := q / n
  let i := q % n
  let m := ((g * 0x9E37) ^^^ (g / 64)) % 65536
  (l.getD ((i + m) % n) 0, (16384 * band + g) * 4096 + pa % 4096)

/-- The unit of a line (R142). -/
def State.unitOf (s : State) (line : Nat) : Nat := (s.project (128 * line)).1

/-- The channel-local page of a line. -/
def State.pageOf (s : State) (line : Nat) : Nat := (s.project (128 * line)).2 / 4096

/-- The home slice of a unit (R143). -/
def sliceOfUnit (u : Nat) : Nat := 4 * (u / 16) + u % 16 / 4

/-- The home slice of a pool line (R143). -/
def State.sliceOf (s : State) (line : Nat) : Nat := sliceOfUnit (s.unitOf line)

/-- The set of a pool line in its slice (R174). -/
def State.setOf (s : State) (line : Nat) : Nat :=
  let (u, la) := s.project (128 * line)
  let l := la / 128
  ((l % 8192) ||| ((u % 16 % 4) * 8192)) ^^^ (l / 8192 % 32768)

/-- A channel is in service (R154). -/
def State.unitUp (s : State) (u : Nat) : Bool := s.mem.unitsUp.getLsbD u

/-- Who holds a plot (R145). -/
def State.plot (s : State) (p : Nat) : PlotHold := Tbl.get .free s.mem.plots p

/-- Replaces a plot's holding. -/
def State.setPlot (s : State) (p : Nat) (h : PlotHold) : State :=
  { s with mem := { s.mem with plots := Tbl.set .free s.mem.plots p h } }

/-- A request of partition p may reach a line (R137, R375); `write` for every request but RdOnce and RdS. -/
def State.reach (s : State) (p : Fin 16) (line : Nat) (write : Bool) : Bool :=
  let plot := line / 8388608
  decide (plot < 1128) && !s.plotAbsent plot &&
    match s.plot plot with
    | .granted o m => decide (o = p) || (!write && m.getLsbD p.val)
    | _ => false

/-- The plot of a line belongs to p. -/
def State.owns (s : State) (p : Fin 16) (line : Nat) : Bool :=
  let plot := line / 8388608
  decide (plot < 1128) && !s.plotAbsent plot &&
    match s.plot plot with
    | .granted o _ => decide (o = p)
    | _ => false

/-! ### Memory below the caches (R149-R154, R165-R169) -/

/-- Memory is in its canonical form. -/
def State.memWf (s : State) : Bool := Tbl.wf 0 s.mem.bytes && Tbl.wf false s.mem.poison

/-- The bytes of memory from an address, least significant first, as a number. -/
def memNat (t : Tbl Byte) : Nat → Nat → Nat
  | _, 0 => 0
  | a, n + 1 => (Tbl.get 0 t a).toNat + 256 * memNat t (a + 1) n

/-- Writes the masked bytes of a line from byte i on. -/
def memPut (d : Line) (m : BitVec 128) (base : Nat) : Nat → Nat → Tbl Byte → Tbl Byte
  | _, 0, t => t
  | i, n + 1, t => memPut d m base (i + 1) n (if m.getLsbD i then Tbl.set 0 t (base + i) (lineByte d i) else t)

/-- A line as its channel holds it: data and poison of its granules. A channel out of service delivers
poison (R154). -/
def State.memLine (s : State) (line : Nat) : Line × BitVec 2 :=
  if s.unitUp (s.unitOf line) then
    (BitVec.ofNat 1024 (memNat s.mem.bytes (128 * line) 128),
     BitVec.ofBool (Tbl.get false s.mem.poison (2 * line + 1)) ++ BitVec.ofBool (Tbl.get false s.mem.poison (2 * line)))
  else (0, 3)

/-- Marks a granule poisoned or clean (R150). -/
def State.setPoison (s : State) (granule : Nat) (b : Bool) : State :=
  { s with mem := { s.mem with poison := Tbl.set false s.mem.poison granule b } }

/-- The mask covers granule g of the line. -/
def covers (m : BitVec 128) (g : Nat) : Bool := decide (bits m (64 * g) 64 = BitVec.allOnes 64)

/-- A write at the channel: discarded out of service (R154); a whole granule replaces its poison, and a
partial write leaves it (R150). `p` marks granules written as poisoned. -/
def State.writeMem (s : State) (line : Nat) (d : Line) (m : BitVec 128) (p : BitVec 2) : State :=
  if s.unitUp (s.unitOf line) then
    let q (g : Nat) : Bool := p.getLsbD g || (Tbl.get false s.mem.poison (2 * line + g) && !covers m g)
    { s with mem := { s.mem with
      bytes := memPut d m (128 * line) 0 128 s.mem.bytes
      poison := Tbl.set false (Tbl.set false s.mem.poison (2 * line) (q 0)) (2 * line + 1) (q 1) } }
  else s

/-- The result of a signed or unsigned minimum of w-bit integers. -/
def sminW (w : Nat) (a b : Nat) : Nat :=
  if (BitVec.ofNat w a).toInt ≤ (BitVec.ofNat w b).toInt then a else b

/-- The signed maximum of w-bit integers. -/
def smaxW (w : Nat) (a b : Nat) : Nat :=
  if (BitVec.ofNat w a).toInt ≤ (BitVec.ofNat w b).toInt then b else a

/-- An atomic's new value from the old one, on w-bit integers (R55, R56, R165). -/
def applyAtomic (op : AtomicOp) (w old v swap : Nat) : Nat :=
  match op with
  | .add => (old + v) % 2 ^ w
  | .min => sminW w old v
  | .max => smaxW w old v
  | .and => old &&& v
  | .or => old ||| v
  | .xor => old ^^^ v
  | .exch => v
  | .cas => if old = v then swap else old

/-- The atomic that a RED form performs. -/
def redAtomic : RedOp → AtomicOp
  | .add => .add
  | .min => .min
  | .max => .max
  | .and => .and
  | .or => .or
  | .xor => .xor

/-- Bits of an element of SIZE 2 or 3 (R55). -/
def elemBits (size : Nat) : Nat := if size = 3 then 64 else 32

/-- One reduction on a line's data at byte offset off. -/
def redLine (op : RedOp) (size off : Nat) (v : Word) (d : Line) : Line :=
  let w := elemBits size
  let old := (bits d (8 * off) 64).toNat % 2 ^ w
  putField d (8 * off) w (applyAtomic (redAtomic op) w old (v.toNat % 2 ^ w) 0)

/-- Bytes of the element of a churn operation (R165). -/
def ChurnDo.bytes : ChurnDo → Nat
  | .red _ size => elemBits size / 8
  | .copy fmt _ => fmtBits fmt / 8

/-- A churn operation on a line's data (R165, R167). -/
def ChurnOp.apply (o : ChurnOp) (d : Line) : Line :=
  match o.what with
  | .red op size => redLine op size o.off o.v d
  | .copy fmt op => putField d (8 * o.off) (fmtBits fmt) (churnElem fmt op (field d (8 * o.off) (fmtBits fmt)) o.v.toNat)

/-- A line as memory's reads see it: accepted churn operations that wait are combined in order (R166). -/
def combine (ops : List ChurnOp) (line : Nat) : Line × BitVec 2 → Line × BitVec 2
  | (d, p) => (ops.foldl (fun x o => if o.line = line ∧ ¬ o.refused ∧ ¬ p.getLsbD (o.off / 64) then o.apply x else x) d, p)

/-- A line as a read at its channel delivers it. -/
def State.readMem (s : State) (line : Nat) : Line × BitVec 2 := combine s.mem.churn line (s.memLine line)

/-! ### Regulators and trackers (R158-R161) -/

/-- All partitions. -/
def allParts : List (Fin 16) := [0, 1, 2, 3, 4, 5, 6, 7, 8, 9, 10, 11, 12, 13, 14, 15]

/-- The urgency level of a master (R158). -/
def State.urgencyOf (s : State) (m : RtMaster) : Nat := ((s.mem.urgency.find? (fun x => decide (x.1 = m))).map (·.2)).getD 0

/-- A request needs no token: priority class, or a master at level 1 or more (R157, R158). -/
def State.exempt (s : State) (r : MemReq) : Bool :=
  match r.cls with
  | .core => true
  | .array => false
  | .master m => decide (1 ≤ s.urgencyOf m)

/-- A tracker of the hub is free for a request (R161). -/
def State.trackerFree (s : State) (h : Nat) (r : MemReq) : Bool :=
  let inq := s.mem.reqs.filter (fun x => x.entered && decide (x.unit / 96 = h))
  let core := (inq.filter (fun x => decide (x.cls = .core))).length
  let of (p : Fin 16) : Nat := (inq.filter (fun x => decide (x.cls ≠ .core ∧ x.part = p))).length
  let hasReg (p : Fin 16) : Bool := (Tbl.get none s.mem.regs (16 * h + p.val)).isSome
  let res (p : Fin 16) : Nat := if hasReg p then 64 else 0
  let shared := 4096 - 256 - (allParts.map res).foldl (· + ·) 0
  let used := (core - 256) + (allParts.map (fun p => of p - res p)).foldl (· + ·) 0
  if r.cls = .core then decide (core < 256) || decide (used < shared)
  else decide (of r.part < res r.part) || decide (used < shared)

/-- A request enters its channel's queue when its partition has tokens and a tracker is free, and its bytes are debited (R160,
R161). -/
def State.enterReq (s : State) (r : MemReq) : State :=
  let h := r.unit / 96
  let ok := s.exempt r || (match Tbl.get none s.mem.regs (16 * h + r.part.val) with
    | some g => decide (0 < g.tokens)
    | none => true)
  if r.entered ∨ !ok ∨ !s.trackerFree h r then s else
  let s := { s with mem := { s.mem with reqs := s.mem.reqs.map (fun x => if x.seq = r.seq then { x with entered := true } else x) } }
  match Tbl.get none s.mem.regs (16 * h + r.part.val) with
  | some g => { s with mem := { s.mem with regs := Tbl.set none s.mem.regs (16 * h + r.part.val) (some { g with tokens := g.tokens - r.bytes }) } }
  | none => s

/-- A request of partition p for a line is sent to its channel (R156, R159): it enters the queue as it may. -/
def State.chanAsk (s : State) (line : Nat) (p : Fin 16) (cls : ReqClass) (bytes : Nat) (target : FillFor) : State :=
  let r : MemReq := ⟨s.mem.reqSeq, s.unitOf line, line, bytes, p, cls, false, 0, target⟩
  ({ s with mem := { s.mem with reqs := s.mem.reqs ++ [r], reqSeq := s.mem.reqSeq + 1 } }).enterReq r

end Sys2Proof.Machine
end

