-- ==== Sys2Proof/Machine/Home.lean ====
section
/-! DEFINITION. The last-level cache and the coherence protocol as operations (06): lookup, allocation and
victim, the answers of a die to a snoop, and what the home makes of a response. -/

namespace Sys2Proof.Machine

/-- The keep controls of a partition (R177). -/
def State.ways (s : State) (p : Fin 16) : PartWays := Tbl.get PartWays.reset s.mem.ways p.val

/-- The effective keep cap (R177). -/
def PartWays.cap (w : PartWays) : Nat := min w.keepCap (pop w.mask)

/-- The line as present in its home slice. -/
def State.llcFind (s : State) (line : Nat) : Option LlcLine :=
  s.mem.llc.find? (fun l => l.remote.isNone && decide (l.line = line))

/-- The copy of a Remote line that hits for a partition: owner and current epoch (R200). -/
def State.remoteFind (s : State) (p : Fin 16) (line : Nat) : Option LlcLine :=
  s.mem.llc.find? (fun l => decide (l.remote = some (Tbl.get 0 s.mem.epoch p.val).toNat) && decide (l.line = line) && decide (l.owner = p))

/-- Two entries name the same way. -/
def LlcLine.sameWay (a b : LlcLine) : Bool := decide (a.slice = b.slice ∧ a.set = b.set ∧ a.way = b.way)

/-- Replaces an entry, by its way. -/
def State.llcPut (s : State) (l : LlcLine) : State :=
  { s with mem := { s.mem with llc := s.mem.llc.map (fun x => if x.sameWay l then l else x) } }

/-- Drops an entry. -/
def State.llcDrop (s : State) (l : LlcLine) : State :=
  { s with mem := { s.mem with llc := s.mem.llc.filter (fun x => !x.sameWay l) } }

/-- The record of a die (R188). -/
def LlcLine.recOf (l : LlcLine) (d : Fin 2) : DieRec := if d = 0 then l.rec0 else l.rec1

/-- Sets the record of a die. -/
def LlcLine.setRec (l : LlcLine) (d : Fin 2) (r : DieRec) : LlcLine :=
  if d = 0 then { l with rec0 := r } else { l with rec1 := r }

/-- The other die. -/
def otherDie (d : Fin 2) : Fin 2 := if d = 0 then 1 else 0

/-- Keep lines of a set, of every owner or of one (R182). -/
def State.keepIn (s : State) (slice set : Nat) (owner : Option (Fin 16)) : Nat :=
  (s.mem.llc.filter (fun l => decide (l.slice = slice ∧ l.set = set ∧ l.cls = .keep) && owner.all (fun o => decide (l.owner = o)))).length

/-- The keep caps allow one more keep line of the owner (R182). -/
def State.keepAllowed (s : State) (slice set : Nat) (owner : Fin 16) : Bool :=
  decide (s.keepIn slice set none < 12) && decide (s.keepIn slice set (some owner) < (s.ways owner).cap)

/-- Counts a demoted keep request (R177, R181). -/
def State.countDemoted (s : State) (p : Fin 16) : State :=
  { s with mem := { s.mem with keepDemoted := Tbl.set 0 s.mem.keepDemoted p.val (min (Tbl.get 0 s.mem.keepDemoted p.val + 1) (2 ^ 64 - 1)) } }

/-- Counts a declined stash (R177, R199). -/
def State.countDeclined (s : State) (p : Fin 16) : State :=
  { s with mem := { s.mem with stashDeclined := Tbl.set 0 s.mem.stashDeclined p.val (min (Tbl.get 0 s.mem.stashDeclined p.val + 1) (2 ^ 64 - 1)) } }

/-- The shadow directory after one request of p for a tag (R305): R178 and R182 with p's own mask and cap.
The answer says whether the tag was present. -/
def shadowStep (w : PartWays) (dir : List (Nat × LineClass)) (tag hint : Nat) : Bool × List (Nat × LineClass) :=
  let keepOk (d : List (Nat × LineClass)) : Bool := decide ((d.filter (fun x => x.2 = .keep)).length < w.cap)
  match dir.find? (fun x => x.1 = tag) with
  | some (_, c) =>
    let rest := dir.filter (fun x => x.1 ≠ tag)
    let c' : LineClass := if hint = 2 then .evictFirst else if hint = 1 then (if c = .keep ∨ keepOk rest then .keep else .normal)
      else if c = .evictFirst then .normal else c
    (true, if hint = 3 then dir else (tag, c') :: rest)
  | none =>
    if hint = 3 then (false, dir) else
    let c : LineClass := if hint = 2 then .evictFirst else if hint = 1 ∧ keepOk dir then .keep else .normal
    if dir.length < min 16 (pop w.mask) then (false, (tag, c) :: dir)
    else match dir.reverse.find? (fun x => x.2 = .evictFirst), dir.reverse.find? (fun x => x.2 = .normal) with
      | some v, _ => (false, (tag, c) :: dir.filter (fun x => x.1 ≠ v.1))
      | none, some v => (false, (tag, c) :: dir.filter (fun x => x.1 ≠ v.1))
      | none, none => (false, dir)

/-- Replays a request in the shadow directory of a sampled set (R305); `hit` says whether it hit the slice. -/
def State.shadowNote (s : State) (p : Fin 16) (slice set tag hint : Nat) (hit : Bool) : State :=
  if set % 64 ≠ 0 then s else
  let k := (slice * 512 + set / 64) * 16 + p.val
  let (was, dir) := shadowStep (s.ways p) (Tbl.get [] s.mem.shadow k) tag hint
  { s with mem := { s.mem with
    shadow := Tbl.set [] s.mem.shadow k dir
    shadowLost := if was && !hit then Tbl.set 0 s.mem.shadowLost p.val (Tbl.get 0 s.mem.shadowLost p.val + 1) else s.mem.shadowLost } }

/-- A hit under a hint (R181, R183): age, class and idle count. -/
def State.llcHit (s : State) (p : Fin 16) (l : LlcLine) (hint : Nat) : State :=
  let s := s.shadowNote p l.slice l.set l.line hint true
  if hint = 3 then s.llcPut { l with idle := 0 }
  else
    let ok := decide (l.cls = .keep) || s.keepAllowed l.slice l.set l.owner
    let c : LineClass :=
      if hint = 2 then .evictFirst
      else if hint = 1 then (if ok then .keep else if l.cls = .evictFirst then .normal else l.cls)
      else if l.cls = .evictFirst then .normal else l.cls
    let s := if hint = 1 ∧ ¬ ok then s.countDemoted p else s
    { (s.llcPut { l with cls := c, idle := 0, stamp := s.mem.llcClock }) with
      mem := { (s.llcPut { l with cls := c, idle := 0, stamp := s.mem.llcClock }).mem with llcClock := s.mem.llcClock + 1 } }

/-- The least recently used of some entries. -/
def lru : List LlcLine → Option LlcLine
  | [] => none
  | l :: t => match lru t with
    | none => some l
    | some m => if l.stamp ≤ m.stamp then some l else some m

/-- A transaction of the line is in progress (R175). -/
def State.txnBusy (s : State) (line : Nat) : Bool := (Tbl.get none s.mem.txns line).isSome

/-- A Remote line of an older epoch, which is replaced like an invalid way (R201). -/
def State.deadRemote (s : State) (l : LlcLine) : Bool :=
  l.remote.any (fun e => decide (e ≠ (Tbl.get 0 s.mem.epoch l.owner.val).toNat))

/-- The way an allocation for p takes, with the entry it replaces, if any (R178). A die's request can never go unallocated:
with no way in the mask it takes any way. The slices of a lost hub have none (R410). A line with a transaction in progress is no victim. -/
def State.victim (s : State) (p : Fin 16) (slice set : Nat) (dieReq : Bool) : Option (Nat × Option LlcLine) :=
  let inSet := s.mem.llc.filter (fun l => decide (l.slice = slice ∧ l.set = set))
  let live := if s.hubUp (slice / 24) then (List.range 16).filter (fun w => !s.mem.deadWays.contains (slice, set, w)) else []
  let mine := live.filter (fun w => (s.ways p).mask.getLsbD w)
  let ways := if dieReq && decide (mine = []) then live else mine
  match ways.find? (fun w => inSet.all (fun l => decide (l.way ≠ w) || s.deadRemote l)) with
  | some w => some (w, inSet.find? (fun l => l.way = w))
  | none =>
    let cand := inSet.filter (fun l => ways.contains l.way && !s.txnBusy l.line)
    let pick (f : LlcLine → Bool) : Option (Nat × Option LlcLine) := (lru (cand.filter f)).map (fun l => (l.way, some l))
    (pick (fun l => decide (l.owner ≠ p))).orElse fun _ =>
      (pick (fun l => decide (l.cls = .evictFirst))).orElse fun _ =>
        (pick (fun l => decide (l.cls = .normal))).orElse fun _ =>
          if dieReq then pick (fun _ => true) else none

/-- The partition's remote epoch rises by one; when it wraps, its Remote lines are invalidated (R201). -/
def State.raiseEpoch (s : State) (p : Fin 16) : State :=
  let e := Tbl.get 0 s.mem.epoch p.val + 1
  { s with mem := { s.mem with
    epoch := Tbl.set 0 s.mem.epoch p.val e
    llc := if e = 0 then s.mem.llc.filter (fun l => !(l.remote.isSome && decide (l.owner = p))) else s.mem.llc } }

/-! ### Dies -/

/-- The key of die d's copy of a line. -/
def dieKey (line : Nat) (d : Fin 2) : Nat := 2 * line + d.val

/-- Die d's copy of a line (R187). -/
def State.dieLine (s : State) (line : Nat) (d : Fin 2) : Option DieLine := Tbl.get none s.mem.die (dieKey line d)

/-- Replaces die d's copy. -/
def State.setDieLine (s : State) (line : Nat) (d : Fin 2) (x : Option DieLine) : State :=
  { s with mem := { s.mem with die := Tbl.set none s.mem.die (dieKey line d) x } }

/-- Die d's eviction-buffer entry of a line (R194). -/
def State.evEntry (s : State) (line : Nat) (d : Fin 2) : Option EvEntry := Tbl.get none s.mem.evict (dieKey line d)

/-- Replaces die d's eviction-buffer entry. -/
def State.setEvEntry (s : State) (line : Nat) (d : Fin 2) (x : Option EvEntry) : State :=
  { s with mem := { s.mem with evict := Tbl.set none s.mem.evict (dieKey line d) x } }

/-- A die answers a snoop (R191, R194). `w` is the data a core wrote silently since the grant of E: an E copy
is then M (R187). -/
def State.dieAnswer (s : State) (d : Fin 2) (line : Nat) (q : Snoop) (w : Option Line) : Rsp × State :=
  match s.evEntry line d with
  | some e =>
    if e.snooped then (.i, s) else
    let s' := s.setEvEntry line d (some { e with snooped := true })
    match e.kept.st with
    | .m => (.iData e.kept.data e.kept.poison, s')
    | .o => (.iData e.kept.data e.kept.poison, s')
    | .e => (.i, s')
    | .s => (.i, s')
  | none =>
    match s.dieLine line d with
    | none => (.i, s)
    | some c0 =>
      let c : DieLine := match c0.st, w with
        | .e, some x => { c0 with st := .m, data := x }
        | .m, some x => { c0 with st := .m, data := x }
        | _, _ => c0
      match q, c.st with
      | .snpS, .m => (.fwd c.data c.poison, s.setDieLine line d (some { c with st := .o }))
      | .snpS, .o => (.fwd c.data c.poison, s)
      | .snpS, .e => (.s, s.setDieLine line d (some { c with st := .s }))
      | .snpS, .s => (.s, s)
      | .snpCur, .m => (.sData c.data c.poison, s.setDieLine line d (some { c with st := .s }))
      | .snpCur, .o => (.sData c.data c.poison, s.setDieLine line d (some { c with st := .s }))
      | .snpCur, .e => (.e, s)
      | .snpCur, .s => (.s, s)
      | .snpI, .m => (.iData c.data c.poison, s.setDieLine line d none)
      | .snpI, .o => (.iData c.data c.poison, s.setDieLine line d none)
      | .snpI, .e => (.i, s.setDieLine line d none)
      | .snpI, .s => (.i, s.setDieLine line d none)
      | .snpInd, _ => (.i, s.setDieLine line d none)

/-- A channel is woken by data written into the slice for its doorbell's line (R251). -/
def State.wakeLine (s : State) (line : Nat) : State :=
  { s with chan := { s.chan with
    dyn := s.chan.dyn.map (fun x => if x.2.doorLine = some line then (x.1, { x.2 with hot := true, backoff := 0 }) else x) } }

/-- What the home does with a response of die d (R191); `req` is the die that asked. -/
def State.takeRsp (s : State) (d : Fin 2) (line : Nat) (r : Rsp) : State :=
  match s.llcFind line with
  | none => s
  | some l =>
    match r with
    | .fwd _ _ => s.llcPut { (l.setRec d .o).setRec (otherDie d) .s with hd := .stale }
    | .sData x p => (s.llcPut { l.setRec d .s with hd := .dirty, data := x, poison := p }).wakeLine line
    | .iData x p => (s.llcPut { l.setRec d .i with hd := .dirty, data := x, poison := p }).wakeLine line
    | .s => s.llcPut (l.setRec d .s)
    | .e => s
    | .i => s.llcPut (l.setRec d .i)

/-- A snoop taken with its answer in one step, as an eviction (R179) and an engine's request use it. -/
def State.snoopNow (s : State) (d : Fin 2) (line : Nat) (q : Snoop) : State :=
  let (r, s') := s.dieAnswer d line q none
  s'.takeRsp d line r

/-- Snoops every die that the home does not record I. -/
def State.snoopAll (s : State) (line : Nat) (q : Snoop) : State :=
  let one (s : State) (d : Fin 2) : State :=
    if (s.llcFind line).any (fun l => decide (l.recOf d ≠ DieRec.i)) then s.snoopNow d line q else s
  one (one s 0) 1

/-- The slice evicts a line (R179, R180). -/
def State.evictLine (s : State) (l : LlcLine) : State :=
  if l.remote.isSome then s.llcDrop l else
  let s := s.snoopAll l.line .snpI
  match s.llcFind l.line with
  | none => s
  | some l => (if l.hd = .dirty then (s.chanAsk l.line l.owner .array 128 .moved).writeMem l.line l.data (BitVec.allOnes 128) l.poison
      else s).llcDrop l

/-- Where a line is cached: slice and set (R143, R174, R200). A Remote line's number holds bits [52:7] of its system physical
address, below the bit that marks it as remote. -/
def State.placeOf (s : State) (p : Fin 16) (line : Nat) (remote : Bool) : Nat × Nat :=
  if remote then
    let sa := line % 2 ^ 46
    let x := sa ^^^ (sa >>> 15) ^^^ (sa >>> 30)
    let pt := s.partition p
    (if pt.confined then 24 * pt.hub.val + x % 24 else x % 96, (sa ^^^ (sa >>> 15)) % 32768)
  else (s.sliceOf line, s.setOf line)

/-- Allocates a line for p under a hint (R178, R181, R182); the answer says whether it was allocated. -/
def State.llcAlloc (s : State) (p : Fin 16) (line hint : Nat) (remote dieReq : Bool) (hd : HomeData) (d : Line) (po : BitVec 2) : Bool × State :=
  let (slice, set) := s.placeOf p line remote
  let s := s.shadowNote p slice set line hint false
  if hint = 3 then (false, s) else
  match s.victim p slice set dieReq with
  | none => (false, s)
  | some (way, old) =>
    let s := match old with
      | some l => s.evictLine l
      | none => s
    let ok := s.keepAllowed slice set p
    let c : LineClass := if hint = 1 ∧ ok then .keep else if hint = 2 then .evictFirst else .normal
    let s := if hint = 1 ∧ ¬ ok then s.countDemoted p else s
    let e := if remote then some (Tbl.get 0 s.mem.epoch p.val).toNat else none
    let l : LlcLine := ⟨line, e, slice, set, way, p, c, 0, s.mem.llcClock, .i, .i, hd, d, po⟩
    (true, { s with mem := { s.mem with llc := l :: s.mem.llc.filter (fun x => !x.sameWay l), llcClock := s.mem.llcClock + 1 } })

/-- The newest value of a line, with the poison of its granules, looked up without any effect: a die's M or O
copy, else the slice's, else memory's. -/
def State.peek (s : State) (line : Nat) : Line × BitVec 2 :=
  let own (d : Fin 2) : Option DieLine :=
    match s.evEntry line d with
    | some e => if e.snooped ∨ e.kept.st = .e ∨ e.kept.st = .s then none else some e.kept
    | none => match s.dieLine line d with
      | some c => if c.st = .m ∨ c.st = .o then some c else none
      | none => none
  match own 0, own 1, s.llcFind line with
  | some c, _, _ => (c.data, c.poison)
  | none, some c, _ => (c.data, c.poison)
  | none, none, some l => (l.data, l.poison)
  | none, none, none => s.readMem line

end Sys2Proof.Machine
end

