-- ==== Sys2Proof/Machine/Translate.lean ====
section
/-! DEFINITION. Partition virtual addresses: the Sv57 walk and what a leaf entry reaches (R257, R320, R345,
R375), and the requests to host memory with their checks (R217, R321, R335, R336). -/

namespace Sys2Proof.Machine

/-- What a virtual address reaches. -/
inductive Xlate
  | param (off : Nat)
  | atlas (off : Nat)
  | pool (pa : Nat)
  | remote (module off : Nat)
  | host (iova : Nat)
  | guest (off : Nat)
  | fault (c : ParkClass)
  | poison (granule : Nat)
  deriving DecidableEq, Repr

/-- A request's standing: its partition, and the function and PASID of its channel (R320); without a PASID the physical
function reaches a host physical address (R397). -/
structure Ctx where
  part : Fin 16
  port : Fin 2
  fn : Fin 128
  pasid : Option (BitVec 20)
  deriving DecidableEq, Repr

/-- FUNCTION as channel-entry bytes [31:30] lay it out (R242). -/
def fnOf (x : BitVec 16) : Fin 2 × Fin 128 :=
  (if x.getLsbD 7 then 1 else 0, ⟨(bits x 0 7).toNat, (bits x 0 7).isLt⟩)

/-- What the physical address of a leaf entry names (R345, R320, R136). -/
def physTarget (number : BitVec 12) (pa : Nat) : Xlate :=
  let top := pa / 2 ^ 53 % 8
  if 4 ≤ top then .host (pa % 2 ^ 55)
  else if top = 0 then
    if pa < poolBytes then .pool pa
    else if Config.guestWindow ≤ pa ∧ pa < Config.guestWindow + 2 ^ 26 then .guest (pa - Config.guestWindow)
    else .fault .protection
  else if top = 1 then
    let m := pa / 2 ^ 41 % 4096
    if m = number.toNat then (if pa % 2 ^ 41 < poolBytes then .pool (pa % 2 ^ 41) else .fault .protection)
    else .remote m (pa % 2 ^ 41)
  else .fault .protection

/-- A read of a line by a walk: the line with the poison of its granules, and the state after the read. -/
abbrev LineRead := State → Nat → (Line × BitVec 2) × State

/-- A look at a line that makes no request. -/
def lookOnly : LineRead := fun s line => (s.peek line, s)

/-- The walk of an Sv57 table from a table page (R375), which reads its entries with `rd`. PRESUMED: the entry format of the
RISC-V privileged architecture, which the spec names. `level` counts down from 4. The answer is the leaf as a 4 KiB leaf, and
its level. -/
def State.walk (rd : LineRead) (s : State) (p : Fin 16) (va : Nat) : Nat → Nat → Except Xlate (Word × Nat) × State
  | page, level =>
    let pa := page * 4096 + 8 * (va / 2 ^ (12 + 9 * level) % 512)
    let line := pa / 128
    if !s.reach p line false then (.error (.fault .protection), s) else
    let ((d, po), s) := rd s line
    if po.getLsbD (pa % 128 / 64) then (.error (.poison (pa / 64)), s) else
    let e : Word := bits d (8 * (pa % 128)) 64
    let ppn := field e 10 44
    if !e.getLsbD 0 || (!e.getLsbD 1 && e.getLsbD 2) then (.error (.fault .translation), s)
    else if e.getLsbD 1 || e.getLsbD 3 then
      if ppn % 2 ^ (9 * level) ≠ 0 then (.error (.fault .translation), s)
      else (.ok (putField e 10 44 (ppn + va / 4096 % 2 ^ (9 * level)), level), s)
    else match level with
      | 0 => (.error (.fault .translation), s)
      | l + 1 => State.walk rd s p va ppn l

/-- The permission an access needs of a leaf: R to read, W to write. -/
def leafAllows (e : Word) (write : Bool) : Bool := if write then e.getLsbD 2 else e.getLsbD 1

/-- The first address of the mirror range (R27). -/
def mirrorBase : Nat := 0x00FFFF0000000000

/-- Where an access of partition p to a virtual address goes, with the translation cached (R27, R257, R345). A walk reads the
table's entries with `rd`. -/
def State.translateWith (rd : LineRead) (s : State) (p : Fin 16) (va : Nat) (write : Bool) : Xlate × State :=
  if va < 4096 then (if write then .fault .protection else .param va, s)
  else if mirrorBase ≤ va ∧ va < mirrorBase + 32768 then (if write then .fault .protection else .atlas (va - mirrorBase), s)
  else if 2 ^ 56 ≤ va then (.fault .translation, s)
  else
    let use (e : Word) : Xlate :=
      if !leafAllows e write then .fault .protection
      else physTarget s.link.number (field e 10 44 * 4096 + va % 4096)
    match s.mem.tlb.find? (fun t => decide (t.part = p ∧ t.vpage = va / 4096)) with
    | some t => (use t.leaf, s)
    | none =>
      match Tbl.get none s.mem.roots p.val with
      | none => (.fault .translation, s)
      | some root =>
        match State.walk rd s p va root 4 with
        | (.error x, s) => (x, s)
        | (.ok (e, level), s) => (use e, { s with mem := { s.mem with tlb := ⟨p, va / 4096, e, level⟩ :: s.mem.tlb } })

/-- Where an access would go, without a request for it. -/
def State.locate (s : State) (p : Fin 16) (va : Nat) (write : Bool) : Xlate := (s.translateWith lookOnly p va write).1

/-- The lines of the page whose translation a partition holds for a virtual address (R103). -/
def State.pageLines (s : State) (p : Fin 16) (va : Nat) : Nat :=
  32 * 512 ^ (((s.mem.tlb.find? (fun t => decide (t.part = p ∧ t.vpage = va / 4096))).map (·.level)).getD 0)

/-- The function is a function of the partition (R317). -/
def State.fnOfPart (s : State) (p : Fin 16) (port : Fin 2) (fn : Fin 128) : Bool :=
  decide (fn = 0) || decide ((s.fn port fn).bound = some p)

/-- A stream in its insecure state covers a request of a function to an address (R327). -/
def State.ideBlocks (s : State) (port : Fin 2) (fn : Fin 128) (iova : Nat) : Bool :=
  (s.port port).ide.any (fun x => x.insecure && decide (x.firstFn ≤ fn.val ∧ fn.val ≤ x.lastFn ∧ x.lo.toNat ≤ iova ∧ iova ≤ x.hi.toNat))

/-- A request to host memory may leave the module (R321, R327). -/
def State.hostOk (s : State) (c : Ctx) (iova : Nat) : Bool :=
  let f := s.fn c.port c.fn
  s.fnOfPart c.part c.port c.fn && f.busMaster && decide (f.mode = .enabled) && !s.ideBlocks c.port c.fn iova

/-- The PASID a function's request carries (R323). -/
def State.pasidOf (s : State) (c : Ctx) : Option (BitVec 20) := if (s.fn c.port c.fn).pasidEn then c.pasid else none

/-! ### Requests that return data (R217, R315, R322) -/

/-- Requests that a port can have outstanding: 14-bit tags in Flit mode, else 10-bit ones (R315). -/
def PortState.tags (x : PortState) : Nat := if x.flit then 16384 else 1024

/-- Tags of a port that no request holds. -/
def State.tagsFree (s : State) (port : Fin 2) : Nat :=
  (s.port port).tags - (s.host.reads.filter (fun r => decide (r.port = port) && r.held.isNone)).length

/-- A request leaves its port. -/
def State.sendTag (s : State) (r : HostTag) : HostSend → State
  | .read pasid => s.emit (.hostRead r.port r.fn pasid r.addr r.len r.tag)
  | .atomic pasid op v w => s.emit (.hostAtomic r.port r.fn pasid r.addr op v w r.len r.tag)

/-- A request takes a tag and leaves, or waits for one that comes free (R315). -/
def State.askTag (s : State) (port : Fin 2) (fn : Fin 128) (a : Word) (n : Nat) (use : HostFor) (x : HostSend) : State :=
  let free := decide (0 < s.tagsFree port)
  let r : HostTag := ⟨s.host.nextTag, port, fn, a, n, use, if free then none else some x⟩
  let s : State := { s with host := { s.host with reads := s.host.reads ++ [r], nextTag := s.host.nextTag + 1 } }
  if free then s.sendTag r x else s

/-- The requests of a port that waited for a tag leave in their order as tags come free; a function that is RESETTING sends
none (R315, R331 step 3). -/
def State.sendHeld (s : State) (port : Fin 2) : State :=
  let due := (s.host.reads.filter (fun r => decide (r.port = port) && r.held.isSome && decide ((s.fn port r.fn).mode ≠ .resetting))).take (s.tagsFree port)
  let s : State := { s with host := { s.host with reads := s.host.reads.map (fun r => if due.contains r then { r with held := none } else r) } }
  due.foldl (fun (s : State) r => match r.held with
    | some x => s.sendTag r x
    | none => s) s

/-! ### Dirty-page logging (R335, R336) -/

/-- A read of n bytes of host memory leaves a function's port, for a use that its answer's row names (R250, R287). -/
def State.hostAsk (s : State) (c : Ctx) (iova n : Nat) : State :=
  let s := s.emit (.hostRead c.port c.fn (s.pasidOf c) (BitVec.ofNat 64 iova) n s.host.nextTag)
  { s with host := { s.host with nextTag := s.host.nextTag + 1 } }

/-- Words of dirty bitmaps that a port's merge buffer holds (R336). -/
def mergeWords : Nat := 1024

/-- A read of the physical function whose data the model does not follow: a dirty-bitmap word, or no bytes at all (R217,
R336, R337). -/
def State.askAside (s : State) (port : Fin 2) (a : Word) (n : Nat) : State :=
  s.askTag port 0 a n .drop (.read none)

/-- A word of a merge buffer is written back with its bits set; what host memory held is a free value (R336). -/
def State.writeBackWord (s : State) (x : Fin 2 × Word × BitVec 64) : State :=
  let (w, s) := s.freeVal 64
  let s : State := { s with host := { s.host with merge := s.host.merge.filter (fun y => !decide (y.1 = x.1 ∧ y.2.1 = x.2.1)) } }
  s.emit (.hostWrite x.1 0 none x.2.1 (leBytes 8 (w ||| x.2.2).toNat) false)

/-- Sets bits of a bitmap word in a port's merge buffer; on a miss the word is read, and a full buffer writes its oldest
word back first (R336). -/
def State.mergeBits (s : State) (port : Fin 2) (a : Word) (b : BitVec 64) : State :=
  if s.host.merge.any (fun x => decide (x.1 = port ∧ x.2.1 = a)) then
    { s with host := { s.host with merge := s.host.merge.map (fun x => if x.1 = port ∧ x.2.1 = a then (x.1, x.2.1, x.2.2 ||| b) else x) } }
  else
    let s := match s.host.merge.filter (fun x => decide (x.1 = port)) with
      | x :: rest => if mergeWords ≤ rest.length + 1 then s.writeBackWord x else s
      | [] => s
    let s := s.askAside port a 8
    { s with host := { s.host with merge := s.host.merge ++ [(port, a, b)] } }

/-- Logs one page written through a function. -/
def State.logPage (s : State) (port : Fin 2) (fn : Fin 128) (page : Nat) : State :=
  let f := s.fn port fn
  if !f.dirtyEnable then s else
  let first := f.dirtyIova.toNat / 4096
  if page < first ∨ first + f.dirtyPages.toNat ≤ page then s.setFn port fn { f with outOfRange := true }
  else
    let k := page - first
    s.mergeBits port ((if f.dirtyActive then f.dirtyBase1 else f.dirtyBase0) + BitVec.ofNat 64 (k / 64 * 8)) (1#64 <<< (k % 64))

/-- A write to host memory leaves its port (R217, R335). `release` clears Relaxed Ordering. -/
def State.hostWrite (s : State) (c : Ctx) (iova : Nat) (b : List Byte) (release : Bool) : State :=
  let f := s.fn c.port c.fn
  let s := s.emit (.hostWrite c.port c.fn (s.pasidOf c) (BitVec.ofNat 64 iova) b (f.relaxed && !release && !f.orderNext))
  let s := if f.orderNext then s.setFn c.port c.fn { f with orderNext := false } else s
  let s := s.logPage c.port c.fn (iova / 4096)
  if (iova + b.length - 1) / 4096 = iova / 4096 then s else s.logPage c.port c.fn ((iova + b.length - 1) / 4096)

end Sys2Proof.Machine
end

