-- ==== Sys2Proof/Machine/Ecc.lean ====
section
/-! DEFINITION. Error correction at a channel: what a read meets, retirement of pages, poison and the start of a refill
(R149-R153, R403-R405, R468), the operations of a churn (R166-R169), and the read of a line. -/

namespace Sys2Proof.Machine

/-- Where a channel-local page lies in the pool: the device page that the projection places there (R141). -/
def State.unproject (s : State) (u pg : Nat) : Option Nat :=
  let band := pg / 16384
  let g := pg % 16384
  if 47 ≤ band then none else
  let conf := s.confinedBand band
  let l := s.unitList conf (u / 96)
  match l.findIdx? (fun x => decide (x = u)) with
  | none => none
  | some pos =>
    let n := l.length
    let m := ((g * 0x9E37) ^^^ (g / 64)) % 65536
    let q := g * n + (pos + n - m % n) % n
    if (if conf then 1572864 else 6291456) ≤ q then none
    else some (6291456 * band + (if conf then 1572864 * (u / 96) else 0) + q)

/-! ### Retirement (R152, R153, R468) -/

/-- The key of a channel-local page. -/
def pageKey (u pg : Nat) : Nat := 786432 * u + pg

/-- Pages of a channel's retirement slice in use: those that hold a page, or are retired themselves (R153). -/
def State.sliceTaken (s : State) (u : Nat) : List Nat :=
  let l : List (Nat × Option Nat) := s.mem.retired.filter (fun x => decide (x.1 / 786432 = u))
  let held : List Nat := l.filterMap (fun x => x.2)
  let lost : List Nat := (l.map (fun x => x.1 % 786432)).filter (fun q => decide (770048 ≤ q))
  (held ++ lost).eraseDups

/-- A free page of a channel's retirement slice: the lowest. -/
def State.sliceFree (s : State) (u : Nat) : Option Nat :=
  ((List.range 16384).find? (fun n => !(s.sliceTaken u).contains (770048 + n))).map (770048 + ·)

/-- The page whose contents a channel-local page holds: itself, a page retired to it, or none once it is retired. -/
def State.contentPage (s : State) (u pg : Nat) : Option Nat :=
  if (Tbl.get none s.mem.retired (pageKey u pg)).isSome then none
  else if pg < 770048 then some pg
  else (s.mem.retired.find? (fun x => decide (x.1 / 786432 = u ∧ x.2 = some pg))).map (fun x => x.1 % 786432)

/-- The device page that a channel-local page holds. -/
def State.devicePage (s : State) (u pg : Nat) : Option Nat := (s.contentPage u pg).bind (fun q => s.unproject u q)

/-- A memory error record (R468): the channel, the page, and the device physical address if one reaches it. -/
def memReport (ty u pg : Nat) (addr : Nat) : Report := { mkReport ty (unitId 4 u) pg with address := BitVec.ofNat 64 addr }

/-- Retires a channel-local page (R152, R153): its content moves to a free page of the retirement slice, without change; with
none free it stays and the plot will be QUARANTINED. A page without content only leaves use. -/
def State.retirePage (s : State) (u pg : Nat) : State :=
  let addr := ((s.devicePage u pg).map (fun q => 4096 * q)).getD 0
  if (Tbl.get none s.mem.retired (pageKey u pg)).isSome then s
  else match s.contentPage u pg, s.sliceFree u with
    | none, _ => ({ s with mem := { s.mem with retired := Tbl.set none s.mem.retired (pageKey u pg) (some pg) } }).report (memReport 0x0023 u pg addr)
    | some q, none =>
      ({ s with mem := { s.mem with stuck := Tbl.set false s.mem.stuck (pageKey u q) true } }).report (memReport 0x0024 u pg addr)
    | some q, some dst =>
      let r := if q = pg then s.mem.retired else Tbl.set none s.mem.retired (pageKey u q) (some dst)
      ({ s with mem := { s.mem with retired := Tbl.set none r (pageKey u pg) (some dst) } }).report (memReport 0x0023 u pg addr)

/-- Counts a correction; the eighth since bring-up retires the page (R152). -/
def State.countCorrection (s : State) (u pg : Nat) : State :=
  let n := Tbl.get 0 s.mem.corrections (pageKey u pg) + 1
  let s := { s with mem := { s.mem with corrections := Tbl.set 0 s.mem.corrections (pageKey u pg) n } }
  if n = 8 then s.retirePage u pg else s

/-! ### Poison and refill (R400-R405) -/

/-- The registration of a device page for refill (R403). -/
def State.refillOf (s : State) (page : Nat) : Option RefillPage := s.mem.refillPages.find? (fun r => decide (r.page = page))

/-- A page is REFILLING (R404). -/
def State.isRefilling (s : State) (page : Nat) : Bool := (Tbl.get none s.mem.refilling page).isSome

/-- The reference that requests made for no command carry. -/
def noCmd : CmdRef := ⟨3071, BitVec.allOnes 32⟩

/-- The read of the source page that a refill makes (R402, R404 step 3): of host memory in one request, of another module
a line at a time. -/
def State.refillRead (s : State) (r : RefillPage) : State :=
  match s.locate r.owner r.source.toNat false with
  | .host iova =>
    let (port, fn) := fnOf r.fn
    if s.hostOk ⟨r.owner, port, fn, some r.pasid⟩ iova then
      { s with host := { s.host with nextTag := s.host.nextTag + 1 } }.emit
        (.hostRead port fn (s.pasidOf ⟨r.owner, port, fn, some r.pasid⟩) (BitVec.ofNat 64 iova) 4096 s.host.nextTag)
    else s
  | .remote m off =>
    let line (i : Nat) : HomeReq := ⟨s.mem.nextReq + i, 384, 0, 0, r.owner, noCmd, .remote m, (2 ^ 53 + m * 2 ^ 41 + off) / 128 + i, .rdOnce, 3, 4, .sent, none, .refill⟩
    { s with mem := { s.mem with homeReqs := s.mem.homeReqs ++ (List.range 32).map line, nextReq := s.mem.nextReq + 32 } }
  | _ => s

/-- A granule is poisoned by a read (R149): it starts or joins a refill of a registered page (R404, R405), else
MEM_POISON is raised and the page retired. -/
def State.poisonFound (s : State) (u pg : Nat) (granule : Option Nat) : State :=
  match granule with
  | none => (s.report (memReport 0x0022 u pg 0)).retirePage u pg
  | some g =>
    let s := s.setPoison g true
    let page := g / 64
    if s.isRefilling page then s else
    match s.refillOf page with
    | some r => ({ s with mem := { s.mem with refilling := Tbl.set none s.mem.refilling page (some ⟨none, 0, 0⟩) } }).refillRead r
    | none => (s.report (memReport 0x0022 u pg (64 * g))).retirePage u pg

/-- What an ECC event makes of a granule's 512 bits: the data delivered, whether it is poisoned, and the records
(R149). `good` is the stored data. -/
def State.eccTake (s : State) (u pg : Nat) (granule : Option Nat) (good : BitVec 512) (e : EccEvent) : BitVec 512 × Bool × State :=
  let a := (granule.map (fun g => 64 * g)).getD 0
  let one (s : State) : State := (s.report (memReport 0x0020 u pg a)).countCorrection u pg
  let two (s : State) : State := (s.report (memReport 0x0021 u pg a)).retirePage u pg
  match e with
  | .clean => (good, false, s)
  | .one => (good, false, one s)
  | .two => (good, false, two s)
  | .poisoned => (good, true, s.poisonFound u pg granule)
  | .missedAsOne d => (d, false, one s)
  | .missedAsTwo d => (d, false, two s)
  | .undetected d => (d, false, s)

/-! ### Reads of a line (R149, R154, R166) -/

/-- What a read made inside another step meets. -/
def State.eccFree (s : State) : EccPair × State := (Config.ecc s.freeCount, { s with freeCount := s.freeCount + 1 })

/-- The channel-local page where a line lies now. -/
def State.pageNow (s : State) (line : Nat) : Nat := (Tbl.get none s.mem.retired (pageKey (s.unitOf line) (s.pageOf line))).getD (s.pageOf line)

/-- A granule of a line as a read of its channel decodes it: one held as poisoned is delivered so (R150). -/
def State.readGranule (s : State) (line : Nat) (g : Nat) (e : EccEvent) : BitVec 512 × Bool × State :=
  let (d, po) := s.memLine line
  if po.getLsbD g then (bits d (512 * g) 512, true, s)
  else s.eccTake (s.unitOf line) (s.pageNow line) (some (2 * line + g)) (bits d (512 * g) 512) e

/-- A churn applies one accepted operation to its granule, unless the granule is poisoned, its read finds it so, or the channel
is out of service, which R169 treats alike; the answer says whether it was performed. -/
def State.churnOne (s : State) (o : ChurnOp) (e : EccEvent) : Bool × State :=
  if o.refused then (false, s) else
  let s := s.charge o.part (some o.cmd) .churn 1
  let g := o.off / 64
  let (d, bad, s) := s.readGranule o.line g e
  if bad then (false, s)
  else (true, s.writeMem o.line (o.apply (putField 0 (512 * g) 512 d.toNat)) (byteMask o.off o.what.bytes) 0)

/-- The churn applies the operations that wait for a line, in order, before memory is read or written behind it (R166). Their
channel requests are taken with it. -/
def State.flushChurn (s : State) (line : Nat) : State :=
  let ops := s.mem.churn.filter (fun o => decide (o.line = line))
  let (s, left) := ops.foldl (fun (x : State × List ChurnOp) o =>
    let (e, s) := x.1.eccFree
    let (ok, s') := s.churnOne o (if o.off / 64 = 0 then e.lo else e.hi)
    if ok then (s', x.2) else (s', x.2 ++ [{ o with refused := true }])) (s, [])
  let done := (ops.filter (fun o => !left.any (fun x => decide (x.seq = o.seq)))).map (·.seq)
  { s with mem := { s.mem with
    churn := left ++ s.mem.churn.filter (fun o => !decide (o.line = line))
    reqs := s.mem.reqs.filter (fun r => !done.contains r.seq) } }

/-- A line as a read delivers it: the channel's data with the two granules' ECC events (R149, R154), after the operations that
a churn holds for it (R166). -/
def State.readLine (s : State) (line : Nat) (e : EccPair) : (Line × BitVec 2) × State :=
  let s := s.flushChurn line
  if !s.unitUp (s.unitOf line) then (s.memLine line, s) else
  let (lo, blo, s) := s.readGranule line 0 e.lo
  let (hi, bhi, s) := s.readGranule line 1 e.hi
  ((hi ++ lo, BitVec.ofBool bhi ++ BitVec.ofBool blo), s)

/-- A read of a line inside another step. -/
def State.readFree (s : State) (line : Nat) : (Line × BitVec 2) × State :=
  let (e, s) := s.eccFree
  s.readLine line e

/-- A write at the channel, behind the churn's operations for the line (R166). -/
def State.writeBehind (s : State) (line : Nat) (d : Line) (m : BitVec 128) (p : BitVec 2) : State :=
  (s.flushChurn line).writeMem line d m p

end Sys2Proof.Machine
end

