-- ==== Sys2Proof/Machine/Pool.lean ====
section
/-! DEFINITION. The pool as engines use it: non-caching requests at the home, with their snoops taken at once (R185, R190,
R196, R197), translation with its walk's reads (R157, R375), and byte strings at virtual addresses. -/

namespace Sys2Proof.Machine

/-! ### Non-caching requests of engines (R190) -/

/-- RdOnce of an engine. What it does at the channel is a request of class `cls` (R156-R160). -/
def State.engRead (s : State) (p : Fin 16) (line hint : Nat) (cls : ReqClass := .array) : (Line × BitVec 2) × State :=
  match s.llcFind line with
  | some l =>
    let s := if l.rec0 = .x ∨ l.rec0 = .o then s.snoopNow 0 line .snpCur else s
    let s := if l.rec1 = .x ∨ l.rec1 = .o then s.snoopNow 1 line .snpCur else s
    match s.llcFind line with
    | some l => ((l.data, l.poison), s.llcHit p l hint)
    | none => (s.readMem line, s)
  | none =>
    let (r, s) := (s.chanAsk line p cls 128 .moved).readFree line
    (r, (s.llcAlloc p line hint false false .clean r.1 r.2).2)

/-- The poison of a line after a write of some bytes and granules' marks: whole granules lose it, and `po`
marks granules that are written as poisoned (R150). -/
def poisonAfter (old : BitVec 2) (m : BitVec 128) (po : BitVec 2) : BitVec 2 :=
  BitVec.ofBool (po.getLsbD 1 || (old.getLsbD 1 && !covers m 1)) ++ BitVec.ofBool (po.getLsbD 0 || (old.getLsbD 0 && !covers m 0))

/-- WrFull or WrPart of an engine: SnpIND before a full line, SnpI before a part of one. -/
def State.engWrite (s : State) (p : Fin 16) (line : Nat) (d : Line) (m : BitVec 128) (po : BitVec 2) (hint : Nat) (cls : ReqClass := .array) : State :=
  let full := decide (m = BitVec.allOnes 128)
  let s := s.snoopAll line (if full then .snpInd else .snpI)
  match s.llcFind line with
  | some l =>
    let s := s.llcHit p l hint
    match s.llcFind line with
    | some l => (s.llcPut { l with data := mergeLine l.data d m, poison := poisonAfter l.poison m po, hd := .dirty }).wakeLine line
    | none => s
  | none =>
    if hint = 3 ∨ (s.victim p (s.sliceOf line) (s.setOf line) false).isNone then
      let s := (s.llcAlloc p line hint false false .dirty d po).2
      ((s.chanAsk line p cls (if full then 128 else 64) .moved).writeBehind line d m po).wakeLine line
    else
      let (r, s) := if full then ((d, po), s.flushChurn line) else
        let ((x, q), s) := (s.chanAsk line p cls 128 .moved).readFree line
        ((mergeLine x d m, poisonAfter q m po), s)
      (s.llcAlloc p line hint false false .dirty r.1 r.2).2.wakeLine line

/-- An atomic at the home on whole-line data (R196, R197): the new data, or none where a granule it touches is
poisoned and it is not performed. The dies are snooped first either way. -/
def State.engUpdate (s : State) (p : Fin 16) (line : Nat) (hint : Nat) (touch : BitVec 2) (f : Line → Line) (cls : ReqClass := .array) : Bool × State :=
  let s := s.snoopAll line .snpI
  match s.llcFind line with
  | some l =>
    if l.poison &&& touch ≠ 0 then (false, s) else
    let s := s.llcHit p l hint
    match s.llcFind line with
    | some l => (true, (s.llcPut { l with data := f l.data, hd := .dirty }).wakeLine line)
    | none => (false, s)
  | none =>
    let ((x, q), s) := (s.chanAsk line p cls 128 .moved).readFree line
    if q &&& touch ≠ 0 then (false, s) else
    let (got, s) := s.llcAlloc p line hint false false .dirty (f x) q
    (true, (if got then s else (s.chanAsk line p cls 128 .moved).writeMem line (f x) (BitVec.allOnes 128) q).wakeLine line)

/-- Replaces a channel entry: in the channel cache, and in the channel table that CHAN_TABLE_BASE names in the memory of PT0
(R244), where each entry takes 64 bytes. -/
def State.setEntry (s : State) (ch : Fin 3072) (e : BitVec 512) : State :=
  let a := s.atlas.chanTable.toNat + 64 * ch.val
  let t := s.engWrite 0 (a / 128) ((e.setWidth 1024) <<< (8 * (a % 128))) (byteMask (a % 128) 64) 0 3
  { s with
    chan := { s.chan with entries := Tbl.set 0 s.chan.entries ch.val e }
    mem := if s.up then t.mem else s.mem }

/-- Discard (R185): the line leaves the slice and both dies without write-back. -/
def State.engDiscard (s : State) (line : Nat) : State :=
  let s := s.snoopAll line .snpInd
  match s.llcFind line with
  | some l => s.llcDrop l
  | none => s

/-! ### Translation -/

/-- A walk's read of a table entry: a priority-class request of the translation unit (R157, R186). A line with a transaction in
progress is looked up, not requested. -/
def walkRead (p : Fin 16) : LineRead := fun s line =>
  if s.txnBusy line then (s.peek line, s) else s.engRead p line 0 .core

/-- Where an access of partition p to a virtual address goes (R27, R257, R345). -/
def State.translate (s : State) (p : Fin 16) (va : Nat) (write : Bool) : Xlate × State := s.translateWith (walkRead p) p va write

/-! ### Byte strings at virtual addresses -/

/-- A range cut at line boundaries: address and length of each part, within fuel parts. -/
def cuts : Nat → Nat → Nat → List (Nat × Nat)
  | 0, _, _ => []
  | f + 1, a, n =>
    if n = 0 then [] else
    let k := min n (128 - a % 128)
    (a, k) :: cuts f (a + k) (n - k)

/-- A range cut at line boundaries. -/
def lineCuts (a n : Nat) : List (Nat × Nat) := cuts (n / 128 + 2) a n

/-- What a read of a byte string met. -/
inductive Got
  | ok (b : List Byte)
  | fault (c : ParkClass) (va : Nat)
  | poison (granule : Nat) (va : Nat)
  | refused (va : Nat)
  | host (iova va len : Nat)
  | remote (module off va len : Nat)
  deriving DecidableEq, Repr

/-- The bytes that an engine's buffer holds for a range, when it holds them all. -/
def bufBytes (buf : Tbl (Option BufByte)) (va : Nat) : Nat → Option (List BufByte)
  | 0 => some []
  | n + 1 =>
    match Tbl.get none buf va, bufBytes buf (va + 1) n with
    | some b, some t => some (b :: t)
    | _, _ => none

/-- Stands for the granule of poisoned data that came from host memory or another module. -/
def awayGranule : Nat := 2 ^ 47

/-- What buffered bytes amount to. -/
def bufGot (l : List BufByte) (va : Nat) : Got :=
  if l.contains .refused then .refused va
  else if l.contains .unmapped then .fault .translation va
  else if l.contains .poisoned then .poison awayGranule va
  else .ok (l.map (fun x => match x with | .data b => b | _ => 0))

/-- A read of bytes within one line for an engine. -/
def State.readCut (s : State) (c : Ctx) (buf : Tbl (Option BufByte)) (hint va n : Nat) (atlas : Nat → Byte) (cls : ReqClass := .array) : Got × State :=
  let (x, s) := s.translate c.part va false
  match x with
  | .param _ => (.fault .translation va, s)
  | .atlas off => (.ok ((List.range n).map (fun i => atlas (off + i))), s)
  | .pool pa =>
    if !s.reach c.part (pa / 128) false then (.fault .protection va, s) else
    let ((d, po), s) := s.engRead c.part (pa / 128) hint cls
    let hit (g : Nat) : Bool := po.getLsbD g && decide (pa % 128 / 64 ≤ g ∧ g ≤ (pa % 128 + n - 1) / 64)
    if hit 0 then (.poison (pa / 128 * 2) va, s)
    else if hit 1 then (.poison (pa / 128 * 2 + 1) va, s)
    else (.ok (lineBytes d (pa % 128) n), s)
  | .remote m off =>
    match bufBytes buf va n with
    | some l => (bufGot l va, s)
    | none => (.remote m off va n, s)
  | .host iova =>
    match bufBytes buf va n with
    | some l => (bufGot l va, s)
    | none => (if s.hostOk c iova then .host iova va n else .refused va, s)
  | .guest _ => (.fault .protection va, s)
  | .fault k => (.fault k va, s)
  | .poison g => (.poison g va, s)

/-- A read over line-bounded parts; the first failure ends it. -/
def State.readCuts (s : State) (c : Ctx) (buf : Tbl (Option BufByte)) (hint : Nat) (atlas : Nat → Byte) (cls : ReqClass := .array) :
    List (Nat × Nat) → Got × State
  | [] => (.ok [], s)
  | (a, k) :: t =>
    match s.readCut c buf hint a k atlas cls with
    | (.ok b, s) =>
      match State.readCuts s c buf hint atlas cls t with
      | (.ok b', s) => (.ok (b ++ b'), s)
      | r => r
    | r => r

/-- A read of n bytes at a virtual address for an engine. -/
def State.vaRead (s : State) (c : Ctx) (buf : Tbl (Option BufByte)) (hint va n : Nat) (atlas : Nat → Byte) (cls : ReqClass := .array) : Got × State :=
  s.readCuts c buf hint atlas cls (lineCuts va n)

/-- A pool line of a byte range has a transaction in progress: whoever would touch it waits (R175). -/
def State.rangeBusy (s : State) (p : Fin 16) (va n : Nat) : Bool :=
  (lineCuts va n).any (fun x => match s.locate p x.1 false with
    | .pool pa => s.txnBusy (pa / 128)
    | _ => false)

/-- What a write of a byte string met: written; a fault or refusal at an address; remote memory. -/
inductive Put
  | ok
  | fault (c : ParkClass) (va : Nat)
  | refused (va : Nat)
  | remote (module off va : Nat)
  | poison (granule va : Nat)
  deriving DecidableEq, Repr

/-- The line with bytes placed from off. -/
def placeBytes (off : Nat) (b : List Byte) : Line := setLineBytes 0 off b

/-- A write within one line for an engine; `po` marks granules as poisoned. -/
def State.writeCut (s : State) (c : Ctx) (hint va : Nat) (b : List Byte) (po : BitVec 2) (release : Bool) (cls : ReqClass := .array) : Put × State :=
  let (x, s) := s.translate c.part va true
  match x with
  | .pool pa =>
    if !s.reach c.part (pa / 128) true then (.fault .protection va, s)
    else (.ok, s.engWrite c.part (pa / 128) (placeBytes (pa % 128) b) (byteMask (pa % 128) b.length) po hint cls)
  | .host iova => if s.hostOk c iova then (.ok, s.hostWrite c iova b release) else (.refused va, s)
  | .remote m off => (.remote m off va, s)
  | .fault k => (.fault k va, s)
  | .poison g => (.poison g va, s)
  | _ => (.fault .protection va, s)

/-- A write over line-bounded parts; the first failure ends it. -/
def State.writeCuts (s : State) (c : Ctx) (hint : Nat) (release : Bool) (cls : ReqClass := .array) : List (Nat × Nat) → List Byte → Put × State
  | [], _ => (.ok, s)
  | (a, k) :: t, b =>
    match s.writeCut c hint a (b.take k) 0 release cls with
    | (.ok, s) => State.writeCuts s c hint release cls t (b.drop k)
    | r => r

/-- A write of a byte string at a virtual address for an engine. -/
def State.vaWrite (s : State) (c : Ctx) (hint va : Nat) (b : List Byte) (release : Bool) (cls : ReqClass := .array) : Put × State :=
  s.writeCuts c hint release cls (lineCuts va b.length) b

end Sys2Proof.Machine
end

