-- ==== Sys2Proof/Machine/Atlas.lean ====
section
/-! DEFINITION. The Atlas as its readers see it (R26-R35, R467), healthy bandwidth (R155), and the rings of
records: events of a partition (R286-R288, R399) and the updates that post them. -/

namespace Sys2Proof.Machine

/-! ### Healthy bandwidth and guarantees (R155, R159, R162-R164) -/

/-- A stack runs at half rate: its own thermal limit or stage C (R426, R429, R430). -/
def State.stackHalf (s : State) (st : Nat) : Bool := s.pow.stageC || s.mem.halfRate.getLsbD st

/-- In-service channels of a stack. -/
def State.stackChannels (s : State) (st : Nat) : Nat := ((List.range 16).filter (fun c => s.unitUp (16 * st + c))).length

/-- H(h) in MB/s (R155): 52,800 MB/s a channel, or half. -/
def State.healthyHub (s : State) (h : Nat) : Nat :=
  if s.hubUp h then ((List.range 6).map (fun i => s.stackChannels (6 * h + i) * (if s.stackHalf (6 * h + i) then 26400 else 52800))).foldl (· + ·) 0
  else 0

/-- H in MB/s (R155). -/
def State.healthy (s : State) : Nat := s.healthyHub 0 + s.healthyHub 1 + s.healthyHub 2 + s.healthyHub 3

/-- The hubs that are present. -/
def State.hubsUp (s : State) : Nat := ((List.range 4).filter (fun h => s.hubUp h)).length

/-- Four times the share of a figure of partition p at hub h (R159): a quarter each for global plots. -/
def Partition.share4 (p : Partition) (h v : Nat) : Nat := if p.confined then (if p.hub.val = h then 4 * v else 0) else v

/-- The partition has a share at hub h. -/
def Partition.sharesHub (p : Partition) (h : Nat) : Bool := decide (p.mode ≠ .absent) && (!p.confined || decide (p.hub.val = h))

/-- Four times partition p's share of its guarantee at hub h, in 100 MB/s (R159): a holder of global plots has none at a hub
that is lost. -/
def State.guarantee4 (s : State) (h : Nat) (p : Fin 16) : Nat :=
  if !(s.partition p).confined && !s.hubUp h then 0 else (s.partition p).share4 h (s.partition p).guarantee

/-- 4 × S(h) in 100 MB/s (R164). -/
def State.shareSum4 (s : State) (h : Nat) : Nat := (allParts.map (s.guarantee4 h)).foldl (· + ·) 0

/-- f(h) of R164. -/
def State.factorOf (s : State) (h : Nat) : Nat :=
  if !s.hubUp h then 0
  else if s.shareSum4 h = 0 then 65536
  else min 65536 (65536 * 8 * s.healthyHub h * 4 / (10 * 100 * s.shareSum4 h))

/-- The admission rule of R163 on the state as it would be. -/
def State.admits (s : State) : Bool :=
  decide (((allParts.map (fun p => (s.partition p).guarantee)).foldl (· + ·) 0) * 100 * 10 ≤ 8 * s.healthy) &&
  (List.range 4).all (fun h => decide (s.shareSum4 h * 100 * 10 ≤ 4 * 8 * s.healthyHub h))

/-- f(h) as last posted. -/
def State.factor (s : State) (h : Nat) : Nat := Tbl.get 65536 s.mem.factor h

/-! ### The Atlas -/

/-- A logical array's home region (R16). -/
def homeRegion (la : Nat) : Nat := la / 24

/-- The slot that a logical array is bound to. -/
def State.slotOf (s : State) (la : Nat) : Option Nat := Tbl.get none s.atlas.arrayMap la

/-- A logical array is displaced (R18, R31). -/
def State.displaced (s : State) (la : Nat) : Bool := (s.slotOf la).any (fun n => decide (n / 26 ≠ homeRegion la))

/-- Logical arrays bound. -/
def State.boundCount (s : State) : Nat := ((List.range 384).filter (fun la => (s.slotOf la).isSome)).length

/-- Lanes in use of a link port (R342, R362). -/
def LinkPort.laneCount (x : LinkPort) : Nat := if x.mode = .up then (if x.half.isSome then 2 else 4) else 0

/-- The lane numbers that serve port lanes 0-3 (R28, R339). -/
def LinkPort.laneList (x : LinkPort) (n : Nat) : List Nat :=
  (List.range 4).map (fun i => match x.spare with
    | some (l, sp) => if l = i then sp else 4 * n + i
    | none => 4 * n + i)

/-- STATE of a link port as a number. -/
def LpMode.code : LpMode → Nat
  | .down => 0
  | .training => 1
  | .up => 2
  | .fenced => 3

/-- HEALTH of the header (R467). -/
def State.health (s : State) : Nat :=
  let slots := List.range 416
  let cores := List.range 160
  let fenced := slots.any (fun n => decide ((s.slot n).st = 3)) || cores.any (fun n => decide ((s.core n).st = 3))
    || (List.range 14).any (fun d => decide ((s.dieState d).mode ≠ .present))
    || (List.range 384).any (fun u => !s.unitUp u) || (List.range 12).any (fun n => decide ((s.lp n).mode = .fenced))
    || decide (s.link.guest.st = 3)
  let spare := slots.any (fun n => decide ((s.slot n).st = 0) && (decide (24 ≤ n % 26) || (s.slot n).failedColumn.isSome))
    || cores.any (fun n => decide ((s.core n).st = 0) && decide (72 ≤ n % 80))
    || (List.range 12).any (fun n => (s.lp n).spare.isSome && decide ((s.lp n).mode = .up))
  (if fenced then 1 else 0) + (if spare then 2 else 0) + (if s.boundCount < 384 then 4 else 0)
    + (if (List.range 384).any (fun la => s.displaced la) then 8 else 0)

/-- Compute, hub and service dies present. -/
def State.diesUp (s : State) (first n : Nat) : Nat := ((List.range n).filter (fun i => decide ((s.dieState (first + i)).mode = .present))).length

/-- Slots of STATE 1 on dies that are present: spares ready. -/
def State.sparesReady (s : State) : Nat := ((List.range 416).filter (fun n => decide ((s.slot n).st = 1) && decide ((s.dieState (n / 52)).mode = .present))).length

/-- Retirement-slice space used by a stack, in MiB rounded up (R153). -/
def State.sliceMib (s : State) (stack : Nat) : Nat :=
  ceilDiv ((List.range 16).map (fun c => (s.sliceTaken (16 * stack + c)).length)).sum 256

/-- RETIRED_MIB of the stacks takes the space used. -/
def State.countRetired (s : State) : State :=
  { s with mem := { s.mem with retiredMib := (List.range 24).foldl (fun t st => Tbl.set 0 t st (s.sliceMib st)) s.mem.retiredMib } }

/-- The UNITS section (R28). -/
def State.unitsSection (s : State) : List Byte :=
  let cd := s.diesUp 0 8
  let hb := s.diesUp 8 4
  let sd := s.diesUp 12 2
  let w (v : Nat) := leBytes 4 v
  w cd ++ w hb ++ w sd ++ w (2 * cd + hb + sd + 1) ++ w 416 ++ w 384 ++ w s.boundCount ++ w s.sparesReady ++ w 0x00100010 ++ w 4 ++ w 32
    ++ w 160 ++ w ((List.range 160).filter (fun n => decide ((s.core n).st = 0))).length
    ++ w ((List.range 160).filter (fun n => decide ((s.core n).st = 0) && (s.core n).firmware)).length
    ++ w 3072 ++ w 16 ++ w 32768 ++ w (4096 * hb) ++ w (6 * hb) ++ w 16 ++ w (24 * hb) ++ w (32768 * 256 + 16) ++ w 507

/-- Plots that a unit list carries, over all bands, less those quarantined. -/
def State.plotsAllocatable (s : State) : Nat :=
  ((List.range 47).map (fun b => if s.confinedBand b
      then ((List.range 4).map (fun h => min 6 ((s.unitList true h).length / 16))).foldl (· + ·) 0
      else min 24 ((s.unitList false 0).length / 16))).foldl (· + ·) 0 - s.atlas.quarantined

/-- The STORAGE section (R28). -/
def State.storageSection (s : State) : List Byte :=
  let w (v : Nat) := leBytes 8 v
  let shares := 0 + 16 * 2 ^ 10 + 32 * 2 ^ 20 + 64 * 2 ^ 30 + 96 * 2 ^ 40 + 112 * 2 ^ 50
  let hb := s.hubsUp
  w 2097152 ++ w 524288 ++ w shares ++ w 67108864 ++ w (67108864 * 24 * hb) ++ w (12 + 128 * 256 + 64 * 2 ^ 24)
    ++ w 1236950581248 ++ w 25769803776 ++ w (1073741824 * s.plotsAllocatable) ++ w 1073741824 ++ w s.healthy ++ w 268435456

/-- One FORMATS entry. -/
def fmtEntry (code width mac blocks acc : Nat) : List Byte := [BitVec.ofNat 8 code, BitVec.ofNat 8 width] ++ leBytes 2 mac ++ [BitVec.ofNat 8 blocks, BitVec.ofNat 8 acc, 0, 0]

/-- The FORMATS section on B0 (R28, R105): format codes with widths, dense rates, block sizes, accumulators.
DEDUCED: the order is that of the format codes. -/
def formatsSection : List Byte :=
  fmtEntry 0x00 64 2 0 64 ++ fmtEntry 0x01 32 4 0 32 ++ fmtEntry 0x02 16 8 0 32 ++ fmtEntry 0x03 16 8 0 32
    ++ fmtEntry 0x04 8 16 3 32 ++ fmtEntry 0x05 8 16 3 32 ++ fmtEntry 0x06 6 16 3 32 ++ fmtEntry 0x07 6 16 3 32 ++ fmtEntry 0x08 4 32 3 32
    ++ fmtEntry 0x09 8 0 0 0 ++ fmtEntry 0x0A 32 0 0 0 ++ fmtEntry 0x0B 16 8 0 32 ++ fmtEntry 0x0C 8 16 0 32 ++ fmtEntry 0x0D 4 32 0 32
    ++ fmtEntry 0x0E 24 0 0 0

/-- The PORTS section (R28). -/
def State.portsSection (s : State) : List Byte :=
  ((List.range 12).map (fun n =>
    let x := s.lp n
    [BitVec.ofNat 8 x.mode.code, BitVec.ofNat 8 x.laneCount] ++ leBytes 2 (if x.mode = .up then 224 else 0)
      ++ (x.laneList n).map (fun l => BitVec.ofNat 8 l))).flatten
  ++ ([s.host.port0, s.host.port1].map (fun p =>
    [if p.linkUp then 2 else if p.released then 1 else 0, BitVec.ofNat 8 p.width] ++ leBytes 2 (if p.linkUp then [2, 5, 8, 16, 32, 64].getD p.rate 0 else 0) ++ [0, 0, 0, 0])).flatten
  ++ [BitVec.ofNat 8 s.link.guest.st.val, BitVec.ofNat 8 s.link.guest.modules] ++ leBytes 2 s.link.guest.rate ++ [0, 0, 0, 0]

/-- ARRAY_MAP (R31). -/
def State.arrayMapSection (s : State) : List Byte :=
  ((List.range 384).map (fun la => leBytes 4 (match s.slotOf la with
    | none => 0x1FF
    | some n => n + (if s.displaced la then 512 else 0) + (if (s.slot n).failedColumn.isSome then 1024 else 0)))).flatten

/-- SLOT_STATE (R32). -/
def State.slotStateSection (s : State) : List Byte :=
  ((List.range 416).map (fun n => leBytes 2 ((s.slot n).st.val + (match (s.slot n).failedColumn with
    | some c => 8 + 16 * c.val
    | none => 0)))).flatten

/-- CORE_STATE. -/
def State.coreStateSection (s : State) : List Byte :=
  ((List.range 160).map (fun n => leBytes 2 ((s.core n).st.val + (if (s.core n).firmware then 8 else 0) + (match (s.core n).replaced with
    | some c => 16 + 32 * (c % 80)
    | none => 0)))).flatten

/-- STACK_STATE. -/
def State.stackStateSection (s : State) : List Byte :=
  ((List.range 24).map (fun st => leBytes 8 (field s.mem.unitsUp (16 * st) 16 + Tbl.get 0 s.mem.retiredMib st * 65536
    + (if s.hubUp (st / 6) then 2 ^ 32 else 0)))).flatten

/-- A directory entry (R28). -/
def dirEntry (id off size count : Nat) : List Byte := leBytes 2 id ++ leBytes 2 1 ++ leBytes 4 off ++ leBytes 4 size ++ leBytes 4 count

/-- The Atlas's bytes (R26, R28-R32). DEDUCED: the sections stand in the order of their identifiers, packed. -/
def State.atlasBytes (s : State) : List Byte :=
  let total := 192 + 92 + 4 + 96 + 120 + 120 + 1536 + 832 + 320 + 192
  leBytes 4 0x534C5441 ++ leBytes 2 1 ++ leBytes 2 0 ++ leBytes 4 total ++ leBytes 4 8 ++ leBytes 8 s.atlas.generation.toNat
    ++ leBytes 4 0x961 ++ [0xB0, BitVec.ofNat 8 s.health, 0, 0] ++ leBytes 8 s.pow.bootEpoch.toNat ++ leBytes 4 s.atlas.lastChange ++ List.replicate 20 0
    ++ dirEntry 1 192 92 0 ++ dirEntry 2 288 96 0 ++ dirEntry 3 384 120 15 ++ dirEntry 4 504 120 15 ++ dirEntry 5 624 1536 384
    ++ dirEntry 6 2160 832 416 ++ dirEntry 7 2992 320 160 ++ dirEntry 8 3312 192 24
    ++ s.unitsSection ++ [0, 0, 0, 0] ++ s.storageSection ++ formatsSection ++ s.portsSection ++ s.arrayMapSection ++ s.slotStateSection
    ++ s.coreStateSection ++ s.stackStateSection

/-- A byte of the Atlas window or mirror (R26). -/
def State.atlasByte (s : State) (off : Nat) : Byte := s.atlasBytes.getD off 0

/-! ### Rings (R286-R288) -/

/-- Writes a byte string of a ring at an address in the ring's space (R287). -/
def State.ringPut (s : State) (c : Ctx) (host : Bool) (a : Nat) (b : List Byte) (release : Bool) : Bool × State :=
  if host then (if s.hostOk c (a % 2 ^ 64) then (true, s.hostWrite c (a % 2 ^ 64) b release) else (false, s))
  else match s.vaWrite c 0 a b release with
    | (.ok, s) => (true, s)
    | (_, s') => (false, s')

/-- CONSUMER of a ring (R286): read from the control block in pool memory; in host memory the module reads what the host
last wrote there, which the model leaves free. -/
def State.ringConsumer (s : State) (c : Ctx) (r : RingReg) : BitVec 32 × State :=
  let a := (r.block.toNat + 28) % 2 ^ 64
  if r.host then (if s.hostOk c a then (s.hostAsk c a 4).freeVal 32 else (r.producer, s))
  else match s.vaRead c [] 0 a 4 (fun _ => 0) with
    | (.ok b, s) => (BitVec.ofNat 32 (leNat b), s)
    | (.host i _ _, s) => (s.hostAsk c i 4).freeVal 32
    | (_, s) => (r.producer, s)

/-- Writes one record to a ring (R287): dropped when the ring is full, lost when a write is refused; a loss whose count cannot
be written is counted nowhere. The answer
is the ring as it then stands, and whether the record went into an empty ring. `cons` is CONSUMER where the command
gives it. -/
def State.ringRecord (s : State) (c : Ctx) (r : RingReg) (record : List Byte) (kind : Option Byte) (cons : Option (BitVec 32)) :
    RingReg × Bool × State :=
  let (cons, s) := match cons with
    | some x => (x, s)
    | none => s.ringConsumer c r
  let drop (s : State) : RingReg × Bool × State :=
    let n := if r.dropped = BitVec.allOnes 32 then r.dropped else r.dropped + 1
    let (ok, s) := s.ringPut c r.host (r.block.toNat + 32) (leBytes 4 n.toNat) false
    ({ r with dropped := if ok then n else r.dropped }, false, s)
  if r.producer - cons = BitVec.ofNat 32 (2 ^ r.log2) then drop s
  else
    let slot := r.producer.toNat % 2 ^ r.log2
    let (ok, s) := s.ringPut c r.host (r.records.toNat + 64 * slot) record false
    if !ok then drop s else
    let (ok, s) := match kind with
      | some k => s.ringPut c r.host (r.kinds.toNat + slot) [k] false
      | none => (true, s)
    if !ok then drop s else
    let (ok, s) := s.ringPut c r.host (r.block.toNat + 24) (leBytes 4 (r.producer + 1).toNat) true
    if !ok then drop s else
    ({ r with producer := r.producer + 1 }, decide (r.producer = cons), s)

/-- The standing of a partition's ring accesses (R287). -/
def Partition.ringCtx (x : Partition) (p : Fin 16) : Ctx := ⟨p, (fnOf x.ringFn).1, (fnOf x.ringFn).2, some x.ringPasid⟩

/-- The interrupt identity n to the core at a grant-list index; discarded for a fenced core (R287, R409). -/
def State.coreInterrupt (s : State) (p : Fin 16) (index n : Nat) : State :=
  match (s.partition p).cores[index]? with
  | none => s
  | some c => if (s.core c).st = 0 then s.emit (.coreIrq c n) else s

/-- Posts an event to a partition's telemetry ring (R288): its body is bytes [63:16]. -/
def State.postEvent (s : State) (p : Fin 16) (event : Nat) (body : List Byte) : State :=
  let x := s.partition p
  if x.mode = .absent then s else
  let record := leBytes 2 event ++ [0, 0] ++ leBytes 4 x.serial.toNat ++ leBytes 8 s.pow.bootEpoch.toNat
    ++ (body ++ List.replicate (48 - body.length) 0)
  let s := s.setPartition p { x with serial := x.serial + 1 }
  match x.telemetry with
  | none => s
  | some r =>
    let (r', _, s) := s.ringRecord (x.ringCtx p) r record none none
    s.setPartition p { s.partition p with telemetry := some r' }

/-- Writes a record to a partition's fault ring, with identity 1 when it goes into an empty ring (R287). -/
def State.postFault (s : State) (p : Fin 16) (kind : Byte) (record : List Byte) : State :=
  let x := s.partition p
  match x.fault with
  | none => s
  | some r =>
    let (r', empty, s) := s.ringRecord (x.ringCtx p) r record (some kind) none
    let s := s.setPartition p { s.partition p with fault := some r' }
    if empty then s.coreInterrupt p 0 1 else s

/-- Posts an event to every partition of a mask. -/
def State.postAll (s : State) (parts : BitVec 16) (event : Nat) (body : List Byte) : State :=
  allParts.foldl (fun s p => if parts.getLsbD p.val then s.postEvent p event body else s) s

/-- The begin of an Atlas update: GENERATION becomes odd (R33). -/
def State.atlasBegin (s : State) : State :=
  if s.atlas.generation.getLsbD 0 then s
  else { s with atlas := { s.atlas with generation := s.atlas.generation + 1, lastChange := 0, notify := 1 } }

/-- A change within an update: LAST_CHANGE keeps the higher kind, and the owners of what it names are told
when the update ends (R35). -/
def State.atlasNote (s : State) (kind : Nat) (parts : BitVec 16) : State :=
  { s with atlas := { s.atlas with lastChange := max s.atlas.lastChange kind, notify := s.atlas.notify ||| parts } }

/-- The mirror's copy in device memory is written (R26); before publication there is none. -/
def State.mirrorWrite (s : State) : State :=
  if s.atlas.mirror = 0 then s else
  let b := s.atlasBytes
  (List.range 28).foldl (fun s i =>
    s.engWrite 0 (s.atlas.mirror.toNat / 128 + i) (BitVec.ofNat 1024 (leNat ((b.drop (128 * i)).take 128))) (BitVec.allOnes 128) 0 0) s

/-- The end of an Atlas update: GENERATION becomes even, the mirror follows, ATLAS_UPDATED is posted (R26, R33, R35). -/
def State.atlasEnd (s : State) : State :=
  if !s.atlas.generation.getLsbD 0 then s else
  let s := ({ s with atlas := { s.atlas with generation := s.atlas.generation + 1 } } : State).mirrorWrite
  s.postAll s.atlas.notify 0x0001 (leBytes 8 s.atlas.generation.toNat ++ leBytes 4 s.atlas.lastChange)

/-- An update that begins and ends in this step; within an update in progress it only notes its change. -/
def State.atlasUpdate (s : State) (kind : Nat) (parts : BitVec 16) : State :=
  if s.pow.stage ≠ .published then s
  else if s.atlas.generation.getLsbD 0 then s.atlasNote kind parts
  else ((s.atlasBegin).atlasNote kind parts).atlasEnd

/-- The partitions that satisfy a condition, as a mask. -/
def State.partsWhere (s : State) (f : Partition → Bool) : BitVec 16 :=
  allParts.foldl (fun m p => if (s.partition p).mode ≠ .absent ∧ f (s.partition p) then m ||| partBit p else m) 0

/-- Firmware has taken a PAGE_RETIRED record of a channel: where RETIRED_MIB of its stack has changed, it updates the Atlas (R33,
R153). DESIGN CHOICE: with kind 6. -/
def State.noteRetired (s : State) (u : Nat) : State :=
  if s.sliceMib (u / 16) = Tbl.get 0 s.mem.retiredMib (u / 16) then s
  else s.countRetired.atlasUpdate 6 (s.partsWhere (fun x => x.sharesHub (u / 96)))

/-- Recomputes f(h) of every hub and posts GUARANTEE_SHORTFALL where it changed (R164). -/
def State.refactor (s : State) : State :=
  (List.range 4).foldl (fun s h =>
    let f := s.factorOf h
    if f = s.factor h then s else
    let s := { s with mem := { s.mem with factor := Tbl.set 65536 s.mem.factor h f } }
    s.postAll (s.partsWhere (fun x => x.sharesHub h) ||| 1) 0x0002 ([BitVec.ofNat 8 h, 0, 0, 0] ++ leBytes 4 f)) s

end Sys2Proof.Machine
end

