-- ==== Sys2Proof/Machine/Commands.lean ====
section
/-! DEFINITION. Channels and commands as shared operations (09): the fields of entries and descriptors, declared
regions and sealing, semaphores at the home, completion, interrupts, kills and stops. -/

namespace Sys2Proof.Machine

/-! ### Channel entries (R242, R243) -/

/-- A 4-bit field as a partition. -/
def toPart (n : Nat) : Fin 16 := ⟨n % 16, Nat.mod_lt _ (by decide)⟩

/-- PARTITION of an entry. -/
def entPart (e : BitVec 512) : Fin 16 := toPart (field e 208 4)

/-- QUEUE of an entry. -/
def entQueue (e : BitVec 512) : Fin 64 := ⟨field e 216 6 % 64, Nat.mod_lt _ (by decide)⟩

/-- PRIORITY of an entry. -/
def entPriority (e : BitVec 512) : Nat := field e 224 3

/-- FUNCTION of an entry. -/
def entFn (e : BitVec 512) : BitVec 16 := bits e 240 16

/-- PASID of an entry. -/
def entPasid (e : BitVec 512) : BitVec 20 := bits e 256 20

/-- STATE of an entry. -/
def entState (e : BitVec 512) : Nat := field e 360 8

/-- CONSUMED of an entry. -/
def entConsumed (e : BitVec 512) : BitVec 32 := bits e 384 32

/-- COMPLETED of an entry. -/
def entCompleted (e : BitVec 512) : BitVec 32 := bits e 416 32

/-- ERROR_CAUSE of an entry. -/
def entCause (e : BitVec 512) : Nat := field e 368 8

/-- Sets STATE. -/
def setEntState (e : BitVec 512) (v : Nat) : BitVec 512 := putField e 360 8 v

/-- Sets ERROR_CAUSE. -/
def setEntCause (e : BitVec 512) (v : Nat) : BitVec 512 := putField e 368 8 v

/-- The standing of a channel's requests (R320). -/
def State.chanCtx (s : State) (ch : Fin 3072) : Ctx :=
  let e := s.entry ch
  ⟨entPart e, (fnOf (entFn e)).1, (fnOf (entFn e)).2, some (entPasid e)⟩

/-- A SPACES bit of an entry: the address lies in host memory. -/
def entHost (e : BitVec 512) (bit : Nat) : Bool := e.getLsbD (232 + bit)

/-- A write of the front end at an address of a channel (R242). -/
def State.chanPut (s : State) (ch : Fin 3072) (host : Bool) (a : Nat) (b : List Byte) : Bool × State :=
  s.ringPut (s.chanCtx ch) host a b true

/-! ### Descriptors (R253-R261) -/

/-- Bits [lo + w - 1 : lo] of byte b of a block. -/
def blk (d : BitVec 512) (byte lo w : Nat) : Nat := field d (8 * byte + lo) w

/-- The descriptor's first block. -/
def Cmd.head (c : Cmd) : BitVec 512 := c.slots.headD 0

/-- KIND of a command. -/
def Cmd.kind (c : Cmd) : Nat := blk c.head 0 0 8

/-- The extension blocks of a kind. -/
def extBlocks (slots : List (BitVec 512)) (k : Nat) : List (BitVec 512) := slots.tail.filter (fun b => blk b 0 0 8 = k)

/-- LAUNCH, STEP and PATTERN_LOAD occupy arrays (R294). -/
def Cmd.usesArrays (c : Cmd) : Bool := decide (c.kind = 1 ∨ c.kind = 2 ∨ c.kind = 5)

/-- Semaphore entries: address, OP and operand (R263). -/
def semEntries (slots : List (BitVec 512)) : List (Nat × Nat × Word) :=
  ((extBlocks slots 2).map (fun b => (List.range (blk b 1 0 8)).map (fun i =>
    (blk b (8 + 16 * i) 4 53 * 16, blk b (8 + 16 * i) 0 2, bits b (8 * (16 + 16 * i)) 64)))).flatten

/-- OUTPUTS regions: base and length (R254). -/
def outputs (slots : List (BitVec 512)) : List (Nat × Nat) :=
  ((extBlocks slots 1).map (fun b => (List.range (blk b 1 0 8)).map (fun i => (blk b (8 + 16 * i) 0 64, blk b (16 + 16 * i) 0 64)))).flatten

/-- Bytes of a row: a U12P row holds whole pairs, the last one's padding included (R111). -/
def rowBytes (fmt n : Nat) : Nat := if fmt % 16 = 14 then 3 * ceilDiv n 2 else ceilDiv (n * fmtBits fmt) 8

/-- Bytes that a packed row occupies, after which the next one begins (R258). The padding of an odd U12P row reaches one byte
further, which the next row, written after it, overwrites (DEDUCED from R111 and R258). -/
def packedRow (fmt n : Nat) : Nat := ceilDiv (n * fmtBits fmt) 8

/-- The geometry of a COPY (R258): first bytes and strides of its rows and planes. -/
structure CopyShape where
  src : Nat
  dst : Nat
  elements : Nat
  rows : Nat
  planes : Nat
  srcFmt : Nat
  dstFmt : Nat
  srcRow : Int
  srcPlane : Int
  dstRow : Int
  dstPlane : Int
  deriving DecidableEq, Repr

/-- The geometry of a COPY's descriptor (R254, R258). -/
def copyShape (slots : List (BitVec 512)) : CopyShape :=
  let d := slots.headD 0
  let n := blk d 32 0 32
  let r := blk d 36 0 32
  let sf := blk d 44 0 5
  let df := blk d 45 0 5
  let sb := packedRow sf n
  let db := packedRow df n
  match extBlocks slots 5 with
  | g :: _ => ⟨blk d 16 0 64, blk d 24 0 64, n, r, blk d 40 0 32, sf, df, (bits g 64 64).toInt, (bits g 128 64).toInt, (bits g 192 64).toInt, (bits g 256 64).toInt⟩
  | [] => ⟨blk d 16 0 64, blk d 24 0 64, n, r, blk d 40 0 32, sf, df, sb, sb * r, db, db * r⟩

/-- The rows of one side: first bytes, in order of plane then row. -/
def rowStarts (base rows planes : Nat) (rowStride planeStride : Int) : List Nat :=
  ((List.range planes).map (fun p => (List.range rows).map (fun r => ((base : Int) + p * planeStride + r * rowStride).toNat))).flatten

/-- The byte ranges that a COPY reads. -/
def CopyShape.reads (c : CopyShape) : List (Nat × Nat) := (rowStarts c.src c.rows c.planes c.srcRow c.srcPlane).map (fun a => (a, rowBytes c.srcFmt c.elements))

/-- The byte ranges that a COPY writes. -/
def CopyShape.writes (c : CopyShape) : List (Nat × Nat) := (rowStarts c.dst c.rows c.planes c.dstRow c.dstPlane).map (fun a => (a, rowBytes c.dstFmt c.elements))

/-- Two byte ranges share a 128-byte line (R270). -/
def shareLine (a b : Nat × Nat) : Bool :=
  decide (0 < a.2 ∧ 0 < b.2 ∧ a.1 / 128 ≤ (b.1 + b.2 - 1) / 128 ∧ b.1 / 128 ≤ (a.1 + a.2 - 1) / 128)

/-- Scale bytes that a COPY writes: SCALE, one byte per block of each row (R258, R267). -/
def scaleRange (slots : List (BitVec 512)) : List (Nat × Nat) :=
  let d := slots.headD 0
  let c := copyShape slots
  let b := blk d 47 3 2
  if b = 0 ∨ c.dstFmt < 4 ∨ 8 < c.dstFmt then [] else [(blk d 56 0 64, c.planes * c.rows * ceilDiv c.elements (16 * b))]

/-- Scale bytes that a COPY reads: those of an element format that it decodes (R258). -/
def scaleReads (slots : List (BitVec 512)) : List (Nat × Nat) :=
  let d := slots.headD 0
  let c := copyShape slots
  let b := blk d 47 3 2
  if b = 0 ∨ c.srcFmt < 4 ∨ 8 < c.srcFmt then [] else [(blk d 56 0 64, c.planes * c.rows * ceilDiv c.elements (16 * b))]

/-- A COPY whose source overlaps its destination by line footprints (R270). -/
def copyOverlaps (slots : List (BitVec 512)) : Bool :=
  ((copyShape slots).reads ++ scaleReads slots).any (fun a => ((copyShape slots).writes ++ scaleRange slots).any (fun b => shareLine a b))

/-- The class of a command's own requests (R158): those of a copy engine are an ingest engine's. DESIGN CHOICE: the engine's number
is the channel's, modulo 16. -/
def Cmd.engCls (c : Cmd) : ReqClass :=
  if c.kind = 3 ∨ c.kind = 4 ∨ c.kind = 7 ∨ c.kind = 8 then .master (.ingest ⟨c.ch.val % 16, Nat.mod_lt _ (by decide)⟩) else .array

/-- A command is sealed (R270). -/
def Cmd.isSealed (c : Cmd) : Bool :=
  (decide (blk c.head 1 1 1 = 1)) || (decide (c.kind = 3) && (decide (blk c.head 47 0 3 ≠ 0) || copyOverlaps c.slots))

/-- The byte ranges that a command's declared regions hold (R266, R267): the bytes it writes, for those that form
their own footprint. -/
def Cmd.regions (c : Cmd) : List (Nat × Nat) :=
  let d := c.head
  if c.kind = 1 ∨ c.kind = 2 then outputs c.slots
  else if c.kind = 3 then (copyShape c.slots).writes ++ scaleRange c.slots
  else if c.kind = 4 then [(blk d 16 0 64, blk d 24 0 64)]
  else if c.kind = 7 then [(blk d 32 0 64, 128 * ceilDiv (blk d 40 0 64) 128)]
  else if c.kind = 8 then [(blk d 24 0 64, blk d 32 0 64)]
  else []

/-- A write of n bytes lies inside the declared regions (R266, R268). -/
def Cmd.declares (c : Cmd) (va n : Nat) : Bool := c.regions.any (fun r => decide (r.1 ≤ va ∧ va + n ≤ r.1 + r.2))

/-- Poisons the granules of a byte range that lie in pool memory (R271). -/
def State.poisonRange (s : State) (p : Fin 16) (a n : Nat) : State :=
  if n = 0 then s else
  (List.range ((a + n - 1) / 64 - a / 64 + 1)).foldl (fun s i =>
    let va := (a / 64 + i) * 64
    match s.translate p va true with
    | (.pool pa, s) =>
      if s.reach p (pa / 128) true then
        let g := pa / 64 % 2
        s.engWrite p (pa / 128) 0 (byteMask (64 * g) 64) (BitVec.ofNat 2 (2 ^ g)) 0
      else s
    | (_, s) => s) s

/-- Poisons every granule of the declared regions (R271). -/
def State.poisonRegions (s : State) (c : Cmd) : State := c.regions.foldl (fun s r => s.poisonRange c.part r.1 r.2) s

/-! ### Semaphores at the home (R263-R265, R470) -/

/-- What the front end finds of a semaphore object. -/
inductive Sem
  | ok (line off : Nat) (value : Word) (owner : Nat) (exclusive : Bool) (reserved : Bool)
  | invalid
  | poison (granule : Nat)
  deriving DecidableEq, Repr

/-- Reads a semaphore object of partition p (R263). -/
def State.semRead (s : State) (p : Fin 16) (va : Nat) : Sem × State :=
  match s.translate p va false with
  | (.pool pa, s) =>
    if !s.owns p (pa / 128) then (.invalid, s) else
    let ((d, po), s) := s.engRead p (pa / 128) 0
    if po.getLsbD (pa % 128 / 64) then (.poison (pa / 64), s) else
    let o := pa % 128
    (.ok (pa / 128) o (bits d (8 * o) 64) (field d (8 * o + 64) 16) (d.getLsbD (8 * o + 80))
      (decide (field d (8 * o + 81) 47 ≠ 0)), s)
  | (.poison g, s) => (.poison g, s)
  | (_, s) => (.invalid, s)

/-- Writes VALUE and OWNER of an object as an atomic at its home (R264). -/
def State.semWrite (s : State) (p : Fin 16) (line off : Nat) (value : Word) (owner : Nat) : Bool × State :=
  s.engUpdate p line 0 (BitVec.ofNat 2 (2 ^ (off / 64))) (fun d => putField (putField d (8 * off) 64 value.toNat) (8 * off + 64) 16 owner)

/-- The POISON_READ report of a consumer (R400): the channel of the granule, its address and page. Data that came
poisoned from another module was reported as it arrived. -/
def State.poisonRead (s : State) (p : Fin 16) (granule : Nat) (reporter : BitVec 16) : State :=
  if granule = awayGranule then s else
  let u := s.unitOf (granule / 2)
  s.report ⟨0x0026, unitId 4 u, partBit p, 0xFFFF, reporter, BitVec.ofNat 32 (s.pageOf (granule / 2)), BitVec.ofNat 64 (64 * granule)⟩

/-- The donation for a channel's claim ends with the claim (R300). -/
def State.endDonation (s : State) (c : Cmd) : State :=
  if c.claims = [] then s else
  let x := s.partition c.part
  let q := Tbl.get QueueState.reset x.queues c.queue.val
  let s := if q.donation.any (fun d => decide (d.2 = c.ch.val))
    then s.setPartition c.part { x with queues := Tbl.set QueueState.reset x.queues c.queue.val { q with donation := none } } else s
  { s with chan := { s.chan with cmds := s.chan.cmds.map (fun w => if w.donating = some c.ch.val then { w with donating := none } else w) } }

/-- Sets OWNER to none on the objects that a command claimed; the first entry that could not be released
(R265, R470). -/
def State.releaseClaims (s : State) (c : Cmd) : Option Nat × State :=
  c.claims.foldl (fun (x : Option Nat × State) i =>
    match (semEntries c.slots)[i]? with
    | none => x
    | some (va, _, _) =>
      match x.2.semRead c.part va with
      | (.ok line off v _ _ _, s) =>
        let (ok, s) := s.semWrite c.part line off v 0xFFFF
        (if ok then x.1 else x.1.orElse (fun _ => some i), s)
      | (.poison g, s) => (x.1.orElse (fun _ => some i), s.poisonRead c.part g (unitId 3 14))
      | (.invalid, s) => (x.1.orElse (fun _ => some i), s)) (none, s.endDonation c)

/-! ### Interrupts (R277, R278) -/

/-- Sends an MSI-X message of a function, or keeps it pending while the vector is masked; none while the
function is resetting (R277, R331). -/
def State.sendMsix (s : State) (port : Fin 2) (fn : Fin 128) (v : Nat) : State :=
  let f := s.fn port fn
  if f.mode ≠ .enabled then s
  else if f.masked.contains v then s.setFn port fn { f with msixPending := if f.msixPending.contains v then f.msixPending else f.msixPending ++ [v] }
  else s.emit (.msix port fn v)

/-- Sends a channel's interrupt (R277). -/
def State.sendChanIrq (s : State) (ch : Fin 3072) : State :=
  let e := s.entry ch
  match blk e 38 0 8 with
  | 1 => s.sendMsix (fnOf (entFn e)).1 (fnOf (entFn e)).2 (blk e 40 0 16)
  | 2 => s.coreInterrupt (entPart e) (blk e 42 0 8) (blk e 40 0 16)
  | _ => s

/-- An interrupt of a channel becomes due (R278). -/
def State.chanIrq (s : State) (ch : Fin 3072) : State :=
  if blk (s.entry ch) 38 0 8 = 0 then s
  else if (s.dyn ch).holding then s.setDyn ch { s.dyn ch with irqDue := true }
  else
    let s := s.sendChanIrq ch
    if blk (s.entry ch) 39 0 8 = 0 then s else s.setDyn ch { s.dyn ch with holding := true, irqDue := false }

/-! ### Kills and completion (R246, R252, R265-R275) -/

/-- The sentry entry that a ticket fills is emptied: its park received its first event (R134, R76). -/
def State.sentryFree (s : State) (t : BitVec 32) : State :=
  { s with err := { s.err with sentryFull := s.err.sentryFull.filter (fun x => decide (x.2 ≠ some t)) } }

/-- The tickets of an array's parks. -/
def ArrayState.tickets (a : ArrayState) : List (BitVec 32) := a.parks.filterMap (fun x => x.2.map (·.ticket))

/-- Empties the arrays that a command holds, its parks freed by the kill (R76, R101, R273). -/
def State.vacateArrays (s : State) (c : Cmd) : State :=
  c.arrays.foldl (fun s la =>
    if (s.array la).occ.any (fun o => decide (o.cmd = c.ref)) then
      ((s.array la).tickets.foldl State.sentryFree s).setArray la (s.array la).vacate
    else s) s

/-- Frees the arrays that a command held. -/
def State.freeArrays (s : State) (c : Cmd) : State :=
  c.arrays.foldl (fun s la =>
    if (s.array la).occ.any (fun o => decide (o.cmd = c.ref)) then s.setArray la { (s.array la) with occ := none } else s) s

/-- Drops a command's frames that no link has sent yet, with the requests they make (R303). -/
def State.dropFrames (s : State) (c : CmdRef) : State :=
  let unsent := (s.link.reqs.filter (fun q => decide (q.cmd = some c) && q.lp.isNone)).map (·.tag)
  let mine (f : TxFrame) : Bool := decide (field f.hdr 64 8 ≤ 4) && unsent.contains (field f.hdr 128 16)
  let reqs := s.link.reqs.filter (fun q => !unsent.contains q.tag)
  { s with
    link := { s.link with
      reqs := reqs
      waiting := s.link.waiting.filter (fun w => match w.1 with | .part _ => !mine w.2 | _ => true) }
    mem := { s.mem with homeReqs := s.mem.homeReqs.filter (fun r => !(decide (r.cmd = c) && r.tag.isSome
      && !reqs.any (fun q => match q.use with | .home id _ => decide (id = r.id) | _ => false))) } }

/-- After requests came back or were dropped: the Invalidate Requests of whose range no read made before them is outstanding
complete, in the order received, those of one function in order (R324); and what waited for a tag leaves (R315). -/
def State.settleInvals (s : State) : State :=
  let held (x : AtsInval) : Bool := s.host.reads.any (fun r => decide (r.port = x.port ∧ r.fn = x.fn ∧ r.tag < x.upTo)
    && decide (x.first.toNat ≤ r.addr.toNat / 4096 ∧ r.addr.toNat / 4096 < x.first.toNat + x.count))
  let (left, s) := s.host.invals.foldl (fun (y : List AtsInval × State) x =>
    if held x ∨ y.1.any (fun z => decide (z.port = x.port ∧ z.fn = x.fn)) then (y.1 ++ [x], y.2)
    else (y.1, y.2.emit (.atsComplete x.port x.fn))) ([], s)
  let s : State := { s with host := { s.host with invals := left } }
  (s.sendHeld 0).sendHeld 1

/-- Drops a command's requests that no home has accepted and that return data, its tags and its page requests:
writes already sent go on (R303, R331). -/
def State.dropReads (s : State) (c : CmdRef) : State :=
  let s := s.dropFrames c
  let s : State := { s with
    mem := { s.mem with homeReqs := s.mem.homeReqs.filter (fun r => !(decide (r.cmd = c) && decide (r.op = .rdOnce) && decide (r.stage = .sent) && r.tag.isNone)) }
    host := { s.host with
      reads := s.host.reads.filter (fun r => match r.use with | .engine x _ => !decide (x = c) | _ => true)
      pages := s.host.pages.filter (fun r => match r.use with | .engine x _ => !decide (x = c) | _ => true) } }
  s.settleInvals

/-- Kills a command that runs: it leaves its arrays, and then completes with the status given or re-runs
(R272, R273). -/
def State.killCmd (s : State) (c : Cmd) (fin : Option (Nat × BitVec 32)) : State :=
  let s := (s.vacateArrays c).dropReads c.ref
  let s := s.setCmd { c with stage := .draining fin, build := none, left := 0, buf := [], counts := ⟨0, 0, 0, 0, 0⟩ }
  s.setPartition c.part { s.partition c.part with kills := (s.partition c.part).kills + 1 }

/-- The 32-byte completion record (R274, R275). -/
def recordBytes (c : Cmd) (status : Nat) (poisoned report : Bool) (phase : Bool) (energy : Word) (detail : BitVec 32) : List Byte :=
  leBytes 2 status ++ [(if phase then 1 else 0) + (if report then 2 else 0) + (if poisoned then 4 else 0), BitVec.ofNat 8 (min c.reruns 255)]
    ++ leBytes 4 c.idx.toNat ++ leBytes 8 (field c.head 64 64) ++ leBytes 8 energy.toNat ++ leBytes 4 detail.toNat ++ [0, 0, 0, 0]

/-- The channel takes an error (R252): from ACTIVE it begins to stop; while STOPPING the first failure is
kept. -/
def State.noteError (s : State) (ch : Fin 3072) (cause : Nat) : State :=
  let e := s.entry ch
  if entState e = 2 then
    (if entCause e = 0 then (s.setEntry ch (setEntCause e cause)).setDyn ch { s.dyn ch with stop := some ((s.dyn ch).stop.elim .error (fun w => if w = .reset then .reset else if w = .lock then .lock else .error)) } else s)
  else if entState e = 1 then
    (s.setEntry ch (setEntState (setEntCause e cause) 2)).setDyn ch { s.dyn ch with stop := some .error, hot := false }
  else s

/-- Writes a completion record and advances COMPLETED, whether or not the record could be written (R252, R274).
A record whose ring lies in host memory through a resetting function is not written and is counted (R331). -/
def State.putRecord (s : State) (c : Cmd) (status : Nat) (poisoned report : Bool) (detail : BitVec 32) : State :=
  let e := s.entry c.ch
  let done := (entCompleted e).toNat
  let log2 := blk e 25 0 8
  let (energy, s) := s.recordEnergy c.ref
  let rec32 := recordBytes c status poisoned report (decide (done / 2 ^ log2 % 2 = 0)) (BitVec.ofNat 64 energy) detail
  let a := blk e 16 0 64 + 32 * (done % 2 ^ log2)
  let (port, fn) := fnOf (entFn e)
  let lost := entHost e 2 && decide ((s.fn port fn).mode = .resetting)
  let (ok, s) := if lost then (true, s.setFn port fn { s.fn port fn with recordsLost := (s.fn port fn).recordsLost + 1 })
    else s.chanPut c.ch (entHost e 2) a rec32
  let s := s.setEntry c.ch (putField (s.entry c.ch) 416 32 (done + 1))
  if ok then s else s.noteError c.ch 4

/-- Completes a command: a sealed command that had started and did not commit poisons its regions (R271); claims
are released without a signal (R265); then the record, the interrupt, and the command is gone. -/
def State.complete (s : State) (c : Cmd) (status : Nat) (detail : BitVec 32) : State :=
  let poisoned := c.isSealed && c.started
  let s := if poisoned then s.poisonRegions c else s
  let (_, s) := s.releaseClaims c
  let s := s.putRecord c status poisoned false detail
  let s := if blk c.head 1 0 1 = 1 then s.chanIrq c.ch else s
  let s := s.dropCmd c.ref
  { s with chan := { s.chan with reserved := s.chan.reserved.filter (fun x => !decide (x.2 = c.ref)) } }

/-- Ends a command with a status of its own (R272): from its arrays once it has left them, at once otherwise. A
command past its commit point is not touched (R269). -/
def State.endCmd (s : State) (c : Cmd) (status : Nat) (detail : BitVec 32) : State :=
  match c.stage with
  | .finished => s
  | .draining fin => (s.vacateArrays c).setCmd { c with stage := .draining (fin.orElse (fun _ => some (status, detail))) }
  | .running => if c.arrays = [] then (s.dropReads c.ref).complete c status detail else s.killCmd c (some (status, detail))
  | .fetched => s.complete c status detail

/-- Kills a command for a cause of R272 after which it re-runs; a sealed command is aborted (R271). -/
def State.killRerun (s : State) (c : Cmd) : State :=
  match c.stage with
  | .running => if c.isSealed then s.endCmd c 6 0 else s.killCmd { c with parkKills := 0 } none
  | .draining _ => s.vacateArrays c
  | _ => s

/-- Kills a command that consumed poison (R272, R401): the second time at a consumer that does not park it
completes with POISON_CONSUMED. -/
def State.killPoison (s : State) (c : Cmd) : State :=
  match c.stage with
  | .running =>
    if c.isSealed then s.endCmd c 6 0
    else if 0 < c.poisonKills then s.endCmd c 0x50 0
    else s.killCmd { c with poisonKills := c.poisonKills + 1, parkKills := 0 } none
  | _ => s

/-- What STOP and its kin do to one command of the channel (R246, R331): `status` is STOPPED or FUNCTION_RESET. -/
def State.stopCmd (s : State) (c : Cmd) (status : Nat) (detail : BitVec 32) : State :=
  match c.stage with
  | .finished => s
  | .draining _ => s.endCmd c status detail
  | .running => if c.isSealed then s.endCmd c 6 0 else s.endCmd c status detail
  | .fetched => if c.killed then s.complete c status detail else s.complete c 2 0

/-- The commands of a channel, in the order fetched. -/
def State.chanCmds (s : State) (ch : Fin 3072) : List Cmd := s.chan.cmds.filter (fun c => decide (c.ch = ch))

/-- Steps 1-3 of R246: STATE becomes STOPPING, and the channel's commands are ended. -/
def State.stopChannel (s : State) (ch : Fin 3072) (why : StopWhy) (status : Nat) (detail : BitVec 32) : State :=
  let s := (s.setEntry ch (setEntState (s.entry ch) 2)).setDyn ch { s.dyn ch with stop := some why, hot := false }
  (s.chanCmds ch).foldl (fun s c => match s.cmd c.ref with | some c => s.stopCmd c status detail | none => s) s

/-- A channel enters ERROR: the steps of R246 begin (R252). -/
def State.chanError (s : State) (ch : Fin 3072) (cause : Nat) : State :=
  if entState (s.entry ch) = 1 then
    (s.setEntry ch (setEntCause (s.entry ch) cause)).stopChannel ch .error 1 0
  else s.noteError ch cause

/-- A channel whose completion write failed stops its other commands too (R252). -/
def State.settleErrors (s : State) (ch : Fin 3072) : State :=
  if entState (s.entry ch) = 2 ∧ (s.dyn ch).stop = some .error then
    (s.chanCmds ch).foldl (fun s c => match s.cmd c.ref with | some c => s.stopCmd c 1 0 | none => s) s
  else s

/-- The line of a doorbell in pool memory, which its slice watches from now on (R251). -/
def State.watchDoor (s : State) (ch : Fin 3072) : State :=
  let e := s.entry ch
  if entHost e 1 then s.setDyn ch { s.dyn ch with doorLine := none } else
  match s.translate (entPart e) (blk e 8 0 64) false with
  | (.pool pa, s) => s.setDyn ch { s.dyn ch with doorLine := some (pa / 128) }
  | (_, s) => s.setDyn ch { s.dyn ch with doorLine := none }

end Sys2Proof.Machine
end

