-- ==== Sys2Proof/Machine/Recovery.lean ====
section
/-! DEFINITION. Losing units as shared operations (01 R17-R25, 08 R231-R234, 14 R406-R412, 15 R422): power-domain
requests, spare arrays, fences of dies, loss of a hub, module failure. -/

namespace Sys2Proof.Machine

/-- Requests a power domain (R422): it waits in the order of requests. -/
def State.wantDomain (s : State) (n : Nat) : State :=
  if s.domain n = .off ∧ ¬ s.pow.queue.contains n then { s with pow := { s.pow with queue := s.pow.queue ++ [n] } } else s

/-- Switches a power domain off (R422). -/
def State.dropDomain (s : State) (n : Nat) : State :=
  (s.setDomain n .off) |> fun s => { s with pow := { s.pow with queue := s.pow.queue.filter (fun k => k ≠ n) } }

/-- The partition whose floor holds a logical array (R279). -/
def State.floorOf (s : State) (la : Nat) : Option (Fin 16) := allParts.find? (fun p => decide ((s.partition p).mode ≠ .absent) && (s.partition p).floor.contains la)

/-- The logical array bound to a slot. -/
def State.laOf (s : State) (slot : Nat) : Option Nat := (List.range 384).find? (fun la => decide (s.slotOf la = some slot))

/-- The loan offer that covers an array: lender and offer (R292). -/
def State.offerOf (s : State) (la : Nat) : Option (Fin 16 × Loan) :=
  match s.floorOf la with
  | none => none
  | some p => match (s.partition p).loan with
    | some l => if l.first ≤ la ∧ la < l.first + l.count then some (p, l) else none
    | none => none

/-- The partition that owns an array in its floor (R35). -/
def State.arrayParts (s : State) (la : Nat) : BitVec 16 := match s.floorOf la with | some p => partBit p | none => 0

/-- The order in which R18 looks for a spare for a logical array: a rank for each slot. -/
def spareRank (la slot : Nat) : Nat :=
  let home := homeRegion la
  let r := slot / 26
  if r = home then 0 else if r / 2 = home / 2 then 1 else if r / 4 = home / 4 then 2 else 3

/-- A slot is a spare that is ready (R18, R21). -/
def State.isSpare (s : State) (n : Nat) : Bool := decide ((s.slot n).st = 1) && decide ((s.dieState (n / 52)).mode = .present)

/-- The spare that R18 takes for a logical array. -/
def State.findSpare (s : State) (la : Nat) : Option Nat :=
  let sp := (List.range 416).filter (fun n => s.isSpare n)
  (sp.find? (fun n => spareRank la n = 0)).orElse fun _ => (sp.find? (fun n => spareRank la n = 1)).orElse fun _ =>
    (sp.find? (fun n => spareRank la n = 2)).orElse fun _ => sp.head?

/-- Posts RECOVERY_STARTED or RECOVERY_ENDED to PT0 and the partitions named (R399). -/
def State.postRecovery (s : State) (parts : BitVec 16) (unit : BitVec 16) (kind : Nat) (outcome : Option Nat) : State :=
  s.postAll (parts ||| 1) (if outcome.isSome then 0x0012 else 0x0011) (leBytes 2 unit.toNat ++ [BitVec.ofNat 8 kind, BitVec.ofNat 8 (outcome.getD 0)])

/-- Kills the command that occupies a logical array (R19). -/
def State.killOn (s : State) (la : Nat) : State :=
  match (s.array la).occ with
  | none => s
  | some o => match s.cmd o.cmd with
    | none => s
    | some c => s.killRerun c

/-- Takes a spare for a logical array: STATE 2 and its domain requested; or the array is to be left unbound (R18,
R406). `old` is the slot lost. -/
def State.takeSpare (s : State) (la old : Nat) : State :=
  match s.findSpare la with
  | some n =>
    let s := (s.setSlot n { s.slot n with st := 2 }).wantDomain n
    { s with err := { s.err with swaps := s.err.swaps ++ [⟨la, n, old, false⟩] } }
  | none =>
    let s := { s with err := { s.err with unbind := s.err.unbind ++ [la] } }
    (s.report (mkReport 0x0013 (unitId 1 old) 0)).postRecovery (s.arrayParts la) (unitId 1 old) 1 (some 1)

/-- The Atlas update of a swap ends (R406); while others are in progress the next one begins at once. -/
def State.endSwap (s : State) : State :=
  if s.err.swaps = [] ∧ s.err.unbind = [] ∧ s.err.coreSwaps = [] then s.atlasEnd else s.atlasEnd.atlasBegin

/-- The Atlas update of swaps ends when none is left in progress. -/
def State.endSwaps (s : State) : State :=
  if s.err.swaps = [] ∧ s.err.unbind = [] ∧ s.err.coreSwaps = [] then s.atlasEnd else s

/-- A spare that passed its self-test is bound: ARRAY_MAP is written, its STATE becomes 0, the Atlas update ends and
RECOVERY_ENDED follows (R406). -/
def State.bindSwap (s : State) (w : Swap) : State :=
  let s := { s with
    err := { s.err with swaps := s.err.swaps.filter (fun x => decide (x.la ≠ w.la)), unbind := s.err.unbind.filter (fun x => decide (x ≠ w.la)) }
    atlas := { s.atlas with arrayMap := Tbl.set none s.atlas.arrayMap w.la (some w.spare) } }
  let s := (s.setSlot w.spare { s.slot w.spare with st := 0 }).setArray w.la (s.array w.la).rebound
  let s := s.atlasNote (if (s.dieState (w.old / 52)).mode = .present then 1 else 5) (s.arrayParts w.la)
  s.endSwap.postRecovery (s.arrayParts w.la) (unitId 1 w.old) 1 (some 0)

/-- A binding ends: the logical array names no slot. -/
def State.unbindLa (s : State) (la : Nat) : State :=
  { s with
    err := { s.err with unbind := s.err.unbind.filter (fun x => decide (x ≠ la)) }
    atlas := { s.atlas with arrayMap := Tbl.set none s.atlas.arrayMap la none } }

/-- The changes of bindings that waited for their arrays to be left are made (R19). -/
def State.settleBindings (s : State) : State :=
  let empty (s : State) (la : Nat) : Bool := (s.array la).occ.isNone
  let s := s.err.unbind.foldl (fun s la => if empty s la then s.unbindLa la else s) s
  let s := s.err.swaps.foldl (fun s w => if w.passed ∧ empty s w.la then s.bindSwap w else s) s
  s.endSwaps

/-- Fences an array slot and starts its spare swap (R406). DESIGN CHOICE: a spare slot bound to no array and fenced
outside a swap is an update of kind 1, told to PT0 alone; R35's table has no kind for it. -/
def State.fenceSlotQuiet (s : State) (n : Nat) : State :=
  if (s.slot n).st = 3 then s else
  match s.laOf n with
  | none =>
    let s := ((s.setSlot n { s.slot n with st := 3 }).dropDomain n)
    match s.err.swaps.find? (fun x => decide (x.spare = n)) with
    | some w =>
      let s := { s with err := { s.err with swaps := s.err.swaps.filter (fun x => decide (x.spare ≠ n)) } }
      (s.takeSpare w.la w.old).settleBindings
    | none => s.atlasUpdate 1 0
  | some la =>
    let parts := s.arrayParts la
    let s := (s.postRecovery parts (unitId 1 n) 1 none).killOn la
    let s := (s.atlasBegin.atlasNote 1 parts)
    let s := (s.setSlot n { s.slot n with st := 3 }).dropDomain n
    (s.takeSpare la n).settleBindings

/-- Fences an array slot for a cause of R390. -/
def State.fenceSlot (s : State) (n cause : Nat) : State :=
  if (s.slot n).st = 3 then s else (s.report (mkReport 0x0012 (unitId 1 n) cause)).fenceSlotQuiet n

/-- The event of R445 that a stage waits for. -/
def Stage.awaits : Stage → Option Nat
  | .rails _ => some 2
  | .railsUp => some 3
  | .pllLocked => some 5
  | .booted => some 6
  | .linked => some 7
  | .trained => some 8
  | .assigned => some 9
  | _ => none

/-- The module fails (R412): every command stops without a record, FAULT_N is asserted. The loss of dies that it cannot run
without stops a bring-up with the number of its event instead (R448). -/
def State.failModule (s : State) (cause : Nat) : State :=
  if s.pow.moduleFailed.isSome then s else
  match (if cause = 0x0051 ∨ cause = 0x0052 then s.pow.stage.awaits else none) with
  | some e => { s with pow := { s.pow with faultN := true, report := .stalled e } }
  | none =>
  let s := s.report (mkReport 0x0053 (unitId 3 14) cause)
  { s with
    chan := { s.chan with cmds := [], acts := [], reserved := [] }
    arr := []
    pow := { s.pow with
      moduleFailed := some (BitVec.ofNat 16 cause)
      faultN := true
      report := .failed cause
      flash := s.pow.flash ++ [(0x0053, cause)] } }

/-- The dies at the two ends of an internal link (R13, R392). -/
def linkEnds (l : Nat) : Nat × Nat :=
  if l < 8 then (l, 8 + l / 2)
  else match l with
    | 8 => (8, 9) | 9 => (8, 10) | 10 => (8, 11) | 11 => (9, 10) | 12 => (9, 11) | 13 => (10, 11)
    | 14 => (12, 8) | 15 => (12, 9) | 16 => (13, 10) | 17 => (13, 11)
    | n => (8 + (n - 18), 14)

/-- Lane groups of an internal link (R13, R225). -/
def linkGroups (l : Nat) : Nat := if l < 8 then 80 else if l < 14 then 40 else if l < 18 then 24 else 16

/-- An internal link. -/
def State.d2d (s : State) (l : Nat) : DieLink := Tbl.get ⟨.down, false, false, none⟩ s.link.d2d l

/-- Replaces an internal link. -/
def State.setD2d (s : State) (l : Nat) (x : DieLink) : State :=
  { s with link := { s.link with d2d := Tbl.set ⟨.down, false, false, none⟩ s.link.d2d l x } }

/-- The links of a die. -/
def linksOf (d : Nat) : List Nat := (List.range 22).filter (fun l => decide ((linkEnds l).1 = d) || decide ((linkEnds l).2 = d))

/-- A link's lane groups start again, with nothing held or partly received (R229 T6, R233). -/
def State.freshGroups (s : State) (l : Nat) : State :=
  { s with link := { s.link with
    groups := s.link.groups.filter (fun x => decide (x.1 / 160 ≠ l))
    ins := s.link.ins.filter (fun x => decide (x.1 / 2 ≠ l)) } }

/-- Takes a die's links down: what was queued for the die or partly received is discarded (R233). -/
def State.dropLinks (s : State) (d : Nat) : State :=
  (linksOf d).foldl (fun s l => (s.freshGroups l).setD2d l { s.d2d l with mode := .down, via := none }) s

/-- The arrays whose slots lie on a compute die lose their bindings, their commands killed, and spares are taken for them
in ascending order; a swap whose spare lies on the die takes another (R18, R406-R408). An array already in a swap keeps
the spare it waits for. -/
def State.loseSlots (s : State) (d : Nat) : State :=
  let inSwap (s : State) (la : Nat) : Bool := s.err.swaps.any (fun x => decide (x.la = la))
  let las := (List.range 384).filter (fun la => (s.slotOf la).any (fun n => decide (n / 52 = d)))
  let again := s.err.swaps.filter (fun x => decide (x.spare / 52 = d))
  let s := { s with err := { s.err with swaps := s.err.swaps.filter (fun x => decide (x.spare / 52 ≠ d)) } }
  let s := las.foldl (fun s la => s.killOn la) s
  let s := (List.range 52).foldl (fun s i => (s.setSlot (52 * d + i) { s.slot (52 * d + i) with st := 3 }).dropDomain (52 * d + i)) s
  let s := (List.range 384).foldl (fun s la =>
    match again.find? (fun x => decide (x.la = la)) with
    | some w => s.takeSpare la w.old
    | none =>
      if !las.contains la ∨ inSwap s la then s
      else
        let s := s.takeSpare la ((s.slotOf la).getD 0)
        if s.err.unbind.contains la then s else { s with err := { s.err with unbind := s.err.unbind ++ [la] } }) s
  s.settleBindings

/-- Partitions with an array on a compute die, or a core on a service die. -/
def State.dieParts (s : State) (d : Nat) : BitVec 16 :=
  s.partsWhere (fun x => x.floor.any (fun la => (s.slotOf la).any (fun n => decide (n / 52 = d))) || x.cores.any (fun c => decide (12 + c / 80 = d)))

/-- The request trackers of a lost service die are released: its reads that wait for memory, and their transactions (R233). -/
def State.loseDieReqs (s : State) (sd : Fin 2) : State :=
  let mine (r : MemReq) : Bool := match r.target with
    | .die d _ _ => decide (d = sd)
    | _ => false
  { s with mem := { s.mem with
    reqs := s.mem.reqs.filter (fun r => !mine r)
    txns := s.mem.txns.filter (fun x => !(x.2.any (fun t => t.memWait) && s.mem.reqs.any (fun r => mine r && decide (r.line = x.1)))) } }

/-- A line recorded O or X for a lost service die is poisoned at its home, and every record of the die becomes I
(R409). -/
def State.loseDieLines (s : State) (sd : Fin 2) : State :=
  { s with mem := { s.mem with
    llc := s.mem.llc.map (fun l =>
      if l.recOf sd = .o ∨ l.recOf sd = .x then { l.setRec sd .i with poison := 3, hd := .dirty } else l.setRec sd .i)
    die := s.mem.die.filter (fun x => decide (x.1 % 2 ≠ sd.val))
    evict := s.mem.evict.filter (fun x => decide (x.1 % 2 ≠ sd.val))
    evAcks := s.mem.evAcks.filter (fun x => decide (x.1 % 2 ≠ sd.val))
    pushes := s.mem.pushes.filter (fun x => decide (x.1 % 2 ≠ sd.val))
    snoops := s.mem.snoops.filter (fun x => decide (x.1 % 2 ≠ sd.val))
    rsps := s.mem.snoops.foldl (fun t x => if x.1 % 2 = sd.val ∧ x.2.isSome then Tbl.set none t x.1 (some .i) else t) s.mem.rsps } }

/-- The owners of the lines that the loss of a service die poisons (R409). -/
def State.dieLineOwners (s : State) (sd : Fin 2) : BitVec 16 :=
  s.mem.llc.foldl (fun m l => if l.recOf sd = .o ∨ l.recOf sd = .x then
    m ||| (match s.plot (l.line / 8388608) with | .granted o _ => partBit o | _ => 0) else m) 0

/-! ### Service cores (R22, R24, R25) -/

/-- The spare that replaces a failed core: DESIGN CHOICE, the lowest-numbered spare of the die that is healthy and not
under bring-in; R24 gives no order. -/
def State.spareCore (s : State) (n : Nat) : Option Nat :=
  ((List.range 8).map (fun i => 80 * (n / 80) + 72 + i)).find? (fun k =>
    (decide ((s.core k).st = 1) || decide ((s.core k).st = 2)) && !s.err.coreSwaps.any (fun x => decide (x.1 = k)))

/-- A cluster that holds no active core and none under bring-in is switched off, its spares back in STATE 1 (R22,
R422). -/
def State.restCluster (s : State) (k : Nat) : State :=
  let mine := (List.range 8).map (fun i => 8 * k + i)
  if mine.any (fun n => decide ((s.core n).st = 0)) ∨ s.err.coreSwaps.any (fun x => decide (x.1 / 8 = k)) then s else
  mine.foldl (fun s n => if (s.core n).st = 2 then s.setCore n { s.core n with st := 1 } else s) (s.dropDomain (448 + k))

/-- A spare core becomes active with the failed core's place in the grant list (R24). -/
def State.coreIn (s : State) (spare failed : Nat) : State :=
  let f := s.core failed
  let s := (s.setCore spare ⟨0, f.firmware, some (failed % 80), f.firmware, 0⟩).setCore failed { f with firmware := false, replaced := none }
  let s := allParts.foldl (fun s p =>
    if (s.partition p).cores.contains failed then
      s.setPartition p { s.partition p with cores := (s.partition p).cores.map (fun c => if c = failed then spare else c) }
    else s) s
  { s with err := { s.err with coreSwaps := s.err.coreSwaps.filter (fun x => decide (x.1 ≠ spare)) } }

/-- Spares under bring-in whose cluster is on become active; while their cluster is powered the others read STATE 2
(R22). -/
def State.clusterUp (s : State) (dom : Nat) : State :=
  if dom < 448 ∨ 468 ≤ dom ∨ s.domain dom ≠ .on then s else
  let k := dom - 448
  let due := s.err.coreSwaps.filter (fun x => decide (x.1 / 8 = k))
  let s := (List.range 8).foldl (fun s i => if (s.core (8 * k + i)).st = 1 then s.setCore (8 * k + i) { s.core (8 * k + i) with st := 2 } else s) s
  let s := due.foldl (fun s x => s.coreIn x.1 x.2) s
  if due = [] then s else s.endSwaps

/-- Fences a core that failed and brings a spare in for it (R22, R24): the Atlas update ends when the spare is active. -/
def State.fenceCore (s : State) (n : Nat) : State :=
  if (s.core n).st = 3 then s else
  let parts := s.partsWhere (fun x => x.cores.contains n)
  let was := (s.core n).st
  let waits := s.err.coreSwaps.find? (fun x => decide (x.1 = n))
  let s := (s.atlasBegin).atlasNote 3 parts
  let s := s.setCore n { s.core n with st := 3, running := false }
  let s := { s with err := { s.err with coreSwaps := s.err.coreSwaps.filter (fun x => decide (x.1 ≠ n)) } }
  let failed := match waits with | some x => some x.2 | none => if was = 0 then some n else none
  let s := match failed with
    | none => s
    | some c => match s.spareCore n with
      | none => s
      | some k =>
        let dom := 448 + k / 8
        (({ s with err := { s.err with coreSwaps := s.err.coreSwaps ++ [(k, c)] } } : State).setCore k { s.core k with st := 2 }).wantDomain dom
          |>.clusterUp dom
  (s.restCluster (n / 8)).endSwaps

/-- A cluster whose domain fails to come up is fenced, and spares take the places of its cores (R24, R422). -/
def State.clusterFailed (s : State) (k : Nat) : State := (List.range 8).foldl (fun s i => s.fenceCore (8 * k + i)) s

/-- Fences a compute die or a service die (R231, R233): `mode` says whether it may come back. -/
def State.fenceDie (s : State) (d : Nat) (mode : DieMode) (code detail : Nat) : State :=
  if (s.dieState d).mode ≠ .present ∧ (s.dieState d).mode ≠ .selfTest then s else
  let parts := s.dieParts d ||| (if d < 12 then 0 else s.dieLineOwners (if d = 12 then 0 else 1))
  let s := s.report { mkReport code (unitId 3 d) detail with reporter := unitId 2 (regionOf (unitId 3 d)).val, parts := parts }
  let s := s.postRecovery parts (unitId 3 d) (if d < 8 then 2 else 3) none
  let s := s.atlasBegin.atlasNote 5 parts
  let s := (s.setDie d { s.dieState d with mode := mode, lostOnce := true }).dropLinks d
  let s := if d < 8 then s.loseSlots d
    else
      let s := (s.loseDieReqs (if d = 12 then 0 else 1)).loseDieLines (if d = 12 then 0 else 1)
      let s := { s with err := { s.err with coreSwaps := s.err.coreSwaps.filter (fun x => decide (12 + x.1 / 80 ≠ d)) } }
      let s := (List.range 10).foldl (fun s c => s.dropDomain (448 + 10 * (d - 12) + c)) s
      (List.range 80).foldl (fun s i =>
        let n := 80 * (d - 12) + i
        s.setCore n { s.core n with st := 3, running := false }) s
  let s := s.endSwaps
  if 12 ≤ d ∧ (s.dieState 12).mode ≠ .present ∧ (s.dieState 13).mode ≠ .present then s.failModule 0x0051 else s

/-- The channels, slices and copies of a lost hub are gone (R410); reads that wait are served as of channels out of service. -/
def State.loseHubMem (s : State) (h : Nat) : State :=
  { s with mem := { s.mem with
    unitsUp := s.mem.unitsUp &&& ~~~((BitVec.ofNat 384 (2 ^ 96 - 1)) <<< (96 * h))
    llc := s.mem.llc.filter (fun l => decide (l.slice / 24 ≠ h))
    die := s.mem.die.filter (fun x => decide (s.sliceOf (x.1 / 2) / 24 ≠ h))
    evict := s.mem.evict.filter (fun x => decide (s.sliceOf (x.1 / 2) / 24 ≠ h))
    evAcks := s.mem.evAcks.filter (fun x => decide (s.sliceOf (x.1 / 2) / 24 ≠ h))
    churn := s.mem.churn.map (fun (o : ChurnOp) => if o.unit / 96 = h then { o with refused := true } else o) } }

/-- The switched domains of a lost hub go off, and HB2 takes the guest site with it (R410, R422). -/
def State.loseHubDomains (s : State) (h : Nat) : State :=
  let s := (List.range 8).foldl (fun s g => s.dropDomain (416 + 8 * h + g)) s
  let s := (List.range 6).foldl (fun s i => s.dropDomain (468 + 6 * h + i)) s
  if h = 2 then
    (({ s with link := { s.link with guest := { s.link.guest with st := 3, modules := 0 } } } : State).atlasNote 8 0).report (mkReport 0x0044 (unitId 11 0) 0)
  else s

/-- The step builders of global partitions served by a lost hub move to the lowest-numbered hub present; their
STEP commands in progress are killed and re-run (R410). -/
def State.moveBuilders (s : State) (h : Nat) : State :=
  let served (p : Fin 16) : Bool := !(s.partition p).confined && decide ((s.partition p).hub.val = h)
  let s := s.chan.cmds.foldl (fun s c => if c.kind = 2 ∧ served c.part then (s.cmd c.ref).elim s (fun c => s.killRerun c) else s) s
  let low := ((List.range 4).find? (fun i => s.hubUp i)).getD 0
  allParts.foldl (fun s p =>
    if served p then s.setPartition p { s.partition p with hub := ⟨low % 4, Nat.mod_lt _ (by decide)⟩ } else s) s

/-- A hub die is lost until the next bring-up (R410). -/
def State.loseHub (s : State) (h : Nat) : State :=
  if !s.hubUp h then s else
  let second := decide (s.hubsUp < 4)
  let s := s.report (mkReport 0x0052 (unitId 3 (8 + h)) 0)
  let s := (s.setDie (8 + h) ⟨.fenced, true⟩).dropLinks (8 + h)
  if second then s.failModule 0x0052 else
  let parts := s.partsWhere (fun x => x.sharesHub h)
  let s := s.postRecovery parts (unitId 3 (8 + h)) 4 none
  let before := s.healthy
  let s := (s.atlasBegin.atlasNote 6 parts).loseHubMem h
  let s := if s.healthy = before then s else s.atlasNote 7 0
  let s := (s.fenceDie (2 * h) .fenced 0x0050 4).fenceDie (2 * h + 1) .fenced 0x0050 4
  (((s.loseHubDomains h).moveBuilders h).endSwaps).refactor

/-! ### Links that go down (R231, R232) -/

/-- The link from die a to die b, and the direction of its flits. -/
def linkBetween (a b : Nat) : Option (Nat × Fin 2) :=
  ((List.range 22).find? (fun l => decide (linkEnds l = (a, b)) || decide (linkEnds l = (b, a)))).map (fun l => (l, if linkEnds l = (a, b) then 0 else 1))

/-- The link between two dies is up. -/
def State.linkUpBetween (s : State) (a b : Nat) : Bool := (linkBetween a b).any (fun x => decide ((s.d2d x.1).mode = .up))

/-- The hub through which the traffic of a hub-hub or hub-IOD link that is down is rerouted: the lower-numbered of the other two
hubs, of those present; the lowest-numbered hub whose link to the I/O die is up. A link down on that path removes it (R231). -/
def State.detour (s : State) (l : Nat) : Option Nat :=
  let (a, b) := linkEnds l
  let hubs := (List.range 4).filter (fun k => decide (8 + k ≠ a ∧ 8 + k ≠ b) && s.hubUp k)
  let c := if b = 14 then hubs.find? (fun k => s.linkUpBetween (8 + k) 14) else hubs.head?
  c.filter (fun k => s.linkUpBetween a (8 + k) && s.linkUpBetween (8 + k) b)

/-- A hub has a path to the I/O die, and one to another hub, direct or rerouted (R231). -/
def State.hubAlive (s : State) (h : Nat) : Bool :=
  let path (b : Nat) : Bool := s.linkUpBetween (8 + h) b || (linkBetween (8 + h) b).any (fun x => (s.detour x.1).isSome)
  let other := (List.range 4).filter (fun k => decide (k ≠ h) && s.hubUp k)
  path 14 && (other = [] || other.any (fun k => path (8 + k)))

/-- The links that carry no die's fence: hub-hub and hub-IOD. -/
def hubLinks : List Nat := [8, 9, 10, 11, 12, 13, 18, 19, 20, 21]

/-- Each link that is down holds the hub of its path (R231). -/
def State.reroute (s : State) : State :=
  hubLinks.foldl (fun s l => s.setD2d l { s.d2d l with via := if (s.d2d l).mode = .down then s.detour l else none }) s

/-- The links that a flit of a link crosses on the path through hub c, by the direction of the flit. -/
def pathOf (l : Nat) (dir : Fin 2) (c : Nat) : List (Nat × Fin 2) :=
  let (a, b) := if dir = 0 then linkEnds l else ((linkEnds l).2, (linkEnds l).1)
  (linkBetween a (8 + c)).toList ++ (linkBetween (8 + c) b).toList

/-- The key of a lane group and direction. -/
def groupKey (l : Nat) (dir : Fin 2) (g : Fin 80) : Nat := (2 * l + dir.val) * 80 + g.val

/-- A lane group and direction. -/
def State.laneGroup (s : State) (l : Nat) (dir : Fin 2) (g : Fin 80) : LaneGroup := Tbl.get LaneGroup.reset s.link.groups (groupKey l dir g)

/-- Replaces a lane group. -/
def State.setLaneGroup (s : State) (l : Nat) (dir : Fin 2) (g : Fin 80) (x : LaneGroup) : State :=
  { s with link := { s.link with groups := Tbl.set LaneGroup.reset s.link.groups (groupKey l dir g) x } }

/-- The flits of a direction that are not acknowledged, in the order dealt: the number of each, its group and itself. -/
def State.heldOf (s : State) (l : Nat) (dir : Fin 2) : List (Nat × Fin 80 × Flit) :=
  let one (g : Fin 80) : List (Nat × Fin 80 × Flit) :=
    let x := s.laneGroup l dir g
    x.held.zipIdx.map (fun y => ((x.sentCount - x.held.length + y.2) * linkGroups l + g.val, g, y.1))
  (((List.finRange 80).map one).flatten).mergeSort (fun a b => decide (a.1 ≤ b.1))

/-- Each sender of a link that went down re-sends what is not acknowledged, in the order sent, over the new path and before any
new flit (R232). -/
def State.resend (s : State) (l : Nat) : State :=
  match (s.d2d l).via with
  | none => s
  | some c =>
    ([0, 1] : List (Fin 2)).foldl (fun s dir =>
      let h := s.heldOf l dir
      let s := { s with link := { s.link with transit := s.link.transit ++ h.map (fun x => ⟨l, dir, x.2.1, x.2.2, pathOf l dir c, false⟩) } }
      (List.finRange 80).foldl (fun s g => s.setLaneGroup l dir g { s.laneGroup l dir g with held := [] }) s) s

/-- An internal link goes down (R230-R232, R234): `code` is D2D_WIRE_FAILED or LINK_TRAIN_MISMATCH. -/
def State.linkDown (s : State) (l code detail : Nat) : State :=
  let x := s.d2d l
  if x.mode = .down then s else
  let wire := decide (code = 0x0042)
  let die := (linkEnds l).1
  if l < 8 ∨ (14 ≤ l ∧ l < 18) then
    let s := s.setD2d l { x with mode := .down, barred := x.barred || wire }
    if wire ∨ code = 0x0043 then
      s.fenceDie die (if wire then .barred else .fenced) code detail
    else s
  else
    let s := s.setD2d l { x with mode := .down }
    let s := if code = 0x0043 then s.report { mkReport code (unitId 7 l) detail with reporter := unitId 2 (regionOf (unitId 7 l)).val } else s
    let s := s.report { mkReport 0x0041 (unitId 7 l) detail with reporter := unitId 2 (regionOf (unitId 7 l)).val }
    let s := (List.range 4).foldl (fun s h => if s.hubUp h ∧ ¬ s.hubAlive h then s.loseHub h else s) s
    s.reroute.resend l

end Sys2Proof.Machine
end

