-- ==== Sys2Proof/Machine/Grants.lean ====
section
/-! DEFINITION. The actions of firmware on partitions and channels (10 R280-R287, 05 R144-R148, 09 R244-R246,
R471), taken one at a time in the order they arrive (R452). -/

namespace Sys2Proof.Machine

/-! ### Regulators (R159, R160) -/

/-- A share of a figure of p at hub h, in bytes per epoch (R159). -/
def Partition.bytesPerEpoch (x : Partition) (h v : Nat) : Nat := x.share4 h (100 * v) / 4 * 1024 / 1650

/-- A partition's regulators are made: rate and tokens start at its ceiling (R159, R160). -/
def State.makeRegs (s : State) (p : Fin 16) : State :=
  (List.range 4).foldl (fun s h =>
    let c := (s.partition p).bytesPerEpoch h (s.partition p).ceiling
    if (s.partition p).sharesHub h ∧ s.hubUp h then
      { s with mem := { s.mem with regs := Tbl.set none s.mem.regs (16 * h + p.val) (some ⟨c, c, 0⟩) } }
    else s) s

/-- A partition's regulators are gone. -/
def State.dropRegs (s : State) (p : Fin 16) : State :=
  { s with mem := { s.mem with regs := s.mem.regs.filter (fun x => decide (x.1 % 16 ≠ p.val)) } }

/-- A new ceiling and guarantee bound the rates that stand (R160). -/
def State.boundRegs (s : State) (p : Fin 16) : State :=
  (List.range 4).foldl (fun s h =>
    match Tbl.get none s.mem.regs (16 * h + p.val) with
    | none => s
    | some r =>
      let c := (s.partition p).bytesPerEpoch h (s.partition p).ceiling
      let g := (s.partition p).bytesPerEpoch h (s.partition p).guarantee * s.factor h / 65536
      { s with mem := { s.mem with regs := Tbl.set none s.mem.regs (16 * h + p.val) (some { r with rate := max (min r.rate c) g }) } }) s

/-! ### Plots (R144-R148, R376) -/

/-- A plot holds a page that could not be retired (R148, R153). -/
def State.plotStuck (s : State) (plot : Nat) : Bool :=
  s.mem.stuck.any (fun x => x.2 && decide ((s.unproject (x.1 / 786432) (x.1 % 786432)).map (fun q => q / 262144) = some plot))

/-- A plot holds a page on an out-of-service channel (R148): it has a page on every unit of its list. -/
def State.plotDark (s : State) (plot : Nat) : Bool :=
  (s.unitList (s.confinedBand (plot / 24)) (hubOfPlot plot)).any (fun u => !s.unitUp u)

/-- A line belongs to a plot. -/
def inPlot (plot line : Nat) : Bool := decide (line / 8388608 = plot)

/-- Every granule of the plot reads zero, without poison (R147); requests and operations that waited for its lines are
gone with its release. -/
def State.zeroPlot (s : State) (plot : Nat) : State :=
  { s with mem := { s.mem with
    bytes := s.mem.bytes.filter (fun x => decide (x.1 / 2 ^ 30 ≠ plot))
    poison := s.mem.poison.filter (fun x => decide (x.1 / 2 ^ 24 ≠ plot))
    churn := s.mem.churn.filter (fun o => !inPlot plot o.line) } }

/-- Drops every line of a plot from the last-level cache and the dies without write-back (R376). -/
def State.dropPlotLines (s : State) (plot : Nat) : State :=
  { s with mem := { s.mem with
    llc := s.mem.llc.filter (fun l => l.remote.isSome || !inPlot plot l.line)
    die := s.mem.die.filter (fun x => !inPlot plot (x.1 / 2))
    evict := s.mem.evict.filter (fun x => !inPlot plot (x.1 / 2))
    pushes := s.mem.pushes.filter (fun x => !inPlot plot (x.1 / 2)) } }

/-- Grants a plot (R147). -/
def State.grantPlot (s : State) (p : Fin 16) (plot : Nat) : State := (s.zeroPlot plot).setPlot plot (.granted p 0)

/-- Releases a plot; the answer says whether it turned QUARANTINED (R148). -/
def State.releasePlot (s : State) (plot : Nat) : Bool × State :=
  let s := s.dropPlotLines plot
  if s.plotStuck plot || s.plotDark plot then
    (true, { s.setPlot plot .quarantined with atlas := { s.atlas with quarantined := s.atlas.quarantined + 1 } })
  else (false, s.setPlot plot .free)

/-- Releases several plots, with one Atlas update of kind 9 when any turned QUARANTINED (R148, R35). -/
def State.releasePlots (s : State) (p : Fin 16) (plots : List Nat) : State :=
  let (any, s) := plots.foldl (fun (x : Bool × State) q => let (b, t) := x.2.releasePlot q; (x.1 || b, t)) (false, s)
  if any then s.atlasUpdate 9 (if (s.partition p).mode = .live then partBit p else 0) else s

/-- The plots that a partition holds. -/
def State.plotsOf (s : State) (p : Fin 16) : List Nat :=
  (s.mem.plots.filter (fun x => match x.2 with | .granted o _ => decide (o = p) | _ => false)).map (·.1)

/-! ### Loans (R292, R293) -/

/-- LOAN_STARTED or LOAN_RECLAIMED of one array, to both partitions (R288, R292). -/
def State.postLoan (s : State) (event la : Nat) (lender borrower : Fin 16) : State :=
  (s.postEvent lender event (leBytes 2 la ++ leBytes 2 1 ++ [BitVec.ofNat 8 borrower.val])).postEvent borrower event
    (leBytes 2 la ++ leBytes 2 1 ++ [BitVec.ofNat 8 lender.val])

/-- Reclaims a lent array (R293): the borrower's command on it is killed on all of its arrays, and re-runs. -/
def State.reclaim (s : State) (la : Nat) : State :=
  if !Tbl.get false s.chan.lent la then s else
  match s.offerOf la with
  | none => s
  | some (lender, l) =>
    let s := s.killOn la
    let s := (s.setArray la (s.array la).pass)
    let s := { s with chan := { s.chan with lent := Tbl.set false s.chan.lent la false } }
    s.postLoan 0x0006 la lender l.borrower

/-- Ends the loan offer of a partition (R292). -/
def State.endLoan (s : State) (p : Fin 16) : State :=
  match (s.partition p).loan with
  | none => s
  | some l =>
    let s := (List.range l.count).foldl (fun s i => s.reclaim (l.first + i)) s
    s.setPartition p { s.partition p with loan := none }

/-! ### Arrays and cores (R284, R285) -/

/-- The logical arrays of a range. -/
def laRange (first count : Nat) : List Nat := (List.range count).map (fun i => first + i)

/-- Arrays leave a floor: their pattern slots become invalid (R284, R78). -/
def State.leaveFloor (s : State) (p : Fin 16) (las : List Nat) : State :=
  let s := s.setPartition p { s.partition p with floor := (s.partition p).floor.filter (fun la => !las.contains la) }
  las.foldl (fun s la => s.setArray la (s.array la).pass) s

/-- A command of p occupies an array. -/
def State.occupiedBy (s : State) (p : Fin 16) (la : Nat) : Bool := (s.array la).occ.any (fun o => decide (o.part = p))

/-- Kills a partition's command on an array, unless it is sealed (R284). -/
def State.killUnsealed (s : State) (p : Fin 16) (la : Nat) : State :=
  match (s.array la).occ with
  | none => s
  | some o => match s.cmd o.cmd with
    | none => s
    | some c => if c.part = p ∧ !c.isSealed then s.killRerun c else s

/-- Cores that can be granted (R285): active, not held for firmware, in no grant list. -/
def State.freeCores (s : State) (die : Nat) : List Nat :=
  ((List.range 80).map (fun i => 80 * die + i)).filter (fun n =>
    decide ((s.core n).st = 0) && !(s.core n).firmware && allParts.all (fun p => !(s.partition p).cores.contains n))

/-- n cores taken from the two lists: the die with more such cores first, SD0 on a tie (R285). -/
def takeCores : Nat → List Nat → List Nat → List Nat
  | 0, _, _ => []
  | n + 1, a, b =>
    if b.length ≤ a.length then a.take 1 ++ takeCores n (a.drop 1) b else b.take 1 ++ takeCores n a (b.drop 1)

/-- The lines of the dies' caches without core n's copies. -/
def leaveCore (n : Nat) (t : Tbl (Option DieLine)) : Tbl (Option DieLine) :=
  let keep (key : Nat) : BitVec 80 := if key % 2 = n / 80 then ~~~(BitVec.ofNat 80 (2 ^ (n % 80))) else BitVec.allOnes 80
  t.map (fun (k, x) => (k, x.map (fun c => { c with l2 := c.l2 &&& keep k, l1 := c.l1 &&& keep k })))

/-- Cores are stopped and reset, and their caches left empty (R285): what they had written stays with the cluster
cache's copy of the line, whose die serves the next snoop (R187). -/
def State.resetCores (s : State) (l : List Nat) : State :=
  l.foldl (fun (s : State) (n : Nat) =>
    let s := { s with mem := { s.mem with die := leaveCore n s.mem.die } }
    s.setCore n { s.core n with running := false, pc := 0 }) s

/-! ### Partition actions -/

/-- How an action ends: at once with a RESULT, or in progress. -/
inductive ActOut | done (result : Nat) | wait (k : PendKind)
  deriving DecidableEq, Repr

/-- Field w bits from lo of an argument. -/
def arg (a : List Word) (i lo w : Nat) : Nat := field (a.getD i 0) lo w

/-- The bits of PART_ARG0-PART_ARG3 that an action names (R281). READ takes no argument, and its bits are results
(DEDUCED). -/
def argMask (code : Nat) : List Word :=
  match code with
  | 1 => [0x7, 0, 0, 0]
  | 2 => [0, 0, 0, 0]
  | 3 => [0x01FF01FF, 0, 0, 0]
  | 4 => [0x01FF01FF, 0, 0, 0]
  | 5 => [0x07FF07FF, 0, 0, 0]
  | 6 => [0x07FF07FF, 0, 0, 0]
  | 7 => [0xFF, 0, 0, 0]
  | 8 => [0xFF, 0, 0, 0]
  | 9 => [0x0003FFFF0003FFFF, 0, 0, 0]
  | 10 => [0xFFFFFFFFFFFFFFFF, 0, 0, 0]
  | 11 => [0x000FFFFF0000013F, 0, 0, 0]
  | 12 => [0xFFFF000F01FF01FF, 0, 0, 0]
  | 13 => [0x00000000FFFFFFFF, 0, 0, 0]
  | 14 => [0xFFFFFFFFFFFFFFFF, 0xFFFFFFFFFFFFFFFF, 0x0000000000FFFF01, 0x00000000000FFFFF]
  | 15 => [0xFFFFFFFFFFFFFFFF, 0x000000000000FFFF, 0xFFFFFFFFFFFFFFFF, 0x000000000000FFFF]
  | _ => [0xFFFFFFFFFFFFFFFF, 0xFFFFFFFFFFFFFFFF, 0xFFFFFFFFFFFFFFFF, 0xFFFFFFFFFFFFFFFF]

/-- Every reserved argument bit is zero (R282). -/
def argsOk (code : Nat) (a : List Word) : Bool := (List.range 4).all (fun i => decide (a.getD i 0 &&& ~~~((argMask code).getD i 0) = 0))

/-- A partition's Sv57 tables get their root, which no rule places (R375): a free page. -/
def State.newRoot (s : State) (p : Fin 16) : State :=
  let (v, s) := s.freeVal 44
  { s with mem := { s.mem with roots := Tbl.set none s.mem.roots p.val (some v.toNat) } }

/-- CREATE (R283): a new memory key, and no resources. -/
def State.actCreate (s : State) (p : Fin 16) (a : List Word) : ActOut × State :=
  let hub : Fin 4 := ⟨arg a 0 1 2 % 4, Nat.mod_lt _ (by decide)⟩
  let s := s.setPartition p { Partition.absent with mode := .live, confined := (a.getD 0 0).getLsbD 0, hub := hub, ceiling := s.healthy / 100 }
  let s := { s with
    mem := { s.mem with keys := Tbl.set none s.mem.keys p.val (some s.sec.nextKey), guestRoots := Tbl.set none s.mem.guestRoots p.val none }
    sec := { s.sec with nextKey := s.sec.nextKey + 1 } }
  (.done 0, (s.makeRegs p).newRoot p)

/-- The channels whose entries name a partition. -/
def State.chansOf (s : State) (p : Fin 16) : List (Fin 3072) :=
  (List.finRange 3072).filter (fun ch => decide (entPart (s.entry ch) = p) && ((s.dyn ch).assigned || decide (entState (s.entry ch) ≠ 0)))

/-- DESTROY, step 1 (R283). -/
def State.actDestroy (s : State) (p : Fin 16) : ActOut × State :=
  let s := s.setPartition p { s.partition p with mode := .closing }
  (.wait .destroy, (s.chansOf p).foldl (fun s ch => if entState (s.entry ch) = 1 then s.stopChannel ch .stop 1 0 else s) s)

/-- Closes the Meridian streams of a partition (R382). -/
def State.closeStreamsOf (s : State) (p : Fin 16) : State :=
  { s with link := { s.link with
    tx := s.link.tx.filter (fun x => x.2.all (fun t => decide (t.part ≠ p)))
    rx := s.link.rx.filter (fun x => x.2.all (fun t => decide (t.part ≠ p))) } }

/-- What memory keeps for a partition, gone with it (R251, R303, R374, R403). -/
def State.forgetMem (s : State) (p : Fin 16) : State :=
  { s with mem := { s.mem with
    ways := Tbl.set PartWays.reset s.mem.ways p.val PartWays.reset
    keys := Tbl.set none s.mem.keys p.val none
    roots := Tbl.set none s.mem.roots p.val none
    guestRoots := Tbl.set none s.mem.guestRoots p.val none
    tlb := s.mem.tlb.filter (fun t => decide (t.part ≠ p))
    refillPages := s.mem.refillPages.filter (fun r => decide (r.owner ≠ p))
    refillBase := Tbl.set 0 s.mem.refillBase p.val 0 } }

/-- DESTROY, steps 2-5 (R283), and the channels return to unassigned (R471). -/
def State.finishDestroy (s : State) (p : Fin 16) : State :=
  let s := (s.chansOf p).foldl (fun s ch => (s.setEntry ch (setEntState (s.entry ch) 0)).setDyn ch ChanDyn.reset) s
  let s := allParts.foldl (fun s q => if (s.partition q).loan.any (fun l => decide (q = p ∨ l.borrower = p)) then s.endLoan q else s) s
  let s := s.leaveFloor p (s.partition p).floor
  let s := (s.resetCores (s.partition p).cores)
  let s := s.releasePlots p (s.plotsOf p)
  let s := ((s.forgetMem p).dropRegs p).closeStreamsOf p
  (s.setPartition p Partition.absent).refactor

/-- GRANT_ARRAYS (R284, R422). -/
def State.actGrantArrays (s : State) (p : Fin 16) (first n : Nat) : ActOut × State :=
  if n = 0 ∨ 384 < n ∨ 384 < first + n then (.done 2, s) else
  let las := laRange first n
  if las.any (fun la => (s.floorOf la).any (fun q => decide (q ≠ p))) then (.done 3, s) else
  let new := las.filter (fun la => !(s.partition p).floor.contains la)
  let s := s.setPartition p { s.partition p with floor := (s.partition p).floor ++ new }
  let s := new.foldl (fun s la => s.setArray la (s.array la).pass) s
  let slots := (List.range 416).filter (fun k => las.any (fun la => decide (s.slotOf la = some k)))
  (.wait (.grantArrays first n), slots.foldl (fun s k => if (s.slot k).st = 3 then s else s.wantDomain k) s)

/-- RELEASE_ARRAYS (R284). -/
def State.actReleaseArrays (s : State) (p : Fin 16) (first n : Nat) : ActOut × State :=
  if n = 0 ∨ 384 < n ∨ 384 < first + n then (.done 2, s) else
  let las := laRange first n
  if las.any (fun la => !(s.partition p).floor.contains la) then (.done 3, s) else
  let s := if (s.partition p).loan.any (fun l => las.any (fun la => decide (l.first ≤ la ∧ la < l.first + l.count))) then s.endLoan p else s
  (.wait (.releaseArrays first n), las.foldl (fun s la => s.killUnsealed p la) s)

/-- GRANT_PLOTS (R146, R147, R163). -/
def State.actGrantPlots (s : State) (p : Fin 16) (first n : Nat) : ActOut × State :=
  if n = 0 ∨ 1128 < n ∨ 1128 < first + n then (.done 2, s) else
  let plots := laRange first n
  let x := s.partition p
  if plots.any (fun q => decide (s.confinedBand (q / 24) ≠ x.confined) || (x.confined && decide (hubOfPlot q ≠ x.hub.val))) then (.done 2, s)
  else if plots.any (fun q => s.plotAbsent q || decide (s.plot q ≠ .free)) then (.done 3, s)
  else if !s.admits then (.done 4, s)
  else (.done 0, plots.foldl (fun s q => s.grantPlot p q) s)

/-- RELEASE_PLOTS (R148). -/
def State.actReleasePlots (s : State) (p : Fin 16) (first n : Nat) : ActOut × State :=
  if n = 0 ∨ 1128 < n ∨ 1128 < first + n then (.done 2, s) else
  let plots := laRange first n
  if plots.any (fun q => !(s.plotsOf p).contains q) then (.done 3, s) else (.done 0, s.releasePlots p plots)

/-- GRANT_CORES (R285). -/
def State.actGrantCores (s : State) (p : Fin 16) (n : Nat) : ActOut × State :=
  let x := s.partition p
  if n = 0 ∨ 144 < n ∨ pop (s.ways p).mask < 2 then (.done 2, s) else
  let a := if x.confined ∧ x.hub.val / 2 = 1 then [] else s.freeCores 0
  let b := if x.confined ∧ x.hub.val / 2 = 0 then [] else s.freeCores 1
  if a.length + b.length < n then (.done 3, s)
  else (.done 0, s.setPartition p { x with cores := x.cores ++ takeCores n a b })

/-- RELEASE_CORES (R285). -/
def State.actReleaseCores (s : State) (p : Fin 16) (n : Nat) : ActOut × State :=
  let x := s.partition p
  if n = 0 ∨ 144 < n then (.done 2, s)
  else if x.cores.length < n then (.done 3, s)
  else (.done 0, (s.resetCores (x.cores.drop (x.cores.length - n))).setPartition p { x with cores := x.cores.take (x.cores.length - n) })

/-- SET_BANDWIDTH (R162, R163): a decrease is always admitted. -/
def State.actSetBandwidth (s : State) (p : Fin 16) (g c : Nat) : ActOut × State :=
  let x := s.partition p
  if c < g ∨ s.healthy < 100 * c then (.done 2, s) else
  let t := s.setPartition p { x with guarantee := g, ceiling := c }
  if x.guarantee < g ∧ ((List.range 4).any (fun h => decide (s.factor h < 65536)) ∨ !t.admits) then (.done 4, s)
  else (.done 0, (t.refactor).boundRegs p)

/-- SET_LIMITS (R281). -/
def State.actSetLimits (s : State) (p : Fin 16) (sl pl dl ri : Nat) : ActOut × State :=
  if sl = 0 ∨ 1000 < sl ∨ pl = 0 ∨ 10000 < pl ∨ dl = 0 ∨ 10000 < dl ∨ ri = 0 ∨ 1000 < ri then (.done 2, s)
  else (.done 0, s.setPartition p { s.partition p with sealLimit := sl, parkLimit := pl, donationLimit := dl, reportInterval := ri })

/-- The queues of a partition. -/
def Partition.queue (x : Partition) (q : Fin 64) : QueueState := Tbl.get QueueState.reset x.queues q.val

/-- Replaces a queue. -/
def State.setQueueState (s : State) (p : Fin 16) (q : Fin 64) (v : QueueState) : State :=
  s.setPartition p { s.partition p with queues := Tbl.set QueueState.reset (s.partition p).queues q.val v }

/-- SET_QUEUE (R299): SUSPEND kills the queue's running commands that are not sealed. -/
def State.actSetQueue (s : State) (p : Fin 16) (q : Fin 64) (suspend : Bool) (slice : Nat) : ActOut × State :=
  if slice < 100 ∨ 1000000 < slice then (.done 2, s) else
  let s := s.setQueueState p q { (s.partition p).queue q with suspended := suspend, slice := slice }
  if !suspend then (.done 0, s) else
  (.done 0, s.chan.cmds.foldl (fun s c => if c.part = p ∧ c.queue = q ∧ !c.isSealed then (match s.cmd c.ref with | some c => s.killRerun c | none => s) else s) s)

/-- SET_LOAN (R292). A new offer takes the place of the one that stands (DEDUCED). -/
def State.actSetLoan (s : State) (p : Fin 16) (first n : Nat) (b : Fin 16) (idle : Nat) : ActOut × State :=
  if n = 0 then (.done 0, s.endLoan p)
  else if 384 < n ∨ 384 < first + n ∨ idle < 10 ∨ b = p ∨ (s.partition b).mode ≠ .live then (.done 2, s)
  else if (laRange first n).any (fun la => !(s.partition p).floor.contains la) then (.done 3, s)
  else
    let s := s.endLoan p
    (.done 0, s.setPartition p { s.partition p with loan := some ⟨first, n, b, idle⟩ })

/-- SET_CREDITS (R302): the floors of a virtual channel sum to at most 192/256. -/
def State.actSetCredits (s : State) (p : Fin 16) (f : List Nat) : ActOut × State :=
  let sum (v : Nat) : Nat := (allParts.map (fun q => if q = p then f.getD v 0 else (s.partition q).credits.getD v 0)).foldl (· + ·) 0
  if (List.range 4).any (fun v => decide (192 < sum v)) then (.done 3, s)
  else (.done 0, s.setPartition p { s.partition p with credits := f })

/-- RECORDS, KINDS and LOG2 of a control block (R286), read at SET_RINGS. PRODUCER and DROPPED start at 0. -/
def ringOf (a : Nat) (host : Bool) (b : List Byte) : Option RingReg :=
  let log2 := (b.getD 16 0).toNat
  let records := leNat (b.take 8)
  if log2 < 4 ∨ 16 < log2 ∨ records % 64 ≠ 0 then none
  else some ⟨BitVec.ofNat 64 a, BitVec.ofNat 64 records, BitVec.ofNat 64 (leNat ((b.drop 8).take 8)), log2, host, 0, 0⟩

/-- A control block as it lies in host memory. -/
def hostRing (a : Nat) (host : Bool) (b : Option RingBlock) : Option RingReg :=
  b.bind (fun b => ringOf a host (leBytes 8 b.records.toNat ++ leBytes 8 b.kinds.toNat ++ [b.log2]))

/-- Reads a ring's control block (R287): none for address 0, an error where it cannot be read. -/
def State.ringRead (s : State) (c : Ctx) (a : Nat) (host : Bool) (b : Option RingBlock) : Option (Option RingReg) × State :=
  if a = 0 then (some none, s)
  else if host then (if s.hostOk c (a % 2 ^ 64) then ((hostRing a true b).map some, s) else (none, s))
  else match s.vaRead c [] 0 a 64 (fun o => s.atlasByte o) with
    | (.ok l, s) => ((ringOf a false l).map some, s)
    | (.host _ _ _, s) => ((hostRing a false b).map some, s)
    | (_, s) => (none, s)

/-- SET_RINGS (R281, R287). -/
def State.actSetRings (s : State) (p : Fin 16) (a : List Word) (b : Option RingBlock × Option RingBlock) : ActOut × State :=
  let fn := bits (a.getD 2 0) 8 16
  let pasid := bits (a.getD 3 0) 0 20
  let c : Ctx := ⟨p, (fnOf fn).1, (fnOf fn).2, some pasid⟩
  if fn.toNat / 256 ≠ 0 then (.done 2, s) else
  let (f, s1) := s.ringRead c (a.getD 0 0).toNat false b.1
  let (t, s2) := s1.ringRead c (a.getD 1 0).toNat ((a.getD 2 0).getLsbD 0) b.2
  match f, t with
  | some f, some t => (.done 0, s2.setPartition p { s2.partition p with fault := f, telemetry := t, ringFn := fn, ringPasid := pasid })
  | _, _ => (.done 2, s)

/-- SET_SERVING (R281, R307). -/
def State.actSetServing (s : State) (p : Fin 16) (a : List Word) : ActOut × State :=
  let n := arg a 1 0 16
  let tok := arg a 3 0 16
  if arg a 0 0 6 ≠ 0 ∨ 32768 < n ∨ tok < 16 ∨ 4096 < tok then (.done 2, s)
  else if 32768 < (allParts.map (fun q => if q = p then n else (s.partition q).seqCount)).foldl (· + ·) 0 then (.done 3, s)
  else (.done 0, s.setPartition p { s.partition p with seqBase := a.getD 0 0, seqCount := n, pool := a.getD 2 0, pageTokens := tok, serving := true })

/-- STATE of a partition as a number (R280). -/
def PartMode.code : PartMode → Nat
  | .absent => 0
  | .live => 1
  | .closing => 2

/-- PART_ARG0-PART_ARG3 as READ returns them (R281). -/
def State.partWords (s : State) (p : Fin 16) : List Word :=
  let x := s.partition p
  [BitVec.ofNat 64 (x.mode.code + (if x.confined then 4 else 0) + 8 * x.hub.val + 2 ^ 16 * x.floor.length + 2 ^ 32 * (s.plotsOf p).length + 2 ^ 48 * (x.cores.length % 256)),
   BitVec.ofNat 64 (x.guarantee + 2 ^ 32 * x.ceiling),
   BitVec.ofNat 64 (x.sealLimit + 2 ^ 16 * x.parkLimit + 2 ^ 32 * x.donationLimit + 2 ^ 48 * x.reportInterval),
   BitVec.ofNat 64 x.seqCount]

/-- A partition action on its arguments, its permissions and states checked (R281, R282). -/
def State.partCode (s : State) (code : Nat) (p : Fin 16) (a : List Word) (b : Option RingBlock × Option RingBlock) : ActOut × State :=
  match code with
  | 1 => s.actCreate p a
  | 2 => s.actDestroy p
  | 3 => s.actGrantArrays p (arg a 0 0 9) (arg a 0 16 9)
  | 4 => s.actReleaseArrays p (arg a 0 0 9) (arg a 0 16 9)
  | 5 => s.actGrantPlots p (arg a 0 0 11) (arg a 0 16 11)
  | 6 => s.actReleasePlots p (arg a 0 0 11) (arg a 0 16 11)
  | 7 => s.actGrantCores p (arg a 0 0 8)
  | 8 => s.actReleaseCores p (arg a 0 0 8)
  | 9 => s.actSetBandwidth p (arg a 0 0 18) (arg a 0 32 18)
  | 10 => s.actSetLimits p (arg a 0 0 16) (arg a 0 16 16) (arg a 0 32 16) (arg a 0 48 16)
  | 11 => s.actSetQueue p ⟨arg a 0 0 6 % 64, Nat.mod_lt _ (by decide)⟩ ((a.getD 0 0).getLsbD 8) (arg a 0 32 20)
  | 12 => s.actSetLoan p (arg a 0 0 9) (arg a 0 16 9) (toPart (arg a 0 32 4)) (arg a 0 48 16)
  | 13 => s.actSetCredits p [arg a 0 0 8, arg a 0 8 8, arg a 0 16 8, arg a 0 24 8]
  | 14 => s.actSetRings p a b
  | 15 => s.actSetServing p a
  | _ => (.done 0, s)

/-- Who may take a partition action: host software anything on PT1-PT15 and READ on PT0, partition services five
actions on their own partition (R282). -/
def partAllowed (host : Bool) (code : Nat) (p : Fin 16) : Bool :=
  if host then decide (p ≠ 0 ∨ code = 16) else decide (code = 10 ∨ code = 11 ∨ code = 14 ∨ code = 15 ∨ code = 16)

/-- The checks before a partition action, then the action. -/
def State.partChecked (s : State) (host : Bool) (code : Nat) (p : Fin 16) (a : List Word) (b : Option RingBlock × Option RingBlock) : ActOut × State :=
  if !partAllowed host code p then (.done 6, s)
  else if code = 1 ∧ (s.partition p).mode ≠ .absent ∨ code ≠ 1 ∧ code ≠ 16 ∧ (s.partition p).mode ≠ .live then (.done 1, s)
  else if !argsOk code a then (.done 2, s)
  else s.partCode code p a b

/-! ### Channel actions (R245, R471) -/

/-- The fields of an entry hold no reserved encoding and are in range (R242, R245). -/
def entryOk (e : BitVec 512) : Bool :=
  let f := entFn e
  let log2 := blk e 24 0 8
  let comp := blk e 25 0 8
  decide (blk e 0 0 12 = 0 ∧ blk e 8 0 3 = 0 ∧ blk e 16 0 12 = 0 ∧ 6 ≤ log2 ∧ log2 ≤ 16 ∧ log2 ≤ comp ∧ comp ≤ 16
    ∧ blk e 26 4 4 = 0 ∧ blk e 27 6 2 = 0 ∧ blk e 28 3 5 = 0 ∧ blk e 29 3 5 = 0 ∧ field f 8 8 = 0 ∧ blk e 32 20 12 = 0
    ∧ blk e 36 9 7 = 0 ∧ blk e 38 0 8 ≤ 2 ∧ blk e 43 3 5 = 0 ∧ blk e 45 0 8 ≤ 4 ∧ blk e 46 0 8 ≤ 4 ∧ blk e 47 0 8 = 0 ∧ blk e 56 0 64 = 0)
  && (decide (field f 0 7 ≠ 0) || decide (blk e 36 0 16 = 0))
  && (decide (blk e 38 0 8 ≠ 1) || decide (blk e 40 0 16 < (if field f 0 7 = 0 then 2048 else 32)))
  && (decide (blk e 38 0 8 ≠ 2) || decide (1 ≤ blk e 40 0 16 ∧ blk e 40 0 16 ≤ 2047))

/-- Another channel of the same virtual function has the same NUDGE_INDEX (R245). -/
def State.nudgeTaken (s : State) (ch : Fin 3072) (e : BitVec 512) : Bool :=
  decide (field (entFn e) 0 7 ≠ 0) &&
  s.chan.entries.any (fun x => decide (x.1 ≠ ch.val ∧ entFn x.2 = entFn e ∧ blk x.2 36 0 16 = blk e 36 0 16) && (Tbl.get ChanDyn.reset s.chan.dyn x.1).assigned)

/-- A locked partition takes a channel only on a function it accepted (R378). -/
def State.lockBars (s : State) (p : Fin 16) (fn : BitVec 16) : Bool := (s.partition p).lock.any (fun l => !l.accepted.contains fn)

/-- WRITE (R245, R471). -/
def State.chanWrite (s : State) (host : Bool) (ch : Fin 3072) (e : BitVec 512) : Nat × State :=
  if !entryOk e ∨ s.nudgeTaken ch e then (2, s)
  else if (s.partition (entPart e)).mode ≠ .live ∨ !s.fnOfPart (entPart e) (fnOf (entFn e)).1 (fnOf (entFn e)).2 then (3, s)
  else if host ∧ s.lockBars (entPart e) (entFn e) then (3, s)
  else (0, (s.setEntry ch (setEntState e 0)).setDyn ch { ChanDyn.reset with assigned := true, holding := (s.dyn ch).holding, irqDue := (s.dyn ch).irqDue })

/-- The checks of R471 on a channel action. -/
def State.chanPermits (s : State) (who : Caller) (code : Nat) (ch : Fin 3072) (e : BitVec 512) : Bool :=
  let cur := s.entry ch
  let on := (s.dyn ch).assigned
  match who with
  | .host port =>
    (!on || decide ((fnOf (entFn cur)).1 = port)) && (decide (code ≠ 1) || decide ((fnOf (entFn e)).1 = port))
  | .services p _ _ =>
    if code = 1 then (!on || decide (entPart cur = p)) && decide (entPart e = p) else decide (entPart cur = p)

/-- The words of an entry. -/
def entryWords (e : BitVec 512) : List Word := (List.range 8).map (fun i => bits e (64 * i) 64)

/-- An entry from its words. -/
def wordsEntry (l : List Word) : BitVec 512 := BitVec.ofNat 512 ((l.take 8).foldr (fun w n => w.toNat + 2 ^ 64 * n) 0)

/-- A channel action, checked (R245, R471). READ's result is the entry. -/
def State.chanChecked (s : State) (who : Caller) (code : Nat) (chan : Nat) (data : List Word) : ActOut × State :=
  if h : chan < 3072 then
    let ch : Fin 3072 := ⟨chan, h⟩
    let host : Bool := match who with
      | .host _ => true
      | .services _ _ _ => false
    let e := wordsEntry data
    let st := entState (s.entry ch)
    let free := decide (st = 0 ∨ st = 3 ∨ st = 4)
    if !s.chanPermits who code ch e then (.done 3, s)
    else match code with
      | 1 => if !free then (.done 1, s) else ((.done (s.chanWrite host ch e).1), (s.chanWrite host ch e).2)
      | 2 => (.done 0, s)
      | 3 => if st ≠ 1 then (.done 1, s) else (.wait (.chanStop ch), s.stopChannel ch .stop 1 0)
      | 4 =>
        if !free then (.done 1, s)
        else if host ∧ s.lockBars (entPart (s.entry ch)) (entFn (s.entry ch)) then (.done 3, s)
        else
          let d := s.dyn ch
          let s := s.setEntry ch (setEntState (setEntCause (s.entry ch) 0) 1)
          let s := s.setDyn ch { ChanDyn.reset with assigned := d.assigned, holding := d.holding, irqDue := d.irqDue, producer := entConsumed (s.entry ch) }
          (.done 0, s.watchDoor ch)
      | _ => if st ≠ 3 ∧ st ≠ 4 then (.done 1, s) else (.done 0, s.setEntry ch (setEntState (s.entry ch) 0))
  else (.done 2, s)

/-! ### The order of actions (R282, R452-R454) -/

/-- The port whose BUSY an action holds. -/
def callerPort : Caller → Option (Fin 2)
  | .host p => some p
  | .services _ _ _ => none

/-- Replaces the action registers of a port. -/
def State.setRegs (s : State) (n : Fin 2) (r : ActionRegs) : State := s.setPort n { s.port n with regs := r }

/-- The partition that a caller's action addresses (R280, R282). -/
def State.actPart (s : State) : Caller → Fin 16
  | .host n => ⟨(s.port n).regs.partSelect.toNat, (s.port n).regs.partSelect.isLt⟩
  | .services p _ _ => p

/-- The standing of a service core's accesses to host memory: the partition's core default, if it has one (R320). -/
def State.coreCtx (s : State) (p : Fin 16) : Option Ctx :=
  (s.partition p).coreDefault.map (fun x => ⟨p, (fnOf x.1).1, (fnOf x.1).2, some x.2⟩)

/-- What a service core of a partition reads at a virtual address for a call: none where its access fails. The bytes of host
memory and of another module are free values: nothing sends the model their contents. -/
def State.svcRead (s : State) (p : Fin 16) (va n : Nat) : Option (List Byte) × State :=
  let c := (s.coreCtx p).getD ⟨p, 0, 0, none⟩
  let free (s : State) : Option (List Byte) × State :=
    let (v, s) := s.freeVal (8 * n)
    (some (leBytes n v.toNat), s)
  match s.vaRead c [] 0 va n (fun o => s.atlasByte o) .core with
  | (.ok b, s) => (some b, s)
  | (.host i _ _, s) => if (s.coreCtx p).isNone then (none, s) else free (s.hostAsk c i n)
  | (.remote _ _ _ _, s) => free s
  | (_, s) => (none, s)

/-- A service core of a partition writes bytes at a virtual address; whether its access is allowed. What goes to another
module's memory is not followed. -/
def State.svcWrite (s : State) (p : Fin 16) (va : Nat) (b : List Byte) : Bool × State :=
  let isHost (x : Nat × Nat) : Bool := match s.locate p x.1 true with
    | .host _ => true
    | _ => false
  if (s.coreCtx p).isNone && (lineCuts va b.length).any isHost then (false, s) else
  match s.vaWrite ((s.coreCtx p).getD ⟨p, 0, 0, none⟩) 0 va b false .core with
  | (.ok, s) => (true, s)
  | (.remote _ _ _, s) => (true, s)
  | (_, s) => (false, s)

/-- The 128-byte block of a firmware call as its 16 words (R282): none where the core cannot read it. -/
def State.callBlock (s : State) (p : Fin 16) (va : Word) (there : HostRead) : Option (List Word) × State :=
  let words (b : List Byte) : List Word := (List.range 16).map (fun i => BitVec.ofNat 64 (leNat ((b.drop (8 * i)).take 8)))
  let c := (s.coreCtx p).getD ⟨p, 0, 0, none⟩
  match s.vaRead c [] 0 va.toNat 128 (fun o => s.atlasByte o) .core with
  | (.ok b, s) => (some (words b), s)
  | (.host i _ _, s) =>
    if (s.coreCtx p).isNone then (none, s)
    else (match there with
      | .data d => if d.length < 128 then none else some (words d)
      | .failed => none, s.hostAsk c i 128)
  | (_, s) => (none, s)

/-- Firmware writes the results of a call into its block (R282). -/
def State.callWrite (s : State) (p : Fin 16) (va : Word) (l : List Word) : State :=
  (s.svcWrite p va.toNat ((l.map (fun w => leBytes 8 w.toNat)).flatten)).2

/-- RESULT of a firmware call, in a1. -/
def State.callReturn (s : State) (r : Nat) : State := { s with chan := { s.chan with callResult := some r } }

/-- Results of a partition action: READ's words, or the arguments as they were. -/
def State.partOut (s : State) (who : Caller) (code : Nat) (result : Nat) : State :=
  let words := s.partWords (s.actPart who)
  match who with
  | .host n =>
    let r := (s.port n).regs
    s.setRegs n { r with partBusy := false, partResult := result, partArg := if code = 16 ∧ result = 0 then words else r.partArg }
  | .services p va _ => (if code = 16 ∧ result = 0 then s.callWrite p va words else s).callReturn result

/-- Results of a channel action: READ's entry, or the data as they were. -/
def State.chanOut (s : State) (who : Caller) (code ch : Nat) (result : Nat) : State :=
  let words := entryWords (Tbl.get 0 s.chan.entries ch)
  match who with
  | .host n =>
    let r := (s.port n).regs
    s.setRegs n { r with chanBusy := false, chanResult := result, chanData := if code = 2 ∧ result = 0 then words else r.chanData }
  | .services p va _ => (if code = 2 ∧ result = 0 then s.callWrite p va words else s).callReturn result

/-- BUSY of the caller's port becomes 1. -/
def State.markBusy (s : State) (chan : Bool) : Caller → State
  | .host n =>
    let r := (s.port n).regs
    s.setRegs n (if chan then { r with chanBusy := true } else { r with partBusy := true })
  | .services _ _ _ => s

/-- BUSY of the caller's port. -/
def State.isBusy (s : State) (chan : Bool) : Caller → Bool
  | .host n => if chan then (s.port n).regs.chanBusy else (s.port n).regs.partBusy
  | .services _ _ _ => false

/-- Whether the caller is host software. -/
def callerIsHost : Caller → Bool
  | .host _ => true
  | .services _ _ _ => false

/-- Performs an action of a partition on its arguments and, for a channel action, its channel; the results of a port that was
reset since the action arrived are discarded (R454). -/
def State.performOn (s : State) (chan : Bool) (code : Nat) (who : Caller) (b : Option RingBlock × Option RingBlock) (ch : Nat) (args : List Word)
    (p : Fin 16) (discard : Bool) : State :=
  let (o, t) := if chan then s.chanChecked who code ch args else s.partChecked (callerIsHost who) code p args b
  match o with
  | .done r => if discard then t else if chan then t.chanOut who code ch r else t.partOut who code r
  | .wait k =>
    let t := if discard then t else t.markBusy chan who
    { t with chan := { t.chan with acts := ⟨callerPort who, p, k, discard⟩ :: t.chan.acts } }

/-- The channel and the arguments that a port's registers give an action when its write arrives (R453). -/
def State.portArgs (s : State) (chan : Bool) : Caller → Nat × List Word
  | .host n =>
    let r := (s.port n).regs
    (r.chanSelect.toNat, if chan then r.chanData else r.partArg)
  | .services _ _ _ => (0, [])

/-- Performs an action whose turn has come: host software gave the arguments in its port's registers, partition services give them in
the block of their call, whose bytes 64-65 name the channel (R244, R280, R282). What RESULT says of a block that cannot be
read is not stated: a free value, and nothing is performed. -/
def State.perform (s : State) (chan : Bool) (code : Nat) (who : Caller) (b : Option RingBlock × Option RingBlock) (x : Nat × List Word)
    (q : Fin 16) (discard : Bool) : State :=
  match who with
  | .host _ => s.performOn chan code who b x.1 x.2 q discard
  | .services p va there =>
    if !chan ∧ !partAllowed false code p then s.partOut who code 6 else
    match s.callBlock p va there with
    | (some w, s) => s.performOn chan code who b (field (w.getD 8 0) 0 16) (w.take (if chan then 8 else 4)) p false
    | (none, s) =>
      let (r, s) := s.freeVal 3
      s.callReturn r.toNat

/-- The condition that an action in progress waits for holds. -/
def State.actReady (s : State) (x : PendAction) : Bool :=
  match x.kind with
  | .grantArrays f n => (laRange f n).all (fun la => (s.slotOf la).all (fun k => decide (s.domain k = .on) || decide ((s.slot k).st = 3)))
  | .releaseArrays f n => (laRange f n).all (fun la => !s.occupiedBy x.part la)
  | .destroy => (s.chansOf x.part).all (fun ch => decide (entState (s.entry ch) ≠ 1 ∧ entState (s.entry ch) ≠ 2))
  | .chanStop ch => decide (entState (s.entry ch) ≠ 2)
  | .queued _ _ _ _ _ _ => true

/-- BUSY clears with RESULT 0; the results of a port that was reset meanwhile are discarded (R454). -/
def State.actDone (s : State) (x : PendAction) (chan : Bool) : State :=
  match x.port with
  | none => s.callReturn 0
  | some n => if x.discard then s else
    let r := (s.port n).regs
    s.setRegs n (if chan then { r with chanBusy := false, chanResult := 0 } else { r with partBusy := false, partResult := 0 })

/-- Completes the action at the head, when its condition holds. -/
def State.actFinish (s : State) (x : PendAction) : State :=
  match x.kind with
  | .grantArrays _ _ => s.actDone x false
  | .releaseArrays f n => (s.leaveFloor x.part (laRange f n)).actDone x false
  | .destroy => (s.finishDestroy x.part).actDone x false
  | .chanStop _ => s.actDone x true
  | .queued chan code who b ch args => s.perform chan code who b (ch, args) x.part x.discard

/-- Completes the actions whose conditions hold, in order, within fuel. -/
def State.finishFuel (s : State) : Nat → State
  | 0 => s
  | n + 1 => match s.chan.acts with
    | [] => s
    | x :: rest => if s.actReady x then State.finishFuel ({ s with chan := { s.chan with acts := rest } }.actFinish x) n else s

/-- Completes the actions whose conditions hold, in order. -/
def State.finishActions (s : State) : State := s.finishFuel (2 * s.chan.acts.length + 2)

/-- An action arrives (R282, R245, R452): discarded while BUSY, with RESULT 5 or 4; otherwise taken in its turn. -/
def State.act (s : State) (chan : Bool) (code : Nat) (who : Caller) (b : Option RingBlock × Option RingBlock) : State :=
  let live : Bool := s.up && (match who with
    | .host n => s.barServes n 0
    | .services p _ _ => decide ((s.partition p).mode ≠ .absent))
  if !live then s
  else if s.isBusy chan who then (match who with
    | .host n =>
      let r := (s.port n).regs
      s.setRegs n (if chan then { r with chanResult := 4 } else { r with partResult := 5 })
    | .services _ _ _ => s)
  else if s.chan.acts = [] then (s.perform chan code who b (s.portArgs chan who) (s.actPart who) false).finishActions
  else
    let s := s.markBusy chan who
    { s with chan := { s.chan with acts := s.chan.acts ++ [⟨callerPort who, s.actPart who, .queued chan code who b (s.portArgs chan who).1 (s.portArgs chan who).2, false⟩] } }

/-- Step 5 of R246: with no command left the channel becomes STOPPED, ERROR under R252, or DISABLED by a reset
(R331). -/
def State.settleStop (s : State) (ch : Fin 3072) : State :=
  let e := s.entry ch
  let d := s.dyn ch
  if entState e ≠ 2 ∨ s.chanCmds ch ≠ [] then s else
  let s := s.setDyn ch { d with stop := none, holding := d.holding }
  match d.stop with
  | some .reset => s
  | some .lock => s.setEntry ch (setEntState e 0)
  | some .error =>
    let s := s.setEntry ch (setEntState e 4)
    let s := s.postEvent (entPart e) 0x0003 (leBytes 2 ch.val ++ [BitVec.ofNat 8 (entCause e)])
    s.chanIrq ch
  | _ => s.setEntry ch (setEntState e 3)

/-- DOMAIN_STABLE (R422): a domain is on, or fails, fences its unit and raises DOMAIN_FAULT. -/
def execDomainStable (dom : Fin 507) (ok : Bool) (s : State) : Host.Outcome State Fault Refusal :=
  let n := dom.val
  if s.domain n ≠ .comingUp then .next s
  else if ok then .next ((s.setDomain n .on).clusterUp n).finishActions
  else
    let s := (s.setDomain n .failed).report (mkReport 0x0064 (unitId 12 n) 0)
    let s := if n < 416 then s.fenceSlotQuiet n
      else if 448 ≤ n ∧ n < 468 then s.clusterFailed (n - 448)
      else if 492 ≤ n ∧ n < 504 then ((s.setLp (n - 492) { s.lp (n - 492) with mode := .fenced }).report (mkReport 0x0073 (unitId 8 (n - 492)) 0)).atlasUpdate 8 0
      else if n = 506 then ({ s with link := { s.link with guest := { s.link.guest with st := 3, modules := 0 } } } : State).atlasUpdate 8 0
      else s
    .next s.finishActions

end Sys2Proof.Machine
end

