-- ==== Sys2Proof/Machine/Errors.lean ====
section
/-! DEFINITION. The commands of the error controllers, the chip collector and its rings (14 R388-R398, 04 R134). -/

namespace Sys2Proof.Machine

/-- Joins a distinct reporter (R391). -/
def joinReporter (l : List (BitVec 16)) (r : BitVec 16) : List (BitVec 16) := if l.contains r then l else l ++ [r]

/-- A merged report of one report (R391, R395). -/
def Merged.of (r : Report) (region : Nat) (stamp : Word) (injected : Bool) : Merged where
  ty := r.ty
  sev := ((errType r.ty.toNat).getD (0, 0)).1
  unit := r.unit
  region := region
  parts := r.parts
  channel := r.channel
  reporters := [r.reporter]
  detail := r.detail
  addr := r.address
  stamp := stamp
  reports := 1
  injected := injected

/-- Two merged reports of one suspect (R391, R396): the more severe type, the first of equal severity. DESIGN CHOICE: the
record counts as injected when every report in it is. -/
def Merged.join (a b : Merged) : Merged :=
  let top := if a.sev < b.sev then b else a
  { a with
    ty := top.ty
    sev := top.sev
    detail := top.detail
    addr := top.addr
    parts := a.parts ||| b.parts
    channel := if a.channel = 0xFFFF then b.channel else a.channel
    reporters := b.reporters.foldl joinReporter a.reporters
    reports := min (a.reports + b.reports) (2 ^ 32 - 1)
    injected := a.injected && b.injected }

/-- The types that set REPLACE (R393, R420): the third failed phase of a rail among them. -/
def State.replaceBit (s : State) (m : Merged) : Bool :=
  decide (m.ty.toNat = 0x0042 ∨ m.ty.toNat = 0x0043 ∨ m.ty.toNat = 0x0052) ||
  (decide (m.ty.toNat = 0x0062) && decide (2 < (s.pow.badPhases.filter (fun x => x.1 + 1 = field m.detail 0 4)).length))

/-- The 64 bytes of an error record (R391). -/
def State.errorRecord (s : State) (m : Merged) (final : Bool) : List Byte :=
  let level := ((errType m.ty.toNat).getD (0, 0)).2
  let cls := m.sev + 8 * level + (if s.replaceBit m then 32 else 0) + (if m.injected then 64 else 0) + (if final then 128 else 0)
  leBytes 2 m.ty.toNat ++ [BitVec.ofNat 8 cls, BitVec.ofNat 8 m.region] ++ leBytes 2 m.unit.toNat ++ leBytes 2 m.parts.toNat ++ leBytes 2 m.channel.toNat
    ++ leBytes 2 (min m.reporters.length 65535) ++ leBytes 4 m.detail.toNat ++ leBytes 8 m.addr.toNat
    ++ ((m.reporters.take 8).map (fun r => leBytes 2 r.toNat)).flatten ++ List.replicate (16 - 2 * min m.reporters.length 8) 0
    ++ leBytes 8 m.stamp.toNat ++ leBytes 8 s.pow.bootEpoch.toNat ++ leBytes 4 s.err.serial.toNat ++ leBytes 4 m.reports

/-- An interrupt of a host error ring, at most one within its holdoff (R397). -/
def State.errIrq (s : State) (port : Fin 2) : State :=
  let p := s.port port
  if !p.ringIrq then s
  else if p.ringHolding then s.setPort port { p with ringDue := true }
  else
    let s := s.sendMsix port 0 p.ringVector.toNat
    if p.ringHoldoff = 0 then s else s.setPort port { s.port port with ringHolding := true, ringDue := false }

/-- Writes a record to one port's host error ring, when enabled and of at least MIN_SEVERITY (R397, R398). -/
def State.hostRing (s : State) (port : Fin 2) (sev : Nat) (record : List Byte) (cons : Option (BitVec 32)) : State :=
  let p := s.port port
  if !p.ringEnable then s
  else if sev < p.ringMin then s.setPort port { p with filtered := if p.filtered = BitVec.allOnes 16 then p.filtered else p.filtered + 1 }
  else match p.ring with
    | none => s
    | some r =>
      let (r', _, s) := s.ringRecord ⟨0, port, 0, none⟩ r record none cons
      let s := s.setPort port { s.port port with ring := some r' }
      if r'.producer = r.producer then s else s.errIrq port

/-- A partition holds an array, a core or a plot share on the die named (R399). -/
def State.onDie (s : State) (unit : BitVec 16) (x : Partition) : Bool :=
  if field unit 12 4 ≠ 3 then false else
  let d := field unit 0 12
  if d < 8 then x.floor.any (fun la => (s.slotOf la).any (fun n => decide (n / 52 = d)))
  else if d < 12 then x.sharesHub (d - 8)
  else if d < 14 then x.cores.any (fun c => decide (12 + c / 80 = d)) else true

/-- ERROR_NOTICE of a written record to one partition (R399). -/
def State.notice (s : State) (m : Merged) (final : Bool) (serial : BitVec 32) (p : Fin 16) : State :=
  let ownChan := decide (m.channel.toNat < 3072) && decide (entPart (s.entry ⟨m.channel.toNat % 3072, Nat.mod_lt _ (by decide)⟩) = p)
  let ownAddr := s.owns p (m.addr.toNat / 128)
  let cls := m.sev + 8 * ((errType m.ty.toNat).getD (0, 0)).2 + (if s.replaceBit m then 32 else 0) + (if final then 128 else 0)
  let s := s.postEvent p 0x0010 (leBytes 2 m.ty.toNat ++ [BitVec.ofNat 8 cls, 0] ++ leBytes 2 m.unit.toNat
    ++ leBytes 2 (if ownChan then m.channel.toNat else 0xFFFF) ++ leBytes 4 m.detail.toNat ++ leBytes 4 serial.toNat
    ++ leBytes 8 (if ownAddr then m.addr.toNat else 0) ++ leBytes 2 (min m.reporters.length 65535))
  if m.sev < 3 ∨ (s.partition p).irq2 then s
  else (s.coreInterrupt p 0 2).setPartition p { s.partition p with irq2 := true }

/-- The notices of a record. -/
def State.noticeAll (s : State) (m : Merged) (final : Bool) (serial : BitVec 32) : State :=
  allParts.foldl (fun s p =>
    if m.parts.getLsbD p.val || (decide (3 ≤ m.sev) && decide ((s.partition p).mode ≠ .absent) && s.onDie m.unit (s.partition p)) then s.notice m final serial p else s) s

/-- The collector makes a record (R391, R397, R399): to the enabled host rings, then the notices; a record of
severity contained or higher is an unread alert (R441). `cons` holds the CONSUMER words of the two rings as read, P0's
in the low half; without it they are free. -/
def State.makeRecord (s : State) (m : Merged) (final : Bool) (cons : Option (BitVec 64)) : State :=
  let record := s.errorRecord m final
  let serial := s.err.serial
  let s := (s.hostRing 0 m.sev record (cons.map (fun c => bits c 0 32))).hostRing 1 m.sev record (cons.map (fun c => bits c 32 32))
  let s := if m.injected then s else
    s.noticeAll m final serial
  { s with err := { s.err with serial := serial + 1, alertUnread := s.err.alertUnread || decide (2 ≤ m.sev), alertPin := s.err.alertPin || decide (2 ≤ m.sev) } }

/-- ERROR_REPORT (R395): firmware answers a core's CORE_FENCED with a spare (R22, R24) and a PAGE_RETIRED in the Atlas (R153);
the report joins an open merge entry of its suspect and type, opens one, or goes on unmerged when the controller's 32 entries
are taken. -/
def execErrorReport (region : Fin 23) (r : Report) (s : State) : Host.Outcome State Fault Refusal :=
  if !s.powered ∨ (errType r.ty.toNat).isNone then .next s else
  let s := { s with err := { s.err with raised := s.err.raised.erase (region, r) } }
  let s := if r.ty = 0x0039 ∧ s.up ∧ field r.unit 12 4 = 6 ∧ field r.unit 0 12 < 160 then s.fenceCore (field r.unit 0 12) else s
  let s := if r.ty = 0x0023 ∧ s.up ∧ field r.unit 12 4 = 4 ∧ field r.unit 0 12 < 384 then s.noteRetired (field r.unit 0 12) else s
  let (stamp, s) := s.freeVal 64
  let m := Merged.of r region.val stamp false
  let same (x : Merged) : Bool := decide (x.region = region.val ∧ x.unit = r.unit ∧ x.ty = r.ty)
  if s.err.merges.any same then
    .next { s with err := { s.err with merges := s.err.merges.map (fun x => if same x then x.join m else x) } }
  else if (s.err.merges.filter (fun x => decide (x.region = region.val))).length < 32 then
    .next { s with err := { s.err with merges := s.err.merges ++ [m] } }
  else .next { s with err := { s.err with inbox := s.err.inbox ++ [m] } }

/-- MERGE_WINDOW_CLOSE (R395): the entry sends one merged report to the collector. -/
def execMergeWindowClose (region : Fin 23) (ty unit : BitVec 16) (s : State) : Host.Outcome State Fault Refusal :=
  let same (x : Merged) : Bool := decide (x.region = region.val ∧ x.unit = unit ∧ x.ty = ty)
  match s.err.merges.find? same with
  | none => .next s
  | some m => .next { s with err := { s.err with merges := s.err.merges.filter (fun x => !same x), inbox := s.err.inbox ++ [m] } }

/-- The collector takes one merged report (R396). -/
def State.collect (s : State) (m : Merged) : State :=
  match s.err.entries.find? (fun e => decide (e.m.unit = m.unit)) with
  | some e =>
    let open' := e.window || e.written.any (fun w => decide (w < m.sev))
    let e' : CollectorEntry := { e with m := e.m.join m, window := open', newer := true }
    { s with err := { s.err with entries := s.err.entries.map (fun x => if x.m.unit = m.unit then e' else x) } }
  | none =>
    if s.err.entries.length < 1024 then
      { s with err := { s.err with entries := s.err.entries ++ [⟨m, none, true, true⟩] } }
    else
      let s := s.makeRecord { m with reporters := m.reporters.take 1 } false none
      { s with err := { s.err with full := s.err.full + 1 } }

/-- COLLECTOR_REPORT (R396): the chip collector takes the next merged report. -/
def execCollectorReport (s : State) : Host.Outcome State Fault Refusal :=
  match s.err.inbox with
  | [] => .next s
  | m :: t => .next ({ s with err := { s.err with inbox := t } }.collect m)

/-- The merged COLLECTOR_FULL report of its own entry (R396). DEDUCED: its suspect is the I/O region, whose controller makes it. -/
def fullMerged (n : Nat) (stamp : Word) : Merged := { Merged.of (mkReport 0x0080 (unitId 2 22) 0) 22 stamp false with reports := n }

/-- COLLECTOR_WINDOW_END (R396): the entry's record is written. The entry of COLLECTOR_FULL stands beside the 1,024 and is never
refused. -/
def execCollectorWindowEnd (unit : BitVec 16) (consumers : BitVec 64) (s : State) : Host.Outcome State Fault Refusal :=
  match s.err.entries.find? (fun e => decide (e.m.unit = unit) && e.window) with
  | some e =>
    let s := s.makeRecord e.m false (some consumers)
    .next { s with err := { s.err with entries := s.err.entries.map (fun x => if x.m.unit = unit then { x with written := some e.m.sev, window := false, newer := false } else x) } }
  | none =>
    if unit = unitId 2 22 ∧ 0 < s.err.full ∧ s.err.fullAt = none then
      let (stamp, s) := s.freeVal 64
      let s := s.makeRecord (fullMerged s.err.full stamp) false (some consumers)
      .next { s with err := { s.err with fullAt := some (s.err.full, stamp) } }
    else .next s

/-- The entry of COLLECTOR_FULL retires (R396). -/
def State.retireFull (s : State) (consumers : BitVec 64) : State :=
  match s.err.fullAt with
  | none => s
  | some (n, stamp) =>
    let s := if n < s.err.full then s.makeRecord (fullMerged s.err.full stamp) true (some consumers) else s
    { s with err := { s.err with full := 0, fullAt := none } }

/-- COLLECTOR_ENTRY_RETIRE (R396): an entry with reports after its last record writes one more, with FINAL. -/
def execCollectorEntryRetire (unit : BitVec 16) (consumers : BitVec 64) (s : State) : Host.Outcome State Fault Refusal :=
  match s.err.entries.find? (fun e => decide (e.m.unit = unit) && e.written.isSome) with
  | none => .next (if unit = unitId 2 22 then s.retireFull consumers else s)
  | some e =>
    let s := if e.newer then s.makeRecord e.m true (some consumers) else s
    .next { s with err := { s.err with entries := s.err.entries.filter (fun x => decide (x.m.unit ≠ unit)) } }

/-- A write of ERR_INJECT (R398): GO injects a report, with INJECTED, PARTITIONS 0 and the severity of its type. -/
def State.inject (s : State) (v : Word) : State :=
  if !v.getLsbD 32 ∨ (errType (field v 0 16)).isNone then s else
  let (stamp, s) := s.freeVal 64
  let unit := bits v 16 16
  s.collect (Merged.of (mkReport (field v 0 16) unit 0) (regionOf unit).val stamp true)

/-- ERR_INJECT (R398). -/
def execErrInject (port : Fin 2) (v : Word) (s : State) : Host.Outcome State Fault Refusal :=
  .next (if s.barServes port 0 then s.inject v else s)

/-- A write of ERR_RING_CONTROL; the control block is read when ENABLE goes from 0
to 1. A reserved MIN_SEVERITY keeps its value (R8). -/
def State.writeRing (s : State) (port : Fin 2) (v : Word) (host : Option RingBlock) : State :=
  let p := s.port port
  let ring : Option RingReg :=
    if !v.getLsbD 0 then none
    else if p.ringEnable then p.ring
    else host.map (fun b => ⟨p.ringBlock, b.records, b.kinds, b.log2.toNat, true, 0, 0⟩)
  s.setPort port { p with
    ringEnable := v.getLsbD 0
    ringMin := if field v 1 3 < 5 then field v 1 3 else p.ringMin
    ringIrq := v.getLsbD 4
    ringHoldoff := bits v 8 8
    ringVector := bits v 16 11
    ring := ring }

/-- ERR_RING_ENABLE (R397, R398). -/
def execErrRingEnable (port : Fin 2) (v : Word) (host : Option RingBlock) (s : State) : Host.Outcome State Fault Refusal :=
  .next (if s.barServes port 0 then s.writeRing port v host else s)

/-- ERROR_RING_HOLDOFF_EXPIRED (R397): an interrupt due within the holdoff is sent once. -/
def execErrorRingHoldoffExpired (port : Fin 2) (s : State) : Host.Outcome State Fault Refusal :=
  let p := s.port port
  if !p.ringHolding then .next s
  else
    let s := s.setPort port { p with ringHolding := false, ringDue := false }
    .next (if p.ringDue then s.errIrq port else s)

/-- ARRAY_FENCED (R390): firmware fences an array for a cause and starts its spare swap (R406). -/
def execArrayFenced (slot : Fin 416) (cause : Fin 5) (s : State) : Host.Outcome State Fault Refusal :=
  if !s.up ∨ cause = 0 then .next s else .next (s.fenceSlot slot.val cause.val).finishActions

/-- SPARE_SELF_TEST_COMPLETE (R19, R406): a spare that passes is bound to the logical array it is brought in for, at
once or when the command that occupied the array has left it; one that fails is fenced, and the next spare starts. -/
def execSpareSelfTestComplete (slot : Fin 416) (pass : Bool) (s : State) : Host.Outcome State Fault Refusal :=
  if !s.up ∨ s.domain slot.val ≠ .on then .next s else
  match s.err.swaps.find? (fun x => decide (x.spare = slot.val)) with
  | none => .next s
  | some w =>
    if w.passed then .next s
    else if pass then
      if (s.array w.la).occ.isNone then .next (s.bindSwap w).finishActions
      else .next { s with err := { s.err with swaps := s.err.swaps.map (fun x => if x.spare = slot.val then { x with passed := true } else x) } }
    else .next (s.fenceSlot slot.val 4).finishActions

end Sys2Proof.Machine
end

