-- ==== Sys2Proof/Machine/Links.lean ====
section
/-! DEFINITION. The commands of the internal die-to-die links and of dies lost (08 R224-R234, 14 R407-R410). -/

namespace Sys2Proof.Machine

/-- Bytes [135:0] of a flit (R226). -/
def Flit.covered (f : Flit) : List Byte :=
  leBytes 128 f.payload.toNat ++ leBytes 2 f.seq.toNat ++ leBytes 2 f.ack.toNat ++ [f.cls] ++ leBytes 3 f.rsvd.toNat

/-- The flit's CRC holds (R226). -/
def flitOk (f : Flit) : Bool := decide (f.crc = crc64 0 (leBytes 128 f.payload.toNat ++ leBytes 2 f.seq.toNat ++ leBytes 2 f.ack.toNat ++ [f.cls] ++ leBytes 3 f.rsvd.toNat))

/-- A flit as it arrives, with the wires' errors. -/
def Flit.flip (f e : Flit) : Flit :=
  ⟨f.payload ^^^ e.payload, f.seq ^^^ e.seq, f.ack ^^^ e.ack, f.cls ^^^ e.cls, f.rsvd ^^^ e.rsvd, f.crc ^^^ e.crc⟩

/-- ACK frees the flits held up to the one it names (R227). -/
def ackHeld (held : List Flit) (ack : BitVec 16) : List Flit :=
  if held.any (fun f => decide (f.seq = ack)) then (held.dropWhile (fun f => decide (f.seq ≠ ack))).tail else held

/-- The transmitter's side of a flit on a lane group (R227): a new flit takes the next SEQ and is held, which a full replay buffer
does not allow; a replay is a flit that is held. None when the transmitter sends no such flit. -/
def LaneGroup.sends (x : LaneGroup) (f : Flit) : Option LaneGroup :=
  if f.seq = x.txSeq then
    if x.held.length < 128 then some { x with txSeq := x.txSeq + 1, held := x.held ++ [f], sentCount := x.sentCount + 1 } else none
  else if x.held.contains f then some x else none

/-- A CRC error at the receiver (R227, R228): the flit is discarded and ACK stops; failures of the flit expected are counted over
its replays, and the group's errors with the numbers of their flits. -/
def LaneGroup.failed (x : LaneGroup) (again : Bool) : LaneGroup :=
  { x with
    discarding := true
    failSame := if again then x.failSame + 1 else x.failSame
    crcAt := (x.flits :: x.crcAt).take 256 }

/-- The group counts 256 CRC errors within 2^24 flits (R228). -/
def LaneGroup.crcRate (x : LaneGroup) : Bool :=
  decide (x.crcAt.length = 256) && decide (x.crcAt.headD 0 < x.crcAt.getLastD 0 + 2 ^ 24)

/-- An intact flit in sequence is accepted (R227). -/
def LaneGroup.accepted (x : LaneGroup) (f : Flit) : LaneGroup :=
  { x with rxSeq := x.rxSeq + 1, rxAck := f.seq, discarding := false, failSame := 0, tookCount := x.tookCount + 1 }

/-- The receiving side of a direction of a link. -/
def State.linkIn (s : State) (l : Nat) (dir : Fin 2) : LinkIn := Tbl.get ⟨0, []⟩ s.link.ins (2 * l + dir.val)

/-- Replaces the receiving side of a direction. -/
def State.setLinkIn (s : State) (l : Nat) (dir : Fin 2) (x : LinkIn) : State :=
  { s with link := { s.link with ins := Tbl.set ⟨0, []⟩ s.link.ins (2 * l + dir.val) x } }

/-- The flits that are next in the order dealt, and the receiving side without them (R226). DESIGN CHOICE: after training the
first flit is dealt to group 0. -/
def LinkIn.inOrder (x : LinkIn) : Nat → List Flit × LinkIn
  | 0 => ([], x)
  | n + 1 =>
    match x.early.find? (fun y => decide (y.1 = x.next)) with
    | none => ([], x)
    | some (_, f) =>
      let (l, x) := LinkIn.inOrder ⟨x.next + 1, x.early.filter (fun y => decide (y.1 ≠ x.next))⟩ n
      (f :: l, x)

/-- A flit under way on a rerouted path has crossed a link: it waits for its next one, or has arrived at the end of the link that it
was first sent on (R231, R232). -/
def State.crossed (s : State) (t : Transit) : Option Transit × State :=
  let rest := s.link.transit.erase t
  match t.path.tail with
  | [] => (some t, { s with link := { s.link with transit := rest } })
  | p => (none, { s with link := { s.link with transit := rest ++ [{ t with path := p, sent := false }] } })

/-- A flit leaves a link in order: a transit flit goes on, other messages are handed over by class; a reserved CLASS names no
message (R226). -/
def State.handOn (s : State) (l : Fin 22) (dir : Fin 2) (f : Flit) : Option Transit × State :=
  match s.link.transit.find? (fun t => t.sent && decide (t.path.head? = some (l.val, dir) ∧ t.flit.payload = f.payload)), decide (f.cls = 4) with
  | some t, true => s.crossed t
  | _, _ => (none, if f.cls.toNat ≤ 4 then s.emit (.message l dir f.cls.toNat f.payload) else s)

/-- A receiver accepts an intact flit in sequence and hands on what is then in order. `n` bounds the links of a rerouted path. -/
def State.intake : Nat → Fin 22 → Fin 2 → Fin 80 → Flit → State → State
  | 0, _, _, _, _, s => s
  | n + 1, l, dir, g, f, s =>
    let x := s.laneGroup l.val dir g
    if f.seq ≠ x.rxSeq then s else
    let s := s.setLaneGroup l.val dir g (x.accepted f)
    let i := s.linkIn l.val dir
    let i : LinkIn := ⟨i.next, i.early ++ [(x.tookCount * linkGroups l.val + g.val, f)]⟩
    let (fs, i) := i.inOrder i.early.length
    fs.foldl (fun s f =>
      match s.handOn l dir f with
      | (some t, s) => State.intake n ⟨t.link % 22, Nat.mod_lt _ (by decide)⟩ t.dir t.group t.flit s
      | (none, s) => s) (s.setLinkIn l.val dir i)

/-- A transit flit is sent on a link in the order that its path took it, ahead of new ones (R232): a new flit of class 4 is the
next of those that wait. -/
def State.transitNext (s : State) (l : Fin 22) (dir : Fin 2) (f : Flit) : Option State :=
  match s.link.transit.find? (fun t => !t.sent && decide (t.path.head? = some (l.val, dir))), decide (f.cls = 4) with
  | some t, true =>
    if t.flit.payload = f.payload then
      some { s with link := { s.link with transit := s.link.transit.map (fun y => if y = t then { y with sent := true } else y) } }
    else none
  | _, _ => some s

/-- FLIT_RECEIVE (R226, R227): a flit that the transmitter sends on a lane group of a link that is up, and the errors of the wires;
the receiver accepts it in sequence, or discards it. -/
def execFlitReceive (l : Fin 22) (dir : Fin 2) (g : Fin 80) (rx : FlitRx) (s : State) : Host.Outcome State Fault Refusal :=
  let f := rx.sent
  if (s.d2d l.val).mode ≠ .up ∨ linkGroups l.val ≤ g.val ∨ !flitOk f then .next s else
  let x := s.laneGroup l.val dir g
  let again := decide (f.seq ≠ x.txSeq)
  match x.sends f, (if again then some s else s.transitNext l dir f) with
  | some x, some s =>
    let x := { x with flits := x.flits + 1 }
    let r := Flit.flip f rx.err
    if !flitOk r then .next (s.setLaneGroup l.val dir g (x.failed (again && decide (f.seq = x.rxSeq)))) else
    let s := s.setLaneGroup l.val dir g x
    let back := otherDie dir
    let y := s.laneGroup l.val back g
    let s := s.setLaneGroup l.val back g { y with held := ackHeld y.held r.ack }
    .next (if x.discarding ∧ !again then s else s.intake 3 l dir g r)
  | _, _ => .next s

/-- D2D_REPLAY_TIMEOUT (R227): the transmitter replays from the first unacknowledged flit. -/
def execD2dReplayTimeout (l : Fin 22) (dir : Fin 2) (g : Fin 80) (s : State) : Host.Outcome State Fault Refusal :=
  let x := s.laneGroup l.val dir g
  if (s.d2d l.val).mode ≠ .up ∨ x.held = [] then .next s else
  let s := s.setLaneGroup l.val dir g { x with replays := x.replays + 1 }
  let s := x.held.foldl (fun s f => s.emit (.flit l dir g f)) s
  .next (s.report (mkReport 0x0040 (unitId 7 l.val) g.val))

/-- D2D_WIRE_FAILED (R228, R231): the whole link goes down. The two causes that count are checked; the stopped
track wire and clock are events. -/
def execD2dWireFailed (l : Fin 22) (g : Fin 80) (cause : WireCause) (s : State) : Host.Outcome State Fault Refusal :=
  let a := s.laneGroup l.val 0 g
  let b := s.laneGroup l.val 1 g
  let holds : Bool := match cause with
    | .eightReplays => decide (8 ≤ a.failSame ∨ 8 ≤ b.failSame)
    | .crcRate => a.crcRate || b.crcRate
    | .trackStopped => true
    | .clockStopped => true
  if (s.d2d l.val).mode ≠ .up ∨ !holds then .next s else .next (s.linkDown l.val 0x0042 g.val)

/-- LINK_TRAINING_STEP (R229): a step of T1-T4 ends, and the groups named fail at an end. -/
def execLinkTrainingStep (l : Fin 22) (fail0 fail1 : BitVec 80) (s : State) : Host.Outcome State Fault Refusal :=
  match (s.d2d l.val).mode with
  | .training step m0 m1 =>
    let a := m0 &&& ~~~fail0
    let b := m1 &&& ~~~fail1
    .next (s.setD2d l.val { s.d2d l.val with mode := if step = 3 then .compare a b else .training (step + 1) a b })
  | _ => .next s

/-- Every lane group of a link. -/
def allGroups (l : Nat) : BitVec 80 := BitVec.ofNat 80 (2 ^ linkGroups l - 1)

/-- The outcome of T6 (R230) from the two pass masks. -/
def State.compareMasks (s : State) (l : Nat) (m0 m1 : BitVec 80) : State :=
  let x := s.d2d l
  if m0 = m1 then
    if m0 = allGroups l then ((s.freshGroups l).setD2d l { x with mode := .up }).reroute else s.linkDown l 0x0042 0
  else if x.retrained then s.linkDown l 0x0043 0
  else s.setD2d l { x with mode := .training 0 (allGroups l) (allGroups l), retrained := true }

/-- PASS_MASK_COMPARE (R230). A die in recovery whose link does not come up ends its recovery (R408). -/
def execPassMaskCompare (l : Fin 22) (s : State) : Host.Outcome State Fault Refusal :=
  match (s.d2d l.val).mode with
  | .compare m0 m1 =>
    let d := (linkEnds l.val).1
    let was := (s.dieState d).mode
    let parts := s.dieParts d
    let s := s.compareMasks l.val m0 m1
    if was = .selfTest ∧ (s.dieState d).mode ≠ .selfTest then .next (s.postRecovery parts (unitId 3 d) (if d < 8 then 2 else 3) (some 1))
    else .next s
  | _ => .next s

/-- The die of R392 that index 0-9 of the command names: CD0-CD7, then SD0 and SD1. -/
def dieOf (d : Fin 10) : Nat := if d.val < 8 then d.val else 12 + (d.val - 8)

/-- DIE_LOST (R407): CD_LOST or SD_LOST; a second loss fences the die until the next bring-up (R408). -/
def execDieLost (d : Fin 10) (clockLost resetSeen : Bool) (s : State) : Host.Outcome State Fault Refusal :=
  let n := dieOf d
  let x := s.dieState n
  if !s.up ∨ x.mode ≠ .present then .next s else
  let again := x.lostOnce
  let parts := s.dieParts n
  let s := s.fenceDie n (if again then .fenced else .lost) (if n < 8 then 0x0050 else 0x0051) ((if clockLost then 1 else 0) + (if resetSeen then 2 else 0))
  .next (if again then s.postRecovery parts (unitId 3 n) (if n < 8 then 2 else 3) (some 1) else s)

/-- The switched domains of the slots or clusters of a die (R421). -/
def unitDomains (d : Nat) : List Nat :=
  if d < 8 then (List.range 52).map (fun i => 52 * d + i) else (List.range 10).map (fun c => 448 + 10 * (d - 12) + c)

/-- Links train from T1, with their retraining unspent (R229, R230). -/
def State.trainAfresh (s : State) (ls : List Nat) : State :=
  ls.foldl (fun s l => if (s.d2d l).barred then s else s.setD2d l { s.d2d l with mode := .training 0 (allGroups l) (allGroups l), retrained := false }) s

/-- PARTIAL_RESET (R230, R408): the reset of a lost die ends and its links train from T1; one of a die or a link that trains
starts again at T1; a link that is down between dies that are present trains. -/
def execPartialReset (what : ResetWhat) (s : State) : Host.Outcome State Fault Refusal :=
  if !s.up then .next s else
  match what with
  | .die d =>
    let n := dieOf d
    if (s.dieState n).mode = .selfTest then
      .next (if (linksOf n).any (fun l => decide ((s.d2d l).mode ≠ .up)) then s.trainAfresh (linksOf n) else s)
    else if (s.dieState n).mode ≠ .lost then .next s else
    let s := s.setDie n { s.dieState n with mode := .selfTest }
    let s := (unitDomains n).foldl (fun s k => s.wantDomain k) s
    .next (s.trainAfresh (linksOf n))
  | .link l =>
    let ok (d : Nat) : Bool := decide ((s.dieState d).mode = .present ∨ (s.dieState d).mode = .selfTest)
    if (s.d2d l.val).mode = .up ∨ !ok (linkEnds l.val).1 ∨ !ok (linkEnds l.val).2 then .next s
    else .next (s.trainAfresh [l.val])

/-- Binds the unbound arrays homed on a compute die that came back, in ascending rank, to its healthy slots; the
other healthy slots become spares (R408). -/
def State.rebindDie (s : State) (d : Nat) (healthy : BitVec 80) : State :=
  let s := (List.range 52).foldl (fun s i => if healthy.getLsbD i ∧ s.domain (52 * d + i) = .on then s.setSlot (52 * d + i) { s.slot (52 * d + i) with st := 1 } else s) s
  let s := (List.range 48).foldl (fun s i =>
    let la := 48 * d + i
    if (s.slotOf la).isSome ∨ s.err.swaps.any (fun x => decide (x.la = la)) ∨ (s.array la).occ.isSome then s else
    match (List.range 26).find? (fun k => decide ((s.slot (26 * homeRegion la + k)).st = 1)) with
    | none => s
    | some k =>
      let n := 26 * homeRegion la + k
      let s := { s with atlas := { s.atlas with arrayMap := Tbl.set none s.atlas.arrayMap la (some n) } }
      (s.setSlot n { s.slot n with st := 0 }).setArray la (s.array la).rebound) s
  (List.range 52).foldl (fun s i => if (s.slot (52 * d + i)).st = 0 then s else s.dropDomain (52 * d + i)) s

/-- The cores of a service die that came back return in reset (R409). -/
def State.returnCores (s : State) (sd : Nat) (healthy : BitVec 80) : State :=
  (List.range 80).foldl (fun s i =>
    let n := 80 * sd + i
    let given := (List.range 80).any (fun k => decide ((s.core (80 * sd + k)).replaced = some i))
    if !healthy.getLsbD i ∨ given ∨ s.domain (448 + n / 8) ≠ .on then s else
    let spare := decide (72 ≤ i) && (s.core n).replaced.isNone
    s.setCore n { s.core n with st := if spare then 2 else 0, running := false, pc := 0 }) s
    |> fun s => (List.range 10).foldl (fun s c => s.restCluster (10 * sd + c)) s

/-- SELF_TEST_COMPLETE (R408): with its links up and a healthy unit the die's fence is lifted; else it stays
fenced until the next bring-up. -/
def execSelfTestComplete (d : Fin 10) (healthy : BitVec 80) (s : State) : Host.Outcome State Fault Refusal :=
  let n := dieOf d
  if !s.up ∨ (s.dieState n).mode ≠ .selfTest ∨ (linksOf n).any (fun l => decide ((s.d2d l).mode ≠ .up)) ∨ (unitDomains n).any (fun k => decide (s.domain k = .off) || decide (s.domain k = .comingUp)) then .next s else
  let kind := if n < 8 then 2 else 3
  if healthy = 0 then
    let parts := s.dieParts n
    let s := (unitDomains n).foldl (fun s k => s.dropDomain k) s
    .next ((s.setDie n { s.dieState n with mode := .fenced }).postRecovery parts (unitId 3 n) kind (some 1))
  else
    let s := s.setDie n { s.dieState n with mode := .present }
    let s := if n < 8 then s.rebindDie n healthy else s.returnCores (n - 12) healthy
    let parts := s.dieParts n
    .next ((s.atlasUpdate 5 parts).postRecovery parts (unitId 3 n) kind (some 0))

/-- HUB_LOST (R410). -/
def execHubLost (h : Fin 4) (s : State) : Host.Outcome State Fault Refusal :=
  if !s.up then .next s else .next (s.loseHub h.val)

end Sys2Proof.Machine
end

