-- ==== Sys2Proof/Machine/Power.lean ====
section
/-! DEFINITION. The commands of power, clocks and temperature (15). -/

namespace Sys2Proof.Machine

/-- What is left when power goes: fuses, flash, what the pins carry (R363, R416, R446). -/
def State.powerOff (s : State) (st : Stage) : State :=
  { State.reset with
    sec := { SecState.reset with fuses := s.sec.fuses, certFor := s.sec.certFor }
    mem := { MemState.reset with retired := s.mem.retired, unitsLost := s.mem.unitsLost }
    link := { LinkState.reset with d2d := (s.link.d2d.filter (fun x => x.2.barred)).map (fun x => (x.1, ⟨.down, false, true, none⟩)) }
    pow := { PowState.reset with
      inputOk := s.pow.inputOk
      charged := s.pow.charged
      inputMv := s.pow.inputMv
      pwrEn := s.pow.pwrEn
      pwrPending := s.pow.pwrPending
      needCycle := s.pow.needCycle
      bootEpoch := s.pow.bootEpoch
      badPhases := s.pow.badPhases
      flash := s.pow.flash
      faultN := s.pow.faultN
      tripN := s.pow.tripN
      stage := st }
    host := { HostState.reset with
      port0 := { PortState.reset with released := s.host.port0.released, drs := s.host.port0.released }
      port1 := { PortState.reset with released := s.host.port1.released, drs := s.host.port1.released } }
    out := s.out
    freeCount := s.freeCount
    pending := s.pending }

/-- PWR_EN is accepted: the rail sequence starts (R417, R446). -/
def State.startRails (s : State) : State := { s with pow := { s.pow with stage := .rails 0, pwrPending := false } }

/-- INPUT_PRESENT (R417): soft start begins. -/
def execInputPresent (mv : BitVec 16) (s : State) : Host.Outcome State Fault Refusal :=
  if s.pow.stage ≠ .unpowered ∨ mv.toNat < 40000 ∨ 60000 < mv.toNat then .next { s with pow := { s.pow with inputMv := mv } }
  else .next { s with pow := { s.pow with inputOk := true, inputMv := mv, stage := .softStart } }

/-- SOFT_START_COMPLETE (R417, R446): an asserted PWR_EN is then accepted. -/
def execSoftStartComplete (s : State) : Host.Outcome State Fault Refusal :=
  if s.pow.stage ≠ .softStart then .next s else
  let s := { s with pow := { s.pow with charged := true } }
  .next (if s.pow.pwrEn && !s.pow.needCycle then s.startRails else s)

/-- INPUT_OUT_OF_RANGE (R417): below 40 V or above 60 V the hot-swap controller opens; the module is unpowered. -/
def execInputOutOfRange (mv : BitVec 16) (s : State) : Host.Outcome State Fault Refusal :=
  if 40000 ≤ mv.toNat ∧ mv.toNat ≤ 60000 then .next { s with pow := { s.pow with inputMv := mv } }
  else
    let t := s.powerOff .unpowered
    .next { t with pow := { t.pow with inputOk := false, charged := false, inputMv := mv, faultN := false, tripN := false, pwrPending := false } }

/-- POWER_INPUT_FAULT (R417): the fault band for more than 1 ms. -/
def execPowerInputFault (mv : BitVec 16) (s : State) : Host.Outcome State Fault Refusal :=
  let n := mv.toNat
  if !s.powered ∨ ¬ ((40000 ≤ n ∧ n < 44000) ∨ (58000 < n ∧ n ≤ 60000)) then .next { s with pow := { s.pow with inputMv := mv } }
  else .next ((({ s with pow := { s.pow with inputMv := mv } }).report (mkReport 0x0060 (unitId 12 0x980) 0)).failModule 0x0060)

/-- PWR_EN_ASSERTED (R446). -/
def execPwrEnAsserted (s : State) : Host.Outcome State Fault Refusal :=
  let s := { s with pow := { s.pow with pwrEn := true } }
  if s.pow.stage = .softStart ∧ s.pow.charged ∧ ¬ s.pow.needCycle then .next s.startRails
  else if s.pow.stage = .descending then .next { s with pow := { s.pow with pwrPending := true } }
  else .next s

/-- PWR_EN_DEASSERTED (R446): PGOOD falls, every command stops without a record, the rails descend. -/
def execPwrEnDeasserted (s : State) : Host.Outcome State Fault Refusal :=
  let s := { s with pow := { s.pow with pwrEn := false, pwrPending := false, needCycle := false } }
  match s.pow.stage with
  | .unpowered => .next s
  | .softStart => .next s
  | .descending => .next s
  | _ => .next (s.powerOff .descending)

/-- RAIL_STEP_COMPLETE (R418): the next rail is in regulation. -/
def execRailStepComplete (s : State) : Host.Outcome State Fault Refusal :=
  match s.pow.stage with
  | .rails k => .next { s with pow := { s.pow with stage := if h : k.val < 8 then .rails ⟨k.val + 1, by omega⟩ else .railsUp } }
  | _ => .next s

/-- RAIL_FAULT (R419): the rails descend, and the module stays down until PWR_EN is cycled. FAULT_N is driven only with VPP_MEM,
the third rail, in regulation (R442). -/
def execRailFault (rail : Fin 9) (s : State) : Host.Outcome State Fault Refusal :=
  let live : Bool := match s.pow.stage with
    | .rails k => decide (rail.val ≤ k.val)
    | _ => s.powered
  if !live then .next s else
  let t := (s.report (mkReport 0x0061 (unitId 13 1) (rail.val + 1))).failModule 0x0061
  let vpp : Bool := match s.pow.stage with
    | .rails k => decide (3 ≤ k.val)
    | _ => true
  .next { t with pow := { t.pow with stage := .descending, needCycle := true, pwrPending := false, faultN := t.pow.faultN && vpp } }

/-- RAIL_DESCENT_COMPLETE (R442, R446): FAULT_N and THERMTRIP_N are released, and a pending PWR_EN is accepted. -/
def execRailDescentComplete (s : State) : Host.Outcome State Fault Refusal :=
  if s.pow.stage ≠ .descending then .next s else
  let t := s.powerOff .softStart
  let t := { t with pow := { t.pow with faultN := false, tripN := false } }
  .next (if t.pow.pwrPending && t.pow.pwrEn && !t.pow.needCycle then t.startRails else t)

/-- Working phases of each rail (R418). -/
def railPhases : List Nat := [8, 4, 2, 6, 6, 12, 6, 36, 4]

/-- PHASE_FAILED (R420): the phase is shed and recorded in flash. -/
def execPhaseFailed (rail : Fin 9) (phase : Fin 38) (s : State) : Host.Outcome State Fault Refusal :=
  if !s.powered ∨ railPhases.getD rail.val 0 + 2 ≤ phase.val ∨ s.pow.badPhases.contains (rail.val, phase.val) then .next s
  else .next (({ s with pow := { s.pow with badPhases := s.pow.badPhases ++ [(rail.val, phase.val)] } }).report
    (mkReport 0x0062 (unitId 13 1) (rail.val + 1 + 16 * phase.val)))

/-- PLL_UNLOCK (R424): the root PLL or the reference is lost. -/
def execPllUnlock (s : State) : Host.Outcome State Fault Refusal :=
  if !s.powered ∨ s.pow.stage = .railsUp then .next s else
  let t := (s.report (mkReport 0x0063 (unitId 3 14) 0)).failModule 0x0063
  .next { t with pow := { t.pow with stage := .descending, needCycle := true, pwrPending := false } }

/-- The loops of power and temperature act: after the module failed the registers keep the values that it held (R412, R455). -/
def State.loops (s : State) : Bool := s.powered && s.pow.moduleFailed.isNone

/-- DROOP_STRETCH (R425): a stretch is counted. -/
def execDroopStretch (_dom : DroopDomain) (s : State) : Host.Outcome State Fault Refusal :=
  if !s.loops then .next s
  else .next { s with pow := { s.pow with stretches := if s.pow.stretches = BitVec.allOnes 32 then s.pow.stretches else s.pow.stretches + 1 } }

/-- A change that POWER_STATE reports is due at every LIVE partition (R433). -/
def State.powerDue (s : State) : State :=
  allParts.foldl (fun s p => if (s.partition p).mode = .live then s.setPartition p { s.partition p with powerDue := true } else s) s

/-- A new alert condition asserts ALERT_N (R441, R461). -/
def State.alertIf (s : State) (c : Bool) : State := if c then { s with err := { s.err with alertPin := true } } else s

/-- Posts what follows from a change of the transfer rate: H, the factors and the Atlas (R155, R164, R35). -/
def State.rateChanged (s : State) (before : Nat) : State :=
  if s.healthy = before then s else (s.refactor).atlasUpdate 7 0

/-- The decisions of one period of the cap loop (R427), on the mean power. -/
def capLoop (w : PowState) (p : Nat) : PowState :=
  let cap := 1200 + 25 * w.capStep
  let over8 := if cap < p ∧ w.duty = 8 then w.heldOver8 + 1 else 0
  let above := if cap < p then w.heldOver + 1 else 0
  let u100 := if p + 100 < cap then w.heldUnder100 + 1 else 0
  let u200 := if p + 200 < cap then w.heldUnder200 + 1 else 0
  let w := { w with
    heldOver8 := over8
    heldOver := above
    heldUnder100 := u100
    heldUnder200 := u200
    overCap := if cap < p ∧ w.overCap ≠ BitVec.allOnes 32 then w.overCap + 1 else w.overCap }
  if cap < p then
    let w := if 8 < w.duty then { w with duty := max 8 (w.duty - ceilDiv (p - cap) 50) }
      else if 10 ≤ over8 then { w with stageB := true } else w
    let w := if w.stageB ∧ 100 ≤ above then { w with stageC := true } else w
    if w.stageC ∧ 1000 ≤ above then { w with unreachable := true } else w
  else if p + 50 < cap then
    let w := if w.stageC ∧ 1000 ≤ u200 then { w with stageC := false }
      else if w.stageB ∧ 100 ≤ u100 then { w with stageB := false }
      else if ¬ w.stageB then { w with duty := min 64 (w.duty + 1) } else w
    { w with unreachable := false }
  else w

/-- The readings of a period of the input meter (R437). -/
def PowState.meter (w : PowState) (watts mv tenMa : BitVec 16) : PowState :=
  { w with watts := watts, inputMv := mv, current := tenMa, energy := w.energy + BitVec.ofNat 64 (100 * watts.toNat) }

/-- CAP_LOOP_PERIOD (R427, R437): one period, with the meter's readings, which alone go on after the module failed (R455). -/
def execCapLoopPeriod (watts mv tenMa : BitVec 16) (s : State) : Host.Outcome State Fault Refusal :=
  if !s.powered then .next s
  else if !s.loops then .next { s with pow := s.pow.meter watts mv tenMa } else
  let before := s.healthy
  let old := s.pow
  let w := (capLoop old watts.toNat).meter watts mv tenMa
  let s := { s with pow := w }
  let s := if w.unreachable && !old.unreachable then (s.report (mkReport 0x0068 (unitId 13 1) 0)).alertIf true else s
  let s := if old.duty ≠ w.duty ∨ old.stageB ≠ w.stageB ∨ old.stageC ≠ w.stageC ∨ old.unreachable ≠ w.unreachable then s.powerDue else s
  .next (s.rateChanged before)

/-- INPUT_OVERPOWER (R428): d is forced to 8. -/
def execInputOverpower (s : State) : Host.Outcome State Fault Refusal :=
  if !s.loops then .next s
  else if s.pow.duty = 8 then .next s
  else .next ({ s with pow := { s.pow with duty := 8 } }).powerDue

/-- A sensor (R421). -/
def State.sensor (s : State) (n : Nat) : Sensor := Tbl.get .unread s.pow.sensors n

/-- The thermal step of a group (0-22 regions, 23-46 stacks), and the readings since it moved (R430). -/
def State.thermal (s : State) (g : Nat) : Nat × Nat := Tbl.get (0, 10) s.pow.steps g

/-- Step of a sensor's group (R430). -/
def State.thermalStep (s : State) (g : Nat) : Nat := (s.thermal g).1

/-- Thresholds of a group's steps in °C (R430). -/
def thresholds (g : Nat) : List Int := if g < 23 then [95, 100, 105] else [85, 95]

/-- The sensors of a group (R421). -/
def sensorsOf (g : Nat) : List Nat := if g < 23 then (List.range 8).map (fun k => 0x800 + 8 * g + k) else [0x900 + (g - 23)]

/-- The highest temperature of a group's valid sensors, in 1/16 °C. -/
def State.groupTemp (s : State) (g : Nat) : Option Int :=
  (sensorsOf g).foldl (fun m n => match s.sensor n with
    | .temp t => some (match m with | some x => max x t | none => t)
    | _ => m) none

/-- The step that a group's temperature calls for (R430): up at a threshold, down only 3 °C below it. -/
def stepFor (ths : List Int) (cur : Nat) (t : Int) : Nat :=
  let up := (ths.filter (fun h => decide (16 * h ≤ t))).length
  let keep := ((ths.take cur).filter (fun h => decide (16 * (h - 3) < t))).length
  max up (min cur keep)

/-- The least step that failed sensors hold (R431). -/
def State.sensorHold (s : State) (g : Nat) : Nat :=
  let l := sensorsOf g
  if l.all (fun n => decide (s.sensor n = .bad)) then (if g < 23 then 3 else 2)
  else if l.any (fun n => decide (s.sensor n = .bad)) then 2 else 0

/-- Moves one group's step by at most one level per 1 ms, ten readings (R430). -/
def State.moveStep (s : State) (g : Nat) : State :=
  let (cur, since) := s.thermal g
  let want := max (match s.groupTemp g with | some t => stepFor (thresholds g) cur t | none => cur) (s.sensorHold g)
  let next := if since < 9 then cur else if cur < want then cur + 1 else if want < cur then cur - 1 else cur
  let s := { s with pow := { s.pow with steps := Tbl.set (0, 10) s.pow.steps g (next, if next = cur then min 10 (since + 1) else 0) } }
  if cur < next ∧ 2 ≤ next then s.report (mkReport 0x0065 (if g < 23 then unitId 2 g else unitId 12 (0x900 + (g - 23))) 0) else s

/-- Takes one reading (R430, R431). -/
def State.takeReading (s : State) (r : Reading) : State :=
  let n := r.sensor.toNat
  if ¬ ((0x800 ≤ n ∧ n ≤ 0x8B7) ∨ (0x900 ≤ n ∧ n ≤ 0x917)) then s else
  let v : Sensor := match r.value with
    | some t => if -640 ≤ t ∧ t ≤ 2400 then .temp t else .bad
    | none => .bad
  let fresh := decide (v = .bad) && decide (s.sensor n ≠ .bad)
  let s := { s with pow := { s.pow with sensors := Tbl.set .unread s.pow.sensors n v } }
  if fresh then s.report (mkReport 0x0066 (unitId 12 n) 0) else s

/-- The highest step of any region or stack (R433, R437). -/
def State.topStep (s : State) : Nat := (List.range 47).foldl (fun m g => max m (s.thermalStep g)) 0

/-- The stacks that a thermal limit holds at half rate (R430). -/
def State.thermalHalf (s : State) : BitVec 24 :=
  (List.range 24).foldl (fun m i => if 2 ≤ s.thermalStep (23 + i) then m ||| BitVec.ofNat 24 (2 ^ i) else m) 0

/-- SENSOR_READ (R430, R431): readings are taken and steps move. -/
def execSensorRead (readings : List Reading) (s : State) : Host.Outcome State Fault Refusal :=
  if !s.loops then .next s else
  let top := s.topStep
  let before := s.healthy
  let s := readings.foldl (fun s r => s.takeReading r) s
  let s := (List.range 47).foldl (fun s g => s.moveStep g) s
  let s := { s with mem := { s.mem with halfRate := s.thermalHalf } }
  let s := (if s.topStep ≠ top then s.powerDue else s).alertIf (decide (top = 0 ∧ s.topStep ≠ 0))
  .next (s.rateChanged before)

/-- THERMAL_TRIP (R432): THERMTRIP_N, and the rails open. -/
def execThermalTrip (sensor : BitVec 12) (s : State) : Host.Outcome State Fault Refusal :=
  if !s.powered then .next s else
  let t := (s.report (mkReport 0x0067 (unitId 12 sensor.toNat) sensor.toNat)).failModule 0x0067
  .next { t with pow := { t.pow with stage := .descending, needCycle := true, tripN := true, pwrPending := false, flash := t.pow.flash ++ [(0x0067, sensor.toNat)] } }

/-- The duty limit of a thermal step (R430). -/
def dutyOfStep (n : Nat) : Nat := if n = 0 then 64 else if n = 1 then 48 else if n = 2 then 24 else 8

/-- The thermal duty limit of an array in a slot: its region, its hub and the I/O die (R429, R430). -/
def State.dutyLimit (s : State) (slot : Nat) : Nat :=
  min (dutyOfStep (s.thermalStep (slot / 26))) (min (dutyOfStep (s.thermalStep (16 + slot / 104))) (dutyOfStep (s.thermalStep 22)))

/-- POWER_STATE (R433): the state current at the moment is posted. -/
def execPowerState (p : Fin 16) (s : State) : Host.Outcome State Fault Refusal :=
  let x := s.partition p
  if !s.up ∨ x.mode ≠ .live ∨ !x.powerDue then .next s else
  let held := x.floor.any (fun la => (s.slotOf la).any (fun n => decide (s.dutyLimit n < s.pow.duty)))
  let flags := (if s.pow.stageB then 1 else 0) + (if s.pow.stageC then 2 else 0) + (if s.pow.unreachable then 4 else 0) + (if held then 8 else 0)
  let s := s.setPartition p { x with powerDue := false }
  .next (s.postEvent p 0x0020 ([BitVec.ofNat 8 s.pow.duty, BitVec.ofNat 8 flags, BitVec.ofNat 8 s.topStep] ++ leBytes 2 (1200 + 25 * s.pow.capStep)))

/-- The charges of a 100 ms period (R434): a powered array's leakage, to the command that occupies it or else to the owner of its
floor; the events of each active core, to the partition that holds its grant; what nobody holds and all else, to PT0. DESIGN CHOICE:
they are charged at the period's end, by what then occupies each array. -/
def State.chargePeriod (s : State) (cores : List (Fin 160 × Nat)) (rest : Nat) : State :=
  let s := (List.range 384).foldl (fun (s : State) la =>
    if !(s.slotOf la).any (fun n => decide (s.domain n = .on)) then s else
    match (s.array la).occ with
    | some o => s.charge o.part (some o.cmd) .busy 1
    | none => match s.floorOf la with
      | some p => s.charge p none .idle 1
      | none => s.charge 0 none .idle 1) s
  let s := cores.foldl (fun (s : State) x =>
    if (s.core x.1.val).st ≠ 0 then s
    else s.charge ((allParts.find? (fun p => (s.partition p).cores.contains x.1.val)).getD 0) none .core x.2) s
  s.charge 0 none .rest rest

/-- ENERGY_CALIBRATION (R435): the period's charges, then k in thousandths, clamped to 0.8-1.25: the metered input energy over
the modelled total since the last calibration. -/
def execEnergyCalibration (cores : List (Fin 160 × Nat)) (rest : Nat) (s : State) : Host.Outcome State Fault Refusal :=
  if !s.up then .next s else
  let s := s.chargePeriod cores rest
  let uj := (s.pow.energy - s.energy.metered).toNat
  .next { s with
    pow := { s.pow with calibK := if s.energy.modelled = 0 then s.pow.calibK else max 800 (min 1250 (1000 * uj * 10 ^ 9 / s.energy.modelled)) }
    energy := { s.energy with modelled := 0, metered := s.pow.energy } }

/-- DOMAIN_SWITCH_ON (R422): the oldest request, while fewer than 8 domains come up. -/
def execDomainSwitchOn (s : State) : Host.Outcome State Fault Refusal :=
  match s.pow.queue with
  | [] => .next s
  | n :: t =>
    if !s.powered ∨ 8 ≤ (s.pow.domains.filter (fun x => decide (x.2 = .comingUp))).length then .next s
    else .next (({ s with pow := { s.pow with queue := t } }).setDomain n .comingUp)

/-- IDLE_ARRAY_POWER_OFF (R422): an array in no floor, not lent and under no bring-in is switched off. -/
def execIdleArrayPowerOff (slot : Fin 416) (s : State) : Host.Outcome State Fault Refusal :=
  match s.laOf slot.val with
  | none => .next s
  | some la =>
    if !s.up ∨ (s.floorOf la).isSome ∨ Tbl.get false s.chan.lent la ∨ s.domain slot.val ≠ .on then .next s
    else .next ((s.dropDomain slot.val).setArray la (s.array la).pass)

end Sys2Proof.Machine
end

