-- ==== Sys2Proof/Machine/Bringup.lean ====
section
/-! DEFINITION. The bring-up: security boot (13), die links, memory training, spare assignment, publication, and
the management controller's part (16, 17). -/

namespace Sys2Proof.Machine

/-- Bring-up goes on: nothing has stopped it (R448). -/
def State.bringing (s : State) : Bool := decide (s.pow.report = .none) && s.pow.moduleFailed.isNone

/-- ROOT_PLL_LOCK (R423, R443): PGOOD rises, and MODID is sampled as the module's number. -/
def execRootPllLock (modid : BitVec 12) (s : State) : Host.Outcome State Fault Refusal :=
  if s.pow.stage ≠ .railsUp ∨ !s.bringing then .next s else
  .next { s with
    pow := { s.pow with stage := .pllLocked, pgood := true, modid := modid }
    link := { s.link with number := modid } }

/-! ### Security boot (R365-R373) -/

/-- An image is valid for a TYPE (R366). -/
def imageValid (f : Fuses) (ty : Nat) (i : FwImage) : Bool :=
  decide (i.magic = 0x474D4946 ∧ i.ty.toNat = ty ∧ i.keyHash = f.rootHash ∧ (if ty = 1 then f.svnSp else f.svnRes) ≤ i.svn.toNat) && i.bodyOk && i.sigOk

/-- The bytes of an event-log entry at its index (R369). -/
def logBytes (index : Nat) (e : LogEntry) : List Byte :=
  leBytes 2 e.ty ++ [0, 0] ++ leBytes 4 index ++ digestBytes e.digest ++ leBytes 2 e.data.length ++ List.replicate 6 0 ++ e.data
    ++ List.replicate (8 * ceilDiv e.data.length 8 - e.data.length) 0

/-- The whole event log from an index on. -/
def logAll : Nat → List LogEntry → List Byte
  | _, [] => []
  | i, e :: t => logBytes i e ++ logAll (i + 1) t

/-- Appends an entry; the log digest follows (R370). -/
def SecState.addLog (x : SecState) (ty : Nat) (digest : BitVec 256) (data : List Byte) : SecState :=
  let e : LogEntry := ⟨ty, digest, data⟩
  { x with log := x.log ++ [e], digest := sha256 (digestBytes x.digest ++ logBytes x.log.length e) }

/-- VERSION and SVN of an image, as log data (R369). -/
def imageData (i : FwImage) : List Byte := leBytes 4 i.version.toNat ++ [i.svn]

/-- The alias certificate (R372): the cached one when it names the key, a new one while fuses are left. -/
def SecState.certify (x : SecState) (certOk : Bool) : SecState :=
  let k := Config.aliasKey x.digest
  let x := { x with aliasKey := some k, deviceId := Config.deviceId }
  if certOk then { x with certFor := some k }
  else if x.fuses.ident < 4096 then { x with fuses := { x.fuses with ident := x.fuses.ident + 1 }, certFor := some k }
  else { x with exhausted := true }

/-- Neither slot of a TYPE holds a valid image (R367, R448). -/
def State.bootFail (s : State) (ty : Nat) : State :=
  { s with pow := { s.pow with faultN := true, report := .bootFailed ty } }

/-- Steps 1-5 of R366 on the images found. -/
def State.bootRun (s : State) (b : BootImages) : State :=
  let f := s.sec.fuses
  let x := { s.sec with boot := some b, log := [], digest := 0, logClosed := false }
  let x := (x.addLog 1 0 (leBytes 4 b.rom.toNat)).addLog 2 f.rootHash [BitVec.ofNat 8 f.svnSp, BitVec.ofNat 8 f.svnRes, BitVec.ofNat 8 f.debug]
  match [b.spA, b.spB].find? (fun i => imageValid f 1 i) with
  | none => { s with sec := x }.bootFail 1
  | some sp =>
    let x := x.addLog 3 sp.headerDigest (imageData sp)
    match [b.resA, b.resB].find? (fun i => imageValid f 2 i) with
    | none => { s with sec := x }.bootFail 2
    | some res =>
      let x := ((x.addLog 4 res.headerDigest (imageData res)).certify b.certOk)
      { s with
        sec := { x with svns := (sp.svn.toNat, res.svn.toNat) }
        pow := { s.pow with stage := .booted, bootEpoch := s.pow.bootEpoch + 1, faultN := false, report := .none } }

/-- SECURITY_BOOT (R366). -/
def execSecurityBoot (b : BootImages) (s : State) : Host.Outcome State Fault Refusal :=
  if s.pow.stage ≠ .pllLocked ∨ !s.bringing then .next s else .next (s.bootRun b)

/-- RECOVERY_IMAGE (R367, R448): the image is checked in the place of the failed TYPE's, and bring-up resumes. -/
def execRecoveryImage (img : FwImage) (s : State) : Host.Outcome State Fault Refusal :=
  match s.pow.report, s.sec.boot with
  | .bootFailed ty, some b =>
    if s.pow.stage ≠ .pllLocked then .next s
    else .next (s.bootRun (if ty = 1 then { b with spA := img } else { b with resA := img }))
  | _, _ => .next s

/-! ### Events 6 to 9 of R445 -/

/-- A die that the flash record names stays fenced (R234). -/
def State.barDie (s : State) (d : Nat) : State :=
  let s := (s.setDie d ⟨.barred, false⟩).dropLinks d
  if d < 8 then (List.range 52).foldl (fun s i => s.setSlot (52 * d + i) { s.slot (52 * d + i) with st := 3 }) s
  else (List.range 80).foldl (fun s i => s.setCore (80 * (d - 12) + i) { s.core (80 * (d - 12) + i) with st := 3, running := false }) s

/-- The cores that firmware holds: the lowest cluster of each service die that is present (R25, R449). -/
def State.holdCores (s : State) : State :=
  (List.range 2).foldl (fun s d =>
    if (s.dieState (12 + d)).mode ≠ .present then s else
    (List.range 80).foldl (fun s i => s.setCore (80 * d + i) ⟨if i < 72 then 0 else 1, decide (i < 8), none, decide (i < 8), 0⟩) s) s

/-- Every link of a die that is to train comes up first; those that do not pass then go down (R230, R231). -/
def State.trainDieLinks (s : State) (ok mismatch : BitVec 22) : State :=
  let all := List.range 22
  let s := all.foldl (fun s l => if (s.d2d l).barred then s.barDie (linkEnds l).1 else s) s
  let off (s : State) (l : Nat) : Bool := decide ((s.dieState (linkEnds l).1).mode = .barred)
  let s := all.foldl (fun s l => if off s l then s else (s.freshGroups l).setD2d l ⟨.up, mismatch.getLsbD l, false, none⟩) s
  let s := all.foldl (fun s l => if ok.getLsbD l then s else s.linkDown l (if mismatch.getLsbD l then 0x0043 else 0x0042) 0) s
  s.holdCores

/-- DIE_LINK_TRAINING (R445 event 6): the internal links train, one retraining included, and the resident image is
released. -/
def execDieLinkTraining (ok mismatch : BitVec 22) (s : State) : Host.Outcome State Fault Refusal :=
  if s.pow.stage ≠ .booted ∨ !s.bringing then .next s else
  let t := s.trainDieLinks ok mismatch
  .next (if t.pow.report = .none then { t with pow := { t.pow with stage := .linked } } else t)

/-- Channels that pass training, on hubs that are present, are in service and fill the unit lists, but for those that left
service before (R140, R154). -/
def State.trainChannels (s : State) (channels : BitVec 384) : State :=
  let ok (u : Nat) : Bool := channels.getLsbD u && !s.mem.unitsLost.getLsbD u
  let up := (List.range 384).foldl (fun (m : BitVec 384) u => if ok u && s.hubUp (u / 96) then m ||| BitVec.ofNat 384 (2 ^ u) else m) 0
  let lost := (List.range 384).foldl (fun (m : BitVec 384) u => if s.hubUp (u / 96) && !channels.getLsbD u then m ||| BitVec.ofNat 384 (2 ^ u) else m) s.mem.unitsLost
  let s := { s with mem := { s.mem with unitsAtBoot := up, unitsUp := up, unitsLost := lost } }
  let s := s.countRetired
  (List.range 384).foldl (fun s u => if s.hubUp (u / 96) && !channels.getLsbD u then s.report (mkReport 0x0025 (unitId 4 u) 0) else s) s

/-- Slots that fail their built-in self-test are fenced (R17, R390). -/
def State.testSlots (s : State) (slots : BitVec 416) : State :=
  (List.range 416).foldl (fun s n =>
    if (s.dieState (n / 52)).mode ≠ .present then s.setSlot n { s.slot n with st := 3 }
    else if slots.getLsbD n then s
    else (s.report (mkReport 0x0012 (unitId 1 n) 4)).setSlot n { s.slot n with st := 3 }) s

/-- A core that fails is fenced, and the lowest-numbered healthy spare of its die takes its place. DESIGN CHOICE: R24 gives
no order among the spares. -/
def State.testCores (s : State) (cores : BitVec 160) : State :=
  let one (s : State) (n : Nat) : State :=
    if (s.dieState (12 + n / 80)).mode ≠ .present ∨ cores.getLsbD n then s else
    let c := s.core n
    let s := (s.report (mkReport 0x0039 (unitId 6 n) 0)).setCore n { c with st := 3, firmware := false, running := false }
    if 72 ≤ n % 80 then s else
    match (List.range 8).find? (fun i => decide ((s.core (80 * (n / 80) + 72 + i)).st = 1) && cores.getLsbD (80 * (n / 80) + 72 + i)) with
    | none => s
    | some i => s.setCore (80 * (n / 80) + 72 + i) ⟨0, c.firmware, some (n % 80), c.firmware, 0⟩
  (List.range 160).foldl one s

/-- The domains that stay on from bring-up (R422). -/
def State.bootDomains (s : State) : State :=
  let on (s : State) (n : Nat) (b : Bool) : State := if b then s.setDomain n .on else s
  let s := (List.range 32).foldl (fun s g => on s (416 + g) (s.hubUp (g / 8))) s
  let s := (List.range 20).foldl (fun s c => (on s (448 + c) ((List.range 8).any (fun i => decide ((s.core (8 * c + i)).st = 0)))).clusterUp (448 + c)) s
  let s := (List.range 24).foldl (fun s st => on s (468 + st) (s.hubUp (st / 6))) s
  on (on s 504 true) 505 true

/-- MEMORY_TRAINING (R445 event 7). -/
def execMemoryTraining (channels : BitVec 384) (slots : BitVec 416) (cores : BitVec 160) (s : State) : Host.Outcome State Fault Refusal :=
  if s.pow.stage ≠ .linked ∨ !s.bringing then .next s else
  let t := (((s.trainChannels channels).testSlots slots).testCores cores).bootDomains
  .next { t with pow := { t.pow with stage := .trained } }

/-- Steps 2 and 3 of R17 for a compute region: the 24 lowest healthy slots are bound. -/
def State.bindRegion (s : State) (r : Nat) : State :=
  let good := ((List.range 26).filter (fun k => decide ((s.slot (26 * r + k)).st ≠ 3))).take 24
  (good.zipIdx).foldl (fun s x =>
    let s := s.setSlot (26 * r + x.1) { s.slot (26 * r + x.1) with st := 0 }
    { s with atlas := { s.atlas with arrayMap := Tbl.set none s.atlas.arrayMap (24 * r + x.2) (some (26 * r + x.1)) } }) s

/-- Step 4 of R17 for a logical array that is unbound. -/
def State.bindSpare (s : State) (la : Nat) : State :=
  if (s.slotOf la).isSome then s else
  match s.findSpare la with
  | none => s.report (mkReport 0x0013 (unitId 1 (((List.range 26).map (fun k => 26 * homeRegion la + k)).find? (fun n => decide ((s.slot n).st = 3)) |>.getD (26 * homeRegion la))) 0)
  | some n =>
    let s := s.setSlot n { s.slot n with st := 0 }
    { s with atlas := { s.atlas with arrayMap := Tbl.set none s.atlas.arrayMap la (some n) } }

/-- SPARE_ASSIGNMENT (R17). -/
def execSpareAssignment (s : State) : Host.Outcome State Fault Refusal :=
  if s.pow.stage ≠ .trained ∨ !s.bringing then .next s else
  let t := (List.range 384).foldl (fun s la => s.bindSpare la) ((List.range 16).foldl (fun s r => s.bindRegion r) s)
  .next { t with pow := { t.pow with stage := .assigned } }

/-- The four highest present plots of band 46, lowest first (R449). -/
def State.bootPlots (s : State) : List Nat :=
  (((List.range 24).map (fun i => 1127 - i)).filter (fun p => !s.plotAbsent p)).take 4 |>.reverse

/-- The cores held for firmware, in order of the core that each stands for. -/
def State.firmwareCores (s : State) : List Nat :=
  ((List.range 2).map (fun d => (List.range 8).filterMap (fun i =>
    if (s.core (80 * d + i)).st = 0 then some (80 * d + i)
    else ((List.range 8).find? (fun k => decide ((s.core (80 * d + 72 + k)).replaced = some i))).map (fun k => 80 * d + 72 + k)))).flatten

/-- PT0 as firmware leaves it (R449): with a key of its own, plots of band 46, the channel table in the lowest of
them and the Atlas mirror in the highest. -/
def State.bootPT0 (s : State) : State :=
  let plots := s.bootPlots
  let hi := plots.getLastD 0
  let s := plots.foldl (fun s p => s.setPlot p (.granted 0 (if p = hi then 0xFFFF else 0))) s
  let s := (s.setPartition 0 { Partition.absent with mode := .live, cores := s.firmwareCores, credits := [16, 16, 16, 16], ceiling := s.healthy / 100 }).makeRegs 0
  let s := s.newRoot 0
  { s with
    mem := { s.mem with keys := Tbl.set none s.mem.keys 0 (some s.sec.nextKey) }
    sec := { s.sec with nextKey := s.sec.nextKey + 1 }
    atlas := { s.atlas with generation := 0, lastChange := 0, notify := 0, mirror := BitVec.ofNat 64 (hi * 2 ^ 30), chanTable := BitVec.ofNat 64 (plots.headD 0 * 2 ^ 30) } }

/-- Entries 4 and 5 of the event log, which then closes, and the security versions burned (R366, R368). The debug
bring-up leaves the log as it stood, and opens the debug port (R386). -/
def State.closeLog (s : State) : State :=
  let x := s.sec
  if x.debugBring then { s with sec := { x with debugBring := false, debugOpen := true } }
  else
    let d := sha256 s.atlasBytes
    let x := (x.addLog 5 d []).addLog 6 0 []
    { s with sec := { x with
      logClosed := true
      fuses := { x.fuses with svnSp := max x.fuses.svnSp (min 64 x.svns.1), svnRes := max x.fuses.svnRes (min 64 x.svns.2) } } }

/-- A port that is out of reset and whose link is up becomes ready when the Atlas is published (R330, R333, R445 event 10);
the first time after the release of its PERST it says so. -/
def State.readyPort (s : State) (n : Fin 2) : State :=
  let x := s.port n
  if x.released ∧ x.linkUp then
    let s := s.setPort n { x with ready := true, drs := false }
    if x.drs then s.emit (.drs n) else s
  else s

/-- ATLAS_PUBLISH (R445 events 9 and 10, R449). -/
def execAtlasPublish (s : State) : Host.Outcome State Fault Refusal :=
  if s.pow.stage ≠ .assigned ∨ !s.bringing then .next s else
  let t := s.bootPT0
  let t := { t with mem := { t.mem with factor := (List.range 4).foldl (fun f h => Tbl.set 65536 f h (t.factorOf h)) [] } }
  let t := t.closeLog
  let (nonce, t) := t.freeVal 256
  let t := { t with sec := { t.sec with nonce := nonce }, pow := { t.pow with stage := .published } }
  .next (((t.mirrorWrite.postEvent 0 0x0001 (leBytes 8 0 ++ leBytes 4 0)).readyPort 0).readyPort 1)

/-- BRINGUP_STALLED (R448): an event passes its time. Without the root PLL the rails descend and nothing is
reported. -/
def execBringupStalled (event : Fin 11) (s : State) : Host.Outcome State Fault Refusal :=
  if s.pow.stage.awaits ≠ some event.val ∨ !s.bringing then .next s
  else if event = 3 then .next { s with pow := { s.pow with faultN := true, stage := .descending, needCycle := true, pwrPending := false } }
  else .next { s with pow := { s.pow with faultN := true, report := .stalled event.val } }

/-! ### The management controller (R461) -/

/-- The management controller answers from event 4 of R445 until the rails descend. -/
def Stage.managed : Stage → Bool
  | .unpowered => false
  | .softStart => false
  | .rails _ => false
  | .railsUp => false
  | .descending => false
  | _ => true

/-- ALERT of the GET_STATUS response. -/
def State.alertByte (s : State) : Nat :=
  (if s.err.alertUnread then 1 else 0) + (if 0 < s.topStep then 2 else 0) + (if s.pow.unreachable then 4 else 0)

/-- REPORT and DETAIL of the GET_STATUS response. -/
def MgmtReport.code : MgmtReport → Nat × Nat
  | .none => (0, 0)
  | .bootFailed ty => (1, ty)
  | .stalled e => (2, e)
  | .failed c => (3, c)

/-- The bytes of the GET_STATUS response. -/
def State.statusBytes (s : State) : List Byte :=
  let (r, d) := s.pow.report.code
  [0] ++ leBytes 2 r ++ leBytes 2 d ++ [BitVec.ofNat 8 s.alertByte, BitVec.ofNat 8 s.topStep, 0]
    ++ leBytes 8 (if s.pow.stage = .pllLocked then 0 else s.pow.bootEpoch.toNat)

/-- GET_STATUS (R461): answered on the bus that asked; the response releases ALERT_N. -/
def execGetStatus (bus : Fin 2) (cmd : Byte) (s : State) : Host.Outcome State Fault Refusal :=
  if !s.pow.stage.managed then .next s
  else if cmd ≠ 1 then .next (s.emit (.mctp bus [0xFF]))
  else .next ({ s with err := { s.err with alertUnread := false, alertPin := false } }.emit (.mctp bus s.statusBytes))

end Sys2Proof.Machine
end

