-- ==== Sys2Proof/Machine/Security.lean ====
section
/-! DEFINITION. The security calls and mailbox, attestation reports, streams between modules, the debug unlock, and
the registration of refill tables (13, 14 R402-R403). -/

namespace Sys2Proof.Machine

/-! ### Locked partitions (R377) -/

/-- Stops a channel that a lock turns off: DISABLED at once when idle, else when its commands have ended (R246). -/
def State.lockChannel (s : State) (ch : Fin 3072) : State :=
  let st := entState (s.entry ch)
  if st = 1 then s.stopChannel ch .lock 1 0
  else if st = 2 then (if (s.dyn ch).stop = some .reset then s else s.setDyn ch { s.dyn ch with stop := some .lock })
  else s.setEntry ch (setEntState (s.entry ch) 0)

/-- A partition is locked with a record: its channels on other functions are stopped and disabled (R377). -/
def State.lockWith (s : State) (p : Fin 16) (r : LockRecord) : State :=
  let s := s.setPartition p { s.partition p with lock := some r }
  ((s.chansOf p).filter (fun ch => !r.accepted.contains (entFn (s.entry ch)))).foldl (fun s ch => s.lockChannel ch) s

/-- Result of a security call of partition services (R379, R384). -/
def State.secResult (s : State) (r : Nat) : State := { s with chan := { s.chan with callResult := some r } }

/-- Security calls are taken from a partition that exists while firmware runs (R282, R386). -/
def State.callable (s : State) (p : Fin 16) : Bool := s.up && decide ((s.partition p).mode ≠ .absent)

/-- EXTEND (R379). -/
def execExtend (p : Fin 16) (d : BitVec 256) (s : State) : Host.Outcome State Fault Refusal :=
  if !s.callable p then .next s else
  let x := s.partition p
  .next ((s.setPartition p { x with measurement := sha256 (digestBytes x.measurement ++ digestBytes d) }).secResult 0)

/-- ACCEPTED of a lock call: up to 16 functions, 0xFFFF for none (R379). -/
def acceptedList (a : BitVec 256) : List (BitVec 16) := ((List.range 16).map (fun i => bits a (16 * i) 16)).filter (fun f => decide (f ≠ 0xFFFF))

/-- LOCK (R377, R379): the call replaces the whole record. -/
def execLock (p : Fin 16) (accepted : BitVec 256) (flags : Byte) (s : State) : Host.Outcome State Fault Refusal :=
  if !s.callable p then .next s
  else if 4 ≤ flags.toNat then .next (s.secResult 1)
  else .next ((s.lockWith p ⟨acceptedList accepted, flags.getLsbD 0, flags.getLsbD 1⟩).secResult 0)

/-! ### Reports (R380) -/

/-- LLC_PART_WAYS of a partition as a register word (R177). -/
def PartWays.word (w : PartWays) : Word := BitVec.ofNat 64 (w.mask.toNat + 2 ^ 16 * w.keepCap + 2 ^ 20 * w.keepLease + (if w.refused then 2 ^ 22 else 0))

/-- The DIGEST of an event-log entry. -/
def State.logDigest (s : State) (i : Nat) : BitVec 256 := (s.sec.log.getD i ⟨0, 0, []⟩).digest

/-- ACCEPTED as the report holds it. -/
def acceptedBytes (l : Option LockRecord) : List Byte :=
  let a := (l.map (·.accepted)).getD []
  ((List.range 16).map (fun i => leBytes 2 (a.getD i 0xFFFF).toNat)).flatten

/-- FLAGS of a report. -/
def reportFlags (l : Option LockRecord) (host : Bool) : Nat :=
  (if l.isSome then 1 else 0) + (if l.any (·.guest) then 2 else 0) + (if host then 4 else 0) + (if l.any (·.policy) then 8 else 0)

/-- Bytes [447:0] of the report of a partition (R380). -/
def State.reportBody (s : State) (p : Fin 16) (nonce : BitVec 256) (user : BitVec 512) (host : Bool) : List Byte :=
  let x := s.partition p
  let config := sha256 (((s.partWords p).map (fun w => leBytes 8 w.toNat)).flatten ++ leBytes 8 (s.ways p).word.toNat)
  leBytes 4 0x54535441 ++ leBytes 2 1 ++ leBytes 2 512 ++ leBytes 4 0x961 ++ [0xB0, BitVec.ofNat 8 p.val, BitVec.ofNat 8 (reportFlags x.lock host), BitVec.ofNat 8 s.sec.fuses.debug]
    ++ leBytes 8 s.pow.bootEpoch.toNat ++ [BitVec.ofNat 8 s.sec.fuses.svnSp, BitVec.ofNat 8 s.sec.fuses.svnRes] ++ List.replicate 6 0
    ++ digestBytes nonce ++ digestBytes s.sec.deviceId ++ digestBytes (s.logDigest 2) ++ digestBytes (s.logDigest 3) ++ digestBytes config
    ++ digestBytes x.measurement ++ digestBytes s.sec.digest ++ leBytes 64 user.toNat ++ acceptedBytes x.lock ++ List.replicate 96 0

/-- A signed report, or the code that refuses it (R372, R380, R386). -/
def State.signedReport (s : State) (p : Fin 16) (nonce : BitVec 256) (user : BitVec 512) (host : Bool) : Except Nat (List Byte) :=
  if (s.partition p).mode = .absent then .error 1 else
  match s.sec.aliasKey with
  | none => .error 3
  | some k =>
    if s.sec.exhausted ∨ s.sec.debugOpen then .error 3 else
    let b := s.reportBody p nonce user host
    .ok (b ++ (Config.sign k b ++ List.replicate 64 0).take 64)

/-- REPORT (R379, R380): the report is written at the address given. -/
def execReport (p : Fin 16) (nonce : BitVec 256) (user : BitVec 512) (va : BitVec 57) (s : State) : Host.Outcome State Fault Refusal :=
  if !s.callable p then .next s else
  match s.signedReport p nonce user false with
  | .error r => .next (s.secResult r)
  | .ok b =>
    let (ok, s) := s.svcWrite p va.toNat b
    .next (s.secResult (if ok then 0 else 1))

/-! ### SHARE (R375, R376) -/

/-- Lines on their way to the array, of those that a condition names, will not enter the L1 (R171, R172). -/
def ArrayState.noFill (a : ArrayState) (f : Nat → Bool) : ArrayState :=
  { a with groups := a.groups.map (fun g => { g with loads := g.loads.map (fun o => { o with parts := o.parts.map (fun p => if f p.line then { p with fill := false } else p) }) }) }

/-- Translations of a plot made for partitions that lose it are dropped, and the L1 of every array that holds a command
of such a partition is invalidated (R376). -/
def State.unshare (s : State) (plot : Nat) (lost : BitVec 16) : State :=
  let s := { s with mem := { s.mem with
    tlb := s.mem.tlb.filter (fun t => !(lost.getLsbD t.part.val && decide (field t.leaf 10 44 / 262144 = plot))) } }
  { s with arr := s.arr.map (fun x => if x.2.occ.any (fun o => lost.getLsbD o.part.val) then (x.1, ArrayState.noFill { x.2 with l1 := [] } (fun _ => true)) else x) }

/-- Sets READ_MASK of a range of plots of a partition; SEC_BAD_REQUEST when the range names another plot. -/
def State.share (s : State) (p : Fin 16) (first count : Nat) (mask : BitVec 16) : Nat × State :=
  let plots := laRange first count
  if count = 0 ∨ 1128 < first + count ∨ plots.any (fun q => !(s.plotsOf p).contains q) then (1, s)
  else (0, plots.foldl (fun s q => match s.plot q with
    | .granted o m => (s.setPlot q (.granted o mask)).unshare q (m &&& ~~~mask)
    | _ => s) s)

/-! ### The mailbox (R383) -/

/-- n bytes of a mailbox buffer from a place. -/
def PortState.mboxBytes (x : PortState) (off n : Nat) : List Byte := (List.range n).map (fun i => Tbl.get 0 x.mbox (off + i))

/-- A little-endian field of the request. -/
def PortState.mboxNat (x : PortState) (off n : Nat) : Nat := leNat (x.mboxBytes off n)

/-- A command completes: RESULT, RESP_LENGTH and the response (R383). -/
def State.mboxDone (s : State) (n : Fin 2) (result : Nat) (resp : List Byte) : State :=
  let x := s.port n
  let (_, t) := resp.foldl (fun (y : Nat × Tbl Byte) b => (y.1 + 1, Tbl.set 0 y.2 y.1 b)) (0, x.mbox)
  s.setPort n { x with mboxBusy := false, mboxResult := result, mboxLen := resp.length, mbox := t }

/-- A mailbox command is taken: the module runs, the port is ready, and no command of the port is in progress
(R383). -/
def State.mboxTakes (s : State) (n : Fin 2) : Bool := s.barServes n 0 && !(s.port n).mboxBusy

/-- GET_EVENT_LOG (R383). -/
def State.mboxLog (s : State) (n : Fin 2) (len : Fin 8192) : State :=
  if !s.mboxTakes n then s
  else if len.val < 4 ∨ 4096 < len.val then (s.mboxDone n 1 []) else
  let log := logAll 0 s.sec.log
  (s.mboxDone n 0 (leBytes 4 log.length ++ (log.drop ((s.port n).mboxNat 0 4)).take 4088))

/-- GET_EVENT_LOG (R383). -/
def execGetEventLog (n : Fin 2) (len : Fin 8192) (s : State) : Host.Outcome State Fault Refusal := .next (s.mboxLog n len)

/-- GET_REPORT (R380, R383): REQUESTER_HOST is set. -/
def State.mboxReport (s : State) (n : Fin 2) (len : Fin 8192) : State :=
  if !s.mboxTakes n then s else
  let x := s.port n
  if len.val < 104 ∨ 4096 < len.val ∨ 16 ≤ x.mboxNat 0 1 then (s.mboxDone n 1 []) else
  match s.signedReport (toPart (x.mboxNat 0 1)) (BitVec.ofNat 256 (x.mboxNat 8 32)) (BitVec.ofNat 512 (x.mboxNat 40 64)) true with
  | .error r => (s.mboxDone n r [])
  | .ok b => (s.mboxDone n 0 b)

/-- GET_REPORT (R380, R383). -/
def execGetReport (n : Fin 2) (len : Fin 8192) (s : State) : Host.Outcome State Fault Refusal := .next (s.mboxReport n len)

/-- The certificate chain of slot 0 (R371, R381). -/
def State.certChain (s : State) : List Byte := match s.sec.certFor with
  | some k => Config.chain k
  | none => []

/-- GET_CERTS (R383). -/
def State.mboxCerts (s : State) (n : Fin 2) (len : Fin 8192) : State :=
  if !s.mboxTakes n then s
  else if len.val < 2 ∨ 4096 < len.val then (s.mboxDone n 1 [])
  else (s.mboxDone n 0 ((s.certChain.drop ((s.port n).mboxNat 0 2)).take 4096))

/-- GET_CERTS (R383). -/
def execGetCerts (n : Fin 2) (len : Fin 8192) (s : State) : Host.Outcome State Fault Refusal := .next (s.mboxCerts n len)

/-- SHARE by the mailbox of a port (R383): refused for a LOCKED partition (R378). -/
def State.shareMailbox (s : State) (n : Fin 2) (len : Nat) : State :=
  if !s.mboxTakes n then s else
  let x := s.port n
  let p := toPart (x.mboxNat 0 1)
  if len < 8 ∨ 4096 < len ∨ 16 ≤ x.mboxNat 0 1 ∨ (s.partition p).mode = .absent then s.mboxDone n 1 []
  else if (s.partition p).lock.isSome then s.mboxDone n 2 []
  else
    let (r, s) := s.share p (x.mboxNat 2 2) (x.mboxNat 4 2) (BitVec.ofNat 16 (x.mboxNat 6 2))
    s.mboxDone n r []

/-- SHARE (R375, R376, R379, R383). -/
def execShare (who : ShareCaller) (s : State) : Host.Outcome State Fault Refusal :=
  match who with
  | .mailbox n len => .next (s.shareMailbox n len.val)
  | .services p first count mask =>
    if !s.callable p then .next s else
    let (r, s) := s.share p first.toNat count.toNat mask
    .next (s.secResult r)

/-- LINK_POLICY (R379): the entries are read at the address given. -/
def execLinkPolicy (p : Fin 16) (va : BitVec 57) (count : Byte) (s : State) : Host.Outcome State Fault Refusal :=
  if !s.callable p then .next s
  else if 16 < count.toNat then .next (s.secResult 1) else
  match s.svcRead p va.toNat (64 * count.toNat) with
  | (some b, s) =>
    let l := (List.range count.toNat).map (fun i => (BitVec.ofNat 256 (leNat ((b.drop (64 * i)).take 32)), BitVec.ofNat 256 (leNat ((b.drop (64 * i + 32)).take 32))))
    .next ((s.setPartition p { s.partition p with policy := l }).secResult 0)
  | (none, s) => .next (s.secResult 1)

/-! ### Streams (R382) -/

/-- The lowest number below 1,024 that a table does not list. -/
def lowestFree {α : Type} (t : Tbl (Option α)) : Option Nat := (List.range 1024).find? (fun i => (Tbl.get none t i).isNone)

/-- The two requests match and every condition of R382 holds. -/
def State.openAgrees (s : State) (o : OpenReq) (q : PeerOpen) : Bool :=
  let x := s.partition o.part
  decide (q.peer = o.peer ∧ q.theirPart = o.peerPart ∧ q.ourPart = o.part) && q.chainOk && q.policyOk && decide (x.mode = .live)
  && (x.lock.isNone || x.policy.contains (q.deviceId, q.measurement))

/-- Opens the pair of streams of a request that agrees with the peer's (R382, R354, R355). -/
def State.openStreams (s : State) (o : OpenReq) (q : PeerOpen) : State :=
  match lowestFree s.link.tx, lowestFree s.link.rx with
  | some t, some r =>
    let k := s.sec.nextKey
    let s := { s with
      sec := { s.sec with
        nextKey := k + 2
        opens := s.sec.opens.filter (fun x => decide (x ≠ o))
        peerOpens := s.sec.peerOpens.filter (fun x => decide (x ≠ q)) }
      link := { s.link with
        tx := Tbl.set none s.link.tx t (some ⟨o.peer, o.part, o.peerPart, BitVec.ofNat 10 q.rx.val, 0, k⟩)
        rx := Tbl.set none s.link.rx r (some ⟨o.peer, o.part, o.peerPart, 0, 0, 0, 0, k + 1⟩) } }
    s.mboxDone o.port 0 (leBytes 2 t ++ leBytes 2 r)
  | _, _ => { s with sec := { s.sec with opens := s.sec.opens.filter (fun x => decide (x ≠ o)) } }.mboxDone o.port 5 []

/-- Opens what can be opened. -/
def State.tryOpens (s : State) : State :=
  s.sec.opens.foldl (fun s o => match s.sec.peerOpens.find? (fun q => s.openAgrees o q) with
    | some q => s.openStreams o q
    | none => s) s

/-- The partition has a transmit stream to the module (R354). -/
def State.hasStream (s : State) (p : Fin 16) (m : BitVec 12) : Bool := s.link.tx.any (fun x => x.2.any (fun t => decide (t.part = p ∧ t.peer = m)))

/-- STREAM_OPEN (R382, R383): it waits for the peer's own request. -/
def State.mboxOpen (s : State) (n : Fin 2) (len : Fin 8192) : State :=
  if !s.mboxTakes n then s else
  let x := s.port n
  let p := toPart (x.mboxNat 0 1)
  let m := BitVec.ofNat 12 (x.mboxNat 2 2)
  let q := toPart (x.mboxNat 4 1)
  if len.val < 5 ∨ 4096 < len.val ∨ 16 ≤ x.mboxNat 0 1 ∨ 4096 ≤ x.mboxNat 2 2 ∨ 16 ≤ x.mboxNat 4 1 ∨ (s.partition p).mode ≠ .live then (s.mboxDone n 1 [])
  else if s.sec.debugOpen then (s.mboxDone n 4 [])
  else if s.hasStream p m ∨ (lowestFree s.link.tx).isNone ∨ (lowestFree s.link.rx).isNone then (s.mboxDone n 5 [])
  else
    let s := (s.setPort n { x with mboxBusy := true }).emit (.peer m true p q)
    ({ s with sec := { s.sec with opens := s.sec.opens ++ [OpenReq.mk n p m q] } }).tryOpens

/-- STREAM_OPEN (R382, R383). -/
def execStreamOpen (n : Fin 2) (len : Fin 8192) (s : State) : Host.Outcome State Fault Refusal := .next (s.mboxOpen n len)

/-- STREAM_OPEN_TIMEOUT (R383): SEC_PEER_REFUSED after 10 s. The peer's request, if any came, is out of time too. -/
def execStreamOpenTimeout (n : Fin 2) (s : State) : Host.Outcome State Fault Refusal :=
  match s.sec.opens.find? (fun o => decide (o.port = n)) with
  | none => .next s
  | some o => .next ({ s with sec := { s.sec with
      opens := s.sec.opens.filter (fun x => decide (x ≠ o))
      peerOpens := s.sec.peerOpens.filter (fun q => !decide (q.peer = o.peer ∧ q.theirPart = o.peerPart ∧ q.ourPart = o.part)) } }.mboxDone n 4 [])

/-- Closes the pair of streams between a partition and a peer's (R382). -/
def State.closePair (s : State) (m : BitVec 12) (p q : Fin 16) : State :=
  { s with link := { s.link with
    tx := s.link.tx.filter (fun x => x.2.all (fun t => !decide (t.peer = m ∧ t.part = p ∧ t.peerPart = q)))
    rx := s.link.rx.filter (fun x => x.2.all (fun t => !decide (t.peer = m ∧ t.part = p ∧ t.peerPart = q))) } }

/-- STREAM_CLOSE (R382, R383): the transmit stream named and its pair. -/
def State.mboxClose (s : State) (n : Fin 2) (len : Fin 8192) : State :=
  if !s.mboxTakes n then s else
  if len.val < 2 ∨ 4096 < len.val then (s.mboxDone n 1 []) else
  match Tbl.get none s.link.tx ((s.port n).mboxNat 0 2) with
  | none => (s.mboxDone n 1 [])
  | some t => (((s.closePair t.peer t.part t.peerPart).emit (.peer t.peer false t.part t.peerPart)).mboxDone n 0 [])

/-- STREAM_CLOSE (R382, R383). -/
def execStreamClose (n : Fin 2) (len : Fin 8192) (s : State) : Host.Outcome State Fault Refusal := .next (s.mboxClose n len)

/-- PEER_STREAM_MESSAGE (R382): the peer's request, or its close of the pair that feeds a receive stream here. -/
def execPeerStreamMessage (m : PeerMessage) (s : State) : Host.Outcome State Fault Refusal :=
  if !s.up ∨ s.sec.debugOpen then .next s else
  match m with
  | .opens module theirPart ourPart chainOk deviceId measurement theirLocked policyOk theirRx =>
    let q : PeerOpen := ⟨module, theirPart, ourPart, chainOk, deviceId, measurement, !theirLocked || policyOk, theirRx⟩
    let l := s.sec.peerOpens.filter (fun x => !decide (x.peer = module ∧ x.theirPart = theirPart ∧ x.ourPart = ourPart))
    .next ({ s with sec := { s.sec with peerOpens := l ++ [q] } }).tryOpens
  | .closes module rx =>
    match Tbl.get none s.link.rx rx.val with
    | none => .next s
    | some r => .next (if r.peer = module then s.closePair module r.part r.peerPart else s)

/-! ### Debug (R385, R386) -/

/-- The debug bring-up starts at event 6 of R445 (R386): keys erased, every Module and Port register at its reset
value, one more BOOT_EPOCH. -/
def State.debugReset (s : State) : State :=
  let ide (x : PortState) : List IdeStream := x.ide.map (fun i => { i with keyed := false, insecure := true })
  { State.reset with
    mem := { MemState.reset with retired := s.mem.retired, unitsLost := s.mem.unitsLost }
    host := { HostState.reset with
      port0 := { PortState.reset with released := s.host.port0.released, drs := s.host.port0.drs, linkUp := s.host.port0.linkUp, width := s.host.port0.width, rate := s.host.port0.rate, flit := s.host.port0.flit, ide := ide s.host.port0 }
      port1 := { PortState.reset with released := s.host.port1.released, drs := s.host.port1.drs, linkUp := s.host.port1.linkUp, width := s.host.port1.width, rate := s.host.port1.rate, flit := s.host.port1.flit, ide := ide s.host.port1 } }
    link := { LinkState.reset with
      number := s.pow.modid
      d2d := (s.link.d2d.filter (fun x => x.2.barred)).map (fun x => (x.1, ⟨.down, false, true, none⟩)) }
    sec := { s.sec with
      fuses := { s.sec.fuses with debug := s.sec.fuses.debug + 1 }
      aliasKey := none
      sessions := []
      opens := []
      peerOpens := []
      debugRefused := false
      debugBring := true
      haltedCores := [] }
    err := { ErrState.reset with alertUnread := s.err.alertUnread, alertPin := s.err.alertPin }
    pow := { PowState.reset with
      inputOk := s.pow.inputOk
      charged := s.pow.charged
      inputMv := s.pow.inputMv
      pwrEn := s.pow.pwrEn
      stage := .booted
      pgood := true
      modid := s.pow.modid
      bootEpoch := s.pow.bootEpoch + 1
      badPhases := s.pow.badPhases
      sensors := s.pow.sensors
      steps := s.pow.steps
      flash := s.pow.flash }
    out := s.out
    freeCount := s.freeCount
    pending := s.pending }

/-- UNLOCK (R386): the token in SEC_MBOX_DATA. `sigOk` says that its layout, signature and DEVICE_ID verify. -/
def execUnlock (n : Fin 2) (sigOk : Bool) (keyHash nonce : BitVec 256) (s : State) : Host.Outcome State Fault Refusal :=
  if !s.barServes n 0 ∨ s.sec.debugBring then .next s
  else if sigOk ∧ keyHash = s.sec.fuses.rootHash ∧ nonce = s.sec.nonce ∧ s.sec.fuses.debug < 32 then .next s.debugReset
  else
    let (fresh, s) := s.freeVal 256
    .next { s with sec := { s.sec with debugRefused := true, nonce := fresh } }

/-- A group of an array, while it is resident. -/
def State.groupAt (s : State) (la cohort : Nat) (num : Fin 16) : Option Group :=
  (s.array la).groups.find? (fun x => decide (x.cohort = cohort ∧ x.num = num))

/-- The group of a reference, while it is resident. -/
def State.groupOf (s : State) (g : GroupRef) : Option Group := s.groupAt g.la.val g.cohort g.group

/-- Replaces a group of an array, by its cohort and number. -/
def ArrayState.putGroup (a : ArrayState) (g : Group) : ArrayState :=
  { a with groups := a.groups.map (fun x => if x.cohort = g.cohort ∧ x.num = g.num then g else x) }

/-- Replaces a group. -/
def State.putGroup (s : State) (la : Nat) (g : Group) : State := s.setArray la ((s.array la).putGroup g)

/-- The mode of an internal link as a number. -/
def LinkMode.code : LinkMode → Nat
  | .down => 0
  | .training _ _ _ => 1
  | .compare _ _ => 2
  | .up => 3

/-- DEBUG_TRANSPORT_ACCESS (R385, R441): zeros while locked; when open it reaches arrays, cores and links, never the
fuses, the security processor or the key slots. -/
def execDebugTransportAccess (a : DebugAccess) (s : State) : Host.Outcome State Fault Refusal :=
  if !s.powered then .next s
  else if !s.sec.debugOpen then .next (s.emit (.debug 0)) else
  match a.target with
  | .threadReg g lane reg =>
    match s.groupOf g with
    | none => .next (s.emit (.debug 0))
    | some x =>
      let k := 64 * reg.val + lane.val
      match a.write with
      | some v => .next (s.putGroup g.la.val { x with regs := Tbl.set 0 x.regs k v })
      | none => .next (s.emit (.debug (Tbl.get 0 x.regs k)))
  | .localStore la off =>
    let r := s.array la.val
    match a.write with
    | some v =>
      let p : Fin 16 := (r.occ.map (·.part)).getD 0
      .next (s.setArray la.val { r with ls := (List.range 4).foldl (fun t i => Tbl.set none t (off + i) (some (bits v (8 * i) 8, p))) r.ls })
    | none =>
      let (f, s) := s.freeVal 32
      .next (s.emit (.debug (BitVec.ofNat 32 (leNat ((List.range 4).map (fun i => ((Tbl.get none r.ls (off + i)).map (·.1)).getD (bits f (8 * i) 8))))))) 
  | .coreRun core =>
    match a.write with
    | some v =>
      let s := { s with sec := { s.sec with haltedCores := s.sec.haltedCores.filter (fun c => decide (c ≠ core.val)) ++ (if v.getLsbD 0 then [] else [core.val]) } }
      .next (s.setCore core.val { s.core core.val with running := v.getLsbD 0 })
    | none => .next (s.emit (.debug (if (s.core core.val).running then 1 else 0)))
  | .linkState l => .next (s.emit (.debug (BitVec.ofNat 32 (s.d2d l.val).mode.code)))
  | .protectedUnit => .next (s.emit (.debug 0))

/-! ### Refill tables (R402, R403) -/

/-- The pages of one table entry: those that translate to the partition's own plots. -/
def State.refillEntry (s : State) (p : Fin 16) (b : List Byte) : List RefillPage × State :=
  let base := leNat (b.take 8)
  let len := leNat ((b.drop 8).take 8)
  let src := leNat ((b.drop 16).take 8)
  let fn := BitVec.ofNat 16 (leNat ((b.drop 24).take 2))
  let pasid := BitVec.ofNat 20 (leNat ((b.drop 28).take 4))
  if base % 4096 ≠ 0 ∨ len = 0 ∨ len % 4096 ≠ 0 ∨ 2 ^ 41 ≤ len then ([], s) else
  (List.range (len / 4096)).foldl (fun (x : List RefillPage × State) i =>
    match x.2.translate p (base + 4096 * i) false with
    | (.pool pa, s) => if s.owns p (pa / 128) then (x.1 ++ [⟨pa / 4096, p, BitVec.ofNat 64 (src + 4096 * i), fn, pasid⟩], s) else (x.1, s)
    | (_, s) => (x.1, s)) ([], s)

/-- The entries of a table in turn. -/
def State.refillEntries (s : State) (p : Fin 16) (b : List Byte) : Nat → Nat → List RefillPage × State
  | _, 0 => ([], s)
  | i, n + 1 =>
    let (l, s) := s.refillEntry p ((b.drop (32 * i)).take 32)
    let (t, s) := State.refillEntries s p b (i + 1) n
    (l ++ t, s)

/-- Registers the table at an address: it replaces what the partition had registered (R403). A table that cannot be
read, or whose COUNT exceeds 256, registers nothing. -/
def State.refillRegister (s : State) (p : Fin 16) (va : Nat) : Bool × State :=
  if va = 0 then (true, { s with mem := { s.mem with refillBase := Tbl.set 0 s.mem.refillBase p.val 0, refillPages := s.mem.refillPages.filter (fun r => decide (r.owner ≠ p)) } }) else
  match s.svcRead p va 32 with
  | (some h, s) =>
    let n := leNat (h.take 4)
    if 256 < n then (false, s) else
    match s.svcRead p (va + 32) (32 * n) with
    | (some b, s) =>
      let (l, s) := s.refillEntries p b 0 n
      (true, { s with mem := { s.mem with
        refillBase := Tbl.set 0 s.mem.refillBase p.val (BitVec.ofNat 64 va)
        refillPages := s.mem.refillPages.filter (fun r => decide (r.owner ≠ p)) ++ l } })
    | (none, s) => (false, s)
  | (none, s) => (false, s)

/-- ERR_REFILL_TABLE's REFUSED of a partition. -/
def State.setRefillRefused (s : State) (p : Fin 16) (b : Bool) : State :=
  { s with mem := { s.mem with refillRefused := Tbl.set false s.mem.refillRefused p.val b } }

/-- A write of ERR_REFILL_TABLE (R398, R403). -/
def State.writeRefill (s : State) (n : Fin 2) (v : Word) : State :=
  let p := toPart (s.port n).refillSelect.toNat
  let s := if v.getLsbD 0 then s.setRefillRefused p false else s
  if (s.partition p).mode = .absent then s
  else if (s.partition p).lock.isSome then s.setRefillRefused p true
  else (s.refillRegister p (v.toNat / 64 * 64)).2

/-- REFILL_TABLE_REGISTER (R398, R403). -/
def execRefillTableRegister (who : RefillCaller) (s : State) : Host.Outcome State Fault Refusal :=
  match who with
  | .host n v => .next (if s.barServes n 0 then s.writeRefill n v else s)
  | .services p va =>
    if !s.callable p then .next s else
    let (ok, s) := s.refillRegister p va.toNat
    .next { s with chan := { s.chan with callResult := some (if ok then 0 else 2) } }

end Sys2Proof.Machine
end

