-- ==== Sys2Proof/Machine/Controllers.lean ====
section
/-! DEFINITION. The channel controllers: ECC and its outcomes, retirement, scrub, refill, arbitration, regulators
and churns (05, 14 R400-R405), and the collector's sentry entries (04 R134). -/

namespace Sys2Proof.Machine

/-! ### Refill (R400-R405) -/

/-- A command that reads a page under refill is killed and held from dispatch (R404 step 2). -/
def State.refillKill (s : State) (c : Cmd) (page : Nat) : State :=
  match Tbl.get none s.mem.refilling page with
  | none => s
  | some r =>
    if c.stage ≠ .running then s else
    let s := { s with mem := { s.mem with refilling := Tbl.set none s.mem.refilling page (some { r with killed := r.killed + 1, parts := r.parts ||| partBit c.part }) } }
    if c.isSealed then s.endCmd c 6 0 else s.killCmd { c with refillHeld := some page, parkKills := 0 } none

/-- A command of which an operation failed after its engines had finished has not committed (R169, R358). -/
def Cmd.unfinished (c : Cmd) : Cmd := if c.stage = .finished then { c with stage := .running } else c

/-- A command consumed poison where nothing parks (R400, R401, R404). -/
def State.consumePoison (s : State) (c : Cmd) (granule : Nat) (reporter : BitVec 16) : State :=
  if s.isRefilling (granule / 64) then s.refillKill c (granule / 64)
  else (s.poisonRead c.part granule reporter).killPoison c

/-- Ends a refill: held commands return to dispatch (R404 step 5). -/
def State.refillEnd (s : State) (page : Nat) : State :=
  { s with
    mem := { s.mem with refilling := Tbl.set none s.mem.refilling page none }
    chan := { s.chan with cmds := s.chan.cmds.map (fun c => if c.refillHeld = some page then { c with refillHeld := none } else c) } }

/-- The retirement of the page of a refill: the source data takes the place of the copy, in whole granules (R404 step 4,
R405). -/
def State.refillWrite (s : State) (page : Nat) (b : List Byte) : State :=
  let s := (List.range 32).foldl (fun s i => s.writeBehind (32 * page + i) (setLineBytes 0 0 ((b.drop (128 * i)).take 128)) (BitVec.allOnes 128) 0) s
  s.retirePage (s.unitOf (32 * page)) (s.pageNow (32 * page))

/-- REFILL_SOURCE_READ (R404 steps 3 and 4): the source page arrives, or its read fails. -/
def execRefillSourceRead (page : Nat) (data : Option (List Byte)) (s : State) : Host.Outcome State Fault Refusal :=
  match Tbl.get none s.mem.refilling page, data with
  | some r, some b =>
    if b.length ≠ 4096 ∨ r.data.isSome then .next s else
    let s := s.refillWrite page b
    .next { s with mem := { s.mem with refilling := Tbl.set none s.mem.refilling page (some { r with data := some b }) } }
  | _, _ => .next s

/-- The record of a refill's end (R404 step 6). -/
def State.refillReport (s : State) (ty page : Nat) (r : Refilling) : State :=
  let owner := match s.refillOf page with
    | some x => partBit x.owner
    | none => 0
  s.report { mkReport ty (unitId 4 (s.project (4096 * page)).1) r.killed with parts := owner ||| r.parts, address := BitVec.ofNat 64 (4096 * page) }

/-- REFILL_COMPLETE (R404 steps 5 and 6). -/
def execRefillComplete (page : Nat) (s : State) : Host.Outcome State Fault Refusal :=
  match Tbl.get none s.mem.refilling page with
  | some r => if r.data.isNone then .next s else .next ((s.refillReport 0x0027 page r).refillEnd page)
  | none => .next s

/-- REFILL_FAILED (R405): the page stays poisoned, and held work proceeds. -/
def execRefillFailed (page : Nat) (s : State) : Host.Outcome State Fault Refusal :=
  match Tbl.get none s.mem.refilling page with
  | some r => .next ((s.refillReport 0x0028 page r).refillEnd page)
  | none => .next s

/-! ### Scrub and channels (R151, R154) -/

/-- SCRUB_READ (R151): a granule of a channel, by its channel-local number; data that was corrected, or that the decoder
took for corrected, is written back. With other requests in the queue the scrub read is one that has waited 2^16 clocks (step 1
of R156); with none it comes after them (step 6). -/
def execScrubRead (u : Fin 384) (granule : BitVec 26) (e : EccEvent) (s : State) : Host.Outcome State Fault Refusal :=
  let pg := granule.toNat / 64
  if !s.powered ∨ !s.unitUp u.val ∨ 786432 ≤ pg then .next s else
  match s.devicePage u.val pg with
  | none => .next (s.eccTake u.val pg none 0 e).2.2
  | some q =>
    let g := 64 * q + granule.toNat % 64
    if Tbl.get false s.mem.poison g then .next s else
    let good : BitVec 512 := bits (s.memLine (g / 2)).1 (512 * (g % 2)) 512
    let (d, bad, s) := s.eccTake u.val pg (some g) good e
    let back : Bool := match e with
      | .missedAsOne _ => true
      | .missedAsTwo _ => true
      | _ => false
    .next (if back && !bad then s.writeMem (g / 2) (putField 0 (512 * (g % 2)) 512 d.toNat) (byteMask (64 * (g % 2)) 64) 0 else s)

/-- CHANNEL_OUT_OF_SERVICE (R154): the channel leaves service, H and the factors follow, and the Atlas is updated. -/
def execChannelOutOfService (u : Fin 384) (s : State) : Host.Outcome State Fault Refusal :=
  if !s.up ∨ !s.unitUp u.val then .next s else
  let s := { s with mem := { s.mem with
    unitsUp := s.mem.unitsUp &&& ~~~(BitVec.ofNat 384 (2 ^ u.val))
    unitsLost := s.mem.unitsLost ||| BitVec.ofNat 384 (2 ^ u.val) } }
  let s := s.report (mkReport 0x0025 (unitId 4 u.val) 0)
  .next ((s.atlasUpdate 7 (s.partsWhere (fun x => x.sharesHub (u.val / 96)))).refactor)

/-- CHURN_OPERATION (R167-R169): the oldest operation of the channel whose request its controller has taken (R156, R159);
refused on poison, its command is killed and re-runs. -/
def execChurnOperation (u : ChurnTurn) (s : State) : Host.Outcome State Fault Refusal :=
  match s.mem.churn.find? (fun o => decide (o.unit = u.unit.val) && !s.mem.reqs.any (fun r => decide (r.seq = o.seq))) with
  | none => .next s
  | some o =>
    let (ok, s) := s.churnOne o u.ecc
    let s := { s with mem := { s.mem with churn := s.mem.churn.erase o } }
    if ok then .next s else
    let granule := 2 * o.line + o.off / 64
    match s.cmd o.cmd with
    | some c => .next (((s.setCmd c.unfinished).consumePoison c.unfinished granule (unitId 4 u.unit.val)).settleErrors c.ch)
    | none => .next (s.poisonRead o.part granule (unitId 4 u.unit.val))

/-! ### Arbitration and regulators (R156-R161) -/

/-- The level of a buffer's fill (R158). -/
def urgencyLevel (percent : Nat) : Nat := if percent < 50 then 0 else if percent < 75 then 1 else if percent < 90 then 2 else 3

/-- URGENCY_LEVEL_CHANGE (R158). -/
def execUrgencyLevelChange (m : RtMaster) (percent : Nat) (s : State) : Host.Outcome State Fault Refusal :=
  if !s.powered then .next s else
  let rest := s.mem.urgency.filter (fun x => decide (x.1 ≠ m))
  let l := urgencyLevel percent
  .next { s with mem := { s.mem with urgency := if l = 0 then rest else (m, l) :: rest } }

/-- The guarantee and ceiling of a partition at a hub in bytes per epoch, the guarantee scaled (R159, R164). -/
def State.regG (s : State) (h : Nat) (p : Fin 16) : Nat := (s.partition p).bytesPerEpoch h (s.partition p).guarantee * s.factor h / 65536

/-- The ceiling at a hub. -/
def State.regC (s : State) (h : Nat) (p : Fin 16) : Nat := (s.partition p).bytesPerEpoch h (s.partition p).ceiling

/-- The regulator's procedure at the end of an epoch (R160). -/
def Regulator.epoch (r : Regulator) (g c : Int) (fill : Nat) : Regulator :=
  let rate : Int :=
    if 48 ≤ fill then (if g < r.rate then r.rate - (r.rate - g).tdiv 4 else r.rate)
    else if fill < 32 then min c (r.rate + c.tdiv 64) else r.rate
  ⟨rate, min (r.tokens + rate) (2 * rate), 0⟩

/-- Waiting requests of a hub enter as they may, oldest first. -/
def State.enterAll (s : State) (h : Nat) : State := s.mem.reqs.foldl (fun s r => if r.unit / 96 = h then s.enterReq r else s) s

/-- REGULATOR_EPOCH (R160): at a hub, for a partition, with the mean occupancy of the hub's channel queues. -/
def execRegulatorEpoch (hub : Fin 4) (p : Fin 16) (fill : Nat) (s : State) : Host.Outcome State Fault Refusal :=
  let k := 16 * hub.val + p.val
  match Tbl.get none s.mem.regs k with
  | none => .next s
  | some r =>
    let r' := r.epoch (s.regG hub.val p) (s.regC hub.val p) fill
    .next (({ s with mem := { s.mem with regs := Tbl.set none s.mem.regs k (some r') } }).enterAll hub.val)

/-- The step of R156 in which a request competes, with the caps of the steps 2 and 3. -/
def State.stepOf (s : State) (u : Nat) (r : MemReq) : Nat :=
  let past := Tbl.get [] s.mem.served u
  let low := match Tbl.get none s.mem.regs (16 * (u / 96) + r.part.val) with
    | some g => if g.used < s.regG (u / 96) r.part then 5 else 6
    | none => 6
  match r.cls with
  | .core => if 16 ≤ ((past.take 63).filter (· = 3)).length then low else 3
  | .array => low
  | .master m => match s.urgencyOf m with
    | 3 => if 7 ≤ ((past.take 7).filter (· = 2)).length then low else 2
    | 2 => 4
    | _ => low

/-- The request that a channel takes next (R156), and its step. `rowHit` is the request, by its number, that hits an
open row. -/
def State.pickReq (s : State) (u : Nat) (rowHit : Option Nat) : Option (MemReq × Nat) :=
  let q := s.mem.reqs.filter (fun r => r.entered && decide (r.unit = u))
  match ([2, 3, 4, 5, 6] : List Nat).find? (fun k => q.any (fun r => decide (s.stepOf u r = k))) with
  | none => none
  | some k =>
    let c := q.filter (fun r => decide (s.stepOf u r = k))
    let r := (c.find? (fun r => decide (32 ≤ r.passed))).orElse fun _ =>
      (c.find? (fun r => decide (some r.seq = rowHit))).orElse fun _ => c.head?
    r.map (fun r => (r, k))

/-- A request leaves its queue as served in a step; those of the step that it passed are counted (R156, R160). -/
def State.takeReq (s : State) (u : Nat) (r : MemReq) (k : Nat) : State :=
  let reqs := (s.mem.reqs.filter (fun x => decide (x.seq ≠ r.seq))).map (fun x =>
    if x.entered ∧ x.unit = u ∧ x.seq < r.seq ∧ s.stepOf u x = k then { x with passed := x.passed + 1 } else x)
  let key := 16 * (u / 96) + r.part.val
  let regs := match Tbl.get none s.mem.regs key with
    | some g => Tbl.set none s.mem.regs key (some { g with used := g.used + r.bytes })
    | none => s.mem.regs
  { s with mem := { s.mem with reqs := reqs, regs := regs, served := Tbl.set [] s.mem.served u ((k :: Tbl.get [] s.mem.served u).take 64) } }

/-! ### Sentry records (R134) -/

/-- The bytes of a sentry record (R133). -/
def SentryRec.bytes (r : SentryRec) (dropped : Nat) : List Byte :=
  leBytes 4 r.ticket.toNat ++ [BitVec.ofNat 8 r.opClass, BitVec.ofNat 8 r.cause, r.fmtA, r.fmtB, r.fmtOut, r.slot] ++ leBytes 2 r.ch
    ++ leBytes 4 r.idx.toNat ++ leBytes 4 r.cohort ++ [BitVec.ofNat 8 r.group, BitVec.ofNat 8 r.part, BitVec.ofNat 8 r.lane, BitVec.ofNat 8 (min r.rerun 255)]
    ++ leBytes 4 r.patId.toNat ++ leBytes 4 dropped ++ leBytes 4 r.c0.toNat ++ leBytes 4 r.c1.toNat ++ leBytes 4 r.c2.toNat ++ [0, 0, 0, 0]
    ++ leBytes 8 r.pc.toNat ++ leBytes 8 r.stamp.toNat

/-- A park with the ticket stands on some array. -/
def State.ticketStands (s : State) (t : BitVec 32) : Bool := s.arr.any (fun x => x.2.parks.any (fun y => y.2.any (fun k => decide (k.ticket = t))))

/-- SENTRY_RECORD (R134): the collector takes the next record; it fills the partition's empty entry and is written, or is
counted. -/
def execSentryRecord (s : State) : Host.Outcome State Fault Refusal :=
  match s.err.sentry with
  | [] => .next s
  | (p, r) :: rest =>
    let s := { s with err := { s.err with sentry := rest } }
    let n := Tbl.get 0 s.err.sentryDropped p.val
    if (Tbl.get none s.err.sentryFull p.val).isSome then .next { s with err := { s.err with sentryDropped := Tbl.set 0 s.err.sentryDropped p.val (n + 1) } }
    else
      let full := if s.ticketStands r.ticket then some r.ticket else none
      let s := { s with err := { s.err with sentryFull := Tbl.set none s.err.sentryFull p.val full, sentryDropped := Tbl.set 0 s.err.sentryDropped p.val 0 } }
      .next (s.postFault p 2 (r.bytes n))

end Sys2Proof.Machine
end

