-- ==== Sys2Proof/Machine/Coherence.lean ====
section
/-! DEFINITION. The coherence protocol's commands: requests of the dies, snoops, responses and evictions, the
non-caching requests of arrays at their homes, stashing, sweeps, and the registers of ways and bands (05, 06). -/

namespace Sys2Proof.Machine

/-! ### Transactions (R175) -/

/-- Opens or replaces the transaction of a line. -/
def State.setTxn (s : State) (line : Nat) (t : Option Txn) : State := { s with mem := { s.mem with txns := Tbl.set none s.mem.txns line t } }

/-- Sends a snoop to a die. -/
def State.sendSnoop (s : State) (line : Nat) (d : Fin 2) (q : Snoop) : State :=
  { s with mem := { s.mem with snoops := Tbl.set none s.mem.snoops (dieKey line d) (some q) } }

/-- The dies that a home snoops for a condition on their records. -/
def State.snoopSet (s : State) (line : Nat) (f : DieRec → Bool) : Bool × Bool :=
  match s.llcFind line with
  | none => (false, false)
  | some l => (f l.rec0, f l.rec1)

/-- Snoops the dies named and opens the transaction that waits for their responses. -/
def State.openTxn (s : State) (line : Nat) (k : TxnKind) (q : Snoop) (w : Bool × Bool) : State :=
  let s := if w.1 then s.sendSnoop line 0 q else s
  let s := if w.2 then s.sendSnoop line 1 q else s
  s.setTxn line (some ⟨k, w.1, w.2, false⟩)

/-- The bit of a core in its die's copies (R186). -/
def coreBit (c : Fin 80) : BitVec 80 := BitVec.ofNat 80 (2 ^ c.val)

/-- The number in the module of a core of a die. -/
def coreNum (d : Fin 2) (c : Fin 80) : Nat := 80 * d.val + c.val

/-- An access of a service core is refused or meets poison: the core takes the access fault (R137, R375, R400). -/
def State.coreFault (s : State) (d : Fin 2) (line : Nat) (who : CoreAsk) : State :=
  s.emit (.coreFault (coreNum d who.core) who.fetch (2 * line + who.granule.val))

/-- A core reads its granule of a line that its die holds (R186, R400): the line enters its L2 and L1; a poisoned granule is
recorded and faults the core, and stays poisoned. -/
def State.coreTake (s : State) (d : Fin 2) (line : Nat) (p : Fin 16) (who : CoreAsk) : State :=
  match s.dieLine line d with
  | none => s
  | some c =>
    let s := s.setDieLine line d (some { c with l2 := c.l2 ||| coreBit who.core, l1 := c.l1 ||| coreBit who.core })
    if c.poison.getLsbD who.granule.val then
      (s.poisonRead p (2 * line + who.granule.val) (unitId 2 (coreNum d who.core))).coreFault d line who
    else s

/-- Supplies a line present in the slice to a die (R189): E when the request is unique or the other die ends in I. -/
def State.grantDie (s : State) (d : Fin 2) (line : Nat) (unique : Bool) : State :=
  match s.llcFind line with
  | none => s
  | some l =>
    let ex := unique || decide (l.recOf (otherDie d) = .i)
    (s.llcPut (l.setRec d (if ex then .x else .s))).setDieLine line d (some ⟨if ex then .e else .s, l.data, l.poison, 0, 0⟩)

/-- A core of a die writes bytes of a line that its die holds (R187): the die's copy is M with the bytes merged, whole granules
lose their poison, and no other core of the die keeps a copy. -/
def State.coreWrite (s : State) (d : Fin 2) (line : Nat) (who : CoreAsk) (w : Line) (m : BitVec 128) : State :=
  match s.dieLine line d with
  | none => s
  | some c => s.setDieLine line d (some ⟨.m, mergeLine c.data w m, poisonAfter c.poison m 0, coreBit who.core, coreBit who.core⟩)

/-- Grants M after an upgrade, and the core writes (R189, R187, R188). -/
def State.grantM (s : State) (d : Fin 2) (line : Nat) (who : CoreAsk) (w : Line) (m : BitVec 128) : State :=
  match s.llcFind line with
  | none => s
  | some l => (s.llcPut { l.setRec d .x with hd := .stale }).coreWrite d line who w m

/-- An upgrade whose die still holds its copy ends in M; one that an SnpI crossed acts as RdU (R193). -/
def State.endUpg (s : State) (d : Fin 2) (line : Nat) (p : Fin 16) (who : CoreAsk) (w : Line) (m : BitVec 128) : State :=
  if (s.llcFind line).any (fun l => decide (l.recOf d ≠ .i)) then s.grantM d line who w m
  else (s.grantDie d line true).coreTake d line p who

/-! ### Non-caching requests of arrays (R190) -/

/-- Replaces a home request, by its number. -/
def State.setReq (s : State) (r : HomeReq) : State :=
  { s with mem := { s.mem with homeReqs := s.mem.homeReqs.map (fun x => if x.id = r.id then r else x) } }

/-- A home request is complete. -/
def State.dropReq (s : State) (id : Nat) : State :=
  { s with mem := { s.mem with homeReqs := s.mem.homeReqs.filter (fun x => decide (x.id ≠ id)) } }

/-- A home request, by its number. -/
def State.homeReq (s : State) (id : Nat) : Option HomeReq := s.mem.homeReqs.find? (fun r => decide (r.id = id))

/-- Gives a load's part its result. -/
def LoadOp.take (o : LoadOp) (id : Nat) (v : LoadResult) : LoadOp :=
  { o with parts := o.parts.map (fun q => if q.req = id then { q with result := some v } else q) }

/-- The bytes of a buffer for a line that came back (R357, R400). -/
def bufLine (va : Nat) (v : LoadResult) (t : Tbl (Option BufByte)) : Tbl (Option BufByte) :=
  (List.range 128).foldl (fun t i => Tbl.set none t (va + i) (some (match v with
    | .data d po => if po.getLsbD (i / 64) then .poisoned else .data (lineByte d i)
    | .poison => .poisoned
    | _ => .refused))) t

/-- Gives a tile operation's buffer a line. -/
def ArrayState.fillTile (a : ArrayState) (seq va : Nat) (v : LoadResult) : ArrayState :=
  { a with tq := a.tq.map (fun o => if o.seq = seq then { o with buf := bufLine va v o.buf } else o) }

/-- Delivers the result of a request to what waits for it, if it still does. -/
def State.deliver (s : State) (r : HomeReq) (v : LoadResult) : State :=
  let a := s.array r.la
  match r.use with
  | .tile seq va => s.setArray r.la (a.fillTile seq va v)
  | .engine va => (match s.cmd r.cmd with
    | some c => s.setCmd { c with buf := bufLine va v c.buf }
    | none => s)
  | .refill => s
  | .group =>
  let hit (g : Group) : Bool := decide (g.cohort = r.cohort ∧ g.num = r.group)
  s.setArray r.la { a with groups := a.groups.map (fun g => if hit g then { g with loads := g.loads.map (fun o => o.take r.id v) } else g) }

/-- The granules that a load's part touches. -/
def State.touched (s : State) (r : HomeReq) : BitVec 2 :=
  match (s.array r.la).groups.find? (fun g => decide (g.cohort = r.cohort ∧ g.num = r.group)) with
  | none => 0
  | some g => g.loads.foldl (fun m o => match o.parts.find? (fun q => decide (q.req = r.id)) with
      | none => m
      | some q => q.lanes.foldl (fun m x => m ||| BitVec.ofNat 2 (2 ^ (x.2 / 64)) ||| BitVec.ofNat 2 (2 ^ ((x.2 + 2 ^ field o.ops 36 3 - 1) / 64))) m) 0

/-- Delivers a line to a load: poison in a page under refill kills the command (R404), else it goes with its mark. -/
def State.deliverLine (s : State) (r : HomeReq) (d : Line) (po : BitVec 2) : State :=
  let bad := decide (po &&& (if r.use = .group then s.touched r else 3) ≠ 0)
  if bad && s.isRefilling (r.line / 32) then
    match s.cmd r.cmd with
    | some c => s.refillKill c (r.line / 32)
    | none => s
  else s.deliver r (.data d po)

/-- The atomics of one line's lanes in ascending order (R56): the new line, and the old values by lane. -/
def atomicLine (op : AtomicOp) (size : Nat) : List (Nat × Nat × Word × Word) → Line → Line × List (Nat × Word)
  | [], d => (d, [])
  | (lane, off, v, w) :: t, d =>
    let n := elemBits size
    let old := (bits d (8 * off) 64).toNat % 2 ^ n
    let new := applyAtomic op n old (v.toNat % 2 ^ n) (w.toNat % 2 ^ n)
    let (d', l) := atomicLine op size t (putField d (8 * off) n new)
    (d', (lane, BitVec.ofNat 64 old) :: l)

/-- The granules of lanes' offsets. -/
def granulesOf (offs : List Nat) : BitVec 2 := offs.foldl (fun m o => m ||| BitVec.ofNat 2 (2 ^ (o / 64))) 0

/-- A RED met poison at its home: not performed; a deferred record, and the command is killed (R169, R197). -/
def State.homePoison (s : State) (r : HomeReq) (touch : BitVec 2) (po : BitVec 2) : State :=
  let g := 2 * r.line + (if (touch &&& po).getLsbD 0 then 0 else 1)
  match s.cmd r.cmd with
  | some c => ((s.setCmd c.unfinished).consumePoison c.unfinished g (unitId 5 (s.sliceOf r.line))).settleErrors c.ch
  | none => s.poisonRead r.part g (unitId 5 (s.sliceOf r.line))

/-- A request's hit of a line present in the slice. -/
def State.reqHit (s : State) (r : HomeReq) : State := match s.llcFind r.line with
  | some l => s.llcHit r.part l r.hint
  | none => s

/-- An absent line is brought into the slice for a request, with its memory value; without allocation it stays absent. -/
def State.bringIn (s : State) (r : HomeReq) (fill : Line × BitVec 2) : Bool × State :=
  if (s.llcFind r.line).isSome then (true, s.reqHit r) else
  s.llcAlloc r.part r.line r.hint false false .clean fill.1 fill.2

/-- Performs a write's bytes on a line present in the slice. -/
def State.mergePresent (s : State) (line : Nat) (d : Line) (m : BitVec 128) : State :=
  match s.llcFind line with
  | some l => (s.llcPut { l with data := mergeLine l.data d m, poison := poisonAfter l.poison m 0, hd := .dirty }).wakeLine line
  | none => s

/-- Performs an atomic on a line's data and poison: none where a touched granule is poisoned. -/
def State.homeAtomicOn (s : State) (r : HomeReq) (d : Line) (po : BitVec 2) (op : AtomicOp) (size : Nat) (lanes : List (Nat × Nat × Word × Word)) : Option Line × State :=
  let touch := granulesOf (lanes.map (fun x => x.2.1))
  if po &&& touch ≠ 0 then (none, (s.deliver r .poison).homePoison r touch po)
  else
    let (d', olds) := atomicLine op size lanes d
    (some d', s.deliver r (.olds olds))

/-- Performs a reduction of one line's lanes on data and poison. -/
def State.homeRedOn (s : State) (r : HomeReq) (d : Line) (po : BitVec 2) (op : RedOp) (size : Nat) (lanes : List (Nat × Nat × Word)) : Option Line × State :=
  let touch := granulesOf (lanes.map (fun x => x.2.1))
  if po &&& touch ≠ 0 then (none, s.homePoison r touch po)
  else (some (lanes.foldl (fun d x => redLine op size x.2.1 x.2.2 d) d), s)

/-- Writes a line that an atomic changed: in the slice when it is there, else to memory (R196), behind the churn's operations
(R166). -/
def State.putBack (s : State) (r : HomeReq) (d : Line) (po : BitVec 2) : State :=
  match s.llcFind r.line with
  | some l => (s.llcPut { l with data := d, hd := .dirty }).wakeLine r.line
  | none => ((s.chanAsk r.line r.part .array 128 .moved).writeBehind r.line d (BitVec.allOnes 128) po).wakeLine r.line

/-- The home accepts a churn operation for a line that no cache holds (R166): it goes to the churn of the line's channel, one
request of 64 bytes (R160); a channel out of service refuses it (R154). -/
def State.sendChurn (s : State) (line : Nat) (p : Fin 16) (c : CmdRef) (w : ChurnDo) (off : Nat) (v : Word) : State :=
  let u := s.unitOf line
  let o : ChurnOp := ⟨s.mem.reqSeq, u, line, p, c, w, off, v, !s.unitUp u⟩
  ({ s with mem := { s.mem with churn := s.mem.churn ++ [o] } }).chanAsk line p .array 64 .churn

/-- Performs a request with the line's data as it was found: present in the slice, or as memory delivered it. -/
def State.performReq (s : State) (r : HomeReq) (fill : Line × BitVec 2) : State :=
  let s := s.dropReq r.id
  match r.op with
  | .rdOnce =>
    let (_, s) := s.bringIn r fill
    let v := match s.llcFind r.line with
      | some l => (l.data, l.poison)
      | none => fill
    s.deliverLine r v.1 v.2
  | .write d m =>
    if (s.llcFind r.line).isSome then (s.bringIn r fill).2.mergePresent r.line d m
    else if m = BitVec.allOnes 128 then
      let (ok, s) := s.llcAlloc r.part r.line r.hint false false .dirty d 0
      (if ok then s.flushChurn r.line else (s.chanAsk r.line r.part .array 128 .moved).writeBehind r.line d m 0).wakeLine r.line
    else
      let (ok, s) := s.bringIn r fill
      if ok then s.mergePresent r.line d m else ((s.chanAsk r.line r.part .array 64 .moved).writeBehind r.line d m 0).wakeLine r.line
  | .atomic op size lanes =>
    let (_, s) := s.bringIn r fill
    let v := match s.llcFind r.line with
      | some l => (l.data, l.poison)
      | none => fill
    match s.homeAtomicOn r v.1 v.2 op size lanes with
    | (some d, s) => s.putBack r d v.2
    | (none, s) => s
  | .red op size lanes =>
    match s.llcFind r.line with
    | some l =>
      let s := (s.bringIn r fill).2
      (match s.homeRedOn r l.data l.poison op size lanes with
        | (some d, s) => (s.putBack r d l.poison).deliver r (.olds [])
        | (none, s) => s)
    | none =>
      (lanes.foldl (fun s x => s.sendChurn r.line r.part r.cmd (.red op size) x.2.1 x.2.2) s).deliver r (.olds [])
  | .discard => match s.llcFind r.line with
    | some l => s.llcDrop l
    | none => s

/-- A request needs the line from memory before it can be performed (R181, R190, R196). -/
def State.needsMem (s : State) (r : HomeReq) : Bool :=
  (s.llcFind r.line).isNone &&
  match r.op with
  | .rdOnce => true
  | .write _ m => decide (m ≠ BitVec.allOnes 128) && decide (r.hint ≠ 3) && (s.victim r.part (s.sliceOf r.line) (s.setOf r.line) false).isSome
  | .atomic _ _ _ => true
  | .red _ _ _ => false
  | .discard => false

/-- After its snoops a request reads memory, or is performed. -/
def State.stepReq (s : State) (r : HomeReq) : State :=
  if s.needsMem r then
    ((s.setReq { r with stage := .handling }).setTxn r.line (some ⟨.req r.id, false, false, true⟩)).chanAsk r.line r.part .array 128 (.home r.id)
  else (s.setTxn r.line none).performReq r (s.memLine r.line)

/-- The snoop of a request, and the records it goes to (R190). -/
def reqSnoop : HomeOp → Snoop × (DieRec → Bool)
  | .rdOnce => (.snpCur, fun r => decide (r = .x ∨ r = .o))
  | .write _ m => (if m = BitVec.allOnes 128 then .snpInd else .snpI, fun r => decide (r ≠ .i))
  | .atomic _ _ _ => (.snpI, fun r => decide (r ≠ .i))
  | .red _ _ _ => (.snpI, fun r => decide (r ≠ .i))
  | .discard => (.snpInd, fun r => decide (r ≠ .i))

/-- A request writes (R375). -/
def HomeOp.writes : HomeOp → Bool
  | .rdOnce => false
  | _ => true

/-- A request that its home refuses (R137, R375): a load's group faults, a posted write is gone. -/
def State.refuseReq (s : State) (r : HomeReq) : State := (s.deliver r .refused).dropReq r.id

/-- The home takes a request of the pool (R175): not before earlier ones of its line have ended. -/
def State.takeReq' (s : State) (r : HomeReq) : State :=
  if r.stage ≠ .sent ∨ s.txnBusy r.line then s
  else if !s.reach r.part r.line r.op.writes then s.refuseReq r
  else
    let (q, f) := reqSnoop r.op
    let w := s.snoopSet r.line f
    if w.1 || w.2 then (s.setReq { r with stage := .handling }).openTxn r.line (.req r.id) q w else s.stepReq r

/-! ### What ends a transaction -/

/-- A transaction with nothing left to await goes on. -/
def State.txnStep (s : State) (line : Nat) : State :=
  match Tbl.get none s.mem.txns line with
  | none => s
  | some t =>
    if t.wait0 || t.wait1 || t.memWait then s else
    let s := s.setTxn line none
    let gone : Bool := match t.kind with
      | .rds d _ _ => decide ((s.dieState (12 + d.val)).mode ≠ .present)
      | .rdu d _ _ => decide ((s.dieState (12 + d.val)).mode ≠ .present)
      | .upg d _ _ _ _ => decide ((s.dieState (12 + d.val)).mode ≠ .present)
      | .req _ => false
    if gone then s else
    match t.kind with
    | .rds d p who => (if (s.dieLine line d).isSome then s else s.grantDie d line false).coreTake d line p who
    | .rdu d p who => (s.grantDie d line true).coreTake d line p who
    | .upg d p who w m => s.endUpg d line p who w m
    | .req id => match s.homeReq id with
      | some r => s.stepReq r
      | none => s

/-- A response of die d has been taken. -/
def State.txnAnswered (s : State) (line : Nat) (d : Fin 2) : State :=
  match Tbl.get none s.mem.txns line with
  | none => s
  | some t => (s.setTxn line (some (if d = 0 then { t with wait0 := false } else { t with wait1 := false }))).txnStep line

/-- Memory's data for a transaction has arrived. -/
def State.txnFilled (s : State) (r : MemReq) (d : Line) (po : BitVec 2) : State :=
  match r.target with
  | .die die unique who =>
    let s := s.setTxn r.line none
    let s := if (s.llcFind r.line).isSome then s else (s.llcAlloc r.part r.line 0 false true .clean d po).2
    (s.grantDie die r.line unique).coreTake die r.line r.part who
  | .home id =>
    let s := s.setTxn r.line none
    match s.homeReq id with
    | some q => s.performReq q (d, po)
    | none => s
  | .churn => s
  | .moved => s

/-- A request can be served: a die's line needs a way, which a set whose lines all have transactions in progress has not yet
(R178, R179). -/
def State.canServe (s : State) (r : MemReq) : Bool :=
  match r.target with
  | .die _ _ _ => (s.llcFind r.line).isSome || (s.victim r.part (s.sliceOf r.line) (s.setOf r.line) true).isSome
  | _ => true

/-! ### Requests of the dies (R189, R193-R195) -/

/-- An ECC event in the slice at a lookup of a line (R394). -/
def State.tagEvent (s : State) (line : Nat) (e : TagEcc) : State :=
  match s.llcFind line, e with
  | none, _ => s
  | some _, .none => s
  | some l, .corrected => s.report (mkReport 0x0030 (unitId 5 l.slice) 0)
  | some l, .dataDouble g =>
    if l.hd = .dirty then (s.llcPut { l with poison := l.poison ||| BitVec.ofNat 2 (2 ^ g.val) }).report (mkReport 0x0031 (unitId 5 l.slice) 0)
    else if l.hd = .clean then
      let s := s.snoopAll line .snpI
      match s.llcFind line with
      | some l => (if l.hd = .dirty then s else s.llcDrop l).report (mkReport 0x0030 (unitId 5 l.slice) 0)
      | none => s
    else s.report (mkReport 0x0030 (unitId 5 l.slice) 0)
  | some l, .tagDouble =>
    let lost := decide (l.hd = .dirty ∨ l.rec0 = .o ∨ l.rec0 = .x ∨ l.rec1 = .o ∨ l.rec1 = .x)
    let s := ((s.setDieLine line 0 none).setDieLine line 1 none).llcDrop l
    let s := { s with mem := { s.mem with deadWays := (l.slice, l.set, l.way) :: s.mem.deadWays } }
    let s := if lost then (s.setPoison (2 * line) true).setPoison (2 * line + 1) true else s
    s.report (mkReport 0x0031 (unitId 5 l.slice) 0)

/-- Lines in a die's eviction buffer. -/
def State.evCount (s : State) (d : Fin 2) : Nat := (s.mem.evict.filter (fun x => x.2.isSome && decide (x.1 % 2 = d.val))).length

/-- A die's eviction buffer has a free entry (R192). -/
def State.evFree (s : State) (d : Fin 2) : Bool := decide (s.evCount d = 0) || decide (s.evCount d ≤ Config.evictRoom)

/-- A core of a die makes a request: it is active and holds to the partition (R285), its die is present, and reads of a page
under refill are held (R404). -/
def State.coreAsks (s : State) (d : Fin 2) (line : Nat) (p : Fin 16) (who : CoreAsk) : Bool :=
  s.up && decide ((s.dieState (12 + d.val)).mode = .present) && decide ((s.core (coreNum d who.core)).st = 0)
    && (s.partition p).cores.contains (coreNum d who.core) && !s.isRefilling (line / 32)

/-- A die can send a request for a line: no copy waits in its eviction buffer (R194), a full buffer holds its misses back
(R192), and the home is free (R175). -/
def State.dieMay (s : State) (d : Fin 2) (line : Nat) : Bool := (s.evEntry line d).isNone && s.evFree d && !s.txnBusy line

/-- RDS (R186, R189): a core's read. A copy in its die serves it there; else the die asks the home. -/
def execRds (d : Fin 2) (line : LineNo) (a : CoreReq) (ecc : TagEcc) (s : State) : Host.Outcome State Fault Refusal :=
  let n := line.toNat
  if !s.coreAsks d n a.part a.who then .next s
  else if !s.reach a.part n false then .next (s.coreFault d n a.who)
  else if (s.dieLine n d).isSome then .next (s.coreTake d n a.part a.who)
  else if !s.dieMay d n then .next s else
  let s := (s.charge a.part none .memory 128).tagEvent n ecc
  match s.llcFind n with
  | none => .next ((s.setTxn n (some ⟨.rds d a.part a.who, false, false, true⟩)).chanAsk n a.part .core 128 (.die d false a.who))
  | some l =>
    let s := s.llcHit a.part l 0
    let r := l.recOf (otherDie d)
    if r = .o ∨ r = .x then .next (s.openTxn n (.rds d a.part a.who) .snpS (decide (d = 1), decide (d = 0)))
    else .next ((s.grantDie d n false).coreTake d n a.part a.who)

/-- RDU (R186, R189): a core's read for writing. A copy in E or M in its die serves it there, and leaves the die's other cores;
one in S or O asks for Upg instead. -/
def execRdu (d : Fin 2) (line : LineNo) (a : CoreReq) (ecc : TagEcc) (s : State) : Host.Outcome State Fault Refusal :=
  let n := line.toNat
  if !s.coreAsks d n a.part a.who then .next s
  else if !s.reach a.part n true then .next (s.coreFault d n a.who)
  else match s.dieLine n d with
  | some c =>
    if c.st = .m ∨ c.st = .e then .next ((s.setDieLine n d (some { c with l2 := 0, l1 := 0 })).coreTake d n a.part a.who) else .next s
  | none =>
  if !s.dieMay d n then .next s else
  let s := (s.charge a.part none .memory 128).tagEvent n ecc
  match s.llcFind n with
  | none => .next ((s.setTxn n (some ⟨.rdu d a.part a.who, false, false, true⟩)).chanAsk n a.part .core 128 (.die d true a.who))
  | some l =>
    let s := s.llcHit a.part l 0
    if l.recOf (otherDie d) = .i then .next ((s.grantDie d n true).coreTake d n a.part a.who)
    else .next (s.openTxn n (.rdu d a.part a.who) .snpI (decide (d = 1), decide (d = 0)))

/-- UPG (R187, R189, R193): a core's write of bytes. In E or M the die writes and goes to M without telling the home; from S or O
it sends Upg, and one that an SnpI crossed is handled as RdU. -/
def execUpg (d : Fin 2) (line : LineNo) (a : CoreReq) (w : CoreStore) (s : State) : Host.Outcome State Fault Refusal :=
  let n := line.toNat
  let (p, who) := (a.part, a.who)
  if !s.coreAsks d n p who then .next s
  else if !s.reach p n true then .next (s.coreFault d n who)
  else if (s.dieLine n d).any (fun c => decide (c.st = .m ∨ c.st = .e)) then .next (s.coreWrite d n who w.data w.mask)
  else if !s.dieMay d n then .next s else
  match s.llcFind n with
  | none => .next ((s.setTxn n (some ⟨.rdu d p who, false, false, true⟩)).chanAsk n p .core 128 (.die d true who))
  | some l =>
    let s := s.llcHit p l 0
    if l.recOf (otherDie d) = .i then .next (s.endUpg d n p who w.data w.mask)
    else .next (s.openTxn n (.upg d p who w.data w.mask) .snpI (decide (d = 1), decide (d = 0)))

/-- A die moves a line to its eviction buffer and sends the eviction (R194). -/
def State.evSend (s : State) (d : Fin 2) (line : Nat) (k : DieLine) : State :=
  (s.setDieLine line d none).setEvEntry line d (some ⟨k, false, false⟩)

/-- The home examines an eviction (R189, R195): stale when the die is recorded I; EvAck either way. -/
def State.evHome (s : State) (d : Fin 2) (line : Nat) (e : EvEntry) : State :=
  let s := { s.setEvEntry line d (some { e with atHome := true }) with mem := { (s.setEvEntry line d (some { e with atHome := true })).mem with evAcks := Tbl.set false s.mem.evAcks (dieKey line d) true } }
  match s.llcFind line with
  | none => s
  | some l =>
    if l.recOf d = .i then s else
    match e.kept.st with
    | .s => s.llcPut (l.setRec d .i)
    | .e => s.llcPut (l.setRec d .i)
    | _ => (s.llcPut { l.setRec d .i with data := e.kept.data, poison := e.kept.poison, hd := .dirty }).wakeLine line

/-- EVC (R189, R194, R195): a clean eviction is sent, or examined at the home. -/
def execEvc (d : Fin 2) (line : LineNo) (st : EvStage) (s : State) : Host.Outcome State Fault Refusal :=
  let n := line.toNat
  match st with
  | .send => match s.dieLine n d with
    | some c => .next (if (c.st = .s ∨ c.st = .e) ∧ (s.evEntry n d).isNone ∧ s.evFree d then s.evSend d n c else s)
    | none => .next s
  | .home => match s.evEntry n d with
    | some e => .next (if (e.kept.st = .s ∨ e.kept.st = .e) ∧ !e.atHome ∧ !s.txnBusy n then s.evHome d n e else s)
    | none => .next s

/-- EVD (R189, R194, R195): a dirty eviction; `w` is what a core has written silently since the grant of E or M. -/
def execEvd (d : Fin 2) (line : LineNo) (st : EvStage) (w : Option Line) (s : State) : Host.Outcome State Fault Refusal :=
  let n := line.toNat
  match st with
  | .send => match s.dieLine n d with
    | none => .next s
    | some c =>
      if (s.evEntry n d).isSome ∨ !s.evFree d then .next s else
      match c.st, w with
      | .m, _ => .next (s.evSend d n { c with data := w.getD c.data })
      | .o, _ => .next (s.evSend d n c)
      | .e, some x => .next (s.evSend d n { c with st := .m, data := x })
      | _, _ => .next s
  | .home => match s.evEntry n d with
    | some e => .next (if (e.kept.st = .m ∨ e.kept.st = .o) ∧ !e.atHome ∧ !s.txnBusy n then s.evHome d n e else s)
    | none => .next s

/-- EV_ACK (R194): the die frees its eviction-buffer entry. -/
def execEvAck (d : Fin 2) (line : LineNo) (s : State) : Host.Outcome State Fault Refusal :=
  let k := dieKey line.toNat d
  if !Tbl.get false s.mem.evAcks k then .next s
  else .next { s with mem := { s.mem with evAcks := Tbl.set false s.mem.evAcks k false, evict := Tbl.set none s.mem.evict k none } }

/-! ### Snoops and responses (R191) -/

/-- A die takes a snoop that was sent to it and answers. -/
def State.answer (s : State) (d : Fin 2) (line : Nat) (q : Snoop) (w : Option Line) : State :=
  let k := dieKey line d
  if Tbl.get none s.mem.snoops k ≠ some q then s else
  let (r, s) := s.dieAnswer d line q w
  { s with mem := { s.mem with snoops := Tbl.set none s.mem.snoops k none, rsps := Tbl.set none s.mem.rsps k (some r) } }

/-- SNP_S (R191). -/
def execSnpS (d : Fin 2) (line : LineNo) (w : Option Line) (s : State) : Host.Outcome State Fault Refusal := .next (s.answer d line.toNat .snpS w)

/-- SNP_CUR (R191). -/
def execSnpCur (d : Fin 2) (line : LineNo) (w : Option Line) (s : State) : Host.Outcome State Fault Refusal := .next (s.answer d line.toNat .snpCur w)

/-- SNP_I (R191, R194). -/
def execSnpI (d : Fin 2) (line : LineNo) (w : Option Line) (s : State) : Host.Outcome State Fault Refusal := .next (s.answer d line.toNat .snpI w)

/-- SNP_IND (R191). -/
def execSnpInd (d : Fin 2) (line : LineNo) (w : Option Line) (s : State) : Host.Outcome State Fault Refusal := .next (s.answer d line.toNat .snpInd w)

/-- The home takes a response of a die that has arrived, and its transaction goes on. -/
def State.takeArrived (s : State) (d : Fin 2) (line : Nat) (f : Rsp → Bool) : State :=
  let k := dieKey line d
  match Tbl.get none s.mem.rsps k with
  | none => s
  | some r =>
    if !f r then s else
    let s := { s with mem := { s.mem with rsps := Tbl.set none s.mem.rsps k none } }
    let s := s.takeRsp d line r
    let s := match r with
      | .fwd x p => s.setDieLine line (otherDie d) (some ⟨.s, x, p, 0, 0⟩)
      | _ => s
    s.txnAnswered line d

/-! ### Stashing (R198, R199) -/

/-- The active core that a stash target names in a partition's grant list. -/
def State.stashCore (s : State) (p : Fin 16) (target : BitVec 16) : Option Nat :=
  ((s.partition p).cores[field target 0 8]?).filter (fun c => decide ((s.core c).st = 0))

/-- A write under a stash target (R198, R199). -/
def State.stashWrite (s : State) (p : Fin 16) (pa : Nat) (b : List Byte) (target : BitVec 16) (cls : ReqClass := .array) : State :=
  let kind := field target 14 2
  let hint := if kind = 1 ∨ kind = 2 then field target 8 2 else 0
  let line := pa / 128
  let s := s.engWrite p line (placeBytes (pa % 128) b) (byteMask (pa % 128) b.length) 0 hint cls
  if kind ≠ 2 then s else
  match s.stashCore p target with
  | none => s.countDeclined p
  | some c =>
    if b.length ≠ 128 ∨ pa % 128 ≠ 0 ∨ (s.llcFind line).isNone then s.countDeclined p
    else { s with mem := { s.mem with pushes := Tbl.set none s.mem.pushes (2 * line + c / 80) (some (p, c)) } }

/-- STASH (R190, R198, R199): a write of a port or a Meridian receiver for a partition, at its home. -/
def execStash (p : Fin 16) (pa : BitVec 41) (data : List Byte) (target : BitVec 16) (s : State) : Host.Outcome State Fault Refusal :=
  let a := pa.toNat
  if !s.up ∨ data = [] ∨ 128 < a % 128 + data.length ∨ s.txnBusy (a / 128) ∨ !s.reach p (a / 128) true then .next s
  else .next (s.stashWrite p a data target)

/-- STASH_PUSH (R199): the die installs the pushed line in the core's L2 as E, or declines. -/
def execStashPush (d : Fin 2) (line : LineNo) (accept : Bool) (s : State) : Host.Outcome State Fault Refusal :=
  let n := line.toNat
  match Tbl.get none s.mem.pushes (2 * n + d.val) with
  | none => .next s
  | some (p, c) =>
    if s.txnBusy n then .next s else
    let s := { s with mem := { s.mem with pushes := Tbl.set none s.mem.pushes (2 * n + d.val) none } }
    let free := (s.llcFind n).any (fun l => decide (l.rec0 = .i ∧ l.rec1 = .i)) && (s.dieLine n d).isNone && (s.evEntry n d).isNone
    let one := coreBit ⟨c % 80, Nat.mod_lt _ (by decide)⟩
    .next (if accept && free then
        (match (s.grantDie d n true).dieLine n d with
          | some x => (s.grantDie d n true).setDieLine n d (some { x with l2 := one })
          | none => s.grantDie d n true)
      else s.countDeclined p)

/-! ### Sweeps and registers (R144, R177, R183) -/

/-- KEEP_SWEEP (R183): one set of a slice; a keep line without a hit for KEEP_LEASE + 1 sweeps becomes normal. -/
def execKeepSweep (slice : Fin 96) (s : State) : Host.Outcome State Fault Refusal :=
  if !s.powered ∨ !s.hubUp (slice.val / 24) then .next s else
  let set := Tbl.get 0 s.mem.sweep slice.val
  let age (l : LlcLine) : LlcLine :=
    if l.slice ≠ slice.val ∨ l.set ≠ set ∨ l.cls ≠ .keep then l
    else if (s.ways l.owner).keepLease + 1 ≤ l.idle + 1 then { l with cls := .normal, idle := 0 } else { l with idle := l.idle + 1 }
  .next { s with mem := { s.mem with llc := s.mem.llc.map age, sweep := Tbl.set 0 s.mem.sweep slice.val ((set + 1) % 32768) } }

/-- A write of LLC_PART_WAYS (R177): a mask that shares a way with another's, or has fewer than 2 ways for a holder of cores, is
refused; the other fields take effect. -/
def State.writeWays (s : State) (port : Fin 2) (v : Word) : State :=
  let p := toPart (s.port port).llcSelect.toNat
  let w := s.ways p
  let m : BitVec 16 := bits v 0 16
  let bad := allParts.any (fun q => decide (q ≠ p) && decide ((s.ways q).mask &&& m ≠ 0)) || (decide (pop m < 2) && decide ((s.partition p).cores ≠ []))
  let w' : PartWays := ⟨if bad then w.mask else m, if field v 16 4 ≤ 12 then field v 16 4 else w.keepCap, field v 20 2, bad || (w.refused && !v.getLsbD 22)⟩
  { s with mem := { s.mem with ways := Tbl.set PartWays.reset s.mem.ways p.val w' } }

/-- LLC_PART_WAYS (R177). -/
def execLlcPartWays (port : Fin 2) (v : Word) (s : State) : Host.Outcome State Fault Refusal :=
  .next (if s.barServes port 0 then s.writeWays port v else s)

/-- Every plot of a band is FREE or absent (R144). -/
def State.bandFree (s : State) (b : Nat) : Bool := (List.range 24).all (fun i => s.plotAbsent (24 * b + i) || decide (s.plot (24 * b + i) = .free))

/-- A write of MEM_BAND_MODE (R144, R459): bits of bands that are not free keep their value, and REFUSED is set where that refuses a
change. -/
def State.writeBands (s : State) (v : Word) : State :=
  let want : BitVec 47 := bits v 0 47
  let barred : BitVec 47 := (List.range 47).foldl (fun m b => if s.bandFree b then m else m ||| BitVec.ofNat 47 (2 ^ b)) 0
  let cur := s.mem.bandMode
  { s with mem := { s.mem with
    bandMode := (want &&& ~~~barred) ||| (cur &&& barred)
    bandRefused := decide ((want ^^^ cur) &&& barred ≠ 0) || (s.mem.bandRefused && !v.getLsbD 63) } }

/-- MEM_BAND_MODE (R144, R459). -/
def execMemBandMode (port : Fin 2) (v : Word) (s : State) : Host.Outcome State Fault Refusal :=
  .next (if s.barServes port 0 then s.writeBands v else s)

end Sys2Proof.Machine
end

