-- ==== Sys2Proof/Machine/Inbound.lean ====
section
/-! DEFINITION. The inbound paths of the ports and of the guest (08 R239, R240; 11 R318, R326; 07 R218), whose requests wait for
lines with a transaction in progress, and the commands that end such a transaction (05 R156; 06 R191). -/

namespace Sys2Proof.Machine

/-! ### Apertures (R218, R318, R326, R378) -/

/-- The first virtual address of the apertures. -/
def apertureBase : Nat := 0x00FE000000000000

/-- The partition that an aperture reaches, if it reaches one (R318, R378). -/
def State.aperturePart (s : State) (port : Fin 2) (fn : Fin 128) : Option (Fin 16) :=
  let p := if fn = 0 then some 0 else (s.fn port fn).bound
  p.filter (fun p => decide ((s.partition p).mode ≠ .absent) && !s.lockBars p (fnWord port fn))

/-- Where part of an aperture access goes in the pool, if the page is mapped, allowed and within reach. -/
def State.apertureAt (s : State) (p : Fin 16) (va : Nat) (write : Bool) : Option Nat × State :=
  match s.translate p va write with
  | (.pool pa, s) => (if s.reach p (pa / 128) write then some pa else none, s)
  | (.poison g, s) => (none, if s.isRefilling (g / 64) then s else s.poisonRead p g (unitId 3 14))
  | (_, s) => (none, s)

/-- One part of an aperture write. -/
def State.apertureStore (s : State) (port : Fin 2) (p : Fin 16) (tlp : TlpHints) (va : Nat) (b : List Byte) : State :=
  match s.apertureAt p va true with
  | (none, s) => s
  | (some pa, s) =>
    if tlp.th then s.stashWrite p pa b (tlp.ext.getD 0x4000) (.master (.pcie port))
    else s.engWrite p (pa / 128) (placeBytes (pa % 128) b) (byteMask (pa % 128) b.length) 0 0 (.master (.pcie port))

/-- The parts of an aperture write, in order. -/
def State.apertureStores (s : State) (port : Fin 2) (p : Fin 16) (tlp : TlpHints) : List (Nat × Nat) → List Byte → State
  | [], _ => s
  | (a, k) :: t, b => State.apertureStores (s.apertureStore port p tlp a (b.take k)) port p tlp t (b.drop k)

/-- One part of an aperture read: its bytes and whether they are poisoned. Both the read and a write of the page must be
allowed. -/
def State.apertureLoad (s : State) (port : Fin 2) (p : Fin 16) (va n : Nat) : List Byte × Bool × State :=
  let ones := List.replicate n (0xFF : Byte)
  match s.apertureAt p va true with
  | (none, s) => (ones, false, s)
  | (some _, s) => (match s.apertureAt p va false with
    | (none, s) => (ones, false, s)
    | (some pa, s) =>
      let ((d, po), s) := s.engRead p (pa / 128) 0 (.master (.pcie port))
      let g := pa / 64
      let last := (pa + n - 1) / 64
      let bad (k : Nat) : Bool := po.getLsbD (k % 2)
      let note (s : State) (k : Nat) : State := if bad k && !s.isRefilling (k / 64) then s.poisonRead p k (unitId 3 14) else s
      let s := note s g
      let s := if last = g then s else note s last
      (lineBytes d (pa % 128) n, bad g || bad last, s))

/-- The parts of an aperture read. -/
def State.apertureLoads (s : State) (port : Fin 2) (p : Fin 16) : List (Nat × Nat) → List Byte × Bool × State
  | [] => ([], false, s)
  | (a, k) :: t =>
    let (b, q, s) := s.apertureLoad port p a k
    let (b', q', s) := State.apertureLoads s port p t
    (b ++ b', q || q', s)

/-- An inbound request is performed: a write, or a read with its completion (R318, R331, R400). -/
def State.inServe (s : State) (x : InReq) : State :=
  match x.data with
  | some b => s.apertureStores x.port x.part x.tlp (lineCuts x.va x.len) b
  | none =>
    let (b, bad, s) := s.apertureLoads x.port x.part (lineCuts x.va x.len)
    if bad then (s.emit (.poisonedCompletion x.port x.fn b)).emit (.aer x.port x.fn) else s.emit (.completion x.port x.fn 0 b)

/-- An inbound request may not pass an earlier write of its port; a write with Relaxed Ordering may, but for one that meets its
own bytes (R211, R218). -/
def InReq.after (x y : InReq) : Bool :=
  decide (y.port = x.port) && y.data.isSome
    && (!(x.data.isSome && x.tlp.ro) || (decide (y.part = x.part) && decide (y.va / 128 ≤ (x.va + x.len) / 128 ∧ x.va / 128 ≤ (y.va + y.len) / 128)))

/-- The inbound requests that can be performed are, in the order received; the others wait (R175, R218). -/
def State.drainIn (s : State) : State :=
  let (kept, s) := s.host.inbound.foldl (fun (k : List InReq × State) x =>
    if k.1.any (fun y => x.after y) || k.2.rangeBusy x.part x.va x.len then (k.1 ++ [x], k.2) else (k.1, k.2.inServe x)) ([], s)
  { s with host := { s.host with inbound := kept } }

/-- An inbound request arrives. -/
def State.inbound (s : State) (x : InReq) : State := State.drainIn { (s.charge x.part none .memory x.len) with host := { s.host with inbound := s.host.inbound ++ [x] } }

/-! ### Guest requests (R239, R240) -/

/-- Replaces the guest site's state. -/
def State.setGuest (s : State) (x : GuestState) : State := { s with link := { s.link with guest := x } }

/-- GUEST_MESSAGE_INVALID (R239, R240). -/
def State.guestInvalid (s : State) (parts : BitVec 16) (detail addr : Nat) : State :=
  s.report { mkReport 0x0046 (unitId 11 0) detail with parts := parts, address := BitVec.ofNat 64 addr }

/-- A guest message uses no reserved encoding. -/
def guestMsgOk (op : Nat) (m : BitVec 128) : Bool :=
  decide (field m 0 4 = op ∧ field m 23 1 = 0 ∧ field m 87 41 = 0)
    && (if op = 2 then decide (field m 24 4 ≤ 4) else decide (field m 24 4 = 0 ∧ field m 28 57 % 128 + field m 16 7 + 1 ≤ 128))

/-- Where a guest request goes: a pool address, or the STATUS it meets, with the poisoned granule of a walk. -/
inductive GuestAt | pool (pa : Nat) | status (n : Nat) | poison (granule : Nat)
  deriving DecidableEq, Repr

/-- The translation of a guest address under the owner's guest address space (R240, R375, R378). -/
def State.guestAt (s : State) (p : Fin 16) (va : Nat) (write : Bool) : GuestAt × State :=
  if (s.partition p).lock.any (fun l => !l.guest) then (.status 2, s) else
  match Tbl.get none s.mem.guestRoots p.val with
  | none => (.status 1, s)
  | some root =>
    if 2 ^ 56 ≤ va then (.status 1, s) else
    match State.walk (walkRead p) s p va root 4 with
    | (.error (.poison g), s) => (.poison g, s)
    | (.error (.fault .protection), s) => (.status 2, s)
    | (.error _, s) => (.status 1, s)
    | (.ok (e, _), s) =>
      if !leafAllows e write then (.status 2, s) else
      match physTarget s.link.number (field e 10 44 * 4096 + va % 4096) with
      | .pool pa => (if s.reach p (pa / 128) write then .pool pa else .status 2, s)
      | _ => (.status 2, s)

/-- READ_RESP to a guest READ: TAG and LENGTH echoed. -/
def guestAnswer (m : BitVec 128) (status : Nat) : BitVec 128 :=
  BitVec.ofNat 128 (2 + 16 * field m 4 12 + 65536 * field m 16 7 + 2 ^ 24 * status + 2 ^ 28 * field m 28 57)

/-- Units of 16 data bytes that a guest request's data takes (R239). -/
def guestUnits (msg : BitVec 128) : Nat := if field msg 0 4 = 1 then ceilDiv (field msg 16 7 + 1) 16 else 0

/-- A guest READ that fails: STATUS, and data that no rule gives. -/
def State.guestFail (s : State) (msg : BitVec 128) (status : Nat) : State :=
  let (d, s) := s.freeVal 512
  let (e, s) := s.freeVal 512
  s.emit (.guest (guestAnswer msg status) (d ++ e))

/-- POISON_READ of a granule that a guest request consumed (R400). -/
def State.guestPoison (s : State) (p : Fin 16) (g : Nat) : State := if s.isRefilling (g / 64) then s else s.poisonRead p g (unitId 3 10)

/-- A guest READ at a pool address. -/
def State.guestLoad (s : State) (p : Fin 16) (msg : BitVec 128) (pa : Nat) : State :=
  let n := field msg 16 7 + 1
  let ((d, po), s) := s.engRead p (pa / 128) (field msg 85 2)
  let hit (g : Nat) : Bool := po.getLsbD g && decide (pa % 128 / 64 ≤ g ∧ g ≤ (pa % 128 + n - 1) / 64)
  match ([0, 1] : List Nat).filter hit with
  | [] => s.emit (.guest (guestAnswer msg 0) (placeBytes 0 (lineBytes d (pa % 128) n)))
  | bad => (bad.foldl (fun s g => s.guestPoison p (pa / 128 * 2 + g)) s).guestFail msg 3

/-- The oldest guest request of the input buffer is performed, unless its line has a transaction in progress: whether it was. -/
def State.guestServe (s : State) (msg : BitVec 128) (data : Line) : Bool × State :=
  let p := s.link.guest.owner
  let va := field msg 28 57
  let n := field msg 16 7 + 1
  let write := decide (field msg 0 4 = 1)
  match s.guestAt p va write with
  | (.status k, s) => (true, if write then s.guestInvalid (partBit p) k va else s.guestFail msg k)
  | (.poison g, s) => (true, if write then (s.guestPoison p g).guestInvalid (partBit p) 3 va else (s.guestPoison p g).guestFail msg 3)
  | (.pool pa, s) =>
    if s.txnBusy (pa / 128) then (false, s)
    else (true, if write then s.engWrite p (pa / 128) (placeBytes (pa % 128) (lineBytes data 0 n)) (byteMask (pa % 128) n) 0 (field msg 85 2)
      else s.guestLoad p msg pa)

/-- Guest requests leave the input buffer in order, as far as they can be performed, and return their credits (R239, R240). -/
def State.guestDrain : Nat → State → State
  | 0, s => s
  | f + 1, s =>
    match s.link.guest.waiting with
    | [] => s
    | (msg, data) :: rest =>
      match s.guestServe msg data with
      | (false, s) => s
      | (true, s) =>
        let x := s.link.guest
        State.guestDrain f (s.setGuest { x with waiting := rest, credits := x.credits + 1, dataCredits := x.dataCredits + guestUnits msg })

/-- A guest request arrives under the credits that the guest holds (R239); without them it cannot. -/
def State.guestTake (s : State) (msg : BitVec 128) (data : Line) : State :=
  let x := s.link.guest
  if x.credits = 0 ∨ x.dataCredits < guestUnits msg then s else
  State.guestDrain (x.waiting.length + 1) ((s.charge x.owner none .memory 128).setGuest { x with
    waiting := x.waiting ++ [(msg, data)], credits := x.credits - 1, dataCredits := x.dataCredits - guestUnits msg })

/-! ### What ends a transaction (R175) -/

/-- Requests that waited for a line go on. -/
def State.goOn (s : State) : State := State.guestDrain s.link.guest.waiting.length s.drainIn

/-- CHANNEL_REQUEST_SERVED (R156): the channel takes its next request; a read of a line delivers it. -/
def execChannelRequestServed (u : Fin 384) (ecc : EccPair) (rowHit : Option Nat) (s : State) : Host.Outcome State Fault Refusal :=
  let s := s.enterAll (u.val / 96)
  match s.pickReq u.val rowHit with
  | none => .next s
  | some (r, k) =>
    if !s.canServe r then .next s else
    let s := s.takeReq u.val r k
    if r.target = .churn ∨ r.target = .moved then .next s else
    let ((d, po), s) := s.readLine r.line ecc
    .next (s.txnFilled r d po).goOn

/-- RSP_FWD (R191): the data went straight to the requesting die. -/
def execRspFwd (d : Fin 2) (line : LineNo) (s : State) : Host.Outcome State Fault Refusal :=
  .next (State.goOn (s.takeArrived d line.toNat (fun r => match r with | .fwd _ _ => true | _ => false)))

/-- RSP_S_DATA (R191). -/
def execRspSData (d : Fin 2) (line : LineNo) (s : State) : Host.Outcome State Fault Refusal :=
  .next (State.goOn (s.takeArrived d line.toNat (fun r => match r with | .sData _ _ => true | _ => false)))

/-- RSP_I_DATA (R191). -/
def execRspIData (d : Fin 2) (line : LineNo) (s : State) : Host.Outcome State Fault Refusal :=
  .next (State.goOn (s.takeArrived d line.toNat (fun r => match r with | .iData _ _ => true | _ => false)))

/-- RSP_S (R191). -/
def execRspS (d : Fin 2) (line : LineNo) (s : State) : Host.Outcome State Fault Refusal := .next (State.goOn (s.takeArrived d line.toNat (fun r => decide (r = .s))))

/-- RSP_E (R191). -/
def execRspE (d : Fin 2) (line : LineNo) (s : State) : Host.Outcome State Fault Refusal := .next (State.goOn (s.takeArrived d line.toNat (fun r => decide (r = .e))))

/-- RSP_I (R191). -/
def execRspI (d : Fin 2) (line : LineNo) (s : State) : Host.Outcome State Fault Refusal := .next (State.goOn (s.takeArrived d line.toNat (fun r => decide (r = .i))))

end Sys2Proof.Machine
end

