-- ==== Sys2Proof/Machine/Operands.lean ====
section
/-! DEFINITION. Operand forms of the array instructions (R53, R54, R94-R96): fields of the formats V, I, M, J, S and of
the tile words, registers and predicates of a group, and the legality of register specifiers (R49, R57). -/

namespace Sys2Proof.Machine

/-! ### The running launch (R256) -/

/-- The LAUNCH descriptor that an array command runs: its own, or a STEP's template (R261). -/
def Cmd.kernel (c : Cmd) : BitVec 512 := if c.kind = 1 then c.head else (c.launch.getD []).headD 0

/-- The extension blocks of that descriptor. -/
def Cmd.kernelSlots (c : Cmd) : List (BitVec 512) := if c.kind = 1 then c.slots else c.launch.getD []

/-- ENTRY. -/
def Cmd.entryPc (c : Cmd) : Word := bits c.kernel 128 64

/-- GROUPS: groups of a cohort. -/
def Cmd.groups (c : Cmd) : Nat := blk c.kernel 40 0 5

/-- Registers of a thread (R49). -/
def Cmd.regCount (c : Cmd) : Nat := if blk c.kernel 41 0 5 = 24 then 255 else 64 + 8 * blk c.kernel 41 0 5

/-- Register slots of a lane (R49). -/
def Cmd.regSlots (c : Cmd) : Nat := if blk c.kernel 41 0 5 = 24 then 256 else 64 + 8 * blk c.kernel 41 0 5

/-- Local store in KiB by LS_SHARE (R47). -/
def lsShareKiB (n : Nat) : Option Nat := ([0, 256, 512, 1024, 1536, 1792] : List Nat)[n]?

/-- Accumulator bytes of a cell by ACC_SECTION (R48). -/
def accBytes (n : Nat) : Option Nat := ([0, 128, 256, 512, 1024] : List Nat)[n]?

/-- The local-store share in bytes. -/
def Cmd.lsShare (c : Cmd) : Nat := (lsShareKiB (blk c.kernel 42 0 3)).getD 0 * 1024

/-- Accumulator bytes of a cell. -/
def Cmd.accCell (c : Cmd) : Nat := (accBytes (blk c.kernel 42 3 3)).getD 0

/-- The stream prefetcher is enabled. -/
def Cmd.prefetches (c : Cmd) : Bool := decide (blk c.kernel 42 6 1 = 1)

/-- SENTRY mode (R130). -/
def Cmd.sentry (c : Cmd) : Nat := blk c.kernel 43 0 2

/-- Local store of a cohort in bytes (R50). -/
def Cmd.lsCohort (c : Cmd) : Nat := blk c.kernel 44 0 11 * 1024

/-- SR_SEED. -/
def Cmd.srSeed (c : Cmd) : Word := bits c.kernel 448 64

/-- The grid's extents X, Y, Z. -/
def Cmd.grid (c : Cmd) : Nat × Nat × Nat := (blk c.kernel 34 0 16, blk c.kernel 36 0 16, blk c.kernel 38 0 16)

/-- Groups of a quadrant by registers (R51). -/
def Cmd.perQuadrant (c : Cmd) : Nat := min 8 ((2048 - c.accCell) / (4 * c.regSlots))

/-- Cohorts resident on an array (R51). -/
def Cmd.maxCohorts (c : Cmd) : Nat :=
  let g := c.groups
  if g = 0 then 0 else
  min (32 / g) (min (4 * c.perQuadrant / g) (if c.lsCohort = 0 then 32 else c.lsShare / c.lsCohort))

/-- LAUNCH_UNFIT (R52, R130). -/
def Cmd.unfit (c : Cmd) : Bool :=
  decide (24 < blk c.kernel 41 0 5) || (lsShareKiB (blk c.kernel 42 0 3)).isNone || (accBytes (blk c.kernel 42 3 3)).isNone
    || decide (c.sentry = 3) || decide (c.groups = 0 ∨ 16 < c.groups) || decide (1792 * 1024 < c.lsCohort) || decide (c.lsShare < c.lsCohort)
    || decide (c.maxCohorts = 0)

/-! ### Fields (R54) -/

/-- DST of formats V and I, DATA of M. -/
def opDst (ops : BitVec 48) : Nat := field ops 0 8
/-- SRCA of V and I, BASE of M. -/
def opA (ops : BitVec 48) : Nat := field ops 8 8
/-- SRCB of V. -/
def opB (ops : BitVec 48) : Nat := field ops 16 8
/-- SRCC of V. -/
def opC (ops : BitVec 48) : Nat := field ops 24 8
/-- FMT of V. -/
def opFmt (ops : BitVec 48) : Nat := field ops 32 5
/-- RND of V. -/
def opRnd (ops : BitVec 48) : Nat := field ops 37 2
/-- SAT of V. -/
def opSat (ops : BitVec 48) : Bool := ops.getLsbD 39
/-- Bit i of NEG of V. -/
def opNeg (ops : BitVec 48) (i : Nat) : Bool := ops.getLsbD (40 + i)
/-- MOD of V. -/
def opMod (ops : BitVec 48) : Nat := field ops 43 5
/-- IMM of I. -/
def opImm (ops : BitVec 48) : Word32 := bits ops 16 32
/-- OFFSET of M. -/
def opOffset (ops : BitVec 48) : Int := (bits ops 16 20).toInt
/-- SIZE of M. -/
def opSize (ops : BitVec 48) : Nat := field ops 36 3
/-- SCOPE of M. -/
def opScope (ops : BitVec 48) : Nat := field ops 39 3
/-- HINT of M. -/
def opHint (ops : BitVec 48) : Nat := field ops 42 2
/-- ORDER of M. -/
def opOrder (ops : BitVec 48) : Nat := field ops 44 2
/-- SPACE of M. -/
def opSpace (ops : BitVec 48) : Nat := field ops 46 2
/-- DISP of J, in instruction words. -/
def opDisp (ops : BitVec 48) : Int := (bits ops 0 32).toInt
/-- SRCA of J. -/
def opTarget (ops : BitVec 48) : Nat := field ops 32 8
/-- BARRIER of S. -/
def opBarrier (ops : BitVec 48) : Fin 16 := ⟨(bits ops 0 4).toNat, (bits ops 0 4).isLt⟩
/-- COUNT of S. -/
def opCount (ops : BitVec 48) : Nat := field ops 4 8
/-- SCOPE of S. -/
def opScopeS (ops : BitVec 48) : Nat := field ops 12 3
/-- ORDER of S. -/
def opOrderS (ops : BitVec 48) : Nat := field ops 15 2

/-- Reserved bits of format J are zero. -/
def cleanJ (ops : BitVec 48) : Bool := decide (field ops 40 8 = 0)

/-- Reserved bits of format S are zero. -/
def cleanS (ops : BitVec 48) : Bool := decide (field ops 17 31 = 0)

/-! ### Legality (R49, R54, R57) -/

/-- A register is below the count, or v255. -/
def regNamed (n r : Nat) : Bool := decide (r < n ∨ r = 255)

/-- k registers from r may be named. -/
def regsNamed (n r k : Nat) : Bool := (List.range k).all (fun i => regNamed n (r + i))

/-- A register pair may be named: even, both registers named. -/
def pairNamed (n r : Nat) : Bool := decide (r % 2 = 0) && regsNamed n r 2

/-- A register of a format may be named: FP64 takes a pair (R105). -/
def fmtNamed (n fmt r : Nat) : Bool := if fmt % 16 = 0 then pairNamed n r else regNamed n r

/-- No field of format V that every class has holds a reserved encoding (R54, R105). DESIGN CHOICE: a nonzero MOD of an
operation that has no MOD, and a register field that an operation does not use, are not checked. -/
def legalV (ops : BitVec 48) : Bool := decide (opRnd ops ≠ 3) && !fmtReserved (opFmt ops)

/-- Registers of an access of SIZE (R54, R472). -/
def sizeRegs (size : Nat) : Nat := if size = 4 then 4 else if size = 3 then 2 else 1

/-- Bytes of an access of SIZE (R54). -/
def sizeBytes (size : Nat) : Nat := 2 ^ size

/-- Fields of format M hold no reserved encoding, and BASE is legal (R54). -/
def legalM (n : Nat) (ops : BitVec 48) : Bool :=
  decide (opSize ops ≤ 4 ∧ opScope ops ≤ 4 ∧ opSpace ops ≤ 1)
    && (if opSpace ops = 0 then decide (opA ops = 255) || pairNamed n (opA ops) else regNamed n (opA ops))

/-- DATA of an access is legal; `times` 2 for the second operand of a CAS (R54, R55). -/
def legalData (n : Nat) (ops : BitVec 48) (times : Nat) : Bool :=
  regsNamed n (opDst ops) (times * sizeRegs (opSize ops)) && (decide (opSize ops ≠ 4) || decide (opDst ops % 4 = 0))
    && (decide (opSize ops ≠ 3) || decide (opDst ops % 2 = 0))

/-! ### Registers, predicates, lanes (R41, R53, R54) -/

/-- A register of a lane; v255 reads zero (R41). -/
def Group.reg (g : Group) (lane r : Nat) : Word32 := if r = 255 then 0 else Tbl.get 0 g.regs (64 * r + lane)

/-- Writes a register of a lane; writes to v255 are discarded (R41). -/
def Group.setReg (g : Group) (lane r : Nat) (v : Word32) : Group :=
  if r = 255 then g else { g with regs := Tbl.set 0 g.regs (64 * r + lane) v }

/-- A register pair of a lane, the lower half in the even register (R54). -/
def Group.pair (g : Group) (lane r : Nat) : Word := g.reg lane (r + 1) ++ g.reg lane r

/-- Writes a register pair of a lane. -/
def Group.setPair (g : Group) (lane r : Nat) (v : Word) : Group := (g.setReg lane r (bits v 0 32)).setReg lane (r + 1) (bits v 32 32)

/-- A predicate's lane mask; p7 reads true (R41). -/
def Group.pred (g : Group) (p : Nat) : BitVec 64 := if p = 7 then BitVec.allOnes 64 else Tbl.get 0 g.preds p

/-- Writes a predicate in the lanes of a mask; writes to p7 are discarded (R41). -/
def Group.setPred (g : Group) (p : Nat) (m v : BitVec 64) : Group :=
  if p = 7 then g else { g with preds := Tbl.set 0 g.preds p ((g.pred p &&& ~~~m) ||| (v &&& m)) }

/-- The current path (R59). -/
def Group.path (g : Group) : Path := g.paths.headD ⟨0, 0, none, 0⟩

/-- The participating lanes of an instruction (R53). -/
def Group.lanes (g : Group) (i : Issue) : BitVec 64 :=
  g.path.mask &&& (if i.pneg then ~~~(g.pred i.pred.val) else g.pred i.pred.val)

/-- The lanes of a mask, ascending. -/
def laneList (m : BitVec 64) : List Nat := ones m

/-- The leader lane of a mask (R92). -/
def leader (m : BitVec 64) : Nat := (ones m).headD 0

/-- The code of a format in a lane's register, the other bits ignored (R105). -/
def Group.raw (g : Group) (lane r fmt : Nat) : Nat :=
  if fmtBits fmt = 64 then (g.pair lane r).toNat
  else (g.reg lane r).toNat % 2 ^ (if fmt % 16 = 14 then 24 else fmtBits fmt)

/-- Writes a code of a format: signed integers sign-extended, the others zero-extended (R105). -/
def Group.setRaw (g : Group) (lane r fmt raw : Nat) : Group :=
  if fmtBits fmt = 64 then g.setPair lane r (BitVec.ofNat 64 raw)
  else if fmtIsInt fmt ∧ fmt < 16 then g.setReg lane r (BitVec.ofInt 32 (intValue fmt raw))
  else g.setReg lane r (BitVec.ofNat 32 (raw % 2 ^ (if fmt % 16 = 14 then 24 else fmtBits fmt)))

/-- Runs a step for every lane of a mask, ascending. -/
def Group.each (g : Group) (m : BitVec 64) (f : Group → Nat → Group) : Group := (laneList m).foldl f g

/-- n bytes of a lane's registers from r (R54). -/
def Group.bytes (g : Group) (lane r n : Nat) : List Byte :=
  (((List.range (ceilDiv n 4)).map (fun i => leBytes 4 (g.reg lane (r + i)).toNat)).flatten).take n

/-- Writes loaded bytes to a lane's registers from r, one or two bytes zero-extended (R472). -/
def Group.setBytes (g : Group) (lane r : Nat) (b : List Byte) : Group :=
  (List.range (ceilDiv b.length 4)).foldl (fun g i => g.setReg lane (r + i) (BitVec.ofNat 32 (leNat ((b.drop (4 * i)).take 4)))) g

/-! ### Tile words (R94-R96) -/

/-- SLOT of the grid format. -/
def tSlot (ops : BitVec 48) : Fin 4 := ⟨(bits ops 24 2).toNat, (bits ops 24 2).isLt⟩
/-- TOKEN of the grid format. -/
def tTokenG (ops : BitVec 48) : Fin 8 := ⟨(bits ops 26 3).toNat, (bits ops 26 3).isLt⟩
/-- ACC of the grid format. -/
def tAccG (ops : BitVec 48) : Nat := field ops 29 6
/-- INIT. -/
def tInit (ops : BitVec 48) : Bool := ops.getLsbD 35
/-- TOKEN of the move and discard formats. -/
def tTokenM (ops : BitVec 48) : Fin 8 := ⟨(bits ops 42 3).toNat, (bits ops 42 3).isLt⟩
/-- FMT_MEM. -/
def tFmtMem (ops : BitVec 48) : Nat := field ops 32 5
/-- FMT_LS. -/
def tFmtLs (ops : BitVec 48) : Nat := field ops 37 5
/-- HINT of the move format. -/
def tHint (ops : BitVec 48) : Nat := field ops 45 2

/-- A 64-bit register pair of the leader lane; 0xFF reads zero. -/
def Group.tilePair (g : Group) (lane r : Nat) : Word := if r = 255 then 0 else g.pair lane r

end Sys2Proof.Machine
end

