-- ==== Sys2Proof/Machine/Flags.lean ====
section
/-! DEFINITION. Comparisons and predicates (R472), the source modifiers of format V (R54), and the causes for which the
NaN sentry traps (R130). -/

namespace Sys2Proof.Machine

/-- A comparison of SETP by its MOD, on the order of the sources; a NaN makes all false but NE. -/
def setpHolds (mod : Nat) (nan : Bool) (c : Int) : Bool :=
  match mod with
  | 0 => !nan && decide (c = 0)
  | 1 => nan || decide (c ≠ 0)
  | 2 => !nan && decide (c < 0)
  | 3 => !nan && decide (c ≤ 0)
  | 4 => !nan && decide (0 < c)
  | _ => !nan && decide (0 ≤ c)

/-- Two values compared under MOD. -/
def compareNums (mod : Nat) (a b : Num) : Bool := setpHolds mod (decide (a = .nan) || decide (b = .nan)) (a.cmp b)

/-- Formats that SETP compares. -/
def setpFmt (f : Nat) : Bool := decide (f = 0 ∨ f = 1 ∨ f = 0x0A ∨ f = 0x1A)

/-- A source of format V as a value, negated where NEG says so: an integer modulo its width, a float by its sign. -/
def Group.src (g : Group) (lane r fmt : Nat) (neg : Bool) : Num :=
  let raw := g.raw lane r fmt
  if fmtIsInt fmt then numOf fmt (if neg then (2 ^ fmtBits fmt - raw % 2 ^ fmtBits fmt) % 2 ^ fmtBits fmt else raw)
  else if neg then (numOf fmt raw).flip else numOf fmt raw

/-- A 32-bit integer source, negated modulo 2^32 where NEG says so. -/
def Group.intSrc (g : Group) (lane r : Nat) (neg : Bool) : Word32 := if neg then -(g.reg lane r) else g.reg lane r

/-- A field that names a predicate holds no reserved bits (R472). -/
def predNamed (x : Nat) : Bool := decide (x < 8)

/-- The predicate operations of class 0x5 on lane masks: PAND, POR, PXOR, PNOT. -/
def predOp (op : Nat) (a b : BitVec 64) : BitVec 64 :=
  match op with
  | 1 => a &&& b
  | 2 => a ||| b
  | 3 => a ^^^ b
  | _ => ~~~a

/-- The lanes of a mask for which a condition holds. -/
def lanesWhere (m : BitVec 64) (f : Nat → Bool) : BitVec 64 :=
  (laneList m).foldl (fun x l => if f l then x ||| (1#64 <<< l) else x) 0

/-- The sentry in a mode traps for a cause. -/
def sentryTraps (mode cause : Nat) : Bool :=
  decide (1 ≤ cause) && (decide (mode = 1 ∧ cause ≤ 3) || decide (mode = 2 ∧ cause ≤ 4))

end Sys2Proof.Machine
end

