-- ==== Sys2Proof/Machine/Groups.lean ====
section
/-! DEFINITION. Issue (02): paths and switches, barriers, parking, the array L1 and local store, releases and acquires,
the end of groups, cohorts and occupations, and the frame in which every instruction runs. -/

namespace Sys2Proof.Machine

/-! ### Paths (R59, R60) -/

/-- Sets the current path's program counter. -/
def Group.setPc (g : Group) (pc : Word) : Group :=
  match g.paths with
  | [] => g
  | p :: t => { g with paths := { p with pc := pc } :: t }

/-- The group after an instruction of n bytes. -/
def Group.advance (g : Group) (n : Nat) : Group := g.setPc (g.path.pc + BitVec.ofNat 64 n)

/-- A path is eligible: live and not waiting at a barrier. -/
def Path.eligible (p : Path) : Bool := decide (p.mask ≠ 0) && p.wait.isNone

/-- Paths that hold the same program counter merge (R59), those that wait only with those that wait alike. -/
def mergePaths : List Path → List Path
  | [] => []
  | p :: t =>
    let r := mergePaths t
    let same (q : Path) : Bool := decide (q.pc = p.pc ∧ q.wait = p.wait)
    let hit := r.filter same
    { p with mask := hit.foldl (fun m q => m ||| q.mask) p.mask, stamp := hit.foldl (fun m q => min m q.stamp) p.stamp } :: r.filter (fun q => !same q)

/-- The path that has waited longest: the least stamp, and among equals the lowest program counter. -/
def longest : List Path → Option Path
  | [] => none
  | p :: t => match longest t with
    | none => some p
    | some q => if p.stamp < q.stamp ∨ (p.stamp = q.stamp ∧ p.pc.toNat ≤ q.pc.toNat) then some p else some q

/-- A path switch (R60). With no other eligible path the current path stays current. -/
def Group.switch (g : Group) : Group :=
  let gone := decide (g.path.mask = 0)
  let live := g.paths.filter (fun p => decide (p.mask ≠ 0))
  let live := if gone then live else match live with
    | [] => []
    | p :: t => { p with stamp := g.issues } :: t
  match mergePaths live with
  | [] => g
  | cur :: rest =>
    let cand := if gone then cur :: rest else rest
    match longest (cand.filter Path.eligible) with
    | none => { g with paths := cur :: rest }
    | some p => { g with paths := p :: (cur :: rest).filter (fun q => decide (q ≠ p)), sinceSwitch := 0 }

/-- Live paths. -/
def Group.live (g : Group) : List Path := g.paths.filter (fun p => decide (p.mask ≠ 0))

/-- The current path has used its quantum (R60 item 5). -/
def Group.quantumDue (g : Group) : Bool :=
  let n := (g.paths.filter Path.eligible).length
  decide (2 ≤ n) && decide (max 1 (256 / (n - 1)) ≤ g.sinceSwitch)

/-- A group that has issued: ready when its current path can go on, else waiting at barriers. -/
def Group.settled (g : Group) : Group := { g with st := if g.path.eligible then .ready else .waiting .barrier }

/-! ### The launch's cohorts (R39, R40, R289) -/

/-- Cohorts of the grid. -/
def Cmd.cohortCount (c : Cmd) : Nat := c.grid.1 * c.grid.2.1 * c.grid.2.2

/-- The ranges of a MODE 0 table: first cohort, end and array. -/
def ranges : Nat → List (Nat × Nat) → List (Nat × Nat × Nat)
  | _, [] => []
  | total, [(f, la)] => [(f, total, la)]
  | total, (f, la) :: (f', la') :: t => (f, min f' total, la) :: ranges total ((f', la') :: t)

/-- The next cohort at or after n that the placement assigns to an array. -/
def Cmd.nextCohort (c : Cmd) (la n : Nat) : Option Nat :=
  match c.placement with
  | none => none
  | some p =>
    let k := p.entries.length
    if p.mode = 0 then
      ((ranges c.cohortCount p.entries).find? (fun r => decide (r.2.2 = la ∧ n < r.2.1 ∧ r.1 < r.2.1))).map (fun r => max n r.1)
    else ((List.range k).find? (fun i => decide ((p.entries[(n + i) % k]?).map (·.2) = some la))).bind
      (fun i => if n + i < c.cohortCount then some (n + i) else none)

/-! ### The array L1 (R170-R172) -/

/-- Sets of the L1. -/
def Cmd.l1Sets (c : Cmd) : Nat := (2097152 - c.lsShare) / 1024

/-- The L1's copy of a line. -/
def ArrayState.l1Find (a : ArrayState) (line : Nat) : Option L1Line := a.l1.find? (fun x => decide (x.line = line))

/-- A hit makes the line most recently used. -/
def ArrayState.l1Touch (a : ArrayState) (line : Nat) : ArrayState :=
  { a with
    l1 := a.l1.map (fun x => if x.line = line then { x with stamp := a.l1Clock + 1 } else x)
    l1Clock := a.l1Clock + 1 }

/-- The least recently used of some lines. -/
def l1Lru : List L1Line → Option L1Line
  | [] => none
  | x :: t => match l1Lru t with
    | none => some x
    | some y => if x.stamp ≤ y.stamp then some x else some y

/-- A miss allocates a line, least recently used when `oldest` says so. DEDUCED: a line's set is its number modulo the
sets, since R170 gives their count alone. -/
def ArrayState.l1Fill (a : ArrayState) (sets line : Nat) (d : Line) (instr oldest : Bool) : ArrayState :=
  if (a.l1Find line).isSome ∨ sets = 0 then a else
  let inSet := a.l1.filter (fun x => decide (x.line % sets = line % sets))
  let kept := if inSet.length < 8 then a.l1 else match l1Lru inSet with
    | some v => a.l1.filter (fun x => decide (x.line ≠ v.line))
    | none => a.l1
  { a with l1 := ⟨line, d, instr, if oldest then 0 else a.l1Clock + 1⟩ :: kept, l1Clock := a.l1Clock + 1 }

/-- A line leaves the L1, and its copies on their way do not enter it. -/
def ArrayState.l1Drop (a : ArrayState) (line : Nat) : ArrayState :=
  ArrayState.noFill { a with l1 := a.l1.filter (fun x => decide (x.line ≠ line)) } (fun n => decide (n = line))

/-- A store updates the copy that is present (R171); an older copy on its way does not enter the L1. -/
def ArrayState.l1Store (a : ArrayState) (line : Nat) (d : Line) (m : BitVec 128) : ArrayState :=
  ArrayState.noFill { a with l1 := a.l1.map (fun x => if x.line = line then { x with data := mergeLine x.data d m } else x) } (fun n => decide (n = line))

/-- Changes an array. -/
def State.onArray (s : State) (la : Nat) (f : ArrayState → ArrayState) : State := s.setArray la (f (s.array la))

/-! ### Local store (R42, R204) -/

/-- A cohort resident on an array. -/
def ArrayState.cohortOf (a : ArrayState) (c : Nat) : Option Cohort := a.cohorts.find? (fun x => decide (x.idx = c))

/-- Replaces a cohort. -/
def ArrayState.putCohort (a : ArrayState) (x : Cohort) : ArrayState := { a with cohorts := a.cohorts.map (fun y => if y.idx = x.idx then x else y) }

/-- n bytes lie in a cohort's allocation. -/
def ArrayState.lsHolds (a : ArrayState) (c off n : Nat) : Bool := (a.cohortOf c).any (fun x => decide (off + n ≤ x.lsBytes))

/-- A byte of a cohort's local store; one whose contents are unspecified is a free value. -/
def ArrayState.lsByte (a : ArrayState) (c off : Nat) : Byte :=
  match a.cohortOf c with
  | none => 0
  | some x => match Tbl.get none a.ls (x.lsBase + off) with
    | some v => v.1
    | none => bits (Config.free (x.lsFresh + off / 64)) (8 * (off % 64)) 8

/-- Bytes of a cohort's local store. -/
def ArrayState.lsRead (a : ArrayState) (c off n : Nat) : List Byte := (List.range n).map (fun i => a.lsByte c (off + i))

/-- Writes bytes of a cohort's local store for a partition. -/
def ArrayState.lsWrite (a : ArrayState) (p : Fin 16) (c off : Nat) (b : List Byte) : ArrayState :=
  match a.cohortOf c with
  | none => a
  | some x => { a with ls := (b.foldl (fun (t : Tbl (Option (Byte × Fin 16)) × Nat) v => (Tbl.set none t.1 t.2 (some (v, p)), t.2 + 1)) (a.ls, x.lsBase + off)).1 }

/-! ### Acquires and releases (R203-R207, R201) -/

/-- The work of an acquire at a scope by a thread of an array (R172, R203). -/
def State.acquire (s : State) (la : Nat) (p : Fin 16) (scope : Nat) : State :=
  if scope = 0 then s else
  let s := s.onArray la (fun a => ArrayState.noFill { a with l1 := a.l1.filter (·.instr) } (fun _ => true))
  if scope = 4 then s.raiseEpoch p else s

/-- A group's loads and atomics have all been performed and their registers written. -/
def State.readsDone (s : State) (la cohort : Nat) (group : Fin 16) : Bool :=
  (s.array la).groups.all (fun g => !decide (g.cohort = cohort ∧ g.num = group) || g.loads.isEmpty)

/-- Every read and write that a release at a scope covers is performed (R203, R205, R220). -/
def State.releaseDone (s : State) (la cohort : Nat) (group : Fin 16) (scope : Nat) : Bool :=
  decide (scope = 0) || s.readsDone la cohort group && s.mem.homeReqs.all (fun r =>
    let covered := decide (r.la = la) && r.op.writes && (decide (2 ≤ scope) || decide (r.cohort = cohort ∧ r.group = group))
    let waits := match r.place with
      | .pool => decide (r.stage = .sent)
      | .remote _ => decide (scope = 4) || (r.tag.isNone && decide (r.stage = .sent))
    !(covered && waits))

/-- After a release at system scope the next host write of the function clears Relaxed Ordering (R217). -/
def State.afterRelease (s : State) (c : Cmd) (scope : Nat) : State :=
  if scope ≠ 4 then s else
  let x := s.chanCtx c.ch
  s.setFn x.port x.fn { s.fn x.port x.fn with orderNext := true }

/-! ### Parking (R67-R73) -/

/-- The sixteen park slots. -/
def parkSlots : List (Fin 16) := allParts

/-- The free park slot with the lowest number. -/
def ArrayState.freeSlot (a : ArrayState) : Option (Fin 16) := parkSlots.find? (fun k => (Tbl.get none a.parks k.val).isNone)

/-- CLASS of a park record. -/
def ParkClass.code : ParkClass → Nat
  | .translation => 1
  | .protection => 2
  | .poison => 3
  | .nanSentry => 4
  | .alignment => 5
  | .barrierDiverged => 6

/-- A park record (R70). -/
def State.parkRecord (s : State) (c : Cmd) (t : BitVec 32) (g : Group) (f : ParkFault) (stamp : Word) : List Byte :=
  leBytes 4 t.toNat ++ [BitVec.ofNat 8 f.cls.code, f.access] ++ leBytes 2 c.ch.val ++ leBytes 4 c.idx.toNat ++ leBytes 4 g.cohort
    ++ [BitVec.ofNat 8 g.num.val, BitVec.ofNat 8 c.part.val] ++ leBytes 2 g.live.length ++ [0, 0, 0, 0] ++ leBytes 8 f.pc.toNat
    ++ leBytes 8 f.lanes.toNat ++ leBytes 8 f.addr.toNat ++ leBytes 8 stamp.toNat ++ leBytes 8 s.pow.bootEpoch.toNat

/-- TICKET of a park (R70). -/
def ticketOf (la : Nat) (slot : Fin 16) (seq : BitVec 19) : BitVec 32 := BitVec.ofNat 32 (la + 512 * slot.val + 8192 * seq.toNat)

/-- Page requests of one function that may be outstanding (R325). -/
def pageAllocation : Nat := 512

/-- Sends the oldest waiting page request of a function, if its allocation has room (R325). -/
def State.sendPage (s : State) (port : Fin 2) (fn : Fin 128) : State :=
  let mine := s.host.pages.filter (fun r => decide (r.port = port ∧ r.fn = fn))
  if pageAllocation ≤ (mine.filter (·.sent)).length then s else
  match mine.find? (fun r => !r.sent) with
  | none => s
  | some r =>
    let s : State := { s with host := { s.host with pages := s.host.pages.map (fun q => if q.tag = r.tag then { q with sent := true } else q) } }
    s.emit (.pageRequest port fn (if (s.fn port fn).pasidEn then some r.pasid else none) r.page r.write r.tag)

/-- A page request for a page of host memory (R325). -/
def State.askPage (s : State) (x : Ctx) (iova : Nat) (write : Bool) (use : PageFor) : Nat × State :=
  let t := s.host.nextPage
  let r : PageReq := ⟨t, false, x.port, x.fn, x.pasid.getD 0, BitVec.ofNat 52 (iova / 4096), write, use⟩
  (t, { s with host := { s.host with nextPage := t + 1, pages := s.host.pages ++ [r] } }.sendPage x.port x.fn)

/-- A group parks in a slot (R69, R70, R72, R73): its record is written, and its sentry record sent to the collector. -/
def State.parkIn (s : State) (la : Nat) (c : Cmd) (g : Group) (k : Fin 16) (f : ParkFault) (src : ParkSrc) (rec : Option SentryRec) : State :=
  let a := s.array la
  let t := ticketOf la k a.parkSeq
  let (stamp, s) := s.freeVal 64
  let (pr, s) : Option Nat × State :=
    if f.access.getLsbD 5 then
      let write := f.access.getLsbD 1 || f.access.getLsbD 2
      match s.translate c.part f.addr.toNat write with
      | (.host iova, s) => let (n, s) := s.askPage (s.chanCtx c.ch) iova write (.park la k); (some n, s)
      | (_, s) => (none, s)
    else (none, s)
  let s := (s.onArray la (fun a => { a with
    parks := Tbl.set none a.parks k.val (some ⟨t, g.cohort, some g.num, f, src, pr⟩)
    parkSeq := a.parkSeq + 1
    faultQ := a.faultQ.filter (fun x => decide (x ≠ (g.cohort, g.num))) })).putGroup la { g with st := .parked k }
  let s := match rec with
    | some r => { s with err := { s.err with sentry := s.err.sentry ++ [(c.part, { r with ticket := t, stamp := stamp })] } }
    | none => s
  s.postFault c.part 1 (s.parkRecord c t g f stamp)

/-- A group that faults parks, or waits for a park slot (R45, R68). -/
def State.park (s : State) (la : Nat) (c : Cmd) (g : Group) (f : ParkFault) (src : ParkSrc) (rec : Option SentryRec) : State :=
  match (s.array la).freeSlot with
  | some k => s.parkIn la c g k f src rec
  | none => (s.onArray la (fun a => { a with faultQ := a.faultQ ++ [(g.cohort, g.num)] })).putGroup la { g with st := .waiting (.parkSlot f src rec) }

/-! ### Barriers (R63, R64, R208) -/

/-- A barrier with no phase begun. -/
def Barrier.fresh : Barrier := ⟨0, 0, none⟩

/-- n arrivals that name a count: each phase that they complete, and the rest toward the next (R63, R64). -/
def Barrier.arrive (count exited : Nat) : Nat → Nat → Barrier → Barrier
  | 0, _, b => b
  | _ + 1, 0, b => b
  | fuel + 1, n, b =>
    let need := max 1 (b.expected.getD count - exited - b.arrived)
    if need ≤ n then Barrier.arrive count exited fuel (n - need) ⟨b.phase + 1, 0, none⟩
    else { b with arrived := b.arrived + n, expected := some (b.expected.getD count) }

/-- A barrier after more threads have exited. -/
def Barrier.exits (exited : Nat) (b : Barrier) : Barrier :=
  match b.expected with
  | some e => if e ≤ b.arrived + exited then ⟨b.phase + 1, 0, none⟩ else b
  | none => b

/-- The waits of a group that a completed phase ends, and the group without them. -/
def Group.release (g : Group) (b : Fin 16) (phase : Nat) : List BarrierWait × Group :=
  let ends (w : BarrierWait) : Bool := decide (w.b = b ∧ w.phase < phase)
  let hit : List BarrierWait := g.paths.filterMap (fun p => p.wait.filter ends)
  let g : Group := { g with paths := g.paths.map (fun p => { p with wait := p.wait.filter (fun w => !ends w) }) }
  if hit = [] ∨ g.st ≠ .waiting .barrier then (hit, g)
  else (hit, { (if g.path.eligible then g else g.switch) with st := .ready })

/-- Lets go the paths of a cohort that waited for phases of a barrier now complete, with their acquires. -/
def State.barrierWake (s : State) (la cohort : Nat) (p : Fin 16) (b : Fin 16) (phase : Nat) : State :=
  (s.array la).groups.foldl (fun s g =>
    if g.cohort ≠ cohort then s else
    let (hit, g') := g.release b phase
    hit.foldl (fun s w => if w.acquire then s.acquire la p w.scope else s) (s.putGroup la g')) s

/-- Sets a barrier of a cohort, waking what its completed phases release. -/
def State.putBarrier (s : State) (la cohort : Nat) (p : Fin 16) (b : Fin 16) (x : Barrier) : State :=
  match (s.array la).cohortOf cohort with
  | none => s
  | some c =>
    let old := Tbl.get Barrier.fresh c.barriers b.val
    let s := s.onArray la (fun a => a.putCohort { c with barriers := Tbl.set Barrier.fresh c.barriers b.val x })
    if old.phase = x.phase then s else s.barrierWake la cohort p b x.phase

/-- n threads of a cohort exit (R64). -/
def State.exitThreads (s : State) (la cohort n : Nat) (p : Fin 16) : State :=
  match (s.array la).cohortOf cohort with
  | none => s
  | some c =>
    let s := s.onArray la (fun a => a.putCohort { c with exited := c.exited + n })
    parkSlots.foldl (fun s b => s.putBarrier la cohort p b ((Tbl.get Barrier.fresh c.barriers b.val).exits (c.exited + n))) s

/-! ### The end of a group, a cohort and an occupation (R39, R269) -/

/-- The array is free of its command: its counts join the command's, which finishes when this was its last array. -/
def State.leaveArray (s : State) (la : Nat) (c : Cmd) : State :=
  let a := s.array la
  let left := c.arrays.filter (fun x => decide (x ≠ la))
  let s := s.setArray la { a with occ := none, streams := [], counts := .zero }
  s.setCmd { c with counts := c.counts.total a.counts, arrays := left, left := c.left + 1, stage := if left = [] then .finished else c.stage }

/-- Frees an array when no cohort is left for it and its tile operations are complete (R39). -/
def State.tryLeave (s : State) (la : Nat) : State :=
  let a := s.array la
  match a.occ with
  | none => s
  | some o => match s.cmd o.cmd with
    | none => s
    | some c =>
      if c.stage = .running ∧ a.cohorts = [] ∧ a.tq = [] ∧ c.nextCohort la o.next = none then s.leaveArray la c else s

/-- A group is done; with the last of its cohort the cohort is (R40, R45). -/
def State.groupDone (s : State) (la : Nat) (g : Group) : State :=
  let s := s.putGroup la { g with st := .done }
  let a := s.array la
  if (a.groups.filter (fun x => decide (x.cohort = g.cohort))).all (fun x => decide (x.st = .done)) then
    (s.setArray la { a with
      groups := a.groups.filter (fun x => decide (x.cohort ≠ g.cohort))
      cohorts := a.cohorts.filter (fun x => decide (x.idx ≠ g.cohort)) }).tryLeave la
  else s

/-- Tokens of a group. -/
def Group.token (g : Group) (t : Nat) : Token := Tbl.get .clear g.tokens t

/-- The tokens of a mask that hold a fault, in order of acceptance: the first (R100). -/
def Group.faulted (g : Group) (m : BitVec 8) : Option (Fin 8 × ParkFault × TileOp × Option SentryRec) :=
  ([0, 1, 2, 3, 4, 5, 6, 7] : List (Fin 8)).foldl (fun best t =>
    if !m.getLsbD t.val then best else
    match g.token t.val with
    | .faulted f op r => (match best with
      | some (_, _, o, _) => if op.seq < o.seq then some (t, f, op, r) else best
      | none => some (t, f, op, r))
    | _ => best) none

/-- A token of a mask is busy. -/
def Group.busy (g : Group) (m : BitVec 8) : Bool := (List.range 8).any (fun t => m.getLsbD t && decide (g.token t = .busy))

/-- The fault of a tile operation as its group parks for it at an instruction of n bytes (R100). -/
def tokenFault (f : ParkFault) (op : TileOp) (pc : Word) (n : Nat) : ParkFault :=
  { f with pc := if f.cls = .nanSentry then pc + BitVec.ofNat 64 n else pc, lanes := 1#64 <<< op.leader, access := f.access ||| 0x08 }

/-- A group without live threads acts as if it executed TWAIT on all tokens, then is done (R97). -/
def State.groupTail (s : State) (la : Nat) (c : Cmd) (g : Group) : State :=
  match g.faulted 0xFF with
  | some (t, f, op, r) => s.park la c g (tokenFault f op g.path.pc 8) (.token t true) r
  | none =>
    if g.busy 0xFF then s.putGroup la { g with st := .waiting (.tokens 0xFF true) } else s.groupDone la g

/-! ### The frame of an instruction -/

/-- An issue under way: the array, the command, the participating lanes. -/
structure Run where
  la : Nat
  cmd : Cmd
  m : BitVec 64
  deriving DecidableEq, Repr

/-- What an instruction comes to: it completes, with a path switch where the flag says so; it completes and its group
waits for what it reads; it faults; it holds its group, to be issued again; or its group is gone or its state set. -/
inductive Eff
  | ok (s : State) (g : Group) (switch : Bool)
  | wait (s : State) (g : Group) (w : WaitReason)
  | fault (s : State) (g : Group) (f : ParkFault) (rec : Option SentryRec)
  | hold (s : State) (g : Group) (w : WaitReason)
  | stop (s : State)
  deriving DecidableEq, Repr

/-- The group has issued once more, and is its quadrant's last issuer (R43, R60); its command is charged for it (R434). -/
def State.issued (s : State) (la : Nat) (c : Cmd) (g : Group) : State :=
  ((s.charge c.part (some c.ref) .issue 1).charge c.part (some c.ref) .registers g.live.length).onArray la (fun a => { a with last := Tbl.set 0 a.last g.quadrant (g.slot + 1) })

/-- A group counted an issue (R60). -/
def Group.counted (g : Group) : Group := { g with issues := g.issues + 1, sinceSwitch := g.sinceSwitch + 1 }

/-- Ends an issue (R45). -/
def State.settle (la : Nat) (c : Cmd) : Eff → State
  | .ok s g sw =>
    let s := s.issued la c g
    let g := if sw then g.counted.switch else g.counted
    if g.live = [] then s.groupTail la c g else s.putGroup la g.settled
  | .wait s g w => (s.issued la c g).putGroup la { g.counted with st := .waiting w }
  | .fault s g f r => (s.issued la c g).park la c g f .instr r
  | .hold s g w => s.putGroup la { g with st := .waiting w }
  | .stop s => s

/-- How many slots of a quadrant the round robin passes before a slot, starting after the group that issued last (R43). -/
def turnOf (last slot : Nat) : Nat := (slot + 8 - last % 8) % 8

/-- No other ready group of the quadrant comes before a group in the round robin (R43). -/
def ArrayState.turn (a : ArrayState) (g : Group) : Bool :=
  let last := Tbl.get 0 a.last g.quadrant
  a.groups.all (fun x => !decide (x.quadrant = g.quadrant ∧ x.st = .ready) || decide (turnOf last g.slot ≤ turnOf last x.slot))

/-- The group, the array and the command of an issue, when it can issue. -/
def State.issuer (s : State) (r : GroupRef) : Option (Cmd × Group) :=
  match (s.array r.la.val).occ with
  | none => none
  | some o => match s.cmd o.cmd, s.groupOf r with
    | some c, some g =>
      if c.stage = .running ∧ g.st = .ready ∧ g.quantumDue = false ∧ (s.array r.la.val).turn g = true then some (c, g) else none
    | _, _ => none

/-- A column of an array fails (R22, R23, R388): the command is killed like one that consumed poison, and column 16 takes
its place; where it serves already, the array is fenced and its spare swap starts. -/
def State.spareColumn (s : State) (la : Nat) (col : Fin 17) (c : Cmd) : State :=
  let s := s.killPoison c
  match s.slotOf la with
  | none => s
  | some n =>
    if (s.slot n).failedColumn.isSome then (s.fenceSlot n 1).finishActions else
    let s := s.setSlot n { s.slot n with failedColumn := some ⟨col.val % 16, Nat.mod_lt _ (by decide)⟩ }
    (s.report (mkReport 0x0003 (unitId 1 n) col.val)).atlasUpdate 2 (s.arrayParts la)

/-- A failed check of a cell (R388); the flag says that the command goes on. -/
def State.cellEvent (s : State) (la : Nat) (c : Cmd) (e : CellEvent) : Bool × State :=
  let unit := unitId 1 ((s.slotOf la).getD 0)
  match e with
  | .none => (true, s)
  | .retried col => (true, s.report (mkReport 0x0001 unit col.val))
  | .wordLost col => (false, (s.report (mkReport 0x0002 unit col.val)).killPoison c)
  | .columnFailed col => (false, s.spareColumn la col c)

/-- An ECC event of the array SRAM (R389); the flag says that the command goes on. -/
def State.sramEvent (s : State) (la : Nat) (c : Cmd) (e : SramEvent) : Bool × State :=
  let unit := unitId 1 ((s.slotOf la).getD 0)
  match e with
  | .none => (true, s)
  | .corrected => (true, s.report (mkReport 0x0010 unit 0))
  | .uncorrected p =>
    let s := s.report (mkReport 0x0011 unit 0)
    match p with
    | .l1 line => (true, s.onArray la (fun a => a.l1Drop line.toNat))
    | .localStore => (false, s.killRerun c)
    | .slot n => (false, (s.onArray la (fun a => { a with slots := Tbl.set none a.slots n.val none })).killRerun c)

/-- An instruction line enters the L1 (R170). -/
def State.fetchLine (s : State) (la : Nat) (c : Cmd) (pc : Word) : State :=
  match s.translate c.part pc.toNat false with
  | (.pool pa, s) =>
    if ((s.array la).l1Find (pa / 128)).isSome then s.onArray la (fun a => a.l1Touch (pa / 128))
    else if s.txnBusy (pa / 128) then s
    else
      let ((d, po), s) := s.engRead c.part (pa / 128) 0
      if po ≠ 0 then s else s.onArray la (fun a => a.l1Fill c.l1Sets (pa / 128) d true false)
  | (_, s) => s

/-- Poison of a granule met by an access of an array that parks for it (R400); within a page under refill the command is
killed instead (R404). The flag says that the group parks. -/
def State.arrayPoison (s : State) (la : Nat) (c : Cmd) (granule : Nat) : Bool × State :=
  if s.isRefilling (granule / 64) then (false, s.refillKill c (granule / 64))
  else (true, s.poisonRead c.part granule (unitId 1 ((s.slotOf la).getD 0)))

/-- A fault of the instruction fetch (R67, R70, R400): ACCESS bit 4, in every lane of the path. -/
def State.fetchFault (s : State) (la : Nat) (c : Cmd) (g : Group) (k : ParkClass) : State :=
  let f : ParkFault := ⟨k, 0x10, g.path.mask, g.path.pc, g.path.pc⟩
  if k ≠ .poison then s.park la c g f .instr none else
  match s.translate c.part g.path.pc.toNat false with
  | (.pool pa, s) =>
    let (parks, s) := s.arrayPoison la c (pa / 64)
    if parks then s.park la c g f .instr none else s
  | (.poison n, s) =>
    let (parks, s) := s.arrayPoison la c n
    if parks then s.park la c g f .instr none else s
  | (_, s) => s.park la c g f .instr none

/-- Registers from r, none for v255. -/
def regSpan (r n : Nat) : List Nat := if r = 255 then [] else (List.range n).map (r + ·)

/-- The registers that a load or atomic writes. -/
def LoadOp.writes (o : LoadOp) : List Nat :=
  match o.kind with
  | .red _ _ => []
  | _ => regSpan (opDst o.ops) (sizeRegs (opSize o.ops))

/-- The loads of the current path's lanes that write a register of a list (R45). -/
def Group.pending (g : Group) (regs : List Nat) : List Nat :=
  (g.loads.filter (fun o => decide (o.mask &&& g.path.mask ≠ 0) && o.writes.any (fun r => regs.contains r))).map (·.seq)

/-- The issue of an instruction: physical events first, then the fetch, the legality of the word (R57), its registers
(`regs`: those that it names and uses) and its effect. A group that is not ready, whose path has used its quantum, or
whose turn it is not, does not issue; one whose registers a load has still to write waits for it. A word of a reserved
class or OP is illegal (R57). -/
def State.issue (s : State) (i : Issue) (legal : Cmd → Bool) (regs : List Nat) (run : Run → State → Group → Eff) : State :=
  match s.issuer i.g with
  | none => s
  | some (c, g) =>
    let la := i.g.la.val
    let (on, s) := s.cellEvent la c i.cell
    if !on then s else
    let (on, s) := s.sramEvent la c i.sram
    if !on then s else
    match i.fetch with
    | .translation => s.fetchFault la c g .translation
    | .protection => s.fetchFault la c g .protection
    | .poison => s.fetchFault la c g .poison
    | .reserved w => if (xaiDecode i w 0).isSome then s else (s.fetchLine la c g.path.pc).endCmd c 0x11 (BitVec.ofNat 32 la)
    | .word =>
      let s := s.fetchLine la c g.path.pc
      if !legal c then s.endCmd c 0x11 (BitVec.ofNat 32 la)
      else if g.pending regs ≠ [] then State.settle la c (.hold s g (.operand (g.pending regs)))
      else State.settle la c (run ⟨la, c, g.lanes i⟩ s g)

/-- An instruction of one word that only changes registers and predicates. -/
def State.vector (s : State) (i : Issue) (legal : Cmd → Bool) (regs : List Nat) (f : Run → Group → Group) : State :=
  s.issue i legal regs (fun r s g => .ok s ((f r g).advance 8) false)

/-! ### Results that the sentry watches (R130-R133) -/

/-- A sentry record of a vector instruction (R133). -/
def Run.sentryRec (r : Run) (g : Group) (opClass cause : Nat) (fa fb fo : Nat) (lane : Nat) : SentryRec where
  la := r.la
  ticket := 0
  opClass := opClass
  cause := cause
  fmtA := BitVec.ofNat 8 fa
  fmtB := BitVec.ofNat 8 fb
  fmtOut := BitVec.ofNat 8 fo
  slot := 0
  ch := r.cmd.ch.val
  idx := r.cmd.idx
  cohort := g.cohort
  group := g.num.val
  part := r.cmd.part.val
  lane := lane
  rerun := min r.cmd.reruns 255
  patId := 0
  c0 := 0
  c1 := 0
  c2 := 0
  pc := g.path.pc
  stamp := 0

/-- Disarms the sentry of an array after its trap (R132). -/
def State.sentryFired (s : State) (la : Nat) : State := s.onArray la (fun a => { a with sentryArmed := false, counts := { a.counts with traps := 1 } })

/-- Adds to the numeric counters of an array (R128). -/
def State.countNum (s : State) (la : Nat) (n : NumCounts) : State := s.onArray la (fun a => { a with counts := a.counts.plus n })

/-- Ends a vector instruction whose lanes gave NaN results for the causes listed by lane: the sentry traps, or not. `g0` is
the group before it and `g` after it. -/
def State.watched (s : State) (r : Run) (g0 g : Group) (opClass fa fb fo : Nat) (causes : List (Nat × Nat)) : Eff :=
  let g' := g.advance 8
  let nans := causes.filter (fun x => decide (x.2 ≠ 0))
  let traps := nans.filter (fun x => sentryTraps r.cmd.sentry x.2)
  match (s.array r.la).sentryArmed, traps with
  | true, t :: _ =>
    let s := s.sentryFired r.la
    let lane := ((nans.head?).map (·.1)).getD 0
    .fault s g'.counted
      ⟨.nanSentry, 0, traps.foldl (fun m x => m ||| (1#64 <<< x.1)) 0, 0, g'.path.pc⟩ (some (r.sentryRec g0 opClass t.2 fa fb fo lane))
  | _, _ => .ok s g' false

/-! ### Rows of the issue machinery -/

/-- PATH_QUANTUM_SWITCH (R60). -/
def execPathQuantumSwitch (r : GroupRef) (s : State) : Host.Outcome State Fault Refusal :=
  match s.groupOf r with
  | none => .next s
  | some g => if g.st = .ready ∧ g.quantumDue then .next (s.putGroup r.la.val g.switch) else .next s

/-- The command that occupies an array. -/
def State.occupantCmd (s : State) (la : Nat) : Option Cmd := (s.array la).occ.bind (fun o => s.cmd o.cmd)

/-- PARK_SLOT_GRANTED (R68): a freed slot goes to the group that has waited longest with its fault pending. -/
def execParkSlotGranted (la : Fin 384) (s : State) : Host.Outcome State Fault Refusal :=
  let a := s.array la.val
  match s.occupantCmd la.val, a.faultQ.head?, a.freeSlot with
  | some c, some (cohort, num), some k =>
    (match s.groupOf ⟨la, cohort, num⟩ with
      | none => .next s
      | some g => match g.st with
        | .waiting (.parkSlot f src rec) => .next (s.parkIn la.val c g k f src rec)
        | _ => .next s)
  | _, _, _ => .next s

/-- A park leaves its slot, and the sentry entry that its ticket fills empties (R76, R134). -/
def State.freePark (s : State) (la : Nat) (k : Fin 16) : State :=
  match Tbl.get none (s.array la).parks k.val with
  | none => s
  | some p => (s.sentryFree p.ticket).onArray la (fun a => { a with parks := Tbl.set none a.parks k.val none })

/-- The park limit resolves a park by kill (R75): the third in a row completes with PARK_EXPIRED; a sealed command is
aborted; after BARRIER_DIVERGED the command ends as R66 says. -/
def State.parkExpire (s : State) (c : Cmd) (la : Nat) (cls : ParkClass) : State :=
  if cls = .barrierDiverged then (match c.stage with
    | .draining _ => (s.vacateArrays c)
    | _ => s)
  else if c.stage ≠ .running then s
  else if c.isSealed then s.endCmd c 6 0
  else if 2 ≤ c.parkKills then s.endCmd c 0x13 (BitVec.ofNat 32 la)
  else s.killCmd { c with parkKills := c.parkKills + 1 } none

/-- PARK_LIMIT_EXPIRED (R75, R76). -/
def execParkLimitExpired (la : Fin 384) (w : ParkRef) (s : State) : Host.Outcome State Fault Refusal :=
  match s.occupantCmd la.val with
  | none => .next s
  | some c =>
    (match w with
      | .slot k => match Tbl.get none (s.array la.val).parks k.val with
        | none => .next s
        | some p => .next ((s.freePark la.val k).parkExpire c la.val p.fault.cls)
      | .pending cohort group => match s.groupOf ⟨la, cohort, group⟩ with
        | none => .next s
        | some g => match g.st with
          | .waiting (.parkSlot f _ _) => .next (s.parkExpire c la.val f.cls)
          | _ => .next s)

/-- Every live thread of the cohort waits at a barrier or is stalled behind one, at least one such barrier is incomplete, and
no group is ready or parked (R65). -/
def ArrayState.diverged (a : ArrayState) (cohort : Nat) : Bool :=
  let gs := a.groups.filter (fun g => decide (g.cohort = cohort) && decide (g.live ≠ []))
  let halted (g : Group) : Bool := match g.st with
    | .ready => true
    | .parked _ => true
    | .waiting (.parkSlot _ _ _) => true
    | _ => false
  decide (gs ≠ []) && gs.all (fun g => decide (g.st = .waiting .barrier) && g.live.all (fun p => p.wait.isSome))
    && !a.groups.any (fun g => decide (g.cohort = cohort) && halted g)

/-- The record of a group in a cohort trap (R71). -/
def Group.divergedFault (g : Group) : ParkFault :=
  let w := g.path.wait
  ⟨.barrierDiverged, 0, g.path.mask, match w with
    | some b => BitVec.ofNat 64 (b.b.val + (if b.inWait then 16 else 0))
    | none => 0, g.path.pc⟩

/-- BARRIER_DIVERGED (R65, R66, R71): the cohort is parked in one slot, a record is written for each of its groups with a
live thread, and the command's other cohorts are killed. -/
def execBarrierDiverged (la : Fin 384) (cohort : Nat) (s : State) : Host.Outcome State Fault Refusal :=
  let a := s.array la.val
  match s.occupantCmd la.val, a.freeSlot with
  | some c, some k =>
    if c.stage ≠ .running ∨ !a.diverged cohort then .next s else
    let t := ticketOf la.val k a.parkSeq
    let gs := a.groups.filter (fun g => decide (g.cohort = cohort))
    let co := a.cohorts.filter (fun x => decide (x.idx = cohort))
    let f : ParkFault := ⟨.barrierDiverged, 0, 0, 0, 0⟩
    let (stamp, s) := s.freeVal 64
    let s := (s.vacateArrays c).dropReads c.ref
    let s := s.onArray la.val (fun x => { x with
      groups := gs.map (fun g => { g with st := .parked k })
      cohorts := co
      parks := [(k.val, some ⟨t, cohort, none, f, .instr, none⟩)]
      parkSeq := x.parkSeq + 1 })
    let s := s.setCmd { c with stage := .draining (some (0x12, BitVec.ofNat 32 la.val)), build := none }
    .next (gs.foldl (fun s g => if g.live = [] then s else s.postFault c.part 1 (s.parkRecord c t g g.divergedFault stamp)) s)
  | _, _ => .next s

end Sys2Proof.Machine
end

