-- ==== Sys2Proof/Machine/Scalar.lean ====
section
/-! DEFINITION. Instructions of classes 0x0-0x7 and 0xA-0xC (R55, R472): arithmetic, conversion, predicates, cross-lane
moves, control, barriers, fences and special registers. -/

namespace Sys2Proof.Machine

/-! ### Integers (R472) -/

/-- The number of leading zeros of a 32-bit value. -/
def clz32 (a : Word32) : Nat := if a = 0 then 32 else 31 - a.toNat.log2

/-- The bits of a 32-bit value in reverse. -/
def brev32 (a : Word32) : Word32 := (List.range 32).foldl (fun x i => if a.getLsbD i then x ||| (1#32 <<< (31 - i)) else x) 0

/-- The operations of class 0x0 by OP[4:0]; `signed` is the signedness of MIN, MAX, MUL.HI and ABS. -/
def intOp (op : Nat) (signed : Bool) (a b c : Word32) : Word32 :=
  match op with
  | 0 => a + b
  | 1 => a - b
  | 2 => a * b
  | 3 => if signed then BitVec.ofInt 32 (a.toInt * b.toInt / 2 ^ 32) else BitVec.ofNat 32 (a.toNat * b.toNat / 2 ^ 32)
  | 4 => a * b + c
  | 5 => if signed then (if a.toInt ≤ b.toInt then a else b) else (if a.toNat ≤ b.toNat then a else b)
  | 6 => if signed then (if a.toInt ≤ b.toInt then b else a) else (if a.toNat ≤ b.toNat then b else a)
  | 7 => if signed ∧ a.toInt < 0 then -a else a
  | 8 => a &&& b
  | 9 => a ||| b
  | 10 => a ^^^ b
  | 11 => ~~~a
  | 12 => if b.toNat < 32 then a <<< b.toNat else 0
  | 13 => if b.toNat < 32 then a >>> b.toNat else 0
  | 14 => a.sshiftRight (min b.toNat 31)
  | 15 => BitVec.ofNat 32 (pop a)
  | 16 => BitVec.ofNat 32 (clz32 a)
  | _ => brev32 a

/-- Operations of class 0x0 that read one source: ABS, NOT, POPC, CLZ, BREV. -/
def intUnary (op : Nat) : Bool := decide (op = 7 ∨ op = 11 ∨ 15 ≤ op)

/-- Legality of an integer instruction (R57, R472): format V below OP 0x80, format I from it. -/
def legalInt (op : Nat) (ops : BitVec 48) (c : Cmd) : Bool :=
  let n := c.regCount
  if op < 128 then
    decide (op < 18) && legalV ops && decide (opFmt ops = 0x0A ∨ opFmt ops = 0x1A) && regNamed n (opDst ops) && regNamed n (opA ops)
      && (intUnary op || regNamed n (opB ops)) && (decide (op ≠ 4) || regNamed n (opC ops))
  else decide (op < 146) && regNamed n (opDst ops) && regNamed n (opA ops)

/-- The registers that an integer instruction names and uses. -/
def intRegs (op : Nat) (ops : BitVec 48) : List Nat :=
  if op < 128 then [opDst ops, opA ops] ++ (if intUnary op then [] else [opB ops]) ++ (if op = 4 then [opC ops] else []) else [opDst ops, opA ops]

/-- What an integer instruction writes in a lane. -/
def intResult (op : Nat) (ops : BitVec 48) (g : Group) (l : Nat) : Word32 :=
  if op < 128 then
    intOp op (decide (opFmt ops = 0x0A)) (g.intSrc l (opA ops) (opNeg ops 0)) (g.intSrc l (opB ops) (opNeg ops 1)) (g.intSrc l (opC ops) (opNeg ops 2))
  else intOp (op - 128) true (g.reg l (opA ops)) (opImm ops) (g.reg l (opDst ops))

/-- INTEGER_OP (R472). -/
def execIntegerOp (i : Issue) (op : BitVec 8) (ops : BitVec 48) (s : State) : Host.Outcome State Fault Refusal :=
  .next (s.vector i (legalInt op.toNat ops) (intRegs op.toNat ops) (fun r g => g.each r.m (fun h l => h.setReg l (opDst ops) (intResult op.toNat ops g l))))

/-! ### Floating point (R114, R115) -/

/-- The operations of class 0x1 by OP. -/
def fp32Ops : List FpOp := [.add, .mul, .fma, .min, .max, .abs, .rcp, .rsq, .sqrt, .exp2, .log2, .sin, .cos]

/-- The operations of class 0x2 by OP. -/
def fp64Ops : List FpOp := [.add, .mul, .fma, .min, .max, .rcp, .sqrt]

/-- The operations of class 0x3 by OP. -/
def packedOps : List FpOp := [.add, .mul, .fma, .min, .max]

/-- Legality of a floating-point instruction over registers that `named` accepts; RND 2 is reserved (R114). -/
def legalFp (table : List FpOp) (op : Nat) (ops : BitVec 48) (named : Nat → Bool) : Bool :=
  match table[op]? with
  | none => false
  | some f => legalV ops && decide (opRnd ops ≤ 1) && named (opDst ops) && named (opA ops)
      && (decide (f.arity < 2) || named (opB ops)) && (decide (f.arity < 3) || named (opC ops))

/-- The registers that a floating-point instruction names and uses, n of each operand. -/
def fpRegs (table : List FpOp) (op n : Nat) (ops : BitVec 48) : List Nat :=
  let k := (table.getD op .add).arity
  regSpan (opDst ops) n ++ regSpan (opA ops) n ++ (if k < 2 then [] else regSpan (opB ops) n) ++ (if k < 3 then [] else regSpan (opC ops) n)

/-- One lane of a class 0x1 or 0x2 instruction, whose OP is op: the code and the cause. The operand's code is taken with NEG
applied. -/
def fpLane (f : FpOp) (op fmt : Nat) (ops : BitVec 48) (g : Group) (l : Nat) : Nat × Nat :=
  let free := Config.approx op (opRnd ops) ((floatFmt fmt).result 0 (g.src l (opA ops) fmt (opNeg ops 0)))
  f.run (floatFmt fmt) (decide (fmt = 0)) (opRnd ops) (g.src l (opA ops) fmt (opNeg ops 0)) (g.src l (opB ops) fmt (opNeg ops 1))
    (g.src l (opC ops) fmt (opNeg ops 2)) free

/-- Advances the free values by one for each lane. -/
def State.skipFree (s : State) (n : Nat) : State := { s with freeCount := s.freeCount + n }

/-- A class 0x1 or 0x2 instruction: the lanes' results are written, and the sentry watches them. -/
def State.fpIssue (s : State) (i : Issue) (table : List FpOp) (fmt : Nat) (op : Nat) (ops : BitVec 48) (named : Cmd → Nat → Bool) : State :=
  s.issue i (fun c => legalFp table op ops (named c)) (fpRegs table op (if fmt = 0 then 2 else 1) ops) (fun r s g =>
    let f := table.getD op .add
    let res := (laneList r.m).map (fun l => (l, fpLane f op fmt ops g l))
    let g' := res.foldl (fun h x => h.setRaw x.1 (opDst ops) fmt x.2.1) g
    s.watched r g g' 1 fmt (if f.arity < 2 then 0xFF else fmt) fmt (res.map (fun x => (x.1, x.2.2))))

/-- FP32_OP (R114, R115). -/
def execFp32Op (i : Issue) (op : BitVec 8) (ops : BitVec 48) (s : State) : Host.Outcome State Fault Refusal :=
  .next (s.fpIssue i fp32Ops 1 op.toNat ops (fun c => regNamed c.regCount))

/-- FP64_OP (R114): operands in register pairs. -/
def execFp64Op (i : Issue) (op : BitVec 8) (ops : BitVec 48) (s : State) : Host.Outcome State Fault Refusal :=
  .next (s.fpIssue i fp64Ops 0 op.toNat ops (fun c => pairNamed c.regCount))

/-- A half of a source of class 0x3, with its negation. -/
def Group.halfSrc (g : Group) (l r fmt : Nat) (hi neg : Bool) : Num :=
  let v := numOf fmt (field (g.reg l r) (if hi then 16 else 0) 16)
  if neg then v.flip else v

/-- One half of a class 0x3 instruction. -/
def packedHalf (f : FpOp) (ops : BitVec 48) (g : Group) (l : Nat) (hi : Bool) : Nat × Nat :=
  let v (r k : Nat) : Num := g.halfSrc l r (opFmt ops) hi (opNeg ops k)
  f.run (floatFmt (opFmt ops)) true (opRnd ops) (v (opA ops) 0) (v (opB ops) 1) (v (opC ops) 2) 0

/-- PACKED16_OP (R472, R114): each half on its own. -/
def execPacked16Op (i : Issue) (op : BitVec 8) (ops : BitVec 48) (s : State) : Host.Outcome State Fault Refusal :=
  .next (s.issue i (fun c => legalFp packedOps op.toNat ops (regNamed c.regCount) && decide (opFmt ops = 2 ∨ opFmt ops = 3)) (fpRegs packedOps op.toNat 1 ops) (fun r s g =>
    let f := packedOps.getD op.toNat .add
    let res := (laneList r.m).map (fun l => (l, packedHalf f ops g l false, packedHalf f ops g l true))
    let g' := res.foldl (fun h x => h.setReg x.1 (opDst ops) (BitVec.ofNat 32 (x.2.1.1 + 65536 * x.2.2.1))) g
    s.watched r g g' 1 (opFmt ops) (if f.arity < 2 then 0xFF else opFmt ops) (opFmt ops)
      ((res.map (fun x => [(x.1, x.2.1.2), (x.1, x.2.2.2)])).flatten)))

/-! ### Conversions (R112, R116-R127) -/

/-- The state of a generator stream (R121): its seed until it has drawn. -/
def ArrayState.gen (a : ArrayState) (seed : Word) (la c : Nat) : Word :=
  let x := Tbl.get 0 a.gens c
  if x = 0 then genSeed seed la c else x

/-- Sets the state of a generator stream. -/
def State.setGen (s : State) (la c : Nat) (x : Word) : State := s.onArray la (fun a => { a with gens := Tbl.set 0 a.gens c x })

/-- Sources and destinations of UNPK12 and PK12 (R112). -/
def sampleFmt (f : Nat) : Bool := decide (f % 16 = 10 ∨ f % 16 = 11 ∨ f = 1 ∨ f = 3) && !fmtReserved f

/-- The legality of CVT (R116, R119, R127): `n` registers. -/
def legalCvt (ops : BitVec 48) (c : Cmd) : Bool :=
  let n := c.regCount
  let d := opFmt ops
  let m := opMod ops
  let b := opC ops
  let scale (x y : Nat) : Bool := decide (x % 16 ≠ 9) || decide (y = 0 ∨ y = 1)
  legalV ops && !fmtReserved m && decide (b = 0 ∨ b = 16 ∨ b = 32) && fmtNamed n d (opDst ops) && fmtNamed n m (opA ops)
    && (if b = 0 then decide (d = m) || (scale d m && scale m d)
        else regNamed n (opB ops) && ((fmtIsMx d && decide (m ≤ 3)) || (fmtIsMx m && !fmtIsMx d && decide (d % 16 ≠ 9))))

/-- The registers that CVT names and uses. -/
def cvtRegs (ops : BitVec 48) : List Nat :=
  regSpan (opDst ops) (if opFmt ops % 16 = 0 then 2 else 1) ++ regSpan (opA ops) (if opMod ops % 16 = 0 then 2 else 1) ++ (if opC ops = 0 then [] else [opB ops])

/-- What a conversion of one lane leaves: the lane, the code, the scale where one is written, the cause. -/
structure CvtLane where
  lane : Nat
  raw : Nat
  scale : Option Nat
  cause : Nat
  deriving DecidableEq, Repr

/-- One lane of CVT with its stream; U12P, for which the spec gives CVT no result, takes a free value. -/
def cvtLane (ops : BitVec 48) (g : Group) (l : Nat) (scaled : Bool) (x : Word) (free : Nat) : Conv :=
  let d := opFmt ops
  let m := opMod ops
  if d % 16 = 14 ∨ m % 16 = 14 then ⟨free, .zero, 0, x⟩
  else
    let v := if scaled then scaledNum m (g.raw l (opA ops) m) (g.reg l (opB ops)).toNat else g.src l (opA ops) m false
    convert d (fmtFromInt m) (if opNeg ops 0 ∧ ¬ fmtFromInt m then v.flip else if opNeg ops 0 then g.src l (opA ops) m true else v) (opRnd ops) (opSat ops) x

/-- The lanes of a list converted one by one, each drawing from its cell's stream. -/
def State.cvtEach (s : State) (r : Run) (g : Group) (f : Nat → Word → Conv) : List Nat → List CvtLane × State
  | [] => ([], s)
  | l :: t =>
    let k := 64 * g.quadrant + l
    let x := (s.array r.la).gen r.cmd.srSeed r.la k
    let v := f l x
    let s := (if v.g = x then s else s.setGen r.la k v.g).countNum r.la v.counts
    let (rest, s) := State.cvtEach s r g f t
    (⟨l, v.raw, none, v.cause⟩ :: rest, s)

/-- One block of a quantising CVT (R126, R127): the participating lanes of n from `first`. -/
def State.quantise (s : State) (r : Run) (g : Group) (ops : BitVec 48) (first n : Nat) : List CvtLane × State :=
  let ls := (laneList r.m).filter (fun l => decide (first ≤ l ∧ l < first + n))
  if ls = [] then ([], s) else
  let val (l : Nat) : Num := g.src l (opA ops) (opMod ops) (opNeg ops 0)
  let xs := ls.map val
  let (scale, cause) := blockScale (opFmt ops) xs
  let zero := xs.all Num.isZero
  let (out, s) := s.cvtEach r g (fun l x => blockElem (opFmt ops) scale zero (val l) (opRnd ops) x) ls
  let s := if scale = 255 then s.countNum r.la ⟨0, 0, 0, 1, 0⟩ else s
  (out.map (fun o => { o with scale := some scale, cause := cause }), s)

/-- The blocks of a quantising CVT in ascending order. -/
def State.quantiseAll (s : State) (r : Run) (g : Group) (ops : BitVec 48) : List CvtLane × State :=
  (List.range (64 / opC ops)).foldl (fun (x : List CvtLane × State) k =>
    let (o, s) := x.2.quantise r g ops (k * opC ops) (opC ops)
    (x.1 ++ o, s)) ([], s)

/-- Writes the results of a conversion: the element, then the block's scale. -/
def writeCvt (ops : BitVec 48) (g : Group) (l : List CvtLane) : Group :=
  l.foldl (fun h o =>
    let h := h.setRaw o.lane (opDst ops) (opFmt ops) o.raw
    match o.scale with
    | some v => h.setReg o.lane (opB ops) (BitVec.ofNat 32 v)
    | none => h) g

/-- CVT (R116, R127, R469). -/
def execCvt (i : Issue) (ops : BitVec 48) (s : State) : Host.Outcome State Fault Refusal :=
  .next (s.issue i (legalCvt ops) (cvtRegs ops) (fun r s g =>
    let d := opFmt ops
    let m := opMod ops
    if opC ops = 0 ∧ d = m then .ok s ((g.each r.m (fun h l => h.setRaw l (opDst ops) d (g.raw l (opA ops) d))).advance 8) false
    else
      let (out, s) := if opC ops ≠ 0 ∧ fmtIsMx d then s.quantiseAll r g ops
        else
          let base := s.freeCount
          (s.skipFree 64).cvtEach r g (fun l x => cvtLane ops g l (decide (opC ops ≠ 0)) x (Config.free (base + l)).toNat) (laneList r.m)
      s.watched r g (writeCvt ops g out) 2 m 0xFF d (out.map (fun o => (o.lane, o.cause)))))

/-- UNPK12 (R112). -/
def execUnpk12 (i : Issue) (ops : BitVec 48) (s : State) : Host.Outcome State Fault Refusal :=
  .next (s.issue i (fun c => legalV ops && sampleFmt (opFmt ops) && regNamed c.regCount (opA ops) && regsNamed c.regCount (opDst ops) 2) (opA ops :: regSpan (opDst ops) 2) (fun r s g =>
    let d := opFmt ops
    let one (k : Nat) : List CvtLane × State → List CvtLane × State := fun x =>
      let (o, s) := x.2.cvtEach r g (fun l w =>
        let v := Num.ofInt (field (g.reg l (opA ops)) (12 * k) 12) 0 false
        convert d true (if opNeg ops 0 then (if fmtIsInt d then Num.ofInt (-v.toInt) 0 false else v.flip) else v) (opRnd ops) (opSat ops) w) (laneList r.m)
      (x.1 ++ o, s)
    let (o0, s) := one 0 ([], s)
    let (o1, s) := one 1 ([], s)
    let g' := o0.foldl (fun h o => h.setRaw o.lane (opDst ops) d o.raw) g
    let g' := o1.foldl (fun h o => h.setRaw o.lane (opDst ops + 1) d o.raw) g'
    s.watched r g g' 2 0x0E 0xFF d []))

/-- PK12 (R112, R113). -/
def execPk12 (i : Issue) (ops : BitVec 48) (s : State) : Host.Outcome State Fault Refusal :=
  .next (s.issue i (fun c => legalV ops && sampleFmt (opMod ops) && regNamed c.regCount (opA ops) && regNamed c.regCount (opB ops) && regNamed c.regCount (opDst ops)) [opDst ops, opA ops, opB ops] (fun r s g =>
    let m := opMod ops
    let conv (reg k : Nat) (l : Nat) (w : Word) : Conv := convert 0x0E (fmtIsInt m) (g.src l reg m (opNeg ops k)) (opRnd ops) (opSat ops) w
    let (o0, s) := s.cvtEach r g (conv (opA ops) 0) (laneList r.m)
    let (o1, s) := s.cvtEach r g (conv (opB ops) 1) (laneList r.m)
    let g' := (o0.zip o1).foldl (fun h o => h.setReg o.1.lane (opDst ops) (BitVec.ofNat 32 (o.1.raw % 4096 + 4096 * (o.2.raw % 4096)))) g
    s.watched r g g' 2 m m 0x0E []))

/-! ### Predicates and cross-lane moves (R472) -/

/-- SETP (R472). -/
def execSetp (i : Issue) (ops : BitVec 48) (s : State) : Host.Outcome State Fault Refusal :=
  let f := opFmt ops
  .next (s.vector i (fun c => legalV ops && setpFmt f && decide (opMod ops ≤ 5) && predNamed (opDst ops) && fmtNamed c.regCount f (opA ops) && fmtNamed c.regCount f (opB ops))
    (regSpan (opA ops) (if f = 0 then 2 else 1) ++ regSpan (opB ops) (if f = 0 then 2 else 1))
    (fun r g => g.setPred (opDst ops) r.m (lanesWhere r.m (fun l => compareNums (opMod ops) (g.src l (opA ops) f (opNeg ops 0)) (g.src l (opB ops) f (opNeg ops 1))))))

/-- PAND, POR, PXOR and PNOT: OP 0x01-0x04 of class 0x5. -/
def State.predIssue (s : State) (i : Issue) (op : Nat) (ops : BitVec 48) : State :=
  s.vector i (fun _ => legalV ops && predNamed (opDst ops) && predNamed (opA ops) && (decide (op = 4) || predNamed (opB ops))) []
    (fun r g => g.setPred (opDst ops) r.m (predOp op (g.pred (opA ops)) (g.pred (opB ops))))

/-- PAND (R472). -/
def execPand (i : Issue) (ops : BitVec 48) (s : State) : Host.Outcome State Fault Refusal := .next (s.predIssue i 1 ops)

/-- POR (R472). -/
def execPor (i : Issue) (ops : BitVec 48) (s : State) : Host.Outcome State Fault Refusal := .next (s.predIssue i 2 ops)

/-- PXOR (R472). -/
def execPxor (i : Issue) (ops : BitVec 48) (s : State) : Host.Outcome State Fault Refusal := .next (s.predIssue i 3 ops)

/-- PNOT (R472). -/
def execPnot (i : Issue) (ops : BitVec 48) (s : State) : Host.Outcome State Fault Refusal := .next (s.predIssue i 4 ops)

/-- A move of SRCA from a lane that `from'` names, or zero where it names none. DESIGN CHOICE: NEG of SRCA negates the moved
value as an integer, and NEG has no effect on a selector. -/
def State.moveIssue (s : State) (i : Issue) (ops : BitVec 48) (usesB : Bool) (src : Run → Group → Nat → Option Nat) : State :=
  s.vector i (fun c => legalV ops && regNamed c.regCount (opDst ops) && regNamed c.regCount (opA ops) && (!usesB || regNamed c.regCount (opB ops)))
    ([opDst ops, opA ops] ++ (if usesB then [opB ops] else []))
    (fun r g => g.each r.m (fun h l => h.setReg l (opDst ops) (match src r g l with
      | some k => g.intSrc k (opA ops) (opNeg ops 0)
      | none => 0)))

/-- SHFL (R472). -/
def execShfl (i : Issue) (ops : BitVec 48) (s : State) : Host.Outcome State Fault Refusal :=
  .next (s.moveIssue i ops true (fun _ g l => some (field (g.reg l (opB ops)) 0 6)))

/-- SHFL_XOR (R472). -/
def execShflXor (i : Issue) (ops : BitVec 48) (s : State) : Host.Outcome State Fault Refusal :=
  .next (s.moveIssue i ops true (fun _ g l => some (l ^^^ field (g.reg l (opB ops)) 0 6)))

/-- BCAST (R472). -/
def execBcast (i : Issue) (ops : BitVec 48) (s : State) : Host.Outcome State Fault Refusal :=
  .next (s.moveIssue i ops true (fun r g _ => some (field (g.reg (leader r.m) (opB ops)) 0 6)))

/-- BALLOT (R472). -/
def execBallot (i : Issue) (ops : BitVec 48) (s : State) : Host.Outcome State Fault Refusal :=
  .next (s.vector i (fun c => legalV ops && predNamed (opA ops) && pairNamed c.regCount (opDst ops)) (regSpan (opDst ops) 2)
    (fun r g => g.each r.m (fun h l => h.setPair l (opDst ops) (r.m &&& g.pred (opA ops)))))

/-- VOTE (R472): MOD 0 any, 1 every. -/
def execVote (i : Issue) (ops : BitVec 48) (s : State) : Host.Outcome State Fault Refusal :=
  .next (s.vector i (fun _ => legalV ops && predNamed (opA ops) && predNamed (opDst ops) && decide (opMod ops ≤ 1)) []
    (fun r g =>
      let hit := r.m &&& g.pred (opA ops)
      let v := if opMod ops = 0 then decide (hit ≠ 0) else decide (hit = r.m)
      g.setPred (opDst ops) r.m (if v then BitVec.allOnes 64 else 0)))

/-- The lane of the neighbouring cell within the group's four rows, none at the quadrant's edge without wrap (R36, R55). -/
def neighbour (d : Dir) (wrap : Bool) (l : Nat) : Option Nat :=
  let row := l / 16
  let col := l % 16
  match d with
  | .north => if row = 0 then (if wrap then some (48 + col) else none) else some (l - 16)
  | .south => if row = 3 then (if wrap then some col else none) else some (l + 16)
  | .east => if col = 15 then (if wrap then some (16 * row) else none) else some (l + 1)
  | .west => if col = 0 then (if wrap then some (16 * row + 15) else none) else some (l - 1)

/-- NBR (R472, R55). -/
def execNbr (i : Issue) (dir : Dir) (ops : BitVec 48) (s : State) : Host.Outcome State Fault Refusal :=
  .next (s.moveIssue i ops false (fun _ _ l => neighbour dir (decide (opMod ops % 2 = 1)) l))

/-! ### Control (R55, R59, R60, R64) -/

/-- The current path splits off the lanes of a mask as a path of its own, and goes on with the others. -/
def Group.splitOff (g : Group) (m : BitVec 64) (f : Path → Path) : Group :=
  match g.paths with
  | [] => g
  | p :: t =>
    let q := f { p with mask := m, stamp := g.issues }
    if p.mask &&& ~~~m = 0 then { g with paths := { q with stamp := p.stamp } :: t }
    else { g with paths := { p with mask := p.mask &&& ~~~m, pc := p.pc + 8 } :: q :: t }

/-- A direct branch of the lanes of m to a target: the fall-through path stays current (R59); a path that goes backward
whole switches (R60). -/
def Group.branch (g : Group) (m : BitVec 64) (target : Word) : Group × Bool :=
  if m = 0 then (g.advance 8, false)
  else (g.splitOff m (fun q => { q with pc := target }), decide (g.path.mask &&& ~~~m = 0) && decide (target.toNat ≤ g.path.pc.toNat))

/-- The target of a displacement in instruction words. -/
def Group.target (g : Group) (ops : BitVec 48) : Word := g.path.pc + BitVec.ofInt 64 (8 * opDisp ops)

/-- BRA (R59). -/
def execBra (i : Issue) (ops : BitVec 48) (s : State) : Host.Outcome State Fault Refusal :=
  .next (s.issue i (fun _ => cleanJ ops) [] (fun r s g =>
    let (g', sw) := g.branch r.m (g.target ops)
    .ok s g' sw))

/-- Inserts lanes with a target into the list of paths, ascending by target. -/
def addTarget (t : Word) (m : BitVec 64) : List (Word × BitVec 64) → List (Word × BitVec 64)
  | [] => [(t, m)]
  | (u, k) :: l =>
    if t = u then (u, k ||| m) :: l
    else if t.toNat < u.toNat then (t, m) :: (u, k) :: l
    else (u, k) :: addTarget t m l

/-- An indirect branch or return: one path per distinct target, and one for the lanes that take no part (R59). Of several
targets the lowest stays current; beside a single target the fall-through path does. -/
def Group.indirect (g : Group) (m : BitVec 64) (reg : Nat) : Group × Bool :=
  let rest := g.path.mask &&& ~~~m
  let ts := (laneList m).foldl (fun l x => addTarget (g.pair x reg) (1#64 <<< x) l) []
  let fall : List Path := if rest = 0 then [] else [⟨g.path.pc + 8, rest, none, g.path.stamp⟩]
  match ts with
  | [] => (g.advance 8, false)
  | [(t, k)] => ({ g with paths := fall ++ ⟨t, k, none, if rest = 0 then g.path.stamp else g.issues⟩ :: g.paths.tail }, decide (rest = 0 ∧ t.toNat ≤ g.path.pc.toNat))
  | (t, k) :: l =>
    ({ g with paths := ⟨t, k, none, g.path.stamp⟩ :: l.map (fun x => ⟨x.1, x.2, none, g.issues⟩) ++ fall ++ g.paths.tail }, decide (t.toNat ≤ g.path.pc.toNat))

/-- BRX and RET. DESIGN CHOICE: a target that is not 8-byte aligned (R53) is an ALIGNMENT fault of the instruction with
ACCESS bit 4 (R67, R70). -/
def State.indirectIssue (s : State) (i : Issue) (ops : BitVec 48) : State :=
  s.issue i (fun c => cleanJ ops && pairNamed c.regCount (opTarget ops)) (regSpan (opTarget ops) 2) (fun r s g =>
    if r.m = 0 then .ok s (g.advance 8) false else
    let bad := lanesWhere r.m (fun l => decide ((g.pair l (opTarget ops)).toNat % 8 ≠ 0))
    if bad ≠ 0 then .fault s g ⟨.alignment, 0x10, bad, g.pair (leader bad) (opTarget ops), g.path.pc⟩ none
    else
      let (g', sw) := g.indirect r.m (opTarget ops)
      .ok s g' sw)

/-- BRX (R59). -/
def execBrx (i : Issue) (ops : BitVec 48) (s : State) : Host.Outcome State Fault Refusal := .next (s.indirectIssue i ops)

/-- CALL (R55): the return address goes into the pair of SRCA. -/
def execCall (i : Issue) (ops : BitVec 48) (s : State) : Host.Outcome State Fault Refusal :=
  .next (s.issue i (fun c => cleanJ ops && pairNamed c.regCount (opTarget ops)) (regSpan (opTarget ops) 2) (fun r s g =>
    let g1 := g.each r.m (fun h l => h.setPair l (opTarget ops) (g.path.pc + 8))
    let (g', sw) := g1.branch r.m (g.target ops)
    .ok s g' sw))

/-- RET (R59). -/
def execRet (i : Issue) (ops : BitVec 48) (s : State) : Host.Outcome State Fault Refusal := .next (s.indirectIssue i ops)

/-- EXIT (R64, R208): a release at cohort scope, then the lanes exit. -/
def execExit (i : Issue) (ops : BitVec 48) (s : State) : Host.Outcome State Fault Refusal :=
  .next (s.issue i (fun _ => cleanJ ops) [] (fun r s g =>
    if r.m = 0 then .ok s (g.advance 8) false
    else if !s.releaseDone r.la g.cohort g.num 1 then .hold s g (.release 1)
    else
      let rest := g.path.mask &&& ~~~r.m
      let g1 : Group := { g with paths := { g.path with mask := rest, pc := if rest = 0 then g.path.pc else g.path.pc + 8 } :: g.paths.tail }
      let s := (s.putGroup r.la g1).exitThreads r.la g.cohort (pop r.m) r.cmd.part
      match s.groupOf i.g with
      | some g => .ok s g (decide (rest = 0))
      | none => .stop s))

/-- YIELD (R60). DESIGN CHOICE: without a participating lane it switches no path. -/
def execYield (i : Issue) (ops : BitVec 48) (s : State) : Host.Outcome State Fault Refusal :=
  .next (s.issue i (fun _ => cleanJ ops) [] (fun r s g => .ok s (g.advance 8) (decide (r.m ≠ 0))))

/-- NOP (R55). -/
def execNop (i : Issue) (ops : BitVec 48) (s : State) : Host.Outcome State Fault Refusal :=
  .next (s.vector i (fun _ => cleanJ ops) [] (fun _ g => g))

/-! ### Barriers and fences (R63, R64, R204-R208) -/

/-- Legality of a synchronisation instruction with the ORDER values that R204 allows it. -/
def legalS (ops : BitVec 48) (orders : List Nat) : Bool := cleanS ops && decide (opScopeS ops ≤ 4) && orders.contains (opOrderS ops)

/-- The count that an arrival names (R63). DESIGN CHOICE: that of the lowest participating lane, where lanes differ. -/
def Run.count (r : Run) (g : Group) (ops : BitVec 48) : Nat :=
  if opCount ops = 255 then 64 * r.cmd.groups else (g.reg (leader r.m) (opCount ops)).toNat

/-- The path waits, its lanes that take no part going on. DESIGN CHOICE: it holds the program counter after the instruction, which
R71's record gives. -/
def Group.waitAt (g : Group) (m : BitVec 64) (w : BarrierWait) : Group := g.splitOff m (fun q => { q with pc := q.pc + 8, wait := some w })

/-- Arrivals of the lanes of m at a barrier (R63). -/
def State.arriveAt (s : State) (r : Run) (g : Group) (b : Fin 16) (count : Nat) : State :=
  match (s.array r.la).cohortOf g.cohort with
  | none => s
  | some c => s.putBarrier r.la g.cohort r.cmd.part b (Barrier.arrive count c.exited 64 (pop r.m) (Tbl.get Barrier.fresh c.barriers b.val))

/-- The phase of a barrier. -/
def State.phaseOf (s : State) (la cohort : Nat) (b : Fin 16) : Nat :=
  match (s.array la).cohortOf cohort with
  | none => 0
  | some c => (Tbl.get Barrier.fresh c.barriers b.val).phase

/-- A barrier instruction: a release first where its ORDER has one; then the lanes wait, arrive, or both. DESIGN CHOICE: the
lanes of one BAR.SYNC all wait for the phase that was current at its issue, also where some of their arrivals go to the
next. -/
def State.barrierIssue (s : State) (i : Issue) (ops : BitVec 48) (orders : List Nat) (arrives waits : Bool) : State :=
  s.issue i (fun c => legalS ops orders && (!arrives || decide (opCount ops = 255) || regNamed c.regCount (opCount ops))) (if arrives && decide (opCount ops ≠ 255) then [opCount ops] else []) (fun r s g =>
    let b := opBarrier ops
    let scope := opScopeS ops
    let order := opOrderS ops
    if r.m = 0 then .ok s (g.advance 8) false
    else if 2 ≤ order ∧ s.releaseDone r.la g.cohort g.num scope = false then .hold s g (.release scope)
    else
      let s := if 2 ≤ order then s.afterRelease r.cmd scope else s
      let g1 := if waits then g.waitAt r.m ⟨!arrives, b, s.phaseOf r.la g.cohort b, decide (order % 2 = 1), scope⟩ else g.advance 8
      let s := s.putGroup r.la g1
      let s := if arrives then s.arriveAt r g b (r.count g ops) else s
      match s.groupOf i.g with
      | some g => .ok s g (decide (g.path.wait ≠ none))
      | none => .stop s)

/-- BAR_SYNC (R63, R208). -/
def execBarSync (i : Issue) (ops : BitVec 48) (s : State) : Host.Outcome State Fault Refusal := .next (s.barrierIssue i ops [0, 1, 3] true true)

/-- BAR_ARRIVE (R63, R208). -/
def execBarArrive (i : Issue) (ops : BitVec 48) (s : State) : Host.Outcome State Fault Refusal := .next (s.barrierIssue i ops [0, 2] true false)

/-- BAR_WAIT (R64, R208). -/
def execBarWait (i : Issue) (ops : BitVec 48) (s : State) : Host.Outcome State Fault Refusal := .next (s.barrierIssue i ops [0, 1, 3] false true)

/-- FENCE (R205-R207): the release first, then the acquire, after every earlier read. -/
def execFence (i : Issue) (ops : BitVec 48) (s : State) : Host.Outcome State Fault Refusal :=
  .next (s.issue i (fun _ => legalS ops [0, 1, 2, 3]) [] (fun r s g =>
    let scope := opScopeS ops
    let order := opOrderS ops
    if r.m = 0 then .ok s (g.advance 8) false
    else if 2 ≤ order ∧ s.releaseDone r.la g.cohort g.num scope = false then .hold s g (.release scope)
    else
      let s := if 2 ≤ order then s.afterRelease r.cmd scope else s
      if order % 2 = 1 ∧ scope ≠ 0 ∧ g.loads ≠ [] then .hold s g (.operand (g.loads.map (·.seq)))
      else
        let s := if order % 2 = 1 then s.acquire r.la r.cmd.part scope else s
        match s.groupOf i.g with
        | some g => .ok s (g.advance 8) false
        | none => .stop s))

/-! ### Special registers (R58) -/

/-- The value of an S2V selector in a lane; `clock` is a sample of the array's clock counter. -/
def s2vValue (r : Run) (g : Group) (clock : Word) (sel l : Nat) : Nat :=
  let (x, y, z) := r.cmd.grid
  match sel with
  | 0 => l
  | 1 => g.num.val
  | 2 => g.cohort % x
  | 3 => g.cohort / x % y
  | 4 => g.cohort / (x * y)
  | 5 => x
  | 6 => y
  | 7 => z
  | 8 => r.la
  | 9 => g.quadrant
  | 10 => field clock 0 32
  | 11 => field clock 32 32
  | _ => r.cmd.reruns

/-- S2V (R58). The clock counter is a free value. -/
def execS2v (i : Issue) (ops : BitVec 48) (s : State) : Host.Outcome State Fault Refusal :=
  .next (s.issue i (fun c => legalV ops && decide (opA ops ≤ 12) && regNamed c.regCount (opDst ops)) [opDst ops] (fun r s g =>
    let (clock, s) := s.freeVal 64
    .ok s ((g.each r.m (fun h l => h.setReg l (opDst ops) (BitVec.ofNat 32 (s2vValue r g clock (opA ops) l)))).advance 8) false))

end Sys2Proof.Machine
end

