-- ==== Sys2Proof/Machine/Access.lean ====
section
/-! DEFINITION. Memory instructions (02 R54-R57, R67, R472; 06 R170-R172; 07; 11 R321-R325): checks, loads, stores,
prefetches, atomics and reductions, and the arrival of operands. -/

namespace Sys2Proof.Machine

/-! ### Where an access goes -/

/-- Where one lane's access goes, or the fault or poisoned page table that it meets; `again`: the translation unit can
resume it through a page request (R73). -/
inductive Dest
  | localStore (off : Nat)
  | param (off : Nat)
  | atlas (off : Nat)
  | pool (pa : Nat)
  | remote (module off : Nat)
  | host (iova : Nat)
  | guest (off : Nat)
  | fault (c : ParkClass) (again : Bool)
  | poison (granule : Nat)
  deriving DecidableEq, Repr

/-- The kinds of access (R70). -/
inductive AccessKind | read | write | atomic
  deriving DecidableEq, Repr

/-- ACCESS bits of a kind. -/
def AccessKind.bits : AccessKind → BitVec 8
  | .read => 1
  | .write => 2
  | .atomic => 4

/-- Host memory behind a function (R321, R324, R325): refused, or reached by a translation that is cached or that the host
grants, or not translated; what the host's tables hold is a free value. -/
def State.hostDest (s : State) (x : Ctx) (iova : Nat) : Dest × State :=
  if !s.hostOk x iova then (.fault .protection false, s) else
  let f := s.fn x.port x.fn
  let e : AtsEntry := ⟨x.port, x.fn, s.pasidOf x, BitVec.ofNat 52 (iova / 4096)⟩
  if s.host.ats.contains e then (.host iova, s) else
  let (b, s) := s.freeVal 1
  if b = 1 then (.host iova, { s with host := { s.host with ats := e :: s.host.ats } })
  else (.fault .translation (f.pri && !f.pageFail), s)

/-- A global access of n bytes: translation for what it does, reach, declared regions, the parameter page (R67, R257, R268,
R375). -/
def State.globalDest (s : State) (c : Cmd) (k : AccessKind) (va n : Nat) : Dest × State :=
  let (x, s) := s.translate c.part va (decide (k ≠ .read))
  let (x, s) : Xlate × State := if k ≠ .atomic then (x, s) else match x with
    | .fault _ => (x, s)
    | _ => (match s.translate c.part va false with
      | (.fault q, s) => (.fault q, s)
      | (_, s) => (x, s))
  let open' := decide (k = .read) || c.declares va n
  match x with
  | .fault q => (.fault q false, s)
  | .poison g => (.poison g, s)
  | .param off => (.param off, s)
  | .atlas off => (.atlas off, s)
  | .pool pa => (if s.reach c.part (pa / 128) (decide (k ≠ .read)) && open' then .pool pa else .fault .protection false, s)
  | .remote m off => (if open' && s.hasStream c.part (BitVec.ofNat 12 m) then .remote m off else .fault .protection false, s)
  | .guest off => (if open' && decide (k ≠ .atomic) then .guest off else .fault .protection false, s)
  | .host iova => if open' then s.hostDest (s.chanCtx c.ch) iova else (.fault .protection false, s)

/-- The address of a lane's access (R54): global, or the offset in the cohort's local store. DESIGN CHOICE: at SPACE 1 BASE
names one register, which may be odd, and not a pair. -/
def laneAddr (g : Group) (ops : BitVec 48) (l : Nat) : Word :=
  let base : Word := if opSpace ops = 0 then (if opA ops = 255 then 0 else g.pair l (opA ops)) else (g.reg l (opA ops)).setWidth 64
  base + BitVec.ofInt 64 (opOffset ops)

/-- One lane's access at an address: alignment first, then where it goes (R67). -/
def State.laneDest (s : State) (r : Run) (g : Group) (ops : BitVec 48) (k : AccessKind) (addr : Word) : Dest × State :=
  let va := addr.toNat
  let n := sizeBytes (opSize ops)
  if va % n ≠ 0 then (.fault .alignment false, s)
  else if opSpace ops = 1 then (if (s.array r.la).lsHolds g.cohort va n then .localStore va else .fault .protection false, s)
  else s.globalDest r.cmd k va n

/-- Every lane's access, ascending, at the address that `at'` gives the lane. -/
def State.laneDests (s : State) (r : Run) (g : Group) (ops : BitVec 48) (k : AccessKind) (at' : Nat → Word) : List Nat → List (Nat × Dest) × State
  | [] => ([], s)
  | l :: t =>
    let (d, s) := s.laneDest r g ops k (at' l)
    let (rest, s) := State.laneDests s r g ops k at' t
    ((l, d) :: rest, s)

/-- The lanes that met a class. -/
def lanesOf (l : List (Nat × Dest)) (c : ParkClass) : List (Nat × Bool) :=
  l.filterMap (fun x => match x.2 with
    | .fault q a => if q = c then some (x.1, a) else none
    | _ => none)

/-- The mask of lanes. -/
def maskOf (l : List Nat) : BitVec 64 := l.foldl (fun m x => m ||| (1#64 <<< x)) 0

/-- The fault of an access in the lanes of one class (R67, R70, R73). -/
def laneFault (pc : Word) (k : AccessKind) (at' : Nat → Word) (c : ParkClass) (ls : List (Nat × Bool)) : ParkFault :=
  let again := (ls.headD (0, false)).2
  ⟨c, k.bits ||| (if again then 0x20 else 0), maskOf (ls.map (·.1)), at' (ls.headD (0, false)).1, pc⟩

/-- The fault that the lanes met, the first of ALIGNMENT, TRANSLATION and PROTECTION (R67). -/
def firstFault (pc : Word) (k : AccessKind) (at' : Nat → Word) (l : List (Nat × Dest)) : Option ParkFault :=
  (([.alignment, .translation, .protection] : List ParkClass).find? (fun c => decide (lanesOf l c ≠ []))).map (fun c => laneFault pc k at' c (lanesOf l c))

/-- Poisoned granules met by lanes: their reports, and the park; in a page under refill the command is killed (R400,
R404). -/
def State.poisonFault (s : State) (r : Run) (g : Group) (acc : BitVec 8) (ls : List (Nat × Nat)) (addr : Nat → Word) : Eff :=
  let step (x : Bool × State) (n : Nat) : Bool × State := if x.1 then x.2.arrayPoison r.la r.cmd n else x
  let (parks, s) := ((ls.map (·.2)).dedup).foldl step (true, s)
  if parks then .fault s g ⟨.poison, acc, maskOf (ls.map (·.1)), addr ((ls.headD (0, 0)).1), g.path.pc⟩ none else .stop s

/-- The checks of a memory instruction: what its lanes reach, or the fault. -/
def State.checked (s : State) (r : Run) (g : Group) (ops : BitVec 48) (k : AccessKind) (at' : Nat → Word) (go : List (Nat × Dest) → State → Eff) : Eff :=
  let (l, s) := s.laneDests r g ops k at' (laneList r.m)
  match firstFault g.path.pc k at' l with
  | some f => .fault s g f none
  | none =>
    let bad := l.filterMap (fun x => match x.2 with
      | .poison n => some (x.1, n)
      | _ => none)
    if bad = [] then go l s else s.poisonFault r g k.bits bad at'

/-- The line that an access reaches outside the array, and its offset in the line. -/
def Dest.line : Dest → Option (LineKind × Nat × Nat)
  | .pool pa => some (.pool, pa / 128, pa % 128)
  | .remote m off => some (.remote, (2 ^ 53 + m * 2 ^ 41 + off) / 128, off % 128)
  | .host iova => some (.host, iova / 128, iova % 128)
  | .guest off => some (.guest, off / 128, off % 128)
  | _ => none

/-- The module of a Remote line (R345). -/
def lineModule (line : Nat) : Nat := line / 2 ^ 34 % 4096

/-- Lanes gathered by line, lines in the order of their lowest lane. -/
def byLine : List (Nat × Dest) → List (LineKind × Nat × List (Nat × Nat))
  | [] => []
  | (l, d) :: t =>
    let rest := byLine t
    match d.line with
    | none => rest
    | some (k, n, off) =>
      match rest.find? (fun x => decide (x.1 = k ∧ x.2.1 = n)) with
      | some x => (k, n, (l, off) :: x.2.2) :: rest.filter (fun y => decide (¬ (y.1 = k ∧ y.2.1 = n)))
      | none => (k, n, [(l, off)]) :: rest

/-! ### Requests -/

/-- Sends a request of a group to a home (R190): the request's number. -/
def State.sendReq (s : State) (r : Run) (g : Group) (k : LineKind) (line : Nat) (op : HomeOp) (hint scope : Nat) (use : ReqFor) : Nat × State :=
  let q : HomeReq := ⟨s.mem.nextReq, r.la, g.cohort, g.num, r.cmd.part, r.cmd.ref, if k = .remote then .remote (lineModule line) else .pool, line, op, hint, scope, .sent, none, use⟩
  (q.id, { (s.charge r.cmd.part (some r.cmd.ref) .memory 128) with mem := { s.mem with homeReqs := s.mem.homeReqs ++ [q], nextReq := s.mem.nextReq + 1 } })

/-- Takes a request number without a home request. -/
def State.takeNumber (s : State) : Nat × State := (s.mem.nextReq, { s with mem := { s.mem with nextReq := s.mem.nextReq + 1 } })

/-- Reads host memory under a tag (R217). -/
def State.sendHostRead (s : State) (x : Ctx) (iova n : Nat) (use : HostFor) : State :=
  s.askTag x.port x.fn (BitVec.ofNat 64 iova) n use (.read (s.pasidOf x))

/-- Sends an AtomicOp to host memory under a tag (R322). Like every write through the function it is logged (R335). -/
def State.sendHostAtomic (s : State) (x : Ctx) (iova op size : Nat) (v w : Word) (use : HostFor) : State :=
  (s.askTag x.port x.fn (BitVec.ofNat 64 iova) (sizeBytes size) use (.atomic (s.pasidOf x) op v w)).logPage x.port x.fn (iova / 4096)

/-- A header of a request of the hub to the guest (R239). -/
def guestHeader (opcode tag n off : Nat) : BitVec 128 := BitVec.ofNat 128 (opcode + 16 * tag + 65536 * (n - 1) + 2 ^ 28 * off)

/-- The guest site is up (R236). -/
def State.guestUp (s : State) : Bool := decide (s.link.guest.st = 2)

/-- The contained record of an access to the window while the site is down (R238). -/
def State.guestReset (s : State) (p : Fin 16) (off : Nat) : State :=
  s.report { mkReport 0x0045 (unitId 11 0) 0 with parts := partBit p, address := BitVec.ofNat 64 off }

/-- Reads the guest window (R239). -/
def State.sendGuestRead (s : State) (off n : Nat) (use : HostFor) : State :=
  let t := s.link.guest.nextTag % 4096
  let s : State := { s with link := { s.link with guest := { s.link.guest with reads := s.link.guest.reads ++ [(t, n, use)], nextTag := s.link.guest.nextTag + 1 } } }
  s.emit (.guest (guestHeader 0 t n off) 0)

/-- Writes bytes to the guest window; discarded while the site is down (R238, R239). -/
def State.guestWrite (s : State) (p : Fin 16) (off : Nat) (b : List Byte) : State :=
  if s.guestUp then s.emit (.guest (guestHeader 1 0 b.length off) (setLineBytes 0 0 b)) else s.guestReset p off

/-! ### Loads (R54, R170, R171, R181) -/

/-- The lowest and the end of the bytes that lanes of a line touch. -/
def lineSpan (lanes : List (Nat × Nat)) (n : Nat) : Nat × Nat :=
  lanes.foldl (fun (x : Nat × Nat) l => (min x.1 l.2, max x.2 (l.2 + n))) (128, 0)

/-- Sends one line's request of a load. -/
def State.sendLoad (s : State) (r : Run) (g : Group) (ops : BitVec 48) (x : LineKind × Nat × List (Nat × Nat)) : LoadPart × State :=
  let (k, line, lanes) := x
  let (lo, hi) := lineSpan lanes (sizeBytes (opSize ops))
  match k with
  | .host =>
    let (id, s) := s.takeNumber
    (⟨id, k, line, lanes, false, none⟩, s.sendHostRead (s.chanCtx r.cmd.ch) (128 * line + lo) (hi - lo) (.load r.la g.cohort g.num id lo))
  | .guest =>
    let (id, s) := s.takeNumber
    if s.guestUp then (⟨id, k, line, lanes, false, none⟩, s.sendGuestRead (128 * line + lo) (hi - lo) (.load r.la g.cohort g.num id lo))
    else (⟨id, k, line, lanes, false, some (.data (BitVec.allOnes 1024) 0)⟩, s.guestReset r.cmd.part (128 * line + lo))
  | _ =>
    let (id, s) := s.sendReq r g k line .rdOnce (opHint ops) (opScope ops) .group
    (⟨id, k, line, lanes, true, none⟩, s)

/-- Sends the requests of a load. -/
def State.sendLoads (s : State) (r : Run) (g : Group) (ops : BitVec 48) : List (LineKind × Nat × List (Nat × Nat)) → List LoadPart × State
  | [] => ([], s)
  | x :: t =>
    let (p, s) := s.sendLoad r g ops x
    let (rest, s) := State.sendLoads s r g ops t
    (p :: rest, s)

/-- A load of the group still awaits a line. -/
def Group.awaitsLine (g : Group) (line : Nat) : Bool := g.loads.any (fun o => o.parts.any (fun p => decide (p.line = line) && p.result.isNone))

/-- The L1's data of a line, for a load that an acquire does not make pass over it, and before which the group has no
load of the line to await (R211). -/
def ArrayState.l1Data (a : ArrayState) (g : Group) (bypass : Bool) (line : Nat) : Option Line :=
  if bypass || g.awaitsLine line then none else ((a.l1Find line).filter (fun x => !x.instr)).map (·.data)

/-- What a lane's access reads at once: local store, the parameter page, the Atlas, or a line in the L1. -/
def State.readNow (s : State) (r : Run) (g : Group) (bypass : Bool) (n : Nat) (d : Dest) : Option (List Byte) :=
  let a := s.array r.la
  match d with
  | .localStore off => some (a.lsRead g.cohort off n)
  | .param off => some ((List.range n).map (fun i => a.args.getD (off + i) 0))
  | .atlas off => some (((s.atlasBytes.drop off).take n) ++ List.replicate (n - (s.atlasBytes.length - off)) 0)
  | .pool pa => (a.l1Data g bypass (pa / 128)).map (fun x => lineBytes x (pa % 128) n)
  | .remote m off => (a.l1Data g bypass ((2 ^ 53 + m * 2 ^ 41 + off) / 128)).map (fun x => lineBytes x (off % 128) n)
  | _ => none

/-- Lanes of parts that their home, or the host, refused. -/
def LoadOp.refusedLanes (o : LoadOp) : List Nat :=
  ((o.parts.filter (fun p => decide (p.result = some .refused))).map (fun p => p.lanes.map (·.1))).flatten

/-- Lanes whose granule came back poisoned, with the granule. -/
def LoadOp.poisonedLanes (o : LoadOp) : List (Nat × LoadPart × Nat) :=
  (o.parts.map (fun p => match p.result with
    | some (.data _ po) => p.lanes.filterMap (fun x => if po.getLsbD (x.2 / 64) then some (x.1, p, 2 * p.line + x.2 / 64) else none)
    | some .poison => p.lanes.map (fun x => (x.1, p, 2 * p.line + x.2 / 64))
    | _ => [])).flatten

/-- The address of a lane of a load. -/
def LoadOp.addr (o : LoadOp) (l : Nat) : Word := ((o.addrs.find? (fun x => decide (x.1 = l))).map (·.2)).getD 0

/-- The bytes that a load's lanes receive from their lines. -/
def LoadOp.arrived (o : LoadOp) : List (Nat × List Byte) :=
  let n := sizeBytes (opSize o.ops)
  (o.parts.map (fun p => match p.result with
    | some (.data d _) => p.lanes.map (fun x => (x.1, lineBytes d x.2 n))
    | some (.olds v) => v.map (fun x => (x.1, leBytes n x.2.toNat))
    | _ => [])).flatten

/-- An access is ordered with an acquire above thread scope (R204). -/
def opAcquires (ops : BitVec 48) : Bool := decide (opOrder ops % 2 = 1 ∧ opScope ops ≠ 0)

/-- The scope at which an ordered access acts (R203): at local store the cohort's. -/
def opActs (ops : BitVec 48) : Nat := if opSpace ops = 1 then min (opScope ops) 1 else opScope ops

/-- The load acquires: it is so ordered, and a lane takes part. -/
def LoadOp.acquires (o : LoadOp) : Bool := opAcquires o.ops && decide (o.mask ≠ 0)

/-- What the load does (R70). -/
def LoadOp.access (o : LoadOp) : AccessKind :=
  match o.kind with
  | .read => .read
  | _ => .atomic

/-- Lines that a load brought enter the L1 as their hint says (R170, R181), unless an acquire or a newer store of the array
has come since they were sent for; an atomic's do not (R171). -/
def State.fillParts (s : State) (la : Nat) (c : Cmd) (o : LoadOp) : State :=
  if o.kind ≠ .read ∨ opHint o.ops = 3 then s else
  s.onArray la (fun a => o.parts.foldl (fun a p => match p.fill, p.result with
    | true, some (.data d 0#2) => a.l1Fill c.l1Sets p.line d false (decide (opHint o.ops = 2))
    | _, _ => a) a)

/-- The load's parts have all come back. -/
def LoadOp.complete (o : LoadOp) : Bool := o.parts.all (fun p => p.result.isSome)

/-- A part of an atomic on host memory, or on memory of another module, still awaits answers. -/
def State.awaits (s : State) (la : Nat) (g : Group) (o : LoadOp) : Bool :=
  o.parts.any (fun p => s.host.reads.any (fun h => match h.use with
      | .old a c n id _ => decide (a = la ∧ c = g.cohort ∧ n = g.num ∧ id = p.req)
      | _ => false)
    || s.link.reqs.any (fun q => match q.use with
      | .home id _ => decide (id = p.req)
      | _ => false))

/-- Everything that a load awaits is there. -/
def State.arrivedAll (s : State) (la : Nat) (g : Group) (o : LoadOp) : Bool := o.complete && !s.awaits la g o

/-- A load that is all there met a refusal or poison. -/
def LoadOp.bad (o : LoadOp) : Bool := decide (o.refusedLanes ≠ [] ∨ o.poisonedLanes ≠ [])

/-- A load that is all there writes its registers; its lines enter the L1, and its acquire is performed (R45, R206). -/
def State.landLoad (s : State) (la : Nat) (c : Cmd) (g : Group) (o : LoadOp) : State :=
  let h := (o.done ++ o.arrived).foldl (fun h x => if o.writes = [] then h else h.setBytes x.1 (opDst o.ops) x.2) g
  let s := ((s.charge c.part (some c.ref) .sram 1).putGroup la { h with loads := h.loads.filter (fun x => decide (x.seq ≠ o.seq)) }).fillParts la c o
  if o.acquires then s.acquire la c.part (opActs o.ops) else s

/-- The fault of a load that met a refusal at its home, or poison (R67, R400); none where the command is killed for it. -/
def State.loadFault (s : State) (la : Nat) (c : Cmd) (g : Group) (o : LoadOp) : Option ParkFault × State :=
  if o.refusedLanes ≠ [] then
    (some ⟨.protection, o.access.bits, maskOf o.refusedLanes, o.addr ((ones (maskOf o.refusedLanes)).headD 0), o.pc⟩, s)
  else
    let ls := o.poisonedLanes
    let pool := (ls.filter (fun x => decide (x.2.1.kind = .pool))).map (fun x => (x.1, x.2.2))
    let low := (ones (maskOf (ls.map (·.1)))).headD 0
    match s.poisonFault ⟨la, c, o.mask⟩ g o.access.bits pool o.addr with
    | .fault s _ f _ => (some { f with lanes := maskOf (ls.map (·.1)), addr := o.addr low, pc := o.pc }, s)
    | .stop s => (none, s)
    | _ => (none, s)

/-- A load or atomic with its requests sent: where nothing is awaited its registers are written at once; one that acquires
holds its group until then (R206); any other is awaited by what names its registers (R45, R212). -/
def State.startLoad (s : State) (r : Run) (g : Group) (o : LoadOp) : Eff :=
  let h : Group := { g.advance 8 with loads := g.loads ++ [o] }
  if o.parts = [] then
    let s := (s.putGroup r.la h).landLoad r.la r.cmd h o
    match s.groupAt r.la g.cohort g.num with
    | some g => .ok s g false
    | none => .stop s
  else if o.acquires then .wait s h (.operand [o.seq])
  else .ok s h false

/-- Takes the number of a load. -/
def State.takeLoad (s : State) (la : Nat) : Nat × State :=
  ((s.array la).loadSeq, s.onArray la (fun a => { a with loadSeq := a.loadSeq + 1 }))

/-- The group has a TLOAD whose acquire is still to come: a later vector load waits for it (R214). -/
def ArrayState.tileAcquires (a : ArrayState) (g : Group) : Bool :=
  a.tq.any (fun t => decide (t.cohort = g.cohort ∧ t.group = g.num ∧ t.sent = false) && (match t.kind with
    | .load _ _ _ _ _ _ _ _ _ _ scope order _ => decide (order = 1 ∧ scope ≠ 0)
    | _ => false))

/-! ### The stream prefetcher (R103) -/

/-- The line that follows a line at a stride, k times, in the same page of n lines. -/
def aheadOf (n line : Nat) (stride : Int) (k : Nat) : Option Nat :=
  let m := (line : Int) + stride * k
  if 0 ≤ m ∧ m.toNat / n = line / n then some m.toNat else none

/-- The streams after an access: of a stream that it continues, of one that its line makes with two earlier accesses at
the same stride, or with one more single access; the stream it belongs to comes first in the answer (R103). -/
def streamStep (l : List Stream) (who : Option (Nat × Fin 16)) (line : Nat) : Option Stream × List Stream :=
  match l.find? (fun x => decide (x.who = who ∧ 3 ≤ x.hits ∧ (x.last : Int) + x.stride = line)) with
  | some x =>
    let y : Stream := { x with last := line, hits := x.hits + 1 }
    (some y, y :: l.filter (fun z => decide (z ≠ x)))
  | none =>
    let ones := l.filter (fun x => decide (x.who = who ∧ x.hits = 1))
    let pair := ones.findSome? (fun y => (ones.find? (fun x => decide (x.last ≠ y.last ∧ (y.last : Int) - x.last = line - y.last))).map (fun x => (x, y)))
    match pair with
    | some (x, y) =>
      let z : Stream := ⟨line, (line : Int) - y.last, 3, who⟩
      (some z, z :: l.filter (fun v => decide (v ≠ x ∧ v ≠ y)))
    | none => (none, (⟨line, 0, 1, who⟩ : Stream) :: (l.filter (fun v => decide (v ≠ ⟨line, 0, 1, who⟩))).take 15)

/-- A store, atomic or discard of an array to a line is still to be performed at its home. -/
def State.storePending (s : State) (la line : Nat) : Bool := s.mem.homeReqs.any (fun r => decide (r.la = la ∧ r.line = line) && r.op.writes)

/-- Prefetches a pool line into the L1, or only into the last-level cache: a line that is busy, out of reach, poisoned, or
that the array has a store under way to, is passed over. -/
def State.prefetchLine (s : State) (la : Nat) (c : Cmd) (line hint : Nat) (intoL1 : Bool) : State :=
  if s.txnBusy line || s.storePending la line || !s.reach c.part line false || s.isRefilling (line / 32) then s
  else if intoL1 && ((s.array la).l1Find line).isSome then s
  else
    let ((d, po), s) := s.engRead c.part line hint
    if intoL1 && decide (po = 0) then s.onArray la (fun a => a.l1Fill c.l1Sets line d false (decide (hint = 2))) else s

/-- An access of a stream, in a page of n lines: after three at one stride, lines ahead are prefetched within the page
(R103). -/
def State.streamAccess (s : State) (la : Nat) (c : Cmd) (who : Option (Nat × Fin 16)) (n line hint : Nat) : State :=
  if !c.prefetches ∨ hint = 3 then s else
  let (x, l) := streamStep (s.array la).streams who line
  let s := s.onArray la (fun a => { a with streams := l })
  match x with
  | none => s
  | some x =>
    (List.range (if who = none then 32 else 8)).foldl (fun s k => match aheadOf n line x.stride (k + 1) with
      | some n => s.prefetchLine la c n hint who.isSome
      | none => s) s

/-- Performs a load whose checks passed: what its lanes read at once, and the requests for the lines of the others. -/
def State.sendLd (s : State) (r : Run) (g : Group) (o : LoadOp) (l : List (Nat × Dest)) : LoadOp × State :=
  let n := sizeBytes (opSize o.ops)
  let bypass := opAcquires o.ops
  let now := l.filterMap (fun x => (s.readNow r g bypass n x.2).map (fun b => (x.1, b)))
  let later := l.filter (fun x => (s.readNow r g bypass n x.2).isNone)
  let s := s.onArray r.la (fun a => l.foldl (fun a x => match x.2.line with
    | some (k, line, _) => if (k = .pool ∨ k = .remote) ∧ (a.l1Data g bypass line).isSome then a.l1Touch line else a
    | none => a) a)
  let lines := byLine later
  let s := lines.foldl (fun s x => if x.1 = .pool then s.streamAccess r.la r.cmd (some (g.cohort, g.num)) (s.pageLines r.cmd.part (o.addr (x.2.2.headD (0, 0)).1).toNat) x.2.1 (opHint o.ops) else s) s
  let (parts, s) := s.sendLoads r g o.ops lines
  ({ o with done := now, parts := parts }, s)

/-- The registers that a memory instruction names and uses: DATA, n operands of it, and BASE. -/
def memRegs (ops : BitVec 48) (n : Nat) : List Nat :=
  regSpan (opDst ops) (n * sizeRegs (opSize ops)) ++ regSpan (opA ops) (if opSpace ops = 0 then 2 else 1)

/-- A load or atomic with no results yet. -/
def newLoad (seq : Nat) (g : Group) (ops : BitVec 48) (k : LoadKind) (m : BitVec 64) : LoadOp :=
  ⟨seq, g.path.pc, ops, k, m, (laneList m).map (fun l => (l, laneAddr g ops l)), [], []⟩

/-- LD (R472). -/
def execLd (i : Issue) (ops : BitVec 48) (s : State) : Host.Outcome State Fault Refusal :=
  .next (s.issue i (fun c => legalM c.regCount ops && legalData c.regCount ops 1 && decide (opOrder ops ≤ 1)) (memRegs ops 1) (fun r s g =>
    if (s.array r.la).tileAcquires g then .hold s g .tileAcquire else
    s.checked r g ops .read (laneAddr g ops) (fun l s =>
      let (seq, s) := s.takeLoad r.la
      let (o, s) := s.sendLd r g (newLoad seq g ops .read r.m) l
      s.startLoad r g o)))

/-! ### Stores (R171, R210, R211) -/

/-- Maximal runs of bytes of a mask: offset and length. -/
def maskRuns (m : BitVec 128) : List (Nat × Nat) :=
  (ones m).foldr (fun i l => match l with
    | (a, n) :: t => if a = i + 1 then (i, n + 1) :: t else (i, 1) :: (a, n) :: t
    | [] => [(i, 1)]) []

/-- The data and mask of a line's stores, the highest lane last (R211). -/
def storeLine (g : Group) (ops : BitVec 48) (lanes : List (Nat × Nat)) : Line × BitVec 128 :=
  let n := sizeBytes (opSize ops)
  lanes.foldl (fun x l => (setLineBytes x.1 l.2 (g.bytes l.1 (opDst ops) n), x.2 ||| byteMask l.2 n)) (0, 0)

/-- The command has written host memory or memory of another module (R216). -/
def State.markWrote (s : State) (c : Cmd) : State := match s.cmd c.ref with
  | some x => s.setCmd { x with wrote := true }
  | none => s

/-- Sends one line's store. -/
def State.sendStore (s : State) (r : Run) (g : Group) (ops : BitVec 48) (x : LineKind × Nat × List (Nat × Nat)) : State :=
  let (k, line, lanes) := x
  let (d, m) := storeLine g ops lanes
  let release := decide (opOrder ops = 2 ∧ opScope ops ≠ 0)
  match k with
  | .host => (maskRuns m).foldl (fun s q => s.hostWrite (s.chanCtx r.cmd.ch) (128 * line + q.1) (lineBytes d q.1 q.2) release) (s.markWrote r.cmd)
  | .guest => (maskRuns m).foldl (fun s q => s.guestWrite r.cmd.part (128 * line + q.1) (lineBytes d q.1 q.2)) s
  | _ =>
    let s := s.onArray r.la (fun a => a.l1Store line d m)
    let s := if k = .remote then s.markWrote r.cmd else s
    (s.sendReq r g k line (.write d m) (opHint ops) (opScope ops) .group).2

/-- Stores to local store, ascending by lane. -/
def State.storeLocal (s : State) (r : Run) (g : Group) (ops : BitVec 48) (l : List (Nat × Dest)) : State :=
  s.onArray r.la (fun a => l.foldl (fun a x => match x.2 with
    | .localStore off => a.lsWrite r.cmd.part g.cohort off (g.bytes x.1 (opDst ops) (sizeBytes (opSize ops)))
    | _ => a) a)

/-- A release before an ordered access: held until it is done (R205). -/
def State.released (s : State) (r : Run) (g : Group) (order scope : Nat) (go : State → Eff) : Eff :=
  if 2 ≤ order then
    (if s.releaseDone r.la g.cohort g.num scope then go (s.afterRelease r.cmd scope) else .hold s g (.release scope))
  else go s

/-- ST (R171). -/
def execSt (i : Issue) (ops : BitVec 48) (s : State) : Host.Outcome State Fault Refusal :=
  .next (s.issue i (fun c => legalM c.regCount ops && legalData c.regCount ops 1 && decide (opOrder ops = 0 ∨ opOrder ops = 2)) (memRegs ops 1) (fun r s g =>
    s.checked r g ops .write (laneAddr g ops) (fun l s => s.released r g (if r.m = 0 then 0 else opOrder ops) (opActs ops) (fun s =>
      .ok ((byLine l).foldl (fun s x => s.sendStore r g ops x) (s.storeLocal r g ops l)) (g.advance 8) false))))

/-- PREFETCH (R472): a hint; an access that would fault is dropped. -/
def execPrefetch (i : Issue) (ops : BitVec 48) (s : State) : Host.Outcome State Fault Refusal :=
  .next (s.issue i (fun c => legalM c.regCount ops && decide (opOrder ops = 0)) (regSpan (opA ops) (if opSpace ops = 0 then 2 else 1)) (fun r s g =>
    let (l, s) := s.laneDests r g ops .read (laneAddr g ops) (laneList r.m)
    let s := if opHint ops = 3 then s else
      (byLine l).foldl (fun s x => if x.1 = .pool then s.prefetchLine r.la r.cmd x.2.1 (opHint ops) true else s) s
    .ok s (g.advance 8) false))

/-! ### Atomics (R55, R56, R165, R171, R196, R322) -/

/-- A lane's operand of an atomic, at a register: 32 or 64 bits. -/
def Group.operand (g : Group) (l reg size : Nat) : Word := if size = 3 then g.pair l reg else (g.reg l reg).setWidth 64

/-- The operands of the lanes of an atomic. DESIGN CHOICE: the new value of a 64-bit CAS is the pair at DATA + 2, the
registers after the pair that v(DATA) is (R55 names v(DATA + 1)). -/
def Group.atomicVals (g : Group) (ops : BitVec 48) (m : BitVec 64) : List (Nat × Word × Word) :=
  (laneList m).map (fun l => (l, g.operand l (opDst ops) (opSize ops), g.operand l (opDst ops + sizeRegs (opSize ops)) (opSize ops)))

/-- The operands of a lane. -/
def valsOf (l : List (Nat × Word × Word)) (lane : Nat) : Word × Word := ((l.find? (fun x => decide (x.1 = lane))).map (·.2)).getD (0, 0)

/-- Atomics of a group on local store, ascending by lane: the old values (R56). -/
def State.atomicLocal (s : State) (r : Run) (g : Group) (size : Nat) (op : AtomicOp) (vals : List (Nat × Word × Word)) : List (Nat × Dest) → List (Nat × List Byte) × State
  | [] => ([], s)
  | (l, .localStore off) :: t =>
    let n := sizeBytes size
    let a := s.array r.la
    let old := a.lsRead g.cohort off n
    let v := (valsOf vals l).1.toNat % 2 ^ elemBits size
    let w := (valsOf vals l).2.toNat % 2 ^ elemBits size
    let s := s.setArray r.la (a.lsWrite r.cmd.part g.cohort off (leBytes n (applyAtomic op (elemBits size) (leNat old) v w)))
    let (rest, s) := State.atomicLocal s r g size op vals t
    ((l, old) :: rest, s)
  | _ :: t => State.atomicLocal s r g size op vals t

/-- The AtomicOp of an atomic on host memory: FetchAdd 0, Swap 1, CAS 2 (R322). -/
def hostAtomicOp (op : AtomicOp) (size : Nat) (red : Bool) : Option Nat :=
  match op with
  | .add => some 0
  | .exch => if red then none else some 1
  | .cas => if size = 3 ∧ ¬ red then some 2 else none
  | _ => none

/-- Sends one line's part of a returning atomic. -/
def State.sendAtomic (s : State) (r : Run) (g : Group) (ops : BitVec 48) (op : AtomicOp) (vals : List (Nat × Word × Word)) (x : LineKind × Nat × List (Nat × Nat)) : LoadPart × State :=
  let (k, line, lanes) := x
  let size := opSize ops
  let v (l : Nat) : Word := (valsOf vals l).1
  let w (l : Nat) : Word := (valsOf vals l).2
  match k with
  | .host =>
    let (id, s) := s.takeNumber
    let s := lanes.foldl (fun s q => s.sendHostAtomic (s.chanCtx r.cmd.ch) (128 * line + q.2) ((hostAtomicOp op size false).getD 0) size (v q.1) (w q.1)
      (.old r.la g.cohort g.num id q.1)) (s.markWrote r.cmd)
    (⟨id, k, line, lanes, false, some (.olds [])⟩, s)
  | _ =>
    let s := s.onArray r.la (fun a => a.l1Drop line)
    let s := if k = .remote then s.markWrote r.cmd else s
    let (id, s) := s.sendReq r g k line (.atomic op size (lanes.map (fun q => (q.1, q.2, v q.1, w q.1)))) (opHint ops) (opScope ops) .group
    (⟨id, k, line, lanes, false, none⟩, s)

/-- Sends the parts of a returning atomic. -/
def State.sendAtomics (s : State) (r : Run) (g : Group) (ops : BitVec 48) (op : AtomicOp) (vals : List (Nat × Word × Word)) : List (LineKind × Nat × List (Nat × Nat)) → List LoadPart × State
  | [] => ([], s)
  | x :: t =>
    let (p, s) := s.sendAtomic r g ops op vals x
    let (rest, s) := State.sendAtomics s r g ops op vals t
    (p :: rest, s)

/-- Sends one line's part of a reduction; one whose completion is awaited on host memory has a tag of the group. -/
def State.sendRed (s : State) (r : Run) (g : Group) (ops : BitVec 48) (op : RedOp) (vals : List (Nat × Word × Word)) (x : LineKind × Nat × List (Nat × Nat)) : LoadPart × State :=
  let (k, line, lanes) := x
  let size := opSize ops
  let v (l : Nat) : Word := (valsOf vals l).1
  match k with
  | .host =>
    let (id, s) := s.takeNumber
    let s := lanes.foldl (fun s q => s.sendHostAtomic (s.chanCtx r.cmd.ch) (128 * line + q.2) 0 size (v q.1) 0
      (if opAcquires ops then .old r.la g.cohort g.num id q.1 else .drop)) (s.markWrote r.cmd)
    (⟨id, k, line, lanes, false, some (.olds [])⟩, s)
  | _ =>
    let s := s.onArray r.la (fun a => a.l1Drop line)
    let s := if k = .remote then s.markWrote r.cmd else s
    let (id, s) := s.sendReq r g k line (.red op size (lanes.map (fun q => (q.1, q.2, v q.1)))) (opHint ops) (opScope ops) .group
    (⟨id, k, line, lanes, false, none⟩, s)

/-- Sends the parts of a reduction. -/
def State.sendReds (s : State) (r : Run) (g : Group) (ops : BitVec 48) (op : RedOp) (vals : List (Nat × Word × Word)) : List (LineKind × Nat × List (Nat × Nat)) → List LoadPart × State
  | [] => ([], s)
  | x :: t =>
    let (p, s) := s.sendRed r g ops op vals x
    let (rest, s) := State.sendReds s r g ops op vals t
    (p :: rest, s)

/-- The atomics that host memory refuses become PROTECTION faults (R322). -/
def hostAtomics (s : State) (r : Run) (op : AtomicOp) (size : Nat) (red : Bool) (l : List (Nat × Dest)) : List (Nat × Dest) :=
  let ok := (hostAtomicOp op size red).isSome && (s.fn (s.chanCtx r.cmd.ch).port (s.chanCtx r.cmd.ch).fn).atomicReq
  l.map (fun x => match x.2 with
    | .host _ => if ok then x else (x.1, .fault .protection false)
    | _ => x)

/-- The checks that atomics and reductions share. Poison of the pool is met at the home (R197). -/
def State.atomicChecked (s : State) (r : Run) (g : Group) (ops : BitVec 48) (op : AtomicOp) (red : Bool) (at' : Nat → Word) (go : List (Nat × Dest) → State → Eff) : Eff :=
  s.checked r g ops .atomic at' (fun l s =>
    let l := hostAtomics s r op (opSize ops) red l
    match firstFault g.path.pc .atomic at' l with
    | some f => .fault s g f none
    | none => go l s)

/-- Performs an atomic or reduction whose checks passed. -/
def State.sendAt (s : State) (r : Run) (g : Group) (o : LoadOp) (l : List (Nat × Dest)) : LoadOp × State :=
  match o.kind with
  | .read => s.sendLd r g o l
  | .atomic op vals =>
    let (now, s) := s.atomicLocal r g (opSize o.ops) op vals l
    let (parts, s) := s.sendAtomics r g o.ops op vals (byLine l)
    ({ o with done := now, parts := parts }, s)
  | .red op vals =>
    let vals : List (Nat × Word × Word) := vals.map (fun x => (x.1, x.2, 0))
    let (_, s) := s.atomicLocal r g (opSize o.ops) (redAtomic op) vals l
    let (parts, s) := s.sendReds r g o.ops op vals (byLine l)
    ({ o with done := [], parts := parts }, s)

/-- Legality of class 0x9: SIZE 2 or 3 (R54, R55, R165). -/
def legalAtomic (ops : BitVec 48) (times : Nat) (c : Cmd) : Bool :=
  legalM c.regCount ops && decide (opSize ops = 2 ∨ opSize ops = 3) && legalData c.regCount ops times

/-- ATOMIC (R55, R56). -/
def execAtomic (i : Issue) (op : AtomicOp) (ops : BitVec 48) (s : State) : Host.Outcome State Fault Refusal :=
  let n := if op = .cas then 2 else 1
  .next (s.issue i (legalAtomic ops n) (memRegs ops n) (fun r s g =>
    if (s.array r.la).tileAcquires g then .hold s g .tileAcquire else
    s.atomicChecked r g ops op false (laneAddr g ops) (fun l s => s.released r g (if r.m = 0 then 0 else opOrder ops) (opActs ops) (fun s =>
      let (seq, s) := s.takeLoad r.la
      let (o, s) := s.sendAt r g (newLoad seq g ops (.atomic op (g.atomicVals ops r.m)) r.m) l
      s.startLoad r g o))))

/-- RED (R55, R165): one with acquire order is awaited (R206). -/
def execRed (i : Issue) (op : RedOp) (ops : BitVec 48) (s : State) : Host.Outcome State Fault Refusal :=
  .next (s.issue i (legalAtomic ops 1) (memRegs ops 1) (fun r s g =>
    s.atomicChecked r g ops (redAtomic op) true (laneAddr g ops) (fun l s => s.released r g (if r.m = 0 then 0 else opOrder ops) (opActs ops) (fun s =>
      let (seq, s) := s.takeLoad r.la
      let (o, s) := s.sendAt r g (newLoad seq g ops (.red op ((g.atomicVals ops r.m).map (fun x => (x.1, x.2.1)))) r.m) l
      if o.acquires then s.startLoad r g o else .ok s (g.advance 8) false))))

/-! ### The arrival of operands (R45) -/

/-- The group's loads that are all there, and met neither a refusal nor poison, are done, in their order. -/
def State.landLoads (s : State) (la : Nat) (c : Cmd) (x : GroupRef) : State :=
  match s.groupOf x with
  | none => s
  | some g => g.loads.foldl (fun s o => match s.groupOf x with
    | none => s
    | some g => if s.arrivedAll la g o && !o.bad then s.landLoad la c g o else s) s

/-- What a group that goes on comes to: an acquire that it has issued is still awaited, else its current path can issue or
waits at a barrier. -/
def Group.resumed (g : Group) : Group :=
  let q := (g.loads.filter LoadOp.acquires).map (·.seq)
  if q ≠ [] then { g with st := .waiting (.operand q) } else g.settled

/-- What a waiting group awaits is there. -/
def State.wakeable (s : State) (la : Nat) (g : Group) : Bool :=
  match g.st with
  | .waiting (.operand q) => g.loads.all (fun o => !q.contains o.seq)
  | .waiting (.release scope) => s.releaseDone la g.cohort g.num scope
  | .waiting .tileAcquire => !(s.array la).tileAcquires g
  | _ => false

/-- A waiting group whose load met a refusal or poison parks for it (R45); one whose wait is over goes on. -/
def State.wakeGroup (s : State) (la : Nat) (c : Cmd) (g : Group) : State :=
  match g.loads.find? (fun o => s.arrivedAll la g o && o.bad) with
  | some o => (match s.loadFault la c g o with
    | (some f, s) => s.park la c g f (.load o.seq) none
    | (none, s) => s)
  | none => if s.wakeable la g then s.putGroup la g.resumed else s

/-- OPERAND_ARRIVAL (R45): what a group has asked for comes: its registers are written, and a group that waits goes on,
or parks for the fault that came back. A group that is parked, or waits for a park slot, takes it when it goes on. -/
def execOperandArrival (x : GroupRef) (s : State) : Host.Outcome State Fault Refusal :=
  match s.occupantCmd x.la.val, s.groupOf x with
  | some c, some g =>
    if c.stage ≠ .running then .next s else
    (match g.st with
      | .parked _ => .next s
      | .waiting (.parkSlot _ _ _) => .next s
      | .done => .next s
      | _ =>
        let s := s.landLoads x.la.val c x
        match s.groupOf x with
        | none => .next s
        | some g => match g.st with
          | .waiting _ => .next (s.wakeGroup x.la.val c g)
          | _ => .next s)
  | _, _ => .next s

/-- A load that met a fault is performed again from its start in all its lanes, at its addresses (R74). -/
def State.resendLoad (s : State) (la : Nat) (c : Cmd) (g : Group) (o : LoadOp) : State :=
  let r : Run := ⟨la, c, o.mask⟩
  let check (go : List (Nat × Dest) → State → Eff) : Eff := match o.kind with
    | .read => s.checked r g o.ops .read o.addr go
    | .atomic op _ => s.atomicChecked r g o.ops op false o.addr go
    | .red op _ => s.atomicChecked r g o.ops (redAtomic op) true o.addr go
  match check (fun l s =>
      let (o', s) := s.sendAt r g o l
      .ok s { g with loads := g.loads.map (fun x => if x.seq = o.seq then o' else x) } false) with
  | .ok s g _ => s.putGroup la g.resumed
  | .fault s g f rec => s.park la c g { f with pc := o.pc } (.load o.seq) rec
  | .stop s => s
  | _ => s

/-! ### Reads that a command makes for itself -/

/-- What a command's own read comes to: its bytes; a fault; poison; or it waits for host memory or another module. -/
inductive Asked
  | ok (b : List Byte)
  | fault (c : ParkClass) (va : Nat)
  | poison (granule : Nat) (va : Nat)
  | wait
  deriving DecidableEq, Repr

/-- Host memory is asked for once: a read under a tag, or a page request, is outstanding for these bytes. -/
def State.askedHost (s : State) (c : CmdRef) (va : Nat) : Bool :=
  s.host.reads.any (fun r => decide (r.use = .engine c (BitVec.ofNat 64 va))) || s.host.pages.any (fun r => decide (r.use = .engine c (BitVec.ofNat 64 va)))

/-- A command reads host memory for itself: the read, or the page request that must come first (R321, R325). -/
def State.askHost (s : State) (c : Cmd) (iova va n : Nat) : Asked × State :=
  if s.askedHost c.ref va then (.wait, s) else
  let x := s.chanCtx c.ch
  match s.hostDest x iova with
  | (.host i, s) => (.wait, s.sendHostRead x i n (.engine c.ref (BitVec.ofNat 64 va)))
  | (.fault .translation true, s) => (.wait, (s.askPage x iova false (.engine c.ref (BitVec.ofNat 64 va))).2)
  | (.fault k _, s) => (.fault k va, s)
  | (_, s) => (.fault .protection va, s)

/-- A command reads memory of another module for itself, a line at a time (R219). -/
def State.askRemote (s : State) (c : Cmd) (m off va hint : Nat) : State :=
  let at' := va - off % 128
  if s.mem.homeReqs.any (fun r => decide (r.cmd = c.ref ∧ r.use = .engine at')) then s else
  let q : HomeReq := ⟨s.mem.nextReq, 384, 0, 0, c.part, c.ref, .remote m, (2 ^ 53 + m * 2 ^ 41 + off) / 128, .rdOnce, hint, 4, .sent, none, .engine at'⟩
  { s with mem := { s.mem with homeReqs := s.mem.homeReqs ++ [q], nextReq := s.mem.nextReq + 1 } }

/-- A read of n bytes that a command makes for itself; what comes back later is kept in its buffer. -/
def State.engGet (s : State) (c : Cmd) (hint va n : Nat) : Asked × State :=
  if s.rangeBusy c.part va n then (.wait, s) else
  let s := (s.charge c.part (some c.ref) .engine 1).charge c.part (some c.ref) .memory n
  let image := s.atlasBytes
  match s.vaRead (s.chanCtx c.ch) c.buf hint va n (fun i => image.getD i 0) c.engCls with
  | (.ok b, s) => (.ok b, s)
  | (.fault k a, s) => (.fault k a, s)
  | (.poison g a, s) => (.poison g a, s)
  | (.refused a, s) => (.fault .protection a, s)
  | (.host iova a k, s) => s.askHost c iova a k
  | (.remote m off a _, s) => if s.hasStream c.part (BitVec.ofNat 12 m) then (.wait, s.askRemote c m off a hint) else (.fault .protection a, s)

end Sys2Proof.Machine
end

