-- ==== Sys2Proof/Machine/Patterns.lean ====
section
/-! DEFINITION. Pattern descriptors (03 R77-R88): how a tile sequencer reads, validates and loads one. -/

namespace Sys2Proof.Machine

/-- A little-endian field of a descriptor. -/
def patNat (d : List Byte) (off n : Nat) : Nat := leNat ((d.drop off).take n)

/-- The sum of all 4-byte words modulo 2^32. -/
def wordSum : List Byte → Nat
  | a :: b :: c :: d :: t => (leNat [a, b, c, d] + wordSum t) % 2 ^ 32
  | _ => 0

/-- A route entry (R81). -/
def patRoute (d : List Byte) (off : Nat) : Route :=
  ⟨patNat d off 4, patNat d (off + 4) 4, patNat d (off + 8) 1 % 32, decide (patNat d (off + 9) 1 = 1), patNat d (off + 12) 4⟩

/-- A route entry holds no reserved encoding and no reserved bit that is set (R81, R105). -/
def routeClean (d : List Byte) (off : Nat) : Bool :=
  decide (patNat d (off + 8) 1 < 32) && !fmtReserved (patNat d (off + 8) 1) && decide (patNat d (off + 9) 1 ≤ 1) && decide (patNat d (off + 10) 2 = 0)

/-- Formats of A and B that a contraction takes (R85). -/
def contractFmts (a b : Nat) : Bool :=
  let fp8 (x : Nat) : Bool := decide (x = 4 ∨ x = 5)
  (fp8 a && fp8 b)
    || (decide (a = b) && decide (a = 0 ∨ a = 1 ∨ a = 2 ∨ a = 3 ∨ a = 6 ∨ a = 7 ∨ a = 8))
    || (decide (a % 16 = b % 16) && decide (11 ≤ a % 16 ∧ a % 16 ≤ 13))

/-- The accumulation format of an input format (R85). -/
def accFmtOf (a : Nat) : Nat := if a = 0 then 0 else if fmtIsInt a then 10 else 1

/-- Formats of C and D of a weight-stationary contraction (R85). -/
def outFmt2 (a x : Nat) : Bool := decide (x = accFmtOf a) || (fmtIsFloat a && decide (a ≠ 0) && decide (x = 1 ∨ x = 2 ∨ x = 3))

/-- The operand formats of a kind are legal (R85). An operand that a flag leaves unused is not checked. -/
def kindFmts (kind : Nat) (addC : Bool) (segment a b c d : Nat) : Bool :=
  if kind = 1 then contractFmts a b
  else if kind = 8 then contractFmts a b && decide (c % 16 = 11)
  else if kind = 2 then contractFmts a b && outFmt2 a d && (!addC || outFmt2 a c)
  else if kind = 3 ∨ kind = 4 then
    let ok (x : Nat) : Bool := decide (x = accFmtOf a ∨ x = a)
    decide (a ≤ 3) && ok d && (!addC || ok c)
  else if kind = 5 then decide (a = 0 ∨ a = 1 ∨ a = 3) && decide (d = a)
  else decide (a ≤ 3 ∨ a % 16 = 10) && decide (d = a) && (decide (segment ≠ 0) || decide (c % 16 = 12))

/-- Route entries that a kind does not use are all zero (R81, R85). -/
def unusedZero (kind : Nat) (d : List Byte) : Bool :=
  let z (i : Nat) : Bool := decide (patNat d (64 + 16 * i) 16 = 0)
  if kind = 1 then z 2 && z 3
  else if kind = 8 then z 3
  else if kind = 2 then true
  else if kind = 5 then z 1 && z 2
  else z 1

/-- The byte of the link map that a layout gives a cell (R82). -/
def linkByte (subgrids row col : Nat) : Nat :=
  let w := if subgrids = 1 then 16 else 8
  let h := if subgrids = 4 then 8 else 16
  let sub := if subgrids = 1 then 0 else if subgrids = 2 then col / 8 else 2 * (row / 8) + col / 8
  sub + (if col % w = 0 then 4 else 0) + (if row % h = 0 then 8 else 0) + (if col % w = w - 1 then 16 else 0) + (if row % h = h - 1 then 32 else 0)

/-- The link map is the layout of its sub-grids (R82). -/
def linkMapOk (subgrids : Nat) (d : List Byte) : Bool :=
  (List.range 256).all (fun i => decide (patNat d (128 + i) 1 = linkByte subgrids (i / 16) (i % 16)))

/-- PARAM (R84): reserved bytes are zero and fields hold legal values. -/
def paramOk (kind a : Nat) (d : List Byte) : Bool :=
  let z (lo n : Nat) : Bool := decide (patNat d lo n = 0)
  let b16 := patNat d 16 1
  let b17 := patNat d 17 1
  if kind = 1 ∨ kind = 2 then decide (b16 = 1 ∨ b16 = 2 ∨ b16 = 4) && z 17 15
  else if kind = 8 then decide (b16 = 1 ∨ b16 = 2 ∨ b16 = 4) && decide (b17 = 32 ∨ b17 = 64) && z 18 14
  else if kind = 3 ∨ kind = 4 then decide (1 ≤ patNat d 16 2 ∧ patNat d 16 2 ≤ 330) && z 18 14
  else if kind = 5 then decide (1 ≤ b16 ∧ b16 ≤ 8) && decide (b17 < 4) && z 18 14
  else decide (b16 ≤ 5) && (decide (b16 ≤ 2) || decide (a % 16 = 10)) && (if kind = 7 then decide (b17 ≤ 1) else decide (b17 = 0))
    && z 18 2 && decide (patNat d 20 4 ≤ 16777216) && z 24 8

/-- A signed byte. -/
def patInt8 (d : List Byte) (off : Nat) : Int := (BitVec.ofNat 8 (patNat d off 1)).toInt

/-- A point's offsets lie within their range (R83). -/
def pointOk (kind : Nat) (d : List Byte) (off : Nat) : Bool :=
  let r (i : Nat) : Bool := decide (-4 ≤ patInt8 d (off + i) ∧ patInt8 d (off + i) ≤ 4)
  r 0 && r 1 && r 2 && (decide (kind = 4) || decide (patInt8 d (off + 2) = 0)) && decide (patNat d (off + 3) 1 = 0)

/-- A point, its coefficient rounded to the accumulation format (R83, R85). -/
def patPoint (acc : Nat) (d : List Byte) (off : Nat) : Point :=
  ⟨patInt8 d off, patInt8 d (off + 1), patInt8 d (off + 2), BitVec.ofNat 64 (toFloat acc (numOf 0 (patNat d (off + 4) 8)) 0 false 0).raw⟩

/-- The least SIZE of a kind: the sections that it requires (R80, R86). -/
def patNeeds (kind points : Nat) : Nat :=
  if kind = 1 ∨ kind = 2 ∨ kind = 8 then 384 else if kind = 3 ∨ kind = 4 then 128 + 12 * points else 128

/-- SIZE in range (R80). -/
def patSizeOk (n : Nat) : Bool := decide (128 ≤ n ∧ n ≤ 4096 ∧ n % 64 = 0)

/-- Points of a descriptor. -/
def patPoints (d : List Byte) : Nat := if patNat d 12 1 = 3 ∨ patNat d 12 1 = 4 then patNat d 16 2 else 0

/-- A descriptor of SIZE bytes passes every check of R86. -/
def patOk (d : List Byte) : Bool :=
  let kind := patNat d 12 1
  let a := patNat d 72 1 % 32
  let block := patNat d 15 1
  let addC := decide (patNat d 13 1 = 1)
  decide (patNat d 0 4 = 0x4E544150) && decide (patNat d 4 2 = 1) && decide (wordSum d = 0) && patSizeOk d.length && decide (patNat d 6 2 = d.length)
    && decide (patNat d 8 4 ≠ 0) && decide (1 ≤ kind ∧ kind ≤ 8) && decide (patNeeds kind (patPoints d) ≤ d.length)
    && decide (patNat d 13 1 ≤ 1) && decide (patNat d 14 1 < 8 ∧ patNat d 14 1 % 4 ≠ 3) && decide (block < 3) && decide (patNat d 36 28 = 0)
    && paramOk kind a d && ([64, 80, 96, 112] : List Nat).all (routeClean d) && unusedZero kind d
    && kindFmts kind addC (patNat d 20 4) a (patNat d 88 1 % 32) (patNat d 104 1 % 32) (patNat d 120 1 % 32)
    && (decide (block = 0) || (fmtIsMx a && fmtIsMx (patNat d 88 1)))
    && (if kind = 1 ∨ kind = 2 ∨ kind = 8 then linkMapOk (patNat d 16 1) d else true)
    && (List.range (patPoints d)).all (fun i => pointOk kind d (128 + 12 * i))

/-- The pattern that a descriptor describes. -/
def patOf (d : List Byte) : Pattern :=
  let kind := patNat d 12 1
  let a := patRoute d 64
  let contracts := decide (kind = 1 ∨ kind = 2 ∨ kind = 8)
  { kind := kind
    addC := decide (patNat d 13 1 = 1)
    outRnd := patNat d 14 1 % 4
    outSat := decide (patNat d 14 1 / 4 % 2 = 1)
    block := 16 * patNat d 15 1
    subgrids := if contracts then patNat d 16 1 else 1
    sparseK := if kind = 8 then patNat d 17 1 else 0
    log4n := if kind = 5 then patNat d 16 1 else 0
    fftFlags := if kind = 5 then patNat d 17 1 else 0
    operation := if kind = 6 ∨ kind = 7 then patNat d 16 1 else 0
    exclusive := decide (kind = 7 ∧ patNat d 17 1 = 1)
    segment := if kind = 6 ∨ kind = 7 then patNat d 20 4 else 0
    a := a
    b := patRoute d 80
    c := patRoute d 96
    d := patRoute d 112
    points := (List.range (patPoints d)).map (fun i => patPoint (accFmtOf a.fmt) d (128 + 12 * i)) }

/-- Validates a descriptor (R86): the pattern and its PATTERN_ID, or none when it is refused. -/
def validatePattern (d : List Byte) : Option (Pattern × BitVec 32) := if patOk d then some (patOf d, BitVec.ofNat 32 (patNat d 8 4)) else none

/-- What the fetch of a descriptor comes to. -/
inductive PatFetch
  | ok (p : Pattern) (id : BitVec 32)
  | refused
  | fault (c : ParkClass) (va : Nat)
  | poison (granule : Nat) (va : Nat)
  | wait
  deriving DecidableEq, Repr

/-- Reads and validates the descriptor at an address for a command: its header gives its size. -/
def State.fetchPattern (s : State) (c : Cmd) (va : Nat) : PatFetch × State :=
  match s.engGet c 0 va 64 with
  | (.ok h, s) =>
    let n := patNat h 6 2
    if !patSizeOk n then (.refused, s) else
    (match s.engGet c 0 (va + 64) (n - 64) with
      | (.ok t, s) => (match validatePattern (h ++ t) with
        | some (p, id) => (.ok p id, s)
        | none => (.refused, s))
      | (.fault k a, s) => (.fault k a, s)
      | (.poison g a, s) => (.poison g a, s)
      | (.wait, s) => (.wait, s))
  | (.fault k a, s) => (.fault k a, s)
  | (.poison g a, s) => (.poison g a, s)
  | (.wait, s) => (.wait, s)

/-- Writes a slot of an array (R77). -/
def State.putSlot (s : State) (la : Nat) (slot : Fin 4) (x : PatSlot) : State :=
  s.onArray la (fun a => { a with slots := Tbl.set none a.slots slot.val (some x) })

end Sys2Proof.Machine
end

