-- ==== Sys2Proof/Machine/Tiles.lean ====
section
/-! DEFINITION. Tile instructions as they issue, tile tokens, and the tile loader (03 R92-R102; 07 R211-R214). -/

namespace Sys2Proof.Machine

/-! ### Tokens (R97, R100) -/

/-- Sets a token of a group. -/
def Group.setToken (g : Group) (t : Fin 8) (x : Token) : Group := { g with tokens := Tbl.set .clear g.tokens t.val x }

/-- The group of a tile operation. -/
def State.groupFor (s : State) (la : Nat) (op : TileOp) : Option Group := (s.array la).groups.find? (fun g => decide (g.cohort = op.cohort ∧ g.num = op.group))

/-- A group that waits for tokens parks when one of them holds a fault (R45, R100), and goes on when none is busy. Before a
TWAIT the record names the TWAIT, or for NAN_SENTRY the instruction after it; before a tile instruction that names the
token, that instruction (DEDUCED). -/
def State.wakeTokens (s : State) (la : Nat) (c : Cmd) (g : Group) : State :=
  match g.st with
  | .waiting (.tokens m twait) =>
    if g.live = [] then (if (g.faulted m).isSome ∨ g.busy m = false then s.groupTail la c g else s)
    else match g.faulted m with
      | some (t, f, op, rec) => s.park la c g (tokenFault f op g.path.pc (if twait then 16 else 0)) (.token t twait) rec
      | none => if g.busy m then s else s.putGroup la { g with st := .ready }
  | _ => s

/-- A tile operation leaves the queue and its token takes a value (R97, R100). -/
def State.endTile (s : State) (la : Nat) (c : Cmd) (op : TileOp) (t : Token) : State :=
  let s := s.onArray la (fun a => { a with tq := a.tq.filter (fun o => decide (o.seq ≠ op.seq)) })
  let s := match s.groupFor la op with
    | some g =>
      let g := g.setToken op.token t
      (s.putGroup la g).wakeTokens la c g
    | none => s
  s.tryLeave la

/-- A tile operation that is complete, with the trap that its token holds if there is one. -/
def State.tileDone (s : State) (la : Nat) (c : Cmd) (op : TileOp) : State :=
  s.endTile la c op (match op.held with
    | some (f, r) => .faulted f { op with held := none } r
    | none => .clear)

/-- Replaces a tile operation in the queue. -/
def State.putTile (s : State) (la : Nat) (op : TileOp) : State :=
  s.onArray la (fun a => { a with tq := a.tq.map (fun o => if o.seq = op.seq then op else o) })

/-- A tile operation as it was accepted. -/
def TileOp.asAccepted (op : TileOp) : TileOp := { op with accRead := none, buf := [], sent := false, held := none }

/-- A tile operation faults: the fault is held on its token (R100). -/
def State.tileFault (s : State) (la : Nat) (c : Cmd) (op : TileOp) (cls : ParkClass) (access : BitVec 8) (addr : Nat) : State :=
  s.endTile la c op (.faulted ⟨cls, access, 0, BitVec.ofNat 64 addr, op.pc⟩ op.asAccepted ((op.held.map (·.2)).getD none))

/-! ### Issue (R92, R97, R98) -/

/-- An operation that the loader performs (R93). -/
def TileOp.moves (o : TileOp) : Bool :=
  match o.kind with
  | .grid .. => false
  | _ => true

/-- An operation that the loader can take: a TSTORE from the accumulators only once the grid engine has read them (R98). -/
def TileOp.loads (o : TileOp) : Bool :=
  match o.kind with
  | .load .. => true
  | .store _ _ _ _ _ _ _ _ _ _ _ _ srcAcc .. => !srcAcc || o.accRead.isSome
  | .discard _ _ => true
  | .grid .. => false

/-- The operations that the loader has in flight: started in the order of acceptance, at most 8 (R98). DEDUCED: it starts
the next as soon as fewer are in flight. -/
def ArrayState.inFlight (a : ArrayState) : List TileOp := ((a.tq.filter TileOp.moves).takeWhile TileOp.loads).take 8

/-- The operation that the grid engine executes: the first of its operations, and of the TSTOREs whose accumulators it has
still to read (R98). -/
def ArrayState.inGrid (a : ArrayState) : Option TileOp := a.tq.find? (fun o => !o.loads)

/-- Entries of the tile queue that no engine has taken (R98). -/
def ArrayState.queued (a : ArrayState) : Nat :=
  (a.tq.filter (fun o => !a.inFlight.contains o && !decide (a.inGrid = some o))).length

/-- A tile instruction issues: it holds its group while its token is busy or the queue is full, parks it for a fault that
the token holds, else the queue accepts it. -/
def State.issueTile (s : State) (i : Issue) (legal : Cmd → Bool) (regs : List Nat) (t : Fin 8) (kind : Group → Nat → TileKind) : State :=
  s.issue i legal regs (fun r s g =>
    if r.m = 0 then .ok s (g.advance 16) false
    else match g.token t.val with
    | .busy => .hold s g (.tokens (1#8 <<< t.val) false)
    | .faulted f op rec => .stop (s.park r.la r.cmd g (tokenFault f op g.path.pc 0) (.token t false) rec)
    | .clear =>
      if 32 ≤ (s.array r.la).queued then .hold s g .queueSlot
      else
        let l := leader r.m
        let a := s.array r.la
        let op : TileOp := ⟨a.tileSeq, g.cohort, g.num, t, l, g.path.pc, kind g l, none, [], false, none⟩
        .ok (s.setArray r.la { a with tq := a.tq ++ [op], tileSeq := a.tileSeq + 1 }) ((g.setToken t .busy).advance 16) false)

/-- A register of the leader lane as an offset. -/
def Group.tileReg (g : Group) (l r : Nat) : Word := (g.reg l r).setWidth 64

/-- The grid format is legal (R94): `pair` where EXTENT is a register pair. -/
def legalGrid (ops : BitVec 48) (w2 : Word) (pair : Bool) (c : Cmd) : Bool :=
  let n := c.regCount
  decide (field ops 36 12 = 0) && decide (field w2 32 32 = 0) && regNamed n (field ops 0 8) && regNamed n (field ops 8 8)
    && (if pair then pairNamed n (field ops 16 8) else regNamed n (field ops 16 8))
    && regNamed n (field w2 0 8) && regNamed n (field w2 8 8) && regNamed n (field w2 16 8) && regNamed n (field w2 24 8)

/-- A grid operation as accepted. -/
def gridKind (op : Nat) (pair : Bool) (ops : BitVec 48) (w2 : Word) (g : Group) (l : Nat) : TileKind :=
  let e := field ops 16 8
  .grid op (g.tileReg l (field ops 0 8)) (g.tileReg l (field ops 8 8)) (if pair then g.pair l e else g.tileReg l e) (tSlot ops) (tAccG ops) (tInit ops)
    (g.tileReg l (field w2 0 8)) (g.tileReg l (field w2 8 8)) (g.tileReg l (field w2 16 8)) (g.tileReg l (field w2 24 8))

/-- Formats between which a move converts (R117, R119). -/
def movePair (src dst : Nat) : Bool :=
  let scale (x y : Nat) : Bool := decide (x % 16 ≠ 9) || decide (y = 0 ∨ y = 1)
  decide (src = dst) || (scale src dst && scale dst src)

/-- The move format is legal (R95). -/
def legalMove (store : Bool) (ops : BitVec 48) (w2 : Word) (c : Cmd) : Bool :=
  let n := c.regCount
  let srcAcc := w2.getLsbD 8
  let toLs := srcAcc && w2.getLsbD 15
  let fm := tFmtMem ops
  let fl := tFmtLs ops
  regNamed n (field ops 0 8) && (toLs || (pairNamed n (field ops 8 8) && pairNamed n (field ops 24 8))) && pairNamed n (field ops 16 8)
    && regNamed n (field w2 16 8) && !fmtReserved fm && !fmtReserved fl && (toLs || (if store then movePair fl fm else movePair fm fl))
    && decide (field w2 0 2 ≠ 3) && decide (field w2 3 3 ≤ 4) && decide (field w2 24 40 = 0) && !ops.getLsbD 47
    && (if store then decide (field w2 6 2 = 0 ∨ field w2 6 2 = 2) else decide (field w2 6 2 ≤ 1) && decide (field w2 8 8 = 0))

/-- The registers that a move names. -/
def moveRegs (ops : BitVec 48) (w2 : Word) : List Nat :=
  field ops 0 8 :: (regSpan (field ops 8 8) 2 ++ regSpan (field ops 16 8) 2 ++ regSpan (field ops 24 8) 2 ++ [field w2 16 8])

/-- The registers that a grid operation names: `pair` where EXTENT is a register pair. -/
def gridRegs (pair : Bool) (ops : BitVec 48) (w2 : Word) : List Nat :=
  [field ops 0 8, field ops 8 8, field w2 0 8, field w2 8 8, field w2 16 8, field w2 24 8] ++ regSpan (field ops 16 8) (if pair then 2 else 1)

/-- TLOAD (R95). -/
def execTload (i : Issue) (ops : BitVec 48) (w2 : Word) (s : State) : Host.Outcome State Fault Refusal :=
  .next (s.issueTile i (legalMove false ops w2) (moveRegs ops w2) (tTokenM ops) (fun g l =>
    .load (g.tileReg l (field ops 0 8)) (g.pair l (field ops 8 8)) (g.tileReg l (field ops 16 8)) (g.tileReg l (field ops 16 8 + 1))
      (g.pair l (field ops 24 8)) (tFmtMem ops) (tFmtLs ops) (field w2 0 2) (w2.getLsbD 2) (tHint ops) (field w2 3 3) (field w2 6 2) (g.tileReg l (field w2 16 8))))

/-- TSTORE (R95). -/
def execTstore (i : Issue) (ops : BitVec 48) (w2 : Word) (s : State) : Host.Outcome State Fault Refusal :=
  .next (s.issueTile i (legalMove true ops w2) (moveRegs ops w2) (tTokenM ops) (fun g l =>
    .store (g.tileReg l (field ops 0 8)) (g.pair l (field ops 8 8)) (g.tileReg l (field ops 16 8)) (g.tileReg l (field ops 16 8 + 1))
      (g.pair l (field ops 24 8)) (tFmtMem ops) (tFmtLs ops) (field w2 0 2) (w2.getLsbD 2) (tHint ops) (field w2 3 3) (field w2 6 2)
      (w2.getLsbD 8) (field w2 9 6) (w2.getLsbD 15) (g.tileReg l (field w2 16 8))))

/-- TCONTRACT (R94). -/
def execTcontract (i : Issue) (ops : BitVec 48) (w2 : Word) (s : State) : Host.Outcome State Fault Refusal :=
  .next (s.issueTile i (legalGrid ops w2 false) (gridRegs false ops w2) (tTokenG ops) (gridKind 2 false ops w2))

/-- TSTENCIL (R94): EXTENT is a register pair. -/
def execTstencil (i : Issue) (ops : BitVec 48) (w2 : Word) (s : State) : Host.Outcome State Fault Refusal :=
  .next (s.issueTile i (legalGrid ops w2 true) (gridRegs true ops w2) (tTokenG ops) (gridKind 3 true ops w2))

/-- TFFT (R94). -/
def execTfft (i : Issue) (ops : BitVec 48) (w2 : Word) (s : State) : Host.Outcome State Fault Refusal :=
  .next (s.issueTile i (legalGrid ops w2 false) (gridRegs false ops w2) (tTokenG ops) (gridKind 4 false ops w2))

/-- TREDUCE (R94). -/
def execTreduce (i : Issue) (ops : BitVec 48) (w2 : Word) (s : State) : Host.Outcome State Fault Refusal :=
  .next (s.issueTile i (legalGrid ops w2 false) (gridRegs false ops w2) (tTokenG ops) (gridKind 5 false ops w2))

/-- TWAIT (R96, R97, R100): a fault on a token named parks the group, the operation accepted first being the first. -/
def execTwait (i : Issue) (ops : BitVec 48) (w2 : Word) (s : State) : Host.Outcome State Fault Refusal :=
  .next (s.issue i (fun _ => decide (field ops 8 40 = 0) && decide (w2 = 0)) [] (fun r s g =>
    let m : BitVec 8 := bits ops 0 8
    if r.m = 0 then .ok s (g.advance 16) false else
    match g.faulted m with
    | some (t, f, op, rec) => .stop (s.park r.la r.cmd g (tokenFault f op g.path.pc 16) (.token t true) rec)
    | none => if g.busy m then .hold s g (.tokens m true) else .ok s (g.advance 16) false))

/-- TDISCARD (R96). DEDUCED: its word has no TOKEN field, and it takes token t0. -/
def execTdiscard (i : Issue) (ops : BitVec 48) (w2 : Word) (s : State) : Host.Outcome State Fault Refusal :=
  .next (s.issueTile i (fun c => decide (field ops 16 32 = 0) && decide (w2 = 0) && pairNamed c.regCount (field ops 0 8) && regNamed c.regCount (field ops 8 8)) (regSpan (field ops 0 8) 2 ++ [field ops 8 8]) 0
    (fun g l => .discard (g.pair l (field ops 0 8)) (g.tileReg l (field ops 8 8))))

/-- TILE_QUEUE_SPACE_FREED (R45, R98): a group that waits for an entry of the tile queue issues again. -/
def execTileQueueSpaceFreed (x : GroupRef) (s : State) : Host.Outcome State Fault Refusal :=
  match s.groupOf x with
  | none => .next s
  | some g => if g.st = .waiting .queueSlot ∧ (s.array x.la.val).queued < 32 then .next (s.putGroup x.la.val { g with st := .ready }) else .next s

/-! ### Rows (R81, R105, R111, R258) -/

/-- The codes of a packed row, the lower-numbered element in the lower bits. -/
def unpackRow (fmt n : Nat) (b : List Byte) : List Nat :=
  let v := leNat b
  let w := fmtBits fmt
  (List.range n).map (fun j => v / 2 ^ (j * w) % 2 ^ w)

/-- The bytes of a row of codes. Bits of its last byte beyond the row keep what `old` has there; a padding sample is zero. -/
def packRow (fmt : Nat) (codes : List Nat) (old : List Byte) : List Byte :=
  let w := fmtBits fmt
  let n := codes.length
  let v := codes.foldr (fun c v => c % 2 ^ w + 2 ^ w * v) 0
  let keep := if fmt % 16 = 14 then 0 else leNat old / 2 ^ (n * w) * 2 ^ (n * w)
  leBytes (rowBytes fmt n) (v + keep)

/-- The last byte of a row is shared with what follows it. -/
def rowPartial (fmt n : Nat) : Bool := decide (fmt % 16 ≠ 14) && decide (n * fmtBits fmt % 8 ≠ 0)

/-- Elements converted one by one, drawing from a stream (R117, R120, R121): what each gave, and the stream. -/
def convList (fs fd rnd : Nat) (sat : Bool) : List Nat → Word → List Conv × Word
  | [], g => ([], g)
  | c :: t, g =>
    let v := convert fd (fmtFromInt fs) (numOf fs c) rnd sat g
    let (r, g) := convList fs fd rnd sat t v.g
    (v :: r, g)

/-- A row converted by the loader, from stream 256 (R121); equal formats move bits (R469). The NaN results come with their
elements and causes. -/
def State.convRow (s : State) (la : Nat) (c : Cmd) (fs fd rnd : Nat) (sat : Bool) (codes : List Nat) : (List Nat × List (Nat × Nat)) × State :=
  if fs = fd then ((codes, []), s) else
  let g := (s.array la).gen c.srSeed la 256
  let (l, g') := convList fs fd rnd sat codes g
  let s := (if g' = g then s else s.setGen la 256 g').countNum la (l.foldl (fun n v => n.plus v.counts) .zero)
  ((l.map (·.raw), l.zipIdx.filterMap (fun x => if x.1.cause = 0 then none else some (x.2, x.1.cause))), s)

/-! ### The sentry on tile operations (R131-R133) -/

/-- What a sentry record says of a NaN of a tile operation. -/
structure TileNan where
  opClass : Nat
  cause : Nat
  fmtA : Nat
  fmtB : Nat
  fmtOut : Nat
  slot : Nat
  patId : BitVec 32
  c0 : Nat
  c1 : Nat
  c2 : Nat
  deriving DecidableEq, Repr

/-- The sentry record of a tile operation (R133). -/
def tileSentryRec (la : Nat) (c : Cmd) (op : TileOp) (n : TileNan) : SentryRec where
  la := la
  ticket := 0
  opClass := n.opClass
  cause := n.cause
  fmtA := BitVec.ofNat 8 n.fmtA
  fmtB := BitVec.ofNat 8 n.fmtB
  fmtOut := BitVec.ofNat 8 n.fmtOut
  slot := BitVec.ofNat 8 n.slot
  ch := c.ch.val
  idx := c.idx
  cohort := op.cohort
  group := op.group.val
  part := c.part.val
  lane := op.leader
  rerun := min c.reruns 255
  patId := n.patId
  c0 := BitVec.ofNat 32 n.c0
  c1 := BitVec.ofNat 32 n.c1
  c2 := BitVec.ofNat 32 n.c2
  pc := op.pc
  stamp := 0

/-- The sentry of an array traps for a NaN of a tile operation: the trap that the operation's token will hold. -/
def State.tileNan (s : State) (la : Nat) (c : Cmd) (op : TileOp) (n : TileNan) : TileOp × State :=
  if (s.array la).sentryArmed && sentryTraps c.sentry n.cause then
    ({ op with held := some (⟨.nanSentry, 0, 0, 0, op.pc⟩, some (tileSentryRec la c op n)) }, s.sentryFired la)
  else (op, s)

/-- The first NaN of a row that traps (R132). -/
def State.rowNans (s : State) (la : Nat) (c : Cmd) (op : TileOp) (fa fo row : Nat) (l : List (Nat × Nat)) : TileOp × State :=
  match l.find? (fun x => sentryTraps c.sentry x.2) with
  | some x => s.tileNan la c op ⟨7, x.2, fa, 0xFF, fo, 0, 0, row, x.1, 0⟩
  | none => (op, s)

/-! ### Global memory by the loader -/

/-- Whether what an operation needs of memory is there. -/
inductive Need | ready | wait | stop
  deriving DecidableEq, Repr

/-- The run of a tile operation. -/
structure Tl where
  la : Nat
  cmd : Cmd
  op : TileOp
  g : Group
  deriving DecidableEq, Repr

/-- An operation's read is outstanding. -/
def State.tileAsked (s : State) (x : Tl) (va : Nat) : Bool :=
  s.host.reads.any (fun r => decide (r.use = .tile x.la x.op.seq va)) || s.link.guest.reads.any (fun r => decide (r.2.2 = .tile x.la x.op.seq va))
    || s.mem.homeReqs.any (fun r => decide (r.la = x.la ∧ r.use = .tile x.op.seq va))

/-- Sends a request of a tile operation to a home. -/
def State.tileReq (s : State) (x : Tl) (k : LineKind) (line : Nat) (h : HomeOp) (hint scope va : Nat) : State :=
  (s.sendReq ⟨x.la, x.cmd, 0⟩ x.g k line h hint scope (.tile x.op.seq va)).2

/-- What a part of a line that an operation reads lacks: it is asked for, where it lies outside the pool. -/
def State.tileNeed (s : State) (x : Tl) (hint va n : Nat) : Need × State :=
  match bufBytes x.op.buf va n with
  | some l => (if l.all (fun b => match b with | .data _ => true | _ => false) then .ready else .stop, s)
  | none =>
    if s.tileAsked x va ∨ s.tileAsked x (va - va % 128) then (.wait, s) else
    match s.globalDest x.cmd .read va n with
    | (.pool pa, s) => (if s.txnBusy (pa / 128) then .wait else .ready, s)
    | (.remote m off, s) => (.wait, s.tileReq x .remote ((2 ^ 53 + m * 2 ^ 41 + off) / 128) .rdOnce hint 4 (va - off % 128))
    | (.host iova, s) => (.wait, s.sendHostRead (s.chanCtx x.cmd.ch) iova n (.tile x.la x.op.seq va))
    | (.guest off, s) =>
      if s.guestUp then (.wait, s.sendGuestRead off n (.tile x.la x.op.seq va))
      else
        let buf := (List.range n).foldl (fun t i => Tbl.set none t (va + i) (some (.data 0xFF))) x.op.buf
        (.wait, (s.putTile x.la { x.op with buf := buf }).guestReset x.cmd.part off)
    | (.fault _ _, s) => (.stop, s)
    | (.poison _, s) => (.stop, s)
    | (_, s) => (.ready, s)

/-- What the parts of rows lack, up to the first that cannot be read. -/
def State.tileNeeds (s : State) (x : Tl) (hint : Nat) : List (Nat × Nat) → Need × State
  | [] => (.ready, s)
  | (va, n) :: t =>
    match s.tileNeed x hint va n with
    | (.stop, s) => (.stop, s)
    | (k, s) =>
      match s.array x.la |>.tq.find? (fun o => decide (o.seq = x.op.seq)) with
      | none => (k, s)
      | some op =>
        match State.tileNeeds s { x with op := op } hint t with
        | (r, s) => (if k = .wait then .wait else r, s)

/-- What a read of part of a line met. -/
inductive TileGot
  | ok (b : List Byte)
  | fault (c : ParkClass) (again : Bool) (va : Nat)
  | poison (granule : Option Nat) (va : Nat)
  deriving DecidableEq, Repr

/-- Reads part of a line for an operation. -/
def State.tileCut (s : State) (x : Tl) (hint va n : Nat) : TileGot × State :=
  match bufBytes x.op.buf va n with
  | some l => (match bufGot l va with
    | .ok b => .ok b
    | .poison _ a => .poison none a
    | .refused a => .fault .protection false a
    | _ => .fault .translation false va, s)
  | none => match s.globalDest x.cmd .read va n with
    | (.pool pa, s) =>
      let ((d, po), s) := s.engRead x.cmd.part (pa / 128) hint
      let g0 := pa % 128 / 64
      let g1 := (pa % 128 + n - 1) / 64
      if po.getLsbD g0 then (.poison (some (2 * (pa / 128) + g0)) va, s)
      else if po.getLsbD g1 then (.poison (some (2 * (pa / 128) + g1)) va, s)
      else (.ok (lineBytes d (pa % 128) n), s)
    | (.param off, s) => (.ok ((List.range n).map (fun i => (s.array x.la).args.getD (off + i) 0)), s)
    | (.atlas off, s) => (.ok ((List.range n).map (fun i => s.atlasBytes.getD (off + i) 0)), s)
    | (.poison k, s) => (.poison (some k) va, s)
    | (.fault q a, s) => (.fault q a va, s)
    | (_, s) => (.fault .protection false va, s)

/-- Reads a row: its parts, up to the first that cannot be read. -/
def State.tileRow (s : State) (x : Tl) (hint : Nat) : List (Nat × Nat) → TileGot × State
  | [] => (.ok [], s)
  | (va, n) :: t =>
    match s.tileCut x hint va n with
    | (.ok b, s) =>
      match State.tileRow s x hint t with
      | (.ok b', s) => (.ok (b ++ b'), s)
      | r => r
    | r => r

/-- How the rows of a move end. -/
inductive RowEnd
  | done (op : TileOp) (s : State)
  | fault (op : TileOp) (s : State) (c : ParkClass) (access : BitVec 8) (addr : Nat)
  | gone (s : State)

/-- A read that an operation could not make ends it (R100, R400, R404). -/
def State.readEnd (s : State) (x : Tl) (access : BitVec 8) : TileGot → RowEnd
  | .ok _ => .done x.op s
  | .fault c again va => .fault x.op s c (access ||| (if again then 0x20 else 0)) va
  | .poison none va => .fault x.op s .poison access va
  | .poison (some n) va =>
    let (parks, s) := s.arrayPoison x.la x.cmd n
    if parks then .fault x.op s .poison access va else .gone s

/-- Global address of a row, modulo 2^64. -/
def rowVa (base stride : Word) (r : Nat) : Nat := (base + BitVec.ofNat 64 r * stride).toNat

/-- Lines a row begins in, for the stream prefetcher (R103). -/
def State.rowStream (s : State) (x : Tl) (va hint : Nat) : State :=
  match s.translate x.cmd.part va false with
  | (.pool pa, s) => if s.txnBusy (pa / 128) then s else s.streamAccess x.la x.cmd none (s.pageLines x.cmd.part va) (pa / 128) hint
  | (_, s) => s

/-- TLOAD's rows in order (R95, R100). -/
def State.loadRows (s : State) (x : Tl) (ls gaddr gstride lsStride : Word) (n fm fl rnd : Nat) (sat : Bool) (hint : Nat) : List Nat → RowEnd
  | [] => .done x.op s
  | r :: t =>
    let va := rowVa gaddr gstride r
    let off := ls.toNat + r * lsStride.toNat
    let nb := rowBytes fl n
    if !(s.array x.la).lsHolds x.op.cohort off nb then .fault x.op s .protection 2 off else
    match s.tileRow x hint (lineCuts va (rowBytes fm n)) with
    | (.ok b, s) =>
      let s := s.rowStream x va hint
      let ((codes, nans), s) := s.convRow x.la x.cmd fm fl rnd sat (unpackRow fm n b)
      let (op, s) := s.rowNans x.la x.cmd x.op fm fl r nans
      let old := (s.array x.la).lsRead x.op.cohort off nb
      let s := s.onArray x.la (fun a => a.lsWrite x.cmd.part x.op.cohort off (packRow fl codes old))
      State.loadRows s { x with op := op } ls gaddr gstride lsStride n fm fl rnd sat hint t
    | (k, s) => s.readEnd x 1 k

/-- Ends an operation whose rows have ended. -/
def State.endRows (la : Nat) (c : Cmd) : RowEnd → State
  | .done op s => s.tileDone la c op
  | .fault op s k access addr => s.tileFault la c op k access addr
  | .gone s => s

/-- The parts of the rows that a move reads from global memory. -/
def moveCuts (gaddr gstride : Word) (rows bytes : Nat) : List (Nat × Nat) :=
  ((List.range rows).map (fun r => lineCuts (rowVa gaddr gstride r) bytes)).flatten

/-! ### Stores -/

/-- A part of a line that a store writes can be written now. -/
def State.storeNeed (s : State) (x : Tl) (va n : Nat) : Need × State :=
  match s.globalDest x.cmd .write va n with
  | (.fault _ _, s) => (.stop, s)
  | (.poison _, s) => (.stop, s)
  | (_, s) => (.ready, s)

/-- The parts of rows that a store writes can be written now, up to the first that faults. -/
def State.storeNeeds (s : State) (x : Tl) : List (Nat × Nat) → Need × State
  | [] => (.ready, s)
  | (va, n) :: t =>
    match s.storeNeed x va n with
    | (.stop, s) => (.stop, s)
    | (.wait, s) => (.wait, s)
    | (.ready, s) => State.storeNeeds s x t

/-- The first part of a row that a store may not write. -/
def State.storeFault (s : State) (x : Tl) : List (Nat × Nat) → TileGot × State
  | [] => (.ok [], s)
  | (va, n) :: t =>
    match s.globalDest x.cmd .write va n with
    | (.fault c a, s) => (.fault c a va, s)
    | (.poison k, s) => (.poison (some k) va, s)
    | (.param _, s) => (.fault .protection false va, s)
    | (.atlas _, s) => (.fault .protection false va, s)
    | (_, s) => State.storeFault s x t

/-- Sends the write of part of a line: each line is performed on its own (R102, R213, R217). -/
def State.storeCut (s : State) (x : Tl) (hint scope : Nat) (release : Bool) (va : Nat) (b : List Byte) : State :=
  match s.globalDest x.cmd .write va b.length with
  | (.pool pa, s) => (s.onArray x.la (fun a => a.l1Drop (pa / 128))).tileReq x .pool (pa / 128) (.write (placeBytes (pa % 128) b) (byteMask (pa % 128) b.length)) hint scope va
  | (.remote m off, s) =>
    let line := (2 ^ 53 + m * 2 ^ 41 + off) / 128
    ((s.onArray x.la (fun a => a.l1Drop line)).markWrote x.cmd).tileReq x .remote line (.write (placeBytes (off % 128) b) (byteMask (off % 128) b.length)) hint scope va
  | (.host iova, s) => (s.markWrote x.cmd).hostWrite (s.chanCtx x.cmd.ch) iova b release
  | (.guest off, s) => s.guestWrite x.cmd.part off b
  | (_, s) => s

/-- Writes a row. -/
def State.storeCuts (s : State) (x : Tl) (hint scope : Nat) (release : Bool) : List (Nat × Nat) → List Byte → State
  | [], _ => s
  | (va, n) :: t, b => State.storeCuts (s.storeCut x hint scope release va (b.take n)) x hint scope release t (b.drop n)

/-- The byte that the end of a row shares: what it holds now. -/
def State.sharedByte (s : State) (x : Tl) (va : Nat) : Byte :=
  match (s.globalDest x.cmd .write va 1).1 with
  | .pool pa => lineByte (s.peek (pa / 128)).1 (pa % 128)
  | _ => match Tbl.get none x.op.buf va with
    | some (.data b) => b
    | _ => 0

/-- The shared last bytes of rows that lie outside the pool are read first. -/
def State.sharedNeeds (s : State) (x : Tl) (hint : Nat) (l : List Nat) : Need × State :=
  s.tileNeeds x hint ((l.filter (fun va => match (s.globalDest x.cmd .write va 1).1 with
    | .remote _ _ => true
    | .host _ => true
    | .guest _ => true
    | _ => false)).map (fun va => (va, 1)))

/-- A TSTORE's operands. -/
structure StoreOp where
  ls : Word
  gaddr : Word
  n : Nat
  gstride : Word
  fm : Nat
  fl : Nat
  rnd : Nat
  sat : Bool
  hint : Nat
  scope : Nat
  release : Bool
  toLs : Bool
  lsStride : Word
  deriving DecidableEq, Repr

/-- The codes of a row that a TSTORE moves, in its destination's format: from local store, or from the accumulators as read
(R95, R124). A row of local store outside the allocation answers its offset. -/
def State.storeCodes (s : State) (x : Tl) (o : StoreOp) (r : Nat) : Except Nat (List Nat × TileOp × State) :=
  let fd := if o.toLs then o.fl else o.fm
  match x.op.accRead with
  | some (fa, w, codes) =>
    let row := (List.range o.n).map (fun j => (codes.getD (r * w + j) 0).toNat)
    let ((c1, n1), s) := s.convRow x.la x.cmd fa o.fl o.rnd o.sat row
    let (op, s) := s.rowNans x.la x.cmd x.op fa o.fl r n1
    let ((c2, n2), s) := s.convRow x.la x.cmd o.fl fd o.rnd o.sat c1
    let (op, s) := s.rowNans x.la x.cmd op o.fl fd r n2
    .ok (c2, op, s)
  | none =>
    let off := o.ls.toNat + r * o.lsStride.toNat
    if !(s.array x.la).lsHolds x.op.cohort off (rowBytes o.fl o.n) then .error off else
    let b := (s.array x.la).lsRead x.op.cohort off (rowBytes o.fl o.n)
    let ((c, n), s) := s.convRow x.la x.cmd o.fl fd o.rnd o.sat (unpackRow o.fl o.n b)
    let (op, s) := s.rowNans x.la x.cmd x.op o.fl fd r n
    .ok (c, op, s)

/-- TSTORE's rows in order (R95, R100). -/
def State.storeRows (s : State) (x : Tl) (o : StoreOp) : List Nat → RowEnd
  | [] => .done x.op s
  | r :: t =>
    let fd := if o.toLs then o.fl else o.fm
    let nb := rowBytes fd o.n
    let off := o.ls.toNat + r * o.lsStride.toNat
    let va := rowVa o.gaddr o.gstride r
    if o.toLs then
      if !(s.array x.la).lsHolds x.op.cohort off nb then .fault x.op s .protection 2 off else
      match s.storeCodes x o r with
      | .error a => .fault x.op s .protection 1 a
      | .ok (codes, op, s) =>
        let old := (s.array x.la).lsRead x.op.cohort off nb
        let s := s.onArray x.la (fun a => a.lsWrite x.cmd.part x.op.cohort off (packRow fd codes old))
        State.storeRows s { x with op := op } o t
    else
      match s.storeFault x (lineCuts va nb) with
      | (.ok _, s) =>
        (match s.storeCodes x o r with
          | .error a => .fault x.op s .protection 1 a
          | .ok (codes, op, s) =>
            let old : List Byte := if rowPartial fd o.n then List.replicate (nb - 1) 0 ++ [s.sharedByte x (va + nb - 1)] else []
            let s := s.storeCuts x o.hint o.scope o.release (lineCuts va nb) (packRow fd codes old)
            State.storeRows s { x with op := op } o t)
      | (k, s) => s.readEnd x 2 k

/-! ### The loader (R98) -/

/-- Requests that an operation has sent and that are not yet performed at a scope (R99, R219). -/
def State.tileSent (s : State) (la : Nat) (op : TileOp) (scope : Nat) : Bool :=
  s.mem.homeReqs.any (fun r => decide (r.la = la) && (match r.use with
    | .tile q _ => decide (q = op.seq)
    | _ => false) && r.op.writes && (match r.place with
    | .pool => true
    | .remote _ => decide (scope = 4) || r.tag.isNone))

/-- The groups that wait for the acquires of TLOADs go on when theirs are made (R214). -/
def State.wakeAcquired (s : State) (la : Nat) : State :=
  s.onArray la (fun a => { a with groups := a.groups.map (fun g => if g.st = .waiting .tileAcquire ∧ a.tileAcquires g = false then { g with st := .ready } else g) })

/-- A TLOAD makes one step: its acquire, which comes before its first read (R214); it asks for what it lacks; or it is
performed. -/
def State.stepLoad (s : State) (x : Tl) (ls gaddr rowElems rows gstride : Word) (fm fl rnd : Nat) (sat : Bool) (hint scope order : Nat) (lsStride : Word) : State :=
  let n := rowElems.toNat
  if order = 1 ∧ scope ≠ 0 ∧ x.op.sent = false then
    ((s.acquire x.la x.cmd.part scope).putTile x.la { x.op with sent := true }).wakeAcquired x.la
  else
    match s.tileNeeds x hint (moveCuts gaddr gstride rows.toNat (rowBytes fm n)) with
    | (.wait, s) => s
    | (_, s) => State.endRows x.la x.cmd (s.loadRows x ls gaddr gstride lsStride n fm fl rnd sat hint (List.range rows.toNat))

/-- A TSTORE makes one step: it waits for its release, for lines that are busy, or for bytes it shares; it is performed; or
what it sent to other modules is performed at its scope. -/
def State.stepStore (s : State) (x : Tl) (o : StoreOp) (rows order : Nat) : State :=
  if x.op.sent then (if s.tileSent x.la x.op o.scope then s else s.tileDone x.la x.cmd x.op) else
  let earlier := (s.array x.la).tq.any (fun q => decide (q.cohort = x.op.cohort ∧ q.group = x.op.group ∧ q.seq < x.op.seq))
  if order = 2 ∧ o.scope ≠ 0 ∧ (earlier ∨ s.releaseDone x.la x.op.cohort x.op.group o.scope = false) then s else
  let nb := rowBytes o.fm o.n
  let cuts := if o.toLs then [] else moveCuts o.gaddr o.gstride rows nb
  match s.storeNeeds x cuts with
  | (.wait, s) => s
  | (_, s) =>
    let ends := if o.toLs || !rowPartial o.fm o.n then [] else (List.range rows).map (fun r => rowVa o.gaddr o.gstride r + nb - 1)
    match s.sharedNeeds x o.hint ends with
    | (.wait, s) => s
    | (_, s) =>
      let s := if order = 2 ∧ o.scope ≠ 0 then s.afterRelease x.cmd o.scope else s
      match s.storeRows x o (List.range rows) with
      | .done op s =>
        if s.tileSent x.la op o.scope then s.putTile x.la { op with sent := true } else s.tileDone x.la x.cmd op
      | e => State.endRows x.la x.cmd e

/-- The lines of a TDISCARD's range. -/
def discardLines (addr len : Nat) : List (Nat × Nat) := (List.range (len / 128)).map (fun i => (addr + 128 * i, 128))

/-- Drops one line of a TDISCARD (R185): the L1's copy, then a Discard to the home, or the local copies of a Remote line. -/
def State.discardLine (s : State) (x : Tl) (va : Nat) : State :=
  match s.globalDest x.cmd .write va 128 with
  | (.pool pa, s) => (s.onArray x.la (fun a => a.l1Drop (pa / 128))).tileReq x .pool (pa / 128) .discard 0 2 va
  | (.remote m off, s) =>
    let line := (2 ^ 53 + m * 2 ^ 41 + off) / 128
    let s := s.onArray x.la (fun a => a.l1Drop line)
    { s with mem := { s.mem with llc := s.mem.llc.filter (fun l => !(decide (l.line = line) && l.remote.isSome && decide (l.owner = x.cmd.part))) } }
  | (_, s) => s

/-- A TDISCARD makes one step (R96, R185). -/
def State.stepDiscard (s : State) (x : Tl) (addr len : Nat) : State :=
  if x.op.sent then (if s.tileSent x.la x.op 4 then s else s.tileDone x.la x.cmd x.op)
  else if addr % 128 ≠ 0 ∨ len % 128 ≠ 0 then s.tileFault x.la x.cmd x.op .alignment 2 addr
  else
    match s.storeFault x (discardLines addr len) with
    | (.ok _, s) => (((discardLines addr len).foldl (fun s l => s.discardLine x l.1) s).putTile x.la { x.op with sent := true })
    | (k, s) => State.endRows x.la x.cmd (s.readEnd x 2 k)

/-- The lines of global memory that a move touches. -/
def State.moveLines (s : State) (p : Fin 16) (o : TileOp) : List Xlate :=
  let cuts : List (Nat × Nat) := match o.kind with
    | .load _ gaddr rowElems rows gstride fm _ _ _ _ _ _ _ => moveCuts gaddr gstride rows.toNat (rowBytes fm rowElems.toNat)
    | .store _ gaddr rowElems rows gstride fm _ _ _ _ _ _ srcAcc _ destLs _ => if srcAcc && destLs then [] else moveCuts gaddr gstride rows.toNat (rowBytes fm rowElems.toNat)
    | .discard addr len => discardLines addr.toNat len.toNat
    | .grid .. => []
  cuts.map (fun x => s.locate p (x.1 - x.1 % 128) false)

/-- An earlier operation in flight touches a line of an operation: operations of one array to one line are performed in the
order of acceptance (R214). -/
def State.moveBehind (s : State) (a : ArrayState) (p : Fin 16) (o : TileOp) : Bool :=
  let mine := s.moveLines p o
  (a.inFlight.filter (fun x => decide (x.seq < o.seq))).any (fun x => (s.moveLines p x).any (fun l => mine.contains l))

/-- The loader takes one of its operations in flight a step on: the n-th, where that many are in flight, else the oldest. -/
def State.stepLoader (s : State) (la : Nat) (c : Cmd) (n : Nat) : State :=
  let l := (s.array la).inFlight
  match (l[n]?).orElse (fun _ => l.head?) with
  | none => s
  | some op => match s.groupFor la op with
    | none => s
    | some g =>
      if s.moveBehind (s.array la) c.part op then s else
      let x : Tl := ⟨la, c, op, g⟩
      match op.kind with
      | .load ls gaddr rowElems rows gstride fm fl rnd sat hint scope order lsStride =>
        s.stepLoad x ls gaddr rowElems rows gstride fm fl rnd sat hint scope order lsStride
      | .store ls gaddr rowElems rows gstride fm fl rnd sat hint scope order srcAcc _ destLs lsStride =>
        s.stepStore x ⟨ls, gaddr, rowElems.toNat, gstride, fm, fl, rnd, sat, hint, scope, decide (order = 2 ∧ scope ≠ 0), srcAcc && destLs, lsStride⟩ rows.toNat order
      | .discard addr len => s.stepDiscard x addr.toNat len.toNat
      | .grid .. => s

end Sys2Proof.Machine
end

