-- ==== Sys2Proof/Machine/Grid.lean ====
section
/-! DEFINITION. The grid engine of an array (03 R79, R81, R89-R94; 04 R122-R125): contractions, stencils, transforms,
reductions and scans, and the accumulator reads of TSTORE. -/

namespace Sys2Proof.Machine

/-! ### Operands in local store (R81) -/

/-- The bit at which element (i, j) of an operand lies. -/
def Route.pos (r : Route) (base plane : Nat) (bits : Nat) (i j : Int) : Int :=
  let row := if r.transposed then j else i
  let el := if r.transposed then i else j
  8 * ((base : Int) + plane * r.planeStride + row * r.rowStride) + el * bits

/-- Bits that a cohort's allocation holds. -/
def ArrayState.bitsHeld (a : ArrayState) (cohort : Nat) (pos : Int) (w : Nat) : Bool :=
  decide (0 ≤ pos) && a.lsHolds cohort (pos / 8).toNat (ceilDiv ((pos % 8).toNat + w) 8)

/-- The code of w bits at a bit of local store. -/
def ArrayState.codeAt (a : ArrayState) (cohort : Nat) (pos : Int) (w : Nat) : Nat :=
  leNat (a.lsRead cohort (pos / 8).toNat (ceilDiv ((pos % 8).toNat + w) 8)) / 2 ^ (pos % 8).toNat % 2 ^ w

/-- Writes a code of whole bytes at a bit of local store. -/
def ArrayState.putCode (a : ArrayState) (p : Fin 16) (cohort : Nat) (pos : Int) (w v : Nat) : ArrayState :=
  a.lsWrite p cohort (pos / 8).toNat (leBytes (w / 8) v)

/-! ### Accumulators (R91) -/

/-- Rows and columns of a cell's block by the width of its inputs (R91). -/
def blockShape (fmt : Nat) : Nat × Nat :=
  match fmtBits fmt with
  | 64 => (1, 2)
  | 32 => (2, 2)
  | 16 => (2, 4)
  | 4 => (4, 8)
  | _ => (4, 4)

/-- Units of 16 bytes of an output-stationary block (R91). -/
def blockUnits (fmt : Nat) : Nat :=
  match fmtBits fmt with
  | 64 => 1
  | 32 => 1
  | 16 => 2
  | 4 => 8
  | _ => 4

/-- Rows and columns of cells of a sub-grid (R82). -/
def gridCells (subgrids : Nat) : Nat × Nat := (if subgrids = 4 then 8 else 16, if subgrids = 1 then 16 else 8)

/-- The cell at a row and column of a sub-grid (R82). -/
def cellOf (subgrids s r c : Nat) : Nat :=
  if subgrids = 4 then 16 * (8 * (s / 2) + r) + 8 * (s % 2) + c else 16 * r + 8 * s + c

/-- The word of the accumulator section that holds word i of the block at ACC of a cell. -/
def accWord (cell acc i : Nat) : Nat := 256 * cell + 4 * acc + i

/-- An accumulator of a block, of 64 or 32 bits. DEDUCED: a block is stored row by row. -/
def ArrayState.accGet (a : ArrayState) (wide : Bool) (cell acc i : Nat) : Nat :=
  if wide then (Tbl.get 0 a.acc (accWord cell acc (2 * i))).toNat + 2 ^ 32 * (Tbl.get 0 a.acc (accWord cell acc (2 * i + 1))).toNat
  else (Tbl.get 0 a.acc (accWord cell acc i)).toNat

/-- Sets an accumulator of a block. -/
def ArrayState.accSet (a : ArrayState) (wide : Bool) (cell acc i v : Nat) : ArrayState :=
  if wide then { a with acc := Tbl.set 0 (Tbl.set 0 a.acc (accWord cell acc (2 * i)) (BitVec.ofNat 32 v)) (accWord cell acc (2 * i + 1)) (BitVec.ofNat 32 (v / 2 ^ 32)) }
  else { a with acc := Tbl.set 0 a.acc (accWord cell acc i) (BitVec.ofNat 32 v) }

/-- Bits of the container of an element in a B block: 6-bit elements take 8 (R91). -/
def containerBits (fmt : Nat) : Nat := if fmtBits fmt = 6 then 8 else fmtBits fmt

/-- The 128 bits of a cell's B block. -/
def ArrayState.bBlock (a : ArrayState) (cell acc : Nat) : Nat :=
  (List.range 4).foldr (fun i v => (Tbl.get 0 a.acc (accWord cell acc i)).toNat + 2 ^ 32 * v) 0

/-- Sets the 128 bits of a cell's B block. -/
def ArrayState.setBBlock (a : ArrayState) (cell acc v : Nat) : ArrayState :=
  { a with acc := (List.range 4).foldl (fun t i => Tbl.set 0 t (accWord cell acc i) (BitVec.ofNat 32 (v / 2 ^ (32 * i)))) a.acc }

/-! ### Sums (R122, R125) -/

/-- What joins an accumulator in one rounding: its place along the reduction, its value, and whether a NaN entered. -/
structure Term where
  k : Nat
  p : Num
  nan : Bool
  deriving DecidableEq, Repr

/-- A product. -/
def productTerm (k : Nat) (a b : Num) : Term := ⟨k, a.mul b, decide (a = .nan ∨ b = .nan)⟩

/-- The exact sum of some values. -/
def exactSum : List Num → Num
  | [] => .fin false 0 0
  | a :: t => t.foldl Num.add a

/-- The scaled sum of one block pair: S × P (R122, R125). -/
def blockTerm (k sa sb : Nat) (ab : List (Num × Num)) : Term :=
  let nan := decide (sa = 255 ∨ sb = 255)
  let p := exactSum (ab.map (fun x => x.1.mul x.2))
  ⟨k, if nan then .nan else p.mul (.fin false 1 ((sa : Int) + sb - 254)), nan || ab.any (fun x => decide (x.1 = .nan ∨ x.2 = .nan))⟩

/-- One addition into an accumulator of a format, with the cause of a NaN result (R122, R130). -/
def accAdd (fmt acc : Nat) (t : Term) : Nat × Nat :=
  if fmtIsInt fmt then (intRaw fmt (intValue fmt acc + t.p.toInt), 0) else
  let a := numOf fmt acc
  let x := a.add t.p
  ((floatFmt fmt).result 0 x, if x = .nan then (if t.nan ∨ a = .nan then 4 else 1) else 0)

/-- Terms added in order: the accumulator, and the NaN results with their places and causes. -/
def accumulate (fmt : Nat) : Nat → List Term → Nat × List (Nat × Nat)
  | acc, [] => (acc, [])
  | acc, t :: ts =>
    let (x, cause) := accAdd fmt acc t
    let (r, ev) := accumulate fmt x ts
    (r, if cause = 0 then ev else (t.k, cause) :: ev)

/-- The terms of n values along the reduction, whose codes and scales are read by index: products one by one, or the pairs of
blocks of `block` elements. -/
def termsOf (fa fb block n : Nat) (a b sa sb : Nat → Nat) : List Term :=
  if block = 0 then (List.range n).map (fun k => productTerm k (numOf fa (a k)) (numOf fb (b k)))
  else (List.range (ceilDiv n block)).map (fun q =>
    blockTerm (q * block) (sa q) (sb q) ((List.range (min block (n - q * block))).map (fun i => (numOf fa (a (q * block + i)), numOf fb (b (q * block + i))))))

/-! ### A grid operation under way -/

/-- A grid operation: its array, command, pattern, slot and operands. -/
structure GridRun where
  la : Nat
  cmd : Cmd
  op : TileOp
  pat : Pattern
  slot : Fin 4
  id : BitVec 32
  code : Nat
  a : Nat
  b : Nat
  c : Nat
  d : Nat
  sa : Nat
  sb : Nat
  extent : Word
  acc : Nat
  init : Bool
  deriving DecidableEq, Repr

/-- A NaN result of a grid operation: its cause, its coordinates and the format of the result. -/
structure GridNan where
  cause : Nat
  c0 : Nat
  c1 : Nat
  c2 : Nat
  fmt : Nat
  deriving DecidableEq, Repr

/-- The code of an element of an operand. -/
def GridRun.elem (x : GridRun) (ar : ArrayState) (r : Route) (base plane : Nat) (i j : Int) : Nat :=
  ar.codeAt x.op.cohort (r.pos base plane (fmtBits r.fmt) i j) (fmtBits r.fmt)

/-- An element of an operand lies in the allocation. -/
def GridRun.held (x : GridRun) (ar : ArrayState) (r : Route) (base plane : Nat) (i j : Int) : Bool :=
  ar.bitsHeld x.op.cohort (r.pos base plane (fmtBits r.fmt) i j) (fmtBits r.fmt)

/-- A byte of a scale array (R81): of row i, block q. -/
def GridRun.scale (x : GridRun) (ar : ArrayState) (r : Route) (base i : Nat) (q : Int) : Nat :=
  (ar.lsByte x.op.cohort ((base + i * r.scaleStride : Nat) + q).toNat).toNat

/-- A byte of a scale array lies in the allocation. -/
def GridRun.scaleHeld (x : GridRun) (ar : ArrayState) (r : Route) (base i : Nat) (q : Int) : Bool :=
  decide (0 ≤ ((base + i * r.scaleStride : Nat) : Int) + q) && ar.lsHolds x.op.cohort ((base + i * r.scaleStride : Nat) + q).toNat 1

/-- Rows and columns of a sub-grid's output tile (R91). -/
def Pattern.tile (p : Pattern) : Nat × Nat :=
  let (h, w) := gridCells p.subgrids
  let (bm, bn) := blockShape p.a.fmt
  (h * bm, w * bn)

/-- The accumulation format of a pattern (R85): reductions of INT32 keep the signedness of A. -/
def Pattern.accFmt (p : Pattern) : Nat := if (p.kind = 6 ∨ p.kind = 7) ∧ fmtIsInt p.a.fmt then p.a.fmt else accFmtOf p.a.fmt

/-- The KINDs that an instruction serves (R79). -/
def gridServes (code kind : Nat) : Bool :=
  if code = 2 then decide (kind = 1 ∨ kind = 2 ∨ kind = 8)
  else if code = 3 then decide (kind = 3 ∨ kind = 4)
  else if code = 4 then decide (kind = 5)
  else decide (kind = 6 ∨ kind = 7)

/-- An accumulator range of some units lies in the section at a multiple of its size (R91). -/
def accRange (c : Cmd) (acc units : Nat) : Bool := decide (acc % units = 0 ∧ 16 * (acc + units) ≤ c.accCell)

/-- All pairs below two bounds. -/
def pairsBelow (m n : Nat) : List (Nat × Nat) := ((List.range m).map (fun i => (List.range n).map (fun j => (i, j)))).flatten

/-- All triples below three bounds. -/
def triplesBelow (l m n : Nat) : List (Nat × Nat × Nat) := ((List.range l).map (fun i => (pairsBelow m n).map (fun p => (i, p)))).flatten

/-- The first failing check of a list: the offset that its operand begins at. -/
def firstBad (l : List (Nat × Bool)) : Option Nat := (l.find? (fun x => !x.2)).map (·.1)

/-- Writes a result in its output format, converting it under OUT (R124). The cell that draws for a stochastic rounding is a
free value, since the spec does not say which cell produces a result. -/
def State.gridOut (s : State) (x : GridRun) (dst code : Nat) : Conv × State :=
  let src := x.pat.accFmt
  if src = dst then (⟨code, .zero, 0, 0⟩, s) else
  let (cell, s) : BitVec 8 × State := if x.pat.outRnd = 2 then s.freeVal 8 else (0, s)
  let g := (s.array x.la).gen x.cmd.srSeed x.la cell.toNat
  let v := convert dst (fmtFromInt src) (numOf src code) x.pat.outRnd x.pat.outSat g
  (v, (if v.g = g then s else s.setGen x.la cell.toNat v.g).countNum x.la v.counts)

/-- Writes an element of an operand for an operation. -/
def State.gridPut (s : State) (x : GridRun) (r : Route) (base plane : Nat) (i j : Int) (v : Nat) : State :=
  s.onArray x.la (fun a => a.putCode x.cmd.part x.op.cohort (r.pos base plane (fmtBits r.fmt) i j) (fmtBits r.fmt) v)

/-- An operation ends: its first NaN of a trapping cause traps (R132), and its token clears or holds the trap. -/
def State.gridEnd (s : State) (x : GridRun) (first : Option GridNan) : State :=
  match first with
  | none => s.tileDone x.la x.cmd x.op
  | some n =>
    let k := x.pat.kind
    let cls := if k = 1 ∨ k = 2 ∨ k = 8 then 3 else if k = 3 ∨ k = 4 then 4 else if k = 5 then 5 else 6
    let (op, s) := s.tileNan x.la x.cmd x.op ⟨cls, n.cause, x.pat.a.fmt, if cls = 3 then x.pat.b.fmt else 0xFF, n.fmt, 4 + x.slot.val, x.id, n.c0, n.c1, n.c2⟩
    s.tileDone x.la x.cmd op

/-- The NaN of the least key among those of trapping causes: a key is the order of the clocks, then COORD_0, then COORD_1. -/
def firstNan (sentry : Nat) (l : List ((Nat × Nat × Nat) × GridNan)) : Option GridNan :=
  ((l.filter (fun x => sentryTraps sentry x.2.cause)).foldl (fun (best : Option ((Nat × Nat × Nat) × GridNan)) x => match best with
    | none => some x
    | some y =>
      let (a, b, c) := x.1
      let (d, e, f) := y.1
      if a < d ∨ (a = d ∧ (b < e ∨ (b = e ∧ c < f))) then some x else some y) none).map (·.2)

/-! ### Contractions -/

/-- The terms of one output of kinds 1 and 2 with a row of A and a column of B. -/
def GridRun.rowTerms (x : GridRun) (ar : ArrayState) (sub row n len : Nat) (b : Nat → Nat) : List Term :=
  let p := x.pat
  termsOf p.a.fmt p.b.fmt p.block len (fun k => x.elem ar p.a x.a sub row k) b (fun q => x.scale ar p.a x.sa row q) (fun q => x.scale ar p.b x.sb n q)

/-- The block index of a stored block (R94). -/
def GridRun.blockIndex (x : GridRun) (ar : ArrayState) (sub i : Nat) : Int := intValue x.pat.c.fmt (x.elem ar x.pat.c x.c sub 0 i)

/-- The terms of one output of kind 8: stored block by stored block (R94, R122). -/
def GridRun.gatherTerms (x : GridRun) (ar : ArrayState) (sub m n : Nat) : List Term :=
  let p := x.pat
  let w := p.sparseK
  ((List.range (x.extent.toNat % 2 ^ 32)).map (fun i =>
    let at' : Int := x.blockIndex ar sub i * w
    (termsOf p.a.fmt p.b.fmt p.block w (fun k => x.elem ar p.a x.a sub m (i * w + k : Nat)) (fun k => x.elem ar p.b x.b sub (at' + k) n)
      (fun q => x.scale ar p.a x.sa m (i * w / p.block + q)) (fun q => x.scale ar p.b x.sb n (at' / p.block + q))).map (fun t => { t with k := i * w + t.k }))).flatten

/-- The checks of the ranges of kinds 1 and 8: each element's place, with its operand's offset (R100). -/
def GridRun.contractChecks (x : GridRun) (ar : ArrayState) : List (Nat × Bool) :=
  let p := x.pat
  let (mm, nn) := p.tile
  let e := x.extent.toNat % 2 ^ 32
  let len := if p.kind = 8 then e * p.sparseK else e
  ((List.range p.subgrids).map (fun s =>
    (pairsBelow mm len).map (fun q => (x.a, x.held ar p.a x.a s q.1 q.2))
    ++ (if p.kind = 8 then
        (List.range e).map (fun i => (x.c, x.held ar p.c x.c s 0 i))
        ++ ((List.range e).map (fun i => (pairsBelow p.sparseK nn).map (fun q => (x.b, x.held ar p.b x.b s (x.blockIndex ar s i * p.sparseK + q.1) q.2)))).flatten
      else (pairsBelow len nn).map (fun q => (x.b, x.held ar p.b x.b s q.1 q.2)))
    ++ (if p.block = 0 then [] else
        (pairsBelow mm (ceilDiv len p.block)).map (fun q => (x.sa, x.scaleHeld ar p.a x.sa q.1 q.2))
        ++ (if p.kind = 8 then
            ((List.range e).map (fun i => (pairsBelow nn (p.sparseK / p.block)).map (fun q =>
              (x.sb, x.scaleHeld ar p.b x.sb q.1 (x.blockIndex ar s i * p.sparseK / p.block + q.2))))).flatten
          else (pairsBelow nn (ceilDiv len p.block)).map (fun q => (x.sb, x.scaleHeld ar p.b x.sb q.1 q.2)))))).flatten

/-- Kinds 1 and 8: each output joins its accumulator (R94, R122). -/
def State.runStationary (s : State) (x : GridRun) : State :=
  let p := x.pat
  let ar := s.array x.la
  let (bm, bn) := blockShape p.a.fmt
  let wide := decide (p.a.fmt = 0)
  let outs := ((List.range p.subgrids).map (fun sub => (pairsBelow p.tile.1 p.tile.2).map (fun q => (sub, q)))).flatten
  let res : List ((Nat × Nat × Nat) × List ((Nat × Nat × Nat) × GridNan)) := outs.map (fun o =>
    let (sub, m, n) := o
    let cell := cellOf p.subgrids sub (m / bm) (n / bn)
    let i := m % bm * bn + n % bn
    let start := if x.init then 0 else ar.accGet wide cell x.acc i
    let terms : List Term := if p.kind = 8 then x.gatherTerms ar sub m n
      else x.rowTerms ar sub m n (x.extent.toNat % 2 ^ 32) (fun k => x.elem ar p.b x.b sub k n)
    let (v, ev) := accumulate p.accFmt start terms
    ((cell, i, v), ev.map (fun e => ((e.1, m, n), (⟨e.2, m, n, if p.kind = 8 then e.1 / p.sparseK else e.1, p.accFmt⟩ : GridNan)))))
  let s := s.onArray x.la (fun a =>
    let a := (res.map (·.1)).foldl (fun a r => a.accSet wide r.1 x.acc r.2.1 r.2.2) a
    { a with accFmt := Tbl.set 0 a.accFmt x.acc (p.a.fmt + 1) })
  s.gridEnd x (firstNan x.cmd.sentry (res.map (·.2)).flatten)

/-- Rows and columns of the B tile of kind 2 in a sub-grid (R91). -/
def Pattern.bTile (p : Pattern) : Nat × Nat := p.tile

/-- The checks of the ranges of kind 2. -/
def GridRun.weightChecks (x : GridRun) (ar : ArrayState) : List (Nat × Bool) :=
  let p := x.pat
  let (kk, nn) := p.bTile
  let e := x.extent.toNat % 2 ^ 32
  ((List.range p.subgrids).map (fun s =>
    (pairsBelow e kk).map (fun q => (x.a, x.held ar p.a x.a s q.1 q.2))
    ++ (if x.init then (pairsBelow kk nn).map (fun q => (x.b, x.held ar p.b x.b s q.1 q.2)) else [])
    ++ (if p.addC then (pairsBelow e nn).map (fun q => (x.c, x.held ar p.c x.c s q.1 q.2)) else [])
    ++ (if p.block = 0 then [] else
        (pairsBelow e (ceilDiv kk p.block)).map (fun q => (x.sa, x.scaleHeld ar p.a x.sa q.1 q.2))
        ++ (pairsBelow nn (ceilDiv kk p.block)).map (fun q => (x.sb, x.scaleHeld ar p.b x.sb q.1 q.2))))).flatten

/-- Marks an offset at which a B block lies, in the place of the format of a contraction. -/
def bBlockMark : Nat := 64

/-- Loads the B blocks of kind 2 (R91, R94). -/
def GridRun.loadB (x : GridRun) (ar : ArrayState) : ArrayState :=
  let p := x.pat
  let (bk, bn) := blockShape p.a.fmt
  let (h, w) := gridCells p.subgrids
  let cb := containerBits p.b.fmt
  let cells := ((List.range p.subgrids).map (fun sub => (pairsBelow h w).map (fun q => (sub, q)))).flatten
  let a := cells.foldl (fun a o =>
    let (sub, r, c) := o
    let v := (pairsBelow bk bn).foldr (fun q v => x.elem ar p.b x.b sub (r * bk + q.1 : Nat) (c * bn + q.2 : Nat) + 2 ^ cb * v) 0
    a.setBBlock (cellOf p.subgrids sub r c) x.acc v) ar
  { a with accFmt := Tbl.set 0 a.accFmt x.acc bBlockMark }

/-- An element of the B block of kind 2. -/
def GridRun.heldB (x : GridRun) (ar : ArrayState) (sub n k : Nat) : Nat :=
  let p := x.pat
  let (bk, bn) := blockShape p.a.fmt
  let cb := containerBits p.b.fmt
  ar.bBlock (cellOf p.subgrids sub (k / bk) (n / bn)) x.acc / 2 ^ (cb * (k % bk * bn + n % bn)) % 2 ^ fmtBits p.b.fmt

/-- Writes the results of an operation in their output format, in order: each is a plane, a place and an accumulator. -/
def State.putResults (s : State) (x : GridRun) (l : List (Nat × Int × Int × Nat)) : State :=
  l.foldl (fun s o =>
    let (plane, i, j, v) := o
    let (c, s) := s.gridOut x x.pat.d.fmt v
    s.gridPut x x.pat.d x.d plane i j c.raw) s

/-- Kind 2: each row of A gives a row of D (R94, R122). -/
def State.runWeight (s : State) (x : GridRun) : State :=
  let p := x.pat
  let s := if x.init then s.onArray x.la (fun a => x.loadB a) else s
  let ar := s.array x.la
  let (kk, nn) := p.bTile
  let e := x.extent.toNat % 2 ^ 32
  let outs := ((List.range p.subgrids).map (fun sub => (pairsBelow e nn).map (fun q => (sub, q)))).flatten
  let res : List ((Nat × Int × Int × Nat) × List ((Nat × Nat × Nat) × GridNan)) := outs.map (fun o =>
    let (sub, i, n) := o
    let terms : List Term := x.rowTerms ar sub i n kk (x.heldB ar sub n)
    let c : List Term := if p.addC then (let v := numOf p.c.fmt (x.elem ar p.c x.c sub i n); [⟨kk, v, decide (v = Num.nan)⟩]) else []
    let (v, ev) := accumulate p.accFmt 0 (terms ++ c)
    ((sub, (i : Int), (n : Int), v), ev.map (fun t => ((i, n, t.1), (⟨t.2, i, n, 0, p.d.fmt⟩ : GridNan)))))
  (s.putResults x (res.map (·.1))).gridEnd x (firstNan x.cmd.sentry (res.map (·.2)).flatten)

/-! ### Stencils (R94, R123) -/

/-- nx, ny and nz of a stencil's EXTENT. -/
def GridRun.stencilSize (x : GridRun) : Nat × Nat × Nat := (field x.extent 0 16, field x.extent 16 16, field x.extent 32 32)

/-- The bit at which the input element at a signed place lies. DEDUCED: x is the row index and y the index within a row. -/
def GridRun.inputPos (x : GridRun) (i j k : Int) : Int :=
  x.pat.a.pos x.a 0 (fmtBits x.pat.a.fmt) i j + 8 * k * x.pat.a.planeStride

/-- The checks of the ranges of kinds 3 and 4. -/
def GridRun.stencilChecks (x : GridRun) (ar : ArrayState) : List (Nat × Bool) :=
  let p := x.pat
  let (nx, ny, nz) := x.stencilSize
  ((triplesBelow nx ny nz).map (fun q =>
    let (i, j, k) := q
    p.points.map (fun t => (x.a, ar.bitsHeld x.op.cohort (x.inputPos (i + t.dx) (j + t.dy) (k + t.dz)) (fmtBits p.a.fmt)))
    ++ (if p.addC then [(x.c, x.held ar p.c x.c k i j)] else []))).flatten

/-- Kinds 3 and 4 (R94, R123). -/
def State.runStencil (s : State) (x : GridRun) : State :=
  let p := x.pat
  let ar := s.array x.la
  let (nx, ny, nz) := x.stencilSize
  let acc := p.accFmt
  let res : List ((Nat × Int × Int × Nat) × List ((Nat × Nat × Nat) × GridNan)) := (triplesBelow nx ny nz).map (fun q =>
    let (i, j, k) := q
    let terms : List Term := p.points.map (fun t =>
      productTerm 0 (numOf acc t.coef.toNat) (numOf p.a.fmt (ar.codeAt x.op.cohort (x.inputPos (i + t.dx) (j + t.dy) (k + t.dz)) (fmtBits p.a.fmt))))
    let c : List Term := if p.addC then (let v := numOf p.c.fmt (x.elem ar p.c x.c k i j); [⟨0, v, decide (v = Num.nan)⟩]) else []
    let (v, ev) := accumulate acc 0 (terms ++ c)
    ((k, (i : Int), (j : Int), v), ev.map (fun t => ((i, j, k), (⟨t.2, i, j, k, p.d.fmt⟩ : GridNan)))))
  (s.putResults x (res.map (·.1))).gridEnd x (firstNan x.cmd.sentry (res.map (·.2)).flatten)

/-! ### Transforms (R94, R123) -/

/-- Points of a transform. -/
def Pattern.points4 (p : Pattern) : Nat := 4 ^ p.log4n

/-- The checks of the ranges of kind 5: real and imaginary parts interleaved, batch members as planes. -/
def GridRun.fftChecks (x : GridRun) (ar : ArrayState) : List (Nat × Bool) :=
  (pairsBelow (x.extent.toNat % 2 ^ 32) (2 * x.pat.points4)).map (fun q => (x.a, x.held ar x.pat.a x.a q.1 0 q.2))

/-- The output overlaps the input otherwise than by being it (R94). -/
def GridRun.fftOverlaps (x : GridRun) : Bool :=
  let p := x.pat
  if x.a = x.d ∧ p.a = p.d then false else
  let w := fmtBits p.a.fmt
  let all := pairsBelow (x.extent.toNat % 2 ^ 32) (2 * p.points4)
  all.any (fun q => all.any (fun r => decide (p.a.pos x.a q.1 w 0 q.2 = p.d.pos x.d r.1 w 0 r.2)))

/-- A value rounded to nearest even in a format. -/
def roundNum (fmt : Nat) (v : Num) : Num := (floatFmt fmt).decode ((floatFmt fmt).result 0 v)

/-- The twiddle factor exp(-2πi j / n), or its conjugate for the inverse, correctly rounded in a format; n is a multiple of 4
(R123). -/
def twiddle (fmt n : Nat) (inverse : Bool) (j : Nat) : Num × Num :=
  let quarter := n / 4
  let q := j / quarter % 4
  let r := j % quarter
  let one : Num := .fin false 1 0
  let zero : Num := .fin false 0 0
  let t := 2 * piFix * r / n
  let r2 := t * t / 2 ^ 256
  let c := if r = 0 then one else .ofInt (trigSum r2 60 0 (2 ^ 256)) (-256) false
  let v := if r = 0 then zero else .ofInt (trigSum r2 60 1 t) (-256) false
  let (x, y) : Num × Num := match q with
    | 0 => (c, v.flip)
    | 1 => (v.flip, c.flip)
    | 2 => (c.flip, v)
    | _ => (v, c)
  (roundNum fmt x, roundNum fmt (if inverse then y.flip else y))

/-- a × b + c × d in a format: both products rounded, or one of them fused into the sum. -/
def twoProducts (fmt : Nat) (a b c d : Num) : Num :=
  let r := roundNum fmt
  match Config.butterfly 0 % 3 with
  | 0 => r ((r (a.mul b)).add (r (c.mul d)))
  | 1 => r ((a.mul b).add (r (c.mul d)))
  | _ => r ((r (a.mul b)).add (c.mul d))

/-- A complex product with a twiddle factor. -/
def twiddled (fmt : Nat) (w x : Num × Num) : Num × Num :=
  (twoProducts fmt w.1 x.1 w.2.flip x.2, twoProducts fmt w.1 x.2 w.2 x.1)

/-- Four terms added in a format, in one of the orders. -/
def fourSum (fmt : Nat) (a b c d : Num) : Num :=
  let p (x y : Num) : Num := roundNum fmt (x.add y)
  match Config.butterfly 1 % 4 with
  | 0 => p (p a c) (p b d)
  | 1 => p (p a b) (p c d)
  | 2 => p (p a d) (p b c)
  | _ => p (p (p a b) c) d

/-- A complex value times (-i)^k, or i^k for the inverse. -/
def turned (inverse : Bool) (k : Nat) (x : Num × Num) : Num × Num :=
  match (if inverse then 3 * k else k) % 4 with
  | 0 => x
  | 1 => (x.2, x.1.flip)
  | 2 => (x.1.flip, x.2.flip)
  | _ => (x.2.flip, x.1)

/-- Point i after stage st of a transform, from the points before it: a radix-4 butterfly of four points 4^(st-1) apart. -/
def fftPoint (fmt st : Nat) (inverse : Bool) (old : Nat → Num × Num) (i : Nat) : Num × Num :=
  let m := 4 ^ (st - 1)
  let base := i / (4 * m) * (4 * m) + i % m
  let q := i / m % 4
  let k := i % m
  let t (r : Nat) : Num × Num := turned inverse (q * r) (if r = 0 then old base else twiddled fmt (twiddle fmt (4 * m) inverse (r * k)) (old (base + r * m)))
  (fourSum fmt (t 0).1 (t 1).1 (t 2).1 (t 3).1, fourSum fmt (t 0).2 (t 1).2 (t 2).2 (t 3).2)

/-- One stage over all points. -/
def fftStage (fmt st : Nat) (inverse : Bool) (l : List (Num × Num)) : List (Num × Num) :=
  (List.range l.length).map (fftPoint fmt st inverse (fun i => l.getD i (.nan, .nan)))

/-- An index with its base-4 digits in reverse. -/
def digitReverse : Nat → Nat → Nat
  | 0, _ => 0
  | n + 1, i => i % 4 * 4 ^ n + digitReverse n (i / 4)

/-- The values of one pass written to local store: in the accumulation format they stay; else each is converted under OUT
(R123, R124). The codes come real and imaginary parts in turn. -/
def State.passOut (s : State) (x : GridRun) (l : List Num) : List Nat × State :=
  l.foldl (fun (y : List Nat × State) v =>
    let (c, s) := y.2.gridOut x x.pat.d.fmt ((floatFmt x.pat.accFmt).result 0 v)
    (y.1 ++ [c.raw], s)) ([], s)

/-- Pairs of a list. -/
def pairUp {α : Type} : List α → List (α × α)
  | a :: b :: t => (a, b) :: pairUp t
  | _ => []

/-- The passes of one batch member from pass q on, up to four stages each (DESIGN CHOICE: all but the last perform four), and
what its points became NaN in. -/
def State.fftPasses (s : State) (x : GridRun) (batch : Nat) : Nat → Nat → List (Num × Num) → List Nat × List ((Nat × Nat × Nat) × GridNan) × State
  | 0, _, _ => ([], [], s)
  | fuel + 1, q, pts =>
    let p := x.pat
    let inverse := decide (p.fftFlags % 2 = 1)
    let last := min (4 * q + 4) p.log4n
    let out := (List.range (last - 4 * q)).foldl (fun l i => fftStage p.accFmt (4 * q + i + 1) inverse l) pts
    let out := if last = p.log4n ∧ 2 ≤ p.fftFlags then
        out.map (fun v => let k : Num := .fin false 1 (-(2 * p.log4n : Nat)); (roundNum p.accFmt (v.1.mul k), roundNum p.accFmt (v.2.mul k))) else out
    let (codes, s) := s.passOut x (out.map (fun v => [v.1, v.2])).flatten
    let vals := pairUp (codes.map (numOf p.d.fmt))
    let nanIn (i : Nat) : Bool := pts.zipIdx.any (fun y =>
      decide (y.2 / 4 ^ last = i / 4 ^ last ∧ y.2 % 4 ^ (4 * q) = i % 4 ^ (4 * q)) && (decide (y.1.1 = .nan) || decide (y.1.2 = .nan)))
    let ev := vals.zipIdx.filterMap (fun y => if y.1.1 = .nan ∨ y.1.2 = .nan then
      some ((q, batch, y.2), (⟨if nanIn y.2 then 4 else 1, batch, y.2, q, p.d.fmt⟩ : GridNan)) else none)
    if last = p.log4n then (codes, ev, s)
    else
      let (r, ev', s) := State.fftPasses s x batch fuel (q + 1) vals
      (r, ev ++ ev', s)

/-- Kind 5 (R79, R84, R94, R123): the transform of each batch member, in order. Where D overlaps A otherwise than by being it,
D is unspecified: free values. -/
def State.runFft (s : State) (x : GridRun) : State :=
  let p := x.pat
  let ar := s.array x.la
  let n := p.points4
  let batches := x.extent.toNat % 2 ^ 32
  let overlap := x.fftOverlaps
  let base := s.freeCount
  let s := if overlap then s.skipFree (2 * n * batches) else s
  let (res, s) := (List.range batches).foldl (fun (y : List ((Nat × Int × Int × Nat) × List ((Nat × Nat × Nat) × GridNan)) × State) b =>
    let pts := (List.range n).map (fun i =>
      let k := digitReverse p.log4n i
      (numOf p.a.fmt (x.elem ar p.a x.a b 0 (2 * k : Nat)), numOf p.a.fmt (x.elem ar p.a x.a b 0 (2 * k + 1 : Nat))))
    let (codes, ev, s) := y.2.fftPasses x b 3 0 pts
    let codes := if overlap then codes.zipIdx.map (fun c => (Config.free (base + 2 * n * b + c.2)).toNat % 2 ^ fmtBits p.d.fmt) else codes
    (y.1 ++ codes.zipIdx.map (fun c => ((b, (0 : Int), (c.2 : Int), c.1), if c.2 = 0 ∧ overlap = false then ev else [])), s)) ([], s)
  let s := res.foldl (fun s o => s.gridPut x p.d x.d o.1.1 o.1.2.1 o.1.2.2.1 o.1.2.2.2) s
  s.gridEnd x (firstNan x.cmd.sentry (res.map (·.2)).flatten)

/-! ### Reductions and scans (R94, R123) -/

/-- An operation on two accumulators of a format: add, min, max, and, or, xor. -/
def reduceOp (op fmt a b : Nat) : Nat :=
  if fmtIsInt fmt then
    let x := intValue fmt a
    let y := intValue fmt b
    match op with
    | 0 => intRaw fmt (x + y)
    | 1 => intRaw fmt (min x y)
    | 2 => intRaw fmt (max x y)
    | 3 => a &&& b
    | 4 => a ||| b
    | _ => a ^^^ b
  else
    let x := numOf fmt a
    let y := numOf fmt b
    (floatFmt fmt).result 0 (match op with
      | 0 => x.add y
      | 1 => x.minMax false y
      | _ => x.minMax true y)

/-- A tree over values, whose shape the array fixes for a key (R123): the split is an open constant. -/
def reduceTree (op fmt key : Nat) : Nat → Nat → List Nat → Nat
  | 0, _, l => l.headD 0
  | fuel + 1, lo, l =>
    match l with
    | [] => 0
    | [a] => if fmtIsInt fmt then a else (floatFmt fmt).result 0 (numOf fmt a)
    | _ =>
      let n := l.length
      let k := 1 + Config.treeSplit (Nat.pair key (Nat.pair lo n)) % (n - 1)
      reduceOp op fmt (reduceTree op fmt key fuel lo (l.take k)) (reduceTree op fmt key fuel (lo + k) (l.drop k))

/-- The segments of n elements: first and length. With explicit starts, element 0 begins one too. -/
def segmentsOf (n len : Nat) (starts : Nat → Bool) : List (Nat × Nat) :=
  if len ≠ 0 then (List.range (ceilDiv n len)).map (fun i => (i * len, min len (n - i * len)))
  else
    let heads := (List.range n).filter (fun e => decide (e = 0) || starts e)
    heads.zipIdx.map (fun x => (x.1, (heads.getD (x.2 + 1) n) - x.1))

/-- The segments of an operation. -/
def GridRun.segments (x : GridRun) (ar : ArrayState) : List (Nat × Nat) :=
  segmentsOf (x.extent.toNat % 2 ^ 32) x.pat.segment (fun e => decide (x.elem ar x.pat.c x.c 0 0 e ≠ 0))

/-- The checks of the ranges of kinds 6 and 7. -/
def GridRun.reduceChecks (x : GridRun) (ar : ArrayState) : List (Nat × Bool) :=
  let p := x.pat
  let n := x.extent.toNat % 2 ^ 32
  (List.range n).map (fun e => (x.a, x.held ar p.a x.a 0 0 e))
    ++ (if p.segment = 0 then (List.range n).map (fun e => (x.c, x.held ar p.c x.c 0 0 e)) else [])

/-- The cause of a NaN result of combining some values. -/
def reduceCause (fmt v : Nat) (l : List Nat) : Nat :=
  if fmtIsInt fmt ∨ numOf fmt v ≠ .nan then 0 else if l.any (fun a => decide (numOf fmt a = .nan)) then 4 else 1

/-- Kinds 6 and 7 (R94, R123). The spec states no first result of an exclusive scan, nor at which element of a segment a NaN
counts as arising: both are free values. -/
def State.runReduce (s : State) (x : GridRun) : State :=
  let p := x.pat
  let ar := s.array x.la
  let fmt := p.accFmt
  let segs := x.segments ar
  let key := segs.foldl (fun k g => Nat.pair k g.2) (x.extent.toNat % 2 ^ 32)
  let val (e : Nat) : Nat :=
    let c := x.elem ar p.a x.a 0 0 e
    if fmt = p.a.fmt then c else (toFloat fmt (numOf p.a.fmt c) 0 false 0).raw
  let combine (lo n : Nat) : Nat × Nat :=
    let l := (List.range n).map (fun i => val (lo + i))
    let v := reduceTree p.operation fmt key n lo l
    (v, reduceCause fmt v l)
  let base := s.freeCount
  let s : State := { s with freeCount := s.freeCount + segs.length }
  let res : List ((Nat × Int × Int × Nat) × List ((Nat × Nat × Nat) × GridNan)) :=
    if p.kind = 6 then segs.zipIdx.map (fun g =>
      let (v, cause) := combine g.1.1 g.1.2
      let e := g.1.1 + (Config.free (base + g.2)).toNat % g.1.2
      ((0, 0, (g.2 : Int), v), if cause = 0 then [] else [((e, g.2, 0), ⟨cause, e, g.2, 0, p.d.fmt⟩)]))
    else (segs.zipIdx.map (fun g => (List.range g.1.2).map (fun i =>
      let e := g.1.1 + i
      let (v, cause) := if p.exclusive then (if i = 0 then ((Config.free (base + g.2)).toNat % 2 ^ fmtBits fmt, 0) else combine g.1.1 i) else combine g.1.1 (i + 1)
      ((0, 0, (e : Int), v), if cause = 0 then [] else [((e, g.2, 0), ⟨cause, e, g.2, 0, p.d.fmt⟩)])))).flatten
  (s.putResults x (res.map (·.1))).gridEnd x (firstNan x.cmd.sentry (res.map (·.2)).flatten)

/-! ### The engine (R89, R98, R100) -/

/-- The checks of the range that an operation writes. -/
def GridRun.outChecks (x : GridRun) (ar : ArrayState) : List (Nat × Bool) :=
  let p := x.pat
  let e := x.extent.toNat % 2 ^ 32
  let cells : List (Nat × Nat × Nat) := match p.kind with
    | 1 => []
    | 8 => []
    | 2 => ((List.range p.subgrids).map (fun s => (pairsBelow e p.bTile.2).map (fun q => (s, q)))).flatten
    | 3 => (triplesBelow x.stencilSize.1 x.stencilSize.2.1 x.stencilSize.2.2).map (fun q => (q.2.2, q.1, q.2.1))
    | 4 => (triplesBelow x.stencilSize.1 x.stencilSize.2.1 x.stencilSize.2.2).map (fun q => (q.2.2, q.1, q.2.1))
    | 5 => (pairsBelow e (2 * p.points4)).map (fun q => (q.1, 0, q.2))
    | k => (List.range (if k = 7 then e else (x.segments ar).length)).map (fun i => (0, 0, i))
  cells.map (fun q => (x.d, x.held ar p.d x.d q.1 q.2.1 q.2.2))

/-- The checks of the local-store ranges that an operation reads. -/
def GridRun.checks (x : GridRun) (ar : ArrayState) : List (Nat × Bool) :=
  match x.pat.kind with
  | 1 => x.contractChecks ar
  | 8 => x.contractChecks ar
  | 2 => x.weightChecks ar
  | 3 => x.stencilChecks ar
  | 4 => x.stencilChecks ar
  | 5 => x.fftChecks ar
  | _ => x.reduceChecks ar

/-- The effect of an operation whose checks have passed. -/
def State.runGrid (s : State) (x : GridRun) : State :=
  match x.pat.kind with
  | 1 => s.runStationary x
  | 8 => s.runStationary x
  | 2 => s.runWeight x
  | 3 => s.runStencil x
  | 4 => s.runStencil x
  | 5 => s.runFft x
  | _ => s.runReduce x

/-- A grid operation: its slot, its kind and accumulator range (R89), its local-store ranges (R100), then its effect. -/
def State.startGrid (s : State) (la : Nat) (c : Cmd) (op : TileOp) (code : Nat) (a b extent : Word) (slot : Fin 4) (acc : Nat) (init : Bool) (cc d sa sb : Word) : State :=
  match Tbl.get none (s.array la).slots slot.val with
  | none => s.endCmd c 0x15 (BitVec.ofNat 32 la)
  | some v =>
    if v.part ≠ c.part.val then s.endCmd c 0x15 (BitVec.ofNat 32 la)
    else if !gridServes code v.pat.kind then s.endCmd c 0x16 (BitVec.ofNat 32 la)
    else if (v.pat.kind = 1 ∨ v.pat.kind = 8) ∧ accRange c acc (blockUnits v.pat.a.fmt) = false then s.endCmd c 0x16 (BitVec.ofNat 32 la)
    else if v.pat.kind = 2 ∧ accRange c acc 1 = false then s.endCmd c 0x16 (BitVec.ofNat 32 la)
    else
      let x : GridRun := ⟨la, c, op, v.pat, slot, v.id, code, a.toNat, b.toNat, cc.toNat, d.toNat, sa.toNat, sb.toNat, extent, acc, init⟩
      match firstBad (x.checks (s.array la)) with
      | some off => s.tileFault la c op .protection 1 off
      | none => match firstBad (x.outChecks (s.array la)) with
        | some off => s.tileFault la c op .protection 2 off
        | none => s.runGrid x

/-- What the accumulators at an offset hold of a tile, by the contraction that last wrote there: row m, column n (R91, R95). -/
def ArrayState.tileAt (a : ArrayState) (acc fmt m n : Nat) : Nat :=
  let (bm, bn) := blockShape fmt
  a.accGet (decide (fmt = 0)) (16 * (m / bm) + n / bn) acc (m % bm * bn + n % bn)

/-- The grid engine's part of a TSTORE from the accumulators (R95, R98): one grid tile, of which SHAPE's rows and elements are
taken. Where nothing has been written the section reads zero (R90). What lies beyond the tile, or where a B block lies, the
spec does not say: a free value. -/
def State.readAcc (s : State) (la : Nat) (c : Cmd) (op : TileOp) (n rows fl acc : Nat) : State :=
  let a := s.array la
  let f := Tbl.get 0 a.accFmt acc
  let held := decide (f ≠ 0 ∧ f ≠ bBlockMark)
  let units := if held then blockUnits (f - 1) else 1
  if accRange c acc units = false then s.endCmd c 0x16 (BitVec.ofNat 32 la) else
  let base := s.freeCount
  let s : State := { s with freeCount := s.freeCount + rows * n }
  let (bm, bn) := blockShape (f - 1)
  let words := (pairsBelow rows n).map (fun q =>
    if f = 0 then 0
    else if held ∧ q.1 < 16 * bm ∧ q.2 < 16 * bn then BitVec.ofNat 64 (a.tileAt acc (f - 1) q.1 q.2)
    else bits (Config.free (base + q.1 * n + q.2)) 0 64)
  s.putTile la { op with accRead := some (if f = 0 then 1 else if held then accFmtOf (f - 1) else fl, n, words) }

/-- The grid engine takes its next operation, in acceptance order (R98). -/
def State.stepGrid (s : State) (la : Nat) (c : Cmd) : State :=
  match (s.array la).inGrid with
  | none => s
  | some op =>
    match op.kind with
    | .grid code a b extent slot acc init cc d sa sb => s.startGrid la c op code a b extent slot acc init cc d sa sb
    | .store _ _ rowElems rows _ _ fl _ _ _ _ _ _ acc _ _ => s.readAcc la c op rowElems.toNat rows.toNat fl acc
    | _ => s

/-- TILE_OPERATION_COMPLETE (R97-R100): an engine of an array makes the next step of an operation, its physical events first;
the loader, of the n-th that it has in flight. -/
def execTileOperationComplete (la : Fin 384) (e : TileTurn) (cell : CellEvent) (sram : SramEvent) (s : State) : Host.Outcome State Fault Refusal :=
  match s.occupantCmd la.val with
  | none => .next s
  | some c =>
    if c.stage ≠ .running then .next s else
    let (on, s) := if e.engine = .grid then s.cellEvent la.val c cell else (true, s)
    if !on then .next s else
    let (on, s) := s.sramEvent la.val c sram
    if !on then .next s else
    let s := (s.charge c.part (some c.ref) .tile 1).charge c.part (some c.ref) .sram 1
    .next (match e.engine with
      | .grid => s.stepGrid la.val c
      | .loader => s.stepLoader la.val c e.n.val)

end Sys2Proof.Machine
end

