-- ==== Sys2Proof/Machine/Arrays.lean ====
section
/-! DEFINITION. Residency (02 R38-R42, R51; 03 R88, R90; 04 R121, R132; 09 R257): how a cohort comes onto an array, and the
fetch of the patterns that its launch lists. -/

namespace Sys2Proof.Machine

/-- The patterns that a launch lists (R88, R254). -/
def Cmd.patterns (c : Cmd) : List PatRef :=
  ((extBlocks c.kernelSlots 3).map (fun b => (List.range (blk b 1 0 8)).map (fun i =>
    let a := blk b (12 + 12 * i) 0 64
    (⟨⟨a % 4, Nat.mod_lt _ (by decide)⟩, BitVec.ofNat 32 (blk b (8 + 12 * i) 0 32), BitVec.ofNat 64 (a / 64 * 64)⟩ : PatRef)))).flatten

/-- A slot holds a listed pattern for a partition (R88). -/
def ArrayState.hasPattern (a : ArrayState) (p : Fin 16) (r : PatRef) : Bool :=
  (Tbl.get none a.slots r.slot.val).any (fun x => decide (x.id = r.id ∧ x.part = p.val))

/-- The argument bytes of a command (R257, R312): of a STEP, WORK_LIST and then its template's. -/
def State.argRead (s : State) (c : Cmd) : Asked × State :=
  let first : List Byte := if c.kind = 2 then leBytes 8 (blk c.head 24 0 64) else []
  let n := blk c.kernel 32 0 16
  if n = 0 then (.ok first, s) else
  match s.engGet c 0 (blk c.kernel 24 0 64) n with
  | (.ok b, s) => (.ok ((first ++ b).take 4096), s)
  | r => r

/-- Bytes that the spec does not state: free values. -/
def State.freeBytes (s : State) (n : Nat) : List Byte × State :=
  ((List.range n).map (fun i => bits (Config.free (s.freeCount + i / 64)) (8 * (i % 64)) 8), { s with freeCount := s.freeCount + ceilDiv n 64 })

/-- The first residency of a command on an array (R39, R88, R90, R121, R128, R132): the L1 is invalidated, the accumulators
read zero, streams are seeded and counters begin; the patterns not in their slots are to be fetched. -/
def State.firstResidency (s : State) (la : Nat) (c : Cmd) (o : Occupant) (args : List Byte) : State :=
  let a := s.array la
  let s := s.setArray la { a with
    occ := some { o with resident := true, fetching := c.patterns.filter (fun r => !a.hasPattern c.part r) }
    l1 := []
    acc := []
    accFmt := []
    gens := []
    counts := .zero
    sentryArmed := decide (c.sentry ≠ 0)
    streams := []
    args := args }
  match s.cmd c.ref with
  | some c => s.setCmd { c with started := true }
  | none => s

/-- The quadrant with the most free group slots, the lowest among equals (R38). -/
def freestQuadrant (gs : List Group) : Nat :=
  let used (q : Nat) : Nat := (gs.filter (fun g => decide (g.quadrant = q))).length
  ([1, 2, 3] : List Nat).foldl (fun best q => if used q < used best then q else best) 0

/-- The lowest slot of a quadrant that no group has. DESIGN CHOICE: R43 does not say in which slot a group comes. -/
def freeGroupSlot (gs : List Group) (q : Nat) : Nat :=
  ((List.range 8).find? (fun k => gs.all (fun g => !decide (g.quadrant = q ∧ g.slot = k)))).getD 0

/-- Deals groups to quadrants in group order (R38, R41). -/
def dealGroups (cohort : Nat) (entry : Word) (gs : List Group) (n : Nat) : List Group :=
  (List.range n).foldl (fun l i => l ++ [{
    cohort := cohort
    num := toPart i
    quadrant := freestQuadrant l
    slot := freeGroupSlot l (freestQuadrant l)
    st := .ready
    paths := [⟨entry, BitVec.allOnes 64, none, 0⟩]
    issues := 0
    sinceSwitch := 0
    regs := []
    preds := []
    tokens := []
    loads := [] }]) gs

/-- Local store as a cohort of a partition finds it (R42): bytes that another partition wrote last read zero, the others are
unspecified. -/
def ArrayState.passLs (a : ArrayState) (p : Fin 16) (base n : Nat) : ArrayState :=
  { a with ls := a.ls.filterMap (fun x =>
      if x.1 < base ∨ base + n ≤ x.1 then some x else match x.2 with
        | some (_, q) => if q = p then none else some (x.1, some (0, q))
        | none => none) }

/-- A cohort becomes resident and its groups start (R38, R40-R42). -/
def State.makeCohort (s : State) (la : Nat) (c : Cmd) (o : Occupant) (idx : Nat) : State :=
  let a := s.array la
  let used := a.cohorts.map (·.lsBase)
  let k := ((List.range 32).find? (fun i => !used.contains (i * c.lsCohort))).getD 0
  let fresh := s.freeCount
  let s := s.skipFree (ceilDiv c.lsCohort 64)
  let a := a.passLs c.part (k * c.lsCohort) c.lsCohort
  s.setArray la { a with
    occ := some { o with next := idx + 1 }
    cohorts := a.cohorts ++ [⟨idx, k * c.lsCohort, c.lsCohort, fresh, [], 0⟩]
    groups := dealGroups idx c.entryPc a.groups c.groups }

/-- COHORT_RESIDENT (R38-R42): the command's first residency on the array, then its next cohort once every listed pattern is
in its slot and the groups fit. What the parameter page holds when the argument bytes cannot be read is not stated: free
values. -/
def execCohortResident (la : Fin 384) (s : State) : Host.Outcome State Fault Refusal :=
  match (s.array la.val).occ, s.occupantCmd la.val with
  | some o, some c =>
    if c.stage ≠ .running ∨ o.draining ∨ c.kind = 5 then .next s
    else if !o.resident then
      (match s.argRead c with
        | (.ok b, s) => .next (s.firstResidency la.val c o b)
        | (.wait, s) => .next s
        | (.poison n _, s) => .next (s.consumePoison c n (unitId 1 ((s.slotOf la.val).getD 0)))
        | (.fault _ _, s) =>
          let (b, s) := s.freeBytes (min 4096 (blk c.kernel 32 0 16 + (if c.kind = 2 then 8 else 0)))
          .next (s.firstResidency la.val c o b))
    else if o.fetching ≠ [] then .next s
    else match c.nextCohort la.val o.next with
      | none => .next s
      | some idx => if (s.array la.val).cohorts.length < c.maxCohorts then .next (s.makeCohort la.val c o idx) else .next s
  | _, _ => .next s

/-- PATTERN_FETCH_COMPLETE (R86, R88): a listed descriptor is validated and written into its slot; one that is refused, or
cannot be read, ends the command. DESIGN CHOICE: a descriptor whose own PATTERN_ID is not the listed one is taken all the
same, and the slot holds the listed one. -/
def execPatternFetchComplete (la : Fin 384) (slot : Fin 4) (s : State) : Host.Outcome State Fault Refusal :=
  match (s.array la.val).occ, s.occupantCmd la.val with
  | some o, some c =>
    (match o.fetching.find? (fun r => decide (r.slot = slot)) with
      | none => .next s
      | some r =>
        if c.stage ≠ .running ∨ o.draining then .next s else
        match s.fetchPattern c r.addr.toNat with
        | (.ok p _, s) =>
          .next ((s.putSlot la.val slot ⟨p, r.id, c.part.val⟩).onArray la.val (fun a => { a with occ := some { o with fetching := o.fetching.filter (fun x => decide (x ≠ r)) } }))
        | (.refused, s) => .next (s.endCmd c 0x14 (BitVec.ofNat 32 la.val))
        | (.fault _ _, s) => .next (s.endCmd c 0x14 (BitVec.ofNat 32 la.val))
        | (.poison n _, s) => .next (s.consumePoison c n (unitId 1 ((s.slotOf la.val).getD 0)))
        | (.wait, s) => .next s)
  | _, _ => .next s

end Sys2Proof.Machine
end

