-- ==== Sys2Proof/Machine/Scheduler.lean ====
section
/-! DEFINITION. The scheduler (09 R262; 10 R289-R299, R304, R305): which commands can start, placement tables, pre-emption and
reservation, slices, loans, PATTERN_LOAD, and the slow-down report. -/

namespace Sys2Proof.Machine

/-- Completes a command, and ends the others of a channel whose record could not be written (R252). -/
def State.finishCmd (s : State) (c : Cmd) (status : Nat) (detail : BitVec 32) : State := (s.complete c status detail).settleErrors c.ch

/-! ### The order of dispatch (R262) -/

/-- A command that has not started since it was fetched. -/
def Cmd.isNew (c : Cmd) : Bool := decide (c.stage = .fetched) && !c.killed

/-- Slots of the channel's fetched commands that have not started (R262). -/
def State.heldSlots (s : State) (ch : Fin 3072) : Nat := ((s.chanCmds ch).map (fun c => if c.isNew then c.slots.length else 0)).foldl (· + ·) 0

/-- The commands of the channel that were fetched before a command. -/
def State.earlier (s : State) (c : Cmd) : List Cmd := (s.chanCmds c.ch).takeWhile (fun d => decide (d.idx ≠ c.idx))

/-- An earlier command holds a command back: one that waits on a semaphore, or a QUEUE_FENCE (R262). A killed command
returned to the head (R273). -/
def State.heldBack (s : State) (c : Cmd) : Bool :=
  !c.killed && decide (c.kind ≠ 6) && (s.earlier c).any (fun d => d.isNew && decide (d.kind ≠ 6) && (!d.waitsHeld || decide (d.kind = 10)))

/-- A command that can start: its waits hold, nothing holds it back, and no page that it reads is under refill (R404). -/
def State.ready (s : State) (c : Cmd) : Bool := decide (c.stage = .fetched) && c.waitsHeld && c.refillHeld.isNone && !s.heldBack c

/-- A runnable command: one that can start, runs, or is to re-run. -/
def State.runnable (s : State) (c : Cmd) : Bool := s.ready c || decide (c.stage = .running ∨ c.stage = .draining none)

/-- The effective priority of a queue (R294). -/
def State.effPriority (s : State) (p : Fin 16) (q : Fin 64) : Nat :=
  let own := (s.chan.cmds.filter (fun c => decide (c.part = p ∧ c.queue = q) && s.runnable c)).foldl (fun m c => max m (entPriority (s.entry c.ch))) 0
  match ((s.partition p).queue q).donation with
  | some (lent, _) => max own lent
  | none => own

/-! ### Placement (R289-R291) -/

/-- The bytes of a table's header are as R289 says; the mode and the number of entries. -/
def placeHeader (b : List Byte) : Option (Nat × Nat) :=
  let f (off n : Nat) : Nat := leNat ((b.drop off).take n)
  if f 0 4 = 0x45434C50 ∧ f 4 2 = 1 ∧ f 6 1 ≤ 1 ∧ f 7 1 = 0 ∧ 1 ≤ f 8 4 ∧ f 8 4 ≤ 16384 ∧ f 12 4 = 0 then some (f 6 1, f 8 4) else none

/-- The entries of a table: first cohort and array, none where an entry has a reserved bit set. -/
def placeEntries (mode n : Nat) (b : List Byte) : Option (List (Nat × Nat)) :=
  let ws := (List.range n).map (fun i => leNat ((b.drop (8 * i)).take 8))
  if mode = 0 then (if ws.all (fun w => decide (w < 2 ^ 41)) then some (ws.map (fun w => (w % 2 ^ 32, w / 2 ^ 32))) else none)
  else if ws.all (fun w => decide (w < 512)) then some (ws.map (fun w => (0, w))) else none

/-- FIRST_COHORT rises strictly. -/
def rising : List (Nat × Nat) → Bool
  | a :: b :: t => decide (a.1 < b.1) && rising (b :: t)
  | _ => true

/-- A table as read. -/
def placeTable (head body : List Byte) : Option Placement :=
  match placeHeader head with
  | none => none
  | some (mode, n) => match placeEntries mode n body with
    | none => none
    | some es => if mode = 0 ∧ ((es.headD (1, 0)).1 ≠ 0 ∨ !rising es) then none else some ⟨mode, es⟩

/-- What the scheduler finds when it places a command: its arrays; it waits; it ends with a status; poison. -/
inductive Place
  | ok (las : List Nat)
  | wait
  | ends (status : Nat)
  | poison (granule : Nat)
  deriving DecidableEq, Repr

/-- Reads a placement table (R289, R290, R400). -/
def State.readPlacement (s : State) (c : Cmd) : Except Place Placement × State :=
  let va := blk c.kernel 48 0 64
  match s.engGet c 0 va 16 with
  | (.ok h, s) =>
    (match placeHeader h with
      | none => (.error (.ends 0x20), s)
      | some (_, n) => match s.engGet c 0 (va + 16) (8 * n) with
        | (.ok b, s) => ((match placeTable h b with
          | some p => .ok p
          | none => .error (.ends 0x20)), s)
        | (.fault _ _, s) => (.error (.ends 0x20), s)
        | (.poison g _, s) => (.error (.poison g), s)
        | (.wait, s) => (.error .wait, s))
  | (.fault _ _, s) => (.error (.ends 0x20), s)
  | (.poison g _, s) => (.error (.poison g), s)
  | (.wait, s) => (.error .wait, s)

/-- Drops the repetitions of a list of arrays. -/
def distinct : List Nat → List Nat
  | [] => []
  | x :: t => x :: (distinct t).filter (fun y => decide (y ≠ x))

/-- The arrays that a command names, as far as the scheduler knows them. -/
def Cmd.names (c : Cmd) : List Nat :=
  if c.kind = 5 then laRange (blk c.head 24 0 16) (blk c.head 26 0 16)
  else match c.placement with
    | some p => distinct (p.entries.map (·.2))
    | none => []

/-- An offer of another partition's floor to p covers an array. -/
def State.offeredTo (s : State) (p : Fin 16) (la : Nat) : Bool := (s.offerOf la).any (fun x => decide (x.2.borrower = p))

/-- The checks of R290 on a command whose table is read. -/
def State.placeInvalid (s : State) (c : Cmd) (las : List Nat) : Bool :=
  let own (la : Nat) : Bool := (s.partition c.part).floor.contains la
  decide (2 ^ 32 ≤ c.cohortCount) || las.any (fun la => decide (383 < la) || !(own la || (!c.isSealed && s.offeredTo c.part la)))

/-- Places a command (R289, R290, R261). -/
def State.placeFor (s : State) (c : Cmd) : Place × State :=
  if c.kind = 5 then (if c.names.any (fun la => !(s.partition c.part).floor.contains la) then .ends 9 else .ok c.names, s)
  else
    let (r, s) : Except Place Placement × State := match c.placement with
      | some p => (.ok p, s)
      | none => s.readPlacement c
    match r with
    | .error x => (x, s)
    | .ok p =>
      let c := { c with placement := some p }
      if s.placeInvalid c c.names then (.ends 0x20, s) else (.ok c.names, s.setCmd c)

/-- A logical array has no slot: none is bound, or its slot is fenced and its swap has not ended (R291). -/
def State.unbound (s : State) (la : Nat) : Bool :=
  match s.slotOf la with
  | none => true
  | some k => decide ((s.slot k).st = 3) || s.err.swaps.any (fun x => decide (x.la = la)) || s.err.unbind.contains la

/-! ### The decision (R294-R299) -/

/-- A command outranks another (R294). -/
def State.outranks (s : State) (c d : Cmd) : Bool :=
  let a := s.effPriority c.part c.queue
  let b := s.effPriority d.part d.queue
  decide (c.queue ≠ d.queue) && (decide (b < a) || (decide (a = b) && ((s.partition d.part).queue d.queue).ended))

/-- Command d was fetched before c. -/
def State.before (s : State) (d c : Cmd) : Bool := (s.chan.cmds.takeWhile (fun x => decide (x.ref ≠ c.ref))).any (fun x => decide (x.ref = d.ref))

/-- A reservation bars a command from an array (R296). -/
def State.barred (s : State) (la : Nat) (c : Cmd) : Bool :=
  s.chan.reserved.any (fun x => decide (x.1 = la ∧ x.2 ≠ c.ref) && (match s.cmd x.2 with
    | some d => decide (d.part = c.part) && (s.outranks d c || (!s.outranks c d && s.before d c))
    | none => false))

/-- Pre-empts an occupant for a command that outranks it (R297); the answer says whether it runs on. -/
def State.preempt (s : State) (c h : Cmd) : Bool × State :=
  if h.isSealed then (true, s.setCmd { h with sealOverrun := true })
  else if s.effPriority h.part h.queue < s.effPriority c.part c.queue then (false, s.killRerun h)
  else if h.shielded then (true, s)
  else (false, s.killRerun { h with shielded := true })

/-- One array of a command that the scheduler considers (R296); the flag gathers whether the command is blocked. -/
def State.contest (c : Cmd) (x : Bool × State) (la : Nat) : Bool × State :=
  let (b, s) := x
  if s.barred la c then (true, s) else
  match (s.array la).occ with
  | none => (b, s)
  | some o => match s.cmd o.cmd with
    | none => (b, s)
    | some h =>
      if o.part ≠ c.part then (b, s.reclaim la)
      else if h.stage ≠ .running then (b, s)
      else if s.outranks c h then
        let (on, s) := s.preempt c h
        (b || on, s)
      else (true, s)

/-- Reserves arrays for a command (R296). -/
def State.reserve (s : State) (c : Cmd) (las : List Nat) : State :=
  { s with chan := { s.chan with reserved := s.chan.reserved.filter (fun x => decide (x.2 ≠ c.ref)) ++ las.map (fun la => (la, c.ref)) } }

/-- A queue holds an array. -/
def State.queueHolds (s : State) (p : Fin 16) (q : Fin 64) : List Nat :=
  ((s.chan.cmds.filter (fun c => decide (c.part = p ∧ c.queue = q))).map (·.arrays)).flatten

/-- A command starts on its arrays (R39, R295): an array to which it assigns no cohort is free again at once. -/
def State.start (s : State) (c : Cmd) (las : List Nat) : State :=
  let s := las.foldl (fun s la => if (s.partition c.part).floor.contains la then s.reclaim la else s) s
  let q := (s.partition c.part).queue c.queue
  let s := if s.queueHolds c.part c.queue = [] then s.setQueueState c.part c.queue { q with inSlice := true, ended := false } else s
  let kept := las.filter (fun la => decide (c.kind = 5) || (c.nextCohort la 0).isSome)
  let s := kept.foldl (fun s la => s.onArray la (fun a => { a with occ := some ⟨c.ref, c.part, 0, [], false, false⟩ })) s
  let s := s.setCmd { c with stage := .running, arrays := kept, left := las.length - kept.length, buf := [] }
  { s with chan := { s.chan with reserved := s.chan.reserved.filter (fun x => decide (x.2 ≠ c.ref)) } }

/-- A borrower's array that is offered and not lent (R292). -/
def State.notLent (s : State) (p : Fin 16) (la : Nat) : Bool := !(s.partition p).floor.contains la && !Tbl.get false s.chan.lent la

/-- A release of the array is in progress: no further command of its partition takes it (R284). -/
def State.leaving (s : State) (p : Fin 16) (la : Nat) : Bool :=
  s.chan.acts.any (fun x => decide (x.part = p) && (match x.kind with
    | .releaseArrays f n => (laRange f n).contains la
    | _ => false))

/-- The scheduler's decision on one command (R290, R291, R296). -/
def State.decideOn (s : State) (ref : CmdRef) : State :=
  match s.cmd ref with
  | none => s
  | some c =>
    if !s.ready c then s else
    match s.placeFor c with
    | (.wait, s) => s
    | (.ends st, s) => s.finishCmd c st 0
    | (.poison g, s) => if s.isRefilling (g / 64) then s else (s.poisonRead c.part g (unitId 3 14)).finishCmd c 0x50 0
    | (.ok las, s) =>
      let c := (s.cmd ref).getD c
      if las.any (fun la => s.unbound la || s.notLent c.part la || s.leaving c.part la) then s else
      let (blocked, s) := las.foldl (State.contest c) (false, s)
      if blocked ∨ las.any (fun la => (s.array la).occ.isSome) then s.reserve c las else s.start c las

/-- The commands of a partition that the scheduler considers: runnable, on arrays, not started, of a queue that is not
suspended but for a donee's channel (R294, R299, R300). A STEP is considered once its list is built (R311). -/
def State.candidates (s : State) (p : Fin 16) : List Cmd :=
  s.chan.cmds.filter (fun c => decide (c.part = p) && c.usesArrays && s.ready c && (decide (c.kind ≠ 2) || c.build.isSome)
    && (let q := (s.partition p).queue c.queue; !q.suspended || q.donation.any (fun d => decide (d.2 = c.ch.val))))

/-- The scheduler's decision (R296): queues by descending effective priority, then ascending number; their commands oldest
first. -/
def State.schedule (s : State) (p : Fin 16) : State :=
  let l := s.candidates p
  let order := (([7, 6, 5, 4, 3, 2, 1, 0] : List Nat).map (fun pr =>
    ((List.finRange 64).map (fun q => if l.any (fun c => decide (c.queue = q)) && decide (s.effPriority p q = pr) then l.filter (fun c => decide (c.queue = q)) else [])).flatten)).flatten
  order.foldl (fun s c => s.decideOn c.ref) s

/-- The decision for every partition. -/
def State.scheduleAll (s : State) : State := allParts.foldl (fun s p => s.schedule p) s

/-- Completes the actions that wait, and decides anew where there were any (R282, R296). -/
def State.finishAll (s : State) : State := if s.chan.acts = [] then s.finishActions else s.finishActions.scheduleAll

/-! ### Its commands and events -/

/-- LAUNCH (R256, R289-R296): the scheduler decides; the launch starts once its arrays are free. -/
def execLaunch (c : CmdRef) (s : State) : Host.Outcome State Fault Refusal :=
  match s.cmd c with
  | none => .next s
  | some x => if !s.up ∨ x.kind ≠ 1 ∨ x.stage ≠ .fetched then .next s else .next (s.schedule x.part)

/-- A PATTERN_LOAD that holds its arrays loads the slot on each and frees it (R77, R86, R87, R39). -/
def State.loadPattern (s : State) (c : Cmd) : State :=
  match s.fetchPattern c (blk c.head 16 0 64) with
  | (.wait, s) => s
  | (.poison g _, s) => s.consumePoison c g (unitId 3 14)
  | (.refused, s) => s.endCmd c 0x14 0
  | (.fault _ _, s) => s.endCmd c 0x14 0
  | (.ok p _, s) =>
    let slot : Fin 4 := ⟨blk c.head 28 0 2 % 4, Nat.mod_lt _ (by decide)⟩
    let s := c.arrays.foldl (fun s la => (s.putSlot la slot ⟨p, BitVec.ofNat 32 (blk c.head 32 0 32), c.part.val⟩).onArray la (fun a => { a with occ := none })) s
    s.setCmd { c with stage := .finished, arrays := [], left := c.arrays.length, started := true }

/-- PATTERN_LOAD (R261, R87): it is placed like a launch, and then loads. -/
def execPatternLoad (c : CmdRef) (s : State) : Host.Outcome State Fault Refusal :=
  match s.cmd c with
  | none => .next s
  | some x =>
    if !s.up ∨ x.kind ≠ 5 then .next s
    else if x.stage = .fetched then .next (s.schedule x.part)
    else if x.stage = .running then .next (s.loadPattern x)
    else .next s

/-- A contender (R295): a runnable command of another queue, of the same or higher priority, that waits for an array of
the queue. -/
def State.contender (s : State) (p : Fin 16) (q : Fin 64) : Bool :=
  let held := s.queueHolds p q
  (s.candidates p).any (fun c => decide (c.queue ≠ q ∧ s.effPriority p q ≤ s.effPriority p c.queue) && c.names.any (fun la => held.contains la))

/-- SLICE_END (R295): without a contender a new slice begins; with one, the queue's commands are outranked. -/
def execSliceEnd (p : Fin 16) (q : Fin 64) (s : State) : Host.Outcome State Fault Refusal :=
  let x := (s.partition p).queue q
  if !s.up ∨ !x.inSlice then .next s
  else if !s.contender p q then .next s
  else .next ((s.setQueueState p q { x with inSlice := false, ended := true }).schedule p)

/-- LOAN_IDLE_EXPIRED (R292): an offered array that no command of the lender occupies or names becomes lent. -/
def execLoanIdleExpired (la : Fin 384) (s : State) : Host.Outcome State Fault Refusal :=
  match s.offerOf la.val with
  | none => .next s
  | some (lender, l) =>
    if !s.up ∨ Tbl.get false s.chan.lent la.val ∨ (s.array la.val).occ.isSome
      ∨ s.chan.cmds.any (fun c => decide (c.part = lender) && s.runnable c && c.names.contains la.val) then .next s
    else
      let s := s.setArray la.val (s.array la.val).pass
      let s := { s with chan := { s.chan with lent := Tbl.set false s.chan.lent la.val true } }
      .next ((s.postLoan 0x0005 la.val lender l.borrower).schedule l.borrower)

/-- SEAL_LIMIT_EXPIRED (R298). -/
def execSealLimitExpired (c : CmdRef) (s : State) : Host.Outcome State Fault Refusal :=
  match s.cmd c with
  | none => .next s
  | some x => if x.stage ≠ .running ∨ !x.isSealed ∨ !x.sealOverrun then .next s else .next (s.endCmd x 0x23 0)

/-- PLACEMENT_UNBOUND (R291). -/
def execPlacementUnbound (c : CmdRef) (s : State) : Host.Outcome State Fault Refusal :=
  match s.cmd c with
  | none => .next s
  | some x => if !s.up ∨ !x.usesArrays ∨ !s.ready x ∨ !x.names.any (fun la => s.unbound la) then .next s else .next ((s.finishCmd x 0x21 0).schedule x.part)

/-! ### The slow-down report (R304, R305) -/

/-- Sequence entries that the builder paused (R304, R308). -/
def State.pausedEntries (s : State) (p : Fin 16) : Nat :=
  let x := s.partition p
  ((List.range x.seqCount).filter (fun i => match (s.vaRead (x.ringCtx p) [] 0 (x.seqBase.toNat + 64 * i) 4 (fun o => s.atlasByte o)).1 with
    | .ok b => decide (b.getD 0 0 = 3) && (b.getD 3 0).getLsbD 2
    | _ => false)).length

/-- The attribution of R305: foreign cycles and ESTIMATE. -/
def attribution (m : StallSample) (lost : Nat) : Nat × Nat :=
  let stall := m.stall.toNat
  let foreign := min stall (4 * m.waitQ.toNat + 64 * lost * m.lat.toNat)
  (foreign, if stall = 0 then 0 else min 65535 (65536 * foreign / stall))

/-- INTERVAL_REPORT (R304, R305). -/
def execIntervalReport (p : Fin 16) (m : StallSample) (s : State) : Host.Outcome State Fault Refusal :=
  let x := s.partition p
  if !s.up ∨ x.mode = .absent then .next s else
  let (foreign, estimate) := attribution m (Tbl.get 0 s.mem.shadowLost p.val)
  let keep := Tbl.get 0 s.mem.keepDemoted p.val
  let stash := Tbl.get 0 s.mem.stashDeclined p.val
  let (uj, s) := s.intervalEnergy p
  let body := leBytes 4 m.intervalUs.toNat ++ leBytes 4 estimate ++ leBytes 8 m.stall.toNat ++ leBytes 8 foreign
    ++ leBytes 4 (keep - x.keepBase) ++ leBytes 4 (stash - x.stashBase) ++ leBytes 4 x.kills ++ leBytes 4 (s.pausedEntries p) ++ leBytes 4 uj
  let s := s.setPartition p { x with keepBase := keep, stashBase := stash, kills := 0 }
  let s := { s with mem := { s.mem with shadowLost := Tbl.set 0 s.mem.shadowLost p.val 0 } }
  .next (s.postEvent p 0x0004 body)

end Sys2Proof.Machine
end

