-- ==== Sys2Proof/Machine/Actions.lean ====
section
/-! DEFINITION. The rows of the partition and channel actions (09 R244-R246; 10 R280-R285, R287, R292, R299, R302, R307): each is
taken in its turn, and the scheduler then decides where the action changed what can run (R296). -/

namespace Sys2Proof.Machine

/-- An action that can end commands or a loan, or suspend or resume a queue: DESTROY, RELEASE_ARRAYS, SET_QUEUE, SET_LOAN and
the STOP of a channel (R296). -/
def stirs (chan : Bool) (code : Nat) : Bool := if chan then decide (code = 3) else decide (code = 2 ∨ code = 4 ∨ code = 11 ∨ code = 12)

/-- An action is taken, and the scheduler decides anew after one that changes what can run (R296). -/
def State.take (s : State) (chan : Bool) (code : Nat) (who : Caller) (b : Option RingBlock × Option RingBlock) : State :=
  let t := s.act chan code who b
  if stirs chan code then t.scheduleAll else t

/-- CREATE (R283). -/
def execCreate (who : Caller) (s : State) : Host.Outcome State Fault Refusal := .next (s.take false 1 who (none, none))

/-- DESTROY (R283). -/
def execDestroy (who : Caller) (s : State) : Host.Outcome State Fault Refusal := .next (s.take false 2 who (none, none))

/-- GRANT_ARRAYS (R284). -/
def execGrantArrays (who : Caller) (s : State) : Host.Outcome State Fault Refusal := .next (s.take false 3 who (none, none))

/-- RELEASE_ARRAYS (R284). -/
def execReleaseArrays (who : Caller) (s : State) : Host.Outcome State Fault Refusal := .next (s.take false 4 who (none, none))

/-- GRANT_PLOTS (R147). -/
def execGrantPlots (who : Caller) (s : State) : Host.Outcome State Fault Refusal := .next (s.take false 5 who (none, none))

/-- RELEASE_PLOTS (R148). -/
def execReleasePlots (who : Caller) (s : State) : Host.Outcome State Fault Refusal := .next (s.take false 6 who (none, none))

/-- GRANT_CORES (R285). -/
def execGrantCores (who : Caller) (s : State) : Host.Outcome State Fault Refusal := .next (s.take false 7 who (none, none))

/-- RELEASE_CORES (R285). -/
def execReleaseCores (who : Caller) (s : State) : Host.Outcome State Fault Refusal := .next (s.take false 8 who (none, none))

/-- SET_BANDWIDTH (R163). -/
def execSetBandwidth (who : Caller) (s : State) : Host.Outcome State Fault Refusal := .next (s.take false 9 who (none, none))

/-- SET_LIMITS (R281). -/
def execSetLimits (who : Caller) (s : State) : Host.Outcome State Fault Refusal := .next (s.take false 10 who (none, none))

/-- SET_QUEUE (R299). -/
def execSetQueue (who : Caller) (s : State) : Host.Outcome State Fault Refusal := .next (s.take false 11 who (none, none))

/-- SET_LOAN (R292). -/
def execSetLoan (who : Caller) (s : State) : Host.Outcome State Fault Refusal := .next (s.take false 12 who (none, none))

/-- SET_CREDITS (R302). -/
def execSetCredits (who : Caller) (s : State) : Host.Outcome State Fault Refusal := .next (s.take false 13 who (none, none))

/-- SET_RINGS (R287). -/
def execSetRings (who : Caller) (host : RingBlocks) (s : State) : Host.Outcome State Fault Refusal := .next (s.take false 14 who (host.fault, host.telemetry))

/-- SET_SERVING (R307). -/
def execSetServing (who : Caller) (s : State) : Host.Outcome State Fault Refusal := .next (s.take false 15 who (none, none))

/-- PART_READ (R281). -/
def execPartRead (who : Caller) (s : State) : Host.Outcome State Fault Refusal := .next (s.take false 16 who (none, none))

/-- CHAN_WRITE (R245). -/
def execChanWrite (who : Caller) (s : State) : Host.Outcome State Fault Refusal := .next (s.take true 1 who (none, none))

/-- CHAN_READ (R245). -/
def execChanRead (who : Caller) (s : State) : Host.Outcome State Fault Refusal := .next (s.take true 2 who (none, none))

/-- CHAN_STOP (R246). -/
def execChanStop (who : Caller) (s : State) : Host.Outcome State Fault Refusal := .next (s.take true 3 who (none, none))

/-- CHAN_START (R245). -/
def execChanStart (who : Caller) (s : State) : Host.Outcome State Fault Refusal := .next (s.take true 4 who (none, none))

/-- CHAN_DISABLE (R245). -/
def execChanDisable (who : Caller) (s : State) : Host.Outcome State Fault Refusal := .next (s.take true 5 who (none, none))

/-- CHANNEL_STOPPED (R246 step 5). A channel that a function's reset stops waits for the end of the reset (R331). -/
def execChannelStopped (ch : Fin 3072) (s : State) : Host.Outcome State Fault Refusal :=
  if entState (s.entry ch) ≠ 2 ∨ (s.dyn ch).stop = some .reset then .next s
  else .next ((s.settleErrors ch).settleStop ch).finishAll

end Sys2Proof.Machine
end

