-- ==== Sys2Proof/Machine/FrontEnd.lean ====
section
/-! DEFINITION. The front end (09 R247-R264, R273, R278): doorbells, nudges, the fetch and the check of descriptors, the
order of dispatch, semaphores before a command starts, donation, and the return of killed commands. -/

namespace Sys2Proof.Machine

/-! ### Reads of the front end (R248, R252, R400) -/

/-- What a read of the front end comes to; `short` when the answer of host memory does not hold the bytes. -/
inductive FrontGot
  | ok (b : List Byte)
  | poison (granule : Nat)
  | failed
  | short
  deriving DecidableEq, Repr

/-- What host memory, or another module, answered. -/
def FrontGot.ofHost (n : Nat) : HostRead → FrontGot
  | .data d => if d.length < n then .short else .ok (d.take n)
  | .failed => .failed

/-- A read of n bytes at an address of a channel (R242). -/
def State.frontRead (s : State) (ch : Fin 3072) (host : Bool) (a n : Nat) (h : HostRead) : FrontGot × State :=
  let x := s.chanCtx ch
  if host then (if s.hostOk x (a % 2 ^ 64) then FrontGot.ofHost n h else .failed, s)
  else
    let image := s.atlasBytes
    match s.vaRead x [] 0 a n (fun i => image.getD i 0) with
    | (.ok b, s) => (.ok b, s)
    | (.poison g _, s) => (.poison g, s)
    | (.host _ _ _, s) => (FrontGot.ofHost n h, s)
    | (.remote _ _ _ _, s) => (FrontGot.ofHost n h, s)
    | (_, s) => (.failed, s)

/-- The I/O virtual address at which a channel's address reaches host memory: an address of a ring or doorbell that SPACES
places there, or a partition address whose leaf names host memory (R242, R320). -/
def State.frontHost (s : State) (ch : Fin 3072) (host : Bool) (a : Nat) : Option Nat :=
  if host then some (a % 2 ^ 64) else match s.locate (entPart (s.entry ch)) a false with
    | .host i => some i
    | _ => none

/-- The front end's read of host memory leaves the module, where it may (R250, R321). -/
def State.frontAsk (s : State) (ch : Fin 3072) (i n : Nat) : State :=
  let x := s.chanCtx ch
  if s.hostOk x i then s.hostAsk x i n else s

/-- A line of the range in the partition's memory has a transaction in progress: the front end's access waits (R175). -/
def State.frontBusy (s : State) (ch : Fin 3072) (host : Bool) (a n : Nat) : Bool :=
  !host && s.rangeBusy (entPart (s.entry ch)) a n

/-- The front end's unit (R400): the I/O die. -/
def frontUnit : BitVec 16 := unitId 3 14

/-! ### Doorbells (R248-R252) -/

/-- A doorbell value arrives (R248, R250, R252). -/
def State.takeDoorbell (s : State) (ch : Fin 3072) (v : BitVec 32) : State :=
  let e := s.entry ch
  if 2 ^ blk e 24 0 8 < (v - entConsumed e).toNat then s.chanError ch 1
  else
    let d := s.dyn ch
    let hot := decide (v ≠ d.producer) || decide (s.chanCmds ch ≠ [])
    (s.raiseEpoch (entPart e)).setDyn ch { d with producer := v, hot := hot, backoff := if hot ∨ d.hot then 0 else min (d.backoff + 1) (blk e 43 0 3 + 4) }

/-- A doorbell read returns. -/
def State.doorbell (s : State) (ch : Fin 3072) (h : HostRead) : State :=
  let e := s.entry ch
  let a := blk e 8 0 64
  if !s.up ∨ entState e ≠ 1 ∨ s.frontBusy ch (entHost e 1) a 8 then s else
  match s.frontRead ch (entHost e 1) a 8 h with
  | (.ok b, s) => s.takeDoorbell ch (BitVec.ofNat 32 (leNat (b.take 4)))
  | (.poison g, s) => (s.poisonRead (entPart e) g frontUnit).chanError ch 2
  | (.failed, s) => s.chanError ch 2
  | (.short, _) => s

/-- DOORBELL_POLL (R250): a doorbell in host memory is asked for with one 8-byte read of FUNCTION under PASID; one in device
memory is read. -/
def execDoorbellPoll (ch : Fin 3072) (s : State) : Host.Outcome State Fault Refusal :=
  let e := s.entry ch
  if !s.up ∨ entState e ≠ 1 then .next s
  else match s.frontHost ch (entHost e 1) (blk e 8 0 64) with
    | none => .next (s.doorbell ch (.data []))
    | some i => if s.hostOk (s.chanCtx ch) i then .next (s.frontAsk ch i 8) else .next (s.chanError ch 2)

/-- DOORBELL_READ (R248, R252). -/
def execDoorbellRead (ch : Fin 3072) (host : HostRead) (s : State) : Host.Outcome State Fault Refusal := .next (s.doorbell ch host)

/-- Wakes a channel (R251). -/
def State.wakeChan (s : State) (ch : Fin 3072) : State := s.setDyn ch { s.dyn ch with hot := true, backoff := 0 }

/-- A write to a nudge slot of a physical function (R251): the slot names an ACTIVE channel of it. -/
def State.pfNudge (s : State) (port : Fin 2) (ch : Fin 3072) : State :=
  let e := s.entry ch
  if !s.barServes port 0 ∨ entState e ≠ 1 ∨ fnOf (entFn e) ≠ (port, 0) then s else s.wakeChan ch

/-- CHAN_NUDGE (R251). -/
def execChanNudge (port : Fin 2) (ch : Fin 3072) (s : State) : Host.Outcome State Fault Refusal := .next (s.pfNudge port ch)

/-- A write to a nudge slot of a virtual function (R251): the slot is the NUDGE_INDEX of an ACTIVE channel of it. -/
def State.vfNudge (s : State) (port : Fin 2) (fn : Fin 128) (slot : Fin 512) : State :=
  if !s.barServes port fn ∨ fn = 0 then s else
  match (List.finRange 3072).find? (fun ch => (s.dyn ch).assigned && decide (entState (s.entry ch) = 1)
      && decide (fnOf (entFn (s.entry ch)) = (port, fn)) && decide (blk (s.entry ch) 36 0 16 = slot.val)) with
  | some ch => s.wakeChan ch
  | none => s

/-- VF_NUDGE (R251). -/
def execVfNudge (port : Fin 2) (fn : Fin 128) (slot : Fin 512) (s : State) : Host.Outcome State Fault Refusal := .next (s.vfNudge port fn slot)

/-! ### The check of a descriptor (R253-R261) -/

/-- The bits that fields name: first bit and width. -/
def fieldMask (l : List (Nat × Nat)) : BitVec 512 := BitVec.ofNat 512 (l.foldl (fun m x => m ||| ((2 ^ x.2 - 1) <<< x.1)) 0)

/-- The first byte of the field that holds byte i: of the field whose bits lie in it, or of the run of bytes that no field
names. -/
def fieldStart (l : List (Nat × Nat)) (i : Nat) : Nat :=
  let own (k : Nat) : Option Nat := (l.find? (fun x => decide (x.1 / 8 ≤ k ∧ 8 * k < x.1 + x.2))).map (fun x => x.1 / 8)
  match own i with
  | some k => k
  | none => ((List.range (i + 1)).reverse.takeWhile (fun k => (own k).isNone)).getLastD i

/-- The offsets of the fields of a block in which a bit is set that is reserved: `rows` are the fields of its table, `l` the
bits of them that are not reserved. -/
def straysIn (d : BitVec 512) (rows l : List (Nat × Nat)) : List Nat :=
  let r := d &&& ~~~(fieldMask l)
  ((List.range 64).filter (fun i => decide (blk r i 0 8 ≠ 0))).map (fieldStart rows)

/-- The same where each field has a bit that is not reserved, or no bit at all. -/
def strays (d : BitVec 512) (l : List (Nat × Nat)) : List Nat := straysIn d l l

/-- The tickets and actions of the first n entries of a REPLAY (R259). -/
def replayFields (n : Nat) : List (Nat × Nat) := ((List.range n).map (fun i => [(192 + 32 * i, 32), (448 + 8 * i, 8)])).flatten

/-- The fields of the header (R253) and of the body of a kind (R256, R258-R261). -/
def kindFields (d : BitVec 512) : List (Nat × Nat) :=
  let body : List (Nat × Nat) := match blk d 0 0 8 with
    | 1 => [(128, 64), (192, 64), (256, 16), (272, 48), (320, 5), (328, 5), (336, 7), (344, 2), (352, 11), (384, 128)]
    | 2 => [(128, 256)]
    | 3 => [(128, 224), (352, 5), (360, 5), (368, 5), (376, 5), (384, 128)]
    | 4 => [(128, 192), (320, 2)]
    | 5 => [(128, 64), (192, 32), (224, 2), (256, 32)]
    | 6 => (128, 8) :: replayFields (min 8 (blk d 16 0 8))
    | 7 => [(128, 64), (192, 16), (256, 128)]
    | 8 => [(128, 192), (320, 16), (336, 12)]
    | 9 => [(128, 8), (192, 128)]
    | _ => [(128, 8)]
  [(0, 8), (8, 2), (16, 3), (64, 64)] ++ body

/-- A format code that a COPY takes (R105, R258). -/
def copyFmtOk (f op : Nat) : Bool := if f % 16 = 15 then decide (op ≠ 0) else !fmtReserved f

/-- E8M0 converts with FP32 and FP64 only (R119). -/
def scaleFmtOk (a b : Nat) : Bool := decide (a % 16 ≠ 9) || decide (b ≤ 1)

/-- A destination format and a reduction of the table of R165. -/
def churnOk (f op : Nat) : Bool := (decide (f ≤ 3) && decide (op ≤ 3)) || decide (f % 16 = 10 ∨ f % 16 = 15)

/-- The constraints of R258 on a COPY, each with the byte offset of its field. -/
def copyChecks (slots : List (BitVec 512)) : List (Nat × Bool) :=
  let d := slots.headD 0
  let sf := blk d 44 0 5
  let df := blk d 45 0 5
  let op := blk d 47 0 3
  let b := blk d 47 3 2
  let size := max 1 (fmtBits df / 8)
  let aligned (x : Nat) : Bool := decide (op = 0) || decide (x % size = 0)
  [(24, aligned (blk d 24 0 64)), (32, decide (blk d 32 0 32 ≠ 0)), (36, decide (blk d 36 0 32 ≠ 0)), (40, decide (blk d 40 0 32 ≠ 0)),
   (44, copyFmtOk sf op), (45, copyFmtOk df op), (46, decide (blk d 46 0 2 ≠ 3)), (47, decide (op ≠ 7 ∧ b ≠ 3)),
   (44, decide (sf = df) || (scaleFmtOk sf df && scaleFmtOk df sf)),
   (44, decide (b = 0) || (if fmtIsMx df then decide (sf ≤ 3) else fmtIsMx sf)),
   (44, decide (df % 16 ≠ 15) || decide (sf % 16 = 10 ∨ sf % 16 = 15)),
   (45, decide (op = 0) || churnOk df op), (47, decide (op = 0 ∨ b = 0)), (56, decide (b ≠ 0) || decide (blk d 56 0 64 = 0))]
  ++ ((List.range slots.tail.length).map (fun i =>
      let x := slots.getD (i + 1) 0
      if blk x 0 0 8 = 5 then [(64 * (i + 1) + 24, aligned (blk x 24 0 64)), (64 * (i + 1) + 32, aligned (blk x 32 0 64))] else [])).flatten

/-- The ranges of the fields of a kind, each with its byte offset. -/
def kindChecks (slots : List (BitVec 512)) : List (Nat × Bool) :=
  let d := slots.headD 0
  match blk d 0 0 8 with
  | 1 => [(16, decide (blk d 16 0 3 = 0)), (24, decide (blk d 24 0 3 = 0)), (32, decide (blk d 32 0 16 ≤ 4096 ∧ blk d 32 0 3 = 0)),
      (34, decide (blk d 34 0 16 ≠ 0)), (36, decide (blk d 36 0 16 ≠ 0)), (38, decide (blk d 38 0 16 ≠ 0))]
  | 2 => []
  | 3 => copyChecks slots
  | 4 => []
  | 5 => [(16, decide (blk d 16 0 6 = 0)), (26, decide (1 ≤ blk d 26 0 16 ∧ blk d 26 0 16 ≤ 384))]
  | 6 => [(16, decide (1 ≤ blk d 16 0 8 ∧ blk d 16 0 8 ≤ 8))]
  | 7 => [(24, decide (1 ≤ blk d 24 0 16 ∧ blk d 24 0 16 ≤ 4096)), (32, decide (blk d 32 0 7 = 0))]
  | 8 => []
  | 9 => [(16, decide (1 ≤ blk d 16 0 8 ∧ blk d 16 0 8 ≤ 3))]
  | 10 => [(16, decide (blk d 16 0 8 ≤ 1))]
  | _ => [(0, false)]

/-- An extension is allowed with a kind, and how often (R254). -/
def extLimit (kind ext : Nat) : Nat :=
  match ext with
  | 1 => if kind ≤ 2 then 3 else 0
  | 2 => if kind = 6 then 0 else 2
  | 3 => if kind ≤ 2 then 1 else 0
  | 4 => if kind = 1 ∨ kind = 3 then 1 else 0
  | 5 => if kind = 3 then 1 else 0
  | _ => 0

/-- COUNT lies in its range (R254). -/
def extCountOk (ext n : Nat) : Bool :=
  match ext with
  | 1 => decide (1 ≤ n ∧ n ≤ 3)
  | 2 => decide (1 ≤ n ∧ n ≤ 3)
  | 3 => decide (1 ≤ n ∧ n ≤ 4)
  | _ => decide (n = 1)

/-- The fields of an extension block with n entries (R254, R263). -/
def extFields (ext n : Nat) : List (Nat × Nat) :=
  let body : List (Nat × Nat) := match ext with
    | 1 => (List.range n).map (fun i => (64 + 128 * i, 128))
    | 2 => ((List.range n).map (fun i => [(64 + 128 * i, 2), (68 + 128 * i, 53), (128 + 128 * i, 64)])).flatten
    | 3 => ((List.range n).map (fun i => [(64 + 96 * i, 32), (96 + 96 * i, 2), (102 + 96 * i, 58)])).flatten
    | 4 => [(64, 64)]
    | _ => [(64, 256)]
  (0, 16) :: body

/-- The entries that a block of a kind has room for (R254). -/
def extEntries (ext : Nat) : Nat := if ext = 3 then 4 else if ext ≤ 2 then 3 else 1

/-- Offsets that are invalid in extension block i: of block kinds `before`, those that precede it. -/
def extInvalid (kind i : Nat) (before : List Nat) (b : BitVec 512) : List Nat :=
  let ext := blk b 0 0 8
  let n := blk b 1 0 8
  let at' := 64 * (i + 1)
  if extLimit kind ext ≤ (before.filter (fun x => decide (x = ext))).length then [at']
  else (if extCountOk ext n then [] else [at' + 1]) ++ (straysIn b (extFields ext (extEntries ext)) (extFields ext (if extCountOk ext n then n else 0))).map (fun x => at' + x)
    ++ (if ext = 4 ∧ blk b 8 0 5 ≠ 0 then [at' + 8] else [])

/-- The invalid offsets of extension blocks from number i on. -/
def extsInvalid (kind : Nat) : Nat → List Nat → List (BitVec 512) → List Nat
  | _, _, [] => []
  | i, before, b :: t => extInvalid kind i before b ++ extsInvalid kind (i + 1) (blk b 0 0 8 :: before) t

/-- The byte offset of the first field found invalid (R255), none for a valid descriptor. -/
def invalidAt (slots : List (BitVec 512)) : Option Nat :=
  let d := slots.headD 0
  let bad := straysIn d (kindFields d ++ (if blk d 0 0 8 = 6 then replayFields 8 else [])) (kindFields d) ++ ((kindChecks slots).filter (fun x => !x.2)).map (·.1) ++ extsInvalid (blk d 0 0 8) 0 [] slots.tail
  match bad with
  | [] => none
  | x :: t => some (t.foldl min x)

/-- Two byte ranges share a byte. -/
def meet (a b : Nat × Nat) : Bool := decide (a.1 < b.1 + b.2 ∧ b.1 < a.1 + a.2)

/-- Some two ranges of a list share a byte. -/
def anyMeet : List (Nat × Nat) → Bool
  | [] => false
  | a :: t => t.any (meet a) || anyMeet t

/-- The OUTPUTS regions break R266. -/
def outputsBad (slots : List (BitVec 512)) : Bool :=
  let l := outputs slots
  l.any (fun r => decide (r.1 % 128 ≠ 0 ∨ r.2 % 128 ≠ 0 ∨ r.2 = 0)) || decide (8 < l.length) || anyMeet l

/-! ### Semaphores before the start (R263-R265, R300) -/

/-- What the test of a command's entries comes to: all waits hold; some do not, with the channel whose claim is the only
thing awaited; the command ends. -/
inductive SemTest
  | holds
  | waits (owner : Option Nat)
  | invalid
  | poison (granule : Nat)
  deriving DecidableEq, Repr

/-- Adds one entry's outcome. -/
def SemTest.join : SemTest → SemTest → SemTest
  | .holds, y => y
  | .waits o, .holds => .waits o
  | .waits _, .waits _ => .waits none
  | .waits _, y => y
  | x, _ => x

/-- The test of one entry. Signals are read at the first test only. -/
def State.semEntry (s : State) (c : Cmd) (x : Nat × Nat × Word) : SemTest × State :=
  let (va, op, v) := x
  let waits := decide (op = 0 ∨ op = 3)
  if c.tested && !waits then (.holds, s) else
  match s.semRead c.part va with
  | (.invalid, s) => (.invalid, s)
  | (.poison g, s) => (.poison g, s)
  | (.ok _ _ value owner exclusive reserved, s) =>
    if (reserved && !c.tested) || (decide (op = 3) && !exclusive) then (.invalid, s)
    else if !waits then (.holds, s)
    else if value < v then (.waits none, s)
    else if op = 3 ∧ owner ≠ 0xFFFF then (.waits (some owner), s)
    else (.holds, s)

/-- The test of every entry, in order. -/
def State.semEntriesTest (s : State) (c : Cmd) : List (Nat × Nat × Word) → SemTest × State
  | [] => (.holds, s)
  | x :: t =>
    match s.semEntry c x with
    | (.invalid, s) => (.invalid, s)
    | (.poison g, s) => (.poison g, s)
    | (r, s) =>
      let (r', s) := State.semEntriesTest s c t
      (r.join r', s)

/-- Claims the WAIT_CLAIM objects in entry order from number i on; the answer holds the entries claimed, and whether every
claim was made. -/
def State.claimFrom (s : State) (c : Cmd) : Nat → List (Nat × Nat × Word) → List Nat → (Bool × List Nat) × State
  | _, [], got => ((true, got), s)
  | i, (va, op, v) :: t, got =>
    if op ≠ 3 then State.claimFrom s c (i + 1) t got else
    match s.semRead c.part va with
    | (.ok line off value owner _ _, s) =>
      if value < v ∨ owner ≠ 0xFFFF then ((false, got), s) else
      let (ok, s) := s.semWrite c.part line off value c.ch.val
      if ok then State.claimFrom s c (i + 1) t (got ++ [i]) else ((false, got), s)
    | (_, s) => ((false, got), s)

/-- The command that holds a channel's claim. -/
def State.claimant (s : State) (k : Nat) : Option Cmd := s.chan.cmds.find? (fun c => decide (c.ch.val = k) && decide (c.claims ≠ []))

/-- Lends a priority to the queue of the claiming channel, and on to a further one that the claimant waits on (R300). -/
def State.donate (s : State) (p : Fin 16) (prio k : Nat) : Nat → State
  | 0 => s
  | n + 1 =>
    match s.claimant k with
    | none => s
    | some h =>
      let q := (s.partition p).queue h.queue
      if h.part ≠ p ∨ prio ≤ s.effPriority p h.queue ∨ (!q.suspended ∧ h.stage = .running) then s else
      let s := s.setQueueState p h.queue { q with donation := some (prio, k) }
      if h.stage ≠ .fetched ∨ h.waitsHeld then s else
      match (s.semEntriesTest h (semEntries h.slots)).1 with
      | .waits (some k') => State.donate s p prio k' n
      | _ => s

/-- The front end tests a command's waits (R263, R264): it then may start, with its claims; or it waits, and lends its
queue's priority to the holder of the claim that it waits on; or it ends. A command that waited starts as after an acquire
at system scope (R216). -/
def State.semTest (s : State) (c : Cmd) : State :=
  let l := semEntries c.slots
  if l.any (fun x => s.rangeBusy c.part x.1 16) then s else
  match s.semEntriesTest c l with
  | (.invalid, s) => s.finishCmd c 5 0
  | (.poison g, s) => (s.poisonRead c.part g frontUnit).finishCmd c 0x50 0
  | (.waits o, s) =>
    let s := s.setCmd { c with tested := true }
    (match o with
      | none => s
      | some k =>
        let t := s.donate c.part (max (s.effPriority c.part c.queue) (entPriority (s.entry c.ch))) k 4
        if t.chan.parts = s.chan.parts then t else t.setCmd { c with tested := true, donating := some k })
  | (.holds, s) =>
    let ((all, got), s) := s.claimFrom c 0 l []
    if all then
      let s := s.setCmd { c with tested := true, waitsHeld := true, claims := got, donating := none }
      if l.any (fun x => decide (x.2.1 = 0 ∨ x.2.1 = 3)) then s.raiseEpoch c.part else s
    else ((s.releaseClaims { c with claims := got }).2).setCmd { c with tested := true }

/-- SEMAPHORE_RETEST (R264). -/
def execSemaphoreRetest (c : CmdRef) (s : State) : Host.Outcome State Fault Refusal :=
  match s.cmd c with
  | none => .next s
  | some x => if !s.up ∨ x.stage ≠ .fetched ∨ x.waitsHeld ∨ s.heldBack x then .next s else .next ((s.semTest x).schedule x.part)

/-- Takes back what a waiting command's donation lent (R301). -/
def State.undonate (s : State) (p : Fin 16) (k : Nat) : Nat → State
  | 0 => s
  | n + 1 =>
    match s.claimant k with
    | none => s
    | some h =>
      let q := (s.partition p).queue h.queue
      let s := if q.donation.any (fun d => decide (d.2 = k)) then s.setQueueState p h.queue { q with donation := none } else s
      if h.stage ≠ .fetched ∨ h.waitsHeld then s else
      match (s.semEntriesTest h (semEntries h.slots)).1 with
      | .waits (some k') => State.undonate s p k' n
      | _ => s

/-- DONATION_LIMIT_EXPIRED (R301): the waiting command completes with SEMAPHORE_TIMEOUT. -/
def execDonationLimitExpired (c : CmdRef) (s : State) : Host.Outcome State Fault Refusal :=
  match s.cmd c with
  | none => .next s
  | some x => (match x.donating with
    | some k => if x.stage ≠ .fetched then .next s else .next (((s.undonate x.part k 4).finishCmd x 0x22 0).schedule x.part)
    | none => .next s)

/-! ### Descriptors (R247-R249, R255, R262) -/

/-- A command as fetched. -/
def Cmd.fresh (e : BitVec 512) (ch : Fin 3072) (idx : BitVec 32) (slots : List (BitVec 512)) : Cmd where
  ch := ch
  idx := idx
  slots := slots
  part := entPart e
  queue := entQueue e
  stage := .fetched
  started := false
  killed := false
  reruns := 0
  waitsHeld := decide (semEntries slots = [])
  claims := []
  shielded := false
  arrays := []
  placement := none
  launch := none
  left := 0
  counts := .zero
  build := none
  poisonKills := 0
  parkKills := 0
  buf := []
  wrote := false
  sent := 0
  report := none
  sealOverrun := false
  refillHeld := none
  tested := false
  donating := none

/-- Reads slot i of the next descriptor (R247); host memory's answer holds the slots in order. -/
def State.slotRead (s : State) (ch : Fin 3072) (i : Nat) (h : HostRead) : FrontGot × State :=
  let e := s.entry ch
  let a := blk e 0 0 64 + 64 * (((entConsumed e).toNat + i) % 2 ^ blk e 24 0 8)
  let mine : HostRead := match h with
    | .data d => .data (d.drop (64 * i))
    | .failed => .failed
  let s := match s.frontHost ch (entHost e 0) a with
    | some i => s.frontAsk ch i 64
    | none => s
  s.frontRead ch (entHost e 0) a 64 mine

/-- The slots of a descriptor read so far, or what ended the read. -/
inductive Slots
  | ok (l : List (BitVec 512))
  | poison (granule : Nat)
  | failed
  | short
  deriving DecidableEq, Repr

/-- Reads n slots from slot i on. -/
def State.slotsRead (s : State) (ch : Fin 3072) (h : HostRead) : Nat → Nat → Slots × State
  | _, 0 => (.ok [], s)
  | i, n + 1 =>
    match s.slotRead ch i h with
    | (.ok b, s) =>
      (match State.slotsRead s ch h (i + 1) n with
        | (.ok t, s) => (.ok (BitVec.ofNat 512 (leNat b) :: t), s)
        | r => r)
    | (.poison g, s) => (.poison g, s)
    | (.failed, s) => (.failed, s)
    | (.short, s) => (.short, s)

/-- A descriptor of n slots is taken: CONSUMED passes it, and its command joins the channel. -/
def State.takeCmd (s : State) (c : Cmd) (n : Nat) : State :=
  let s := s.charge c.part (some c.ref) .front n
  let s := s.setEntry c.ch (putField (s.entry c.ch) 384 32 (c.idx.toNat + n))
  { s with chan := { s.chan with cmds := s.chan.cmds ++ [c] } }

/-- A descriptor is checked (R255, R266, R52), and the waits of its command are tested (R264). -/
def State.checkCmd (s : State) (c : Cmd) : State :=
  match invalidAt c.slots with
  | some d => s.finishCmd c 3 (BitVec.ofNat 32 d)
  | none =>
    if outputsBad c.slots then s.finishCmd c 4 0
    else if c.kind = 1 ∧ c.unfit then s.finishCmd c 0x10 0
    else if c.waitsHeld ∨ s.heldBack c then s
    else s.semTest c

/-- The slots of the next descriptor lie in a line that has a transaction in progress. -/
def State.slotsBusy (s : State) (ch : Fin 3072) : Bool :=
  let e := s.entry ch
  (List.range 8).any (fun i => s.frontBusy ch (entHost e 0) (blk e 0 0 64 + 64 * (((entConsumed e).toNat + i) % 2 ^ blk e 24 0 8)) 64)

/-- DESCRIPTOR_FETCH (R248, R252, R255, R262, R400). What a poisoned slot holds is not stated: the fields of a first slot
are free values. -/
def execDescriptorFetch (ch : Fin 3072) (host : HostRead) (s : State) : Host.Outcome State Fault Refusal :=
  let e := s.entry ch
  let idx := entConsumed e
  let avail := ((s.dyn ch).producer - idx).toNat
  if !s.up ∨ entState e ≠ 1 ∨ avail = 0 ∨ 8 ≤ s.heldSlots ch ∨ s.slotsBusy ch then .next s else
  match s.slotsRead ch host 0 1 with
  | (.short, _) => .next s
  | (.failed, s) => .next (s.chanError ch 3)
  | (.poison g, s) =>
    let (d, s) := (s.poisonRead (entPart e) g frontUnit).freeVal 512
    let c := Cmd.fresh e ch idx [d]
    .next ((s.takeCmd c (min avail (1 + blk d 2 0 3))).finishCmd c 0x50 0)
  | (.ok l, s') =>
    let d := l.headD 0
    let n := 1 + blk d 2 0 3
    if avail < n then .next s' else
    match s'.slotsRead ch host 1 (n - 1) with
    | (.short, _) => .next s
    | (.failed, s) => .next (s.chanError ch 3)
    | (.poison g, s) =>
      let c := Cmd.fresh e ch idx [d]
      .next (((s.poisonRead (entPart e) g frontUnit).takeCmd c n).finishCmd c 0x50 0)
    | (.ok t, s) =>
      let c := Cmd.fresh e ch idx (d :: t)
      .next (((s.takeCmd c n).checkCmd c).schedule c.part)

/-! ### The fence, interrupts and the return of killed commands -/

/-- The commands that a QUEUE_FENCE waits for (R261, R262). -/
def State.fenced (s : State) (c : Cmd) : List Cmd :=
  if blk c.head 16 0 8 = 0 then s.earlier c
  else (s.chan.cmds.takeWhile (fun d => decide (d.ref ≠ c.ref))).filter (fun d => decide (d.part = c.part ∧ d.queue = c.queue))

/-- QUEUE_FENCE (R262): every earlier command of its span has completed. -/
def execQueueFence (c : CmdRef) (s : State) : Host.Outcome State Fault Refusal :=
  match s.cmd c with
  | none => .next s
  | some x => if !s.up ∨ x.kind ≠ 10 ∨ !s.ready x ∨ s.fenced x ≠ [] then .next s else .next (s.setCmd { x with stage := .finished })

/-- INTERRUPT_HOLDOFF_EXPIRED (R278): an interrupt that became due is sent once, and a new holdoff begins. -/
def execInterruptHoldoffExpired (ch : Fin 3072) (s : State) : Host.Outcome State Fault Refusal :=
  let d := s.dyn ch
  if !d.holding then .next s
  else if d.irqDue then
    let s := s.sendChanIrq ch
    .next (s.setDyn ch { s.dyn ch with holding := decide (blk (s.entry ch) 39 0 8 ≠ 0), irqDue := false })
  else .next (s.setDyn ch { d with holding := false })

/-- The re-runs that a channel allows (R242). -/
def rerunLimit (e : BitVec 512) : Nat := if blk e 44 0 8 = 0 then 16 else blk e 44 0 8

/-- A killed command has left its arrays (R273): it completes as it was to, or re-runs, or has used up its re-runs. -/
def State.drained (s : State) (c : Cmd) (fin : Option (Nat × BitVec 32)) : State :=
  let s := (s.freeArrays c).settleBindings
  let c := { c with arrays := [], placement := none }
  match fin with
  | some (st, d) => s.finishCmd c st d
  | none =>
    if rerunLimit (s.entry c.ch) < c.reruns + 1 then s.finishCmd c 7 0
    else s.setCmd { c with
      stage := .fetched, killed := true, reruns := c.reruns + 1, started := false, launch := none, left := 0, counts := .zero
      build := none, buf := [], sent := 0, report := none, sealOverrun := false }

/-- KILL_DRAIN_COMPLETE (R101, R273). -/
def execKillDrainComplete (c : CmdRef) (s : State) : Host.Outcome State Fault Refusal :=
  match s.cmd c with
  | none => .next s
  | some x => (match x.stage with
    | .draining fin => if x.arrays.all (fun la => decide ((s.array la).cohorts = [] ∧ (s.array la).tq = [])) then .next (s.drained x fin).finishActions.scheduleAll else .next s
    | _ => .next s)

end Sys2Proof.Machine
end

