-- ==== Sys2Proof/Machine/Serving.lean ====
section
/-! DEFINITION. The step builder (10 R307-R314), and the writes that a command's engines make. -/

namespace Sys2Proof.Machine

/-! ### Writes of a command's engines -/

/-- What an engine's write comes to. -/
inductive PutGot
  | ok
  | fault (va : Nat)
  | poison (granule : Nat)
  deriving DecidableEq, Repr

/-- Sends a write to a line of another module (R219, R345). -/
def State.putRemote (s : State) (c : Cmd) (hint m off va : Nat) (b : List Byte) : State :=
  let q : HomeReq := ⟨s.mem.nextReq, 384, 0, 0, c.part, c.ref, .remote m, (2 ^ 53 + m * 2 ^ 41 + off) / 128,
    .write (placeBytes (off % 128) b) (byteMask (off % 128) b.length), hint, 4, .sent, none, .engine va⟩
  ({ s with mem := { s.mem with homeReqs := s.mem.homeReqs ++ [q], nextReq := s.mem.nextReq + 1 } }).markWrote c

/-- A write within one line; `po` marks granules as poisoned. -/
def State.putCut (s : State) (c : Cmd) (hint va : Nat) (b : List Byte) (po : BitVec 2) : PutGot × State :=
  let host : Bool := match s.locate c.part va true with
    | .host _ => true
    | _ => false
  match s.writeCut (s.chanCtx c.ch) hint va b po false c.engCls with
  | (.ok, s) => (.ok, if host then s.markWrote c else s)
  | (.remote m off _, s) => if s.hasStream c.part (BitVec.ofNat 12 m) then (.ok, s.putRemote c hint m off va b) else (.fault va, s)
  | (.poison g _, s) => (.poison g, s)
  | (.fault _ a, s) => (.fault a, s)
  | (.refused a, s) => (.fault a, s)

/-- A write over line-bounded parts; the first failure ends it. -/
def State.putCuts (s : State) (c : Cmd) (hint : Nat) : List (Nat × Nat) → List Byte → PutGot × State
  | [], _ => (.ok, s)
  | (a, k) :: t, b =>
    match s.putCut c hint a (b.take k) 0 with
    | (.ok, s) => State.putCuts s c hint t (b.drop k)
    | r => r

/-- A write of an engine at a virtual address. -/
def State.engPut (s : State) (c : Cmd) (hint va : Nat) (b : List Byte) : PutGot × State :=
  State.putCuts ((s.charge c.part (some c.ref) .engine 1).charge c.part (some c.ref) .memory b.length) c hint (lineCuts va b.length) b

/-! ### Entries and the pool (R308, R310) -/

/-- A little-endian field of a byte string. -/
def bytesNat (b : List Byte) (off n : Nat) : Nat := leNat ((b.drop off).take n)

/-- A sequence entry: its index and its bytes (R308). -/
structure SeqEntry where
  idx : Nat
  b : List Byte
  deriving DecidableEq, Repr

/-- STATE. -/
def SeqEntry.st (e : SeqEntry) : Nat := bytesNat e.b 0 1
/-- PRIORITY. -/
def SeqEntry.priority (e : SeqEntry) : Nat := bytesNat e.b 1 1 % 8
/-- PAUSE_REQUEST. -/
def SeqEntry.pauseRequest (e : SeqEntry) : Bool := (e.b.getD 2 0).getLsbD 0
/-- CANCEL. -/
def SeqEntry.cancel (e : SeqEntry) : Bool := (e.b.getD 2 0).getLsbD 1
/-- RESUME_STATE. -/
def SeqEntry.resumeState (e : SeqEntry) : Nat := bytesNat e.b 3 1 % 4
/-- POSITION. -/
def SeqEntry.position (e : SeqEntry) : Nat := bytesNat e.b 4 4
/-- PROMPT_LENGTH. -/
def SeqEntry.prompt (e : SeqEntry) : Nat := bytesNat e.b 8 4
/-- TOKEN_BUDGET. -/
def SeqEntry.budget (e : SeqEntry) : Nat := bytesNat e.b 12 2
/-- PAGES_HELD. -/
def SeqEntry.held (e : SeqEntry) : Nat := bytesNat e.b 32 4
/-- PAGE_LIST_LEN. -/
def SeqEntry.listLen (e : SeqEntry) : Nat := bytesNat e.b 36 4
/-- PAGE_LIST. -/
def SeqEntry.pageList (e : SeqEntry) : Nat := bytesNat e.b 40 8

/-- The builder walks entries of STATE 1-3. -/
def SeqEntry.walked (e : SeqEntry) : Bool := decide (1 ≤ e.st ∧ e.st ≤ 3)

/-- The STATE in which an entry goes on. -/
def SeqEntry.goesOn (e : SeqEntry) : Nat := if e.st = 3 then e.resumeState else e.st

/-- An entry holds a reserved encoding (R308, R311). -/
def SeqEntry.reserved (e : SeqEntry) : Bool :=
  decide (4 < e.st) || (e.walked && decide (8 ≤ bytesNat e.b 1 1 ∨ 4 ≤ bytesNat e.b 2 1 ∨ 32 ≤ bytesNat e.b 3 1 ∨ bytesNat e.b 14 2 ≠ 0
    ∨ bytesNat e.b 56 8 ≠ 0 ∨ (e.st = 3 ∧ (e.resumeState = 0 ∨ e.resumeState = 3))))

/-- A page pool control block as read (R310). -/
structure PoolBlock where
  freeList : Nat
  log2 : Nat
  head : BitVec 32
  tail : BitVec 32
  deriving DecidableEq, Repr

/-- The fields of a control block. -/
def poolBlock (b : List Byte) : PoolBlock := ⟨bytesNat b 0 8, bytesNat b 8 1, BitVec.ofNat 32 (bytesNat b 16 4), BitVec.ofNat 32 (bytesNat b 20 4)⟩

/-! ### The walk (R311) -/

/-- The builder's variables. -/
structure Walk where
  tokens : Nat
  pages : Nat
  short : Bool
  stop : Bool
  items : List (SeqEntry × StepItem)
  marks : List (Nat × StepMark)
  deriving DecidableEq, Repr

/-- One entry of the walk (R311), its figures in 32-bit arithmetic. -/
def Walk.visit (pageTokens : Nat) (w : Walk) (e : SeqEntry) : Walk :=
  if w.stop then w
  else if e.cancel ∨ e.pauseRequest then { w with marks := w.marks ++ [(e.idx, if e.cancel then .cancelled else .pauseRequest)] }
  else if w.tokens = 0 then { w with stop := true }
  else
    let st := e.goesOn
    let n := if st = 2 then 1 else min (min (BitVec.ofNat 32 e.prompt - BitVec.ofNat 32 e.position).toNat e.budget) w.tokens
    let need := (BitVec.ofNat 32 (ceilDiv (e.position + n) pageTokens) - BitVec.ofNat 32 e.held).toNat
    if e.listLen < (e.held + need) % 2 ^ 32 then { w with marks := w.marks ++ [(e.idx, .listFull)] }
    else if w.pages < need ∨ (w.short ∧ 0 < need) then { w with short := true, marks := w.marks ++ [(e.idx, .paused)] }
    else
      let kind := if st = 2 then 1 else 0
      let last := decide (st = 2) || decide (e.prompt ≤ e.position + n)
      { w with tokens := w.tokens - n, pages := w.pages - need, items := w.items ++ [(e, ⟨e.idx, kind, n, last, need⟩)] }

/-- The walk of R311: by descending PRIORITY, then ascending index. -/
def walkEntries (tokens pages pageTokens : Nat) (l : List SeqEntry) : Walk :=
  let l := l.filter SeqEntry.walked
  let order := (([7, 6, 5, 4, 3, 2, 1, 0] : List Nat).map (fun p => l.filter (fun e => decide (e.priority = p)))).flatten
  order.foldl (Walk.visit pageTokens) ⟨tokens, pages, false, false, [], []⟩

/-- The pages that items take before each. -/
def takenBefore : Nat → List (SeqEntry × StepItem) → List (Nat × SeqEntry × StepItem)
  | _, [] => []
  | k, (e, i) :: t => (k, e, i) :: takenBefore (k + i.need) t

/-- The work list (R312). -/
def workList (w : Walk) : List Byte :=
  let sum (f : StepItem → Nat) : Nat := (w.items.map (fun x => f x.2)).foldl (· + ·) 0
  leBytes 4 w.items.length ++ leBytes 4 (sum (·.tokens)) ++ leBytes 4 (sum (·.need)) ++ leBytes 4 ((w.marks.filter (fun m => decide (m.2 = .paused))).length)
    ++ List.replicate 48 0
    ++ (w.items.map (fun x => leBytes 4 x.2.entry ++ leBytes 4 x.1.position ++ leBytes 4 x.2.tokens ++ [BitVec.ofNat 8 x.2.kind, if x.2.last then 1 else 0, 0, 0]
      ++ leBytes 4 x.1.held ++ leBytes 4 x.2.need ++ leBytes 4 0xFFFFFFFF ++ [0, 0, 0, 0])).flatten

/-! ### The builder's accesses -/

/-- How the builder stops before the build is done: it waits for a read; the command ends with a status; poison. -/
inductive StepEnd
  | wait
  | ends (status : Nat)
  | poison (granule : Nat)
  deriving DecidableEq, Repr

/-- A read of the builder. -/
def State.stepRead (s : State) (c : Cmd) (va n : Nat) : Except StepEnd (List Byte) × State :=
  match s.engGet c 0 va n with
  | (.ok b, s) => (.ok b, s)
  | (.fault _ _, s) => (.error (.ends 0x24), s)
  | (.poison g _, s) => (.error (.poison g), s)
  | (.wait, s) => (.error .wait, s)

/-- Reads of the builder, in order. -/
def State.stepReads (s : State) (c : Cmd) : List (Nat × Nat) → Except StepEnd (List (List Byte)) × State
  | [] => (.ok [], s)
  | (va, n) :: t =>
    match s.stepRead c va n with
    | (.error x, s) => (.error x, s)
    | (.ok b, s) => match State.stepReads s c t with
      | (.error x, s) => (.error x, s)
      | (.ok l, s) => (.ok (b :: l), s)

/-- The blocks of a descriptor from its bytes. -/
def slotsOf (b : List Byte) : List (BitVec 512) := (List.range (b.length / 64)).map (fun i => BitVec.ofNat 512 (bytesNat b (64 * i) 64))

/-- The template: a LAUNCH descriptor with its extensions (R311, R312). -/
def State.stepTemplate (s : State) (c : Cmd) : Except StepEnd (List (BitVec 512)) × State :=
  let va := blk c.head 16 0 64
  match s.stepRead c va 64 with
  | (.error x, s) => (.error x, s)
  | (.ok h, s) =>
    let n := blk ((slotsOf h).headD 0) 2 0 3
    match s.stepRead c (va + 64) (64 * n) with
    | (.error x, s) => (.error x, s)
    | (.ok t, s) =>
      let l := slotsOf (h ++ t)
      (if blk (l.headD 0) 0 0 8 = 1 ∧ invalidAt l = none then .ok l else .error (.ends 0x24), s)

/-- What the builder found: the template, the pool, the walk and the pages it takes. -/
structure Built where
  template : List (BitVec 512)
  walk : Walk
  pages : List (List Byte)
  deriving DecidableEq, Repr

/-- The pages that the items take from the free list, in order (R310, R311). -/
def takenPages (p : PoolBlock) (w : Walk) : List (Nat × Nat) :=
  let n := (w.items.map (fun x => x.2.need)).foldl (· + ·) 0
  (List.range n).map (fun k => (p.freeList + 4 * ((p.head.toNat + k) % 2 ^ p.log2), 4))

/-- Reads all that the build rests on, and walks the entries (R311). -/
def State.stepBuild (s : State) (c : Cmd) : Except StepEnd Built × State :=
  let x := s.partition c.part
  let s := s.charge c.part (some c.ref) .builder 1
  let first := blk c.head 40 0 32
  let count := blk c.head 44 0 32
  if !x.serving ∨ x.seqCount < first + count then (.error (.ends 0x24), s) else
  match s.stepTemplate c with
  | (.error e, s) => (.error e, s)
  | (.ok template, s) =>
    if ({ c with launch := some template }).unfit then (.error (.ends 0x10), s) else
    match s.stepReads c [(x.pool.toNat, 64), (x.seqBase.toNat + 64 * first, 64 * count)] with
    | (.error e, s) => (.error e, s)
    | (.ok l, s) =>
      let pool := poolBlock (l.headD [])
      let seqs := (List.range count).map (fun i => (⟨first + i, ((l.getD 1 []).drop (64 * i)).take 64⟩ : SeqEntry))
      if pool.log2 < 4 ∨ 24 < pool.log2 ∨ seqs.any SeqEntry.reserved then (.error (.ends 0x24), s) else
      let w := walkEntries (blk c.head 32 0 32) (min (blk c.head 36 0 32) (pool.tail - pool.head).toNat) x.pageTokens seqs
      match s.stepReads c (takenPages pool w) with
      | (.error e, s) => (.error e, s)
      | (.ok pages, s) => (.ok ⟨template, w, pages⟩, s)

/-- The builder's writes: the work list, and each item's new pages (R311, R312). -/
def stepWrites (c : Cmd) (b : Built) : List (Nat × List Byte) :=
  (blk c.head 24 0 64, workList b.walk) ::
    (takenBefore 0 b.walk.items).map (fun x => (x.2.1.pageList + 4 * x.2.1.held, ((b.pages.drop x.1).take x.2.2.need).flatten))

/-- Writes a list of byte strings; the first failure ends it. -/
def State.putAll (s : State) (c : Cmd) (hint : Nat) : List (Nat × List Byte) → PutGot × State
  | [] => (.ok, s)
  | (va, b) :: t =>
    match s.engPut c hint va b with
    | (.ok, s) => State.putAll s c hint t
    | r => r

/-- The marks and items of a walk, as the command keeps them until its commit. -/
def Walk.build (w : Walk) : StepBuild := ⟨w.items.map (·.2), w.marks, (w.items.map (fun x => x.2.need)).foldl (· + ·) 0⟩

/-- A STEP that holds another back (R314): fetched before it, or building or built, with an overlapping range. -/
def State.stepHeld (s : State) (c : Cmd) : Bool :=
  let range (d : Cmd) : Nat × Nat := (blk d.head 40 0 32, blk d.head 44 0 32)
  s.chan.cmds.any (fun d => decide (d.kind = 2 ∧ d.ref ≠ c.ref ∧ d.part = c.part) && meet (range d) (range c) && (d.build.isSome || s.before d c))

/-- Ends the build of a STEP that cannot be made. -/
def State.stepEnds (s : State) (c : Cmd) : StepEnd → State
  | .wait => s
  | .ends st => (s.finishCmd c st 0).schedule c.part
  | .poison g => if s.isRefilling (g / 64) then s else ((s.poisonRead c.part g (unitId 3 14)).finishCmd c 0x50 0).schedule c.part

/-- STEP (R311, R312, R314): the builder builds the work list; then the template's kernel is scheduled, or, with no item, the
command is at its commit point. -/
def execStep (ref : CmdRef) (s : State) : Host.Outcome State Fault Refusal :=
  match s.cmd ref with
  | none => .next s
  | some c =>
    if !s.up ∨ c.kind ≠ 2 ∨ !s.ready c then .next s
    else if c.build.isSome then .next (s.schedule c.part)
    else if s.stepHeld c then .next s
    else match s.stepBuild c with
      | (.error e, s) => .next (s.stepEnds c e)
      | (.ok b, s) =>
        let writes := stepWrites c b
        if writes.any (fun x => s.rangeBusy c.part x.1 x.2.length) then .next s else
        match s.putAll c 0 writes with
        | (.fault _, s) => .next (s.stepEnds c (.ends 0x24))
        | (.poison g, s) => .next (s.stepEnds c (.poison g))
        | (.ok, s) =>
          let c := (s.cmd ref).getD c
          let s := s.setCmd { c with build := some b.walk.build, launch := some b.template, buf := [], stage := if b.walk.items = [] then .finished else c.stage }
          .next (s.schedule c.part)

end Sys2Proof.Machine
end

