-- ==== Sys2Proof/Machine/Remote.lean ====
section
/-! DEFINITION. Memory of other modules from the source's side (06 R200-R202, 07 R219, R220, 12 R346-R358), and the requests of
engines at their homes, of the pool and of other modules (06 R190, R196). -/

namespace Sys2Proof.Machine

/-! ### Frames (R346, R347) -/

/-- OPCODE. -/
def TxFrame.op (f : TxFrame) : Nat := field f.hdr 64 8
/-- The virtual channel. -/
def TxFrame.vc (f : TxFrame) : Nat := field f.hdr 32 2
/-- Hops left. -/
def TxFrame.hops (f : TxFrame) : Nat := field f.hdr 34 3
/-- The access hint. -/
def TxFrame.hint (f : TxFrame) : Nat := field f.hdr 72 2
/-- DEST_MODULE. -/
def TxFrame.dest (f : TxFrame) : BitVec 12 := bits f.hdr 80 12
/-- SRC_MODULE. -/
def TxFrame.src (f : TxFrame) : BitVec 12 := bits f.hdr 96 12
/-- STREAM. -/
def TxFrame.stream (f : TxFrame) : Nat := field f.hdr 112 16
/-- TAG. -/
def TxFrame.tag (f : TxFrame) : Nat := field f.hdr 128 16
/-- LENGTH + 1. -/
def TxFrame.len (f : TxFrame) : Nat := field f.hdr 144 9 + 1
/-- ADDRESS. -/
def TxFrame.addr (f : TxFrame) : Nat := field f.hdr 160 41
/-- STASH. -/
def TxFrame.stash (f : TxFrame) : BitVec 16 := bits f.hdr 208 16
/-- STATUS. -/
def TxFrame.status (f : TxFrame) : Nat := field f.hdr 224 8
/-- COUNTER. -/
def TxFrame.counter (f : TxFrame) : BitVec 64 := bits f.hdr 256 64

/-- The frame asks for something (R347). -/
def TxFrame.isRequest (f : TxFrame) : Bool := decide (f.op ≤ 4)

/-- The virtual channel of an opcode, with the payload's length for READ_DATA (R347). -/
def vcOf (op n : Nat) : Nat :=
  if op = 1 ∨ op = 2 then 0
  else if op = 3 ∨ (op = 0x10 ∧ 128 < n) then 2
  else if op = 0x10 ∨ op = 0x11 ∨ op = 0x12 then 1
  else 3

/-- What a frame says end to end. -/
structure FrameSpec where
  op : Nat
  hint : Nat
  dest : Nat
  tag : Nat
  len : Nat
  addr : Nat
  stash : Nat
  status : Nat
  deriving DecidableEq, Repr

/-- The header of an encrypted frame; the hop part has only its virtual channel yet (R346, R354). -/
def FrameSpec.header (x : FrameSpec) (src : BitVec 12) (stream : BitVec 10) (counter : BitVec 64) : BitVec 320 :=
  BitVec.ofNat 320 (vcOf x.op x.len <<< 32 + x.op <<< 64 + (x.hint + 4) <<< 72 + x.dest <<< 80 + src.toNat <<< 96
    + stream.toNat <<< 112 + x.tag <<< 128 + (x.len - 1) <<< 144 + x.addr <<< 160 + x.stash <<< 208 + x.status <<< 224
    + counter.toNat <<< 256)

/-- The transmit stream of a partition to a module, with its number (R354). -/
def State.txStream (s : State) (p : Fin 16) (m : BitVec 12) : Option (Nat × TxStream) :=
  (s.link.tx.filterMap (fun x => x.2.map (fun t => (x.1, t)))).find? (fun x => decide (x.2.part = p ∧ x.2.peer = m))

/-- Makes a frame of a partition: COUNTER rises by one (R354). None without a stream. -/
def State.makeFrame (s : State) (p : Fin 16) (x : FrameSpec) (payload : List Byte) : Option TxFrame × State :=
  match s.txStream p (BitVec.ofNat 12 x.dest) with
  | none => (none, s)
  | some (n, t) =>
    let t := { t with counter := t.counter + 1 }
    (some ⟨x.header s.link.number t.rx t.counter, payload⟩, { s with link := { s.link with tx := Tbl.set none s.link.tx n (some t) } })

/-! ### Credits (R302, R348) -/

/-- The receive buffers of a virtual channel. -/
def vcPool (vc : Nat) : Nat := [1024, 2048, 512, 256].getD vc 0

/-- A partition's floor of a pool. -/
def State.floorCredits (s : State) (p : Fin 16) (vc : Nat) : Nat := vcPool vc * (s.partition p).credits.getD vc 0 / 256

/-- Credits of a virtual channel that a partition, or none, holds. -/
def LinkPort.held (x : LinkPort) (vc : Nat) (o : Option (Fin 16)) : Nat := (x.spent.filter (fun c => decide (c = (vc, o)))).length

/-- The shared part of a pool has a credit left. -/
def State.sharedCredit (s : State) (x : LinkPort) (vc : Nat) : Bool :=
  let floors := (allParts.map (fun p => s.floorCredits p vc)).foldl (· + ·) 0
  let used := (allParts.map (fun p => x.held vc (some p) - s.floorCredits p vc)).foldl (· + ·) 0 + x.held vc none
  decide (floors + used < vcPool vc)

/-- A frame of an owner may be sent on a port: a credit is free, and the replay buffer has room (R302, R349). -/
def State.canSend (s : State) (n : Nat) (o : Option (Fin 16)) (vc : Nat) : Bool :=
  let x := s.lp n
  decide (x.replay.length < 4096) && ((match o with
    | some p => decide (x.held vc o < s.floorCredits p vc)
    | none => false) || s.sharedCredit x vc)

/-- Removes the n oldest credits spent on a virtual channel. -/
def dropCredits (vc : Nat) : Nat → List (Nat × Option (Fin 16)) → List (Nat × Option (Fin 16))
  | 0, l => l
  | _, [] => []
  | n + 1, c :: t => if c.1 = vc then dropCredits vc n t else c :: dropCredits vc (n + 1) t

/-- The credits of one virtual channel that the next frame of a port returns: how many, and which (R346). -/
def LinkPort.credits (x : LinkPort) : Nat × Nat :=
  match ([0, 1, 2, 3] : List Nat).find? (fun vc => decide (0 < Tbl.get 0 x.owed vc)) with
  | some vc => (min 255 (Tbl.get 0 x.owed vc), vc)
  | none => (0, 0)

/-- Puts a frame on a port: the hop part, the replay buffer and its credit (R346, R348, R349). CREDIT needs none. -/
def State.putOn (s : State) (n : Fin 12) (o : Option (Fin 16)) (f : TxFrame) : State :=
  let x := s.lp n.val
  let (c, vc) := x.credits
  let h := putField (putField (putField (putField f.hdr 0 16 x.txSeq.toNat) 16 16 (x.rxSeq - 1).toNat) 40 8 c) 48 8 vc
  let g : TxFrame := ⟨h, f.payload⟩
  let x := { x with
    txSeq := x.txSeq + 1
    replay := x.replay ++ [(x.txSeq, o, g)]
    spent := if f.op = 0x22 then x.spent else x.spent ++ [(f.vc, o)]
    owed := Tbl.set 0 x.owed vc (Tbl.get 0 x.owed vc - c) }
  (s.setLp n.val x).emit (.frame n g)

/-- Returns the credit of a frame that left the receive buffer (R348): in a CREDIT frame at once, or later, when the replay
buffer is full. -/
def State.giveCredit (s : State) (n : Fin 12) (vc : Nat) : State :=
  let x := s.lp n.val
  let s := s.setLp n.val { x with owed := Tbl.set 0 x.owed vc (Tbl.get 0 x.owed vc + 1) }
  if x.mode = .up ∧ x.replay.length < 4096 then s.putOn n none ⟨BitVec.ofNat 320 (3 <<< 32 + 0x22 <<< 64), []⟩ else s

/-! ### Routing (R350, R352) -/

/-- The route entry of a module. -/
def State.route (s : State) (m : BitVec 12) : RouteEntry := Tbl.get ⟨0, 1, none⟩ s.link.routes m.toNat

/-- Replaces a route entry. -/
def State.setRoute (s : State) (m : BitVec 12) (r : RouteEntry) : State :=
  { s with link := { s.link with routes := Tbl.set ⟨0, 1, none⟩ s.link.routes m.toNat r } }

/-- The ports of a mask that are up, ascending. -/
def State.upPorts (s : State) (mask : BitVec 12) : List Nat := (List.range 12).filter (fun n => mask.getLsbD n && decide ((s.lp n).mode = .up))

/-- The ports to which REMOTE_COPY restricts its request frames (R359). -/
def State.copyMask (s : State) (f : TxFrame) : BitVec 12 :=
  if f.isRequest ∧ f.src = s.link.number then
    match s.link.reqs.find? (fun q => decide (q.tag = f.tag)) with
    | some q => (match q.use with
      | .copy c _ => (match s.cmd c with
        | some x => if x.kind ≠ 8 ∨ blk x.head 42 0 12 = 0 then BitVec.allOnes 12 else BitVec.ofNat 12 (blk x.head 42 0 12)
        | none => BitVec.allOnes 12)
      | _ => BitVec.allOnes 12)
    | none => BitVec.allOnes 12
  else BitVec.allOnes 12

/-- The partition whose credits a frame takes; forwarded frames use the shared part. -/
def FrameOwner.credit : FrameOwner → Option (Fin 16)
  | .part p => some p
  | .forwarded _ => none

/-- What becomes of a frame that is to be sent. -/
inductive Onward | gone | wait | go (n : Fin 12)
  deriving DecidableEq, Repr

/-- A port number as a port. -/
def toLp (n : Nat) : Fin 12 := ⟨n % 12, Nat.mod_lt _ (by decide)⟩

/-- The port by which a frame leaves (R350): by hash of its line, or, on the bulk channel, the first with a credit. Requests
not yet sent wait for a route change (R352). -/
def State.onward (s : State) (o : FrameOwner) (f : TxFrame) : Onward :=
  let r := s.route f.dest
  let own : Bool := match o with
    | .part _ => true
    | _ => false
  if own ∧ f.isRequest ∧ r.pending.isSome ∧ s.link.reqs.any (fun q => decide (q.tag = f.tag) && q.lp.isNone) then .wait
  else match s.upPorts (r.mask &&& s.copyMask f) with
    | [] => .gone
    | p :: t =>
      let ports := p :: t
      if f.vc = 2 then (match ports.find? (fun n => s.canSend n o.credit 2) with
        | some n => .go (toLp n)
        | none => .wait)
      else
        let n := ports.getD (f.addr / 128 % 65521 % ports.length) p
        if s.canSend n o.credit f.vc then .go (toLp n) else .wait

/-- A frame goes out: the hop count of a frame of this module comes from the route; a forwarded one leaves its receive
buffer. -/
def State.sendFrame (s : State) (n : Fin 12) (o : FrameOwner) (f : TxFrame) : State :=
  match o with
  | .part p =>
    let s := s.putOn n (some p) ⟨putField f.hdr 34 3 (s.route f.dest).hops, f.payload⟩
    if f.isRequest then { s with link := { s.link with reqs := s.link.reqs.map (fun q => if q.tag = f.tag then { q with lp := some n } else q) } } else s
  | .forwarded held =>
    let s := s.putOn n none f
    match held with
    | some k => s.giveCredit k f.vc
    | none => s

/-- A frame that no port can carry is not sent; a request of this module then fails, by its tag. -/
def State.frameGone (s : State) (o : FrameOwner) (f : TxFrame) : Option Nat × State :=
  match o with
  | .part _ => (if f.isRequest then some f.tag else none, s)
  | .forwarded held => (none, match held with
    | some k => s.giveCredit k f.vc
    | none => s)

/-- Sends what can be sent of the frames that wait, in order: the tags of requests that no port can carry. -/
def State.drain (s : State) : List Nat × State :=
  let l := s.link.waiting
  let s := { s with link := { s.link with waiting := [] } }
  l.foldl (fun (x : List Nat × State) w =>
    let (gone, s) := x
    match s.onward w.1 w.2 with
    | .go n => (gone, s.sendFrame n w.1 w.2)
    | .wait => (gone, { s with link := { s.link with waiting := s.link.waiting ++ [w] } })
    | .gone =>
      let (t, s) := s.frameGone w.1 w.2
      (gone ++ t.toList, s)) ([], s)

/-! ### Failure of remote requests (R357, R358) -/

/-- Why a remote request failed. -/
inductive RemoteFail | unreachable | status (n : Nat) | timeout
  deriving DecidableEq, Repr

/-- Drops a remote request. -/
def State.dropRemote (s : State) (tag : Nat) : State :=
  { s with link := { s.link with reqs := s.link.reqs.filter (fun q => decide (q.tag ≠ tag)) } }

/-- A home request of which no frame is outstanding any more is complete. -/
def State.settleHome (s : State) (id : Nat) : State :=
  if s.link.reqs.any (fun q => match q.use with | .home i _ => decide (i = id) | _ => false) then s else s.dropReq id

/-- The system line of a local offset at a module (R200, R344). -/
def remoteLine (m off : Nat) : Nat := (2 ^ 53 + m * 2 ^ 41 + off) / 128

/-- Drops a partition's copies of the lines of a range at another module (R202). -/
def State.dropCopies (s : State) (p : Fin 16) (m off n : Nat) : State :=
  let lo := remoteLine m off
  let hi := remoteLine m (off + n - 1)
  { s with mem := { s.mem with llc := s.mem.llc.filter (fun l => !(l.remote.isSome && decide (l.owner = p ∧ lo ≤ l.line ∧ l.line ≤ hi))) } }

/-- Kills the command whose remote write or atomic failed (R358): at its commit point it cannot commit any more. -/
def State.remoteKill (s : State) (c : Cmd) (why : RemoteFail) : State :=
  let c := if c.stage = .finished then { c with stage := .running } else c
  let s := s.setCmd c
  let s := match why with
    | .unreachable => s.endCmd c 0x40 0
    | .status 1 => s.endCmd c 0x41 0
    | _ => s.killRerun c
  (s.settleErrors c.ch).finishActions.schedule c.part

/-- The POISON_READ of data that another module did not deliver (R357, R400). -/
def State.remotePoison (s : State) (q : RemoteReq) (lp : Option (Fin 12)) : State :=
  let reporter : BitVec 16 := match q.use with
    | .home id _ => (match s.homeReq id with
      | some r => if r.la < 384 then unitId 1 ((s.slotOf r.la).getD 0) else unitId 3 14
      | none => unitId 3 14)
    | _ => unitId 3 14
  let unit : BitVec 16 := match lp with
    | some n => unitId 8 n.val
    | none => unitId 3 14
  s.report ⟨0x0026, unit, partBit q.part, 0xFFFF, reporter, 0, BitVec.ofNat 64 (q.module.toNat * 2 ^ 41 + q.addr.toNat / 128 * 128)⟩

/-- A remote request fails (R357, R358). -/
def State.failRemote (s : State) (q : RemoteReq) (why : RemoteFail) (lp : Option (Fin 12)) : State :=
  let s := s.dropRemote q.tag
  let s := if why = .timeout then
      s.report { mkReport 0x0076 (match lp with | some n => unitId 8 n.val | none => unitId 3 14) 0 with parts := partBit q.part }
    else s
  if q.write || q.atomic then
    let s := s.dropCopies q.part q.module.toNat q.addr.toNat q.len
    let s := match q.use with
      | .home id _ => s.settleHome id
      | _ => s
    match q.cmd with
    | some c => (match s.cmd c with
      | some x => s.remoteKill x why
      | none => s)
    | none => s
  else
    let s := s.remotePoison q lp
    match q.use with
    | .home id _ => (match s.homeReq id with
      | some r => (s.dropReq id).deliver r .poison
      | none => s)
    | .copy c _ => (match s.cmd c with
      | some x => (s.endCmd x 0x42 0).schedule x.part
      | none => s)

/-- Applies the route changes that nothing holds up any more (R352). -/
def State.settleRoutes (s : State) : State :=
  { s with link := { s.link with routes := s.link.routes.map (fun (x : Nat × RouteEntry) => match x.2.pending with
    | some (mask, hops) =>
      if s.link.reqs.any (fun q => q.write && q.lp.isSome && decide (q.module.toNat = x.1)) then x else (x.1, ⟨mask, hops, none⟩)
    | none => x) } }

/-- Fails the requests that no port can carry. -/
def State.failGone (s : State) (l : List Nat) : State :=
  l.foldl (fun s t => match s.link.reqs.find? (fun q => decide (q.tag = t)) with
    | some q => s.failRemote q .unreachable none
    | none => s) s

/-- Route changes take effect and waiting frames go, after whatever frees the way. -/
def State.pump (s : State) : State :=
  let (gone, s) := s.settleRoutes.drain
  s.failGone gone

/-- Sends a frame, or lets it wait. -/
def State.post (s : State) (o : FrameOwner) (f : TxFrame) : State :=
  ({ s with link := { s.link with waiting := s.link.waiting ++ [(o, f)] } }).pump

/-! ### Requests to other modules -/

/-- The lowest free tag (R348). -/
def State.freeTag (s : State) : Option Nat :=
  (List.range (min 16384 (s.link.reqs.length + 1))).find? (fun t => s.link.reqs.all (fun q => decide (q.tag ≠ t)))

/-- Sends one request frame of a partition under a free tag: none without a stream or a tag. -/
def State.ask (s : State) (q : RemoteReq) (x : FrameSpec) (payload : List Byte) : Option State :=
  match s.freeTag with
  | none => none
  | some t =>
    match s.makeFrame q.part { x with tag := t } payload with
    | (none, _) => none
    | (some f, s) =>
      some (({ s with link := { s.link with reqs := s.link.reqs ++ [{ q with tag := t, born := s.mem.nextReq }] } }).post (.part q.part) f)

/-- A write of a partition to a line of another module awaits its acknowledgement (R219). -/
def State.awaitsAck (s : State) (p : Fin 16) (line : Nat) : Bool :=
  s.link.reqs.any (fun q => (q.write || q.atomic) && decide (q.part = p)
    && decide (remoteLine q.module.toNat q.addr.toNat ≤ line ∧ line ≤ remoteLine q.module.toNat (q.addr.toNat + q.len - 1)))

/-- Reads under way no longer fill a copy of a line that their partition writes meanwhile. -/
def State.spoilReads (s : State) (p : Fin 16) (line : Nat) : State :=
  { s with link := { s.link with reqs := s.link.reqs.map (fun q =>
    if !q.write ∧ q.part = p ∧ remoteLine q.module.toNat q.addr.toNat = line then { q with epoch := none } else q) } }

/-- A remote request of a home request. -/
def HomeReq.remote (r : HomeReq) (m off n : Nat) (write atomic : Bool) (epoch : Option (BitVec 16)) (lane : Nat) : RemoteReq :=
  ⟨0, BitVec.ofNat 12 m, r.part, some r.cmd, write, atomic, BitVec.ofNat 41 off, n, r.hint, none, epoch, .home r.id lane, 0⟩

/-- The local offset of a Remote line's first byte. -/
def lineOff (line : Nat) : Nat := line % 2 ^ 34 * 128

/-- Marks a home request as handed to the link. -/
def State.handOver (s : State) (r : HomeReq) : State := s.setReq { r with stage := .handling, tag := some 0 }

/-- A request whose partition has no stream to the module any more: a load faults, a write fails. -/
def State.noStream (s : State) (r : HomeReq) : State :=
  if r.op = .rdOnce then s.refuseReq r
  else
    let s := s.dropReq r.id
    match s.cmd r.cmd with
    | some c => s.remoteKill c .timeout
    | none => s

/-- The frames of a write, one for each run of bytes: offset in the line and bytes. -/
def writeRuns (d : Line) (m : BitVec 128) : List (Nat × List Byte) := (maskRuns m).map (fun q => (q.1, lineBytes d q.1 q.2))

/-- The ATOMIC frame of one lane: OP, SIZE, operand, and the swap value of CAS (R347). -/
def atomicPayload (op size : Nat) (v w : Word) (cas : Bool) : List Byte :=
  [BitVec.ofNat 8 op, BitVec.ofNat 8 size, 0, 0, 0, 0, 0, 0] ++ leBytes 8 v.toNat ++ (if cas then leBytes 8 w.toNat else [])

/-- The class 0x9 OP of an atomic. -/
def atomicCode : AtomicOp → Nat
  | .add => 0 | .min => 1 | .max => 2 | .and => 3 | .or => 4 | .xor => 5 | .exch => 6 | .cas => 7

/-- The class 0x9 OP of a RED form. -/
def redCode : RedOp → Nat
  | .add => 0x10 | .min => 0x11 | .max => 0x12 | .and => 0x13 | .or => 0x14 | .xor => 0x15

/-- The frames that a request sends: offset in the line, bytes named, opcode, payload, and the lane it answers. -/
def HomeOp.frames : HomeOp → List (Nat × Nat × Nat × List Byte × Nat)
  | .rdOnce => [(0, 128, 1, [], 0)]
  | .write d m => (writeRuns d m).map (fun x => (x.1, x.2.length, 2, x.2, 0))
  | .atomic op size lanes => lanes.map (fun x => (x.2.1, elemBits size / 8, 4, atomicPayload (atomicCode op) size x.2.2.1 x.2.2.2 (decide (op = .cas)), x.1))
  | .red op size lanes => lanes.map (fun x => (x.2.1, elemBits size / 8, 4, atomicPayload (redCode op) size x.2.2 0 false, x.1))
  | .discard => []

/-- Sends the frames of a request to another module. -/
def State.sendFrames (s : State) (r : HomeReq) (m : Nat) : State :=
  let epoch : BitVec 16 := Tbl.get 0 s.mem.epoch r.part.val
  let w := match r.op with
    | .write _ _ => true
    | _ => false
  State.settleHome (id := r.id) <| r.op.frames.foldl (fun s x =>
    let (off, n, op, payload, lane) := x
    let a := lineOff r.line + off
    let q := r.remote m a n w (decide (op = 4)) (some epoch) lane
    (s.ask q ⟨op, r.hint, m, 0, if op = 4 then payload.length else n, a, 0, 0⟩ payload).getD s) s

/-- The slice takes a request to a line of another module (R200-R202, R219): a hit of the partition's copy is served, and the
rest goes over the link. -/
def State.takeRemote (s : State) (r : HomeReq) (m : Nat) : State :=
  if r.stage ≠ .sent then s
  else if !s.hasStream r.part (BitVec.ofNat 12 m) then s.noStream r
  else if (match r.op with | .write _ _ => false | _ => true) && s.awaitsAck r.part r.line then s
  else if 16384 < s.link.reqs.length + r.op.frames.length then s
  else match r.op with
    | .rdOnce => (match s.remoteFind r.part r.line with
      | some l => ((s.llcHit r.part l r.hint).dropReq r.id).deliver r (.data l.data l.poison)
      | none => (s.handOver r).sendFrames r m)
    | .write d msk =>
      let s := match s.remoteFind r.part r.line with
        | some l => s.llcPut { l with data := mergeLine l.data d msk }
        | none => s
      ((s.spoilReads r.part r.line).handOver r).sendFrames r m
    | .discard => (s.dropCopies r.part m (lineOff r.line) 128).dropReq r.id
    | _ => (((s.dropCopies r.part m (lineOff r.line) 128).spoilReads r.part r.line).handOver r).sendFrames r m

/-! ### The rows of the home (R190, R196, R185) -/

/-- An earlier request of the same engine to the line, of which one writes, is still under way: requests of one engine to
one line are taken in order. One to another module is under way until it is answered, so that no later write of the engine
overtakes it (R219). -/
def State.behind (s : State) (r : HomeReq) : Bool :=
  (s.mem.homeReqs.takeWhile (fun x => decide (x.id ≠ r.id))).any (fun e =>
    decide (e.la = r.la ∧ e.line = r.line ∧ e.place = r.place ∧ (r.la < 384 ∨ e.cmd = r.cmd) ∧ (e.stage = .sent ∨ r.place ≠ .pool)) && (e.op.writes || r.op.writes))

/-- A request is taken where its line lives. -/
def State.takeHome (s : State) (id : Nat) (kind : HomeOp → Bool) : State :=
  match s.homeReq id with
  | none => s
  | some r =>
    if !s.up || !kind r.op || s.behind r then s else
    match r.place with
    | .pool => s.takeReq' r
    | .remote m => s.takeRemote r m

/-- An ECC event at a lookup of a Remote line, which is always clean (R394, R200). -/
def State.remoteEcc (s : State) (p : Fin 16) (line : Nat) (e : TagEcc) : State :=
  match s.remoteFind p line, e with
  | none, _ => s
  | some _, .none => s
  | some l, .corrected => s.report (mkReport 0x0030 (unitId 5 l.slice) 0)
  | some l, .dataDouble _ => (s.llcDrop l).report (mkReport 0x0030 (unitId 5 l.slice) 0)
  | some l, .tagDouble =>
    let s := s.llcDrop l
    ({ s with mem := { s.mem with deadWays := (l.slice, l.set, l.way) :: s.mem.deadWays } }).report (mkReport 0x0031 (unitId 5 l.slice) 0)

/-- RD_ONCE (R190): the home serves a non-caching read; of another module's line, the slice (R200, R219). -/
def execRdOnce (req : Nat) (ecc : TagEcc) (s : State) : Host.Outcome State Fault Refusal :=
  let s : State := match s.homeReq req with
    | some (r : HomeReq) => if !s.up ∨ r.op ≠ .rdOnce ∨ r.stage ≠ .sent ∨ s.behind r then s else
      (match r.place with
        | .pool => if s.txnBusy r.line then s else s.tagEvent r.line ecc
        | .remote _ => s.remoteEcc r.part r.line ecc)
    | none => s
  .next (s.takeHome req (fun o => decide (o = HomeOp.rdOnce)))

/-- WR_FULL (R190, R202). -/
def execWrFull (req : Nat) (s : State) : Host.Outcome State Fault Refusal :=
  .next (s.takeHome req (fun o => match o with | .write _ m => decide (m = BitVec.allOnes 128) | _ => false))

/-- WR_PART (R190, R202). -/
def execWrPart (req : Nat) (s : State) : Host.Outcome State Fault Refusal :=
  .next (s.takeHome req (fun o => match o with | .write _ m => decide (m ≠ BitVec.allOnes 128) | _ => false))

/-- HOME_ATOMIC (R190, R196, R202). -/
def execHomeAtomic (req : Nat) (s : State) : Host.Outcome State Fault Refusal :=
  .next (s.takeHome req (fun o => match o with | .atomic _ _ _ => true | _ => false))

/-- HOME_RED (R166, R190, R202). -/
def execHomeRed (req : Nat) (s : State) : Host.Outcome State Fault Refusal :=
  .next (s.takeHome req (fun o => match o with | .red _ _ _ => true | _ => false))

/-- DISCARD (R185). -/
def execDiscard (req : Nat) (s : State) : Host.Outcome State Fault Refusal := .next (s.takeHome req (fun o => decide (o = HomeOp.discard)))

/-! ### Frames received (R346-R349, R351, R355) -/

/-- A frame as received. -/
def rxFrame (f : Frame) : TxFrame := ⟨f.hdr, f.payload⟩

/-- Reserved bits of the header are zero. -/
def TxFrame.reservedClear (f : TxFrame) : Bool :=
  ([(37, 3), (50, 14), (75, 5), (92, 4), (108, 4), (122, 6), (142, 2), (153, 7), (201, 7), (232, 24)] : List (Nat × Nat)).all
    (fun x => decide (field f.hdr x.1 x.2 = 0))

/-- The frame uses no reserved encoding: its opcode, channel, STATUS and range are as R346 and R347 lay them out. -/
def TxFrame.wellFormed (f : TxFrame) : Bool :=
  let oneLine (n : Nat) : Bool := decide (f.addr % 128 + n ≤ 128)
  let range : Bool := match f.op with
    | 1 => oneLine f.len || decide (f.addr % 128 = 0)
    | 2 => oneLine f.len
    | 3 => decide (f.addr % 128 = 0)
    | 4 => decide (f.len = 16 ∨ f.len = 24)
    | _ => true
  f.reservedClear && decide (f.op ∈ ([1, 2, 3, 4, 0x10, 0x11, 0x12] : List Nat)) && decide (f.vc = vcOf f.op f.len)
    && (if f.isRequest then decide (f.status = 0) else decide (f.status ≤ 3)) && range

/-- HOP_ACK frees the frames up to the one it names (R349). -/
def ackReplay (l : List (BitVec 16 × Option (Fin 16) × TxFrame)) (ack : BitVec 16) : List (BitVec 16 × Option (Fin 16) × TxFrame) :=
  if l.any (fun x => decide (x.1 = ack)) then (l.dropWhile (fun x => decide (x.1 ≠ ack))).tail else l

/-- A frame is the next of its port: taken as far as the hop goes. None when it is discarded (R349). -/
def State.hopTake (s : State) (n : Fin 12) (f : Frame) : Option State :=
  let x := s.lp n.val
  if x.mode ≠ .up ∨ !f.intact ∨ bits f.hdr 0 16 ≠ x.rxSeq then none
  else some (s.setLp n.val { x with
    rxSeq := x.rxSeq + 1
    replay := ackReplay x.replay (bits f.hdr 16 16)
    spent := dropCredits (field f.hdr 48 2) (field f.hdr 40 8) x.spent })

/-- A frame that cannot be corrected is counted and discarded (R349). -/
def State.hopLost (s : State) (n : Fin 12) (f : Frame) : State :=
  let x := s.lp n.val
  if x.mode ≠ .up ∨ f.intact then s
  else s.setLp n.val { x with uncorrected := if x.uncorrected = BitVec.allOnes 16 then x.uncorrected else x.uncorrected + 1 }

/-- REMOTE_FRAME_INVALID (R361). -/
def State.frameInvalid (s : State) (n : Fin 12) : State := s.report (mkReport 0x0075 (unitId 8 n.val) 0)

/-- The stream closes: its partition is told at once (R355, R465). -/
def State.streamClosed (s : State) (n : Fin 12) (k : Nat) (r : RxStream) : State :=
  (s.closePair r.peer r.part r.peerPart).postEvent r.part 0x0010 (leBytes 2 0x0074 ++ [26, 0] ++ leBytes 2 (unitId 8 n.val).toNat
    ++ leBytes 2 0xFFFF ++ leBytes 4 (2 ^ 31 + k) ++ leBytes 4 0 ++ leBytes 8 0 ++ leBytes 2 1)

/-- REMOTE_AUTH_FAILED, counted on the stream that the frame names, if it is the source's (R355). -/
def State.authFailed (s : State) (n : Fin 12) (f : TxFrame) : State :=
  let s := s.report (mkReport 0x0074 (unitId 8 n.val) 0)
  match Tbl.get none s.link.rx f.stream with
  | none => s
  | some r =>
    if r.peer ≠ f.src then s
    else if 15 ≤ r.failures then s.streamClosed n f.stream r
    else { s with link := { s.link with rx := Tbl.set none s.link.rx f.stream (some { r with failures := r.failures + 1 }) } }

/-- The window after a COUNTER: none when it was seen, or lies below the window. -/
def RxStream.window (r : RxStream) (c : BitVec 64) : Option RxStream :=
  if r.highest.toNat < c.toNat then some { r with highest := c, seen := (r.seen <<< (c.toNat - r.highest.toNat)) ||| 1 }
  else
    let d := r.highest.toNat - c.toNat
    if 4096 ≤ d ∨ r.seen.getLsbD d then none else some { r with seen := r.seen ||| (1 <<< d) }

/-- The checks of R355 on a frame for this module: the stream whose frame it is, or none when it is discarded. -/
def State.checkFrame (s : State) (n : Fin 12) (f : Frame) : Option RxStream × State :=
  let x := (rxFrame f)
  match Tbl.get none s.link.rx x.stream with
  | none => (none, s.authFailed n x)
  | some r =>
    if r.peer ≠ x.src ∨ !f.tagOk ∨ !f.hdr.getLsbD 74 then (none, s.authFailed n x)
    else match r.window x.counter with
      | some r => (some r, { s with link := { s.link with rx := Tbl.set none s.link.rx x.stream (some r) } })
      | none =>
        if 4096 ≤ r.highest.toNat - x.counter.toNat then (none, s.authFailed n x)
        else (none, { s with link := { s.link with rx := Tbl.set none s.link.rx x.stream (some { r with duplicates := r.duplicates + 1 }) } })

/-- A frame for another module is forwarded with one hop less (R351). -/
def State.forward (s : State) (n : Fin 12) (f : TxFrame) : State :=
  if f.hops = 0 then (s.frameInvalid n).giveCredit n f.vc
  else s.post (.forwarded (some n)) ⟨putField f.hdr 34 3 (f.hops - 1), f.payload⟩

/-- A frame of one kind is received (R346-R351, R355): what it does here is `go`, once its stream is known. `ready` says
whether what it touches is free. -/
def State.receive (s : State) (n : Fin 12) (op : Nat) (f : Frame) (ready : Bool) (go : RxStream → State → State) : State :=
  let x := (rxFrame f)
  if !s.up then s
  else match s.hopTake n f with
    | none => s.hopLost n f
    | some t =>
      if x.dest ≠ s.link.number then (if x.wellFormed then t.forward n x else (t.frameInvalid n).giveCredit n x.vc).pump
      else if !x.wellFormed then ((t.frameInvalid n).giveCredit n x.vc).pump
      else if x.op ≠ op ∨ !ready then s
      else
        let (r, t) := t.checkFrame n f
        let t := match r with
          | some r => go r t
          | none => t
        (t.giveCredit n x.vc).pump

/-! ### Responses (R357, R358) -/

/-- Adds a lane's old value to a part of an atomic. -/
def LoadOp.addOld (o : LoadOp) (id lane : Nat) (v : Word) : LoadOp :=
  { o with parts := o.parts.map (fun q => if q.req = id then { q with result := some (.olds ((match q.result with
    | some (.olds l) => l
    | _ => []) ++ [(lane, v)])) } else q) }

/-- An old value comes back to one lane of a group's atomic. -/
def State.addOld (s : State) (la cohort : Nat) (group : Fin 16) (id lane : Nat) (v : Word) : State :=
  let a := s.array la
  let hit (g : Group) : Bool := decide (g.cohort = cohort ∧ g.num = group)
  s.setArray la { a with groups := a.groups.map (fun g => if hit g then { g with loads := g.loads.map (fun o => o.addOld id lane v) } else g) }

/-- The request that a response answers. -/
def State.answered (s : State) (r : RxStream) (f : TxFrame) : Option RemoteReq :=
  s.link.reqs.find? (fun q => decide (q.tag = f.tag ∧ q.module = f.src ∧ q.part = r.part) && q.lp.isSome)

/-- A line that came back may be cached as Remote (R200, R357). -/
def State.fillRemote (s : State) (q : RemoteReq) (line : Nat) (d : Line) : State :=
  if q.epoch = some (Tbl.get 0 s.mem.epoch q.part.val) ∧ (s.remoteFind q.part line).isNone then
    (s.llcAlloc q.part line q.hint true false .clean d 0).2
  else s

/-- The pool lines that pulled data is written to are free. -/
def State.pullReady (s : State) (f : TxFrame) : Bool :=
  match s.link.reqs.find? (fun q => decide (q.tag = f.tag)) with
  | some q => (match q.use with
    | .copy _ va => !s.rangeBusy q.part va q.len
    | _ => true)
  | none => true

/-- A copy engine writes what it pulled (R359). -/
def State.pulled (s : State) (c : CmdRef) (va : Nat) (b : List Byte) : State :=
  match s.cmd c with
  | none => s
  | some x =>
    if x.stage ≠ .running then s else
    match s.engPut x 0 va b with
    | (.ok, s) => s
    | (.fault a, s) => (s.endCmd x 8 (BitVec.ofNat 32 (a % 65536))).schedule x.part
    | (.poison g, s) => s.consumePoison x g (unitId 3 14)

/-- READ_DATA (R357). -/
def execReadData (lp : Fin 12) (f : Frame) (s : State) : Host.Outcome State Fault Refusal :=
  .next (s.receive lp 0x10 f (s.pullReady (rxFrame f)) (fun r s =>
    match s.answered r (rxFrame f) with
    | none => s
    | some q =>
      if q.write || q.atomic then s
      else if (rxFrame f).status ≠ 0 then s.failRemote q (.status (rxFrame f).status) (some lp)
      else
        let s := s.dropRemote q.tag
        match q.use with
        | .home id _ => (match s.homeReq id with
          | some h =>
            let d := placeBytes 0 f.payload
            ((s.fillRemote q h.line d).dropReq id).deliver h (.data d 0)
          | none => s)
        | .copy c va => s.pulled c va (f.payload.take q.len)))

/-- WRITE_ACK (R347, R352, R357, R358). -/
def execWriteAck (lp : Fin 12) (f : Frame) (s : State) : Host.Outcome State Fault Refusal :=
  .next (s.receive lp 0x11 f true (fun r s =>
    match s.answered r (rxFrame f) with
    | none => s
    | some q =>
      if !q.write then s
      else if (rxFrame f).status ≠ 0 then s.failRemote q (.status (rxFrame f).status) (some lp)
      else match q.use with
        | .home id _ => (s.dropRemote q.tag).settleHome id
        | .copy _ _ => s.dropRemote q.tag))

/-- ATOMIC_DATA (R357, R358). -/
def execAtomicData (lp : Fin 12) (f : Frame) (s : State) : Host.Outcome State Fault Refusal :=
  .next (s.receive lp 0x12 f true (fun r s =>
    match s.answered r (rxFrame f) with
    | none => s
    | some q =>
      if !q.atomic then s
      else if (rxFrame f).status ≠ 0 then s.failRemote q (.status (rxFrame f).status) (some lp)
      else match q.use with
        | .home id lane =>
          let s := match s.homeReq id with
            | some h => (match h.op with
              | .atomic _ _ _ => s.addOld h.la h.cohort h.group id lane (BitVec.ofNat 64 (leNat (f.payload.take q.len)))
              | .red _ _ _ => s.addOld h.la h.cohort h.group id lane 0
              | _ => s)
            | none => s
          (s.dropRemote q.tag).settleHome id
        | .copy _ _ => s.dropRemote q.tag))

/-- REMOTE_TIMEOUT (R358): no response within 10 ms of sending. -/
def execRemoteTimeout (tag : Fin 16384) (s : State) : Host.Outcome State Fault Refusal :=
  match s.link.reqs.find? (fun q => decide (q.tag = tag.val)) with
  | none => .next s
  | some q => if !s.up ∨ q.lp.isNone then .next s else .next (s.failRemote q .timeout q.lp).pump

/-- CREDIT (R348): a CREDIT frame returns credits. -/
def execCredit (lp : Fin 12) (vc : Fin 4) (n : Byte) (s : State) : Host.Outcome State Fault Refusal :=
  let x := s.lp lp.val
  if !s.up ∨ x.mode ≠ .up then .next s
  else .next (s.setLp lp.val { x with rxSeq := x.rxSeq + 1, spent := dropCredits vc.val n.toNat x.spent }).pump

/-- HOP_REPLAY_TIMEOUT (R349): the sender replays from the first frame not acknowledged. -/
def execHopReplayTimeout (lp : Fin 12) (s : State) : Host.Outcome State Fault Refusal :=
  let x := s.lp lp.val
  if !s.up ∨ x.mode ≠ .up ∨ x.replay = [] then .next s else
  let s := s.setLp lp.val { x with replays := if x.replays = BitVec.allOnes 16 then x.replays else x.replays + 1 }
  .next (x.replay.foldl (fun s y => s.emit (.frame lp y.2.2)) s)

/-- A write of LNK_ROUTE_ENTRY (R352, R362): HOPS keeps its value under a reserved one (R8). -/
def State.writeRoute (s : State) (port : Fin 2) (v : Word) : State :=
  let m := (s.port port).routeSelect
  let r := s.route m
  let old := (r.pending.map (·.2)).getD r.hops
  let hops := if 1 ≤ field v 16 3 ∧ field v 16 3 ≤ 4 then field v 16 3 else old
  (s.setRoute m { r with pending := some (bits v 0 12, hops) }).pump

/-- LNK_ROUTE_ENTRY (R352, R362). -/
def execLnkRouteEntry (port : Fin 2) (v : Word) (s : State) : Host.Outcome State Fault Refusal :=
  .next (if s.barServes port 0 then s.writeRoute port v else s)

end Sys2Proof.Machine
end

