-- ==== Sys2Proof/Machine/Engines.lean ====
section
/-! DEFINITION. The commands that run on no array (09 R258-R261, R267-R271; 12 R359; 14 R413, R414; 02 R74): COPY, FILL,
CHECKPOINT, REMOTE_COPY, TABLE_INVALIDATE and REPLAY. -/

namespace Sys2Proof.Machine

/-! ### How an engine runs -/

/-- After a command ended: a channel in error stops the others, and the scheduler decides. -/
def State.afterEnd (s : State) (c : Cmd) : State := (s.settleErrors c.ch).finishActions.schedule c.part

/-- An engine ends its command with a status. -/
def State.endEng (s : State) (c : CmdRef) (status : Nat) (detail : BitVec 32) : State :=
  match s.cmd c with
  | some x => (s.endCmd x status detail).afterEnd x
  | none => s

/-- An engine takes its command, or has it already: the command as it then stands. -/
def State.begin (s : State) (ref : CmdRef) (kind : Nat) : Option Cmd × State :=
  match s.cmd ref with
  | none => (none, s)
  | some c =>
    if !s.up ∨ c.kind ≠ kind then (none, s)
    else if c.stage = .running then (some c, s)
    else if s.ready c then
      let c := { c with stage := .running, started := true, buf := [], sent := 0, left := 0 }
      (some c, s.setCmd c)
    else (none, s)

/-- Replaces a command as it stands now. -/
def State.onCmd (s : State) (ref : CmdRef) (f : Cmd → Cmd) : State :=
  match s.cmd ref with
  | some c => s.setCmd (f c)
  | none => s

/-- The last engine of a command finishes (R269). -/
def State.engDone (s : State) (c : CmdRef) : State := s.onCmd c (fun x => { x with stage := .finished, left := 0, buf := [] })

/-- The module, other than this one, that an address of a partition reaches. -/
def State.remoteAt (s : State) (p : Fin 16) (va : Nat) (write : Bool) : Option Nat :=
  match s.locate p va write with
  | .remote m _ => some m
  | _ => none

/-- A fault of an engine (R258, R268, R358). -/
def State.engFault (s : State) (c : Cmd) (va : Nat) (write : Bool) : State :=
  if (s.remoteAt c.part va write).any (fun m => !s.hasStream c.part (BitVec.ofNat 12 m)) then s.endEng c.ref 0x43 0
  else s.endEng c.ref 8 (BitVec.ofNat 32 (va % 65536))

/-- Poison that an engine reads (R357, R400, R401). -/
def State.engPoison (s : State) (c : Cmd) (g va : Nat) : State :=
  if g = awayGranule ∧ (s.remoteAt c.part va false).isSome then s.endEng c.ref 0x42 0
  else match s.cmd c.ref with
    | some x => (if g = awayGranule then s.killPoison x else s.consumePoison x g (unitId 3 14)).afterEnd x
    | none => s

/-- Reads of an engine, in order: the byte strings, or none when it waits or its command has ended. -/
def State.engGets (s : State) (c : Cmd) (hint : Nat) : List (Nat × Nat) → Option (List (List Byte)) × State
  | [] => (some [], s)
  | (va, n) :: t =>
    match s.engGet c hint va n with
    | (.wait, s) => (none, s)
    | (.fault _ a, s) => (none, s.engFault c a false)
    | (.poison g a, s) => (none, s.engPoison c g a)
    | (.ok b, s) =>
      match State.engGets s c hint t with
      | (some l, s) => (some (b :: l), s)
      | r => r

/-- Writes of an engine, in order: whether they were all made. -/
def State.engPuts (s : State) (c : Cmd) (hint : Nat) : List (Nat × List Byte) → Bool × State
  | [] => (true, s)
  | (va, b) :: t =>
    match s.engPut c hint va b with
    | (.ok, s) => State.engPuts s c hint t
    | (.fault a, s) => (false, s.engFault c a true)
    | (.poison g, s) => (false, s.engPoison c g va)

/-! ### COPY (R258) -/

/-- A list in parts of k, within fuel parts. -/
def chunks {α : Type} (k : Nat) : Nat → List α → List (List α)
  | 0, _ => []
  | f + 1, l => if l = [] ∨ k = 0 then [] else l.take k :: chunks k f (l.drop k)

/-- What the conversion of codes gives: the codes, the scale bytes, the counts, and the generator. -/
structure CopyOut where
  codes : List Nat
  scales : List Byte
  counts : NumCounts
  g : Word
  deriving DecidableEq, Repr

/-- One result of a conversion put in front. -/
def CopyOut.cons (v : Conv) (o : CopyOut) : CopyOut := { o with codes := v.raw :: o.codes, counts := v.counts.plus o.counts }

/-- Elements of one block under its scale (R126). -/
def blockElems (df scale : Nat) (zero : Bool) (rnd : Nat) : List Num → Word → CopyOut
  | [], g => ⟨[], [], .zero, g⟩
  | x :: t, g =>
    let v := blockElem df scale zero x rnd g
    (blockElems df scale zero rnd t v.g).cons v

/-- A row quantised by blocks (R126). -/
def quantRow (df rnd : Nat) : List (List Num) → Word → CopyOut
  | [], g => ⟨[], [], .zero, g⟩
  | xs :: t, g =>
    let scale := (blockScale df xs).1
    let o := blockElems df scale (xs.all Num.isZero) rnd xs g
    let r := quantRow df rnd t o.g
    ⟨o.codes ++ r.codes, BitVec.ofNat 8 scale :: r.scales,
      ((if scale = 255 then ⟨0, 0, 0, 1, 0⟩ else NumCounts.zero).plus o.counts).plus r.counts, r.g⟩

/-- Values converted one by one, drawing from a stream. -/
def convNums (df : Nat) (fromInt : Bool) (rnd : Nat) (sat : Bool) : List Num → Word → CopyOut
  | [], g => ⟨[], [], .zero, g⟩
  | x :: t, g =>
    let v := convert df fromInt x rnd sat g
    (convNums df fromInt rnd sat t v.g).cons v

/-- Fields of a COPY's descriptor that say how it converts (R258). -/
structure CopyHow where
  sf : Nat
  df : Nat
  rnd : Nat
  sat : Bool
  block : Nat
  deriving DecidableEq, Repr

/-- How a COPY converts. -/
def Cmd.copyHow (c : Cmd) : CopyHow := ⟨blk c.head 44 0 5, blk c.head 45 0 5, blk c.head 46 0 2, blk c.head 46 2 1 = 1, 16 * blk c.head 47 3 2⟩

/-- One row: its codes, and the scale bytes that it decodes with (R258, R469). -/
def CopyHow.row (h : CopyHow) (codes : List Nat) (scales : List Byte) (g : Word) : CopyOut :=
  if h.sf = h.df ∧ h.block = 0 then ⟨codes, [], .zero, g⟩
  else if h.df % 16 = 15 ∧ h.sf % 16 = 10 then ⟨codes.map (fun x => intRaw h.df (intValue h.sf x)), [], .zero, g⟩
  else if h.block ≠ 0 ∧ fmtIsMx h.df then quantRow h.df h.rnd (chunks h.block codes.length (codes.map (numOf h.sf))) g
  else if h.block ≠ 0 then
    convNums h.df false h.rnd h.sat (codes.zipIdx.map (fun x => scaledNum h.sf x.1 (scales.getD (x.2 / h.block) 0).toNat)) g
  else convNums h.df (fmtFromInt h.sf) h.rnd h.sat (codes.map (numOf h.sf)) g

/-- The rows of a COPY in order of plane, then row; `scales` are the bytes that it decodes with. -/
def CopyHow.rows (h : CopyHow) (n : Nat) : List (List Byte) → List Byte → Word → List CopyOut
  | [], _, _ => []
  | b :: t, scales, g =>
    let k := if h.block = 0 then 0 else ceilDiv n h.block
    let o := h.row (unpackRow h.sf n b) (scales.take k) g
    o :: CopyHow.rows h n t (scales.drop k) o.g

/-- A reduction of one element at its home (R166-R169, R258): whether it was performed. Its destination must lie in pool
memory. A line in the slice takes it there, under the descriptor's HINT (R181); else the line's churn accepts it. -/
def State.copyReduce (s : State) (c : Cmd) (df op hint va v : Nat) : Bool × State :=
  match s.translate c.part va true with
  | (.pool pa, s) =>
    if !s.reach c.part (pa / 128) true then (false, s.engFault c va true) else
    let o := pa % 128
    let w := fmtBits df
    if (s.llcFind (pa / 128)).isNone then (true, s.sendChurn (pa / 128) c.part c.ref (.copy df op) o (BitVec.ofNat 64 v)) else
    match s.engUpdate c.part (pa / 128) hint (BitVec.ofNat 2 (2 ^ (o / 64))) (fun d => putField d (8 * o) w (churnElem df op (field d (8 * o) w) v)) with
    | (true, s) => (true, s)
    | (false, s) => (false, s.engPoison c (pa / 64) va)
  | (.poison g, s) => (false, s.engPoison c g va)
  | (_, s) => (false, s.endEng c.ref 8 (BitVec.ofNat 32 (va % 65536)))

/-- The reductions of a COPY, element by element, up to the first that is not performed. -/
def State.copyReduces (s : State) (c : Cmd) (df op hint : Nat) : List (Nat × Nat) → Bool × State
  | [] => (true, s)
  | (va, v) :: t =>
    match s.copyReduce c df op hint va v with
    | (true, s) => State.copyReduces s c df op hint t
    | r => r

/-- The last byte of a destination row, where the row ends inside it (R258). -/
def lastByte (fmt n va : Nat) : List (Nat × Nat) := if rowPartial fmt n then [(va + rowBytes fmt n - 1, 1)] else []

/-- The writes of a COPY: its rows, with the bits of a shared last byte kept, and its scale array. -/
def copyWrites (x : CopyShape) (n : Nat) (outs : List CopyOut) (olds : List Byte) (scale : Nat) : List (Nat × List Byte) :=
  let size := rowBytes x.dstFmt n
  (x.writes.zip outs).zipIdx.map (fun r =>
    (r.1.1.1, packRow x.dstFmt r.1.2.codes (List.replicate (size - 1) 0 ++ [olds.getD r.2 0])))
  ++ (let b := (outs.map (·.scales)).flatten
      if b = [] then [] else [(scale, b)])

/-- The elements of a COPY with a reduction, each with its address. -/
def copyElems (x : CopyShape) (outs : List CopyOut) : List (Nat × Nat) :=
  ((x.writes.zip outs).map (fun r => r.2.codes.zipIdx.map (fun e => (r.1.1 + e.2 * (fmtBits x.dstFmt / 8), e.1)))).flatten

/-- COPY (R258, R267-R271): a copy engine reads its source, then writes its destination, or hands each element to the
churns. -/
def execCopy (ref : CmdRef) (s : State) : Host.Outcome State Fault Refusal :=
  match s.begin ref 3 with
  | (none, s) => .next s
  | (some c, s) =>
    let x := copyShape c.slots
    let h := c.copyHow
    let op := blk c.head 47 0 3
    if (x.writes ++ scaleRange c.slots).any (fun r => s.rangeBusy c.part r.1 r.2) then .next s else
    let shared := if op = 0 then (x.writes.map (fun r => lastByte x.dstFmt x.elements r.1)).flatten else []
    match s.engGets c 0 (scaleReads c.slots ++ x.reads ++ shared) with
    | (none, s) => .next s
    | (some l, s) =>
      let k := (scaleReads c.slots).length
      let rows := (l.drop k).take x.reads.length
      let olds := (l.drop (k + x.reads.length)).flatten
      let outs := h.rows x.elements rows (l.take k).flatten (genSeed (bits c.head 384 64) 0x3FF 0)
      let (ok, s) := if op = 0 then s.engPuts c (blk c.head 46 3 2) (copyWrites x x.elements outs olds (blk c.head 56 0 64))
        else s.copyReduces c x.dstFmt op (blk c.head 46 3 2) (copyElems x outs)
      if ok then .next ((s.onCmd ref (fun y => { y with counts := outs.foldl (fun n o => n.plus o.counts) .zero })).engDone ref)
      else .next s

/-! ### FILL (R261) -/

/-- The bytes of a FILL: byte i of the range is VALUE's byte i mod 8. -/
def fillBytes (v : Word) (n : Nat) : List Byte := (List.range n).map (fun i => BitVec.ofNat 8 (v.toNat / 256 ^ (i % 8)))

/-- FILL. -/
def execFill (ref : CmdRef) (s : State) : Host.Outcome State Fault Refusal :=
  match s.begin ref 4 with
  | (none, s) => .next s
  | (some c, s) =>
    let va := blk c.head 16 0 64
    let n := blk c.head 24 0 64
    if s.rangeBusy c.part va n then .next s else
    match s.engPuts c (blk c.head 40 0 2) [(va, fillBytes (bits c.head 256 64) n)] with
    | (true, s) => .next (s.engDone ref)
    | (false, s) => .next s

/-! ### Frames of copy engines (R359, R414) -/

/-- Frames of a command's copy engine that await a response. -/
def State.copyOut (s : State) (c : CmdRef) : Nat :=
  (s.link.reqs.filter (fun q => decide (q.cmd = some c) && (match q.use with | .copy _ _ => true | _ => false))).length

/-- The bytes from an address of another module that one frame takes: to the end of the line from inside one, else up to 512. -/
def frameCut (a n : Nat) : Nat := if a % 128 = 0 then min n (512 - a % 512) else min n (128 - a % 128)

/-- The lines of a range of another module. -/
def remoteLines (m off n : Nat) : List Nat := (List.range (remoteLine m (off + n - 1) - remoteLine m off + 1)).map (fun i => remoteLine m off + i)

/-- Bytes written at another module are merged into the partition's copies at the current epoch (R202). -/
def State.mergeCopies (s : State) (p : Fin 16) (m off : Nat) (b : List Byte) : State :=
  (lineCuts off b.length).foldl (fun s x => match s.remoteFind p (remoteLine m x.1) with
    | some l => s.llcPut { l with data := mergeLine l.data (placeBytes (x.1 % 128) ((b.drop (x.1 - off)).take x.2)) (byteMask (x.1 % 128) x.2) }
    | none => s) s

/-- Sends one frame of a push (R202, R359): none while no tag is free or 1,024 are outstanding. -/
def State.pushFrame (s : State) (c : Cmd) (m off : Nat) (b : List Byte) (stash : Nat) : Option State :=
  if 1024 ≤ s.copyOut c.ref then none else
  let q : RemoteReq := ⟨0, BitVec.ofNat 12 m, c.part, some c.ref, true, false, BitVec.ofNat 41 off, b.length, 0, none, none, .copy c.ref 0, 0⟩
  match s.ask q ⟨if off % 128 = 0 then 3 else 2, 0, m, 0, b.length, off, stash, 0⟩ b with
  | none => none
  | some s =>
    let s := (remoteLines m off b.length).foldl (fun s l => s.spoilReads c.part l) s
    some ((s.mergeCopies c.part m off b).markWrote c)

/-- Sends one frame of a pull (R359). A line whose write awaits its acknowledgement waits (R219). -/
def State.pullFrame (s : State) (c : Cmd) (m off n va : Nat) : Option State :=
  if 1024 ≤ s.copyOut c.ref ∨ (remoteLines m off n).any (fun l => s.awaitsAck c.part l) then none else
  s.ask ⟨0, BitVec.ofNat 12 m, c.part, some c.ref, false, false, BitVec.ofNat 41 off, n, 0, none, none, .copy c.ref va, 0⟩
    ⟨1, 0, m, 0, n, off, 0, 0⟩ []

/-! ### REMOTE_COPY (R359) -/

/-- What a step of a REMOTE_COPY comes to. -/
inductive Moved | more (s : State) | stop (s : State)
  deriving DecidableEq, Repr

/-- One frame of a REMOTE_COPY from byte `c.sent` on; `push` says in which direction. -/
def State.moveFrame (s : State) (c : Cmd) (push : Bool) : Moved :=
  let src := blk c.head 16 0 64 + c.sent
  let dst := blk c.head 24 0 64 + c.sent
  let far := if push then dst else src
  let n := frameCut far (blk c.head 32 0 64 - c.sent)
  let sent (s : State) : State := s.onCmd c.ref (fun x => { x with sent := x.sent + n })
  match s.translate c.part far push with
  | (.remote m off, s) =>
    if !s.hasStream c.part (BitVec.ofNat 12 m) then .stop (s.endEng c.ref 0x43 0)
    else if (s.route (BitVec.ofNat 12 m)).mask &&& (if blk c.head 42 0 12 = 0 then BitVec.allOnes 12 else BitVec.ofNat 12 (blk c.head 42 0 12)) = 0 then
      .stop (s.endEng c.ref 0x40 0)
    else if push then
      match s.engGet c 0 src n with
      | (.wait, s) => .stop s
      | (.fault _ a, s) => .stop (s.engFault c a false)
      | (.poison g a, s) => .stop (s.engPoison c g a)
      | (.ok b, s) =>
        match s.pushFrame c m off b (blk c.head 40 0 16) with
        | none => .stop s
        | some s => .more (sent s)
    else
      match s.translate c.part dst true with
      | (.remote _ _, s) => .stop (s.endEng c.ref 8 0)
      | (.fault _, s) => .stop (s.engFault c dst true)
      | (.poison g, s) => .stop (s.engPoison c g dst)
      | (_, s) =>
        match s.pullFrame c m off n dst with
        | none => .stop s
        | some s => .more (sent s)
  | (.fault _, s) => .stop (s.engFault c far push)
  | (.poison g, s) => .stop (s.engPoison c g far)
  | (_, s) => .stop (s.endEng c.ref 8 0)

/-- Frames as far as they go, within fuel; all bytes sent and answered, the copy is done. -/
def State.moveFrames (ref : CmdRef) (push : Bool) : Nat → State → State
  | 0, s => s
  | f + 1, s =>
    match s.cmd ref with
    | none => s
    | some c =>
      if c.stage ≠ .running then s
      else if blk c.head 32 0 64 ≤ c.sent then (if s.copyOut ref = 0 then s.engDone ref else s)
      else match s.moveFrame c push with
        | .more s => State.moveFrames ref push f s
        | .stop s => s

/-- REMOTE_COPY (R359): exactly one of SRC and DST lies in another module. -/
def execRemoteCopy (ref : CmdRef) (s : State) : Host.Outcome State Fault Refusal :=
  match s.begin ref 8 with
  | (none, s) => .next s
  | (some c, s) =>
    if blk c.head 32 0 64 = 0 then .next (s.engDone ref) else
    let src := s.remoteAt c.part (blk c.head 16 0 64) false
    let dst := s.remoteAt c.part (blk c.head 24 0 64) true
    if src.isSome = dst.isSome then
      (match s.locate c.part (blk c.head 16 0 64) false, s.locate c.part (blk c.head 24 0 64) true with
        | .fault _, _ => .next (s.engFault c (blk c.head 16 0 64) false)
        | .poison g, _ => .next (s.engPoison c g (blk c.head 16 0 64))
        | _, .fault _ => .next (s.engFault c (blk c.head 24 0 64) true)
        | _, .poison g => .next (s.engPoison c g (blk c.head 24 0 64))
        | _, _ => .next (s.endEng ref 8 0))
    else .next (s.moveFrames ref dst.isSome 1026)

/-! ### CHECKPOINT (R413, R414) -/

/-- A line of the stream: its bytes and the granules that were read as poisoned. -/
structure CkLine where
  b : List Byte
  po : BitVec 2
  deriving DecidableEq, Repr

/-- A line read for a checkpoint, which consumes no poison: none when it waits or its command has ended. -/
def State.ckRead (s : State) (c : Cmd) (index va : Nat) : Option CkLine × State :=
  let bad (s : State) : Option CkLine × State := (none, s.endEng c.ref 0x52 (BitVec.ofNat 32 index))
  match s.translate c.part va false with
  | (.pool pa, s) =>
    if !s.reach c.part (pa / 128) false then bad s
    else if s.txnBusy (pa / 128) then (none, s)
    else
      let ((d, po), s) := s.engRead c.part (pa / 128) 0 c.engCls
      let g (i : Nat) : List Byte := if po.getLsbD i then List.replicate 64 0 else lineBytes d (64 * i) 64
      (some ⟨g 0 ++ g 1, po⟩, s)
  | (.fault _, s) => bad s
  | (.poison g, s) => (none, s.engPoison c g va)
  | (_, s) =>
    match s.engGet c 0 va 128 with
    | (.ok b, s) => (some ⟨b, 0⟩, s)
    | (.wait, s) => (none, s)
    | (.fault _ _, s) => bad s
    | (.poison g _, s) => if g = awayGranule then (some ⟨List.replicate 128 0, 3⟩, s) else (none, s.engPoison c g va)

/-- The lines of a region. -/
def State.ckRegion (s : State) (c : Cmd) (index va : Nat) : Nat → Option (List CkLine) × State
  | 0 => (some [], s)
  | n + 1 =>
    match s.ckRead c index va with
    | (none, s) => (none, s)
    | (some x, s) =>
      match State.ckRegion s c index (va + 128) n with
      | (some l, s) => (some (x :: l), s)
      | r => r

/-- A 128-byte header from its first bytes. -/
def headerLine (b : List Byte) : CkLine := ⟨b ++ List.replicate (128 - b.length) 0, 0⟩

/-- The poisoned granules of a region, ascending. -/
def poisonedIn (l : List CkLine) : List Nat :=
  (l.zipIdx.map (fun x => (if x.1.po.getLsbD 0 then [2 * x.2] else []) ++ (if x.1.po.getLsbD 1 then [2 * x.2 + 1] else []))).flatten

/-- A region's header and data (R413). -/
def regionLines (base len : Nat) (l : List CkLine) : List CkLine :=
  let p := poisonedIn l
  headerLine (leBytes 8 base ++ leBytes 8 len ++ leBytes 4 p.length ++ leBytes 4 0 ++ leBytes 8 (match p with
    | [] => 2 ^ 64 - 1
    | g :: _ => 64 * g)) :: l

/-- The lines of all regions, in list order. -/
def State.ckRegions (s : State) (c : Cmd) : Nat → List (Nat × Nat) → Option (List CkLine) × State
  | _, [] => (some [], s)
  | i, (base, len) :: t =>
    match s.ckRegion c i base (len / 128) with
    | (none, s) => (none, s)
    | (some l, s) =>
      match State.ckRegions s c (i + 1) t with
      | (some r, s) => (some (regionLines base len l ++ r), s)
      | r => r

/-- The stream header (R413). The digest of a stream with a poisoned granule that goes to the pool is free: the spec does
not say what bytes it counts there. -/
def State.ckHeader (s : State) (c : Cmd) (count : Nat) (body : List CkLine) : CkLine × State :=
  let (free, s) := s.freeVal 256
  let pool := match s.locate c.part (blk c.head 32 0 64) true with
    | .pool _ => true
    | _ => false
  let digest := if pool && body.any (fun x => decide (x.po ≠ 0)) then free else sha256 (body.map (·.b)).flatten
  (headerLine (leBytes 4 0x54504B43 ++ leBytes 2 1 ++ leBytes 2 0 ++ leBytes 8 (128 + 128 * body.length) ++ leBytes 4 count
    ++ [BitVec.ofNat 8 c.part.val, 0, 0, 0] ++ leBytes 8 s.pow.bootEpoch.toNat ++ digestBytes digest), s)

/-- The stream in a command's buffer, at the addresses where it goes. -/
def streamBuf (dest : Nat) (l : List CkLine) : Tbl (Option BufByte) :=
  l.zipIdx.foldl (fun t x => (x.1.b.zipIdx).foldl (fun t y =>
    Tbl.set none t (dest + 128 * x.2 + y.2) (some (if x.1.po.getLsbD (y.2 / 64) then .poisoned else .data y.1))) t) []

/-- Reads the region list and the regions, checks them, and takes the stream into the buffer: none when the command waits
or has ended. -/
def State.ckBuild (s : State) (c : Cmd) : Option Cmd × State :=
  let list := blk c.head 16 0 64
  let n := blk c.head 24 0 16
  let dest := blk c.head 32 0 64
  match s.engGet c 0 list (16 * n) with
  | (.wait, s) => (none, s)
  | (.fault _ a, s) => (none, s.endEng c.ref 0x52 (BitVec.ofNat 32 ((a - list) / 16)))
  | (.poison g a, s) => (none, s.engPoison c g a)
  | (.ok b, s) =>
    let regions := (List.range n).map (fun i => (bytesNat b (16 * i) 8, bytesNat b (16 * i + 8) 8))
    let size := 128 + (regions.map (fun r => 128 + r.2)).foldl (· + ·) 0
    if blk c.head 40 0 64 < size then (none, s.endEng c.ref 0x51 0) else
    let wrong (r : Nat × Nat) : Bool := decide (r.1 % 128 ≠ 0 ∨ r.2 % 128 ≠ 0 ∨ r.2 = 0) || meet r (dest, blk c.head 40 0 64)
    match regions.findIdx? wrong with
    | some i => (none, s.endEng c.ref 0x52 (BitVec.ofNat 32 i))
    | none =>
      match s.ckRegions c 0 regions with
      | (none, s) => (none, s)
      | (some body, s) =>
        let (h, s) := s.ckHeader c n body
        let c := { c with buf := streamBuf dest (h :: body), sent := 1 }
        (some c, s.setCmd c)

/-- Bytes of the stream that go out, with the granules of their line that are poisoned. -/
def ckBytes (buf : Tbl (Option BufByte)) (va n : Nat) : List Byte × BitVec 2 :=
  let at' (i : Nat) : Option BufByte := Tbl.get none buf (va + i)
  ((List.range n).map (fun i => match at' i with
    | some (.data b) => b
    | _ => 0),
   BitVec.ofBool (decide (at' 64 = some .poisoned)) ++ BitVec.ofBool (decide (at' 0 = some .poisoned)))

/-- One piece of the stream, from line k of n on: a line, or a frame to another module. -/
def State.ckPiece (s : State) (c : Cmd) (k n : Nat) : Moved :=
  let va := blk c.head 32 0 64 + 128 * k
  let sent (s : State) (m : Nat) : State := s.onCmd c.ref (fun x => { x with sent := x.sent + m })
  match s.translate c.part va true with
  | (.remote m off, s) =>
    if !s.hasStream c.part (BitVec.ofNat 12 m) then .stop (s.endEng c.ref 0x43 0) else
    let len := frameCut off (128 * n)
    match s.pushFrame c m off (ckBytes c.buf va len).1 0 with
    | none => .stop s
    | some s => .more (sent s (len / 128))
  | (_, s) =>
    if s.rangeBusy c.part va 128 then .stop s else
    let (b, po) := ckBytes c.buf va 128
    match s.putCut c 0 va b po with
    | (.ok, s) => .more (sent s 1)
    | (.fault a, s) => .stop (s.endEng c.ref 8 (BitVec.ofNat 32 (a % 65536)))
    | (.poison g, s) => .stop (s.engPoison c g va)

/-- Writes the stream as far as it goes, its header last, once every frame is acknowledged. `sent` less one is the number
of lines written. -/
def State.ckWrite (ref : CmdRef) : Nat → State → State
  | 0, s => s
  | f + 1, s =>
    match s.cmd ref with
    | none => s
    | some c =>
      let lines := c.buf.length / 128
      if c.stage ≠ .running then s
      else if lines < c.sent then
        (if 0 < s.copyOut ref then s else s.engDone ref)
      else if c.sent = lines then
        (if 0 < s.copyOut ref then s
         else match s.ckPiece c 0 1 with
          | .more s => State.ckWrite ref f s
          | .stop s => s)
      else match s.ckPiece c c.sent (lines - c.sent) with
        | .more s => State.ckWrite ref f s
        | .stop s => s

/-- CHECKPOINT. -/
def execCheckpoint (ref : CmdRef) (s : State) : Host.Outcome State Fault Refusal :=
  match s.begin ref 7 with
  | (none, s) => .next s
  | (some c, s) =>
    if 0 < c.sent then .next (s.ckWrite ref (c.buf.length + 2))
    else match s.ckBuild c with
      | (none, s) => .next s
      | (some c, s) => .next (s.ckWrite ref (c.buf.length + 2))

/-! ### TABLE_INVALIDATE (R260) -/

/-- The partition for which an outstanding host read is made. -/
def State.readPart (s : State) (u : HostFor) : Option (Fin 16) :=
  match u with
  | .load la _ _ _ _ => (s.array la).occ.map (·.part)
  | .old la _ _ _ _ => (s.array la).occ.map (·.part)
  | .tile la _ _ => (s.array la).occ.map (·.part)
  | .engine c _ => (s.cmd c).map (·.part)
  | _ => none

/-- Accesses of the partition that may rest on a translation dropped are performed at device scope: requests to homes and to
other modules, copy engines' frames that still wait for a link among them, and host reads. `sent` and `left` hold the numbers of
the first request and the first host read after it. -/
def State.settledFor (s : State) (c : Cmd) : Bool :=
  s.mem.homeReqs.all (fun r => !(decide (r.part = c.part ∧ r.id < c.sent)))
    && s.link.reqs.all (fun q => !(decide (q.part = c.part ∧ q.born < c.sent)))
    && s.host.reads.all (fun r => !(decide (r.tag < c.left) && decide (s.readPart r.use = some c.part)))

/-- The placement table of a command, as far as it is read, shares a byte with a range. -/
def Cmd.tableMeets (c : Cmd) (r : Nat × Nat) : Bool :=
  match c.placement with
  | some p => meet (blk c.kernel 48 0 64, 16 + 8 * p.entries.length) r
  | none => false

/-- The front end translates again each DOORBELL that a completed invalidate's range covers, of the channels that were started
(R251). -/
def State.rewatch (s : State) (p : Fin 16) (r : Nat × Nat) : State :=
  (List.finRange 3072).foldl (fun s ch =>
    let e := s.entry ch
    if entPart e = p ∧ entState e = 1 ∧ r.1 ≤ blk e 8 0 64 ∧ blk e 8 0 64 < r.1 + r.2 then s.watchDoor ch else s) s

/-- TABLE_INVALIDATE. -/
def execTableInvalidate (ref : CmdRef) (s : State) : Host.Outcome State Fault Refusal :=
  let fresh := (s.cmd ref).any (fun c => decide (c.stage = .fetched))
  match s.begin ref 9 with
  | (none, s) => .next s
  | (some c, s) =>
    let r := (blk c.head 24 0 64, blk c.head 32 0 64)
    match blk c.head 16 0 8 with
    | 1 =>
      let s := if !fresh then s else
        let s := { s with mem := { s.mem with tlb := s.mem.tlb.filter (fun t => !(decide (t.part = c.part) && meet (4096 * t.vpage, 4096) r)) } }
        let n := s.mem.nextReq + 1
        { s with mem := { s.mem with nextReq := n } }.onCmd ref (fun x => { x with sent := n, left := s.host.nextTag })
      .next (if (s.cmd ref).any (fun x => s.settledFor x) then (s.rewatch c.part r).engDone ref else s)
    | 2 => .next (s.engDone ref)
    | _ =>
      let s := { s with chan := { s.chan with cmds := s.chan.cmds.map (fun (x : Cmd) =>
        if x.part = c.part ∧ x.stage = CmdStage.fetched ∧ x.tableMeets r then { x with placement := none, buf := [] } else x) } }
      .next (s.engDone ref)

/-! ### REPLAY (R74, R76, R259) -/

/-- A tile operation is put back into its queue, in the order of acceptance. -/
def requeue (op : TileOp) (l : List TileOp) : List TileOp :=
  l.filter (fun o => decide (o.seq < op.seq)) ++ [op] ++ l.filter (fun o => decide (op.seq < o.seq))

/-- A group goes on after its park; one without live threads ends as R97 says. -/
def State.regain (s : State) (la : Nat) (c : Cmd) (g : Group) : State :=
  if g.live = [] then s.groupTail la c { g with st := .ready } else s.putGroup la g.resumed

/-- RESUME of a park (R74): a tile operation is accepted again, a load is performed again; after NAN_SENTRY the group
continues at the recorded program counter. -/
def State.resumePark (s : State) (la : Nat) (c : Cmd) (k : Fin 16) (p : Park) (g : Group) : State :=
  let s := s.freePark la k
  match p.src with
  | .instr => s.regain la c g
  | .load seq => (match g.loads.find? (fun o => decide (o.seq = seq)) with
    | some o => s.resendLoad la c g o
    | none => s.regain la c g)
  | .token t _ =>
    if p.fault.cls = .nanSentry then s.regain la c (let g := g.setToken t .clear
      if g.live = [] then g else g.setPc p.fault.pc)
    else match g.token t.val with
      | .faulted _ op _ =>
        (s.onArray la (fun a => { a with tq := requeue op.asAccepted a.tq })).regain la c (g.setToken t .busy)
      | _ => s.regain la c g

/-- SKIP of a park (R74): the group goes on after the instruction or the TWAIT; of an earlier load, without it. -/
def State.skipPark (s : State) (la : Nat) (c : Cmd) (k : Fin 16) (p : Park) (g : Group) : State :=
  let s := s.freePark la k
  match p.src with
  | .instr => s.regain la c (if p.fault.cls = .nanSentry ∨ g.live = [] then g else g.advance 8)
  | .load seq => s.regain la c { g with loads := g.loads.filter (fun o => decide (o.seq ≠ seq)) }
  | .token t twait => s.regain la c (let g := g.setToken t .clear
      if g.live = [] ∨ !twait then g else g.advance 16)

/-- One ticket of a REPLAY: its outcome. -/
def State.replayOne (s : State) (part : Fin 16) (ticket : BitVec 32) (action : Nat) : Nat × State :=
  let la := field ticket 0 9
  let k : Fin 16 := ⟨field ticket 9 4 % 16, Nat.mod_lt _ (by decide)⟩
  let a := s.array la
  match s.occupantCmd la, Tbl.get none a.parks k.val with
  | some c, some p =>
    if c.part ≠ part ∨ p.ticket ≠ ticket then (1, s)
    else if 3 ≤ action ∨ (p.fault.cls = .barrierDiverged ∧ action ≠ 2) then (2, s)
    else if action = 2 then
      let s := s.freePark la k
      (0, (if p.fault.cls = .barrierDiverged then s.parkExpire c la .barrierDiverged else s.killRerun c).afterEnd c)
    else match p.group.bind (fun n => a.groups.find? (fun g => decide (g.cohort = p.cohort ∧ g.num = n))) with
      | none => (1, s)
      | some g => (0, if action = 0 then s.resumePark la c k p g else s.skipPark la c k p g)
  | _, _ => (1, s)

/-- The tickets of a REPLAY, in order: their outcomes as DETAIL holds them. -/
def State.replayAll (s : State) (c : Cmd) : Nat → Nat → Nat × State
  | _, 0 => (0, s)
  | i, n + 1 =>
    let (o, s) := s.replayOne c.part (bits c.head (192 + 32 * i) 32) (blk c.head (56 + i) 0 8)
    let (d, s) := State.replayAll s c (i + 1) n
    (o * 4 ^ i + d, s)

/-- REPLAY: performed as soon as it is fetched; its STATUS is OK. -/
def execReplay (ref : CmdRef) (s : State) : Host.Outcome State Fault Refusal :=
  match s.cmd ref with
  | none => .next s
  | some c =>
    if !s.up ∨ c.kind ≠ 6 ∨ c.stage ≠ .fetched then .next s else
    let (d, s) := s.replayAll c 0 (blk c.head 16 0 8)
    match s.cmd ref with
    | none => .next s
    | some c => .next ((s.finishCmd c 0 (BitVec.ofNat 32 d)).schedule c.part)

end Sys2Proof.Machine
end

