-- ==== Sys2Proof/Machine/Commit.lean ====
section
/-! DEFINITION. The commit of a command (07 R216; 09 R265, R269, R470; 04 R129; 10 R313). -/

namespace Sys2Proof.Machine

/-! ### The step builder's application (R313) -/

/-- What is written of an entry: addresses and bytes. -/
def entryWrites (base : Nat) (st note : Option Nat) (words : List (Nat × Nat)) : List (Nat × List Byte) :=
  (st.map (fun v => (base, [BitVec.ofNat 8 v]))).toList ++ (note.map (fun v => (base + 3, [BitVec.ofNat 8 v]))).toList
    ++ words.map (fun x => (base + x.1, leBytes 4 x.2))

/-- An item applied to its entry, with the token that the kernel put out. -/
def applyItem (base : Nat) (e : SeqEntry) (i : StepItem) (out : Nat) : List (Nat × List Byte) :=
  let grown := [(4, e.position + i.tokens), (32, e.held + i.need)]
  if !i.last then entryWrites base (some 1) none grown
  else
    let generated := (bytesNat e.b 20 4 + 1) % 2 ^ 32
    let stopped := decide (out = bytesNat e.b 24 4) && decide (out ≠ 0xFFFFFFFF)
    let done := stopped || decide (bytesNat e.b 16 4 ≤ generated)
    entryWrites base (some (if done then 4 else 2)) (if stopped then some (bytesNat e.b 3 1 ||| 8) else none) (grown ++ [(20, generated), (28, out)])

/-- A mark applied to its entry: paused, it keeps the STATE in which it goes on as RESUME_STATE. -/
def applyMark (base : Nat) (e : SeqEntry) (m : StepMark) : List (Nat × List Byte) :=
  let note := bytesNat e.b 3 1
  match m with
  | .paused => entryWrites base (some 3) (some (note / 8 * 8 + 4 + e.goesOn)) []
  | .pauseRequest => entryWrites base (some 3) (some (note / 8 * 8 + e.goesOn)) []
  | .cancelled => entryWrites base (some 4) none []
  | .listFull => entryWrites base (some 4) (some (note ||| 16)) []

/-- Nothing to apply. -/
def StepBuild.none : StepBuild := ⟨[], [], 0⟩

/-- The builder applies the list, once: whether commit goes on. -/
def State.applyStep (s : State) (c : Cmd) : Bool × State :=
  match c.build with
  | none => (true, s)
  | some b =>
    if b = StepBuild.none then (true, s) else
    let x := s.partition c.part
    let at' (i : Nat) : Nat := x.seqBase.toNat + 64 * i
    let head := x.pool.toNat + 16
    let entries := b.items.map (·.entry) ++ b.marks.map (·.1)
    let reads := (head, 4) :: entries.map (fun i => (at' i, 64)) ++ (List.range b.items.length).map (fun k => (blk c.head 24 0 64 + 64 + 32 * k + 24, 4))
    match s.stepReads c reads with
    | (.error e, s) => (false, match e with
      | .wait => s
      | .ends st => (s.finishCmd c st 0).finishActions.schedule c.part
      | .poison g => ((s.poisonRead c.part g (unitId 3 14)).finishCmd c 0x50 0).finishActions.schedule c.part)
    | (.ok l, s) =>
      let n := b.items.length
      let entry (k : Nat) : SeqEntry := ⟨entries.getD k 0, l.getD (1 + k) []⟩
      let out (k : Nat) : Nat := bytesNat (l.getD (1 + entries.length + k) []) 0 4
      let writes := (b.items.zipIdx.map (fun i => applyItem (at' i.1.entry) (entry i.2) i.1 (out i.2))).flatten
        ++ (b.marks.zipIdx.map (fun m => applyMark (at' m.1.1) (entry (n + m.2)) m.1.2)).flatten
        ++ [(head, leBytes 4 (bytesNat (l.headD []) 0 4 + b.pages))]
      if writes.any (fun w => s.rangeBusy c.part w.1 w.2.length) then (false, s) else
      match s.putAll c 0 writes with
      | (.ok, s) => (true, s.onCmd c.ref (fun y => { y with build := some StepBuild.none, buf := [] }))
      | (.fault _, s) => (false, (s.finishCmd c 0x24 0).finishActions.schedule c.part)
      | (.poison g, s) => (false, ((s.poisonRead c.part g (unitId 3 14)).finishCmd c 0x50 0).finishActions.schedule c.part)

/-! ### The numeric report (R129) -/

/-- The 32 bytes of a numeric report. -/
def Cmd.numericReport (c : Cmd) : List Byte :=
  leBytes 8 c.counts.crushed ++ leBytes 8 c.counts.saturated ++ leBytes 4 c.counts.nanDropped ++ leBytes 4 c.counts.nanBlocks
    ++ leBytes 2 c.counts.traps ++ leBytes 2 c.left ++ leBytes 4 0

/-- Step 1 of R216: the report is written, or cannot be: whether commit goes on. -/
def State.writeReport (s : State) (c : Cmd) : Bool × State :=
  match extBlocks c.slots 4, c.report with
  | b :: _, none =>
    let va := blk b 8 0 64
    if s.rangeBusy c.part va 32 then (false, s) else
    let (r, s) := s.engPut c 0 va c.numericReport
    let s := match r with
      | .poison g => s.poisonRead c.part g (unitId 3 14)
      | _ => s
    (true, s.onCmd c.ref (fun y => { y with report := some (decide (r = .ok)) }))
  | _, _ => (true, s)

/-! ### Release and signals (R216, R264, R265, R470) -/

/-- Every write of a command is performed (R216): none is on its way to its home, none waits in a churn, and none that went
to another module awaits its acknowledgement. -/
def State.performed (s : State) (c : CmdRef) : Bool :=
  s.mem.homeReqs.all (fun r => decide (r.cmd ≠ c)) && s.mem.churn.all (fun o => decide (o.cmd ≠ c)) && s.link.reqs.all (fun q => decide (q.cmd ≠ some c))

/-- One signal: whether it was performed. -/
def State.signal (s : State) (c : Cmd) (va op : Nat) (v : Word) : Bool × State :=
  match s.semRead c.part va with
  | (.ok line off value owner _ _, s) => s.semWrite c.part line off (if op = 1 then (if value < v then v else value) else value + v) owner
  | (.poison g, s) => (false, s.poisonRead c.part g frontUnit)
  | (.invalid, s) => (false, s)

/-- The signals of a command in entry order: the first entry not performed. -/
def State.signals (s : State) (c : Cmd) : Option Nat × State :=
  (semEntries c.slots).zipIdx.foldl (fun (x : Option Nat × State) e =>
    let (va, op, v) := e.1
    if op = 1 ∨ op = 2 then
      let (ok, s) := x.2.signal c va op v
      (if ok then x.1 else x.1.orElse (fun _ => some e.2), s)
    else x) (none, s)

/-- The lower of two entry numbers. -/
def firstOf : Option Nat → Option Nat → Option Nat
  | none, b => b
  | some a, none => some a
  | some a, some b => some (min a b)

/-- Steps 3 to 5 of R216, after the release: signals, claims, the record, the interrupt. -/
def State.commitTail (s : State) (c : Cmd) : State :=
  let s := if c.wrote then s.afterRelease c 4 else s
  let (a, s) := s.signals c
  let (b, s) := s.releaseClaims c
  let s := match firstOf a b with
    | none => s.putRecord c 0 false (decide (c.report = some true)) 0
    | some i => s.putRecord c 0x50 false (decide (c.report = some true)) (BitVec.ofNat 32 (256 + i))
  let s := if blk c.head 1 0 1 = 1 then s.chanIrq c.ch else s
  let s := s.dropCmd c.ref
  let s := { s with chan := { s.chan with reserved := s.chan.reserved.filter (fun x => !decide (x.2 = c.ref)) } }
  s.afterEnd c

/-- COMMIT_POINT (R216, R269): a command whose last engine has finished commits, in the order of R216; it waits wherever a
step cannot be done yet. -/
def execCommitPoint (ref : CmdRef) (s : State) : Host.Outcome State Fault Refusal :=
  match s.cmd ref with
  | none => .next s
  | some c =>
    if !s.up ∨ c.stage ≠ .finished then .next s else
    match s.applyStep c with
    | (false, s) => .next s
    | (true, s) =>
      match s.writeReport ((s.cmd ref).getD c) with
      | (false, s) => .next s
      | (true, s) =>
        let c := (s.cmd ref).getD c
        if !s.performed ref ∨ (semEntries c.slots).any (fun e => s.rangeBusy c.part e.1 16) then .next s
        else .next (s.commitTail c)

end Sys2Proof.Machine
end

