-- ==== Sys2Proof/Machine/HostPorts.lean ====
section
/-! DEFINITION. The host ports (11; 07 R217, R218; 16 R447; 17 R454): function enable and reset, configuration, the BAR2
apertures, completions, ATS and PRI, the binding of functions, and dirty-page logging. -/

namespace Sys2Proof.Machine

/-! ### Functions -/

/-- The function serves requests (R329, R331). -/
def State.fnServes (s : State) (port : Fin 2) (fn : Fin 128) : Bool :=
  s.fnExists port fn && decide ((s.fn port fn).mode = .enabled)

/-- The channels that name a function (R331). -/
def State.fnChans (s : State) (port : Fin 2) (fn : Fin 128) : List (Fin 3072) :=
  (List.finRange 3072).filter (fun ch => decide (s.entry ch ≠ 0) && decide (entFn (s.entry ch) = fnWord port fn))

/-- A function's interface that is locked enters ERROR, and the function leaves ACCEPTED (R328, R377). -/
def State.tdispError (s : State) (port : Fin 2) (fn : Fin 128) : State :=
  let f := s.fn port fn
  if f.tdisp ≠ .locked ∧ f.tdisp ≠ .run then s else
  let s := s.setFn port fn { f with tdisp := .error }
  match f.bound with
  | none => s
  | some p => match (s.partition p).lock with
    | none => s
    | some l => s.setPartition p { s.partition p with lock := some { l with accepted := l.accepted.filter (fun x => decide (x ≠ fnWord port fn)) } }

/-- What the start of a reset does to one affected channel: its commands end with FUNCTION_RESET (R331 steps 1, 2). -/
def State.resetChannel (s : State) (ch : Fin 3072) (cause : Nat) : State :=
  if entState (s.entry ch) = 1 then s.stopChannel ch .reset 0x30 (BitVec.ofNat 32 cause)
  else if entState (s.entry ch) = 2 then
    let s := s.setDyn ch { s.dyn ch with stop := some .reset }
    (s.chanCmds ch).foldl (fun s c => match s.cmd c.ref with | some c => s.stopCmd c 0x30 (BitVec.ofNat 32 cause) | none => s) s
  else s

/-- A cause of R329 reaches a function: the steps of R331 begin, or it joins those in progress (R332). -/
def State.startReset (s : State) (port : Fin 2) (fn : Fin 128) (cause : Nat) (disable : Bool) : State :=
  let f := s.fn port fn
  if f.mode = .resetting then s.setFn port fn { f with lastCause := max f.lastCause cause, toDisabled := f.toDisabled || disable }
  else
    let s := s.setFn port fn { f with mode := .resetting, lastCause := cause, recordsLost := 0, toDisabled := disable || decide (f.mode = .disabled) }
    (s.fnChans port fn).foldl (fun s ch => s.resetChannel ch cause) (s.tdispError port fn)

/-- After commands of functions were ended: what waited for them goes on. -/
def State.afterReset (s : State) : State := s.finishActions.scheduleAll

/-- A cause reaches the functions of a list. -/
def State.resetFns (s : State) (port : Fin 2) (l : List (Fin 128)) (cause : Nat) (disable : Bool) : State :=
  (l.foldl (fun s fn => s.startReset port fn cause disable) s).afterReset

/-- The functions of a port. -/
def State.allFns (s : State) (port : Fin 2) : List (Fin 128) := (List.finRange 128).filter (fun fn => s.fnExists port fn)

/-- A cause that resets every function of a port; its virtual functions are enabled no more (R329, R454). -/
def State.resetPort (s : State) (port : Fin 2) (cause : Nat) : State :=
  let l := s.allFns port
  let s := (l.filter (fun fn => decide (fn.val ≠ 0))).foldl (fun s fn => s.startReset port fn cause true) (s.startReset port 0 cause false)
  s.afterReset

/-- FLR (R329, R331): of the physical function it is cause 3. -/
def execFlr (port : Fin 2) (fn : Fin 128) (s : State) : Host.Outcome State Fault Refusal :=
  if !s.portServes port ∨ !s.fnExists port fn then .next s
  else if fn = 0 then .next (s.resetPort port 3)
  else .next (s.resetFns port [fn] 0 false)

/-- VF_ENABLE_CLEARED (R329): the virtual functions above the new NumVFs disappear. -/
def execVfEnableCleared (port : Fin 2) (numVfs : Fin 128) (s : State) : Host.Outcome State Fault Refusal :=
  let x := s.port port
  if !s.portServes port ∨ x.numVfs ≤ numVfs.val then .next s else
  let gone := (List.finRange 128).filter (fun (fn : Fin 128) => decide (numVfs.val < fn.val ∧ fn.val ≤ x.numVfs))
  .next ((s.setPort port { x with numVfs := numVfs.val }).resetFns port gone 1 true)

/-- BUS_MASTER_ENABLE_CLEARED (R329): or entry into D3hot. -/
def execBusMasterEnableCleared (port : Fin 2) (fn : Fin 128) (d3hot : Bool) (s : State) : Host.Outcome State Fault Refusal :=
  if !s.portServes port ∨ !s.fnExists port fn then .next s else
  let f := s.fn port fn
  let s := s.setFn port fn (if d3hot then { f with d3hot := true } else { f with busMaster := false })
  if f.mode = .disabled then .next s else .next (s.resetFns port [fn] 2 true)

/-- PF_FLR (R329). -/
def execPfFlr (port : Fin 2) (s : State) : Host.Outcome State Fault Refusal :=
  if s.portServes port then .next (s.resetPort port 3) else .next s

/-- PERST_ASSERTED (R329, R447): also a Hot Reset and a link that goes down. Before event 10 of bring-up it only holds the
port. -/
def execPerstAsserted (port : Fin 2) (how : PortReset) (s : State) : Host.Outcome State Fault Refusal :=
  let x := s.port port
  let s := s.setPort port { x with released := x.released && decide (how ≠ .perst), drs := x.drs && decide (how ≠ .perst), linkUp := false, width := 0, rate := 0, flit := false, ready := false }
  if s.up then .next ((s.resetPort port 4).atlasUpdate 8 0) else .next s

/-- PERST_RELEASED (R330, R333, R447): the port trains; it is ready when its link is up and the module runs. -/
def execPerstReleased (port : Fin 2) (s : State) : Host.Outcome State Fault Refusal :=
  if (s.port port).released then .next s else
  let s := s.setPort port { s.port port with released := true, drs := true }
  if s.up then .next (s.atlasUpdate 8 0) else .next s

/-- PCIE_LINK_UP (R315, R338): the link is up at the width and rate reached; after a Hot Reset the port serves again. -/
def execPcieLinkUp (port : Fin 2) (width : Fin 16) (rate : Fin 8) (flit : Bool) (s : State) : Host.Outcome State Fault Refusal :=
  let x := s.port port
  if !s.powered ∨ !x.released ∨ ¬ (width.val = 1 ∨ width.val = 2 ∨ width.val = 4 ∨ width.val = 8) ∨ 5 < rate.val ∨ (rate.val = 5 ∧ !flit) then .next s else
  let s := s.setPort port { x with linkUp := true, width := width.val, rate := rate.val, flit := flit }
  if s.up then .next ((s.readyPort port).atlasUpdate 8 0) else .next s

/-- FUNCTION_ENABLE (R329, R330). -/
def execFunctionEnable (port : Fin 2) (fn : Fin 128) (how : EnableCause) (s : State) : Host.Outcome State Fault Refusal :=
  if !s.portServes port then .next s else
  match how with
  | .vfEnable n =>
    let x := s.port port
    if fn ≠ 0 ∨ n.val < x.numVfs then .next s else
    let s := s.setPort port { x with numVfs := n.val }
    let come := (List.finRange 128).filter (fun (v : Fin 128) => decide (x.numVfs < v.val ∧ v.val ≤ n.val))
    .next (come.foldl (fun s v =>
      let f := s.fn port v
      if f.mode = .resetting then s.setFn port v { f with toDisabled := false }
      else (s.setFn port v { f with mode := .enabled }).emit (.frs port v)) s)
  | _ =>
    if !s.fnExists port fn then .next s else
    let f := s.fn port fn
    let f : FnState := match how with
      | .busMaster => { f with busMaster := true }
      | _ => { f with d3hot := false }
    let on := f.busMaster && !f.d3hot
    .next (s.setFn port fn (if !on then f else match f.mode with
      | .resetting => { f with toDisabled := f.toDisabled && decide (f.lastCause = 1 ∨ (2 < f.lastCause ∧ fn.val ≠ 0)) }
      | _ => { f with mode := .enabled }))

/-! ### The end of a reset (R331 steps 3-8, R454) -/

/-- Step 6: dirty lines in the ways of a partition are written back, and stay valid and clean. -/
def State.cleanWays (s : State) (p : Fin 16) : State :=
  let x := s.partition p
  let mine (l : LlcLine) : Bool := l.remote.isNone && decide (l.hd = .dirty) && (s.ways p).mask.getLsbD l.way
    && (!x.confined || decide (l.slice / 24 = x.hub.val))
  let s := (s.mem.llc.filter mine).foldl (fun s l => s.writeMem l.line l.data (BitVec.allOnes 128) l.poison) s
  { s with mem := { s.mem with llc := s.mem.llc.map (fun l => if mine l then { l with hd := .clean } else l) } }

/-- Port registers return to their reset values (R454), and IDE keys are erased (R373); what the link and the bindings hold
stays. An action in progress completes and its results are discarded. -/
def State.resetPortRegs (s : State) (port : Fin 2) : State :=
  let x := s.port port
  let s := s.setPort port { PortState.reset with
    linkUp := x.linkUp, width := x.width, rate := x.rate, flit := x.flit, released := x.released, ready := x.ready, drs := x.drs }
  { s with
    chan := { s.chan with acts := s.chan.acts.map (fun (a : PendAction) => if a.port = some port then { a with discard := true } else a) }
    sec := { s.sec with opens := s.sec.opens.filter (fun o => decide (o.port ≠ port)) } }

/-- The affected channels have no command left, and no churn operation of theirs waits (R331 steps 2, 5). -/
def State.resetDrained (s : State) (l : List (Fin 3072)) : Bool :=
  l.all (fun ch => decide (s.chanCmds ch = [])) && s.mem.churn.all (fun o => !l.contains o.cmd.ch || o.refused)

/-- FUNCTION_RESET_COMPLETE (R330, R331 steps 3-8). -/
def execFunctionResetComplete (port : Fin 2) (fn : Fin 128) (s : State) : Host.Outcome State Fault Refusal :=
  let f := s.fn port fn
  let l := s.fnChans port fn
  if !s.up ∨ f.mode ≠ .resetting ∨ !s.resetDrained l then .next s else
  let parts := if fn = 0 then allParts.filter (fun p => l.any (fun ch => decide (entPart (s.entry ch) = p))) else f.bound.toList
  let s := parts.foldl (fun s p => s.cleanWays p) s
  let s := l.foldl (fun s ch => (s.setEntry ch (setEntState (s.entry ch) 0)).setDyn ch { s.dyn ch with stop := none, hot := false }) s
  let s : State := { s with host := { s.host with
    reads := s.host.reads.filter (fun r => !decide (r.port = port ∧ r.fn = fn))
    ats := s.host.ats.filter (fun r => !decide (r.port = port ∧ r.fn = fn))
    pages := s.host.pages.filter (fun r => !decide (r.port = port ∧ r.fn = fn)) } }
  let s := s.settleInvals
  let s := s.setFn port fn { s.fn port fn with
    mode := if f.toDisabled then .disabled else .enabled, toDisabled := false, doe := 0
    resets := if f.resets = BitVec.allOnes 16 then f.resets else f.resets + 1 }
  let s := if fn = 0 ∧ 3 ≤ f.lastCause then s.resetPortRegs port else s
  let s := if f.lastCause = 0 ∨ f.lastCause = 3 then s.emit (.frs port fn) else s
  .next s.finishActions

/-! ### Configuration (R217, R277, R322, R323, R325, R333) -/

/-- A write of an enable in configuration space, or of a vector's mask. -/
def State.configWrite (s : State) (port : Fin 2) (fn : Fin 128) (b : CfgBit) (v : Bool) : State :=
  let f := s.fn port fn
  match b with
  | .relaxedOrdering => s.setFn port fn { f with relaxed := v }
  | .pasid => s.setFn port fn { f with pasidEn := v }
  | .pri => s.setFn port fn { f with pri := v, pageFail := f.pageFail && !(v && !f.pri) }
  | .atomicRequester => s.setFn port fn { f with atomicReq := v }
  | .msixMask k =>
    if fn ≠ 0 ∧ 32 ≤ k.val then s
    else if v then s.setFn port fn { f with masked := if f.masked.contains k.val then f.masked else f.masked ++ [k.val] }
    else
      let due := f.msixPending.contains k.val
      let s := s.setFn port fn { f with masked := f.masked.filter (fun x => decide (x ≠ k.val)), msixPending := f.msixPending.filter (fun x => decide (x ≠ k.val)) }
      if due then s.sendMsix port fn k.val else s

/-- CONFIG_REQUEST (R331 step 1, R333). -/
def execConfigRequest (port : Fin 2) (fn : Fin 128) (op : CfgOp) (s : State) : Host.Outcome State Fault Refusal :=
  if !s.powered ∨ !(s.port port).released ∨ !(s.port port).linkUp then .next s
  else if s.pow.stage ≠ .published then .next (s.emit (.configRetry port fn))
  else if !s.fnExists port fn then .next (s.emit (.completion port fn 1 []))
  else if fn ≠ 0 ∧ (s.fn port fn).mode = .resetting then .next (s.emit (.configRetry port fn))
  else match op with
    | .read => .next (s.emit (.configDone port fn))
    | .write b v => .next ((s.configWrite port fn b v).emit (.configDone port fn))

/-! ### Apertures (R218, R318, R326, R378) -/

/-- APERTURE_WRITE (R218, R318, R326): the write joins the port's inbound path, and what can be performed is. -/
def execApertureWrite (port : Fin 2) (fn : Fin 128) (off : BitVec 36) (data : List Byte) (tlp : TlpHints) (s : State) : Host.Outcome State Fault Refusal :=
  if !s.portServes port ∨ !s.fnServes port fn ∨ s.tlpDropped port fn then .next s else
  match s.aperturePart port fn with
  | none => .next s
  | some p => .next (s.inbound ⟨port, fn, p, apertureBase + off.toNat, data.length, some data, tlp⟩)

/-- APERTURE_READ (R318, R331, R400): a read joins the inbound path behind the writes that came before it. -/
def execApertureRead (port : Fin 2) (fn : Fin 128) (off : BitVec 36) (len : Nat) (s : State) : Host.Outcome State Fault Refusal :=
  if !s.portServes port ∨ s.tlpDropped port fn then .next s
  else if !s.fnServes port fn then .next (s.emit (.completion port fn 1 []))
  else match s.aperturePart port fn with
    | none => .next (s.emit (.completion port fn 0 (List.replicate len 0xFF)))
    | some p => .next (s.inbound ⟨port, fn, p, apertureBase + off.toNat, len, none, ⟨false, none, false⟩⟩)

/-- INBOUND_ATOMICOP (R315): Unsupported Request. -/
def execInboundAtomicop (port : Fin 2) (fn : Fin 128) (s : State) : Host.Outcome State Fault Refusal :=
  if s.portServes port then .next (s.emit (.completion port fn 1 [])) else .next s

/-! ### Completions (R217, R321, R331 step 4) -/

/-- Bytes that came back, as a buffer holds them; `n` when none came. -/
def cplBytes (st : CplStatus) (data : List Byte) (n : Nat) : List BufByte :=
  match st with
  | .success => data.map BufByte.data
  | .poisonedTlp => List.replicate n .poisoned
  | _ => List.replicate n .refused

/-- Puts bytes into a buffer. -/
def bufPut (va : Nat) : List BufByte → Tbl (Option BufByte) → Tbl (Option BufByte)
  | [], t => t
  | b :: l, t => bufPut (va + 1) l (Tbl.set none t va (some b))

/-- Gives a part of a group's load or atomic its result. -/
def State.partResult (s : State) (la cohort : Nat) (group : Fin 16) (id : Nat) (v : LoadResult) : State :=
  let a := s.array la
  s.setArray la { a with groups := a.groups.map (fun (g : Group) =>
    if g.cohort = cohort ∧ g.num = group then { g with loads := g.loads.map (fun o => o.take id v) } else g) }

/-- Data that came back for a request of the module. -/
def State.hostData (s : State) (r : HostTag) (st : CplStatus) (data : List Byte) : State :=
  match r.use with
  | .load la cohort group id off => s.partResult la cohort group id (match st with
    | .success => .data (placeBytes off data) 0
    | .poisonedTlp => .poison
    | _ => .refused)
  | .old la cohort group id lane => (match st with
    | .success => s.addOld la cohort group id lane (BitVec.ofNat 64 (leNat data))
    | .poisonedTlp => s.partResult la cohort group id .poison
    | _ => s.partResult la cohort group id .refused)
  | .tile la seq va => s.onArray la (fun a => { a with tq := a.tq.map (fun (o : TileOp) =>
      if o.seq = seq then { o with buf := bufPut va (cplBytes st data r.len) o.buf } else o) })
  | .engine c va => s.onCmd c (fun (x : Cmd) => { x with buf := bufPut va.toNat (cplBytes st data r.len) x.buf })
  | _ => s

/-- PCIE_COMPLETION. The completion of a function that is resetting is discarded and its tag freed. -/
def execPcieCompletion (tag : Nat) (st : CplStatus) (data : List Byte) (s : State) : Host.Outcome State Fault Refusal :=
  match s.host.reads.find? (fun r => decide (r.tag = tag) && r.held.isNone) with
  | none => .next s
  | some r =>
    if !s.powered ∨ (st = .success ∧ data.length ≠ r.len) ∨ s.tlpDropped r.port r.fn then .next s else
    let s := if (s.fn r.port r.fn).mode = .resetting then s else s.hostData r st data
    let s : State := { s with host := { s.host with reads := s.host.reads.filter (fun x => decide (x.tag ≠ tag)) } }
    .next s.settleInvals

/-! ### ATS and PRI (R324, R325) -/

/-- ATS_INVALIDATE_REQUEST: the translations are dropped at once; it completes when no read made before it is
outstanding. -/
def execAtsInvalidateRequest (port : Fin 2) (fn : Fin 128) (pasid : Option (BitVec 20)) (first : BitVec 52) (count : Nat) (s : State) : Host.Outcome State Fault Refusal :=
  if !s.portServes port ∨ !s.fnExists port fn then .next s else
  let s : State := { s with host := { s.host with
    ats := s.host.ats.filter (fun e => !decide (e.port = port ∧ e.fn = fn ∧ e.pasid = pasid ∧ first.toNat ≤ e.page.toNat ∧ e.page.toNat < first.toNat + count))
    invals := s.host.invals ++ [⟨port, fn, first, count, s.host.nextTag⟩] } }
  .next s.settleInvals

/-- A page request is answered with success: the translation is held, and what waited goes on (R73, R325). -/
def State.pageGranted (s : State) (r : PageReq) : State :=
  let e : AtsEntry := ⟨r.port, r.fn, if (s.fn r.port r.fn).pasidEn then some r.pasid else none, r.page⟩
  let s : State := if s.host.ats.contains e then s else { s with host := { s.host with ats := e :: s.host.ats } }
  match r.use with
  | .engine _ _ => s
  | .park la k => (match s.occupantCmd la, Tbl.get none (s.array la).parks k.val with
    | some c, some p => if p.pageReq ≠ some r.tag then s else
      (match p.group.bind (fun n => (s.array la).groups.find? (fun g => decide (g.cohort = p.cohort ∧ g.num = n))) with
        | some g => s.resumePark la c k p g
        | none => s)
    | _, _ => s)

/-- A page request is refused: the group stays parked, and a command ends with COPY_FAULT (R325). -/
def State.pageRefused (s : State) (r : PageReq) : State :=
  match r.use with
  | .engine c va => s.endEng c 8 (BitVec.ofNat 32 (va.toNat % 65536))
  | .park la k => s.onArray la (fun a => match Tbl.get none a.parks k.val with
    | some p => if p.pageReq = some r.tag then { a with parks := Tbl.set none a.parks k.val (some { p with pageReq := none }) } else a
    | none => a)

/-- A Response Failure: the function's requests that were not sent yet are not, and are refused with it (R325). -/
def State.pageFailed (s : State) (x : PageReq) : State :=
  let s := s.setFn x.port x.fn { s.fn x.port x.fn with pageFail := true }
  let mine (r : PageReq) : Bool := decide (r.port = x.port ∧ r.fn = x.fn) && !r.sent
  let gone := s.host.pages.filter mine
  let s : State := { s with host := { s.host with pages := s.host.pages.filter (fun r => !mine r) } }
  (x :: gone).foldl (fun s r => s.pageRefused r) s

/-- PAGE_REQUEST_RESPONSE (R325). -/
def execPageRequestResponse (tag : Nat) (r : PrgResult) (s : State) : Host.Outcome State Fault Refusal :=
  match s.host.pages.find? (fun x => decide (x.tag = tag) && x.sent) with
  | none => .next s
  | some x =>
    if !s.up ∨ (s.fn x.port x.fn).mode = .resetting then .next s else
    let s : State := { s with host := { s.host with pages := s.host.pages.filter (fun y => decide (y.tag ≠ tag)) } }
    match r with
    | .success => .next ((s.sendPage x.port x.fn).pageGranted x)
    | .invalid => .next ((s.sendPage x.port x.fn).pageRefused x)
    | .failure => .next (s.pageFailed x)

/-! ### Bindings (R317, R338, R378) -/

/-- Takes the core default away from the other functions of a partition (R338). -/
def State.clearDefaults (s : State) (p : Fin 16) : State :=
  { s with host := { s.host with fns := ((List.finRange 256).foldl (fun (t : Tbl FnState) k =>
      let f := Tbl.get FnState.reset t k.val
      if f.coreDefault ∧ (k.val % 128 = 0 ∧ p = 0 ∨ k.val % 128 ≠ 0 ∧ f.bound = some p) then Tbl.set FnState.reset t k.val { f with coreDefault := false } else t) s.host.fns) } }

/-- The core default of a function follows its register (R320, R338). -/
def State.setDefault (s : State) (port : Fin 2) (fn : Fin 128) (p : Option (Fin 16)) (on : Bool) (pasid : BitVec 20) : State :=
  let s := allParts.foldl (fun s q => if ((s.partition q).coreDefault.map (·.1)) = some (fnWord port fn)
    then s.setPartition q { s.partition q with coreDefault := none } else s) s
  let s := match p with
    | some p => if on then (s.clearDefaults p).setPartition p { s.partition p with coreDefault := some (fnWord port fn, pasid) } else s
    | none => s
  s.setFn port fn { s.fn port fn with coreDefault := on && p.isSome, corePasid := pasid }

/-- A write of PCIE_FN_BIND for one function. -/
def State.bindFn (s : State) (port : Fin 2) (fn : Fin 128) (v : Word) : State :=
  let f := s.fn port fn
  let f := if v.getLsbD 32 then { f with bindRefused := false } else f
  let want : Option (Fin 16) := if fn = 0 then f.bound else if v.getLsbD 4 then some (toPart (field v 0 4)) else none
  let on := v.getLsbD 5
  let pasid : BitVec 20 := bits v 8 20
  let locked := f.bound.any (fun p => (s.partition p).lock.any (fun l => l.accepted.contains (fnWord port fn)))
  let busy := (s.fnChans port fn).any (fun ch => decide (entState (s.entry ch) ≠ 0))
  if locked then s.setFn port fn { f with bindRefused := f.bindRefused || decide (want ≠ f.bound ∨ on ≠ f.coreDefault ∨ pasid ≠ f.corePasid) }
  else
    let refused := decide (want ≠ f.bound) && busy
    let now := if refused then f.bound else want
    let s := s.setFn port fn { f with bound := now, bindRefused := f.bindRefused || refused }
    s.setDefault port fn (if fn = 0 then some 0 else now) on pasid

/-- PCIE_FN_BIND (R317). -/
def execPcieFnBind (port : Fin 2) (v : Word) (s : State) : Host.Outcome State Fault Refusal :=
  if s.barServes port 0 then
    let n := (s.port port).fnSelect
    .next (s.bindFn port ⟨n.toNat, n.isLt⟩ v)
  else .next s

/-! ### Dirty-page logging (R335-R337) -/

/-- FLIP of one function. -/
def State.flipFn (s : State) (port : Fin 2) (fn : Fin 128) : State :=
  let f := s.fn port fn
  if f.flipBusy then s.setFn port fn { f with flipRefused := true }
  else s.setFn port fn { f with dirtyActive := !f.dirtyActive, flipDone := false, flipBusy := true }

/-- FLIP: a write of PCIE_DIRTY_CONTROL with FLIP set, for the function selected. -/
def execFlip (port : Fin 2) (s : State) : Host.Outcome State Fault Refusal :=
  if s.barServes port 0 then
    let n := (s.port port).fnSelect
    .next (s.flipFn port ⟨n.toNat, n.isLt⟩)
  else .next s

/-- FLIP_COMPLETE (R337): what was aimed at the old bitmap has been sent; a zero-length read, and the write-back of its
words. -/
def execFlipComplete (port : Fin 2) (fn : Fin 128) (s : State) : Host.Outcome State Fault Refusal :=
  let f := s.fn port fn
  if !s.up ∨ !f.flipBusy then .next s else
  let base := (if f.dirtyActive then f.dirtyBase0 else f.dirtyBase1).toNat
  let size := 8 * ceilDiv f.dirtyPages.toNat 64
  let s := s.askAside port (BitVec.ofNat 64 base) 0
  let s := (s.host.merge.filter (fun x => decide (x.1 = port ∧ base ≤ x.2.1.toNat ∧ x.2.1.toNat < base + size))).foldl (fun s x => s.writeBackWord x) s
  .next (s.setFn port fn { s.fn port fn with flipDone := true, flipBusy := false })

end Sys2Proof.Machine
end

