-- ==== Sys2Proof/Machine/Doe.lean ====
section
/-! DEFINITION. The DOE mailboxes of the functions (11 R327, R328; 13 R377, R380, R381): discovery, SPDM, IDE keys, TDISP and
attestation reports. -/

namespace Sys2Proof.Machine

/-- A function's mailbox takes an object (R328, R331). -/
def State.doeTakes (s : State) (port : Fin 2) (fn : Fin 128) : Bool :=
  s.portServes port && s.fnExists port fn && decide ((s.fn port fn).mode ≠ .resetting)

/-- A secured session runs on a function's mailbox (R381). -/
def State.inSession (s : State) (port : Fin 2) (fn : Fin 128) : Bool := s.sec.sessions.contains ⟨port, fn⟩

/-- The mailbox answers with an object: it holds it until it is read out, aborted or replaced. `ty` is the type, with 256
added for Issol's own. -/
def State.doeAnswer (s : State) (port : Fin 2) (fn : Fin 128) (ty : Nat) (b : List Byte) : State :=
  (s.setFn port fn { s.fn port fn with doe := b.length }).emit (.doe port fn ty b)

/-- A secured object is of type 0x02 (R328). -/
def spdmType (secured : Bool) : Nat := if secured then 2 else 1

/-- An object that carries the claim of a session is taken only in one. -/
def State.spdmTakes (s : State) (port : Fin 2) (fn : Fin 128) (secured : Bool) : Bool :=
  s.doeTakes port fn && (!secured || s.inSession port fn)

/-- A DOE Discovery entry: vendor, type, next index. PRESUMED: the layout of the PCI Express specification. -/
def discovery (index : Nat) : List Byte :=
  match index with
  | 0 => [0x01, 0x00, 0x00, 1]
  | 1 => [0x01, 0x00, 0x01, 2]
  | 2 => [0x01, 0x00, 0x02, 3]
  | 3 => leBytes 2 Config.vendorId.toNat ++ [0x01, 0]
  | _ => [0xFF, 0xFF, 0x00, 0]

/-- DOE_DISCOVERY (R328). -/
def execDoeDiscovery (port : Fin 2) (fn : Fin 128) (index : Byte) (s : State) : Host.Outcome State Fault Refusal :=
  if s.doeTakes port fn then .next (s.doeAnswer port fn 0 (discovery index.toNat)) else .next s

/-- What SPDM and TDISP leave open in an answer. -/
def State.openAnswer (s : State) (port : Fin 2) (fn : Fin 128) (ty : Nat) (req : List Byte) : State :=
  let b := Config.spdm s.freeCount req
  ({ s with freeCount := s.freeCount + 1 }).doeAnswer port fn ty b

/-- A measurement block: its index, which is the entry's INDEX plus one, and the entry's DIGEST (R381). -/
def measurement (i : Nat) (e : LogEntry) : List Byte := BitVec.ofNat 8 (i + 1) :: digestBytes e.digest

/-- The measurement blocks of a log, in INDEX order. -/
def measurements : Nat → List LogEntry → List Byte
  | _, [] => []
  | i, e :: t => measurement i e ++ measurements (i + 1) t

/-- SPDM_REQUEST (R381). -/
def execSpdmRequest (port : Fin 2) (fn : Fin 128) (secured : Bool) (req : SpdmReq) (s : State) : Host.Outcome State Fault Refusal :=
  if !s.spdmTakes port fn secured then .next s else
  let ty := spdmType secured
  match req with
  | .getCertificate slot off len =>
    if slot ≠ 0 then .next (s.openAnswer port fn ty [0x82, slot]) else
    let rest := s.certChain.drop off.toNat
    let part := rest.take len.toNat
    .next (s.doeAnswer port fn ty (leBytes 2 part.length ++ leBytes 2 (rest.length - part.length) ++ part))
  | .getMeasurements index =>
    let n := s.sec.log.length
    if index = 0 then .next (s.doeAnswer port fn ty [BitVec.ofNat 8 n])
    else if index = 0xFF then .next (s.doeAnswer port fn ty (measurements 0 s.sec.log))
    else (match s.sec.log[index.toNat - 1]? with
      | some e => .next (s.doeAnswer port fn ty (measurement (index.toNat - 1) e))
      | none => .next (s.openAnswer port fn ty [0xE0, index]))
  | .challenge nonce => .next (s.openAnswer port fn ty (0x83 :: digestBytes nonce))
  | .keyExchange =>
    let s := s.openAnswer port fn ty [0xE4]
    .next (if s.sec.aliasKey.isNone then s else { s with sec := { s.sec with sessions := s.sec.sessions ++ [⟨port, fn⟩] } })
  | .endSession =>
    if !secured then .next (s.openAnswer port fn ty [0xEC]) else
    let s := s.openAnswer port fn ty [0xEC]
    .next { s with sec := { s.sec with sessions := s.sec.sessions.erase ⟨port, fn⟩ } }

/-- A stream that has no keys. -/
def IdeStream.off : IdeStream := ⟨false, false, 0, 0, 0, 0⟩

/-- Replaces stream i of a port: 0 the link stream, 1-4 the selective ones. -/
def State.setIde (s : State) (port : Fin 2) (i : Nat) (x : IdeStream) : State :=
  let l := (s.port port).ide
  s.setPort port { s.port port with ide := (List.range 5).map (fun k => if k = i then x else l.getD k IdeStream.off) }

/-- IDE_KM (R327): over the mailbox of the physical function, in a secured session. The link stream covers everything. -/
def execIdeKm (port : Fin 2) (fn : Fin 128) (secured : Bool) (stream : Fin 5) (op : IdeOp) (s : State) : Host.Outcome State Fault Refusal :=
  if fn ≠ 0 ∨ !secured ∨ !s.spdmTakes port fn secured then .next s else
  let s := match op with
    | .setKeys a b lo hi => s.setIde port stream.val
        (if stream = 0 then ⟨true, false, 0, 127, 0, BitVec.allOnes 64⟩ else ⟨true, false, a.val, b.val, lo, hi⟩)
    | .stop => s.setIde port stream.val IdeStream.off
  .next (s.openAnswer port fn 2 [0x00, BitVec.ofNat 8 stream.val])

/-- IDE_INTEGRITY_FAILURE (R327): reported under AER; the stream enters its insecure state. -/
def execIdeIntegrityFailure (port : Fin 2) (stream : Fin 5) (s : State) : Host.Outcome State Fault Refusal :=
  match (s.port port).ide[stream.val]? with
  | none => .next s
  | some x =>
    if !s.portServes port ∨ !x.keyed ∨ x.insecure then .next s
    else .next ((s.setIde port stream.val { x with insecure := true }).emit (.aer port 0))

/-- The lock record after a TDISP lock of a function: the function is added to ACCEPTED, which holds 16 (R377). -/
def lockAdd (l : Option LockRecord) (f : BitVec 16) : Option LockRecord :=
  let r := l.getD ⟨[], false, false⟩
  if r.accepted.contains f then some r
  else if 16 ≤ r.accepted.length then none
  else some { r with accepted := r.accepted ++ [f] }

/-- LOCK_INTERFACE_REQUEST (R328, R377). -/
def execLockInterfaceRequest (port : Fin 2) (fn : Fin 128) (secured : Bool) (s : State) : Host.Outcome State Fault Refusal :=
  if fn = 0 ∨ !secured ∨ !s.spdmTakes port fn secured then .next s else
  let f := s.fn port fn
  let rec' : Option (Fin 16 × LockRecord) := f.bound.bind (fun p =>
    if (s.partition p).mode = .absent then none else (lockAdd (s.partition p).lock (fnWord port fn)).map (fun r => (p, r)))
  match f.tdisp, rec' with
  | .unlocked, some (p, r) =>
    let s := (s.setFn port fn { f with tdisp := .locked }).lockWith p r
    .next (s.openAnswer port fn 2 [0x83])
  | _, _ => .next (s.openAnswer port fn 2 [0x83])

/-- START_INTERFACE_REQUEST (R328): CONFIG_LOCKED becomes RUN. -/
def execStartInterfaceRequest (port : Fin 2) (fn : Fin 128) (secured : Bool) (s : State) : Host.Outcome State Fault Refusal :=
  if fn = 0 ∨ !secured ∨ !s.spdmTakes port fn secured then .next s else
  let f := s.fn port fn
  let s := if f.tdisp = .locked then s.setFn port fn { f with tdisp := .run } else s
  .next (s.openAnswer port fn 2 [0x85])

/-- ATTESTATION_REPORT_REQUEST (R380): the report, or the result code that refuses it; an unbound virtual function answers
with a DOE error. -/
def execAttestationReportRequest (port : Fin 2) (fn : Fin 128) (secured : Bool) (nonce : BitVec 256) (user : BitVec 512) (part : Byte) (s : State) : Host.Outcome State Fault Refusal :=
  if !s.spdmTakes port fn secured then .next s
  else if fn = 0 ∧ 16 ≤ part.toNat then .next (s.doeAnswer port fn 257 [1])
  else match (if fn = 0 then some (toPart part.toNat) else (s.fn port fn).bound) with
    | none => .next (s.emit (.doeError port fn))
    | some p =>
      let mine := secured && (s.partition p).lock.any (fun l => l.accepted.contains (fnWord port fn))
      match s.signedReport p nonce user (!mine) with
      | .error r => .next (s.doeAnswer port fn 257 [BitVec.ofNat 8 r])
      | .ok b => .next (s.doeAnswer port fn 257 b)

/-- DOE_ABORT (R328). -/
def execDoeAbort (port : Fin 2) (fn : Fin 128) (s : State) : Host.Outcome State Fault Refusal :=
  if s.portServes port ∧ s.fnExists port fn then .next (s.setFn port fn { s.fn port fn with doe := 0 }) else .next s

end Sys2Proof.Machine
end

