-- ==== Sys2Proof/Machine/Meridian.lean ====
section
/-! DEFINITION. The Meridian ports and lanes (12 R339-R343, R353, R362), and requests of other modules performed here (12 R355,
R356). -/

namespace Sys2Proof.Machine

/-! ### Ports (R343, R353) -/

/-- Frames of a port that were not acknowledged go back to routing, in HOP_SEQ order, ahead of new ones; link-management
frames are dropped (R353). The link starts afresh when it comes up again. -/
def State.handBack (s : State) (n : Fin 12) : State :=
  let x := s.lp n.val
  let back := x.replay.filterMap (fun (y : BitVec 16 × Option (Fin 16) × TxFrame) =>
    if y.2.2.op = 0x21 ∨ y.2.2.op = 0x22 then none else some ((match y.2.1 with
      | some p => FrameOwner.part p
      | none => FrameOwner.forwarded none), y.2.2))
  let s := s.setLp n.val { x with replay := [], spent := [], owed := [], txSeq := 1, rxSeq := 1 }
  { s with link := { s.link with waiting := back ++ s.link.waiting } }

/-- The peer that the group spare of a port reaches, as its group's ports heard in HELLO (R341, R343). -/
def State.spareReach (s : State) (n : Fin 12) : Option (BitVec 12) :=
  ((List.range 3).find? (fun i => decide ((s.lp (n.val / 3 * 3 + i)).sparePeer = some s.link.number))).map (fun i => (s.lp (n.val / 3 * 3 + i)).peer)

/-- Sends HELLO on a port that trains (R343). -/
def State.sendHello (s : State) (n : Fin 12) : State := s.emit (.hello n s.link.number (s.spareReach n))

/-- A port takes a state other than up: when it was up it hands its frames back, and leaving it other than by ENABLE raises
LINK_PORT_DOWN (R353, R361). A training tries each lane anew but one that the spare replaces (R342, R343). -/
def State.portTo (s : State) (n : Fin 12) (m : LpMode) (byEnable : Bool) : State :=
  let x := s.lp n.val
  if x.mode = m then s else
  let was := decide (x.mode = .up)
  let s := s.setLp n.val { x with
    mode := m, subst := none, trained := false
    failed := if m = .training then [] else x.failed
    half := if m = .training then none else x.half }
  let s := if was then s.handBack n else s
  let s := if was && !byEnable then s.report (mkReport 0x0072 (unitId 8 n.val) 0) else s
  let s := if m = .fenced then (s.report (mkReport 0x0073 (unitId 8 n.val) 0)).dropDomain (492 + n.val) else s
  let s := if m = .training then s.sendHello n else s
  (s.atlasUpdate 8 0).pump

/-- A write of LNK_PORT_CONTROL (R343, R362); without a module number the port stays down (R443). -/
def State.portControl (s : State) (n : Fin 12) (v : Word) : State :=
  let x := s.lp n.val
  let on := v.getLsbD 0
  let s := s.setLp n.val { x with enable := on, spareEnable := v.getLsbD 1 }
  if !on then (s.portTo n .down true).dropDomain (492 + n.val)
  else if s.link.number = 0xFFF then s
  else
    let fresh (x : LinkPort) : LinkPort := { x with spare := none, failed := [], half := none, subst := none, trained := false, fails := 0 }
    if !x.enable then
      let s := s.setLp n.val (if v.getLsbD 2 then fresh (s.lp n.val) else { s.lp n.val with fails := 0 })
      (s.wantDomain (492 + n.val)).portTo n .training false
    else if v.getLsbD 2 ∧ x.mode ≠ .fenced then
      let again := decide (x.mode = .training)
      let s := s.setLp n.val (if again then fresh (s.lp n.val) else s.lp n.val)
      if again then (s.atlasUpdate 8 0) else
      let s := s.setLp n.val { s.lp n.val with spare := none, failed := [], half := none }
      let s := s.portTo n .training false
      s.setLp n.val (fresh (s.lp n.val))
    else s

/-- A write of LNK_PORT_CONTROL for the port selected. -/
def State.linkControl (s : State) (port : Fin 2) (v : Word) : State :=
  if s.barServes port 0 then s.portControl (toLp (s.port port).linkSelect.toNat) v else s

/-- LNK_PORT_ENABLE (R343). -/
def execLnkPortEnable (port : Fin 2) (v : Word) (s : State) : Host.Outcome State Fault Refusal := .next (s.linkControl port v)

/-- LNK_PORT_RETRAIN (R343, R362). -/
def execLnkPortRetrain (port : Fin 2) (v : Word) (s : State) : Host.Outcome State Fault Refusal := .next (s.linkControl port (v ||| 4))

/-- HELLO (R343, R422): the port is up when HELLO has passed both ways; a peer with this module's number fences it. -/
def execHello (lp : Fin 12) (peer : BitVec 12) (peerPort : Fin 16) (sparePeer : Option (BitVec 12)) (mineHeard : Bool) (s : State) : Host.Outcome State Fault Refusal :=
  let x := s.lp lp.val
  if !s.up ∨ x.mode ≠ .training ∨ s.domain (492 + lp.val) ≠ .on then .next s
  else if peer = s.link.number then .next (s.portTo lp .fenced false)
  else
    let s := s.setLp lp.val { x with peer := peer, peerPort := BitVec.ofNat 4 peerPort.val, sparePeer := sparePeer }
    let s := s.sendHello lp
    if !mineHeard then .next s
    else .next ((((s.setLp lp.val { s.lp lp.val with mode := .up, fails := 0, txSeq := 1, rxSeq := 1 })).atlasUpdate 8 0).pump)

/-- LINK_LOST (R343, R353): the port retrains by itself. -/
def execLinkLost (lp : Fin 12) (s : State) : Host.Outcome State Fault Refusal :=
  if !s.up ∨ (s.lp lp.val).mode ≠ .up then .next s else .next (s.portTo lp .training false)

/-- PORT_TRAINING_FAILED (R343): the third failure in a row fences the port. -/
def execPortTrainingFailed (lp : Fin 12) (s : State) : Host.Outcome State Fault Refusal :=
  let x := s.lp lp.val
  if !s.up ∨ x.mode ≠ .training ∨ s.domain (492 + lp.val) ≠ .on then .next s else
  let s := s.setLp lp.val { x with fails := x.fails + 1 }
  if x.fails + 1 < 3 then .next s else .next (s.portTo lp .fenced false)

/-! ### Lanes (R341, R342) -/

/-- The group spare is free for a port: cabled to its peer, allowed, and neither in use nor promised (R341). -/
def State.spareFree (s : State) (n : Fin 12) : Bool :=
  let x := s.lp n.val
  x.spareEnable && decide (x.sparePeer = some s.link.number)
    && (List.range 3).all (fun i => (s.lp (n.val / 3 * 3 + i)).spare.isNone && (s.lp (n.val / 3 * 3 + i)).subst.isNone)

/-- LANE_CORRECTION_THRESHOLD (R342): the spare is powered and trained while the lane keeps running. -/
def execLaneCorrectionThreshold (lp : Fin 12) (lane : Fin 4) (s : State) : Host.Outcome State Fault Refusal :=
  let x := s.lp lp.val
  if !s.up ∨ x.mode ≠ .up ∨ x.failed.contains lane.val ∨ !s.spareFree lp then .next s
  else .next (s.setLp lp.val { x with subst := some (lane.val, false), trained := false })

/-- The pair of port lanes that holds no failed lane: 0 for lanes 0-1, 1 for lanes 2-3. -/
def goodPair (failed : List Nat) : Option Nat :=
  if failed.all (fun l => decide (2 ≤ l)) then some 0 else if failed.all (fun l => decide (l < 2)) then some 1 else none

/-- LANE_ABRUPT_FAILURE (R342): half width on a pair without a failed lane, with a replay; no such pair fences the port. -/
def execLaneAbruptFailure (lp : Fin 12) (lane : Fin 4) (s : State) : Host.Outcome State Fault Refusal :=
  let x := s.lp lp.val
  if !s.up ∨ x.mode ≠ .up ∨ x.failed.contains lane.val then .next s else
  let failed := x.failed ++ [lane.val]
  match goodPair failed with
  | none => .next ((s.setLp lp.val { x with failed := failed }).portTo lp .fenced false)
  | some k =>
    let free := s.spareFree lp
    let s := s.setLp lp.val { x with
      failed := failed, half := some k
      subst := if free then some (lane.val, false) else x.subst
      replays := if x.replays = BitVec.allOnes 16 then x.replays else x.replays + 1 }
    let s := x.replay.foldl (fun s y => s.emit (.frame lp y.2.2)) s
    .next (if x.half.isSome then s else (s.report (mkReport 0x0071 (unitId 8 lp.val) 0)).atlasUpdate 8 0)

/-- Sends SUBSTITUTE on a port (R342, R347, R348). -/
def State.sendSubstitute (s : State) (n : Fin 12) (lane : Nat) : State :=
  let s := s.setLp n.val { s.lp n.val with trained := true }
  s.putOn n none ⟨BitVec.ofNat 320 (3 <<< 32 + 0x21 <<< 64 + 1 <<< 144), [BitVec.ofNat 8 lane, BitVec.ofNat 8 (48 + n.val / 3)]⟩

/-- SPARE_LANE_TRAINED (R342): the ends exchange SUBSTITUTE. -/
def execSpareLaneTrained (k : Fin 4) (s : State) : Host.Outcome State Fault Refusal :=
  if !s.up then .next s else
  match (List.range 3).find? (fun i => decide ((s.lp (3 * k.val + i)).mode = .up) && (s.lp (3 * k.val + i)).subst.isSome && !(s.lp (3 * k.val + i)).trained) with
  | none => .next s
  | some i =>
    let n := toLp (3 * k.val + i)
    match (s.lp n.val).subst with
    | none => .next s
    | some (lane, _) => if s.canSend n.val none 3 then .next (s.sendSubstitute n lane) else .next s

/-- SUBSTITUTE (R342): the peer names the port lane that its spare is to replace. -/
def execSubstitute (lp : Fin 12) (lane : Fin 4) (spare : Fin 52) (s : State) : Host.Outcome State Fault Refusal :=
  let x := s.lp lp.val
  if !s.up ∨ x.mode ≠ .up then .next s else
  let mine := decide (48 ≤ spare.val) && (match x.subst with
    | some (l, _) => decide (l = lane.val)
    | none => s.spareFree lp)
  let answer := mine && !x.trained
  if answer ∧ !s.canSend lp.val none 3 then .next s else
  let s := s.setLp lp.val { x with rxSeq := x.rxSeq + 1, subst := if mine then some (lane.val, true) else x.subst }
  let s := if answer then s.sendSubstitute lp lane.val else s
  .next (s.giveCredit lp 3).pump

/-- LANE_SWITCH (R342): the switch to the spare at the agreed codeword boundary. -/
def execLaneSwitch (lp : Fin 12) (s : State) : Host.Outcome State Fault Refusal :=
  let x := s.lp lp.val
  match x.subst with
  | some (lane, true) =>
    if !s.up ∨ x.mode ≠ .up then .next s else
    let failed := x.failed.filter (fun l => decide (l ≠ lane))
    let s := s.setLp lp.val { x with spare := some (lane, 48 + lp.val / 3), failed := failed, half := if failed = [] then none else x.half, subst := none, trained := false }
    let s := if x.half.isSome ∧ failed = [] then s.atlasUpdate 8 0 else s
    .next ((s.report (mkReport 0x0070 (unitId 8 lp.val) 0)).atlasUpdate 4 0)
  | _ => .next s

/-! ### Requests of other modules (R355, R356) -/

/-- The lines that a request touches, with the offset and length in each. -/
def TxFrame.cuts (f : TxFrame) (n : Nat) : List (Nat × Nat) := lineCuts f.addr n

/-- No line that a request touches has a transaction in progress. -/
def State.cutsFree (s : State) (l : List (Nat × Nat)) : Bool := l.all (fun x => !s.txnBusy (x.1 / 128))

/-- The range lies in plots granted to the stream's partition. -/
def State.cutsOwned (s : State) (p : Fin 16) (l : List (Nat × Nat)) : Bool := l.all (fun x => s.owns p (x.1 / 128))

/-- Granules of a part of a range that the marks of its line name. -/
def cutBad (x : Nat × Nat) (po : BitVec 2) : List Nat :=
  ([0, 1] : List Nat).filterMap (fun g => if po.getLsbD g ∧ x.1 % 128 / 64 ≤ g ∧ g ≤ (x.1 % 128 + x.2 - 1) / 64 then some (x.1 / 128 * 2 + g) else none)

/-- The granules of a range that are poisoned. -/
def State.cutsPoison (s : State) (l : List (Nat × Nat)) : List Nat := (l.map (fun x => cutBad x (s.peek (x.1 / 128)).2)).flatten

/-- A channel out of service or a lost hub cannot perform an access of the line (R154, R356); `whole` when it would write a
whole line into the slice. -/
def State.lineDark (s : State) (line : Nat) (whole : Bool) : Bool :=
  let u := s.unitOf line
  !s.hubUp (u / 96) || (!s.unitUp u && (s.llcFind line).isNone && !whole)

/-- POISON_READ for each poisoned granule that a request of another module meets (R400). -/
def State.notePoison (s : State) (p : Fin 16) (l : List Nat) : State :=
  l.foldl (fun s g => if s.isRefilling (g / 64) then s else s.poisonRead p g (unitId 3 14)) s

/-- Answers a request on the partition's transmit stream to its module: without one nothing can be sent (R347, R354). -/
def State.respond (s : State) (p : Fin 16) (f : TxFrame) (op len status : Nat) (payload : List Byte) : State :=
  match s.makeFrame p ⟨op, f.hint, f.src.toNat, f.tag, len, f.addr, 0, status⟩ payload with
  | (some r, s) => s.post (.part p) r
  | (none, s) => s

/-- READ as performed here (R356). -/
def State.performRead (s : State) (n : Fin 12) (p : Fin 16) (f : TxFrame) : State :=
  let s := s.charge p none .memory f.len
  let l := f.cuts f.len
  let fail (s : State) (status : Nat) : State :=
    let (b, s) := s.freeBytes f.len
    s.respond p f 0x10 f.len status b
  if !s.cutsOwned p l then fail s 1
  else if l.any (fun x => s.lineDark (x.1 / 128) false) then fail s 3
  else
    let (b, bad, s) := l.foldl (fun (y : List Byte × List Nat × State) x =>
      let ((d, po), s) := y.2.2.engRead p (x.1 / 128) f.hint (.master (.meridian n))
      (y.1 ++ lineBytes d (x.1 % 128) x.2, y.2.1 ++ cutBad x po, s)) ([], [], s)
    (s.notePoison p bad).respond p f 0x10 f.len (if bad = [] then 0 else 2) b

/-- Writes one line's part of a frame, under its hint or its stash target (R198, R356). -/
def State.frameStore (s : State) (n : Fin 12) (p : Fin 16) (f : TxFrame) (a : Nat) (b : List Byte) : State :=
  let kind := field f.stash 14 2
  if kind = 1 ∨ kind = 2 then s.stashWrite p a b f.stash (.master (.meridian n))
  else s.engWrite p (a / 128) (placeBytes (a % 128) b) (byteMask (a % 128) b.length) 0 f.hint (.master (.meridian n))

/-- The parts of a frame's payload, in order. -/
def State.frameStores (s : State) (n : Fin 12) (p : Fin 16) (f : TxFrame) : List (Nat × Nat) → List Byte → State
  | [], _ => s
  | (a, k) :: t, b => State.frameStores (s.frameStore n p f a (b.take k)) n p f t (b.drop k)

/-- WRITE or BULK_WRITE as performed here (R356). -/
def State.performWrite (s : State) (n : Fin 12) (p : Fin 16) (f : TxFrame) : State :=
  let s := s.charge p none .memory f.len
  let l := f.cuts f.len
  if !s.cutsOwned p l then s.respond p f 0x11 1 1 []
  else if l.any (fun x => s.lineDark (x.1 / 128) (decide (x.2 = 128 ∧ f.hint ≠ 3))) then s.respond p f 0x11 1 3 []
  else
    let bad := s.cutsPoison l
    if bad ≠ [] then (s.notePoison p bad).respond p f 0x11 1 2 []
    else (s.frameStores n p f l f.payload).respond p f 0x11 1 0 []

/-- The operation of an ATOMIC frame: an atomic that returns the old value, or a RED form (R347). -/
def frameAtomic (code : Nat) : Option (AtomicOp × Bool) :=
  match code with
  | 0x00 => some (.add, true)
  | 0x01 => some (.min, true)
  | 0x02 => some (.max, true)
  | 0x03 => some (.and, true)
  | 0x04 => some (.or, true)
  | 0x05 => some (.xor, true)
  | 0x06 => some (.exch, true)
  | 0x07 => some (.cas, true)
  | 0x10 => some (.add, false)
  | 0x11 => some (.min, false)
  | 0x12 => some (.max, false)
  | 0x13 => some (.and, false)
  | 0x14 => some (.or, false)
  | 0x15 => some (.xor, false)
  | _ => none

/-- ATOMIC as performed here (R196, R197, R356). -/
def State.performAtomic (s : State) (n : Fin 12) (p : Fin 16) (f : TxFrame) : State :=
  let size := (f.payload.getD 1 0).toNat
  let w := elemBits size
  match frameAtomic (f.payload.getD 0 0).toNat with
  | none => s.frameInvalid n
  | some (op, old) =>
    if (size ≠ 2 ∧ size ≠ 3) ∨ f.addr % (w / 8) ≠ 0 ∨ (op = .cas ∧ f.len ≠ 24) then s.frameInvalid n else
    let s := s.charge p none .memory (w / 8)
    let l := [(f.addr, w / 8)]
    let len := if old then w / 8 else 1
    let free (s : State) : List Byte × State := if old then s.freeBytes (w / 8) else ([], s)
    let fail (s : State) (status : Nat) : State :=
      let (b, s) := free s
      s.respond p f 0x12 len status b
    if !s.cutsOwned p l then fail s 1
    else if s.lineDark (f.addr / 128) false then fail s 3
    else
      let bad := s.cutsPoison l
      let v := leNat ((f.payload.drop 8).take (w / 8))
      let x := leNat ((f.payload.drop 16).take (w / 8))
      let o := f.addr % 128
      let was := leNat (lineBytes (s.peek (f.addr / 128)).1 o (w / 8))
      let s := s.notePoison p bad
      match s.engUpdate p (f.addr / 128) f.hint (BitVec.ofNat 2 (2 ^ (o / 64))) (fun d => putField d (8 * o) w (applyAtomic op w (field d (8 * o) w) v x)) (.master (.meridian n)) with
      | (true, s) => s.respond p f 0x12 len 0 (if old then leBytes (w / 8) was else [])
      | (false, s) => fail s 2

/-- MERIDIAN_READ (R355, R356). -/
def execMeridianRead (lp : Fin 12) (f : Frame) (s : State) : Host.Outcome State Fault Refusal :=
  let x := rxFrame f
  .next (s.receive lp 1 f (s.cutsFree (x.cuts x.len)) (fun r s => s.performRead lp r.part x))

/-- MERIDIAN_WRITE (R355, R356). -/
def execMeridianWrite (lp : Fin 12) (f : Frame) (s : State) : Host.Outcome State Fault Refusal :=
  let x := rxFrame f
  .next (s.receive lp 2 f (s.cutsFree (x.cuts x.len)) (fun r s => s.performWrite lp r.part x))

/-- BULK_WRITE (R355, R356). -/
def execBulkWrite (lp : Fin 12) (f : Frame) (s : State) : Host.Outcome State Fault Refusal :=
  let x := rxFrame f
  .next (s.receive lp 3 f (s.cutsFree (x.cuts x.len)) (fun r s => s.performWrite lp r.part x))

/-- MERIDIAN_ATOMIC (R355, R356). -/
def execMeridianAtomic (lp : Fin 12) (f : Frame) (s : State) : Host.Outcome State Fault Refusal :=
  let x := rxFrame f
  .next (s.receive lp 4 f (s.cutsFree [(x.addr, 1)]) (fun r s => s.performAtomic lp r.part x))

end Sys2Proof.Machine
end

