-- ==== Sys2Proof/Machine/Guest.lean ====
section
/-! DEFINITION. The guest site (08 R235-R241; 13 R378; 15 R422): enable, training, partial reset, and guest messages. -/

namespace Sys2Proof.Machine

/-- What came back for a read of the guest window. -/
def State.guestData (s : State) (n : Nat) (use : HostFor) (st : CplStatus) (b : List Byte) : State :=
  s.hostData ⟨0, 0, 0, 0, n, use, none⟩ st b

/-- The partition that a read of the window is for. -/
def State.readParts (s : State) (use : HostFor) : BitVec 16 :=
  match s.readPart use with
  | some p => partBit p
  | none => 0

/-- Entry into a partial reset (R238): guest requests not yet accepted are dropped, and reads of the window that are outstanding
complete with all-ones data, each with a contained record. -/
def State.guestDrop (s : State) : State :=
  let l := s.link.guest.reads
  let s := s.setGuest { s.link.guest with reads := [], waiting := [], credits := 0, dataCredits := 0 }
  l.foldl (fun s r => (s.guestData r.2.1 r.2.2 .success (List.replicate r.2.1 0xFF)).report
    { mkReport 0x0045 (unitId 11 0) 0 with parts := s.readParts r.2.2 }) s

/-- Firmware installs the root of a partition's guest address space, which no rule places (R240): a free page. -/
def State.guestRoot (s : State) (p : Fin 16) : State :=
  if (Tbl.get none s.mem.guestRoots p.val).isSome then s else
  let (v, s) := s.freeVal 44
  { s with mem := { s.mem with guestRoots := Tbl.set none s.mem.guestRoots p.val (some v.toNat) } }

/-- Training starts from step 1 of R236: OWNER and the limits take effect, earlier results are ignored (R241). -/
def State.guestTrain (s : State) : State :=
  let s := s.guestDrop
  let x := s.link.guest
  ((s.setGuest { x with st := 1, modules := 0, rate := 0, offer := 0, offerRate := 0, retried := false, owner := toPart (field x.control 8 4), maxRate := field x.control 1 2, maxModules := field x.control 3 3 }).guestRoot (toPart (field x.control 8 4))).atlasUpdate 8 0

/-- The guest site can be brought up: its hub is present (R410). -/
def State.guestHub (s : State) : Bool := s.hubUp 2

/-- RETRAIN (R237, R238): also from a disabled site. -/
def State.guestAgain (s : State) : State :=
  if s.link.guest.control.getLsbD 0 ∧ s.guestHub then s.guestTrain else s

/-- A write of GST_CONTROL (R241): a reserved MAX_MODULES keeps its value (R8). -/
def State.guestControl (s : State) (v : Word) : State :=
  let x := s.link.guest
  let was := x.control.getLsbD 0
  let on := v.getLsbD 0
  let mm := if 1 ≤ field v 3 3 ∧ field v 3 3 ≤ 4 then field v 3 3 else field x.control 3 3
  let c : Word := BitVec.ofNat 64 ((if on then 1 else 0) + 2 * field v 1 2 + 8 * mm + 256 * field v 8 4)
  let s := s.setGuest { x with control := c }
  if !on then
    if !was then s else
    let s := s.guestDrop
    let x := s.link.guest
    ((s.setGuest { x with st := if x.st = 3 then 3 else 0, modules := 0, rate := 0 }).dropDomain 506).atlasUpdate 8 0
  else
    let s := if was then s else s.wantDomain 506
    if v.getLsbD 6 then s.guestAgain
    else if !was ∧ x.st ≠ 3 ∧ s.guestHub then s.guestTrain
    else s

/-- GST_ENABLE (R236, R241). -/
def execGstEnable (port : Fin 2) (v : Word) (s : State) : Host.Outcome State Fault Refusal :=
  if s.barServes port 0 then .next (s.guestControl v) else .next s

/-- The rates of MAX_RATE. -/
def guestRates (code : Nat) : Nat := [4, 8, 12, 16].getD code 4

/-- The credits that the hub grants a guest whose site is up (R239). -/
def GuestState.grant (x : GuestState) : GuestState := { x with credits := 256, dataCredits := 256 }

/-- GUEST_TRAINING_COMPLETE (R236, R237): the counts that the hub and the guest report as trained. A guest's highest rate is the
highest of R235's list that it does not exceed; one of no module, or slower than all of them, does not come up. -/
def execGuestTrainingComplete (hubCount guestCount guestMax : Fin 8) (guestRate : Fin 32) (vendor product : BitVec 16) (s : State) : Host.Outcome State Fault Refusal :=
  let x := s.link.guest
  let theirs := (([16, 12, 8, 4] : List Nat).find? (fun r => decide (r ≤ guestRate.val))).getD 0
  if !s.up ∨ x.st ≠ 1 ∨ s.domain 506 ≠ .on ∨ !s.guestHub ∨ theirs = 0 ∨ guestMax = 0 ∨ hubCount = 0 ∨ guestCount = 0 then .next s else
  let offer := if x.retried then x.offer else min x.maxModules guestMax.val
  let rate := if x.retried then x.offerRate else min (guestRates x.maxRate) theirs
  let x := { x with vendor := vendor, product := product, offer := offer, offerRate := rate }
  if offer < hubCount.val ∨ offer < guestCount.val then .next s
  else if hubCount = guestCount then .next ((s.setGuest { x with st := 2, modules := hubCount.val, rate := rate }.grant).atlasUpdate 8 0)
  else if !x.retried then .next (s.setGuest { x with retried := true, offer := min hubCount.val guestCount.val })
  else .next (((s.setGuest { x with st := 3, mismatch := true }).report (mkReport 0x0044 (unitId 11 0) 0)).atlasUpdate 8 0)

/-- GUEST_RETRAIN (R238): a disabled site comes back only for host software. -/
def execGuestRetrain (cause : RetrainCause) (s : State) : Host.Outcome State Fault Refusal :=
  if !s.up ∨ (cause ≠ .host ∧ s.link.guest.st = 3) then .next s else .next s.guestAgain

/-! ### Guest messages (R239, R240) -/

/-- GUEST_READ (R240): the request enters the hub's input buffer, and what can be performed is. -/
def execGuestRead (msg : BitVec 128) (s : State) : Host.Outcome State Fault Refusal :=
  let x := s.link.guest
  if !s.up ∨ x.st ≠ 2 then .next s
  else if !guestMsgOk 0 msg then .next (s.guestInvalid 0 0 0)
  else .next (s.guestTake msg 0)

/-- GUEST_WRITE (R240): a write that faults is discarded, with a record. -/
def execGuestWrite (msg : BitVec 128) (data : Line) (s : State) : Host.Outcome State Fault Refusal :=
  let x := s.link.guest
  if !s.up ∨ x.st ≠ 2 then .next s
  else if !guestMsgOk 1 msg then .next (s.guestInvalid 0 0 0)
  else .next (s.guestTake msg data)

/-- GUEST_READ_RESP (R239): the answer to a read of the window. -/
def execGuestReadResp (msg : BitVec 128) (data : Line) (s : State) : Host.Outcome State Fault Refusal :=
  let x := s.link.guest
  if !s.up ∨ x.st ≠ 2 then .next s
  else if !guestMsgOk 2 msg then .next (s.guestInvalid 0 0 0)
  else match x.reads.find? (fun r => decide (r.1 = field msg 4 12)) with
    | none => .next s
    | some (t, n, use) =>
      let s := s.setGuest { x with reads := x.reads.filter (fun r => decide (r.1 ≠ t)) }
      if field msg 24 4 = 0 then .next (s.guestData n use .success (lineBytes data 0 n))
      else if field msg 24 4 = 3 then .next (s.guestData n use .poisonedTlp [])
      else
        let (b, s) := s.freeBytes n
        .next (s.guestData n use .success b)

end Sys2Proof.Machine
end

