-- ==== Sys2Proof/Machine/Registers.lean ====
section
/-! DEFINITION. Writes of registers by their access types (00 R8-R11; 17 R451-R457), and the start of a core (14 R409). -/

namespace Sys2Proof.Machine

/-- Bits [31:0] of one word under bits [63:32] of another. -/
def joinHalves (lo hi : Word) : Word := (hi &&& 0xFFFFFFFF00000000) ||| (lo &&& 0xFFFFFFFF)

/-- The function that a port's PCIE_FN_SELECT names. -/
def State.selFn (s : State) (port : Fin 2) : Fin 128 := ⟨(s.port port).fnSelect.toNat, (s.port port).fnSelect.isLt⟩

/-! ### What the RW fields of a register hold -/

/-- PCIE_FN_BIND without REFUSED (R338). -/
def State.bindWord (s : State) (port : Fin 2) (fn : Fin 128) : Word :=
  let f := s.fn port fn
  BitVec.ofNat 64 ((f.bound.map (·.val)).getD 0 + (if f.bound.isSome then 16 else 0) + (if f.coreDefault then 32 else 0)
    + 256 * f.corePasid.toNat)

/-- ERR_RING_CONTROL (R398). -/
def State.ringWord (s : State) (port : Fin 2) : Word :=
  let x := s.port port
  BitVec.ofNat 64 ((if x.ringEnable then 1 else 0) + 2 * x.ringMin + (if x.ringIrq then 16 else 0) + 256 * x.ringHoldoff.toNat
    + 65536 * x.ringVector.toNat)

/-- The RW fields of a register, its W1C and WO fields 0, for a register with fields in both halves (R9). -/
def State.heldWord (s : State) (port : Fin 2) (off : Nat) : Word :=
  let x := s.port port
  let f := s.fn port (s.selFn port)
  if 0x10020 ≤ off ∧ off < 0x10040 then x.regs.partArg.getD ((off - 0x10020) / 8) 0
  else if 0x20040 ≤ off ∧ off < 0x20080 then x.regs.chanData.getD ((off - 0x20040) / 8) 0
  else if off = 0x30000 then s.mem.bandMode.setWidth 64
  else if off = 0x60010 then s.bindWord port (s.selFn port)
  else if off = 0x60020 then f.dirtyBase0
  else if off = 0x60028 then f.dirtyBase1
  else if off = 0x60030 then f.dirtyIova
  else if off = 0x60038 then f.dirtyPages.setWidth 64 ||| (if f.dirtyEnable then 1 <<< 32 else 0)
  else if off = 0x80008 then x.ringBlock
  else if off = 0x80028 then Tbl.get 0 s.mem.refillBase x.refillSelect.toNat
  else if 0x91000 ≤ off ∧ off < 0x92000 then BitVec.ofNat 64 (x.mboxNat (off - 0x91000) 8)
  else 0

/-- The register has a field in bits [63:32]. -/
def highFields (off : Nat) : Bool :=
  decide ((0x10020 ≤ off ∧ off < 0x10040) ∨ (0x20040 ≤ off ∧ off < 0x20080) ∨ off = 0x30000 ∨ off = 0x60010
    ∨ (0x60020 ≤ off ∧ off ≤ 0x60038) ∨ off = 0x80008 ∨ off = 0x80018 ∨ off = 0x80028 ∨ (0x91000 ≤ off ∧ off < 0x92000))

/-! ### The blocks -/

/-- A write to the PART block (R280, R282, R453). The control blocks of SET_RINGS in host memory belong to that row. -/
def State.writePart (s : State) (port : Fin 2) (off : Nat) (v : Word) : State :=
  let r := (s.port port).regs
  if off = 0x10000 then (if r.partBusy then s else s.setRegs port { r with partSelect := bits v 0 4 })
  else if off = 0x10008 then
    let a := field v 0 5
    if 1 ≤ a ∧ a ≤ 16 ∧ ¬ (a = 14 ∧ (r.partArg.getD 2 0).getLsbD 0) then s.take false a (.host port) (none, none) else s
  else if 0x10020 ≤ off ∧ off < 0x10040 then
    (if r.partBusy then s else s.setRegs port { r with partArg := r.partArg.set ((off - 0x10020) / 8) v })
  else s

/-- A write to the CHAN block (R244, R245, R453): CHANNEL keeps its value under a reserved one (R8). -/
def State.writeChan (s : State) (port : Fin 2) (off : Nat) (v : Word) : State :=
  let r := (s.port port).regs
  if off = 0x20008 then (if r.chanBusy ∨ 3072 ≤ field v 0 12 then s else s.setRegs port { r with chanSelect := bits v 0 12 })
  else if off = 0x20010 then
    let a := field v 0 3
    if 1 ≤ a ∧ a ≤ 5 then s.take true a (.host port) (none, none) else s
  else if 0x20040 ≤ off ∧ off < 0x20080 then
    (if r.chanBusy then s else s.setRegs port { r with chanData := r.chanData.set ((off - 0x20040) / 8) v })
  else s

/-- A write to the MEM and LLC blocks (R177, R459). -/
def State.writeMemLlc (s : State) (port : Fin 2) (off : Nat) (v : Word) : State :=
  let x := s.port port
  if off = 0x30000 then s.writeBands v
  else if off = 0x30008 then (if 1128 ≤ field v 0 11 then s else s.setPort port { x with plotSelect := bits v 0 11 })
  else if off = 0x30018 then s.setPort port { x with hubSelect := bits v 0 2 }
  else if off = 0x40000 then s.setPort port { x with llcSelect := bits v 0 4 }
  else if off = 0x40008 then s.writeWays port v
  else s

/-- NUMBER is locked while ENABLE is set on any link port (R344, R456). -/
def State.numberLocked (s : State) : Bool := (List.range 12).any (fun n => (s.lp n).enable)

/-- A write to the LNK block (R362, R456): reserved numbers keep the field's value (R8, R344). -/
def State.writeLink (s : State) (port : Fin 2) (off : Nat) (v : Word) : State :=
  let x := s.port port
  if off = 0x50000 then
    (if s.numberLocked ∨ field v 0 12 = 0xFFF then s else { s with link := { s.link with number := bits v 0 12 } })
  else if off = 0x50008 then (if 12 ≤ field v 0 4 then s else s.setPort port { x with linkSelect := bits v 0 4 })
  else if off = 0x50010 then s.portControl (toLp x.linkSelect.toNat) v
  else if off = 0x50028 then (if field v 0 12 = 0xFFF then s else s.setPort port { x with routeSelect := bits v 0 12 })
  else if off = 0x50030 then s.writeRoute port v
  else s

/-- A write of PCIE_DIRTY_CONTROL (R335-R338): PAGES is written while ENABLE is 0; bitmap 0 is active when ENABLE goes from 0
to 1; a FLIP clears FLIP_DONE after the write has. -/
def State.writeDirty (s : State) (port : Fin 2) (fn : Fin 128) (v : Word) : State :=
  let f := s.fn port fn
  let s := s.setFn port fn { f with
    dirtyPages := if f.dirtyEnable then f.dirtyPages else bits v 0 32
    dirtyEnable := v.getLsbD 32
    dirtyActive := f.dirtyActive && (f.dirtyEnable || !v.getLsbD 32)
    flipDone := f.flipDone && !v.getLsbD 35
    outOfRange := f.outOfRange && !v.getLsbD 36
    flipRefused := f.flipRefused && !v.getLsbD 37 }
  if v.getLsbD 34 then s.flipFn port fn else s

/-- A write to the PCIE block, for the function selected (R317, R338): the bases and the first page are written while
ENABLE is 0. -/
def State.writePcie (s : State) (port : Fin 2) (off : Nat) (v : Word) : State :=
  let fn := s.selFn port
  let f := s.fn port fn
  if off = 0x60008 then s.setPort port { s.port port with fnSelect := bits v 0 7 }
  else if off = 0x60010 then s.bindFn port fn v
  else if off = 0x60038 then s.writeDirty port fn v
  else if f.dirtyEnable then s
  else if off = 0x60020 then s.setFn port fn { f with dirtyBase0 := v }
  else if off = 0x60028 then s.setFn port fn { f with dirtyBase1 := v }
  else if off = 0x60030 then s.setFn port fn { f with dirtyIova := v &&& ~~~0xFFF }
  else s

/-- The indices of R421: domains, sensors, and the two converters. -/
def sensorIndex (n : Nat) : Bool :=
  decide (n ≤ 506 ∨ (0x800 ≤ n ∧ n ≤ 0x8B7) ∨ (0x900 ≤ n ∧ n ≤ 0x917) ∨ n = 0x980 ∨ n = 0x981)

/-- A write to the PWR and ERR blocks (R398, R403, R437): reserved CAP_STEP and SENSOR values keep the field's (R8). A write that takes ENABLE of the error ring from 0 to 1 belongs to
the row ERR_RING_ENABLE, which brings the control block. -/
def State.writeErr (s : State) (port : Fin 2) (off : Nat) (v : Word) : State :=
  let x := s.port port
  if off = 0x70000 then (if 96 < field v 0 7 then s else { s with pow := { s.pow with capStep := field v 0 7 } })
  else if off = 0x70020 then (if sensorIndex (field v 0 12) then s.setPort port { x with sensorSelect := bits v 0 12 } else s)
  else if off = 0x80000 then (if v.getLsbD 0 ∧ !x.ringEnable then s else s.writeRing port v none)
  else if off = 0x80008 then (if x.ringEnable then s else s.setPort port { x with ringBlock := v &&& ~~~0x3F })
  else if off = 0x80018 then s.inject v
  else if off = 0x80020 then s.setPort port { x with refillSelect := bits v 0 4 }
  else if off = 0x80028 then s.writeRefill port v
  else s

/-- A write of SEC_MBOX_COMMAND (R383, R384): a reserved CODE ends with SEC_BAD_REQUEST. -/
def State.writeCommand (s : State) (port : Fin 2) (v : Word) : State :=
  let len : Fin 8192 := ⟨field v 8 13, by unfold field; exact Nat.mod_lt _ (by decide)⟩
  let code := field v 0 8
  if code = 1 then s.mboxLog port len
  else if code = 2 then s.mboxReport port len
  else if code = 3 then s.mboxCerts port len
  else if code = 4 then s.shareMailbox port len.val
  else if code = 5 then s.mboxOpen port len
  else if code = 6 then s.mboxClose port len
  else if s.mboxTakes port then s.mboxDone port 1 []
  else s

/-- A write to the SEC, GST and DBG blocks (R241, R383, R385, R453). A write of UNLOCK belongs to the row UNLOCK, which brings
the check of the token. -/
def State.writeSec (s : State) (port : Fin 2) (off : Nat) (v : Word) : State :=
  let x := s.port port
  if off = 0x90000 then s.writeCommand port v
  else if 0x91000 ≤ off ∧ off < 0x92000 then
    (if x.mboxBusy then s else s.setPort port { x with mbox := ((List.range 8).foldl (fun (t : Tbl Byte) i => Tbl.set 0 t (off - 0x91000 + i) (bits v (8 * i) 8)) x.mbox) })
  else if off = 0xA0000 then s.guestControl v
  else if off = 0xA0008 then s.setGuest { s.link.guest with mismatch := s.link.guest.mismatch && !v.getLsbD 10 }
  else if off = 0xB0028 then { s with sec := { s.sec with debugRefused := s.sec.debugRefused && !v.getLsbD 2 } }
  else s

/-- A 64-bit write of a register of a physical function's BAR0 (R8, R10, R11, R457). -/
def State.writeReg (s : State) (port : Fin 2) (off : Nat) (v : Word) : State :=
  if off < 0x10000 then s
  else if off < 0x20000 then s.writePart port off v
  else if off < 0x30000 then s.writeChan port off v
  else if off < 0x50000 then s.writeMemLlc port off v
  else if off < 0x60000 then s.writeLink port off v
  else if off < 0x70000 then s.writePcie port off v
  else if off < 0x90000 then s.writeErr port off v
  else s.writeSec port off v

/-- A write of a size and at an offset (R9): a 32-bit write acts on its half; other sizes and alignments are discarded. -/
def State.writeSized (s : State) (port : Fin 2) (off size : Nat) (v : Word) : State :=
  if size = 8 ∧ off % 8 = 0 then s.writeReg port off v
  else if size = 4 ∧ off % 8 = 0 then s.writeReg port off (joinHalves v (s.heldWord port off))
  else if size = 4 ∧ off % 8 = 4 ∧ highFields (off - 4) then
    s.writeReg port (off - 4) (joinHalves (s.heldWord port (off - 4)) (v <<< 32))
  else s

/-- The nudge slot of a physical function at an offset (R9, R244, R457). -/
def nudgeSlot (off : Nat) : Option (Fin 3072) :=
  if h : 0x28000 ≤ off ∧ off < 0x2E000 then some ⟨(off - 0x28000) / 8, by omega⟩ else none

/-- The nudge slot of a virtual function at an offset (R9, R457). -/
def vfSlot (off : Nat) : Option (Fin 512) :=
  if h : 0x1000 ≤ off ∧ off < 0x2000 then some ⟨(off - 0x1000) / 8, by omega⟩ else none

/-- REGISTER_WRITE (R9, R11): the value is in the low bits of the operand. -/
def execRegisterWrite (a : RegAccess) (v : Word) (s : State) : Host.Outcome State Fault Refusal :=
  match a.vf with
  | some f => (match vfSlot a.off.toNat with
    | some n => .next (s.vfNudge a.port f n)
    | none => .next s)
  | none => (match nudgeSlot a.off.toNat with
    | some ch => .next (s.pfNudge a.port ch)
    | none => .next (if s.barServes a.port 0 then s.writeSized a.port a.off.toNat a.size v else s))

/-- HART_START (R409): a core of the grant list that is active and in reset starts at an address. -/
def execHartStart (p : Fin 16) (index : Fin 256) (entry : Word) (s : State) : Host.Outcome State Fault Refusal :=
  match (s.partition p).cores[index.val]? with
  | none => .next s
  | some n =>
    let c := s.core n
    if !s.callable p ∨ c.st ≠ 0 ∨ c.running then .next s else .next (s.setCore n { c with running := true, pc := entry })

end Sys2Proof.Machine
end

