-- ==== Sys2Proof/Machine/Dispatch.lean ====
section
/-! DEFINITION. The dispatch: one arm per command. -/

namespace Sys2Proof.Machine

/-- A command's effect on everything but the queue. -/
def exec (i : Instr) (s : State) : Host.Outcome State Fault Refusal :=
  match i with
  | .integerOp iss op ops => Sys2Proof.Machine.execIntegerOp iss op ops s
  | .fp32Op iss op ops => Sys2Proof.Machine.execFp32Op iss op ops s
  | .fp64Op iss op ops => Sys2Proof.Machine.execFp64Op iss op ops s
  | .packed16Op iss op ops => Sys2Proof.Machine.execPacked16Op iss op ops s
  | .cvt iss ops => Sys2Proof.Machine.execCvt iss ops s
  | .unpk12 iss ops => Sys2Proof.Machine.execUnpk12 iss ops s
  | .pk12 iss ops => Sys2Proof.Machine.execPk12 iss ops s
  | .setp iss ops => Sys2Proof.Machine.execSetp iss ops s
  | .pand iss ops => Sys2Proof.Machine.execPand iss ops s
  | .por iss ops => Sys2Proof.Machine.execPor iss ops s
  | .pxor iss ops => Sys2Proof.Machine.execPxor iss ops s
  | .pnot iss ops => Sys2Proof.Machine.execPnot iss ops s
  | .shfl iss ops => Sys2Proof.Machine.execShfl iss ops s
  | .shflXor iss ops => Sys2Proof.Machine.execShflXor iss ops s
  | .bcast iss ops => Sys2Proof.Machine.execBcast iss ops s
  | .ballot iss ops => Sys2Proof.Machine.execBallot iss ops s
  | .vote iss ops => Sys2Proof.Machine.execVote iss ops s
  | .nbr iss dir ops => Sys2Proof.Machine.execNbr iss dir ops s
  | .ld iss ops => Sys2Proof.Machine.execLd iss ops s
  | .st iss ops => Sys2Proof.Machine.execSt iss ops s
  | .prefetch iss ops => Sys2Proof.Machine.execPrefetch iss ops s
  | .atomic iss op ops => Sys2Proof.Machine.execAtomic iss op ops s
  | .red iss op ops => Sys2Proof.Machine.execRed iss op ops s
  | .bra iss ops => Sys2Proof.Machine.execBra iss ops s
  | .brx iss ops => Sys2Proof.Machine.execBrx iss ops s
  | .call iss ops => Sys2Proof.Machine.execCall iss ops s
  | .ret iss ops => Sys2Proof.Machine.execRet iss ops s
  | .exit iss ops => Sys2Proof.Machine.execExit iss ops s
  | .yield iss ops => Sys2Proof.Machine.execYield iss ops s
  | .nop iss ops => Sys2Proof.Machine.execNop iss ops s
  | .barSync iss ops => Sys2Proof.Machine.execBarSync iss ops s
  | .barArrive iss ops => Sys2Proof.Machine.execBarArrive iss ops s
  | .barWait iss ops => Sys2Proof.Machine.execBarWait iss ops s
  | .fence iss ops => Sys2Proof.Machine.execFence iss ops s
  | .s2v iss ops => Sys2Proof.Machine.execS2v iss ops s
  | .tload iss ops w2 => Sys2Proof.Machine.execTload iss ops w2 s
  | .tstore iss ops w2 => Sys2Proof.Machine.execTstore iss ops w2 s
  | .tcontract iss ops w2 => Sys2Proof.Machine.execTcontract iss ops w2 s
  | .tstencil iss ops w2 => Sys2Proof.Machine.execTstencil iss ops w2 s
  | .tfft iss ops w2 => Sys2Proof.Machine.execTfft iss ops w2 s
  | .treduce iss ops w2 => Sys2Proof.Machine.execTreduce iss ops w2 s
  | .twait iss ops w2 => Sys2Proof.Machine.execTwait iss ops w2 s
  | .tdiscard iss ops w2 => Sys2Proof.Machine.execTdiscard iss ops w2 s
  | .parkSlotGranted la => Sys2Proof.Machine.execParkSlotGranted la s
  | .parkLimitExpired la w => Sys2Proof.Machine.execParkLimitExpired la w s
  | .barrierDiverged la cohort => Sys2Proof.Machine.execBarrierDiverged la cohort s
  | .pathQuantumSwitch g => Sys2Proof.Machine.execPathQuantumSwitch g s
  | .operandArrival g => Sys2Proof.Machine.execOperandArrival g s
  | .tileQueueSpaceFreed g => Sys2Proof.Machine.execTileQueueSpaceFreed g s
  | .tileOperationComplete la e cell sram => Sys2Proof.Machine.execTileOperationComplete la e cell sram s
  | .cohortResident la => Sys2Proof.Machine.execCohortResident la s
  | .patternFetchComplete la slot => Sys2Proof.Machine.execPatternFetchComplete la slot s
  | .doorbellPoll ch => Sys2Proof.Machine.execDoorbellPoll ch s
  | .chanNudge port ch => Sys2Proof.Machine.execChanNudge port ch s
  | .vfNudge port fn slot => Sys2Proof.Machine.execVfNudge port fn slot s
  | .doorbellRead ch host => Sys2Proof.Machine.execDoorbellRead ch host s
  | .descriptorFetch ch host => Sys2Proof.Machine.execDescriptorFetch ch host s
  | .launch c => Sys2Proof.Machine.execLaunch c s
  | .step c => Sys2Proof.Machine.execStep c s
  | .copy c => Sys2Proof.Machine.execCopy c s
  | .fill c => Sys2Proof.Machine.execFill c s
  | .patternLoad c => Sys2Proof.Machine.execPatternLoad c s
  | .replay c => Sys2Proof.Machine.execReplay c s
  | .checkpoint c => Sys2Proof.Machine.execCheckpoint c s
  | .remoteCopy c => Sys2Proof.Machine.execRemoteCopy c s
  | .tableInvalidate c => Sys2Proof.Machine.execTableInvalidate c s
  | .queueFence c => Sys2Proof.Machine.execQueueFence c s
  | .semaphoreRetest c => Sys2Proof.Machine.execSemaphoreRetest c s
  | .commitPoint c => Sys2Proof.Machine.execCommitPoint c s
  | .interruptHoldoffExpired ch => Sys2Proof.Machine.execInterruptHoldoffExpired ch s
  | .killDrainComplete c => Sys2Proof.Machine.execKillDrainComplete c s
  | .chanWrite who => Sys2Proof.Machine.execChanWrite who s
  | .chanRead who => Sys2Proof.Machine.execChanRead who s
  | .chanStop who => Sys2Proof.Machine.execChanStop who s
  | .chanStart who => Sys2Proof.Machine.execChanStart who s
  | .chanDisable who => Sys2Proof.Machine.execChanDisable who s
  | .channelStopped ch => Sys2Proof.Machine.execChannelStopped ch s
  | .create who => Sys2Proof.Machine.execCreate who s
  | .destroy who => Sys2Proof.Machine.execDestroy who s
  | .grantArrays who => Sys2Proof.Machine.execGrantArrays who s
  | .releaseArrays who => Sys2Proof.Machine.execReleaseArrays who s
  | .grantPlots who => Sys2Proof.Machine.execGrantPlots who s
  | .releasePlots who => Sys2Proof.Machine.execReleasePlots who s
  | .grantCores who => Sys2Proof.Machine.execGrantCores who s
  | .releaseCores who => Sys2Proof.Machine.execReleaseCores who s
  | .setBandwidth who => Sys2Proof.Machine.execSetBandwidth who s
  | .setLimits who => Sys2Proof.Machine.execSetLimits who s
  | .setQueue who => Sys2Proof.Machine.execSetQueue who s
  | .setLoan who => Sys2Proof.Machine.execSetLoan who s
  | .setCredits who => Sys2Proof.Machine.execSetCredits who s
  | .setRings who host => Sys2Proof.Machine.execSetRings who host s
  | .setServing who => Sys2Proof.Machine.execSetServing who s
  | .partRead who => Sys2Proof.Machine.execPartRead who s
  | .extend p d => Sys2Proof.Machine.execExtend p d s
  | .lock p accepted flags => Sys2Proof.Machine.execLock p accepted flags s
  | .report p nonce user va => Sys2Proof.Machine.execReport p nonce user va s
  | .share who => Sys2Proof.Machine.execShare who s
  | .linkPolicy p va count => Sys2Proof.Machine.execLinkPolicy p va count s
  | .refillTableRegister who => Sys2Proof.Machine.execRefillTableRegister who s
  | .sliceEnd p q => Sys2Proof.Machine.execSliceEnd p q s
  | .loanIdleExpired la => Sys2Proof.Machine.execLoanIdleExpired la s
  | .donationLimitExpired c => Sys2Proof.Machine.execDonationLimitExpired c s
  | .sealLimitExpired c => Sys2Proof.Machine.execSealLimitExpired c s
  | .placementUnbound c => Sys2Proof.Machine.execPlacementUnbound c s
  | .intervalReport p m => Sys2Proof.Machine.execIntervalReport p m s
  | .regulatorEpoch hub p fill => Sys2Proof.Machine.execRegulatorEpoch hub p fill s
  | .urgencyLevelChange m percent => Sys2Proof.Machine.execUrgencyLevelChange m percent s
  | .channelRequestServed u ecc rowHit => Sys2Proof.Machine.execChannelRequestServed u ecc rowHit s
  | .scrubRead u granule ecc => Sys2Proof.Machine.execScrubRead u granule ecc s
  | .channelOutOfService u => Sys2Proof.Machine.execChannelOutOfService u s
  | .churnOperation u => Sys2Proof.Machine.execChurnOperation u s
  | .keepSweep slice => Sys2Proof.Machine.execKeepSweep slice s
  | .rds d line p ecc => Sys2Proof.Machine.execRds d line p ecc s
  | .rdu d line p ecc => Sys2Proof.Machine.execRdu d line p ecc s
  | .upg d line p w => Sys2Proof.Machine.execUpg d line p w s
  | .evc d line st => Sys2Proof.Machine.execEvc d line st s
  | .evd d line st w => Sys2Proof.Machine.execEvd d line st w s
  | .rdOnce req ecc => Sys2Proof.Machine.execRdOnce req ecc s
  | .wrFull req => Sys2Proof.Machine.execWrFull req s
  | .wrPart req => Sys2Proof.Machine.execWrPart req s
  | .homeAtomic req => Sys2Proof.Machine.execHomeAtomic req s
  | .homeRed req => Sys2Proof.Machine.execHomeRed req s
  | .discard req => Sys2Proof.Machine.execDiscard req s
  | .stash p pa data target => Sys2Proof.Machine.execStash p pa data target s
  | .stashPush d line accept => Sys2Proof.Machine.execStashPush d line accept s
  | .snpS d line w => Sys2Proof.Machine.execSnpS d line w s
  | .snpCur d line w => Sys2Proof.Machine.execSnpCur d line w s
  | .snpI d line w => Sys2Proof.Machine.execSnpI d line w s
  | .snpInd d line w => Sys2Proof.Machine.execSnpInd d line w s
  | .rspFwd d line => Sys2Proof.Machine.execRspFwd d line s
  | .rspSData d line => Sys2Proof.Machine.execRspSData d line s
  | .rspIData d line => Sys2Proof.Machine.execRspIData d line s
  | .rspS d line => Sys2Proof.Machine.execRspS d line s
  | .rspE d line => Sys2Proof.Machine.execRspE d line s
  | .rspI d line => Sys2Proof.Machine.execRspI d line s
  | .evAck d line => Sys2Proof.Machine.execEvAck d line s
  | .flitReceive l dir g f => Sys2Proof.Machine.execFlitReceive l dir g f s
  | .d2dReplayTimeout l dir g => Sys2Proof.Machine.execD2dReplayTimeout l dir g s
  | .d2dWireFailed l g cause => Sys2Proof.Machine.execD2dWireFailed l g cause s
  | .linkTrainingStep l fail0 fail1 => Sys2Proof.Machine.execLinkTrainingStep l fail0 fail1 s
  | .passMaskCompare l => Sys2Proof.Machine.execPassMaskCompare l s
  | .dieLost d clockLost resetSeen => Sys2Proof.Machine.execDieLost d clockLost resetSeen s
  | .partialReset what => Sys2Proof.Machine.execPartialReset what s
  | .selfTestComplete d healthy => Sys2Proof.Machine.execSelfTestComplete d healthy s
  | .hubLost h => Sys2Proof.Machine.execHubLost h s
  | .gstEnable port v => Sys2Proof.Machine.execGstEnable port v s
  | .guestTrainingComplete hubCount guestCount guestMax guestRate vendor product => Sys2Proof.Machine.execGuestTrainingComplete hubCount guestCount guestMax guestRate vendor product s
  | .guestRetrain cause => Sys2Proof.Machine.execGuestRetrain cause s
  | .guestRead msg => Sys2Proof.Machine.execGuestRead msg s
  | .guestWrite msg data => Sys2Proof.Machine.execGuestWrite msg data s
  | .flr port fn => Sys2Proof.Machine.execFlr port fn s
  | .vfEnableCleared port numVfs => Sys2Proof.Machine.execVfEnableCleared port numVfs s
  | .busMasterEnableCleared port fn d3hot => Sys2Proof.Machine.execBusMasterEnableCleared port fn d3hot s
  | .pfFlr port => Sys2Proof.Machine.execPfFlr port s
  | .perstAsserted port how => Sys2Proof.Machine.execPerstAsserted port how s
  | .perstReleased port => Sys2Proof.Machine.execPerstReleased port s
  | .functionResetComplete port fn => Sys2Proof.Machine.execFunctionResetComplete port fn s
  | .configRequest port fn op => Sys2Proof.Machine.execConfigRequest port fn op s
  | .apertureWrite port fn off data tlp => Sys2Proof.Machine.execApertureWrite port fn off data tlp s
  | .apertureRead port fn off len => Sys2Proof.Machine.execApertureRead port fn off len s
  | .inboundAtomicop port fn => Sys2Proof.Machine.execInboundAtomicop port fn s
  | .pcieCompletion tag st data => Sys2Proof.Machine.execPcieCompletion tag st data s
  | .atsInvalidateRequest port fn pasid first count => Sys2Proof.Machine.execAtsInvalidateRequest port fn pasid first count s
  | .pageRequestResponse tag r => Sys2Proof.Machine.execPageRequestResponse tag r s
  | .doeDiscovery port fn index => Sys2Proof.Machine.execDoeDiscovery port fn index s
  | .spdmRequest port fn secured req => Sys2Proof.Machine.execSpdmRequest port fn secured req s
  | .ideKm port fn secured stream op => Sys2Proof.Machine.execIdeKm port fn secured stream op s
  | .lockInterfaceRequest port fn secured => Sys2Proof.Machine.execLockInterfaceRequest port fn secured s
  | .attestationReportRequest port fn secured nonce user part => Sys2Proof.Machine.execAttestationReportRequest port fn secured nonce user part s
  | .doeAbort port fn => Sys2Proof.Machine.execDoeAbort port fn s
  | .ideIntegrityFailure port stream => Sys2Proof.Machine.execIdeIntegrityFailure port stream s
  | .pcieFnBind port v => Sys2Proof.Machine.execPcieFnBind port v s
  | .flip port => Sys2Proof.Machine.execFlip port s
  | .flipComplete port fn => Sys2Proof.Machine.execFlipComplete port fn s
  | .lnkPortEnable port v => Sys2Proof.Machine.execLnkPortEnable port v s
  | .lnkPortRetrain port v => Sys2Proof.Machine.execLnkPortRetrain port v s
  | .hello lp peer peerPort sparePeer mineHeard => Sys2Proof.Machine.execHello lp peer peerPort sparePeer mineHeard s
  | .linkLost lp => Sys2Proof.Machine.execLinkLost lp s
  | .portTrainingFailed lp => Sys2Proof.Machine.execPortTrainingFailed lp s
  | .laneCorrectionThreshold lp lane => Sys2Proof.Machine.execLaneCorrectionThreshold lp lane s
  | .laneAbruptFailure lp lane => Sys2Proof.Machine.execLaneAbruptFailure lp lane s
  | .spareLaneTrained k => Sys2Proof.Machine.execSpareLaneTrained k s
  | .substitute lp lane spare => Sys2Proof.Machine.execSubstitute lp lane spare s
  | .laneSwitch lp => Sys2Proof.Machine.execLaneSwitch lp s
  | .meridianRead lp f => Sys2Proof.Machine.execMeridianRead lp f s
  | .meridianWrite lp f => Sys2Proof.Machine.execMeridianWrite lp f s
  | .bulkWrite lp f => Sys2Proof.Machine.execBulkWrite lp f s
  | .meridianAtomic lp f => Sys2Proof.Machine.execMeridianAtomic lp f s
  | .readData lp f => Sys2Proof.Machine.execReadData lp f s
  | .writeAck lp f => Sys2Proof.Machine.execWriteAck lp f s
  | .atomicData lp f => Sys2Proof.Machine.execAtomicData lp f s
  | .credit lp vc n => Sys2Proof.Machine.execCredit lp vc n s
  | .hopReplayTimeout lp => Sys2Proof.Machine.execHopReplayTimeout lp s
  | .remoteTimeout tag => Sys2Proof.Machine.execRemoteTimeout tag s
  | .lnkRouteEntry port v => Sys2Proof.Machine.execLnkRouteEntry port v s
  | .getEventLog port len => Sys2Proof.Machine.execGetEventLog port len s
  | .getReport port len => Sys2Proof.Machine.execGetReport port len s
  | .getCerts port len => Sys2Proof.Machine.execGetCerts port len s
  | .streamOpen port len => Sys2Proof.Machine.execStreamOpen port len s
  | .streamOpenTimeout port => Sys2Proof.Machine.execStreamOpenTimeout port s
  | .streamClose port len => Sys2Proof.Machine.execStreamClose port len s
  | .unlock port sigOk keyHash nonce => Sys2Proof.Machine.execUnlock port sigOk keyHash nonce s
  | .recoveryImage img => Sys2Proof.Machine.execRecoveryImage img s
  | .getStatus bus cmd => Sys2Proof.Machine.execGetStatus bus cmd s
  | .errorReport region r => Sys2Proof.Machine.execErrorReport region r s
  | .mergeWindowClose region ty unit => Sys2Proof.Machine.execMergeWindowClose region ty unit s
  | .collectorReport => Sys2Proof.Machine.execCollectorReport s
  | .sentryRecord => Sys2Proof.Machine.execSentryRecord s
  | .collectorWindowEnd unit consumers => Sys2Proof.Machine.execCollectorWindowEnd unit consumers s
  | .collectorEntryRetire unit consumers => Sys2Proof.Machine.execCollectorEntryRetire unit consumers s
  | .errInject port v => Sys2Proof.Machine.execErrInject port v s
  | .errRingEnable port v host => Sys2Proof.Machine.execErrRingEnable port v host s
  | .refillSourceRead page data => Sys2Proof.Machine.execRefillSourceRead page data s
  | .refillComplete page => Sys2Proof.Machine.execRefillComplete page s
  | .refillFailed page => Sys2Proof.Machine.execRefillFailed page s
  | .arrayFenced slot cause => Sys2Proof.Machine.execArrayFenced slot cause s
  | .spareSelfTestComplete slot pass => Sys2Proof.Machine.execSpareSelfTestComplete slot pass s
  | .domainSwitchOn => Sys2Proof.Machine.execDomainSwitchOn s
  | .domainStable dom ok => Sys2Proof.Machine.execDomainStable dom ok s
  | .inputOutOfRange mv => Sys2Proof.Machine.execInputOutOfRange mv s
  | .powerInputFault mv => Sys2Proof.Machine.execPowerInputFault mv s
  | .softStartComplete => Sys2Proof.Machine.execSoftStartComplete s
  | .pwrEnAsserted => Sys2Proof.Machine.execPwrEnAsserted s
  | .pwrEnDeasserted => Sys2Proof.Machine.execPwrEnDeasserted s
  | .railStepComplete => Sys2Proof.Machine.execRailStepComplete s
  | .railFault rail => Sys2Proof.Machine.execRailFault rail s
  | .phaseFailed rail phase => Sys2Proof.Machine.execPhaseFailed rail phase s
  | .rootPllLock modid => Sys2Proof.Machine.execRootPllLock modid s
  | .pllUnlock => Sys2Proof.Machine.execPllUnlock s
  | .droopStretch dom => Sys2Proof.Machine.execDroopStretch dom s
  | .capLoopPeriod watts mv tenMa => Sys2Proof.Machine.execCapLoopPeriod watts mv tenMa s
  | .inputOverpower => Sys2Proof.Machine.execInputOverpower s
  | .sensorRead readings => Sys2Proof.Machine.execSensorRead readings s
  | .thermalTrip sensor => Sys2Proof.Machine.execThermalTrip sensor s
  | .powerState p => Sys2Proof.Machine.execPowerState p s
  | .energyCalibration cores rest => Sys2Proof.Machine.execEnergyCalibration cores rest s
  | .securityBoot b => Sys2Proof.Machine.execSecurityBoot b s
  | .dieLinkTraining ok mismatch => Sys2Proof.Machine.execDieLinkTraining ok mismatch s
  | .memoryTraining channels slots cores => Sys2Proof.Machine.execMemoryTraining channels slots cores s
  | .spareAssignment => Sys2Proof.Machine.execSpareAssignment s
  | .atlasPublish => Sys2Proof.Machine.execAtlasPublish s
  | .bringupStalled event => Sys2Proof.Machine.execBringupStalled event s
  | .llcPartWays port v => Sys2Proof.Machine.execLlcPartWays port v s
  | .memBandMode port v => Sys2Proof.Machine.execMemBandMode port v s
  | .registerWrite a v => Sys2Proof.Machine.execRegisterWrite a v s
  | .functionEnable port fn how => Sys2Proof.Machine.execFunctionEnable port fn how s
  | .guestReadResp msg data => Sys2Proof.Machine.execGuestReadResp msg data s
  | .inputPresent mv => Sys2Proof.Machine.execInputPresent mv s
  | .railDescentComplete => Sys2Proof.Machine.execRailDescentComplete s
  | .idleArrayPowerOff slot => Sys2Proof.Machine.execIdleArrayPowerOff slot s
  | .hartStart p index entry => Sys2Proof.Machine.execHartStart p index entry s
  | .startInterfaceRequest port fn secured => Sys2Proof.Machine.execStartInterfaceRequest port fn secured s
  | .errorRingHoldoffExpired port => Sys2Proof.Machine.execErrorRingHoldoffExpired port s
  | .peerStreamMessage m => Sys2Proof.Machine.execPeerStreamMessage m s
  | .debugTransportAccess a => Sys2Proof.Machine.execDebugTransportAccess a s
  | .pcieLinkUp port width rate flit => Sys2Proof.Machine.execPcieLinkUp port width rate flit s

end Sys2Proof.Machine
end

