-- ==== Sys2Proof/Machine/Reads.lean ====
section
/-! DEFINITION. What reads of registers return (00 R7, R9-R11; 11 R316, R338; 17 R451, R455-R460), and the accesses of
service cores that no row of the opcode table carries (07 R209). -/

namespace Sys2Proof.Machine

/-- A bit of a register at a place. -/
def bitAt (b : Bool) (n : Nat) : Nat := if b then 2 ^ n else 0

/-- A count as a field that stops at its maximum. -/
def atMost (w n : Nat) : Nat := min n (2 ^ w - 1)

/-- An address of the guest or a module as a word. -/
def wordOf (n : Nat) : Word := BitVec.ofNat 64 n

/-! ### The blocks: fields at their places, reserved bits zero (R7), WO fields zero (R11) -/

/-- The TOP block (R458) and the Atlas window (R26). -/
def State.readTop (s : State) (off : Nat) : Word :=
  if off = 0x0 then wordOf (0x961 + 2 ^ 32 * 0xB0)
  else if off = 0x8 then wordOf (bitAt s.pow.moduleFailed.isSome 0 + 2 ^ 4 * (s.health % 16) + 2 ^ 16 * ((s.pow.moduleFailed.getD 0).toNat))
  else if off = 0x10 then s.pow.bootEpoch
  else if off = 0x18 then s.atlas.mirror
  else if off = 0x20 then s.atlas.generation
  else if 0x8000 ≤ off ∧ off < 0x10000 then wordOf (leNat ((List.range 8).map (fun i => s.atlasByte (off - 0x8000 + i))))
  else 0

/-- The PART block (R280). -/
def State.readPartReg (s : State) (port : Fin 2) (off : Nat) : Word :=
  let r := (s.port port).regs
  if off = 0x10000 then r.partSelect.setWidth 64
  else if off = 0x10010 then
    wordOf (bitAt r.partBusy 0 + 2 * (r.partResult % 8) + 2 ^ 4 * (s.partition ⟨r.partSelect.toNat, r.partSelect.isLt⟩).mode.code)
  else if 0x10020 ≤ off ∧ off < 0x10040 then r.partArg.getD ((off - 0x10020) / 8) 0
  else 0

/-- The CHAN block (R244). -/
def State.readChan (s : State) (port : Fin 2) (off : Nat) : Word :=
  let r := (s.port port).regs
  if off = 0x20000 then s.atlas.chanTable
  else if off = 0x20008 then r.chanSelect.setWidth 64
  else if off = 0x20018 then
    wordOf (bitAt r.chanBusy 0 + 2 * (r.chanResult % 8) + 2 ^ 4 * (entState (Tbl.get 0 s.chan.entries r.chanSelect.toNat) % 8))
  else if 0x20040 ≤ off ∧ off < 0x20080 then r.chanData.getD ((off - 0x20040) / 8) 0
  else 0

/-- MEM_PLOT_ENTRY of a plot (R459, R460). -/
def State.plotWord (s : State) (n : Nat) : Word :=
  let confined := s.confinedBand (n / 24)
  let (st, owner, mask) := if s.plotAbsent n then (3, 0, 0) else match s.plot n with
    | .free => (0, 0, 0)
    | .granted o m => (1, o.val, m.toNat)
    | .quarantined => (2, 0, 0)
  wordOf (st + 2 ^ 2 * owner + bitAt confined 6 + 2 ^ 7 * (if confined then n % 24 / 6 else 0) + 2 ^ 9 * (n / 24) + 2 ^ 16 * mask)

/-- MEM_HUB_STATUS of a hub (R459): f(h), whether it is present, S(h) in 100 MB/s and H(h) in GB/s. -/
def State.hubWord (s : State) (h : Nat) : Word :=
  wordOf (s.factorOf h + bitAt (s.hubUp h) 17 + 2 ^ 32 * (s.shareSum4 h / 4) + 2 ^ 48 * (s.healthyHub h / 1000))

/-- The MEM and LLC blocks (R177, R459). -/
def State.readMemLlc (s : State) (port : Fin 2) (off : Nat) : Word :=
  let x := s.port port
  let p : Fin 16 := ⟨x.llcSelect.toNat, x.llcSelect.isLt⟩
  if off = 0x30000 then s.mem.bandMode.setWidth 64 ||| (if s.mem.bandRefused then 1 <<< 63 else 0)
  else if off = 0x30008 then x.plotSelect.setWidth 64
  else if off = 0x30010 then s.plotWord x.plotSelect.toNat
  else if off = 0x30018 then x.hubSelect.setWidth 64
  else if off = 0x30020 then s.hubWord x.hubSelect.toNat
  else if off = 0x40000 then x.llcSelect.setWidth 64
  else if off = 0x40008 then (s.ways p).word
  else if off = 0x40010 then wordOf (Tbl.get 0 s.mem.keepDemoted p.val)
  else if off = 0x40018 then wordOf (Tbl.get 0 s.mem.stashDeclined p.val)
  else 0

/-- The LNK block (R362). -/
def State.readLink (s : State) (port : Fin 2) (off : Nat) : Word :=
  let x := s.port port
  let l := s.lp x.linkSelect.toNat
  let r : RouteEntry := Tbl.get ⟨0, 1, none⟩ s.link.routes x.routeSelect.toNat
  if off = 0x50000 then s.link.number.setWidth 64
  else if off = 0x50008 then x.linkSelect.setWidth 64
  else if off = 0x50010 then wordOf (bitAt l.enable 0 + bitAt l.spareEnable 1)
  else if off = 0x50018 then
    wordOf (l.mode.code + 2 ^ 2 * l.laneCount + 2 ^ 5 * l.peer.toNat + 2 ^ 17 * l.peerPort.toNat + bitAt (l.spare.isSome && decide (l.mode = .up)) 21)
  else if off = 0x50020 then wordOf (l.corrected.toNat + 2 ^ 32 * l.uncorrected.toNat + 2 ^ 48 * l.replays.toNat)
  else if off = 0x50028 then x.routeSelect.setWidth 64
  else if off = 0x50030 then
    (match r.pending with
    | some (m, h) => wordOf (m.toNat + 2 ^ 12 + 2 ^ 16 * h)
    | none => wordOf (r.mask.toNat + 2 ^ 16 * r.hops))
  else 0

/-- STATE of a function (R329). -/
def FnMode.code : FnMode → Nat
  | .disabled => 0
  | .enabled => 1
  | .resetting => 2

/-- PCIE_FN_BIND of a function (R338): the physical function reads as bound, with PARTITION 0. -/
def State.fnBindWord (s : State) (port : Fin 2) (fn : Fin 128) : Word :=
  s.bindWord port fn ||| (if fn = 0 then 0x10 else 0) ||| (if (s.fn port fn).bindRefused then 1 <<< 32 else 0)

/-- The PCIE block, for the port and the function selected (R338). -/
def State.readPcie (s : State) (port : Fin 2) (off : Nat) : Word :=
  let x := s.port port
  let f := s.fn port (s.selFn port)
  let ide (i : Nat) : Bool := ((x.ide[i]?).map (fun (y : IdeStream) => y.keyed && !y.insecure)).getD false
  if off = 0x60000 then
    wordOf (bitAt x.linkUp 0 + 2 * (x.width % 16) + 2 ^ 5 * (x.rate % 8) + bitAt x.flit 8 + 2 ^ 9 * (x.numVfs % 128)
      + ((List.range 5).map (fun i => bitAt (ide i) (16 + i))).sum)
  else if off = 0x60008 then x.fnSelect.setWidth 64
  else if off = 0x60010 then s.fnBindWord port (s.selFn port)
  else if off = 0x60018 then wordOf (f.mode.code + 2 ^ 2 * (f.lastCause % 8) + 2 ^ 16 * f.recordsLost.toNat + 2 ^ 48 * f.resets.toNat)
  else if off = 0x60020 then f.dirtyBase0
  else if off = 0x60028 then f.dirtyBase1
  else if off = 0x60030 then f.dirtyIova
  else if off = 0x60038 then
    wordOf (f.dirtyPages.toNat + bitAt f.dirtyEnable 32 + bitAt f.dirtyActive 33 + bitAt f.flipDone 35 + bitAt f.outOfRange 36 + bitAt f.flipRefused 37)
  else 0

/-- The hottest valid die sensor in °C, as an unsigned byte of HOTTEST (R437): 0 with none. -/
def State.hottest (s : State) : Nat :=
  let l : List (Option Int) := (List.range 23).map (fun g => s.groupTemp g)
  let m := l.foldl (fun (m : Int) t => match t with
    | some t => max m (t / 16)
    | none => m) 0
  m.toNat % 256

/-- PWR_SENSOR of a sensor index (R421, R430, R437). -/
def State.sensorWord (s : State) (n : Nat) : Word :=
  let group : Option Nat := if 0x800 ≤ n ∧ n ≤ 0x8B7 then some ((n - 0x800) / 8) else if 0x900 ≤ n ∧ n ≤ 0x917 then some (23 + (n - 0x900)) else none
  match group with
  | none => 0
  | some g =>
    let st := 2 ^ 17 * (s.thermalStep g % 4)
    match s.sensor n with
    | .temp t => wordOf ((BitVec.ofInt 16 t).toNat + 2 ^ 16 + st)
    | _ => wordOf st

/-- Entries of the chip collector that are open (R398). -/
def ErrState.openEntries (x : ErrState) : Nat := x.entries.length + (if 0 < x.full then 1 else 0)

/-- The PWR and ERR blocks (R398, R437). -/
def State.readErr (s : State) (port : Fin 2) (off : Nat) : Word :=
  let x := s.port port
  let w := s.pow
  if off = 0x70000 then wordOf w.capStep
  else if off = 0x70008 then
    wordOf (w.duty % 128 + bitAt w.stageB 7 + bitAt w.stageC 8 + bitAt w.unreachable 9 + 2 ^ 10 * (s.topStep % 4) + 2 ^ 12 * s.hottest)
  else if off = 0x70010 then wordOf (w.inputMv.toNat + 2 ^ 16 * w.current.toNat + 2 ^ 32 * w.watts.toNat)
  else if off = 0x70018 then w.energy
  else if off = 0x70020 then x.sensorSelect.setWidth 64
  else if off = 0x70028 then s.sensorWord x.sensorSelect.toNat
  else if off = 0x70030 then wordOf (w.overCap.toNat + 2 ^ 32 * w.stretches.toNat)
  else if off = 0x80000 then s.ringWord port
  else if off = 0x80008 then x.ringBlock
  else if off = 0x80010 then wordOf (s.err.serial.toNat + 2 ^ 32 * x.filtered.toNat + 2 ^ 48 * atMost 16 s.err.openEntries)
  else if off = 0x80020 then x.refillSelect.setWidth 64
  else if off = 0x80028 then
    Tbl.get 0 s.mem.refillBase x.refillSelect.toNat ||| (if Tbl.get false s.mem.refillRefused x.refillSelect.toNat then 1 else 0)
  else 0

/-- GST_CONTROL and GST_STATUS (R241): RETRAIN reads zero. -/
def State.readGuest (s : State) (off : Nat) : Word :=
  let g := s.link.guest
  if off = 0xA0000 then g.control &&& 0xF3F
  else if off = 0xA0008 then
    wordOf (g.st.val + 2 ^ 2 * (g.modules % 8) + 2 ^ 5 * (g.rate % 32) + bitAt g.mismatch 10 + 2 ^ 16 * g.vendor.toNat + 2 ^ 32 * g.product.toNat)
  else 0

/-- The SEC, GST and DBG blocks (R241, R383, R385). -/
def State.readSec (s : State) (port : Fin 2) (off : Nat) : Word :=
  let x := s.port port
  let c := s.sec
  if off = 0x90008 then wordOf (bitAt x.mboxBusy 0 + 2 * (x.mboxResult % 256) + 2 ^ 9 * (x.mboxLen % 8192))
  else if 0x90010 ≤ off ∧ off < 0x90030 then bits c.deviceId (8 * (off - 0x90010)) 64
  else if off = 0x90030 then wordOf (bitAt c.debugOpen 0 + bitAt c.exhausted 1 + 2 ^ 2 * (c.fuses.ident % 8192) + 2 ^ 15 * (c.fuses.debug % 64))
  else if 0x91000 ≤ off ∧ off < 0x92000 then wordOf (x.mboxNat (off - 0x91000) 8)
  else if 0xA0000 ≤ off ∧ off < 0xB0000 then s.readGuest off
  else if 0xB0000 ≤ off ∧ off < 0xB0020 then bits c.nonce (8 * (off - 0xB0000)) 64
  else if off = 0xB0028 then wordOf (bitAt c.debugOpen 0 + bitAt c.debugBring 1 + bitAt c.debugRefused 2)
  else 0

/-- What a 64-bit read of a physical function's BAR0 returns (R10, R11, R316, R457): zero where no register is. -/
def State.readReg (s : State) (port : Fin 2) (off : Nat) : Word :=
  if off % 8 ≠ 0 then 0
  else if off < 0x10000 then s.readTop off
  else if off < 0x20000 then s.readPartReg port off
  else if off < 0x30000 then s.readChan port off
  else if off < 0x50000 then s.readMemLlc port off
  else if off < 0x60000 then s.readLink port off
  else if off < 0x70000 then s.readPcie port off
  else if off < 0x90000 then s.readErr port off
  else if off < 0xC0000 then s.readSec port off
  else 0

/-- What a 64-bit read of a virtual function's BAR0 returns (R318, R457). -/
def State.readVf (s : State) (port : Fin 2) (fn : Fin 128) (off : Nat) : Word :=
  if off ≠ 0 then 0 else
  let f := s.fn port fn
  wordOf (bitAt f.bound.isSome 0 + 2 * ((f.bound.map (·.val)).getD 0) + 2 ^ 5 * f.mode.code)

/-- The bytes that a read of a size at an offset returns, of a space of 64-bit registers (R9): a register, one half of it, or
all ones. -/
def readSized (reg : Nat → Word) (off size : Nat) : List Byte :=
  if size = 8 ∧ off % 8 = 0 then leBytes 8 (reg off).toNat
  else if size = 4 ∧ off % 4 = 0 then leBytes 4 ((reg (off / 8 * 8)).toNat / 2 ^ (8 * (off % 8)) % 2 ^ 32)
  else List.replicate size 0xFF

/-- The BAR0 of a function answers reads: as it takes writes, and also after the module failed, with the values that it then
holds (R331, R333, R455). -/
def State.barReads (s : State) (port : Fin 2) (fn : Fin 128) : Bool :=
  decide (s.pow.stage = .published) && (s.port port).ready && s.fnExists port fn && decide ((s.fn port fn).mode ≠ .resetting)
    && !s.tlpDropped port fn

/-- What a read of BAR0 of a function returns (R9, R10, R331); none where it completes with Unsupported Request: the function
is RESETTING, or its port does not serve. -/
def State.readBar0 (s : State) (a : RegAccess) : Option (List Byte) :=
  if !s.barReads a.port (a.vf.getD 0) then none
  else some (match a.vf with
    | some f => readSized (s.readVf a.port f) a.off.toNat a.size
    | none => readSized (s.readReg a.port) a.off.toNat a.size)

/-! ### Service-core accesses without a row (R209, R217) -/

/-- A core's FENCE or ordered access at a scope (R201, R209): at system scope it raises its partition's remote epoch, so that
later reads of other modules' memory meet no older copy; at device scope its caches are coherent already. -/
def State.coreFence (s : State) (p : Fin 16) (scope : Nat) : State := if scope = 4 then s.raiseEpoch p else s

/-- What a core's read of a line of another module is served from its slice (R200, R209): its partition's Remote copy of the
current epoch, if it has one; else the line is asked for. -/
def State.coreRemote (s : State) (p : Fin 16) (line : Nat) : Option Line := (s.remoteFind p line).map (·.data)

/-- A core's read of host memory (R217, R320): sent with the partition's core default, none without one. -/
def State.coreHostRead (s : State) (p : Fin 16) (iova n : Nat) : Option State := (s.coreCtx p).map (fun c => s.hostAsk c iova n)

end Sys2Proof.Machine
end

