-- ==== Sys2Proof/Safety.lean ====
section
/-! DEFINITION. What counts as a safe run, and the terms in which statements speak of what a command does and leaves. -/

namespace Sys2Proof.Machine

/-- The step answers a next state: neither a fault nor a refusal. -/
def stepRuns (s : State) : Prop := ∃ t, step s = .next t

/-- The state in which an instruction takes its effect: the line of its word has been fetched, which may fill the array's L1
and is a request of the array at its home (R170, R190). -/
def State.fetched (s : State) (i : Issue) (c : Cmd) (g : Group) : State := s.fetchLine i.g.la.val c g.path.pc

/-- The instruction of an issue goes through to its effect: the group of a running command is ready on an eligible
path, is due no switch and has its turn, no physical event meets it, and its word is fetched (R43, R45, R57, R60). -/
def Goes (s : State) (i : Issue) (c : Cmd) (g : Group) : Prop :=
  s.issuer i.g = some (c, g) ∧ g.path.eligible = true ∧ i.cell = .none ∧ i.sram = .none ∧ i.fetch = .word

/-- Nothing but one array, the energy account and the counter of free values differs: every byte of memory, every
register of the block and every other array stay. -/
def OnlyArray (s t : State) (la : Nat) : Prop :=
  ∃ a n e, t = { s with arr := a, freeCount := n, energy := e } ∧ ∀ k, k ≠ la → Tbl.get ArrayState.idle a k = s.array k

/-- An instruction of n bytes completes in a group, changing only its array behind the fetch: the group goes on behind it on
the same lanes, and `f` holds of it. -/
def Completes (s : State) (o : Host.Outcome State Fault Refusal) (i : Issue) (c : Cmd) (g : Group) (n : Nat) (f : Group → Prop) : Prop :=
  ∃ t h, o = .next t ∧ t.groupOf i.g = some h ∧ h.path.pc = g.path.pc + BitVec.ofNat 64 n ∧ h.path.mask = g.path.mask
    ∧ OnlyArray (s.fetched i c g) t i.g.la.val ∧ f h

/-- A register of the lanes of a mask takes the values given, and every other register and the predicates keep theirs;
v255 keeps nothing (R41). -/
def WroteReg (g h : Group) (m : BitVec 64) (d : Nat) (v : Nat → Word32) : Prop :=
  h.preds = g.preds ∧ ∀ l r, l < 64 → h.reg l r = if m.getLsbD l = true ∧ r = d ∧ r ≠ 255 then v l else g.reg l r

/-- Two registers of the lanes of a mask take the values given, and nothing else changes. -/
def WrotePair (g h : Group) (m : BitVec 64) (d : Nat) (v : Nat → Word) : Prop :=
  h.preds = g.preds ∧ ∀ l r, l < 64 → h.reg l r =
    if m.getLsbD l = true ∧ r = d ∧ r ≠ 255 then bits (v l) 0 32
    else if m.getLsbD l = true ∧ r = d + 1 ∧ r ≠ 255 then bits (v l) 32 32 else g.reg l r

/-- A predicate takes the values given in the lanes of a mask, and nothing else changes; p7 keeps nothing (R41). -/
def WrotePred (g h : Group) (m : BitVec 64) (p : Nat) (v : BitVec 64) : Prop :=
  h.regs = g.regs ∧ ∀ q, h.pred q = if q = p ∧ q ≠ 7 then (g.pred p &&& ~~~m) ||| (v &&& m) else g.pred q

/-- The registers of each lane of a mask are those of a group given for the lane; the other lanes and the predicates keep
theirs. -/
def WroteLanes (g h : Group) (m : BitVec 64) (v : Nat → Group) : Prop :=
  h.preds = g.preds ∧ ∀ l r, l < 64 → h.reg l r = if m.getLsbD l = true then (v l).reg l r else g.reg l r

/-- A group stays where it is and waits for a reason. -/
def Holds (s : State) (o : Host.Outcome State Fault Refusal) (i : Issue) (c : Cmd) (g : Group) (w : WaitReason) : Prop :=
  ∃ t, o = .next t ∧ t.groupOf i.g = some { g with st := .waiting w } ∧ OnlyArray (s.fetched i c g) t i.g.la.val

/-- A group is in a park slot, or waits for one with its fault (R45, R68). -/
def Group.parks (g : Group) : Prop := (∃ k, g.st = .parked k) ∨ ∃ f src r, g.st = .waiting (.parkSlot f src r)

/-- The sentry of the issuing array does not trap for the causes listed by lane (R130-R132). -/
def Quiet (s : State) (i : Issue) (c : Cmd) (causes : List (Nat × Nat)) : Prop :=
  (s.array i.g.la.val).sentryArmed = false ∨ ∀ x ∈ causes, x.2 = 0 ∨ sentryTraps c.sentry x.2 = false

/-- The sentry of the issuing array traps for one of the causes listed by lane. -/
def Traps (s : State) (i : Issue) (c : Cmd) (causes : List (Nat × Nat)) : Prop :=
  (s.array i.g.la.val).sentryArmed = true ∧ ∃ x ∈ causes, x.2 ≠ 0 ∧ sentryTraps c.sentry x.2 = true

/-- The generator state from which the conversions of a lane draw (R121). -/
def State.stream (s : State) (i : Issue) (c : Cmd) (g : Group) (l : Nat) : Word :=
  (s.array i.g.la.val).gen c.srSeed i.g.la.val (64 * g.quadrant + l)

/-- The generator state that follows one, the seed standing for no state. -/
def State.streamAfter (i : Issue) (c : Cmd) (g : Group) (l : Nat) (x : Word) : Word :=
  if x = 0 then genSeed c.srSeed i.g.la.val (64 * g.quadrant + l) else x

/-- What CVT gives in a participating lane: the code, the scale of its block where it writes one, and the cause of a NaN
(R116, R126, R127, R469). -/
def State.cvtAt (s : State) (i : Issue) (c : Cmd) (g : Group) (ops : BitVec 48) (l : Nat) : CvtLane :=
  if opC ops = 0 ∧ opFmt ops = opMod ops then ⟨l, g.raw l (opA ops) (opFmt ops), none, 0⟩
  else if opC ops ≠ 0 ∧ fmtIsMx (opFmt ops) = true then
    let val (k : Nat) : Num := g.src k (opA ops) (opMod ops) (opNeg ops 0)
    let xs := ((laneList (g.lanes i)).filter (fun k => decide (k / opC ops = l / opC ops))).map val
    let (scale, cause) := blockScale (opFmt ops) xs
    ⟨l, (blockElem (opFmt ops) scale (xs.all Num.isZero) (val l) (opRnd ops) (s.stream i c g l)).raw, some scale, cause⟩
  else
    let v := cvtLane ops g l (decide (opC ops ≠ 0)) (s.stream i c g l) (Config.free (s.freeCount + l)).toNat
    ⟨l, v.raw, none, v.cause⟩

/-- What UNPK12 gives of sample k of a lane, drawing from a generator state (R112). -/
def unpkAt (g : Group) (ops : BitVec 48) (l k : Nat) (x : Word) : Conv :=
  let v := Num.ofInt (field (g.reg l (opA ops)) (12 * k) 12) 0 false
  convert (opFmt ops) true (if opNeg ops 0 then (if fmtIsInt (opFmt ops) then Num.ofInt (-v.toInt) 0 false else v.flip) else v) (opRnd ops) (opSat ops) x

/-- What PK12 gives of the k-th source register of a lane (R112, R113). -/
def pkAt (g : Group) (ops : BitVec 48) (reg l k : Nat) (x : Word) : Conv :=
  convert 0x0E (fmtIsInt (opMod ops)) (g.src l reg (opMod ops) (opNeg ops k)) (opRnd ops) (opSat ops) x

/-- What the lanes of a memory instruction reach behind the fetch, and the state that their translations leave (R67). -/
def walked (s : State) (i : Issue) (c : Cmd) (g : Group) (ops : BitVec 48) (k : AccessKind) : List (Nat × Dest) × State :=
  (s.fetched i c g).laneDests ⟨i.g.la.val, c, g.lanes i⟩ g ops k (laneAddr g ops) (laneList (g.lanes i))

/-- No lane meets a fault or a poisoned page table. -/
def allReach (l : List (Nat × Dest)) : Prop := ∀ x ∈ l, (∀ c a, x.2 ≠ .fault c a) ∧ (∀ n, x.2 ≠ .poison n)

/-- What a release of a group at a scope covers is performed (R203, R205). -/
def released (s : State) (i : Issue) (g : Group) (scope : Nat) : Prop := s.releaseDone i.g.la.val g.cohort g.num scope = true

/-- A load or atomic of a group has been issued: it goes on behind the instruction, with the load listed among those that
it awaits where a line, host memory or another module answers it, else with its registers written; one that acquires holds
it until then (R45, R206). -/
def Loads (s t : State) (i : Issue) (g h : Group) (ops : BitVec 48) : Prop :=
  t.groupOf i.g = some h ∧ h.preds = g.preds ∧ h.path.pc = g.path.pc + 8 ∧ h.path.mask = g.path.mask
    ∧ (∀ l r, l < 64 → (g.lanes i).getLsbD l = false → h.reg l r = g.reg l r)
    ∧ (h.loads = g.loads.filter (fun o => decide (o.seq ≠ (s.array i.g.la.val).loadSeq)) ∨ ∃ o, h.loads = g.loads ++ [o] ∧ o.seq = (s.array i.g.la.val).loadSeq ∧ o.ops = ops ∧ o.mask = g.lanes i ∧ o.pc = g.path.pc ∧ h.regs = g.regs
        ∧ h.st = (if opAcquires ops = true then .waiting (.operand [o.seq]) else .ready))

/-- Host software at a port takes a partition action of a code on a partition other than PT0 in a given state: the port
serves, no action is in progress and no reserved argument bit is set (R281, R282). -/
def State.Asks (s : State) (n : Fin 2) (code : Nat) (p : Fin 16) (m : PartMode) : Prop :=
  s.up = true ∧ s.barServes n 0 = true ∧ (s.port n).regs.partBusy = false ∧ s.chan.acts = [] ∧ s.actPart (.host n) = p ∧ p ≠ 0
    ∧ (s.partition p).mode = m ∧ argsOk code (s.port n).regs.partArg = true

/-- A port's partition action is complete with a RESULT (R282). -/
def State.Answers (s : State) (n : Fin 2) (r : Nat) : Prop := (s.port n).regs.partBusy = false ∧ (s.port n).regs.partResult = r

/-- A frame of an opcode is the next of its port, for this module, well formed, and passes the checks of its stream: `t` is
the state in which it is performed (R346, R347, R349, R355). -/
def State.Hears (s : State) (n : Fin 12) (op : Nat) (f : Frame) (r : RxStream) (t : State) : Prop :=
  s.up = true ∧ (rxFrame f).op = op ∧ (rxFrame f).dest = s.link.number ∧ (rxFrame f).wellFormed = true
    ∧ ∃ u, s.hopTake n f = some u ∧ u.checkFrame n f = (some r, t)

/-- The fuses are those of a module: its ROOT_HASH, and no counter beyond its number of fuses (R364). -/
def Fuses.bounded (f : Fuses) : Prop :=
  f.rootHash = Config.rootHash ∧ f.ident ≤ 4096 ∧ f.svnSp ≤ 64 ∧ f.svnRes ≤ 64 ∧ f.debug ≤ 32

end Sys2Proof.Machine
end

