-- ==== Sys2Proof/Certificates/Slice0/Obligations.lean ====
section
/-! DEFINITION. The statements about the block, for the provers. -/

open Sys2Proof Sys2Proof.Machine

/-- Integer operations and cross-lane moves (R41, R53, R472).
NEG of a move is the model's choice (log entry 25). -/
def Obligations.IntegerAndMovesComplete : Prop :=
  ∀ (s : State) (i : Issue) (c : Cmd) (g : Group) (ops : BitVec 48), Goes s i c g →
    (∀ op : BitVec 8, legalInt op.toNat ops c = true → g.pending (intRegs op.toNat ops) = [] →
      Completes s (exec (.integerOp i op ops) s) i c g 8 (fun h => WroteReg g h (g.lanes i) (opDst ops) (intResult op.toNat ops g)))
    ∧ (legalV ops = true → regNamed c.regCount (opDst ops) = true → regNamed c.regCount (opA ops) = true → regNamed c.regCount (opB ops) = true → g.pending [opDst ops, opA ops, opB ops] = [] →
      Completes s (exec (.shfl i ops) s) i c g 8 (fun h => WroteReg g h (g.lanes i) (opDst ops)
        (fun t => g.intSrc (field (g.reg t (opB ops)) 0 6) (opA ops) (opNeg ops 0)))
      ∧ Completes s (exec (.shflXor i ops) s) i c g 8 (fun h => WroteReg g h (g.lanes i) (opDst ops)
        (fun t => g.intSrc (t ^^^ field (g.reg t (opB ops)) 0 6) (opA ops) (opNeg ops 0)))
      ∧ Completes s (exec (.bcast i ops) s) i c g 8 (fun h => WroteReg g h (g.lanes i) (opDst ops)
        (fun _ => g.intSrc (field (g.reg (leader (g.lanes i)) (opB ops)) 0 6) (opA ops) (opNeg ops 0))))
    ∧ (legalV ops = true → regNamed c.regCount (opDst ops) = true → regNamed c.regCount (opA ops) = true → g.pending [opDst ops, opA ops] = [] → ∀ d : Dir,
      Completes s (exec (.nbr i d ops) s) i c g 8 (fun h => WroteReg g h (g.lanes i) (opDst ops)
        (fun t => match neighbour d (decide (opMod ops % 2 = 1)) t with
          | some k => g.intSrc k (opA ops) (opNeg ops 0)
          | none => 0)))
    ∧ (∀ op : BitVec 8, legalInt op.toNat ops c = true → g.pending (intRegs op.toNat ops) ≠ [] →
      Holds s (exec (.integerOp i op ops) s) i c g (.operand (g.pending (intRegs op.toNat ops))))

/-- Predicate instructions (R41, R53, R472). -/
def Obligations.PredicatesComplete : Prop :=
  ∀ (s : State) (i : Issue) (c : Cmd) (g : Group) (ops : BitVec 48), Goes s i c g → legalV ops = true → predNamed (opDst ops) = true →
    (setpFmt (opFmt ops) = true → opMod ops ≤ 5 → fmtNamed c.regCount (opFmt ops) (opA ops) = true → fmtNamed c.regCount (opFmt ops) (opB ops) = true →
      g.pending (regSpan (opA ops) (if opFmt ops = 0 then 2 else 1) ++ regSpan (opB ops) (if opFmt ops = 0 then 2 else 1)) = [] →
      Completes s (exec (.setp i ops) s) i c g 8 (fun h => WrotePred g h (g.lanes i) (opDst ops)
        (lanesWhere (g.lanes i) (fun l => compareNums (opMod ops) (g.src l (opA ops) (opFmt ops) (opNeg ops 0)) (g.src l (opB ops) (opFmt ops) (opNeg ops 1))))))
    ∧ (predNamed (opA ops) = true →
      (predNamed (opB ops) = true →
        Completes s (exec (.pand i ops) s) i c g 8 (fun h => WrotePred g h (g.lanes i) (opDst ops) (g.pred (opA ops) &&& g.pred (opB ops)))
        ∧ Completes s (exec (.por i ops) s) i c g 8 (fun h => WrotePred g h (g.lanes i) (opDst ops) (g.pred (opA ops) ||| g.pred (opB ops)))
        ∧ Completes s (exec (.pxor i ops) s) i c g 8 (fun h => WrotePred g h (g.lanes i) (opDst ops) (g.pred (opA ops) ^^^ g.pred (opB ops))))
      ∧ Completes s (exec (.pnot i ops) s) i c g 8 (fun h => WrotePred g h (g.lanes i) (opDst ops) (~~~(g.pred (opA ops))))
      ∧ (opMod ops = 0 → Completes s (exec (.vote i ops) s) i c g 8 (fun h => WrotePred g h (g.lanes i) (opDst ops)
        (if g.lanes i &&& g.pred (opA ops) ≠ 0 then BitVec.allOnes 64 else 0)))
      ∧ (opMod ops = 1 → Completes s (exec (.vote i ops) s) i c g 8 (fun h => WrotePred g h (g.lanes i) (opDst ops)
        (if g.lanes i &&& g.pred (opA ops) = g.lanes i then BitVec.allOnes 64 else 0))))

/-- BALLOT, S2V and NOP (R53, R58, R472). The clock sample is a free value. -/
def Obligations.BallotS2vNopComplete : Prop :=
  ∀ (s : State) (i : Issue) (c : Cmd) (g : Group) (ops : BitVec 48), Goes s i c g →
    (legalV ops = true → predNamed (opA ops) = true → pairNamed c.regCount (opDst ops) = true → g.pending (regSpan (opDst ops) 2) = [] →
      Completes s (exec (.ballot i ops) s) i c g 8 (fun h => WrotePair g h (g.lanes i) (opDst ops) (fun _ => g.lanes i &&& g.pred (opA ops))))
    ∧ (legalV ops = true → opA ops ≤ 12 → regNamed c.regCount (opDst ops) = true → g.pending [opDst ops] = [] →
      Completes s (exec (.s2v i ops) s) i c g 8 (fun h => ∃ clock, WroteReg g h (g.lanes i) (opDst ops)
        (fun l => BitVec.ofNat 32 (s2vValue ⟨i.g.la.val, c, g.lanes i⟩ g clock (opA ops) l))))
    ∧ (cleanJ ops = true → Completes s (exec (.nop i ops) s) i c g 8 (fun h => h.regs = g.regs ∧ h.preds = g.preds))

/-- Floating point (R105, R114, R472) and the sentry (R130-R132).
Results within a bound are the unknown function of log entry 35. -/
def Obligations.FloatingPointComplete : Prop :=
  ∀ (s : State) (i : Issue) (c : Cmd) (g : Group) (ops : BitVec 48) (op : BitVec 8), Goes s i c g →
    let ends (o : Host.Outcome State Fault Refusal) (causes : List (Nat × Nat)) (f : Group → Prop) : Prop :=
      (Quiet s i c causes → Completes s o i c g 8 f)
      ∧ (Traps s i c causes → ∃ t h, o = .next t ∧ t.groupOf i.g = some h ∧ h.parks ∧ h.path.pc = g.path.pc + 8 ∧ f h)
    let r32 (l : Nat) : Nat × Nat := fpLane (fp32Ops.getD op.toNat .add) op.toNat 1 ops g l
    let r64 (l : Nat) : Nat × Nat := fpLane (fp64Ops.getD op.toNat .add) op.toNat 0 ops g l
    let r16 (l : Nat) (hi : Bool) : Nat × Nat := packedHalf (packedOps.getD op.toNat .add) ops g l hi
    (legalFp fp32Ops op.toNat ops (regNamed c.regCount) = true → g.pending (fpRegs fp32Ops op.toNat 1 ops) = [] →
      ends (exec (.fp32Op i op ops) s) ((laneList (g.lanes i)).map (fun l => (l, (r32 l).2)))
        (fun h => WroteReg g h (g.lanes i) (opDst ops) (fun l => BitVec.ofNat 32 (r32 l).1)))
    ∧ (legalFp fp64Ops op.toNat ops (pairNamed c.regCount) = true → g.pending (fpRegs fp64Ops op.toNat 2 ops) = [] →
      ends (exec (.fp64Op i op ops) s) ((laneList (g.lanes i)).map (fun l => (l, (r64 l).2)))
        (fun h => WrotePair g h (g.lanes i) (opDst ops) (fun l => BitVec.ofNat 64 (r64 l).1)))
    ∧ (legalFp packedOps op.toNat ops (regNamed c.regCount) = true → (opFmt ops = 2 ∨ opFmt ops = 3) → g.pending (fpRegs packedOps op.toNat 1 ops) = [] →
      ends (exec (.packed16Op i op ops) s) (((laneList (g.lanes i)).map (fun l => [(l, (r16 l false).2), (l, (r16 l true).2)])).flatten)
        (fun h => WroteReg g h (g.lanes i) (opDst ops) (fun l => BitVec.ofNat 32 ((r16 l false).1 + 65536 * (r16 l true).1))))

/-- Conversions (R112, R113, R116, R127): each one's next state, with every register of the group. -/
def Obligations.ConversionsComplete : Prop :=
  ∀ (s : State) (i : Issue) (c : Cmd) (g : Group) (ops : BitVec 48), Goes s i c g →
    let u := s.fetched i c g
    let m := g.lanes i
    (legalCvt ops c = true → g.pending (cvtRegs ops) = [] →
      let causes := (laneList m).map (fun l => (l, (u.cvtAt i c g ops l).cause))
      (Quiet s i c causes →
        Completes s (exec (.cvt i ops) s) i c g 8 (fun h => WroteLanes g h m (fun l => writeCvt ops g [u.cvtAt i c g ops l])))
      ∧ (Traps s i c causes → ∃ t h, exec (.cvt i ops) s = .next t ∧ t.groupOf i.g = some h ∧ h.parks ∧ h.path.pc = g.path.pc + 8
          ∧ WroteLanes g h m (fun l => writeCvt ops g [u.cvtAt i c g ops l])))
    ∧ (legalV ops = true → sampleFmt (opFmt ops) = true → regNamed c.regCount (opA ops) = true → regsNamed c.regCount (opDst ops) 2 = true →
      g.pending (opA ops :: regSpan (opDst ops) 2) = [] →
      Completes s (exec (.unpk12 i ops) s) i c g 8 (fun h => WroteLanes g h m (fun l =>
        let a := unpkAt g ops l 0 (u.stream i c g l)
        let b := unpkAt g ops l 1 (State.streamAfter i c g l a.g)
        (g.setRaw l (opDst ops) (opFmt ops) a.raw).setRaw l (opDst ops + 1) (opFmt ops) b.raw)))
    ∧ (legalV ops = true → sampleFmt (opMod ops) = true → regNamed c.regCount (opA ops) = true → regNamed c.regCount (opB ops) = true → regNamed c.regCount (opDst ops) = true →
      g.pending [opDst ops, opA ops, opB ops] = [] →
      Completes s (exec (.pk12 i ops) s) i c g 8 (fun h => WroteLanes g h m (fun l =>
        let a := pkAt g ops (opA ops) l 0 (u.stream i c g l)
        let b := pkAt g ops (opB ops) l 1 (State.streamAfter i c g l a.g)
        g.setReg l (opDst ops) (BitVec.ofNat 32 (a.raw % 4096 + 4096 * (b.raw % 4096))))))

/-- Control transfers (R59, R60).
The fault of a misaligned BRX or RET is the model's choice (log entry 27). -/
def Obligations.BranchesComplete : Prop :=
  ∀ (s : State) (i : Issue) (c : Cmd) (g : Group) (ops : BitVec 48), Goes s i c g → cleanJ ops = true →
    (g.lanes i = 0 →
      Completes s (exec (.bra i ops) s) i c g 8 (fun h => h.regs = g.regs ∧ h.preds = g.preds)
      ∧ (pairNamed c.regCount (opTarget ops) = true → g.pending (regSpan (opTarget ops) 2) = [] →
        Completes s (exec (.call i ops) s) i c g 8 (fun h => h.regs = g.regs ∧ h.preds = g.preds)
        ∧ Completes s (exec (.brx i ops) s) i c g 8 (fun h => h.regs = g.regs ∧ h.preds = g.preds)
        ∧ Completes s (exec (.ret i ops) s) i c g 8 (fun h => h.regs = g.regs ∧ h.preds = g.preds)))
    ∧ (g.lanes i ≠ 0 →
      (∃ t h, exec (.bra i ops) s = .next t ∧ t.groupOf i.g = some h ∧ OnlyArray (s.fetched i c g) t i.g.la.val ∧ h.regs = g.regs ∧ h.preds = g.preds
        ∧ (∃ p ∈ h.paths, p.pc = g.target ops ∧ p.mask &&& g.lanes i = g.lanes i)
        ∧ (g.path.mask &&& ~~~(g.lanes i) ≠ 0 → h.path.pc = g.path.pc + 8 ∧ h.path.mask = g.path.mask &&& ~~~(g.lanes i)))
      ∧ (pairNamed c.regCount (opTarget ops) = true → g.pending (regSpan (opTarget ops) 2) = [] →
        (∃ t h, exec (.call i ops) s = .next t ∧ t.groupOf i.g = some h ∧ OnlyArray (s.fetched i c g) t i.g.la.val
          ∧ WrotePair g h (g.lanes i) (opTarget ops) (fun _ => g.path.pc + 8)
          ∧ (∃ p ∈ h.paths, p.pc = g.target ops ∧ p.mask &&& g.lanes i = g.lanes i)
          ∧ (g.path.mask &&& ~~~(g.lanes i) ≠ 0 → h.path.pc = g.path.pc + 8 ∧ h.path.mask = g.path.mask &&& ~~~(g.lanes i)))
        ∧ ((∀ l, (g.lanes i).getLsbD l = true → (g.pair l (opTarget ops)).toNat % 8 = 0) →
          (∃ t h, exec (.brx i ops) s = .next t ∧ t.groupOf i.g = some h ∧ OnlyArray (s.fetched i c g) t i.g.la.val ∧ h.regs = g.regs ∧ h.preds = g.preds
            ∧ ∀ l, (g.lanes i).getLsbD l = true → ∃ p ∈ h.paths, p.pc = g.pair l (opTarget ops) ∧ p.mask.getLsbD l = true)
          ∧ (∃ t h, exec (.ret i ops) s = .next t ∧ t.groupOf i.g = some h ∧ OnlyArray (s.fetched i c g) t i.g.la.val ∧ h.regs = g.regs ∧ h.preds = g.preds
            ∧ ∀ l, (g.lanes i).getLsbD l = true → ∃ p ∈ h.paths, p.pc = g.pair l (opTarget ops) ∧ p.mask.getLsbD l = true))
        ∧ (∀ l, (g.lanes i).getLsbD l = true → (g.pair l (opTarget ops)).toNat % 8 ≠ 0 →
          (∃ t h, exec (.brx i ops) s = .next t ∧ t.groupOf i.g = some h ∧ h.parks ∧ h.path.pc = g.path.pc ∧ h.regs = g.regs)
          ∧ (∃ t h, exec (.ret i ops) s = .next t ∧ t.groupOf i.g = some h ∧ h.parks ∧ h.path.pc = g.path.pc ∧ h.regs = g.regs))))

/-- EXIT, YIELD and FENCE (R60, R64, R203, R205, R206, R208).
That a YIELD without lanes switches no path is the model's choice (log entry 26). -/
def Obligations.ExitYieldFenceComplete : Prop :=
  ∀ (s : State) (i : Issue) (c : Cmd) (g : Group) (ops : BitVec 48), Goes s i c g →
    (cleanJ ops = true →
      (g.lanes i = 0 → Completes s (exec (.exit i ops) s) i c g 8 (fun h => h.regs = g.regs ∧ h.preds = g.preds)
        ∧ Completes s (exec (.yield i ops) s) i c g 8 (fun h => h.regs = g.regs ∧ h.preds = g.preds))
      ∧ (g.lanes i ≠ 0 → ¬ released (s.fetched i c g) i g 1 → Holds s (exec (.exit i ops) s) i c g (.release 1))
      ∧ (g.lanes i ≠ 0 → released (s.fetched i c g) i g 1 → g.path.mask &&& ~~~(g.lanes i) ≠ 0 → ∀ co, (s.array i.g.la.val).cohortOf g.cohort = some co →
        ∃ t h k, exec (.exit i ops) s = .next t ∧ t.groupOf i.g = some h ∧ h.regs = g.regs ∧ h.path.pc = g.path.pc + 8
          ∧ h.path.mask = g.path.mask &&& ~~~(g.lanes i) ∧ (t.array i.g.la.val).cohortOf g.cohort = some k ∧ k.exited = co.exited + pop (g.lanes i))
      ∧ (g.lanes i ≠ 0 → ∃ t h, exec (.yield i ops) s = .next t ∧ t.groupOf i.g = some h ∧ OnlyArray (s.fetched i c g) t i.g.la.val ∧ h.regs = g.regs ∧ h.preds = g.preds
          ∧ (∃ p ∈ h.paths, p.pc = g.path.pc + 8 ∧ p.mask &&& g.path.mask = g.path.mask)
          ∧ ((∀ p ∈ g.paths.tail, p.eligible = false) → h.path.pc = g.path.pc + 8)))
    ∧ (legalS ops [0, 1, 2, 3] = true →
      (g.lanes i ≠ 0 → 2 ≤ opOrderS ops → ¬ released (s.fetched i c g) i g (opScopeS ops) → Holds s (exec (.fence i ops) s) i c g (.release (opScopeS ops)))
      ∧ (g.lanes i ≠ 0 → opOrderS ops = 1 → opScopeS ops ≠ 0 → g.loads ≠ [] →
        Holds s (exec (.fence i ops) s) i c g (.operand (g.loads.map (·.seq))))
      ∧ ((g.lanes i = 0 ∨ opOrderS ops < 2 ∨ released (s.fetched i c g) i g (opScopeS ops)) → (g.loads = [] ∨ opOrderS ops % 2 = 0 ∨ opScopeS ops = 0) →
        ∃ t h, exec (.fence i ops) s = .next t ∧ t.groupOf i.g = some h ∧ h.regs = g.regs ∧ h.preds = g.preds ∧ h.path.pc = g.path.pc + 8
          ∧ (g.lanes i ≠ 0 → opOrderS ops % 2 = 1 → opScopeS ops ≠ 0 → ∀ x ∈ (t.array i.g.la.val).l1, x.instr = true)))

/-- Barriers (R63, R64, R208).
Whose count an arrival names, what becomes of arrivals past it and the program counter of a waiting path are the
model's choices (log entries 25 and 26). -/
def Obligations.BarriersComplete : Prop :=
  ∀ (s : State) (i : Issue) (c : Cmd) (g : Group) (ops : BitVec 48) (co : Cohort), Goes s i c g → (s.array i.g.la.val).cohortOf g.cohort = some co →
    let m := g.lanes i
    let b := opBarrier ops
    let old := Tbl.get Barrier.fresh co.barriers b.val
    let count := if opCount ops = 255 then 64 * c.groups else (g.reg (leader m) (opCount ops)).toNat
    let new := Barrier.arrive count co.exited 64 (pop m) old
    let named := (opCount ops = 255 ∨ (regNamed c.regCount (opCount ops) = true ∧ g.pending [opCount ops] = []))
    let ready := (m ≠ 0 ∧ (opOrderS ops < 2 ∨ released (s.fetched i c g) i g (opScopeS ops)))
    (m = 0 →
      (legalS ops [0, 1, 3] = true → named → Completes s (exec (.barSync i ops) s) i c g 8 (fun h => h.regs = g.regs))
      ∧ (legalS ops [0, 2] = true → named → Completes s (exec (.barArrive i ops) s) i c g 8 (fun h => h.regs = g.regs))
      ∧ (legalS ops [0, 1, 3] = true → Completes s (exec (.barWait i ops) s) i c g 8 (fun h => h.regs = g.regs)))
    ∧ (ready → legalS ops [0, 2] = true → named →
      ∃ t h k, exec (.barArrive i ops) s = .next t ∧ t.groupOf i.g = some h ∧ h.regs = g.regs ∧ h.path.pc = g.path.pc + 8 ∧ h.path.mask = g.path.mask
        ∧ (t.array i.g.la.val).cohortOf g.cohort = some k ∧ Tbl.get Barrier.fresh k.barriers b.val = new)
    ∧ (ready → legalS ops [0, 1, 3] = true →
      (∃ t h k, exec (.barWait i ops) s = .next t ∧ t.groupOf i.g = some h ∧ h.regs = g.regs
        ∧ (∃ p ∈ h.paths, p.pc = g.path.pc + 8 ∧ p.mask &&& m = m ∧ p.wait = some ⟨true, b, old.phase, decide (opOrderS ops % 2 = 1), opScopeS ops⟩)
        ∧ (t.array i.g.la.val).cohortOf g.cohort = some k ∧ Tbl.get Barrier.fresh k.barriers b.val = old)
      ∧ (named → ∃ t h k, exec (.barSync i ops) s = .next t ∧ t.groupOf i.g = some h ∧ h.regs = g.regs
        ∧ (∃ p ∈ h.paths, p.pc = g.path.pc + 8 ∧ p.mask &&& m = m
            ∧ p.wait = if new.phase = old.phase then some ⟨false, b, old.phase, decide (opOrderS ops % 2 = 1), opScopeS ops⟩ else none)
        ∧ (t.array i.g.la.val).cohortOf g.cohort = some k ∧ Tbl.get Barrier.fresh k.barriers b.val = new))

/-- Loads and stores (R42, R45, R54, R67, R171, R205, R206, R211, R214, R472).
That BASE at SPACE 1 is one register is the model's choice (log entry 25). -/
def Obligations.LoadsAndStoresComplete : Prop :=
  ∀ (s : State) (i : Issue) (c : Cmd) (g : Group) (ops : BitVec 48), Goes s i c g → legalM c.regCount ops = true →
    let a := s.array i.g.la.val
    let n := sizeBytes (opSize ops)
    (legalData c.regCount ops 1 = true → g.pending (memRegs ops 1) = [] → opOrder ops ≤ 1 →
      (a.tileAcquires g = true → Holds s (exec (.ld i ops) s) i c g .tileAcquire)
      ∧ (a.tileAcquires g = false → allReach (walked s i c g ops .read).1 →
        ∃ t h, exec (.ld i ops) s = .next t ∧ Loads s t i g h ops
          ∧ (opSpace ops = 1 → ∀ l r, l < 64 → (g.lanes i).getLsbD l = true →
              h.reg l r = (g.setBytes l (opDst ops) (a.lsRead g.cohort (laneAddr g ops l).toNat n)).reg l r))
      ∧ (a.tileAcquires g = false → (∃ x ∈ (walked s i c g ops .read).1, ∃ k b, x.2 = .fault k b) →
        ∃ t h, exec (.ld i ops) s = .next t ∧ t.groupOf i.g = some h ∧ h.parks ∧ h.path.pc = g.path.pc ∧ h.regs = g.regs))
    ∧ (legalData c.regCount ops 1 = true → g.pending (memRegs ops 1) = [] → (opOrder ops = 0 ∨ opOrder ops = 2) →
      (allReach (walked s i c g ops .write).1 → (g.lanes i = 0 ∨ opOrder ops = 0 ∨ released (walked s i c g ops .write).2 i g (opActs ops)) →
        ∃ t h, exec (.st i ops) s = .next t ∧ t.groupOf i.g = some h ∧ h.regs = g.regs ∧ h.preds = g.preds ∧ h.path.pc = g.path.pc + 8
          ∧ t.mem.bytes = (walked s i c g ops .write).2.mem.bytes ∧ t.mem.poison = (walked s i c g ops .write).2.mem.poison
          ∧ (opSpace ops = 1 → ∀ b,
              ((∀ l, (g.lanes i).getLsbD l = true → ¬ ((laneAddr g ops l).toNat ≤ b ∧ b < (laneAddr g ops l).toNat + n)) →
                (t.array i.g.la.val).lsByte g.cohort b = a.lsByte g.cohort b)
              ∧ ∀ l, (g.lanes i).getLsbD l = true → (laneAddr g ops l).toNat ≤ b → b < (laneAddr g ops l).toNat + n →
                (∀ k, l < k → (g.lanes i).getLsbD k = true → ¬ ((laneAddr g ops k).toNat ≤ b ∧ b < (laneAddr g ops k).toNat + n)) →
                (t.array i.g.la.val).lsByte g.cohort b = (g.bytes l (opDst ops) n).getD (b - (laneAddr g ops l).toNat) 0))
      ∧ (allReach (walked s i c g ops .write).1 → g.lanes i ≠ 0 → opOrder ops = 2 → ¬ released (walked s i c g ops .write).2 i g (opActs ops) →
        ∃ t, exec (.st i ops) s = .next t ∧ t.groupOf i.g = some { g with st := .waiting (.release (opActs ops)) })
      ∧ ((∃ x ∈ (walked s i c g ops .write).1, ∃ k b, x.2 = .fault k b) →
        ∃ t h, exec (.st i ops) s = .next t ∧ t.groupOf i.g = some h ∧ h.parks ∧ h.path.pc = g.path.pc ∧ h.regs = g.regs))
    ∧ (opOrder ops = 0 → g.pending (regSpan (opA ops) (if opSpace ops = 0 then 2 else 1)) = [] →
      ∃ t h, exec (.prefetch i ops) s = .next t ∧ t.groupOf i.g = some h ∧ h.regs = g.regs ∧ h.preds = g.preds ∧ h.path.pc = g.path.pc + 8)

/-- Atomics (R45, R55, R56, R165, R205, R206, R322).
The registers of a 64-bit CAS and BASE at SPACE 1 are the model's choices (log entry 25). -/
def Obligations.AtomicsComplete : Prop :=
  ∀ (s : State) (i : Issue) (c : Cmd) (g : Group) (ops : BitVec 48), Goes s i c g → ∀ (op : AtomicOp) (red : Bool) (ins : Instr) (times : Nat),
    ((red = false ∧ ins = .atomic i op ops ∧ times = (if op = .cas then 2 else 1) ∧ (s.array i.g.la.val).tileAcquires g = false)
      ∨ (red = true ∧ times = 1 ∧ ∃ q, ins = .red i q ops ∧ op = redAtomic q)) →
    legalAtomic ops times c = true → g.pending (memRegs ops times) = [] →
    let w := walked s i c g ops .atomic
    let r : Run := ⟨i.g.la.val, c, g.lanes i⟩
    (allReach w.1 → hostAtomics w.2 r op (opSize ops) red w.1 = w.1 →
      ((g.lanes i = 0 ∨ opOrder ops < 2 ∨ released w.2 i g (opActs ops)) → ∃ t h, exec ins s = .next t ∧ Loads s t i g h ops ∧ (red = true → h.regs = g.regs)
        ∨ ∃ t h, red = true ∧ (opAcquires ops = false ∨ g.lanes i = 0) ∧ exec ins s = .next t ∧ t.groupOf i.g = some h ∧ h.regs = g.regs ∧ h.preds = g.preds ∧ h.loads = g.loads ∧ h.path.pc = g.path.pc + 8)
      ∧ (g.lanes i ≠ 0 → 2 ≤ opOrder ops → ¬ released w.2 i g (opActs ops) → ∃ t, exec ins s = .next t ∧ t.groupOf i.g = some { g with st := .waiting (.release (opActs ops)) }))
    ∧ ((∃ x ∈ w.1, ∃ k b, x.2 = .fault k b) →
        ∃ t h, exec ins s = .next t ∧ t.groupOf i.g = some h ∧ h.parks ∧ h.path.pc = g.path.pc ∧ h.regs = g.regs)

/-- Tile issue and TWAIT (R92, R94-R98). -/
def Obligations.TileInstructionsComplete : Prop :=
  ∀ (s : State) (i : Issue) (c : Cmd) (g : Group) (ops : BitVec 48) (w2 : Word), Goes s i c g → g.lanes i ≠ 0 →
    let a := s.array i.g.la.val
    let accepts (o : Host.Outcome State Fault Refusal) (tok : Fin 8) (kind : TileKind) : Prop :=
      (g.token tok.val = .clear → a.queued < 32 → Completes s o i c g 16 (fun h => h.regs = g.regs ∧ h.preds = g.preds ∧ h.token tok.val = .busy)
        ∧ ∃ t, o = .next t ∧ (t.array i.g.la.val).tq = a.tq ++ [⟨a.tileSeq, g.cohort, g.num, tok, leader (g.lanes i), g.path.pc, kind, none, [], false, none⟩])
      ∧ (g.token tok.val = .clear → ¬ a.queued < 32 → Holds s o i c g .queueSlot)
      ∧ (g.token tok.val = .busy → Holds s o i c g (.tokens (1#8 <<< tok.val) false))
      ∧ (∀ f q rec, g.token tok.val = .faulted f q rec → ∃ t h, o = .next t ∧ t.groupOf i.g = some h ∧ h.parks ∧ h.path.pc = g.path.pc ∧ h.regs = g.regs)
    let l := leader (g.lanes i)
    (legalMove false ops w2 c = true → g.pending (moveRegs ops w2) = [] → accepts (exec (.tload i ops w2) s) (tTokenM ops)
      (.load (g.tileReg l (field ops 0 8)) (g.pair l (field ops 8 8)) (g.tileReg l (field ops 16 8)) (g.tileReg l (field ops 16 8 + 1))
        (g.pair l (field ops 24 8)) (tFmtMem ops) (tFmtLs ops) (field w2 0 2) (w2.getLsbD 2) (tHint ops) (field w2 3 3) (field w2 6 2) (g.tileReg l (field w2 16 8))))
    ∧ (legalMove true ops w2 c = true → g.pending (moveRegs ops w2) = [] → accepts (exec (.tstore i ops w2) s) (tTokenM ops)
      (.store (g.tileReg l (field ops 0 8)) (g.pair l (field ops 8 8)) (g.tileReg l (field ops 16 8)) (g.tileReg l (field ops 16 8 + 1))
        (g.pair l (field ops 24 8)) (tFmtMem ops) (tFmtLs ops) (field w2 0 2) (w2.getLsbD 2) (tHint ops) (field w2 3 3) (field w2 6 2)
        (w2.getLsbD 8) (field w2 9 6) (w2.getLsbD 15) (g.tileReg l (field w2 16 8))))
    ∧ (legalGrid ops w2 false c = true → g.pending (gridRegs false ops w2) = [] → accepts (exec (.tcontract i ops w2) s) (tTokenG ops) (gridKind 2 false ops w2 g l)
      ∧ accepts (exec (.tfft i ops w2) s) (tTokenG ops) (gridKind 4 false ops w2 g l)
      ∧ accepts (exec (.treduce i ops w2) s) (tTokenG ops) (gridKind 5 false ops w2 g l))
    ∧ (legalGrid ops w2 true c = true → g.pending (gridRegs true ops w2) = [] → accepts (exec (.tstencil i ops w2) s) (tTokenG ops) (gridKind 3 true ops w2 g l))
    ∧ (field ops 16 32 = 0 → w2 = 0 → pairNamed c.regCount (field ops 0 8) = true → regNamed c.regCount (field ops 8 8) = true → g.pending (regSpan (field ops 0 8) 2 ++ [field ops 8 8]) = [] →
      accepts (exec (.tdiscard i ops w2) s) 0 (.discard (g.pair l (field ops 0 8)) (g.tileReg l (field ops 8 8))))
    ∧ (field ops 8 40 = 0 → w2 = 0 → g.faulted (bits ops 0 8) = none →
      (g.busy (bits ops 0 8) = false → Completes s (exec (.twait i ops w2) s) i c g 16 (fun h => h.regs = g.regs ∧ h.preds = g.preds))
      ∧ (g.busy (bits ops 0 8) = true → Holds s (exec (.twait i ops w2) s) i c g (.tokens (bits ops 0 8) true)))
    ∧ (field ops 8 40 = 0 → w2 = 0 → g.faulted (bits ops 0 8) ≠ none →
      ∃ t h, exec (.twait i ops w2) s = .next t ∧ t.groupOf i.g = some h ∧ h.parks ∧ h.regs = g.regs)

/-- Illegal instructions (R57). -/
def Obligations.IllegalEndsTheCommand : Prop :=
  ∀ (s : State) (i : Issue) (c : Cmd) (g : Group) (ops : BitVec 48) (w2 : Word), Goes s i c g →
    (∀ op : BitVec 8, legalInt op.toNat ops c = false → exec (.integerOp i op ops) s = .next ((s.fetched i c g).endCmd c 0x11 (BitVec.ofNat 32 i.g.la.val)))
    ∧ ((legalM c.regCount ops = false ∨ legalData c.regCount ops 1 = false ∨ 1 < opOrder ops) → exec (.ld i ops) s = .next ((s.fetched i c g).endCmd c 0x11 (BitVec.ofNat 32 i.g.la.val)))
    ∧ (∀ op : AtomicOp, legalAtomic ops 2 c = false → op = .cas → exec (.atomic i op ops) s = .next ((s.fetched i c g).endCmd c 0x11 (BitVec.ofNat 32 i.g.la.val)))
    ∧ (cleanJ ops = false → exec (.bra i ops) s = .next ((s.fetched i c g).endCmd c 0x11 (BitVec.ofNat 32 i.g.la.val)))
    ∧ (legalS ops [0, 1, 2, 3] = false → exec (.fence i ops) s = .next ((s.fetched i c g).endCmd c 0x11 (BitVec.ofNat 32 i.g.la.val)))
    ∧ (legalGrid ops w2 false c = false → exec (.tcontract i ops w2) s = .next ((s.fetched i c g).endCmd c 0x11 (BitVec.ofNat 32 i.g.la.val)))
    ∧ (∀ w, xaiDecode i w 0 = none → ∀ j : Issue, j = { i with fetch := .reserved w } →
        exec (.nop j ops) s = .next ((s.fetched i c g).endCmd c 0x11 (BitVec.ofNat 32 i.g.la.val)))

/-- R41: what a group holds as it starts, and the constant register and predicate. -/
def Obligations.GroupsStartZeroAtTheEntry : Prop :=
  (∀ (s : State) (la : Fin 384) (o : Occupant) (c : Cmd) (idx : Nat), (s.array la.val).occ = some o → s.occupantCmd la.val = some c →
    c.stage = .running → o.draining = false → c.kind ≠ 5 → o.resident = true → o.fetching = [] → c.nextCohort la.val o.next = some idx →
    (s.array la.val).cohorts.length < c.maxCohorts →
    ∃ t new, exec (.cohortResident la) s = .next t ∧ (t.array la.val).groups = (s.array la.val).groups ++ new ∧ new.length = c.groups
      ∧ ∀ g ∈ new, g.cohort = idx ∧ (∀ l r, g.reg l r = 0) ∧ (∀ p, p < 7 → g.pred p = 0)
        ∧ ∃ x, g.paths = [x] ∧ x.mask = BitVec.allOnes 64 ∧ x.pc = c.entryPc)
  ∧ ∀ (g : Group) (l : Nat) (v : Word32) (m w : BitVec 64), g.reg l 255 = 0 ∧ g.setReg l 255 v = g ∧ g.pred 7 = BitVec.allOnes 64 ∧ g.setPred 7 m w = g

/-- Residency and pattern fetch (R39, R86, R88, R257).
That a pattern with another PATTERN_ID is taken is the model's choice (log entry 30). -/
def Obligations.ResidencyEventsComplete : Prop :=
  ∀ (s : State) (la : Fin 384) (o : Occupant) (c : Cmd), (s.array la.val).occ = some o → s.occupantCmd la.val = some c → c.stage = .running → o.draining = false →
    (c.kind ≠ 5 → o.resident = false →
      (∀ b u, s.argRead c = (.ok b, u) →
        ∃ t x, exec (.cohortResident la) s = .next t ∧ (t.array la.val).occ = some x ∧ x.resident = true ∧ x.cmd = o.cmd
          ∧ (t.array la.val).l1 = [] ∧ (t.array la.val).acc = [] ∧ (t.array la.val).gens = [] ∧ (t.array la.val).counts = ⟨0, 0, 0, 0, 0⟩ ∧ (t.array la.val).args = b
          ∧ (t.array la.val).sentryArmed = decide (c.sentry ≠ 0))
      ∧ (∀ u, s.argRead c = (.wait, u) → exec (.cohortResident la) s = .next u)
      ∧ (∀ n va u, s.argRead c = (.poison n va, u) → exec (.cohortResident la) s = .next (u.consumePoison c n (unitId 1 ((u.slotOf la.val).getD 0)))))
    ∧ (∀ (slot : Fin 4) (r : PatRef), o.fetching.find? (fun r => decide (r.slot = slot)) = some r →
      ∀ k u, s.fetchPattern c r.addr.toNat = (k, u) →
        (∀ p n, k = .ok p n → ∃ t x, exec (.patternFetchComplete la slot) s = .next t ∧ Tbl.get none (t.array la.val).slots slot.val = some ⟨p, r.id, c.part.val⟩
          ∧ (∀ q, q ≠ slot.val → Tbl.get none (t.array la.val).slots q = Tbl.get none (u.array la.val).slots q)
          ∧ (t.array la.val).occ = some x ∧ r ∉ x.fetching ∧ (∀ q ∈ x.fetching, q ∈ o.fetching) ∧ OnlyArray u t la.val)
        ∧ (k = .refused → exec (.patternFetchComplete la slot) s = .next (u.endCmd c 0x14 (BitVec.ofNat 32 la.val)))
        ∧ (∀ q va, k = .fault q va → exec (.patternFetchComplete la slot) s = .next (u.endCmd c 0x14 (BitVec.ofNat 32 la.val)))
        ∧ (∀ n va, k = .poison n va → exec (.patternFetchComplete la slot) s = .next (u.consumePoison c n (unitId 1 ((u.slotOf la.val).getD 0))))
        ∧ (k = .wait → exec (.patternFetchComplete la slot) s = .next u))

/-- Tile operations (R84, R89, R94-R98, R100, R123, R213, R214). -/
def Obligations.TileOperationsComplete : Prop :=
  ∀ (s : State) (la : Fin 384) (c : Cmd) (op : TileOp) (g : Group) (n : Fin 8), s.occupantCmd la.val = some c → c.stage = .running →
    s.groupFor la.val op = some g → g.live ≠ [] → op.held = none →
    let u := (s.charge c.part (some c.ref) .tile 1).charge c.part (some c.ref) .sram 1
    let x : Tl := ⟨la.val, c, op, g⟩
    let a := s.array la.val
    let free (e : TileEngine) (f : State → Prop) : Prop :=
      ∃ t h, exec (.tileOperationComplete la ⟨e, n⟩ .none .none) s = .next t ∧ (t.array la.val).tq = a.tq.filter (fun y => decide (y.seq ≠ op.seq))
        ∧ t.groupOf ⟨la, g.cohort, g.num⟩ = some h ∧ h.token op.token.val = .clear ∧ h.regs = g.regs ∧ f t
    (((a.inFlight[n.val]?).orElse (fun _ => a.inFlight.head?)) = some op → s.moveBehind a c.part op = false →
      (∀ (ls gaddr gstride lsStride rowElems rows : Word) fm rnd sat hint scope order, op.kind = .load ls gaddr rowElems rows gstride fm fm rnd sat hint scope order lsStride →
        (order = 1 → scope ≠ 0 → op.sent = false →
          ∃ t, exec (.tileOperationComplete la ⟨.loader, n⟩ .none .none) s = .next t
            ∧ (t.array la.val).tq = a.tq.map (fun y => if y.seq = op.seq then { op with sent := true } else y) ∧ ∀ l ∈ (t.array la.val).l1, l.instr = true)
        ∧ ((order ≠ 1 ∨ scope = 0 ∨ op.sent = true) → rows = 1 → ∀ k v b w,
          u.tileNeeds x hint (moveCuts gaddr gstride 1 (rowBytes fm rowElems.toNat)) = (k, v) → k ≠ .wait →
          (v.array la.val).lsHolds op.cohort ls.toNat (rowBytes fm rowElems.toNat) = true →
          v.tileRow x hint (lineCuts gaddr.toNat (rowBytes fm rowElems.toNat)) = (.ok b, w) →
          free .loader (fun t => (t.array la.val).lsRead op.cohort ls.toNat (rowBytes fm rowElems.toNat)
            = packRow fm (unpackRow fm rowElems.toNat b) (a.lsRead op.cohort ls.toNat (rowBytes fm rowElems.toNat)))))
      ∧ (∀ addr len, op.kind = .discard addr len → op.sent = true → s.tileSent la.val op 4 = false → free .loader (fun _ => True))
      ∧ (∀ (ls gaddr gstride lsStride rowElems rows : Word) fm fl rnd sat hint scope order acc toAcc toLs,
          op.kind = .store ls gaddr rowElems rows gstride fm fl rnd sat hint scope order toAcc acc toLs lsStride → op.sent = true → s.tileSent la.val op scope = false →
          free .loader (fun _ => True)))
    ∧ (a.inGrid = some op →
      (∀ (ls gaddr gstride lsStride rowElems rows : Word) fm fl rnd sat hint scope order acc toLs,
        op.kind = .store ls gaddr rowElems rows gstride fm fl rnd sat hint scope order true acc toLs lsStride →
        Tbl.get 0 a.accFmt acc = 0 → accRange c acc 1 = true →
        ∃ t r, exec (.tileOperationComplete la ⟨.grid, n⟩ .none .none) s = .next t
          ∧ (t.array la.val).tq = a.tq.map (fun y => if y.seq = op.seq then { op with accRead := some r } else y)
          ∧ r.2.1 = rowElems.toNat ∧ ∀ w ∈ r.2.2, w = 0)
      ∧ ∀ code p q e (slot : Fin 4) acc init cc d sa sb, op.kind = .grid code p q e slot acc init cc d sa sb →
        (Tbl.get none a.slots slot.val = none → exec (.tileOperationComplete la ⟨.grid, n⟩ .none .none) s = .next (u.endCmd c 0x15 (BitVec.ofNat 32 la.val)))
        ∧ ∀ v, Tbl.get none a.slots slot.val = some v →
          (v.part ≠ c.part.val → exec (.tileOperationComplete la ⟨.grid, n⟩ .none .none) s = .next (u.endCmd c 0x15 (BitVec.ofNat 32 la.val)))
          ∧ (v.part = c.part.val → gridServes code v.pat.kind = false →
              exec (.tileOperationComplete la ⟨.grid, n⟩ .none .none) s = .next (u.endCmd c 0x16 (BitVec.ofNat 32 la.val)))
          ∧ (let r : GridRun := ⟨la.val, c, op, v.pat, slot, v.id, code, p.toNat, q.toNat, cc.toNat, d.toNat, sa.toNat, sb.toNat, e, acc, init⟩
             let k := e.toNat % 2 ^ 32
             v.part = c.part.val → code = 5 → v.pat.kind = 6 → v.pat.operation = 0 → v.pat.a.fmt = 10 → v.pat.d.fmt = 10 → k ≤ v.pat.segment → 0 < k →
             firstBad (r.checks a) = none → firstBad (r.outChecks a) = none →
             free .grid (fun t => (t.array la.val).codeAt op.cohort (v.pat.d.pos r.d 0 32 0 0) 32
               = intRaw 10 (((List.range k).map (fun i => intValue 10 (r.elem a v.pat.a r.a 0 0 (i : Nat)))).sum))))

/-- Events of waiting groups (R45, R60, R68, R98, R206). -/
def Obligations.WaitingGroupsGoOn : Prop :=
  ∀ (s : State) (r : GroupRef) (g : Group), s.groupOf r = some g →
    (∀ c, s.occupantCmd r.la.val = some c → c.stage = .running → ∀ q, g.st = .waiting (.operand q) →
      ((∀ o ∈ g.loads, s.arrivedAll r.la.val g o = true ∧ o.bad = false) →
        ∃ t h, exec (.operandArrival r) s = .next t ∧ t.groupOf r = some h ∧ h.loads = [] ∧ h.paths = g.paths ∧ h.preds = g.preds
          ∧ h.st = (if g.path.eligible = true then .ready else .waiting .barrier)
          ∧ ∀ l k, h.reg l k = (g.loads.foldl (fun y o => (o.done ++ o.arrived).foldl (fun y v => if o.writes = [] then y else y.setBytes v.1 (opDst o.ops) v.2) y) g).reg l k)
      ∧ (∀ o, g.loads = [o] → s.arrivedAll r.la.val g o = true → o.refusedLanes ≠ [] →
        ∃ t h, exec (.operandArrival r) s = .next t ∧ t.groupOf r = some h ∧ h.parks ∧ h.regs = g.regs))
    ∧ (∀ c scope, s.occupantCmd r.la.val = some c → c.stage = .running → g.st = .waiting (.release scope) → s.releaseDone r.la.val g.cohort g.num scope = true →
      g.loads = [] → g.path.eligible = true →
      ∃ t, exec (.operandArrival r) s = .next t ∧ t.groupOf r = some { g with st := .ready } ∧ OnlyArray s t r.la.val)
    ∧ (∀ c f src rec k l, s.occupantCmd r.la.val = some c → (s.array r.la.val).faultQ = (g.cohort, g.num) :: l → g.st = .waiting (.parkSlot f src rec) →
      (s.array r.la.val).freeSlot = some k →
      ∃ t p, exec (.parkSlotGranted r.la) s = .next t ∧ t.groupOf r = some { g with st := .parked k }
        ∧ Tbl.get none (t.array r.la.val).parks k.val = some p ∧ p.fault = f ∧ p.cohort = g.cohort ∧ p.group = some g.num ∧ p.src = src
        ∧ (g.cohort, g.num) ∉ (t.array r.la.val).faultQ)
    ∧ (g.st = .waiting .queueSlot → (s.array r.la.val).queued < 32 →
      ∃ t, exec (.tileQueueSpaceFreed r) s = .next t ∧ t.groupOf r = some { g with st := .ready } ∧ OnlyArray s t r.la.val)
    ∧ (g.st = .ready → g.quantumDue = true →
      ∃ t, exec (.pathQuantumSwitch r) s = .next t ∧ t.groupOf r = some g.switch ∧ OnlyArray s t r.la.val ∧ g.switch.regs = g.regs ∧ g.switch.preds = g.preds)

/-- Expiry and divergence (R65, R66, R71, R75, R76). -/
def Obligations.ParksExpireAndCohortsTrap : Prop :=
  ∀ (s : State) (la : Fin 384) (c : Cmd), s.occupantCmd la.val = some c → c.stage = .running →
    (∀ (k : Fin 16) p, Tbl.get none (s.array la.val).parks k.val = some p → p.fault.cls ≠ .barrierDiverged → c.isSealed = false → c.arrays ≠ [] →
      ∃ t d, exec (.parkLimitExpired la (.slot k)) s = .next t ∧ t.cmd c.ref = some d ∧ Tbl.get none (t.array la.val).parks k.val = none
        ∧ (c.parkKills < 2 → d.stage = .draining none ∧ d.parkKills = c.parkKills + 1)
        ∧ (2 ≤ c.parkKills → d.stage = .draining (some (0x13, BitVec.ofNat 32 la.val))))
    ∧ (∀ (cohort : Nat) (k : Fin 16), (s.array la.val).freeSlot = some k → (s.array la.val).diverged cohort = true →
      ∃ t d p, exec (.barrierDiverged la cohort) s = .next t ∧ t.cmd c.ref = some d ∧ d.stage = .draining (some (0x12, BitVec.ofNat 32 la.val))
        ∧ Tbl.get none (t.array la.val).parks k.val = some p ∧ p.cohort = cohort ∧ p.group = none ∧ p.fault.cls = .barrierDiverged
        ∧ (t.array la.val).groups = ((s.array la.val).groups.filter (fun g => decide (g.cohort = cohort))).map (fun g => { g with st := .parked k }))

/-- Doorbells and nudges (R248, R250-R252). -/
def Obligations.DoorbellsReachTheChannel : Prop :=
  ∀ (s : State) (ch : Fin 3072), s.up = true → entState (s.entry ch) = 1 →
    let e := s.entry ch
    let a := blk e 8 0 64
    let x := s.chanCtx ch
    (∀ i, s.frontHost ch (entHost e 1) a = some i →
      (s.hostOk x i = true → ∃ t : State, exec (.doorbellPoll ch) s = .next t ∧ t.chan = s.chan ∧ t.mem = s.mem
        ∧ t.out = .hostRead x.port x.fn (s.pasidOf x) (BitVec.ofNat 64 i) 8 s.host.nextTag :: s.out)
      ∧ (s.hostOk x i = false → exec (.doorbellPoll ch) s = .next (s.chanError ch 2)))
    ∧ (∀ (h : HostRead) r u, s.frontBusy ch (entHost e 1) a 8 = false → s.frontRead ch (entHost e 1) a 8 h = (r, u) →
      ∀ c, (c = .doorbellRead ch h ∨ (c = .doorbellPoll ch ∧ s.frontHost ch (entHost e 1) a = none ∧ h = .data [])) →
        (∀ b, r = .ok b →
          ((BitVec.ofNat 32 (leNat (b.take 4)) - entConsumed e).toNat ≤ 2 ^ blk e 24 0 8 →
            ∃ t : State, exec c s = .next t ∧ (t.dyn ch).producer = BitVec.ofNat 32 (leNat (b.take 4)) ∧ t.entry ch = e)
          ∧ (2 ^ blk e 24 0 8 < (BitVec.ofNat 32 (leNat (b.take 4)) - entConsumed e).toNat → exec c s = .next (u.chanError ch 1)))
        ∧ (r = .failed → exec c s = .next (u.chanError ch 2)))
    ∧ (∀ port : Fin 2, s.barServes port 0 = true → fnOf (entFn e) = (port, 0) →
      exec (.chanNudge port ch) s = .next (s.setDyn ch { s.dyn ch with hot := true, backoff := 0 }))
    ∧ (∀ (port : Fin 2) (fn : Fin 128) (slot : Fin 512), fn ≠ 0 → s.barServes port fn = true →
      (s.dyn ch).assigned = true → fnOf (entFn e) = (port, fn) → blk e 36 0 16 = slot.val →
      (∀ d : Fin 3072, (s.dyn d).assigned = true → entState (s.entry d) = 1 → fnOf (entFn (s.entry d)) = (port, fn) → blk (s.entry d) 36 0 16 = slot.val → d = ch) →
      exec (.vfNudge port fn slot) s = .next (s.setDyn ch { s.dyn ch with hot := true, backoff := 0 }))

/-- The fetch of a descriptor (R247, R248, R255, R264). -/
def Obligations.DescriptorFetchTakesTheCommand : Prop :=
  ∀ (s u v : State) (ch : Fin 3072) (h : HostRead) (d : BitVec 512) (l : List (BitVec 512)),
    s.up = true → entState (s.entry ch) = 1 → s.heldSlots ch < 8 → s.slotsBusy ch = false →
    0 < ((s.dyn ch).producer - entConsumed (s.entry ch)).toNat →
    (s.slotsRead ch h 0 1 = (.failed, u) → exec (.descriptorFetch ch h) s = .next (u.chanError ch 3))
    ∧ (s.slotsRead ch h 0 1 = (.ok [d], u) → 1 + blk d 2 0 3 ≤ ((s.dyn ch).producer - entConsumed (s.entry ch)).toNat →
      (u.slotsRead ch h 1 (blk d 2 0 3) = (.failed, v) → exec (.descriptorFetch ch h) s = .next (v.chanError ch 3))
      ∧ (∀ g, u.slotsRead ch h 1 (blk d 2 0 3) = (.poison g, v) → exec (.descriptorFetch ch h) s =
        .next (((v.poisonRead (entPart (s.entry ch)) g frontUnit).takeCmd (Cmd.fresh (s.entry ch) ch (entConsumed (s.entry ch)) [d]) (1 + blk d 2 0 3)).finishCmd
          (Cmd.fresh (s.entry ch) ch (entConsumed (s.entry ch)) [d]) 0x50 0))
      ∧ (u.slotsRead ch h 1 (blk d 2 0 3) = (.ok l, v) → ∃ (w : State) (c : Cmd), exec (.descriptorFetch ch h) s = .next ((w.checkCmd c).schedule c.part) ∧ c.ch = ch ∧ c.idx = entConsumed (s.entry ch) ∧ c.slots = d :: l
      ∧ c.stage = .fetched ∧ w.chan.cmds = v.chan.cmds ++ [c] ∧ entConsumed (w.entry ch) = entConsumed (s.entry ch) + BitVec.ofNat 32 (1 + blk d 2 0 3)))

/-- Starting commands (R39, R262, R264, R289, R290, R295, R296). -/
def Obligations.CommandsStart : Prop :=
  ∀ (s : State) (ref : CmdRef) (x : Cmd), s.cmd ref = some x → s.up = true →
    (∀ p, x.kind = 1 → s.ready x = true → s.candidates x.part = [x] → s.effPriority x.part x.queue ≤ 7 → x.placement = some p →
      s.placeInvalid x x.names = false → s.chan.reserved = [] → s.chan.lent = [] →
      (∀ la ∈ x.names, s.unbound la = false ∧ s.leaving x.part la = false ∧ (s.partition x.part).floor.contains la = true ∧ (s.array la).occ = none) →
      ∃ (t : State) (d : Cmd), exec (.launch ref) s = .next t ∧ t.cmd ref = some d ∧ d.stage = .running ∧ d.arrays = x.names.filter (fun la => (x.nextCohort la 0).isSome)
        ∧ ∀ la ∈ d.arrays, (t.array la).occ = some ⟨ref, x.part, 0, [], false, false⟩)
    ∧ (∀ r u, x.kind = 5 → x.stage = .running → s.fetchPattern x (blk x.head 16 0 64) = (r, u) → (u.cmd ref).isSome = true →
      (r = .wait → exec (.patternLoad ref) s = .next u)
      ∧ ((r = .refused ∨ ∃ k a, r = .fault k a) → exec (.patternLoad ref) s = .next (u.endCmd x 0x14 0))
      ∧ (∀ g a, r = .poison g a → exec (.patternLoad ref) s = .next (u.consumePoison x g (unitId 3 14)))
      ∧ ∀ p n, r = .ok p n → ∃ (t : State) (d : Cmd), exec (.patternLoad ref) s = .next t ∧ t.cmd ref = some d ∧ d.stage = .finished ∧ d.arrays = [] ∧ d.left = x.arrays.length
        ∧ ∀ la ∈ x.arrays, (t.array la).occ = none ∧ Tbl.get none (t.array la).slots (blk x.head 28 0 2) = some ⟨p, BitVec.ofNat 32 (blk x.head 32 0 32), x.part.val⟩)
    ∧ (x.kind = 10 → s.ready x = true → s.fenced x = [] → exec (.queueFence ref) s = .next (s.setCmd { x with stage := .finished }))
    ∧ (∀ r u, x.stage = .fetched → x.waitsHeld = false → s.heldBack x = false → (semEntries x.slots).any (fun e => s.rangeBusy x.part e.1 16) = false →
      s.semEntriesTest x (semEntries x.slots) = (r, u) → (u.cmd ref).isSome = true →
      (r = .invalid → exec (.semaphoreRetest ref) s = .next ((u.finishCmd x 5 0).schedule x.part))
      ∧ (r = .waits none → exec (.semaphoreRetest ref) s = .next ((u.setCmd { x with tested := true }).schedule x.part))
      ∧ (r = .holds → (∀ e ∈ semEntries x.slots, e.2.1 ≠ 3) → ∃ (t : State) (d : Cmd), exec (.semaphoreRetest ref) s = .next (t.schedule x.part) ∧ t.cmd ref = some d ∧ d.waitsHeld = true ∧ d.claims = []))

/-- Engine commands (R258, R261, R269, R359, R413).
That such a command takes one step is the model's choice (log entry 40). -/
def Obligations.EngineCommandsFinish : Prop :=
  ∀ (s u : State) (ref : CmdRef) (c : Cmd),
    (s.begin ref 3 = (some c, u) →
      ((copyShape c.slots).writes ++ scaleRange c.slots).any (fun r => u.rangeBusy c.part r.1 r.2) = false →
      let x := copyShape c.slots
      let op := blk c.head 47 0 3
      let shared := if op = 0 then (x.writes.map (fun r => lastByte x.dstFmt x.elements r.1)).flatten else []
      ∀ l v, u.engGets c 0 (scaleReads c.slots ++ x.reads ++ shared) = (some l, v) →
      let k := (scaleReads c.slots).length
      let outs := c.copyHow.rows x.elements ((l.drop k).take x.reads.length) (l.take k).flatten (genSeed (bits c.head 384 64) 0x3FF 0)
      let r := if op = 0 then v.engPuts c (blk c.head 46 3 2) (copyWrites x x.elements outs (l.drop (k + x.reads.length)).flatten (blk c.head 56 0 64))
        else v.copyReduces c x.dstFmt op (blk c.head 46 3 2) (copyElems x outs)
      r.1 = true → (r.2.cmd ref).isSome = true → ∃ (t : State) (d : Cmd), exec (.copy ref) s = .next t ∧ t.cmd ref = some d ∧ d.stage = .finished ∧ t.mem = r.2.mem
        ∧ t.out = r.2.out ∧ d.counts = outs.foldl (fun n o => n.plus o.counts) .zero)
    ∧ (∀ v, s.begin ref 4 = (some c, u) → u.rangeBusy c.part (blk c.head 16 0 64) (blk c.head 24 0 64) = false →
      u.engPuts c (blk c.head 40 0 2) [(blk c.head 16 0 64, fillBytes (bits c.head 256 64) (blk c.head 24 0 64))] = (true, v) → (v.cmd ref).isSome = true →
      ∃ (t : State) (d : Cmd), exec (.fill ref) s = .next t ∧ t.cmd ref = some d ∧ d.stage = .finished ∧ t.mem = v.mem ∧ t.out = v.out)
    ∧ (s.begin ref 9 = (some c, u) → 1 ≤ blk c.head 16 0 8 → blk c.head 16 0 8 ≤ 3 →
      (blk c.head 16 0 8 = 1 → s.mem.homeReqs = [] ∧ s.link.reqs = [] ∧ s.host.reads = []) →
      ∃ (t : State) (d : Cmd), exec (.tableInvalidate ref) s = .next t ∧ t.cmd ref = some d ∧ d.stage = .finished
        ∧ (blk c.head 16 0 8 = 3 → ∀ y ∈ t.chan.cmds, y.part = c.part → y.stage = .fetched →
          y.tableMeets (blk c.head 24 0 64, blk c.head 32 0 64) = false))
    ∧ (s.begin ref 8 = (some c, u) →
      (blk c.head 32 0 64 = 0 → ∃ (t : State) (d : Cmd), exec (.remoteCopy ref) s = .next t ∧ t.cmd ref = some d ∧ d.stage = .finished)
      ∧ (blk c.head 32 0 64 ≠ 0 → (u.remoteAt c.part (blk c.head 16 0 64) false).isSome ≠ (u.remoteAt c.part (blk c.head 24 0 64) true).isSome →
        exec (.remoteCopy ref) s = .next (u.moveFrames ref (u.remoteAt c.part (blk c.head 24 0 64) true).isSome 1026)))
    ∧ (∀ d v, s.begin ref 7 = (some c, u) → c.sent = 0 → u.ckBuild c = (some d, v) →
      exec (.checkpoint ref) s = .next (v.ckWrite ref (d.buf.length + 2)))

/-- The ends of commands (R216, R269, R273, R278, R311). -/
def Obligations.CommandsEnd : Prop :=
  ∀ (s : State) (ref : CmdRef) (c : Cmd), s.cmd ref = some c →
    (∀ u v d, s.up = true → c.stage = .finished → s.applyStep c = (true, u) → u.writeReport ((u.cmd ref).getD c) = (true, v) → v.cmd ref = some d →
      v.performed ref = true → (semEntries d.slots).any (fun e => v.rangeBusy d.part e.1 16) = false →
      ∃ w : State, exec (.commitPoint ref) s = .next (w.afterEnd d) ∧ w.cmd ref = none ∧ entCompleted (w.entry d.ch) = entCompleted (v.entry d.ch) + 1)
    ∧ (c.stage = .draining none → (∀ la ∈ c.arrays, (s.array la).cohorts = [] ∧ (s.array la).tq = []) → c.reruns < rerunLimit (s.entry c.ch) →
      ∃ (w : State) (d : Cmd), exec (.killDrainComplete ref) s = .next w.finishActions.scheduleAll ∧ w.cmd ref = some d ∧ d.stage = .fetched ∧ d.reruns = c.reruns + 1
        ∧ d.arrays = [] ∧ ∀ la ∈ c.arrays, (s.array la).occ.any (fun o => decide (o.cmd = ref)) = true → (w.array la).occ = none)
    ∧ (∀ b u v, s.up = true → c.kind = 2 → s.ready c = true → c.build = none → s.stepHeld c = false → s.stepBuild c = (.ok b, u) →
      (stepWrites c b).any (fun x => u.rangeBusy c.part x.1 x.2.length) = false → u.putAll c 0 (stepWrites c b) = (.ok, v) → v.cmd ref = some c →
      ∃ (w : State) (d : Cmd), exec (.step ref) s = .next (w.schedule c.part) ∧ w.cmd ref = some d ∧ d.build = some b.walk.build ∧ d.launch = some b.template
        ∧ (b.walk.items = [] → d.stage = .finished))
    ∧ (∀ x u, s.up = true → c.kind = 2 → s.ready c = true → c.build = none → s.stepHeld c = false → s.stepBuild c = (.error x, u) → exec (.step ref) s = .next (u.stepEnds c x))
    ∧ (∀ d u x, s.up = true → c.kind = 6 → c.stage = .fetched → s.replayAll c 0 (blk c.head 16 0 8) = (d, u) → u.cmd ref = some x →
      exec (.replay ref) s = .next ((u.finishCmd x 0 (BitVec.ofNat 32 d)).schedule x.part))
    ∧ (s.up = true → c.kind = 6 → c.stage = .fetched → blk c.head 16 0 8 = 1 →
      let n := bits c.head 192 32
      let k : Fin 16 := ⟨field n 9 4 % 16, Nat.mod_lt _ (by decide)⟩
      let ends (u : State) (o : BitVec 32) : Host.Outcome State Fault Refusal := .next ((u.finishCmd c 0 o).schedule c.part)
      (Tbl.get none (s.array (field n 0 9)).parks k.val = none → exec (.replay ref) s = ends s 1)
      ∧ ∀ y p, s.occupantCmd (field n 0 9) = some y → Tbl.get none (s.array (field n 0 9)).parks k.val = some p →
        ((y.part ≠ c.part ∨ p.ticket ≠ n) → exec (.replay ref) s = ends s 1)
        ∧ (y.part = c.part → p.ticket = n →
          (3 ≤ blk c.head 56 0 8 → exec (.replay ref) s = ends s 2)
          ∧ ∀ g, p.fault.cls ≠ .barrierDiverged → (s.array (field n 0 9)).groups.find? (fun g => decide (p.group = some g.num ∧ g.cohort = p.cohort)) = some g →
            g.live ≠ [] → p.src = .instr →
            (blk c.head 56 0 8 = 0 → exec (.replay ref) s = ends ((s.freePark (field n 0 9) k).putGroup (field n 0 9) g.resumed) 0)
            ∧ (blk c.head 56 0 8 = 1 → exec (.replay ref) s =
              ends ((s.freePark (field n 0 9) k).putGroup (field n 0 9) (if p.fault.cls = .nanSentry then g else g.advance 8).resumed) 0)))
    ∧ (∀ ch : Fin 3072, (s.dyn ch).holding = true →
      ((s.dyn ch).irqDue = false → exec (.interruptHoldoffExpired ch) s = .next (s.setDyn ch { s.dyn ch with holding := false }))
      ∧ ((s.dyn ch).irqDue = true → ∃ t : State, exec (.interruptHoldoffExpired ch) s = .next t ∧ (t.dyn ch).irqDue = false
        ∧ (t.dyn ch).holding = decide (blk (s.entry ch) 39 0 8 ≠ 0) ∧ t.entry ch = s.entry ch))

/-- Limits of the scheduler (R291, R292, R295, R298, R301). -/
def Obligations.SchedulerLimitsTakeEffect : Prop :=
  ∀ (s : State), s.up = true →
    (∀ (ref : CmdRef) (x : Cmd), s.cmd ref = some x →
      (∀ k, x.donating = some k → x.stage = .fetched → exec (.donationLimitExpired ref) s = .next (((s.undonate x.part k 4).finishCmd x 0x22 0).schedule x.part))
      ∧ (x.usesArrays = true → s.ready x = true → x.names.any (fun la => s.unbound la) = true →
        exec (.placementUnbound ref) s = .next ((s.finishCmd x 0x21 0).schedule x.part))
      ∧ (x.stage = .running → x.isSealed = true → x.sealOverrun = true → x.arrays ≠ [] →
        ∃ (t : State) (d : Cmd), exec (.sealLimitExpired ref) s = .next t ∧ t.cmd ref = some d ∧ d.stage = .draining (some (0x23, 0))))
    ∧ (∀ (p : Fin 16) (q : Fin 64), ((s.partition p).queue q).inSlice = true → s.contender p q = true →
      ∃ w : State, exec (.sliceEnd p q) s = .next (w.schedule p) ∧ ((w.partition p).queue q).inSlice = false ∧ ((w.partition p).queue q).ended = true)
    ∧ (∀ (la : Fin 384) lender l, s.offerOf la.val = some (lender, l) → Tbl.get false s.chan.lent la.val = false → (s.array la.val).occ = none →
      (∀ c ∈ s.chan.cmds, ¬ (c.part = lender ∧ s.runnable c = true ∧ la.val ∈ c.names)) →
      ∃ w : State, exec (.loanIdleExpired la) s = .next ((w.postLoan 0x0005 la.val lender l.borrower).schedule l.borrower) ∧ Tbl.get false w.chan.lent la.val = true
        ∧ w.array la.val = (s.array la.val).pass)

/-- Grants and releases (R144, R147, R148, R281-R285). -/
def Obligations.PartitionGrantsComplete : Prop :=
  ∀ (s : State) (n : Fin 2) (p : Fin 16),
    let a := (s.port n).regs.partArg
    (s.Asks n 1 p .absent →
      ∃ t : State, exec (.create (.host n)) s = .next t ∧ t.Answers n 0 ∧ (t.partition p).mode = .live ∧ (t.partition p).floor = [] ∧ (t.partition p).cores = []
        ∧ (t.partition p).confined = (a.getD 0 0).getLsbD 0 ∧ (t.partition p).hub.val = arg a 0 1 2 ∧ (t.partition p).guarantee = 0
        ∧ (t.partition p).ceiling = s.healthy / 100 ∧ Tbl.get none t.mem.keys p.val = some s.sec.nextKey ∧ t.mem.plots = s.mem.plots)
    ∧ (s.Asks n 2 p .live →
      (s.chansOf p = [] → ∃ w : State, w.partition p = Partition.absent ∧ Tbl.get none w.mem.keys p.val = none ∧ Tbl.get none w.mem.roots p.val = none
        ∧ exec (.destroy (.host n)) s = .next ((w.refactor.actDone ⟨some n, p, .destroy, false⟩ false).finishFuel 3).scheduleAll)
      ∧ ((∀ ch ∈ s.chansOf p, entState (s.entry ch) = 2) → s.chansOf p ≠ [] →
        ∃ t : State, exec (.destroy (.host n)) s = .next t.scheduleAll ∧ (t.port n).regs.partBusy = true ∧ (t.partition p).mode = .closing ∧ t.chan.acts = [⟨some n, p, .destroy, false⟩]))
    ∧ (s.Asks n 3 p .live → ∀ f k, f = arg a 0 0 9 → k = arg a 0 16 9 → 1 ≤ k → f + k ≤ 384 → (∀ la q, f ≤ la → la < f + k → s.floorOf la = some q → q = p) →
      ∃ w : State, exec (.grantArrays (.host n)) s = .next w.finishActions ∧ w.chan.acts = [⟨some n, p, .grantArrays f k, false⟩] ∧ (w.port n).regs.partBusy = true
        ∧ (∀ la, la ∈ (w.partition p).floor ↔ la ∈ (s.partition p).floor ∨ (f ≤ la ∧ la < f + k))
        ∧ ∀ la, w.array la = if f ≤ la ∧ la < f + k ∧ la ∉ (s.partition p).floor then (s.array la).pass else s.array la)
    ∧ (s.Asks n 4 p .live → ∀ f k, f = arg a 0 0 9 → k = arg a 0 16 9 → 1 ≤ k → f + k ≤ 384 → (s.partition p).loan = none →
      (∀ la, f ≤ la → la < f + k → la ∈ (s.partition p).floor ∧ (s.array la).occ = none) →
      ∃ t : State, exec (.releaseArrays (.host n)) s = .next t.scheduleAll ∧ t.Answers n 0
        ∧ ∀ la, la ∈ (t.partition p).floor ↔ la ∈ (s.partition p).floor ∧ ¬ (f ≤ la ∧ la < f + k))
    ∧ (s.Asks n 5 p .live → ∀ f k, f = arg a 0 0 11 → k = arg a 0 16 11 → 1 ≤ k → f + k ≤ 1128 → s.admits = true →
      (∀ q, f ≤ q → q < f + k → s.confinedBand (q / 24) = (s.partition p).confined ∧ ((s.partition p).confined = true → hubOfPlot q = (s.partition p).hub.val)
        ∧ s.plotAbsent q = false ∧ s.plot q = .free) →
      ∃ t : State, exec (.grantPlots (.host n)) s = .next t ∧ t.Answers n 0
        ∧ (∀ q, f ≤ q → q < f + k → t.plot q = .granted p 0)
        ∧ (∀ q, ¬ (f ≤ q ∧ q < f + k) → t.plot q = s.plot q)
        ∧ ∀ x, Tbl.get 0 t.mem.bytes x = if f ≤ x / 2 ^ 30 ∧ x / 2 ^ 30 < f + k then 0 else Tbl.get 0 s.mem.bytes x)
    ∧ (s.Asks n 6 p .live → ∀ f k, f = arg a 0 0 11 → k = arg a 0 16 11 → 1 ≤ k → f + k ≤ 1128 →
      (∀ q, f ≤ q → q < f + k → q ∈ s.plotsOf p) →
      ∃ t : State, exec (.releasePlots (.host n)) s = .next t ∧ t.Answers n 0
        ∧ (∀ q, f ≤ q → q < f + k → t.plot q = if s.plotStuck q || s.plotDark q then .quarantined else .free)
        ∧ ∀ q, ¬ (f ≤ q ∧ q < f + k) → t.plot q = s.plot q)
    ∧ (s.Asks n 7 p .live → ∀ k, k = arg a 0 0 8 → 1 ≤ k → k ≤ 144 → 2 ≤ pop (s.ways p).mask →
      ∀ l m, l = (if (s.partition p).confined = true ∧ (s.partition p).hub.val / 2 = 1 then [] else s.freeCores 0) →
        m = (if (s.partition p).confined = true ∧ (s.partition p).hub.val / 2 = 0 then [] else s.freeCores 1) → k ≤ l.length + m.length →
      ∃ t : State, exec (.grantCores (.host n)) s = .next t ∧ t.Answers n 0 ∧ t.partition p = { s.partition p with cores := (s.partition p).cores ++ takeCores k l m })
    ∧ (s.Asks n 8 p .live → ∀ k, k = arg a 0 0 8 → 1 ≤ k → k ≤ 144 → k ≤ (s.partition p).cores.length →
      ∃ t : State, exec (.releaseCores (.host n)) s = .next t ∧ t.Answers n 0
        ∧ t.partition p = { s.partition p with cores := (s.partition p).cores.take ((s.partition p).cores.length - k) }
        ∧ ∀ c ∈ (s.partition p).cores.drop ((s.partition p).cores.length - k), (t.core c).running = false ∧ (t.core c).pc = 0)

/-- Settings (R162, R163, R281, R282, R287, R292, R299, R302, R307). -/
def Obligations.PartitionSettingsComplete : Prop :=
  ∀ (s : State) (n : Fin 2) (p : Fin 16),
    let a := (s.port n).regs.partArg
    let x := s.partition p
    (s.Asks n 9 p .live → ∀ g c, g = arg a 0 0 18 → c = arg a 0 32 18 → g ≤ c → 100 * c ≤ s.healthy → g ≤ x.guarantee →
      ∃ w : State, w.partition p = { x with guarantee := g, ceiling := c } ∧ w.mem = s.mem
        ∧ exec (.setBandwidth (.host n)) s = .next (((w.refactor.boundRegs p).partOut (.host n) 9 0).finishActions))
    ∧ (s.Asks n 10 p .live → 1 ≤ arg a 0 0 16 → arg a 0 0 16 ≤ 1000 → 1 ≤ arg a 0 16 16 → arg a 0 16 16 ≤ 10000 →
      1 ≤ arg a 0 32 16 → arg a 0 32 16 ≤ 10000 → 1 ≤ arg a 0 48 16 → arg a 0 48 16 ≤ 1000 →
      ∃ t : State, exec (.setLimits (.host n)) s = .next t ∧ t.Answers n 0
        ∧ t.partition p = { x with sealLimit := arg a 0 0 16, parkLimit := arg a 0 16 16, donationLimit := arg a 0 32 16, reportInterval := arg a 0 48 16 })
    ∧ (s.Asks n 11 p .live → ∀ q : Fin 64, q.val = arg a 0 0 6 → 100 ≤ arg a 0 32 20 → arg a 0 32 20 ≤ 1000000 →
      (∀ c ∈ s.chan.cmds, c.part = p → c.queue = q → c.isSealed = true) →
      ∃ t : State, exec (.setQueue (.host n)) s = .next t.scheduleAll ∧ t.Answers n 0 ∧ t.chan.cmds = s.chan.cmds
        ∧ ((t.partition p).queue q) = { x.queue q with suspended := (a.getD 0 0).getLsbD 8, slice := arg a 0 32 20 })
    ∧ (s.Asks n 12 p .live → x.loan = none → ∀ f k b i, f = arg a 0 0 9 → k = arg a 0 16 9 → b = toPart (arg a 0 32 4) → i = arg a 0 48 16 →
      (k = 0 ∨ (f + k ≤ 384 ∧ 10 ≤ i ∧ b ≠ p ∧ (s.partition b).mode = .live ∧ ∀ la, f ≤ la → la < f + k → la ∈ x.floor)) →
      ∃ t : State, exec (.setLoan (.host n)) s = .next t.scheduleAll ∧ t.Answers n 0 ∧ t.partition p = { x with loan := if k = 0 then none else some ⟨f, k, b, i⟩ })
    ∧ (s.Asks n 13 p .live →
      (∀ v, v < 4 → ((allParts.map (fun q => if q = p then arg a 0 (8 * v) 8 else (s.partition q).credits.getD v 0)).foldl (· + ·) 0) ≤ 192) →
      ∃ t : State, exec (.setCredits (.host n)) s = .next t ∧ t.Answers n 0
        ∧ t.partition p = { x with credits := [arg a 0 0 8, arg a 0 8 8, arg a 0 16 8, arg a 0 24 8] })
    ∧ (s.Asks n 14 p .live → ∀ (b b' : Option RingBlock) f t u v, bits (a.getD 2 0) 16 8 = 0 →
      let fn := bits (a.getD 2 0) 8 16
      let c : Ctx := ⟨p, (fnOf fn).1, (fnOf fn).2, some (bits (a.getD 3 0) 0 20)⟩
      s.ringRead c (a.getD 0 0).toNat false b = (some f, u) → u.ringRead c (a.getD 1 0).toNat ((a.getD 2 0).getLsbD 0) b' = (some t, v) →
      exec (.setRings (.host n) ⟨b, b'⟩) s = .next (((v.setPartition p { v.partition p with
        fault := f, telemetry := t, ringFn := fn, ringPasid := bits (a.getD 3 0) 0 20 }).partOut (.host n) 14 0).finishActions))
    ∧ (s.Asks n 15 p .live → arg a 0 0 6 = 0 → arg a 1 0 16 ≤ 32768 → 16 ≤ arg a 3 0 16 → arg a 3 0 16 ≤ 4096 →
      (allParts.map (fun q => if q = p then arg a 1 0 16 else (s.partition q).seqCount)).foldl (· + ·) 0 ≤ 32768 →
      ∃ t : State, exec (.setServing (.host n)) s = .next t ∧ t.Answers n 0
        ∧ t.partition p = { x with seqBase := a.getD 0 0, seqCount := arg a 1 0 16, pool := a.getD 2 0, pageTokens := arg a 3 0 16, serving := true })
    ∧ (∀ va h w v, s.up = true → x.mode = .live → s.chan.acts = [] → s.callBlock p va h = (some w, v) → v.chan.acts = [] → (v.partition p).mode = .live →
      1 ≤ arg w 0 0 16 → arg w 0 0 16 ≤ 1000 → 1 ≤ arg w 0 16 16 → arg w 0 16 16 ≤ 10000 →
      1 ≤ arg w 0 32 16 → arg w 0 32 16 ≤ 10000 → 1 ≤ arg w 0 48 16 → arg w 0 48 16 ≤ 1000 → w.getD 1 0 = 0 → w.getD 2 0 = 0 → w.getD 3 0 = 0 →
      exec (.setLimits (.services p va h)) s = .next ((v.setPartition p { v.partition p with
        sealLimit := arg w 0 0 16, parkLimit := arg w 0 16 16, donationLimit := arg w 0 32 16, reportInterval := arg w 0 48 16 }).callReturn 0))
    ∧ (s.up = true → s.barServes n 0 = true → (s.port n).regs.partBusy = false → s.chan.acts = [] → s.actPart (.host n) = p →
      exec (.partRead (.host n)) s = .next (s.setRegs n { (s.port n).regs with partBusy := false, partResult := 0, partArg := s.partWords p }))

/-- The checks before a partition action (R281, R282). -/
def Obligations.PartitionActionsAreChecked : Prop :=
  ∀ (s : State) (x : Nat × (Caller → Instr)),
    x ∈ ([(1, .create), (2, .destroy), (3, .grantArrays), (4, .releaseArrays), (5, .grantPlots), (6, .releasePlots), (7, .grantCores), (8, .releaseCores),
      (9, .setBandwidth), (12, .setLoan), (13, .setCredits)] : List (Nat × (Caller → Instr))) →
    s.up = true →
    let ends (t : State) : Host.Outcome State Fault Refusal := .next (if stirs false x.1 then t.scheduleAll else t)
    (∀ n : Fin 2, s.barServes n 0 = true →
      let r := (s.port n).regs
      let p := s.actPart (.host n)
      (r.partBusy = true → exec (x.2 (.host n)) s = ends (s.setRegs n { r with partResult := 5 }))
      ∧ (r.partBusy = false → s.chan.acts = [] →
        (p = 0 → exec (x.2 (.host n)) s = ends (s.setRegs n { r with partBusy := false, partResult := 6 }))
        ∧ (p ≠ 0 → (s.partition p).mode ≠ (if x.1 = 1 then .absent else .live) → exec (x.2 (.host n)) s = ends (s.setRegs n { r with partBusy := false, partResult := 1 }))
        ∧ (p ≠ 0 → (s.partition p).mode = (if x.1 = 1 then .absent else .live) → argsOk x.1 r.partArg = false →
          exec (x.2 (.host n)) s = ends (s.setRegs n { r with partBusy := false, partResult := 2 }))))
    ∧ ∀ p b c, (s.partition p).mode ≠ .absent → s.chan.acts = [] →
      exec (x.2 (.services p b c)) s = ends { s with chan := { s.chan with callResult := some 6 } }

/-- Channel actions (R244-R246, R471). -/
def Obligations.ChannelActionsComplete : Prop :=
  ∀ (s : State) (n : Fin 2) (ch : Fin 3072), s.up = true → s.barServes n 0 = true → (s.port n).regs.chanBusy = false → s.chan.acts = [] →
    (s.port n).regs.chanSelect.toNat = ch.val → ((s.dyn ch).assigned = true → (fnOf (entFn (s.entry ch))).1 = n) →
    let e := s.entry ch
    (∀ w, w = wordsEntry (s.port n).regs.chanData → (entState e = 0 ∨ entState e = 3 ∨ entState e = 4) → (fnOf (entFn w)).1 = n → entryOk w = true → s.nudgeTaken ch w = false →
      (s.partition (entPart w)).mode = .live → s.fnOfPart (entPart w) n (fnOf (entFn w)).2 = true → s.lockBars (entPart w) (entFn w) = false →
      ∃ t : State, exec (.chanWrite (.host n)) s = .next t ∧ t.entry ch = setEntState w 0 ∧ (t.dyn ch).assigned = true
        ∧ (t.port n).regs.chanBusy = false ∧ (t.port n).regs.chanResult = 0 ∧ ∀ d, d ≠ ch → t.entry d = s.entry d)
    ∧ exec (.chanRead (.host n)) s = .next (s.setRegs n { (s.port n).regs with chanBusy := false, chanResult := 0, chanData := entryWords e })
    ∧ (entState e = 1 → s.chanCmds ch = [] →
      ∃ t : State, exec (.chanStop (.host n)) s = .next t.scheduleAll ∧ entState (t.entry ch) = 2 ∧ (t.port n).regs.chanBusy = true ∧ t.chan.acts = [⟨some n, s.actPart (.host n), .chanStop ch, false⟩])
    ∧ ((entState e = 0 ∨ entState e = 3 ∨ entState e = 4) → s.lockBars (entPart e) (entFn e) = false →
      ∃ t : State, exec (.chanStart (.host n)) s = .next t ∧ t.entry ch = setEntState (setEntCause e 0) 1 ∧ (t.dyn ch).producer = entConsumed (t.entry ch)
        ∧ (t.dyn ch).assigned = (s.dyn ch).assigned ∧ (t.port n).regs.chanBusy = false ∧ (t.port n).regs.chanResult = 0)
    ∧ (entState e = 3 ∨ entState e = 4 →
      ∃ t : State, exec (.chanDisable (.host n)) s = .next t ∧ t.entry ch = setEntState e 0 ∧ (t.port n).regs.chanBusy = false ∧ (t.port n).regs.chanResult = 0)
    ∧ (entState e = 2 → s.chanCmds ch = [] → (s.dyn ch).stop = some .stop →
      exec (.channelStopped ch) s = .next (((s.setDyn ch { s.dyn ch with stop := none }).setEntry ch (setEntState e 3)).finishAll))

/-- Calls of partition services (R375, R377, R379, R380, R383, R402, R403, R409). -/
def Obligations.PartitionCallsComplete : Prop :=
  ∀ (s : State) (p : Fin 16), s.callable p = true →
    let x := s.partition p
    (∀ d, ∃ t : State, exec (.extend p d) s = .next t ∧ t.partition p = { x with measurement := sha256 (digestBytes x.measurement ++ digestBytes d) }
      ∧ t.chan.callResult = some 0 ∧ ∀ q, q ≠ p → t.partition q = s.partition q)
    ∧ (∀ (a : BitVec 256) (f : Byte), f.toNat < 4 → (∀ ch ∈ s.chansOf p, (acceptedList a).contains (entFn (s.entry ch)) = true) →
      ∃ t : State, exec (.lock p a f) s = .next t ∧ t.partition p = { x with lock := some ⟨acceptedList a, f.getLsbD 0, f.getLsbD 1⟩ }
        ∧ t.chan.callResult = some 0 ∧ t.chan.entries = s.chan.entries)
    ∧ (∀ n u va, (∀ k, s.signedReport p n u false = .error k → exec (.report p n u va) s = .next (s.secResult k))
      ∧ ∀ b ok t, s.signedReport p n u false = .ok b → s.svcWrite p va.toNat b = (ok, t) →
        b.length = 512 ∧ exec (.report p n u va) s = .next (t.secResult (if ok then 0 else 1)))
    ∧ (∀ (f k m : BitVec 16), 1 ≤ k.toNat → f.toNat + k.toNat ≤ 1128 →
      (∀ q, f.toNat ≤ q → q < f.toNat + k.toNat → ∃ r, s.plot q = .granted p r) →
      (∃ t : State, exec (.share (.services p f k m)) s = .next t ∧ t.chan.callResult = some 0
        ∧ ∀ q, t.plot q = if f.toNat ≤ q ∧ q < f.toNat + k.toNat then .granted p m else s.plot q)
      ∧ ∀ (n : Fin 2) (len : Fin 8192), s.mboxTakes n = true → 8 ≤ len.val → len.val ≤ 4096 → (s.port n).mboxNat 0 1 = p.val → x.lock = none →
        (s.port n).mboxNat 2 2 = f.toNat → (s.port n).mboxNat 4 2 = k.toNat → (s.port n).mboxNat 6 2 = m.toNat →
        ∃ t : State, exec (.share (.mailbox n len)) s = .next t ∧ (t.port n).mboxBusy = false ∧ (t.port n).mboxResult = 0 ∧ (t.port n).mboxLen = 0
          ∧ ∀ q, t.plot q = if f.toNat ≤ q ∧ q < f.toNat + k.toNat then .granted p m else s.plot q)
    ∧ (∀ va (k : Byte), 16 < k.toNat → exec (.linkPolicy p va k) s = .next (s.secResult 1))
    ∧ (∀ va (k : Byte) u, k.toNat ≤ 16 → s.svcRead p va.toNat (64 * k.toNat) = (none, u) → exec (.linkPolicy p va k) s = .next (u.secResult 1))
    ∧ (∀ va (k : Byte) b u, k.toNat ≤ 16 → s.svcRead p va.toNat (64 * k.toNat) = (some b, u) →
      ∃ t : State, exec (.linkPolicy p va k) s = .next t ∧ t.chan.callResult = some 0 ∧ (t.partition p).policy.length = k.toNat
        ∧ ∀ i, i < k.toNat → (t.partition p).policy[i]? = some (BitVec.ofNat 256 (leNat ((b.drop (64 * i)).take 32)), BitVec.ofNat 256 (leNat ((b.drop (64 * i + 32)).take 32))))
    ∧ (∃ t : State, exec (.refillTableRegister (.services p 0)) s = .next t ∧ Tbl.get 0 t.mem.refillBase p.val = 0 ∧ (∀ r ∈ t.mem.refillPages, r.owner ≠ p)
      ∧ t.chan.callResult = some 0)
    ∧ (∀ n v, s.barServes n 0 = true → toPart (s.port n).refillSelect.toNat = p →
      (x.lock.isSome = true → ∃ t : State, exec (.refillTableRegister (.host n v)) s = .next t ∧ Tbl.get false t.mem.refillRefused p.val = true ∧ t.mem.refillPages = s.mem.refillPages)
      ∧ (x.lock = none → v = 1 → ∃ t : State, exec (.refillTableRegister (.host n v)) s = .next t ∧ Tbl.get false t.mem.refillRefused p.val = false
        ∧ Tbl.get 0 t.mem.refillBase p.val = 0 ∧ ∀ r ∈ t.mem.refillPages, r.owner ≠ p))
    ∧ (∀ (i : Fin 256) n va, x.cores[i.val]? = some n → (s.core n).st = 0 → (s.core n).running = false →
      ∃ t : State, exec (.hartStart p i va) s = .next t ∧ (t.core n).running = true ∧ (t.core n).pc = va ∧ ∀ m, m ≠ n → t.core m = s.core m)

/-- Reports of a partition (R303-R305, R433). -/
def Obligations.PartitionReportsArePosted : Prop :=
  ∀ (s : State) (p : Fin 16), s.up = true →
    (∀ m : StallSample, (s.partition p).mode ≠ .absent →
      ∃ (w : State) (b : List Byte), exec (.intervalReport p m) s = .next (w.postEvent p 0x0004 b) ∧ b.length = 44
        ∧ b = leBytes 4 m.intervalUs.toNat ++ leBytes 4 (attribution m (Tbl.get 0 s.mem.shadowLost p.val)).2 ++ leBytes 8 m.stall.toNat
          ++ leBytes 8 (attribution m (Tbl.get 0 s.mem.shadowLost p.val)).1 ++ leBytes 4 (Tbl.get 0 s.mem.keepDemoted p.val - (s.partition p).keepBase)
          ++ leBytes 4 (Tbl.get 0 s.mem.stashDeclined p.val - (s.partition p).stashBase) ++ leBytes 4 (s.partition p).kills
          ++ leBytes 4 ((s.intervalEnergy p).2.pausedEntries p) ++ leBytes 4 (min (figure s.energy.parts p / 10 ^ 12) (2 ^ 32 - 1))
        ∧ figure w.energy.parts p = figure s.energy.parts p % 10 ^ 12 ∧ (∀ q, q ≠ p → figure w.energy.parts q = figure s.energy.parts q)
        ∧ w.partition p = { s.partition p with keepBase := Tbl.get 0 s.mem.keepDemoted p.val, stashBase := Tbl.get 0 s.mem.stashDeclined p.val, kills := 0 }
        ∧ Tbl.get 0 w.mem.shadowLost p.val = 0)
    ∧ ((s.partition p).mode = .live → (s.partition p).powerDue = true →
      ∃ (w : State) (b : List Byte), exec (.powerState p) s = .next (w.postEvent p 0x0020 b) ∧ b.length = 5 ∧ b.head? = some (BitVec.ofNat 8 s.pow.duty)
        ∧ w.partition p = { s.partition p with powerDue := false } ∧ w.pow = s.pow)

/-- Mailbox commands (R380-R384). -/
def Obligations.MailboxCommandsComplete : Prop :=
  ∀ (s : State) (n : Fin 2) (len : Fin 8192),
    (s.mboxTakes n = true → len.val ≤ 4096 →
      (4 ≤ len.val → ∃ t : State, exec (.getEventLog n len) s = .next t ∧ (t.port n).mboxBusy = false ∧ (t.port n).mboxResult = 0
        ∧ t.port n = (s.mboxDone n 0 (leBytes 4 (logAll 0 s.sec.log).length ++ ((logAll 0 s.sec.log).drop ((s.port n).mboxNat 0 4)).take 4088)).port n
        ∧ (t.port n).mboxBytes 0 4 = leBytes 4 (logAll 0 s.sec.log).length ∧ t.sec = s.sec)
      ∧ (104 ≤ len.val → (s.port n).mboxNat 0 1 < 16 → ∀ b, s.signedReport (toPart ((s.port n).mboxNat 0 1)) (BitVec.ofNat 256 ((s.port n).mboxNat 8 32))
          (BitVec.ofNat 512 ((s.port n).mboxNat 40 64)) true = .ok b →
        ∃ t : State, exec (.getReport n len) s = .next t ∧ (t.port n).mboxResult = 0 ∧ (t.port n).mboxLen = 512 ∧ (t.port n).mboxBytes 0 512 = b)
      ∧ (2 ≤ len.val → ∃ t : State, exec (.getCerts n len) s = .next t ∧ (t.port n).mboxBusy = false ∧ (t.port n).mboxResult = 0
        ∧ (t.port n).mboxLen = min 4096 (s.certChain.length - (s.port n).mboxNat 0 2))
      ∧ (5 ≤ len.val → (s.port n).mboxNat 0 1 < 16 → (s.port n).mboxNat 2 2 < 4096 → (s.port n).mboxNat 4 1 < 16 → s.sec.debugOpen = false →
        ∀ p m q, p = toPart ((s.port n).mboxNat 0 1) → m = BitVec.ofNat 12 ((s.port n).mboxNat 2 2) → q = toPart ((s.port n).mboxNat 4 1) →
          (s.partition p).mode = .live → s.hasStream p m = false → (lowestFree s.link.tx).isSome = true → (lowestFree s.link.rx).isSome = true → s.sec.opens = [] →
        (s.sec.peerOpens = [] → ∃ t : State, exec (.streamOpen n len) s = .next t ∧ (t.port n).mboxBusy = true ∧ t.sec.opens = [⟨n, p, m, q⟩] ∧ t.out = .peer m true p q :: s.out)
        ∧ ∀ o : PeerOpen, s.sec.peerOpens = [o] → s.openAgrees ⟨n, p, m, q⟩ o = true →
          ∃ (t : State) (i j : Nat), exec (.streamOpen n len) s = .next t ∧ (t.port n).mboxBusy = false ∧ (t.port n).mboxResult = 0
            ∧ lowestFree s.link.tx = some i ∧ lowestFree s.link.rx = some j ∧ (t.port n).mboxBytes 0 4 = leBytes 2 i ++ leBytes 2 j
            ∧ (∃ k, Tbl.get none t.link.tx i = some ⟨m, p, q, BitVec.ofNat 10 o.rx.val, 0, k⟩) ∧ (∃ k, Tbl.get none t.link.rx j = some ⟨m, p, q, 0, 0, 0, 0, k⟩))
      ∧ (2 ≤ len.val → ∀ x, Tbl.get none s.link.tx ((s.port n).mboxNat 0 2) = some x →
        ∃ t : State, exec (.streamClose n len) s = .next t ∧ (t.port n).mboxBusy = false ∧ (t.port n).mboxResult = 0
          ∧ t.link = (s.closePair x.peer x.part x.peerPart).link ∧ ∀ y ∈ t.link.tx, ∀ z, y.2 = some z → ¬ (z.peer = x.peer ∧ z.part = x.part ∧ z.peerPart = x.peerPart)))
    ∧ (∀ o, s.sec.opens.find? (fun o => decide (o.port = n)) = some o →
      ∃ t : State, exec (.streamOpenTimeout n) s = .next t ∧ (t.port n).mboxBusy = false ∧ (t.port n).mboxResult = 4 ∧ o ∉ t.sec.opens)
    ∧ (∀ m (rx : Fin 1024) x, s.up = true → s.sec.debugOpen = false → Tbl.get none s.link.rx rx.val = some x → x.peer = m →
      exec (.peerStreamMessage (.closes m rx)) s = .next (s.closePair m x.part x.peerPart))

/-- Debug, recovery and status (R364, R367, R385, R386, R441, R448, R461). -/
def Obligations.DebugRecoveryAndStatusComplete : Prop :=
  ∀ (s : State),
    (∀ (n : Fin 2) ok h k, s.barServes n 0 = true → s.sec.debugBring = false →
      (ok = true → h = s.sec.fuses.rootHash → k = s.sec.nonce → s.sec.fuses.debug < 32 →
        ∃ t : State, exec (.unlock n ok h k) s = .next t ∧ t.sec.fuses = { s.sec.fuses with debug := s.sec.fuses.debug + 1 } ∧ t.sec.aliasKey = none ∧ t.sec.sessions = []
          ∧ t.pow.bootEpoch = s.pow.bootEpoch + 1 ∧ t.pow.stage = .booted ∧ t.chan = ChanState.reset ∧ t.link.tx = [] ∧ t.link.rx = [] ∧ t.mem.bytes = [] ∧ t.mem.keys = [])
      ∧ (¬ (ok = true ∧ h = s.sec.fuses.rootHash ∧ k = s.sec.nonce ∧ s.sec.fuses.debug < 32) →
        ∃ t : State, exec (.unlock n ok h k) s = .next t ∧ t.sec.debugRefused = true ∧ t.sec.nonce = (s.freeVal 256).1 ∧ t.sec.fuses = s.sec.fuses ∧ t.chan = s.chan))
    ∧ (s.powered = true →
      (s.sec.debugOpen = false → ∀ a, exec (.debugTransportAccess a) s = .next (s.emit (.debug 0)))
      ∧ (s.sec.debugOpen = true →
        (∀ g lane reg x, s.groupOf g = some x →
          exec (.debugTransportAccess ⟨.threadReg g lane reg, none⟩) s = .next (s.emit (.debug (x.reg lane.val reg.val)))
          ∧ ∀ v, ∃ (t : State) (y : Group), exec (.debugTransportAccess ⟨.threadReg g lane reg, some v⟩) s = .next t ∧ t.groupOf g = some y ∧ y.reg lane.val reg.val = v
            ∧ y.preds = x.preds ∧ y.paths = x.paths)
        ∧ (∀ c v, ∃ t : State, exec (.debugTransportAccess ⟨.coreRun c, some v⟩) s = .next t ∧ (t.core c.val).running = v.getLsbD 0)
        ∧ (∀ l, exec (.debugTransportAccess ⟨.linkState l, none⟩) s = .next (s.emit (.debug (BitVec.ofNat 32 (s.d2d l.val).mode.code))))
        ∧ exec (.debugTransportAccess ⟨.protectedUnit, none⟩) s = .next (s.emit (.debug 0))))
    ∧ (∀ img ty b, s.pow.report = .bootFailed ty → s.sec.boot = some b → s.pow.stage = .pllLocked →
      exec (.recoveryImage img) s = .next (s.bootRun (if ty = 1 then { b with spA := img } else { b with resA := img })))
    ∧ (∀ bus, s.pow.stage.managed = true → ∃ (t : State) (b : List Byte), exec (.getStatus bus 1) s = .next t ∧ t.out = .mctp bus b :: s.out ∧ b.length = 16
      ∧ b = s.statusBytes ∧ t.err.alertPin = false ∧ t.err.alertUnread = false ∧ t.pow = s.pow ∧ t.sec = s.sec)

/-- Requests of the dies (R137, R175, R186-R189, R192-R194, R199). -/
def Obligations.DieRequestsComplete : Prop :=
  ∀ (s : State) (d : Fin 2) (line : LineNo) (p : Fin 16) (who : CoreAsk),
    let n := line.toNat
    let o := otherDie d
    let b := coreBit who.core
    let asked (t : State) (k : TxnKind) (unique : Bool) : Prop := Tbl.get none t.mem.txns n = some ⟨k, false, false, true⟩ ∧ t.mem.reqs.length = s.mem.reqs.length + 1
      ∧ ∃ r ∈ t.mem.reqs, r.line = n ∧ r.part = p ∧ r.cls = .core ∧ r.target = .die d unique who
    let snooped (t : State) (k : TxnKind) (q : Snoop) : Prop := Tbl.get none t.mem.snoops (dieKey n o) = some q
      ∧ Tbl.get none t.mem.txns n = some ⟨k, decide (d = 1), decide (d = 0), false⟩
    (s.coreAsks d n p who = true →
      (s.reach p n false = false → exec (.rds d line ⟨p, who⟩ .none) s = .next (s.emit (.coreFault (coreNum d who.core) who.fetch (2 * n + who.granule.val))))
      ∧ (s.reach p n true = false → exec (.rdu d line ⟨p, who⟩ .none) s = .next (s.emit (.coreFault (coreNum d who.core) who.fetch (2 * n + who.granule.val)))
        ∧ ∀ w m, exec (.upg d line ⟨p, who⟩ ⟨w, m⟩) s = .next (s.emit (.coreFault (coreNum d who.core) who.fetch (2 * n + who.granule.val))))
      ∧ (s.reach p n false = true →
        (∀ c, s.dieLine n d = some c → c.poison.getLsbD who.granule.val = false →
          exec (.rds d line ⟨p, who⟩ .none) s = .next (s.setDieLine n d (some { c with l2 := c.l2 ||| b, l1 := c.l1 ||| b })))
        ∧ (s.dieLine n d = none → s.dieMay d n = true →
          (s.llcFind n = none → ∃ t : State, exec (.rds d line ⟨p, who⟩ .none) s = .next t ∧ asked t (.rds d p who) false)
          ∧ (∀ l, s.llcFind n = some l → (l.recOf o = .i ∨ l.recOf o = .s) →
            ∃ t : State, exec (.rds d line ⟨p, who⟩ .none) s = .next t ∧ t.dieLine n d = some ⟨if l.recOf o = .i then .e else .s, l.data, l.poison, b, b⟩)
          ∧ (∀ l, s.llcFind n = some l → (l.recOf o = .o ∨ l.recOf o = .x) →
            ∃ t : State, exec (.rds d line ⟨p, who⟩ .none) s = .next t ∧ snooped t (.rds d p who) .snpS)))
      ∧ (s.reach p n true = true →
        (∀ c, s.dieLine n d = some c → (c.st = .m ∨ c.st = .e) →
          (c.poison.getLsbD who.granule.val = false → exec (.rdu d line ⟨p, who⟩ .none) s = .next ((s.setDieLine n d (some { c with l2 := 0, l1 := 0 })).setDieLine n d (some { c with l2 := b, l1 := b })))
          ∧ ∀ w m, exec (.upg d line ⟨p, who⟩ ⟨w, m⟩) s = .next (s.setDieLine n d (some ⟨.m, mergeLine c.data w m, poisonAfter c.poison m 0, b, b⟩)))
        ∧ (s.dieLine n d = none → s.dieMay d n = true →
          (s.llcFind n = none → ∃ t : State, exec (.rdu d line ⟨p, who⟩ .none) s = .next t ∧ asked t (.rdu d p who) true)
          ∧ (∀ l, s.llcFind n = some l → l.recOf o = .i →
            ∃ (t : State) (m : LlcLine), exec (.rdu d line ⟨p, who⟩ .none) s = .next t ∧ t.dieLine n d = some ⟨.e, l.data, l.poison, b, b⟩ ∧ t.llcFind n = some m ∧ m.recOf d = .x)
          ∧ (∀ l, s.llcFind n = some l → l.recOf o ≠ .i →
            ∃ t : State, exec (.rdu d line ⟨p, who⟩ .none) s = .next t ∧ snooped t (.rdu d p who) .snpI))
        ∧ (∀ (w : Line) (m : BitVec 128) (c : DieLine), s.dieLine n d = some c → (c.st = .s ∨ c.st = .o) → s.dieMay d n = true →
          (s.llcFind n = none → ∃ t : State, exec (.upg d line ⟨p, who⟩ ⟨w, m⟩) s = .next t ∧ asked t (.rdu d p who) true)
          ∧ ∀ l, s.llcFind n = some l →
            (l.recOf o = .i → l.recOf d ≠ .i → ∃ (t : State) (x : LlcLine), exec (.upg d line ⟨p, who⟩ ⟨w, m⟩) s = .next t
              ∧ t.dieLine n d = some ⟨.m, mergeLine c.data w m, poisonAfter c.poison m 0, b, b⟩ ∧ t.llcFind n = some x ∧ x.recOf d = .x ∧ x.hd = .stale)
            ∧ (l.recOf o = .i → l.recOf d = .i → ∃ t : State, exec (.upg d line ⟨p, who⟩ ⟨w, m⟩) s = .next t ∧ t.dieLine n d = some ⟨.e, l.data, l.poison, b, b⟩)
            ∧ (l.recOf o ≠ .i → ∃ t : State, exec (.upg d line ⟨p, who⟩ ⟨w, m⟩) s = .next t ∧ snooped t (.upg d p who w m) .snpI))))
    ∧ (∀ c, s.dieLine n d = some c → s.evEntry n d = none → s.evFree d = true →
      (c.st = .s ∨ c.st = .e → ∃ t : State, exec (.evc d line .send) s = .next t ∧ t.dieLine n d = none ∧ t.evEntry n d = some ⟨c, false, false⟩)
      ∧ (c.st = .m ∨ c.st = .o → ∃ t : State, exec (.evd d line .send none) s = .next t ∧ t.dieLine n d = none ∧ t.evEntry n d = some ⟨c, false, false⟩)
      ∧ (∀ w, c.st = .m ∨ c.st = .e → ∃ t : State, exec (.evd d line .send (some w)) s = .next t ∧ t.dieLine n d = none
        ∧ t.evEntry n d = some ⟨{ c with st := .m, data := w }, false, false⟩))
    ∧ (∀ e l, s.evEntry n d = some e → e.atHome = false → s.txnBusy n = false → s.llcFind n = some l → l.recOf d ≠ .i →
      (e.kept.st = .s ∨ e.kept.st = .e → ∃ t : State, exec (.evc d line .home) s = .next t ∧ t.llcFind n = some (l.setRec d .i) ∧ Tbl.get false t.mem.evAcks (dieKey n d) = true)
      ∧ (e.kept.st = .m ∨ e.kept.st = .o → ∃ t : State, exec (.evd d line .home none) s = .next t
        ∧ t.llcFind n = some { l.setRec d .i with data := e.kept.data, poison := e.kept.poison, hd := .dirty } ∧ Tbl.get false t.mem.evAcks (dieKey n d) = true))
    ∧ (Tbl.get false s.mem.evAcks (dieKey n d) = true → ∃ t : State, exec (.evAck d line) s = .next t ∧ t.evEntry n d = none ∧ t.mem.llc = s.mem.llc ∧ t.mem.die = s.mem.die)
    ∧ (∀ q c, Tbl.get none s.mem.pushes (2 * n + d.val) = some (q, c) → s.txnBusy n = false →
      (∀ l, s.llcFind n = some l → l.rec0 = .i → l.rec1 = .i → s.dieLine n d = none → s.evEntry n d = none →
        ∃ t : State, exec (.stashPush d line true) s = .next t ∧ t.dieLine n d = some ⟨.e, l.data, l.poison, BitVec.ofNat 80 (2 ^ (c % 80)), 0⟩ ∧ t.mem.stashDeclined = s.mem.stashDeclined)
      ∧ ∃ t : State, exec (.stashPush d line false) s = .next t ∧ Tbl.get none t.mem.pushes (2 * n + d.val) = none
        ∧ Tbl.get 0 t.mem.stashDeclined q.val = min (Tbl.get 0 s.mem.stashDeclined q.val + 1) (2 ^ 64 - 1) ∧ t.mem.die = s.mem.die)

/-- Snoops and responses (R187, R191, R194). -/
def Obligations.SnoopsAndResponsesComplete : Prop :=
  ∀ (s : State) (d : Fin 2) (line : LineNo),
    let n := line.toNat
    let k := dieKey n d
    (∀ (w : Option Line) (x : Snoop × Instr), x ∈ [(Snoop.snpS, Instr.snpS d line w), (.snpCur, .snpCur d line w), (.snpI, .snpI d line w), (.snpInd, .snpInd d line w)] →
      Tbl.get none s.mem.snoops k = some x.1 →
      (s.evEntry n d = none →
        let y : Rsp × Option DieLine := match s.dieLine n d with
          | none => (.i, none)
          | some c0 =>
            let c : DieLine := match c0.st, w with
              | .e, some x => { c0 with st := .m, data := x }
              | .m, some x => { c0 with st := .m, data := x }
              | _, _ => c0
            match x.1, c.st with
            | .snpS, .m => (.fwd c.data c.poison, some { c with st := .o })
            | .snpS, .o => (.fwd c.data c.poison, some c0)
            | .snpS, .e => (.s, some { c with st := .s })
            | .snpS, .s => (.s, some c0)
            | .snpCur, .m => (.sData c.data c.poison, some { c with st := .s })
            | .snpCur, .o => (.sData c.data c.poison, some { c with st := .s })
            | .snpCur, .e => (.e, some c0)
            | .snpCur, .s => (.s, some c0)
            | .snpI, .m => (.iData c.data c.poison, none)
            | .snpI, .o => (.iData c.data c.poison, none)
            | .snpI, _ => (.i, none)
            | .snpInd, _ => (.i, none)
        ∃ t : State, exec x.2 s = .next t ∧ Tbl.get none t.mem.rsps k = some y.1 ∧ t.dieLine n d = y.2 ∧ Tbl.get none t.mem.snoops k = none ∧ t.mem.llc = s.mem.llc)
      ∧ (∀ e, s.evEntry n d = some e → e.snooped = false →
        ∃ t : State, exec x.2 s = .next t ∧ t.evEntry n d = some { e with snooped := true } ∧ t.mem.llc = s.mem.llc
          ∧ Tbl.get none t.mem.rsps k = some (if e.kept.st = .m ∨ e.kept.st = .o then .iData e.kept.data e.kept.poison else .i)))
    ∧ (∀ l r, s.llcFind n = some l → Tbl.get none s.mem.rsps k = some r →
      ∃ u : State, Tbl.get none u.mem.rsps k = none ∧ (match r with
        | .fwd x p => exec (.rspFwd d line) s = .next (u.txnAnswered n d).goOn ∧ u.llcFind n = some { (l.setRec d .o).setRec (otherDie d) .s with hd := .stale }
          ∧ u.dieLine n (otherDie d) = some ⟨.s, x, p, 0, 0⟩
        | .sData x p => exec (.rspSData d line) s = .next (u.txnAnswered n d).goOn ∧ u.llcFind n = some { l.setRec d .s with hd := .dirty, data := x, poison := p }
        | .iData x p => exec (.rspIData d line) s = .next (u.txnAnswered n d).goOn ∧ u.llcFind n = some { l.setRec d .i with hd := .dirty, data := x, poison := p }
        | .s => exec (.rspS d line) s = .next (u.txnAnswered n d).goOn ∧ u.llcFind n = some (l.setRec d .s)
        | .e => exec (.rspE d line) s = .next (u.txnAnswered n d).goOn ∧ u.llcFind n = some l
        | .i => exec (.rspI d line) s = .next (u.txnAnswered n d).goOn ∧ u.llcFind n = some (l.setRec d .i)))

/-- R195: stale evictions, and evictions behind a transaction. -/
def Obligations.StaleEvictionsAreAcknowledged : Prop :=
  ∀ (s : State) (d : Fin 2) (line : LineNo) (e : EvEntry) (w : Option Line) (x : Instr), s.evEntry line.toNat d = some e → e.atHome = false →
    x = (if e.kept.st = .s ∨ e.kept.st = .e then .evc d line .home else .evd d line .home w) →
    (s.txnBusy line.toNat = true → exec x s = .next s)
    ∧ (s.txnBusy line.toNat = false → (∀ l, s.llcFind line.toNat = some l → l.recOf d = .i) →
      ∃ t : State, exec x s = .next t ∧ t = { s with mem := { s.mem with evict := t.mem.evict, evAcks := t.mem.evAcks } }
        ∧ Tbl.get false t.mem.evAcks (dieKey line.toNat d) = true ∧ t.evEntry line.toNat d = some { e with atHome := true }
        ∧ (∀ k, k ≠ dieKey line.toNat d → Tbl.get none t.mem.evict k = Tbl.get none s.mem.evict k ∧ Tbl.get false t.mem.evAcks k = Tbl.get false s.mem.evAcks k))

/-- Requests at their home (R137, R166, R175, R185, R190, R196, R198, R375). -/
def Obligations.HomeRequestsComplete : Prop :=
  (∀ (s : State) (r : HomeReq), s.up = true → s.homeReq r.id = some r → s.behind r = false → r.place = .pool → r.stage = .sent → s.txnBusy r.line = false →
    (s.reach r.part r.line r.op.writes = false →
      (r.op = .rdOnce → exec (.rdOnce r.id .none) s = .next (s.refuseReq r)) ∧ (r.op = .discard → exec (.discard r.id) s = .next (s.refuseReq r)))
    ∧ (s.reach r.part r.line r.op.writes = true →
      (r.op = .rdOnce →
        (∀ l, s.llcFind r.line = some l → (l.rec0 = .i ∨ l.rec0 = .s) → (l.rec1 = .i ∨ l.rec1 = .s) →
          ∃ u : State, exec (.rdOnce r.id .none) s = .next (u.deliverLine r l.data l.poison) ∧ u.homeReq r.id = none ∧ u.mem.bytes = s.mem.bytes)
        ∧ (∀ l, s.llcFind r.line = some l → l.rec0 = .x ∨ l.rec0 = .o →
          ∃ t : State, exec (.rdOnce r.id .none) s = .next t ∧ Tbl.get none t.mem.snoops (dieKey r.line 0) = some .snpCur
            ∧ ∃ b, Tbl.get none t.mem.txns r.line = some ⟨.req r.id, true, b, false⟩)
        ∧ (s.llcFind r.line = none →
          ∃ t : State, exec (.rdOnce r.id .none) s = .next t ∧ Tbl.get none t.mem.txns r.line = some ⟨.req r.id, false, false, true⟩ ∧ t.mem.reqs.length = s.mem.reqs.length + 1))
      ∧ (∀ l, s.llcFind r.line = some l → l.rec0 = .i → l.rec1 = .i →
        (∀ d m, r.op = .write d m →
          ∃ (t : State) (x : LlcLine), exec (if m = BitVec.allOnes 128 then .wrFull r.id else .wrPart r.id) s = .next t ∧ t.homeReq r.id = none ∧ t.llcFind r.line = some x
            ∧ x.data = mergeLine l.data d m ∧ x.poison = poisonAfter l.poison m 0 ∧ x.hd = .dirty ∧ t.mem.bytes = s.mem.bytes)
        ∧ (∀ op size lanes, r.op = .atomic op size lanes → l.poison &&& granulesOf (lanes.map (fun x => x.2.1)) = 0 →
          ∃ (t : State) (x : LlcLine), exec (.homeAtomic r.id) s = .next t ∧ t.homeReq r.id = none ∧ t.llcFind r.line = some x ∧ x.data = (atomicLine op size lanes l.data).1 ∧ x.hd = .dirty)
        ∧ (∀ op size lanes, r.op = .red op size lanes → l.poison &&& granulesOf (lanes.map (fun x => x.2.1)) = 0 →
          ∃ (t : State) (x : LlcLine), exec (.homeRed r.id) s = .next t ∧ t.homeReq r.id = none ∧ t.llcFind r.line = some x
            ∧ x.data = lanes.foldl (fun d x => redLine op size x.2.1 x.2.2 d) l.data ∧ x.hd = .dirty)
        ∧ (r.op = .discard → ∃ t : State, exec (.discard r.id) s = .next t ∧ t.homeReq r.id = none ∧ (∀ x ∈ t.mem.llc, x.sameWay l = false) ∧ t.mem.bytes = s.mem.bytes))
      ∧ (s.llcFind r.line = none →
        (∀ d, r.op = .write d (BitVec.allOnes 128) → r.hint = 3 → s.unitUp (s.unitOf r.line) = true → (∀ o ∈ s.mem.churn, o.line ≠ r.line) →
          ∃ t : State, exec (.wrFull r.id) s = .next t ∧ t.homeReq r.id = none ∧ t.memLine r.line = (d, 0))
        ∧ (∀ op size lanes, r.op = .red op size lanes →
          ∃ (t : State) (l : List ChurnOp), exec (.homeRed r.id) s = .next t ∧ t.homeReq r.id = none ∧ t.mem.churn = s.mem.churn ++ l ∧ l.map (fun x => (x.off, x.v)) = lanes.map (fun y => (y.2.1, y.2.2))
            ∧ ∀ x ∈ l, x.line = r.line ∧ x.unit = s.unitOf r.line ∧ x.part = r.part ∧ x.cmd = r.cmd ∧ x.what = .red op size ∧ x.refused = !s.unitUp (s.unitOf r.line)))))
  ∧ ∀ (s : State) (p : Fin 16) (pa : BitVec 41) (b : List Byte) (target : BitVec 16), s.up = true → b ≠ [] → pa.toNat % 128 + b.length ≤ 128 →
      s.txnBusy (pa.toNat / 128) = false → s.reach p (pa.toNat / 128) true = true →
      ∀ u, u = s.engWrite p (pa.toNat / 128) (placeBytes (pa.toNat % 128) b) (byteMask (pa.toNat % 128) b.length) 0
        (if field target 14 2 = 1 ∨ field target 14 2 = 2 then field target 8 2 else 0) →
      (field target 14 2 ≠ 2 → exec (.stash p pa b target) s = .next u)
      ∧ (field target 14 2 = 2 →
        (u.stashCore p target = none ∨ b.length ≠ 128 ∨ u.llcFind (pa.toNat / 128) = none → exec (.stash p pa b target) s = .next (u.countDeclined p))
        ∧ ∀ c, u.stashCore p target = some c → b.length = 128 → (u.llcFind (pa.toNat / 128)).isSome = true →
          ∃ t : State, exec (.stash p pa b target) s = .next t ∧ Tbl.get none t.mem.pushes (2 * (pa.toNat / 128) + c / 80) = some (p, c) ∧ t.mem.llc = u.mem.llc)

/-- Controllers, sweeps and their registers (R144, R149, R151, R154, R156, R158, R160, R165, R167, R177, R183, R459). -/
def Obligations.ControllersComplete : Prop :=
  ∀ (s : State),
    (∀ (h : Fin 4) (p : Fin 16) (fill : Nat) (r : Regulator), Tbl.get none s.mem.regs (16 * h.val + p.val) = some r →
      ∃ (w : State) (q : Regulator), exec (.regulatorEpoch h p fill) s = .next (w.enterAll h.val) ∧ Tbl.get none w.mem.regs (16 * h.val + p.val) = some q ∧ w.chan = s.chan
        ∧ (48 ≤ fill → (s.regG h.val p : Int) < r.rate → q.rate = r.rate - (r.rate - s.regG h.val p).tdiv 4)
        ∧ (48 ≤ fill → r.rate ≤ (s.regG h.val p : Int) → q.rate = r.rate)
        ∧ (fill < 32 → q.rate = min (s.regC h.val p : Int) (r.rate + (s.regC h.val p : Int).tdiv 64))
        ∧ (32 ≤ fill → fill < 48 → q.rate = r.rate)
        ∧ q.tokens = min (r.tokens + q.rate) (2 * q.rate) ∧ q.used = 0)
    ∧ (∀ m percent, s.powered = true → ∃ t : State, exec (.urgencyLevelChange m percent) s = .next t
      ∧ t.urgencyOf m = (if percent < 50 then 0 else if percent < 75 then 1 else if percent < 90 then 2 else 3) ∧ ∀ k, k ≠ m → t.urgencyOf k = s.urgencyOf k)
    ∧ (∀ (u : Fin 384) e row r k, (s.enterAll (u.val / 96)).pickReq u.val row = some (r, k) → (s.enterAll (u.val / 96)).canServe r = true →
      ∀ v, v = (s.enterAll (u.val / 96)).takeReq u.val r k →
      (r.target = .churn ∨ r.target = .moved → exec (.channelRequestServed u e row) s = .next v)
      ∧ (r.target ≠ .churn → r.target ≠ .moved →
        (∀ d po w, v.readLine r.line e = ((d, po), w) → exec (.channelRequestServed u e row) s = .next (w.txnFilled r d po).goOn)
        ∧ (e = ⟨.clean, .clean⟩ → (∀ o ∈ v.mem.churn, o.line ≠ r.line) → exec (.channelRequestServed u e row) s = .next (v.txnFilled r (v.memLine r.line).1 (v.memLine r.line).2).goOn)))
    ∧ (∀ (u : Fin 384) (g : BitVec 26) q, s.powered = true → s.unitUp u.val = true → g.toNat / 64 < 786432 → s.devicePage u.val (g.toNat / 64) = some q →
      Tbl.get false s.mem.poison (64 * q + g.toNat % 64) = false →
      exec (.scrubRead u g .clean) s = .next s
      ∧ ∃ w : State, exec (.scrubRead u g .one) s = .next (w.countCorrection u.val (g.toNat / 64)) ∧ w.mem = s.mem
      ∧ ∃ x : State, exec (.scrubRead u g .two) s = .next (x.retirePage u.val (g.toNat / 64)) ∧ x.mem = s.mem)
    ∧ (∀ u : Fin 384, s.up = true → s.unitUp u.val = true → ∃ w : State, w.unitUp u.val = false ∧ w.mem.unitsLost.getLsbD u.val = true ∧ (∀ v, v ≠ u.val → w.unitUp v = s.unitUp v)
      ∧ exec (.channelOutOfService u) s = .next ((w.atlasUpdate 7 (w.partsWhere (fun x => x.sharesHub (u.val / 96)))).refactor))
    ∧ (∀ (u : Fin 384) o, s.mem.churn.find? (fun o => decide (o.unit = u.val) && !s.mem.reqs.any (fun r => decide (r.seq = o.seq))) = some o →
      let g := o.off / 64
      (o.refused = false → (s.memLine o.line).2.getLsbD g = false →
        ∃ t : State, exec (.churnOperation ⟨u, .clean⟩) s = .next t ∧ t.mem.churn = s.mem.churn.erase o
          ∧ t.mem.bytes = (s.writeMem o.line (o.apply (putField 0 (512 * g) 512 (bits (s.memLine o.line).1 (512 * g) 512 : BitVec 512).toNat)) (byteMask o.off o.what.bytes) 0).mem.bytes)
      ∧ (o.refused = true → ∀ e u', u' = { s with mem := { s.mem with churn := s.mem.churn.erase o } } →
        (∀ c, s.cmd o.cmd = some c → exec (.churnOperation ⟨u, e⟩) s = .next (((u'.setCmd c.unfinished).consumePoison c.unfinished (2 * o.line + g) (unitId 4 u.val)).settleErrors c.ch))
        ∧ (s.cmd o.cmd = none → exec (.churnOperation ⟨u, e⟩) s = .next (u'.poisonRead o.part (2 * o.line + g) (unitId 4 u.val)))))
    ∧ (∀ slice : Fin 96, s.powered = true → s.hubUp (slice.val / 24) = true →
      ∃ (t : State) (f : LlcLine → LlcLine), exec (.keepSweep slice) s = .next t ∧ t.mem.llc = s.mem.llc.map f
        ∧ Tbl.get 0 t.mem.sweep slice.val = (Tbl.get 0 s.mem.sweep slice.val + 1) % 32768
        ∧ ∀ l, (f l = if l.slice = slice.val ∧ l.set = Tbl.get 0 s.mem.sweep slice.val ∧ l.cls = .keep then
          (if (s.ways l.owner).keepLease ≤ l.idle then { l with cls := .normal, idle := 0 } else { l with idle := l.idle + 1 }) else l))
    ∧ (∀ (n : Fin 2) (v : Word) (p : Fin 16), s.barServes n 0 = true → p = toPart (s.port n).llcSelect.toNat →
      ((∀ q : Fin 16, q ≠ p → (s.ways q).mask &&& bits v 0 16 = 0) → (2 ≤ pop (bits v 0 16 : BitVec 16) ∨ (s.partition p).cores = []) → field v 16 4 ≤ 12 →
        ∃ t : State, exec (.llcPartWays n v) s = .next t ∧ (t.ways p).mask = bits v 0 16 ∧ (t.ways p).keepCap = field v 16 4 ∧ (t.ways p).keepLease = field v 20 2 ∧ ∀ q, q ≠ p → t.ways q = s.ways q)
      ∧ ((∃ q : Fin 16, q ≠ p ∧ (s.ways q).mask &&& bits v 0 16 ≠ 0) ∨ (pop (bits v 0 16 : BitVec 16) < 2 ∧ (s.partition p).cores ≠ []) →
        ∃ t : State, exec (.llcPartWays n v) s = .next t ∧ (t.ways p).mask = (s.ways p).mask ∧ (t.ways p).refused = true))
    ∧ (∀ (n : Fin 2) (v : Word), s.barServes n 0 = true →
      ∃ t : State, exec (.memBandMode n v) s = .next t ∧ ∀ b, b < 47 → t.mem.bandMode.getLsbD b = (if s.bandFree b then v.getLsbD b else s.mem.bandMode.getLsbD b)
        ∧ (s.bandFree b = false → v.getLsbD b ≠ s.mem.bandMode.getLsbD b → t.mem.bandRefused = true))

/-- R230: the outcome of T6. -/
def Obligations.PassMasksDecideTheLink : Prop :=
  (∀ (s : State) (l : Fin 22) (m0 m1 : BitVec 80), (s.d2d l.val).mode = .compare m0 m1 →
    let d := (linkEnds l.val).1
    ∃ u : State, exec (.passMaskCompare l) s = .next (if (s.dieState d).mode = .selfTest ∧ (u.dieState d).mode ≠ .selfTest then
        u.postRecovery (s.dieParts d) (unitId 3 d) (if d < 8 then 2 else 3) (some 1) else u)
      ∧ (m0 = m1 → m0 = allGroups l.val → (u.d2d l.val).mode = .up ∧ (u.d2d l.val).retrained = (s.d2d l.val).retrained ∧ (u.d2d l.val).barred = (s.d2d l.val).barred
        ∧ ∀ dir g, u.laneGroup l.val dir g = LaneGroup.reset)
      ∧ (m0 = m1 → m0 ≠ allGroups l.val → u = s.linkDown l.val 0x0042 0)
      ∧ (m0 ≠ m1 → (s.d2d l.val).retrained = false → u.d2d l.val = { s.d2d l.val with mode := .training 0 (allGroups l.val) (allGroups l.val), retrained := true })
      ∧ (m0 ≠ m1 → (s.d2d l.val).retrained = true → u = s.linkDown l.val 0x0043 0))
  ∧ (∀ (s : State) (d : Fin 10), s.up = true →
    ((s.dieState (dieOf d)).mode = .lost ∨ ((s.dieState (dieOf d)).mode = .selfTest ∧ ∃ l ∈ linksOf (dieOf d), (s.d2d l).mode ≠ .up)) →
    ∃ t : State, exec (.partialReset (.die d)) s = .next t ∧ (t.dieState (dieOf d)).mode = .selfTest
      ∧ (∀ l ∈ linksOf (dieOf d), (s.d2d l).barred = false → t.d2d l = { s.d2d l with mode := .training 0 (allGroups l) (allGroups l), retrained := false })
      ∧ ∀ l, (l ∉ linksOf (dieOf d) ∨ (s.d2d l).barred = true) → t.d2d l = s.d2d l)
  ∧ ∀ (s : State) (l : Fin 22) k m0 m1, s.up = true → (s.d2d l.val).mode = .training k m0 m1 → (s.d2d l.val).barred = false →
    (∀ d, d = (linkEnds l.val).1 ∨ d = (linkEnds l.val).2 → (s.dieState d).mode = .present ∨ (s.dieState d).mode = .selfTest) →
    exec (.partialReset (.link l)) s = .next (s.setD2d l.val { s.d2d l.val with mode := .training 0 (allGroups l.val) (allGroups l.val), retrained := false })

/-- Internal links and losses (R227-R229, R231, R407, R408, R410).
That a second loss fences a die whatever the time is the model's choice (log entry 21). -/
def Obligations.DieLinkEventsComplete : Prop :=
  ∀ (s : State) (l : Fin 22),
    (∀ (dir : Fin 2) (g : Fin 80) (f err : Flit), (s.d2d l.val).mode = .up → g.val < linkGroups l.val → flitOk f = true → s.link.transit = [] →
      let x := s.laneGroup l.val dir g
      let r := Flit.flip f err
      ((f.seq = x.txSeq ∧ x.held.length < 128) ∨ (f.seq ≠ x.txSeq ∧ f ∈ x.held)) →
      ∃ t : State, exec (.flitReceive l dir g ⟨f, err⟩) s = .next t ∧ t.chan = s.chan ∧ t.mem = s.mem
        ∧ (t.laneGroup l.val dir g).held = (if f.seq = x.txSeq then x.held ++ [f] else x.held)
        ∧ (t.laneGroup l.val dir g).txSeq = (if f.seq = x.txSeq then x.txSeq + 1 else x.txSeq)
        ∧ (flitOk r = true → r.seq = x.rxSeq → (x.discarding = false ∨ f.seq ≠ x.txSeq) →
          (t.laneGroup l.val dir g).rxSeq = x.rxSeq + 1 ∧ (t.laneGroup l.val dir g).rxAck = r.seq ∧ (t.laneGroup l.val dir g).discarding = false ∧ (t.laneGroup l.val dir g).failSame = 0
          ∧ ((s.linkIn l.val dir).early = [] → (s.linkIn l.val dir).next = x.tookCount * linkGroups l.val + g.val → r.cls.toNat ≤ 4 →
            t.out = .message l dir r.cls.toNat r.payload :: s.out))
        ∧ (flitOk r = true → (r.seq ≠ x.rxSeq ∨ (x.discarding = true ∧ f.seq = x.txSeq)) → (t.laneGroup l.val dir g).rxSeq = x.rxSeq ∧ (t.laneGroup l.val dir g).rxAck = x.rxAck)
        ∧ (flitOk r = false → (t.laneGroup l.val dir g).discarding = true ∧ (t.laneGroup l.val dir g).rxSeq = x.rxSeq ∧ (t.laneGroup l.val dir g).rxAck = x.rxAck
          ∧ (t.laneGroup l.val dir g).failSame = (if f.seq ≠ x.txSeq ∧ f.seq = x.rxSeq then x.failSame + 1 else x.failSame))
        ∧ (flitOk r = true → (t.laneGroup l.val (otherDie dir) g).held = ackHeld (s.laneGroup l.val (otherDie dir) g).held r.ack))
    ∧ (∀ (dir : Fin 2) (g : Fin 80), (s.d2d l.val).mode = .up → (s.laneGroup l.val dir g).held ≠ [] →
      ∃ w : State, exec (.d2dReplayTimeout l dir g) s = .next (w.report (mkReport 0x0040 (unitId 7 l.val) g.val))
        ∧ w.out = ((s.laneGroup l.val dir g).held.map (fun q => Out.flit l dir g q)).reverse ++ s.out
        ∧ w.laneGroup l.val dir g = { s.laneGroup l.val dir g with replays := (s.laneGroup l.val dir g).replays + 1 })
    ∧ (∀ (g : Fin 80) (c : WireCause), (s.d2d l.val).mode = .up →
      (c = .trackStopped ∨ c = .clockStopped ∨ ∃ dir, (c = .eightReplays ∧ 8 ≤ (s.laneGroup l.val dir g).failSame) ∨ (c = .crcRate ∧ (s.laneGroup l.val dir g).crcRate = true)) →
      exec (.d2dWireFailed l g c) s = .next (s.linkDown l.val 0x0042 g.val))
    ∧ (∀ k m0 m1 f0 f1, (s.d2d l.val).mode = .training k m0 m1 →
      ∃ t : State, exec (.linkTrainingStep l f0 f1) s = .next t ∧ t.d2d l.val = { s.d2d l.val with mode := if k = 3 then .compare (m0 &&& ~~~f0) (m1 &&& ~~~f1) else .training (k + 1) (m0 &&& ~~~f0) (m1 &&& ~~~f1) })
    ∧ (∀ (d : Fin 10) (a b : Bool), s.up = true → (s.dieState (dieOf d)).mode = .present → (s.dieState (dieOf d)).lostOnce = false →
      exec (.dieLost d a b) s = .next (s.fenceDie (dieOf d) .lost (if dieOf d < 8 then 0x0050 else 0x0051) ((if a then 1 else 0) + (if b then 2 else 0))))
    ∧ (∀ (d : Fin 10) (a b : Bool), s.up = true → (s.dieState (dieOf d)).mode = .present → (s.dieState (dieOf d)).lostOnce = true →
      exec (.dieLost d a b) s = .next ((s.fenceDie (dieOf d) .fenced (if dieOf d < 8 then 0x0050 else 0x0051) ((if a then 1 else 0) + (if b then 2 else 0))).postRecovery
        (s.dieParts (dieOf d)) (unitId 3 (dieOf d)) (if dieOf d < 8 then 2 else 3) (some 1)))
    ∧ (∀ (d : Fin 10) (healthy : BitVec 80), s.up = true → (s.dieState (dieOf d)).mode = .selfTest → (∀ k ∈ linksOf (dieOf d), (s.d2d k).mode = .up) →
      (∀ k ∈ unitDomains (dieOf d), s.domain k ≠ .off ∧ s.domain k ≠ .comingUp) →
      (healthy = 0 → ∃ w : State, (w.dieState (dieOf d)).mode = .fenced ∧ exec (.selfTestComplete d healthy) s =
        .next (w.postRecovery (s.dieParts (dieOf d)) (unitId 3 (dieOf d)) (if dieOf d < 8 then 2 else 3) (some 1)))
      ∧ (healthy ≠ 0 → ∃ w : State, (w.dieState (dieOf d)).mode = .present ∧ exec (.selfTestComplete d healthy) s =
          .next ((w.atlasUpdate 5 (w.dieParts (dieOf d))).postRecovery (w.dieParts (dieOf d)) (unitId 3 (dieOf d)) (if dieOf d < 8 then 2 else 3) (some 0))
        ∧ (12 ≤ dieOf d → ∀ i, i < 80 → healthy.getLsbD i = true →
          (∀ k, k < 80 → (s.core (80 * (dieOf d - 12) + k)).replaced ≠ some i) → s.domain (448 + (80 * (dieOf d - 12) + i) / 8) = .on → (w.core (80 * (dieOf d - 12) + i)).running = false ∧ (w.core (80 * (dieOf d - 12) + i)).pc = 0)))
    ∧ (∀ h : Fin 4, s.up = true → ∃ t : State, exec (.hubLost h) s = .next t ∧ t.hubUp h.val = false ∧ (s.hubUp h.val = false → t = s)
      ∧ (s.hubUp h.val = true → s.hubsUp < 4 → t.up = false))

/-- R237: disagreement of the module counts. -/
def Obligations.GuestCountsDisagree : Prop :=
  ∀ (s : State), s.up = true →
    (∀ (a b m : Fin 8) (r : Fin 32) (v p : BitVec 16) (offer : Nat), s.link.guest.st = 1 → s.domain 506 = .on → s.guestHub = true →
      offer = (if s.link.guest.retried then s.link.guest.offer else min s.link.guest.maxModules m.val) → 4 ≤ r.val → m ≠ 0 → a ≠ 0 → b ≠ 0 →
      a.val ≤ offer → b.val ≤ offer → a ≠ b →
      (s.link.guest.retried = false → ∃ t : State, exec (.guestTrainingComplete a b m r v p) s = .next t ∧ t.link.guest.st = 1 ∧ t.link.guest.retried = true
        ∧ t.link.guest.offer = min a.val b.val)
      ∧ (s.link.guest.retried = true → ∃ w : State, exec (.guestTrainingComplete a b m r v p) s = .next (w.atlasUpdate 8 0) ∧ w.link.guest.st = 3 ∧ w.link.guest.mismatch = true
        ∧ w.err = (s.report (mkReport 0x0044 (unitId 11 0) 0)).err))
    ∧ (s.link.guest.st = 3 → s.link.guest.reads = [] →
      (∀ c, c ≠ .host → exec (.guestRetrain c) s = .next s)
      ∧ ∀ (n : Fin 2) (v : Word), s.barServes n 0 = true → v.getLsbD 6 = false →
        ∃ w : State, w.link.guest.st = 3 ∧ (exec (.gstEnable n v) s = .next w ∨ exec (.gstEnable n v) s = .next (w.atlasUpdate 8 0)))

/-- The guest site (R236, R238-R241, R375). -/
def Obligations.GuestSiteCompletes : Prop :=
  ∀ (s : State), s.up = true →
    let x := s.link.guest
    (∀ (n : Fin 2) (v : Word), s.barServes n 0 = true → x.control.getLsbD 0 = false → x.st = 0 → x.reads = [] → s.guestHub = true → v.getLsbD 0 = true → v.getLsbD 6 = false →
      ∃ w : State, exec (.gstEnable n v) s = .next (w.atlasUpdate 8 0) ∧ w.link.guest.st = 1 ∧ w.link.guest.owner = toPart (field v 8 4) ∧ w.link.guest.control.getLsbD 0 = true
        ∧ w.link.guest.maxRate = field v 1 2 ∧ (Tbl.get none w.mem.guestRoots (toPart (field v 8 4)).val).isSome = true
        ∧ (s.domain 506 = .off → 506 ∈ w.pow.queue))
    ∧ (x.control.getLsbD 0 = true → s.guestHub = true → x.reads = [] →
      ∃ w : State, exec (.guestRetrain .host) s = .next (w.atlasUpdate 8 0) ∧ w.link.guest.st = 1 ∧ w.link.guest.modules = 0 ∧ w.link.guest.retried = false
        ∧ w.link.guest.owner = toPart (field x.control 8 4))
    ∧ (∀ (a m : Fin 8) (r : Fin 32) (v p : BitVec 16), x.st = 1 → s.domain 506 = .on → s.guestHub = true → x.retried = false → a.val ≤ x.maxModules → a.val ≤ m.val → a ≠ 0 → 4 ≤ r.val →
      ∃ w : State, exec (.guestTrainingComplete a a m r v p) s = .next (w.atlasUpdate 8 0) ∧ w.link.guest.st = 2 ∧ w.link.guest.modules = a.val
        ∧ w.link.guest.rate = min (guestRates x.maxRate) (if 16 ≤ r.val then 16 else if 12 ≤ r.val then 12 else if 8 ≤ r.val then 8 else 4)
        ∧ w.link.guest.vendor = v ∧ w.link.guest.product = p ∧ w.link.guest.credits = 256 ∧ w.link.guest.dataCredits = 256)
    ∧ (x.st = 2 → ∀ (m : BitVec 128) (data : Line),
      let va := field m 28 57
      let k := field m 16 7 + 1
      let write := decide (field m 0 4 = 1)
      let c : Instr := if write then .guestWrite m data else .guestRead m
      let entered (d : Line) (n : Nat) : State := (s.charge x.owner none .memory 128).setGuest { x with waiting := [(m, d)], credits := x.credits - 1, dataCredits := x.dataCredits - n }
      let left (t : State) (n : Nat) : State := t.setGuest { t.link.guest with waiting := [], credits := t.link.guest.credits + 1, dataCredits := t.link.guest.dataCredits + n }
      (guestMsgOk (if write then 1 else 0) m = true → x.waiting = [] → x.credits ≠ 0 → guestUnits m ≤ x.dataCredits →
        ∀ g u, (entered (if write then data else 0) (guestUnits m)).guestAt x.owner va write = (g, u) →
        (∀ pa, g = .pool pa →
          (u.txnBusy (pa / 128) = true → exec c s = .next u)
          ∧ (u.txnBusy (pa / 128) = false →
            (write = true → exec c s = .next (left (u.engWrite x.owner (pa / 128) (placeBytes (pa % 128) (lineBytes data 0 k)) (byteMask (pa % 128) k) 0 (field m 85 2)) (guestUnits m)))
            ∧ (write = false → ∀ d po v, u.engRead x.owner (pa / 128) (field m 85 2) = ((d, po), v) →
              (∀ i, pa % 128 / 64 ≤ i → i ≤ (pa % 128 + k - 1) / 64 → po.getLsbD i = false) →
              exec c s = .next (left (v.emit (.guest (guestAnswer m 0) (placeBytes 0 (lineBytes d (pa % 128) k)))) 0))))
        ∧ (∀ n, g = .status n →
          (write = false → exec c s = .next (left (u.guestFail m n) 0))
          ∧ (write = true → exec c s = .next (left (u.report { mkReport 0x0046 (unitId 11 0) n with parts := partBit x.owner, address := BitVec.ofNat 64 va }) (guestUnits m)))))
      ∧ (guestMsgOk 2 m = true → ∀ t n use, x.reads.find? (fun r => decide (r.1 = field m 4 12)) = some (t, n, use) →
        ∃ w : State, w.link.guest.reads = x.reads.filter (fun r => decide (r.1 ≠ t))
          ∧ (field m 24 4 = 0 → exec (.guestReadResp m data) s = .next (w.guestData n use .success (lineBytes data 0 n)))
          ∧ (field m 24 4 = 3 → exec (.guestReadResp m data) s = .next (w.guestData n use .poisonedTlp [])))
      ∧ (guestMsgOk 0 m = false → exec (.guestRead m) s = .next (s.report { mkReport 0x0046 (unitId 11 0) 0 with parts := 0, address := 0 }))
      ∧ (guestMsgOk 1 m = false → exec (.guestWrite m data) s = .next (s.report { mkReport 0x0046 (unitId 11 0) 0 with parts := 0, address := 0 })))

/-- Resets and enables of functions and ports (R315, R329-R333, R338, R447, R454). -/
def Obligations.FunctionResetsComplete : Prop :=
  ∀ (s : State) (port : Fin 2) (fn : Fin 128),
    let f := s.fn port fn
    (s.portServes port = true → s.fnExists port fn = true → fn ≠ 0 →
      (f.mode ≠ .resetting → ∃ u : State, (u.fn port fn).mode = .resetting ∧ (u.fn port fn).lastCause = 0 ∧ (u.fn port fn).recordsLost = 0
        ∧ (u.fn port fn).toDisabled = decide (f.mode = .disabled) ∧ u.chan.cmds = s.chan.cmds
        ∧ exec (.flr port fn) s = .next (((u.fnChans port fn).foldl (fun s ch => s.resetChannel ch 0) u).afterReset))
      ∧ (f.mode = .resetting → exec (.flr port fn) s = .next (s.setFn port fn { f with lastCause := max f.lastCause 0, toDisabled := f.toDisabled }).afterReset))
    ∧ (s.portServes port = true → exec (.flr port 0) s = .next (s.resetPort port 3) ∧ exec (.pfFlr port) s = .next (s.resetPort port 3))
    ∧ (∀ k : Fin 128, s.portServes port = true → k.val < (s.port port).numVfs →
      ∃ l : List (Fin 128), exec (.vfEnableCleared port k) s = .next ((s.setPort port { s.port port with numVfs := k.val }).resetFns port l 1 true)
        ∧ ∀ v, v ∈ l ↔ k.val < v.val ∧ v.val ≤ (s.port port).numVfs)
    ∧ (s.portServes port = true → s.fnExists port fn = true →
      (f.mode = .disabled → exec (.busMasterEnableCleared port fn false) s = .next (s.setFn port fn { f with busMaster := false })
        ∧ exec (.busMasterEnableCleared port fn true) s = .next (s.setFn port fn { f with d3hot := true }))
      ∧ (f.mode ≠ .disabled → exec (.busMasterEnableCleared port fn false) s = .next ((s.setFn port fn { f with busMaster := false }).resetFns port [fn] 2 true)))
    ∧ (∀ how : PortReset, ∃ w : State, (w.port port).linkUp = false ∧ (w.port port).ready = false ∧ (w.port port).width = 0
      ∧ (w.port port).released = ((s.port port).released && decide (how ≠ .perst))
      ∧ exec (.perstAsserted port how) s = .next (if s.up = true then (w.resetPort port 4).atlasUpdate 8 0 else w))
    ∧ ((s.port port).released = false →
      let w := s.setPort port { s.port port with released := true, drs := true }
      exec (.perstReleased port) s = .next (if s.up = true then w.atlasUpdate 8 0 else w))
    ∧ (s.up = true → f.mode = .resetting → s.resetDrained (s.fnChans port fn) = true →
      ∃ w : State, exec (.functionResetComplete port fn) s = .next w.finishActions ∧ (w.fn port fn).mode = (if f.toDisabled then .disabled else .enabled)
        ∧ (w.fn port fn).resets = (if f.resets = BitVec.allOnes 16 then f.resets else f.resets + 1)
        ∧ (∀ ch ∈ s.fnChans port fn, entState (w.entry ch) = 0) ∧ (∀ r ∈ w.host.reads, ¬ (r.port = port ∧ r.fn = fn)) ∧ (∀ r ∈ w.host.pages, ¬ (r.port = port ∧ r.fn = fn)))
    ∧ (s.portServes port = true → s.fnExists port fn = true → f.mode ≠ .resetting → f.d3hot = false →
      exec (.functionEnable port fn .busMaster) s = .next (s.setFn port fn { f with busMaster := true, mode := .enabled }))
    ∧ (∀ k : Fin 128, s.portServes port = true → (s.port port).numVfs ≤ k.val →
      ∃ t : State, exec (.functionEnable port 0 (.vfEnable k)) s = .next t ∧ (t.port port).numVfs = k.val
        ∧ ∀ v : Fin 128, (s.port port).numVfs < v.val → v.val ≤ k.val → (s.fn port v).mode ≠ .resetting → (t.fn port v).mode = .enabled)
    ∧ (∀ (width : Fin 16) (rate : Fin 8) flit, s.powered = true → (s.port port).released = true → (width.val = 1 ∨ width.val = 2 ∨ width.val = 4 ∨ width.val = 8) →
      rate.val ≤ 5 → (rate.val = 5 → flit = true) →
      ∃ w : State, exec (.pcieLinkUp port width rate flit) s = .next (if s.up = true then w.atlasUpdate 8 0 else w)
        ∧ w.port port = { s.port port with linkUp := true, width := width.val, rate := rate.val, flit := flit, ready := (s.port port).ready || s.up, drs := (s.port port).drs && !s.up }
        ∧ w.out = (if (s.port port).drs = true ∧ s.up = true then .drs port :: s.out else s.out))

/-- Requests of the host (R217, R218, R315, R317, R318, R323-R325, R331, R335, R337, R378). -/
def Obligations.HostRequestsComplete : Prop :=
  ∀ (s : State) (port : Fin 2) (fn : Fin 128),
    let f := s.fn port fn
    (s.powered = true → (s.port port).released = true → (s.port port).linkUp = true → s.pow.stage = .published → s.fnExists port fn = true →
      ((fn = 0 ∨ f.mode ≠ .resetting) → exec (.configRequest port fn .read) s = .next (s.emit (.configDone port fn))
        ∧ (∀ v, exec (.configRequest port fn (.write .relaxedOrdering v)) s = .next ((s.setFn port fn { f with relaxed := v }).emit (.configDone port fn)))
        ∧ ∀ b v, exec (.configRequest port fn (.write b v)) s = .next ((s.configWrite port fn b v).emit (.configDone port fn)))
      ∧ (fn ≠ 0 → f.mode = .resetting → ∀ op, exec (.configRequest port fn op) s = .next (s.emit (.configRetry port fn))))
    ∧ (s.portServes port = true → s.tlpDropped port fn = false → ∀ off : BitVec 36,
      (s.fnServes port fn = true → ∀ p, s.aperturePart port fn = some p →
        let va := apertureBase + off.toNat
        let arrived (n : Nat) (d : Option (List Byte)) (tlp : TlpHints) : State :=
          { s.charge p none .memory n with host := { (s.charge p none .memory n).host with inbound := [⟨port, fn, p, va, n, d, tlp⟩] } }
        let served (t : State) : State := { t with host := { t.host with inbound := [] } }
        s.host.inbound = [] →
        (∀ d tlp,
          (s.rangeBusy p va d.length = true → exec (.apertureWrite port fn off d tlp) s = .next (arrived d.length (some d) tlp))
          ∧ (s.rangeBusy p va d.length = false →
            exec (.apertureWrite port fn off d tlp) s = .next (served ((arrived d.length (some d) tlp).apertureStores port p tlp (lineCuts va d.length) d))))
        ∧ (∀ n v, v = arrived n none ⟨false, none, false⟩ →
          (s.rangeBusy p va n = true → exec (.apertureRead port fn off n) s = .next v)
          ∧ (s.rangeBusy p va n = false → ∀ b q u, v.apertureLoads port p (lineCuts va n) = (b, q, u) →
            exec (.apertureRead port fn off n) s =
              .next (served (if q then (u.emit (.poisonedCompletion port fn b)).emit (.aer port fn) else u.emit (.completion port fn 0 b))))))
      ∧ (s.fnServes port fn = true → s.aperturePart port fn = none →
        (∀ d tlp, exec (.apertureWrite port fn off d tlp) s = .next s) ∧ ∀ n, exec (.apertureRead port fn off n) s = .next (s.emit (.completion port fn 0 (List.replicate n 0xFF))))
      ∧ (s.fnServes port fn = false →
        (∀ d tlp, exec (.apertureWrite port fn off d tlp) s = .next s) ∧ ∀ n, exec (.apertureRead port fn off n) s = .next (s.emit (.completion port fn 1 []))))
    ∧ (s.portServes port = true → exec (.inboundAtomicop port fn) s = .next (s.emit (.completion port fn 1 [])))
    ∧ (∀ tag st d r, s.host.reads.find? (fun r => decide (r.tag = tag) && r.held.isNone) = some r → s.powered = true → (st = .success → d.length = r.len) → s.tlpDropped r.port r.fn = false →
      ∃ w : State, exec (.pcieCompletion tag st d) s = .next w.settleInvals ∧ (∀ x ∈ w.host.reads, x.tag ≠ tag)
        ∧ ((s.fn r.port r.fn).mode = .resetting → w.arr = s.arr ∧ w.chan = s.chan)
        ∧ ((s.fn r.port r.fn).mode ≠ .resetting → w.arr = (s.hostData r st d).arr ∧ w.chan = (s.hostData r st d).chan))
    ∧ (∀ pasid (first : BitVec 52) count, s.portServes port = true → s.fnExists port fn = true →
      ∃ w : State, exec (.atsInvalidateRequest port fn pasid first count) s = .next w.settleInvals ∧ w.host.invals = s.host.invals ++ [⟨port, fn, first, count, s.host.nextTag⟩]
        ∧ ∀ e, e ∈ w.host.ats ↔ e ∈ s.host.ats ∧ ¬ (e.port = port ∧ e.fn = fn ∧ e.pasid = pasid ∧ first.toNat ≤ e.page.toNat ∧ e.page.toNat < first.toNat + count))
    ∧ (∀ tag x, s.up = true → s.host.pages.find? (fun x => decide (x.tag = tag) && x.sent) = some x → (s.fn x.port x.fn).mode ≠ .resetting →
      ∃ u : State, (∀ y ∈ u.host.pages, y.tag ≠ tag) ∧ u.arr = s.arr ∧ u.chan = s.chan
        ∧ exec (.pageRequestResponse tag .success) s = .next (u.pageGranted x)
        ∧ exec (.pageRequestResponse tag .invalid) s = .next (u.pageRefused x)
        ∧ ∃ w : State, exec (.pageRequestResponse tag .failure) s = .next
            ((x :: s.host.pages.filter (fun r => decide (r.port = x.port ∧ r.fn = x.fn ∧ r.sent = false ∧ r.tag ≠ tag))).foldl (fun s r => s.pageRefused r) w)
          ∧ w.arr = s.arr ∧ w.chan = s.chan ∧ w.out = s.out ∧ (w.fn x.port x.fn).pageFail = true
          ∧ ∀ y ∈ w.host.pages, y.tag ≠ tag ∧ ¬ (y.port = x.port ∧ y.fn = x.fn ∧ y.sent = false))
    ∧ (s.barServes port 0 = true → (s.port port).fnSelect.toNat = fn.val → ∀ v : Word,
      let want : Option (Fin 16) := if v.getLsbD 4 then some (toPart (field v 0 4)) else none
      let locked := f.bound.any (fun p => (s.partition p).lock.any (fun l => l.accepted.contains (fnWord port fn)))
      let busy := (s.fnChans port fn).any (fun ch => decide (entState (s.entry ch) ≠ 0))
      (fn ≠ 0 → locked = false → busy = false → ∃ t : State, exec (.pcieFnBind port v) s = .next t ∧ (t.fn port fn).bound = want ∧ (t.fn port fn).corePasid = bits v 8 20
        ∧ (t.fn port fn).coreDefault = (v.getLsbD 5 && want.isSome))
      ∧ (fn ≠ 0 → (locked = true ∨ (busy = true ∧ want ≠ f.bound)) → ∃ t : State, exec (.pcieFnBind port v) s = .next t ∧ (t.fn port fn).bound = f.bound
        ∧ (want ≠ f.bound → (t.fn port fn).bindRefused = true)))
    ∧ (s.barServes port 0 = true → (s.port port).fnSelect.toNat = fn.val →
      (f.flipBusy = false → exec (.flip port) s = .next (s.setFn port fn { f with dirtyActive := !f.dirtyActive, flipDone := false, flipBusy := true }))
      ∧ (f.flipBusy = true → exec (.flip port) s = .next (s.setFn port fn { f with flipRefused := true })))
    ∧ (s.up = true → f.flipBusy = true → ∃ t : State, exec (.flipComplete port fn) s = .next t ∧ (t.fn port fn).flipDone = true ∧ (t.fn port fn).flipBusy = false
      ∧ ∃ r ∈ t.host.reads, r.port = port ∧ r.fn = 0 ∧ r.len = 0)

/-- The DOE mailboxes (R327, R328, R371, R377, R380, R381). -/
def Obligations.DoeMailboxesComplete : Prop :=
  ∀ (s : State) (port : Fin 2) (fn : Fin 128),
    let f := s.fn port fn
    (∀ index : Byte, s.doeTakes port fn = true →
      ∃ t : State, exec (.doeDiscovery port fn index) s = .next t ∧ t.out = .doe port fn 0 (discovery index.toNat) :: s.out ∧ (t.fn port fn).doe = 4)
    ∧ (∀ sec : Bool, s.spdmTakes port fn sec = true →
      (∃ t : State, exec (.spdmRequest port fn sec (.getMeasurements 0)) s = .next t ∧ t.out = .doe port fn (spdmType sec) [BitVec.ofNat 8 s.sec.log.length] :: s.out)
      ∧ (∃ (t : State) (b : List Byte), exec (.spdmRequest port fn sec (.getMeasurements 0xFF)) s = .next t ∧ t.out = .doe port fn (spdmType sec) b :: s.out
        ∧ b.length = 33 * s.sec.log.length)
      ∧ (∀ (i : Byte) e, i ≠ 0 → i ≠ 0xFF → s.sec.log[i.toNat - 1]? = some e →
        ∃ t : State, exec (.spdmRequest port fn sec (.getMeasurements i)) s = .next t ∧ t.out = .doe port fn (spdmType sec) (i :: digestBytes e.digest) :: s.out)
      ∧ (∀ off len : BitVec 16, ∃ (t : State) (b : List Byte), exec (.spdmRequest port fn sec (.getCertificate 0 off len)) s = .next t ∧ t.out = .doe port fn (spdmType sec) b :: s.out
        ∧ b.drop 4 = (s.certChain.drop off.toNat).take len.toNat ∧ t.sec = s.sec)
      ∧ (∀ n, exec (.spdmRequest port fn sec (.challenge n)) s = .next (s.openAnswer port fn (spdmType sec) (0x83 :: digestBytes n)))
      ∧ (s.sec.aliasKey.isSome = true → ∃ t : State, exec (.spdmRequest port fn sec .keyExchange) s = .next t ∧ t.sec.sessions = s.sec.sessions ++ [⟨port, fn⟩])
      ∧ (sec = true → ∃ t : State, exec (.spdmRequest port fn sec .endSession) s = .next t ∧ t.sec.sessions = s.sec.sessions.erase ⟨port, fn⟩))
    ∧ (s.spdmTakes port 0 true = true → ∀ (k : Fin 5) a b lo hi,
      ∃ t : State, exec (.ideKm port 0 true k (.setKeys a b lo hi)) s = .next t
        ∧ (t.port port).ide[k.val]? = some (if k = 0 then ⟨true, false, 0, 127, 0, BitVec.allOnes 64⟩ else ⟨true, false, a.val, b.val, lo, hi⟩))
    ∧ (s.spdmTakes port fn true = true → fn ≠ 0 →
      (∀ p r, f.tdisp = .unlocked → f.bound = some p → (s.partition p).mode ≠ .absent → lockAdd (s.partition p).lock (fnWord port fn) = some r →
        r.accepted.contains (fnWord port fn) = true
        ∧ exec (.lockInterfaceRequest port fn true) s = .next (((s.setFn port fn { f with tdisp := .locked }).lockWith p r).openAnswer port fn 2 [0x83]))
      ∧ (f.tdisp = .locked → ∃ t : State, exec (.startInterfaceRequest port fn true) s = .next t ∧ (t.fn port fn).tdisp = .run))
    ∧ (∀ sec nonce user (part : Byte) p b, s.spdmTakes port fn sec = true → (fn = 0 → part.toNat = p.val) → (fn ≠ 0 → f.bound = some p) →
      s.signedReport p nonce user (!(sec && (s.partition p).lock.any (fun l => l.accepted.contains (fnWord port fn)))) = .ok b →
      ∃ t : State, exec (.attestationReportRequest port fn sec nonce user part) s = .next t ∧ t.out = .doe port fn 257 b :: s.out ∧ b.length = 512)
    ∧ (s.portServes port = true → s.fnExists port fn = true → exec (.doeAbort port fn) s = .next (s.setFn port fn { f with doe := 0 }))
    ∧ (∀ (k : Fin 5) x, s.portServes port = true → (s.port port).ide[k.val]? = some x → x.keyed = true → x.insecure = false →
      ∃ t : State, exec (.ideIntegrityFailure port k) s = .next t ∧ (t.port port).ide[k.val]? = some { x with insecure := true } ∧ t.out = .aer port 0 :: s.out)

/-- Ports and lanes (R341-R343, R353, R362). -/
def Obligations.MeridianPortsComplete : Prop :=
  ∀ (s : State) (n : Fin 12), s.up = true →
    let x := s.lp n.val
    (∀ (port : Fin 2) (v : Word), s.barServes port 0 = true → toLp (s.port port).linkSelect.toNat = n →
      (v.getLsbD 0 = true → v.getLsbD 2 = false → x.enable = false → s.link.number ≠ 0xFFF → ∃ w : State, exec (.lnkPortEnable port v) s = .next ((w.wantDomain (492 + n.val)).portTo n .training false)
        ∧ w.lp n.val = { x with enable := true, spareEnable := v.getLsbD 1, fails := 0 })
      ∧ (v.getLsbD 0 = true → v.getLsbD 2 = false → x.enable = true → ∃ t : State, exec (.lnkPortEnable port v) s = .next t ∧ t.lp n.val = { x with enable := true, spareEnable := v.getLsbD 1 })
      ∧ (v.getLsbD 0 = false → ∃ w : State, exec (.lnkPortEnable port v) s = .next ((w.portTo n .down true).dropDomain (492 + n.val))
        ∧ w.lp n.val = { x with enable := false, spareEnable := v.getLsbD 1 })
      ∧ (v.getLsbD 0 = true → s.link.number = 0xFFF → exec (.lnkPortEnable port v) s = .next (s.setLp n.val { x with enable := true, spareEnable := v.getLsbD 1 }))
      ∧ (v.getLsbD 0 = true → x.enable = true → x.mode ≠ .fenced → s.link.number ≠ 0xFFF → ∃ t : State, exec (.lnkPortRetrain port v) s = .next t
        ∧ (t.lp n.val).failed = [] ∧ (t.lp n.val).half = none ∧ (t.lp n.val).spare = none ∧ (t.lp n.val).fails = 0))
    ∧ (∀ (peer : BitVec 12) (q : Fin 16) (sp : Option (BitVec 12)), x.mode = .training → s.domain (492 + n.val) = .on →
      (peer ≠ s.link.number →
        (∃ t : State, exec (.hello n peer q sp false) s = .next t ∧ (t.lp n.val).mode = .training ∧ (t.lp n.val).peer = peer ∧ (t.lp n.val).peerPort = BitVec.ofNat 4 q.val)
        ∧ (∃ w : State, exec (.hello n peer q sp true) s = .next (w.atlasUpdate 8 0).pump ∧ (w.lp n.val).mode = .up ∧ (w.lp n.val).peer = peer ∧ (w.lp n.val).fails = 0
          ∧ (w.lp n.val).txSeq = 1 ∧ (w.lp n.val).rxSeq = 1))
      ∧ (∀ heard, exec (.hello n s.link.number q sp heard) s = .next (s.portTo n .fenced false))
      ∧ (x.fails + 1 < 3 → ∃ t : State, exec (.portTrainingFailed n) s = .next t ∧ t.lp n.val = { x with fails := x.fails + 1 })
      ∧ (3 ≤ x.fails + 1 → ∃ w : State, exec (.portTrainingFailed n) s = .next (w.portTo n .fenced false) ∧ w.lp n.val = { x with fails := x.fails + 1 }))
    ∧ (x.mode = .up →
      exec (.linkLost n) s = .next (s.portTo n .training false)
      ∧ (∀ lane : Fin 4, x.failed.contains lane.val = false → s.spareFree n = true →
        exec (.laneCorrectionThreshold n lane) s = .next (s.setLp n.val { x with subst := some (lane.val, false), trained := false }))
      ∧ (∀ lane : Fin 4, x.failed.contains lane.val = false →
        (goodPair (x.failed ++ [lane.val]) = none → ∃ w : State, exec (.laneAbruptFailure n lane) s = .next (w.portTo n .fenced false) ∧ w.lp n.val = { x with failed := x.failed ++ [lane.val] })
        ∧ (∀ k, goodPair (x.failed ++ [lane.val]) = some k → ∃ w : State, (w.lp n.val).half = some k ∧ (w.lp n.val).failed = x.failed ++ [lane.val]
          ∧ w.out = (x.replay.map (fun y => Out.frame n y.2.2)).reverse ++ s.out
          ∧ exec (.laneAbruptFailure n lane) s = .next (if x.half.isSome then w else (w.report (mkReport 0x0071 (unitId 8 n.val) 0)).atlasUpdate 8 0)))
      ∧ (∀ lane b, x.subst = some (lane, b) → x.trained = false → (∀ j, j < n.val % 3 → (s.lp (n.val / 3 * 3 + j)).subst = none) → s.canSend n.val none 3 = true →
        exec (.spareLaneTrained ⟨n.val / 3, by omega⟩) s = .next (s.sendSubstitute n lane))
      ∧ (∀ (lane : Fin 4) (sp : Fin 52) b, 48 ≤ sp.val → x.subst = some (lane.val, b) → x.trained = true →
        ∃ w : State, exec (.substitute n lane sp) s = .next (w.giveCredit n 3).pump ∧ w.lp n.val = { x with rxSeq := x.rxSeq + 1, subst := some (lane.val, true) })
      ∧ (∀ lane, x.subst = some (lane, true) →
        ∃ u : State, (u.lp n.val).spare = some (lane, 48 + n.val / 3) ∧ (u.lp n.val).failed = x.failed.filter (fun l => decide (l ≠ lane)) ∧ (u.lp n.val).subst = none
          ∧ exec (.laneSwitch n) s = .next (((if x.half.isSome ∧ x.failed.filter (fun l => decide (l ≠ lane)) = [] then u.atlasUpdate 8 0 else u).report
            (mkReport 0x0070 (unitId 8 n.val) 0)).atlasUpdate 4 0)))

/-- Meridian frames (R346, R348, R349, R351, R352, R355-R358). -/
def Obligations.MeridianFramesComplete : Prop :=
  (∀ (s t : State) (n : Fin 12) (f : Frame) (r : RxStream) (op : Nat), s.Hears n op f r t →
    let x := rxFrame f
    (op = 1 → s.cutsFree (x.cuts x.len) = true → exec (.meridianRead n f) s = .next ((t.performRead n r.part x).giveCredit n x.vc).pump)
    ∧ (op = 2 → s.cutsFree (x.cuts x.len) = true → exec (.meridianWrite n f) s = .next ((t.performWrite n r.part x).giveCredit n x.vc).pump)
    ∧ (op = 3 → s.cutsFree (x.cuts x.len) = true → exec (.bulkWrite n f) s = .next ((t.performWrite n r.part x).giveCredit n x.vc).pump)
    ∧ (op = 4 → s.cutsFree [(x.addr, 1)] = true → exec (.meridianAtomic n f) s = .next ((t.performAtomic n r.part x).giveCredit n x.vc).pump)
    ∧ (∀ q id lane h, op = 0x10 → s.pullReady x = true → t.answered r x = some q → q.write = false → q.atomic = false → x.status = 0 → q.use = .home id lane → t.homeReq id = some h →
      ∃ w : State, exec (.readData n f) s = .next (w.giveCredit n x.vc).pump
        ∧ w = ((((t.dropRemote q.tag).fillRemote q h.line (placeBytes 0 f.payload)).dropReq id).deliver h (.data (placeBytes 0 f.payload) 0)))
    ∧ (∀ q id lane, op = 0x11 → t.answered r x = some q → q.write = true → x.status = 0 → q.use = .home id lane →
      exec (.writeAck n f) s = .next (((t.dropRemote q.tag).settleHome id).giveCredit n x.vc).pump)
    ∧ (∀ q id lane h a b c, op = 0x12 → t.answered r x = some q → q.atomic = true → x.status = 0 → q.use = .home id lane → t.homeReq id = some h → h.op = .atomic a b c →
      exec (.atomicData n f) s = .next ((((t.addOld h.la h.cohort h.group id lane (BitVec.ofNat 64 (leNat (f.payload.take q.len)))).dropRemote q.tag).settleHome id).giveCredit n x.vc).pump))
  ∧ (∀ (s : State) (n : Fin 12) (f : Frame) (i : Instr), s.up = true → i ∈ [Instr.meridianRead n f, .meridianWrite n f, .bulkWrite n f, .meridianAtomic n f, .readData n f, .writeAck n f, .atomicData n f] →
      (s.hopTake n f = none → ∃ t : State, exec i s = .next t ∧ t.mem = s.mem ∧ t.chan = s.chan ∧ t.arr = s.arr ∧ (t.lp n.val).rxSeq = (s.lp n.val).rxSeq)
      ∧ (∀ u, s.hopTake n f = some u → (rxFrame f).dest ≠ s.link.number → (rxFrame f).wellFormed = true → exec i s = .next (u.forward n (rxFrame f)).pump))
  ∧ (∀ (s : State) (n : Fin 12), s.up = true → (s.lp n.val).mode = .up →
      (∀ (vc : Fin 4) (k : Byte), ∃ w : State, exec (.credit n vc k) s = .next w.pump
        ∧ w.lp n.val = { s.lp n.val with rxSeq := (s.lp n.val).rxSeq + 1, spent := dropCredits vc.val k.toNat (s.lp n.val).spent })
      ∧ ((s.lp n.val).replay ≠ [] → ∃ t : State, exec (.hopReplayTimeout n) s = .next t ∧ t.out = ((s.lp n.val).replay.map (fun y => Out.frame n y.2.2)).reverse ++ s.out
        ∧ (t.lp n.val).replay = (s.lp n.val).replay ∧ t.mem = s.mem))
  ∧ (∀ (s : State) (tag : Fin 16384) q, s.up = true → s.link.reqs.find? (fun q => decide (q.tag = tag.val)) = some q → q.lp.isSome = true →
      exec (.remoteTimeout tag) s = .next (s.failRemote q .timeout q.lp).pump)
  ∧ (∀ (s : State) (port : Fin 2) (v : Word), s.barServes port 0 = true → 1 ≤ field v 16 3 → field v 16 3 ≤ 4 →
      ∃ w : State, exec (.lnkRouteEntry port v) s = .next w.pump ∧ w.route (s.port port).routeSelect = { s.route (s.port port).routeSelect with pending := some (bits v 0 12, field v 16 3) })

/-- Merge entries of the region controllers (R395). -/
def Obligations.ReportsMergeByRegion : Prop :=
  (∀ (s u : State) (region : Fin 23) (r : Report), s.powered = true → (errType r.ty.toNat).isSome = true →
    let v : State := { s with err := { s.err with raised := s.err.raised.erase (region, r) } }
    let same : Merged → Bool := fun x => decide (x.region = region.val ∧ x.unit = r.unit ∧ x.ty = r.ty)
    (r.ty ≠ 0x0039 ∧ r.ty ≠ 0x0023 → u = v) → (s.up = false → u = v)
    → (s.up = true → r.ty = 0x0039 → u = if field r.unit 12 4 = 6 ∧ field r.unit 0 12 < 160 then v.fenceCore (field r.unit 0 12) else v)
    → (s.up = true → r.ty = 0x0023 → u = if field r.unit 12 4 = 4 ∧ field r.unit 0 12 < 384 then v.noteRetired (field r.unit 0 12) else v)
    → ∃ (t : State) (stamp : Word), exec (.errorReport region r) s = .next t
      ∧ t = { u with err := { u.err with merges := t.err.merges, inbox := t.err.inbox }, freeCount := t.freeCount }
      ∧ (u.err.merges.any same = true → t.err.inbox = u.err.inbox ∧ t.err.merges.length = u.err.merges.length
        ∧ ∀ (k : Nat) (x : Merged), u.err.merges[k]? = some x → ∃ y, t.err.merges[k]? = some y ∧ (same x = false → y = x)
          ∧ (same x = true → y.ty = x.ty ∧ y.unit = x.unit ∧ y.region = x.region ∧ y.stamp = x.stamp ∧ y.parts = x.parts ||| r.parts
            ∧ y.reports = min (x.reports + 1) (2 ^ 32 - 1) ∧ (∀ q, q ∈ y.reporters ↔ q ∈ x.reporters ∨ q = r.reporter)))
      ∧ (u.err.merges.any same = false → (u.err.merges.filter (fun x => decide (x.region = region.val))).length < 32 →
        t.err.inbox = u.err.inbox ∧ t.err.merges = u.err.merges ++ [Merged.of r region.val stamp false])
      ∧ (u.err.merges.any same = false → 32 ≤ (u.err.merges.filter (fun x => decide (x.region = region.val))).length →
        t.err.inbox = u.err.inbox ++ [Merged.of r region.val stamp false] ∧ t.err.merges = u.err.merges))
  ∧ (∀ (s : State) (region : Fin 23) (ty unit : BitVec 16) (m : Merged),
      s.err.merges.find? (fun x => decide (x.region = region.val ∧ x.unit = unit ∧ x.ty = ty)) = some m →
      ∃ t : State, exec (.mergeWindowClose region ty unit) s = .next t
        ∧ t = { s with err := { s.err with inbox := s.err.inbox ++ [m], merges := t.err.merges } }
        ∧ (∀ x, x ∈ t.err.merges ↔ x ∈ s.err.merges ∧ ¬ (x.region = region.val ∧ x.unit = unit ∧ x.ty = ty)))

/-- The chip collector (R134, R391, R396-R398). -/
def Obligations.CollectorCommandsComplete : Prop :=
  (∀ (s : State) m rest, s.err.inbox = m :: rest → ∃ t : State, exec .collectorReport s = .next t ∧ t.err.inbox = rest
      ∧ (∀ e, s.err.entries.find? (fun e => decide (e.m.unit = m.unit)) = some e → t.err.entries.length = s.err.entries.length
        ∧ ∃ e' ∈ t.err.entries, e'.m.unit = m.unit ∧ e'.newer = true ∧ e'.written = e.written ∧ e'.m.sev = max e.m.sev m.sev ∧ e'.m.parts = e.m.parts ||| m.parts
          ∧ (e'.window = true ↔ e.window = true ∨ ∃ w, e.written = some w ∧ w < m.sev))
      ∧ (s.err.entries.find? (fun e => decide (e.m.unit = m.unit)) = none → s.err.entries.length < 1024 → t.err.entries = s.err.entries ++ [⟨m, none, true, true⟩] ∧ t.err.serial = s.err.serial)
      ∧ (s.err.entries.find? (fun e => decide (e.m.unit = m.unit)) = none → 1024 ≤ s.err.entries.length →
        t.err.entries = s.err.entries ∧ t.err.full = s.err.full + 1 ∧ t.err.serial = s.err.serial + 1))
  ∧ (∀ (s : State) (unit : BitVec 16) (cons : BitVec 64) e, s.err.entries.find? (fun e => decide (e.m.unit = unit) && e.window) = some e →
      ∃ t : State, exec (.collectorWindowEnd unit cons) s = .next t ∧ t.err.serial = s.err.serial + 1
        ∧ t.err.entries = s.err.entries.map (fun x => if x.m.unit = unit then { x with written := some e.m.sev, window := false, newer := false } else x)
        ∧ (2 ≤ e.m.sev → t.err.alertUnread = true))
  ∧ (∀ (s : State) (unit : BitVec 16) (cons : BitVec 64) e, s.err.entries.find? (fun e => decide (e.m.unit = unit) && e.written.isSome) = some e →
      ∃ t : State, exec (.collectorEntryRetire unit cons) s = .next t ∧ t.err.serial = s.err.serial + (if e.newer then 1 else 0)
        ∧ t.err.entries = s.err.entries.filter (fun x => decide (x.m.unit ≠ unit)))
  ∧ (∀ (s : State) (port : Fin 2) (v : Word), s.barServes port 0 = true →
      (v.getLsbD 32 = false ∨ errType (field v 0 16) = none → exec (.errInject port v) s = .next s)
      ∧ (v.getLsbD 32 = true → (errType (field v 0 16)).isSome = true →
        ∃ (u : State) (m : Merged), exec (.errInject port v) s = .next (u.collect m) ∧ u = { s with freeCount := u.freeCount } ∧ m.injected = true ∧ m.parts = 0
          ∧ m.ty = bits v 0 16 ∧ m.unit = bits v 16 16 ∧ m.sev = ((errType (field v 0 16)).getD (0, 0)).1))
  ∧ (∀ (s : State) (port : Fin 2) (v : Word) host, s.barServes port 0 = true →
      ∃ t : State, exec (.errRingEnable port v host) s = .next t ∧ (t.port port).ringEnable = v.getLsbD 0 ∧ (t.port port).ringIrq = v.getLsbD 4
        ∧ (t.port port).ringHoldoff = bits v 8 8 ∧ (t.port port).ringVector = bits v 16 11
        ∧ (t.port port).ringMin = (if field v 1 3 < 5 then field v 1 3 else (s.port port).ringMin)
        ∧ (∀ q, q ≠ port → t.port q = s.port q) ∧ t.err = s.err ∧ t.mem = s.mem ∧ t.chan = s.chan)
  ∧ (∀ (s : State) (port : Fin 2), (s.port port).ringHolding = true →
      ∃ t : State, exec (.errorRingHoldoffExpired port) s = .next t ∧ (t.port port).ringDue = false
        ∧ t = (let u := s.setPort port { s.port port with ringHolding := false, ringDue := false }; if (s.port port).ringDue = true then u.errIrq port else u))
  ∧ (∀ (s : State) (cons : BitVec 64), s.err.entries.find? (fun e => decide (e.m.unit = unitId 2 22) && e.window) = none → 0 < s.err.full → s.err.fullAt = none →
      ∃ t : State, exec (.collectorWindowEnd (unitId 2 22) cons) s = .next t ∧ t.err.serial = s.err.serial + 1 ∧ t.err.entries = s.err.entries
        ∧ t.err.fullAt.map Prod.fst = some s.err.full)
  ∧ (∀ (s : State) (cons : BitVec 64) n stamp, s.err.entries.find? (fun e => decide (e.m.unit = unitId 2 22) && e.written.isSome) = none → s.err.fullAt = some (n, stamp) →
      ∃ t : State, exec (.collectorEntryRetire (unitId 2 22) cons) s = .next t ∧ t.err.full = 0 ∧ t.err.fullAt = none ∧ t.err.entries = s.err.entries
        ∧ t.err.serial = s.err.serial + (if n < s.err.full then 1 else 0))
  ∧ (∀ (s : State) (p : Fin 16) r rest, s.err.sentry = (p, r) :: rest →
      let n := Tbl.get 0 s.err.sentryDropped p.val
      ((Tbl.get none s.err.sentryFull p.val).isSome = true → ∃ t : State, exec .sentryRecord s = .next t ∧ t.err.sentry = rest
        ∧ Tbl.get 0 t.err.sentryDropped p.val = n + 1 ∧ t.chan = s.chan ∧ t.mem = s.mem)
      ∧ (Tbl.get none s.err.sentryFull p.val = none → ∃ w : State, exec .sentryRecord s = .next (w.postFault p 2 (r.bytes n)) ∧ w.err.sentry = rest
        ∧ Tbl.get 0 w.err.sentryDropped p.val = 0
        ∧ Tbl.get none w.err.sentryFull p.val = (if s.ticketStands r.ticket = true then some r.ticket else none)))

/-- Refills and spare swaps (R390, R404-R406). -/
def Obligations.RefillsAndSwapsComplete : Prop :=
  (∀ (s : State) (page : Nat) r, Tbl.get none s.mem.refilling page = some r →
      (∀ b : List Byte, b.length = 4096 → r.data = none → ∃ t : State, exec (.refillSourceRead page (some b)) s = .next t
        ∧ t = { s.refillWrite page b with mem := { (s.refillWrite page b).mem with refilling := t.mem.refilling } }
        ∧ Tbl.get none t.mem.refilling page = some { r with data := some b })
      ∧ (exec (.refillSourceRead page none) s = .next s)
      ∧ (r.data.isSome = true → ∃ t : State, exec (.refillComplete page) s = .next t ∧ Tbl.get none t.mem.refilling page = none
        ∧ (∀ c ∈ t.chan.cmds, c.refillHeld ≠ some page) ∧ t.mem.poison = s.mem.poison ∧ t.mem.bytes = s.mem.bytes)
      ∧ (∃ t : State, exec (.refillFailed page) s = .next t ∧ Tbl.get none t.mem.refilling page = none
        ∧ (∀ c ∈ t.chan.cmds, c.refillHeld ≠ some page) ∧ t.mem.poison = s.mem.poison ∧ t.mem.bytes = s.mem.bytes))
  ∧ (∀ (s : State) (slot : Fin 416) (cause : Fin 5), s.up = true → cause ≠ 0 → (∀ w ∈ s.err.swaps, w.spare = slot.val → s.laOf slot.val = none) →
      exec (.arrayFenced slot cause) s = .next (s.fenceSlot slot.val cause.val).finishActions
      ∧ ((s.slot slot.val).st = 3 → s.fenceSlot slot.val cause.val = s)
      ∧ ((s.slot slot.val).st ≠ 3 → ((s.fenceSlot slot.val cause.val).slot slot.val).st = 3))
  ∧ (∀ (s : State) (slot : Fin 416) (w : Swap), s.up = true → s.domain slot.val = .on → s.err.swaps.find? (fun x => decide (x.spare = slot.val)) = some w →
      (w.passed = false →
        ((s.array w.la).occ = none → exec (.spareSelfTestComplete slot true) s = .next (s.bindSwap w).finishActions
          ∧ (s.bindSwap w).slotOf w.la = some slot.val ∧ ((s.bindSwap w).slot slot.val).st = 0
          ∧ (s.bindSwap w).err.swaps = s.err.swaps.filter (fun x => decide (x.la ≠ w.la)))
        ∧ ((s.array w.la).occ ≠ none → ∃ t : State, exec (.spareSelfTestComplete slot true) s = .next t ∧ t = { s with err := { s.err with swaps := t.err.swaps } }
          ∧ (∀ x ∈ t.err.swaps, x.spare = slot.val → x.passed = true) ∧ t.err.swaps.map Swap.spare = s.err.swaps.map Swap.spare)
        ∧ exec (.spareSelfTestComplete slot false) s = .next (s.fenceSlot slot.val 4).finishActions)
      ∧ (w.passed = true → ∀ ok : Bool, exec (.spareSelfTestComplete slot ok) s = .next s))

/-- Power, rails, trips and domains (R417-R420, R422, R424, R432, R443, R446). -/
def Obligations.PowerEventsComplete : Prop :=
  (∀ (s : State) (mv : BitVec 16), s.pow.stage = .unpowered → 40000 ≤ mv.toNat → mv.toNat ≤ 60000 →
      exec (.inputPresent mv) s = .next { s with pow := { s.pow with inputOk := true, inputMv := mv, stage := .softStart } })
  ∧ (∀ s : State, s.pow.stage = .softStart → s.pow.needCycle = false →
      exec .softStartComplete s = .next { s with pow := { s.pow with charged := true, stage := if s.pow.pwrEn then .rails 0 else .softStart, pwrPending := if s.pow.pwrEn then false else s.pow.pwrPending } }
      ∧ (s.pow.charged = true → exec .pwrEnAsserted s = .next { s with pow := { s.pow with pwrEn := true, stage := .rails 0, pwrPending := false } }))
  ∧ (∀ s : State, s.pow.stage = .descending → exec .pwrEnAsserted s = .next { s with pow := { s.pow with pwrEn := true, pwrPending := true } })
  ∧ (∀ (s : State) (k : Fin 10), s.pow.stage = .rails k → ∃ t : State, exec .railStepComplete s = .next t ∧ t = { s with pow := { s.pow with stage := t.pow.stage } }
      ∧ (8 ≤ k.val → t.pow.stage = .railsUp) ∧ (∀ j : Fin 10, k.val < 8 → j.val = k.val + 1 → t.pow.stage = .rails j))
  ∧ (∀ (s : State) (modid : BitVec 12), s.pow.stage = .railsUp → s.bringing = true →
      exec (.rootPllLock modid) s = .next { s with pow := { s.pow with stage := .pllLocked, pgood := true, modid := modid }, link := { s.link with number := modid } })
  ∧ (∀ s : State, (∀ st ∈ [Stage.unpowered, .softStart, .descending], s.pow.stage ≠ st) →
      ∃ t : State, exec .pwrEnDeasserted s = .next t ∧ t.pow.stage = .descending ∧ t.pow.pgood = false ∧ t.pow.pwrEn = false ∧ t.chan = ChanState.reset ∧ t.arr = []
        ∧ t.sec.fuses = s.sec.fuses ∧ t.mem.retired = s.mem.retired ∧ t.pow.flash = s.pow.flash ∧ t.pow.bootEpoch = s.pow.bootEpoch ∧ t.out = s.out ∧ t.pending = s.pending
        ∧ t.mem.unitsLost = s.mem.unitsLost)
  ∧ (∀ s : State, s.pow.stage = .descending → s.pow.pwrPending = true → s.pow.pwrEn = true → s.pow.needCycle = false →
      ∃ t : State, exec .railDescentComplete s = .next t ∧ t.pow.stage = .rails 0 ∧ t.pow.pwrPending = false ∧ t.pow.faultN = false)
  ∧ (∀ (s : State) (rail : Fin 9) (k : Fin 10), s.pow.stage = .rails k → rail.val ≤ k.val → s.pow.moduleFailed = none →
      ∃ t : State, exec (.railFault rail) s = .next t ∧ t.pow.moduleFailed = some 0x0061 ∧ t.pow.stage = .descending ∧ t.pow.faultN = decide (3 ≤ k.val))
  ∧ (∀ s : State, s.pow.stage = .descending → s.pow.pwrPending = false →
      ∃ t : State, exec .railDescentComplete s = .next t ∧ t.pow.stage = .softStart ∧ t.pow.faultN = false ∧ t.pow.tripN = false ∧ t.sec.fuses = s.sec.fuses ∧ t.pow.flash = s.pow.flash)
  ∧ (∀ (s : State) (mv : BitVec 16), mv.toNat < 40000 ∨ 60000 < mv.toNat → ∃ t : State, exec (.inputOutOfRange mv) s = .next t ∧ t.pow.stage = .unpowered ∧ t.pow.inputMv = mv
      ∧ t.pow.inputOk = false ∧ t.pow.charged = false ∧ t.sec.fuses = s.sec.fuses ∧ t.chan = ChanState.reset)
  ∧ (∀ s : State, s.powered = true → s.pow.moduleFailed = none →
      (∀ mv : BitVec 16, (40000 ≤ mv.toNat ∧ mv.toNat < 44000) ∨ (58000 < mv.toNat ∧ mv.toNat ≤ 60000) →
        ∃ t : State, exec (.powerInputFault mv) s = .next t ∧ t.pow.moduleFailed = some 0x0060 ∧ t.pow.faultN = true ∧ t.chan.cmds = [] ∧ t.pow.stage = s.pow.stage)
      ∧ (∀ rail : Fin 9, ∃ t : State, exec (.railFault rail) s = .next t ∧ t.pow.moduleFailed = some 0x0061 ∧ t.pow.stage = .descending ∧ t.pow.needCycle = true ∧ t.chan.cmds = [])
      ∧ (s.pow.stage ≠ .railsUp → ∃ t : State, exec .pllUnlock s = .next t ∧ t.pow.moduleFailed = some 0x0063 ∧ t.pow.stage = .descending ∧ t.pow.needCycle = true)
      ∧ (∀ sensor : BitVec 12, ∃ t : State, exec (.thermalTrip sensor) s = .next t ∧ t.pow.moduleFailed = some 0x0067 ∧ t.pow.tripN = true ∧ t.pow.stage = .descending))
  ∧ (∀ (s : State) (rail : Fin 9) (phase : Fin 38), s.powered = true → phase.val < railPhases.getD rail.val 0 + 2 →
      ∃ t : State, exec (.phaseFailed rail phase) s = .next t ∧ t.pow.badPhases = (if s.pow.badPhases.contains (rail.val, phase.val) then s.pow.badPhases else s.pow.badPhases ++ [(rail.val, phase.val)]))
  ∧ (∀ (s : State) n rest, s.pow.queue = n :: rest → s.powered = true → (s.pow.domains.filter (fun x => decide (x.2 = .comingUp))).length < 8 →
      ∃ t : State, exec .domainSwitchOn s = .next t ∧ t.pow.queue = rest ∧ t.domain n = .comingUp ∧ ∀ k, k ≠ n → t.domain k = s.domain k)
  ∧ (∀ (s : State) (dom : Fin 507), s.domain dom.val = .comingUp → exec (.domainStable dom true) s = .next ((s.setDomain dom.val .on).clusterUp dom.val).finishActions
      ∧ ∃ t : State, exec (.domainStable dom false) s = .next t)
  ∧ (∀ (s : State) (slot : Fin 416) la, s.laOf slot.val = some la → s.up = true → s.floorOf la = none → Tbl.get false s.chan.lent la = false → s.domain slot.val = .on →
      ∃ t : State, exec (.idleArrayPowerOff slot) s = .next t ∧ t.domain slot.val = .off ∧ t.array la = (s.array la).pass ∧ t.chan = s.chan ∧ t.mem = s.mem)

/-- The loops of power and temperature (R421, R425, R427, R428, R430, R431, R435). -/
def Obligations.PowerLoopsComplete : Prop :=
  ∀ s : State, s.powered = true →
    (s.pow.moduleFailed ≠ none → (∀ p mv tenMa, exec (.capLoopPeriod p mv tenMa) s = .next { s with pow := s.pow.meter p mv tenMa })
      ∧ exec .inputOverpower s = .next s ∧ (∀ d, exec (.droopStretch d) s = .next s) ∧ ∀ l, exec (.sensorRead l) s = .next s)
    ∧ (s.pow.moduleFailed = none →
    (∀ p mv tenMa : BitVec 16, ∃ t : State, exec (.capLoopPeriod p mv tenMa) s = .next t
      ∧ t.pow.watts = p ∧ t.pow.inputMv = mv ∧ t.pow.current = tenMa ∧ t.pow.capStep = s.pow.capStep ∧ t.pow.energy = s.pow.energy + BitVec.ofNat 64 (100 * p.toNat) ∧
      let cap := 1200 + 25 * s.pow.capStep
      let w := s.pow
      (cap < p.toNat →
        (8 < w.duty → t.pow.duty = max 8 (w.duty - ceilDiv (p.toNat - cap) 50) ∧ t.pow.stageB = w.stageB)
        ∧ (w.duty ≤ 8 → t.pow.duty = w.duty)
        ∧ (w.duty = 8 → t.pow.stageB = (w.stageB || decide (10 ≤ w.heldOver8 + 1)) ∧ t.pow.heldOver8 = w.heldOver8 + 1)
        ∧ t.pow.stageC = (w.stageC || (t.pow.stageB && decide (100 ≤ w.heldOver + 1)))
        ∧ t.pow.unreachable = (w.unreachable || (t.pow.stageC && decide (1000 ≤ w.heldOver + 1)))
        ∧ t.pow.heldOver = w.heldOver + 1 ∧ t.pow.heldUnder100 = 0 ∧ t.pow.heldUnder200 = 0)
      ∧ (p.toNat + 50 < cap →
        t.pow.unreachable = false ∧ t.pow.heldOver = 0 ∧ t.pow.heldOver8 = 0
        ∧ t.pow.heldUnder100 = (if p.toNat + 100 < cap then w.heldUnder100 + 1 else 0) ∧ t.pow.heldUnder200 = (if p.toNat + 200 < cap then w.heldUnder200 + 1 else 0)
        ∧ (t.pow.stageC, t.pow.stageB, t.pow.duty) =
          (if w.stageC = true ∧ p.toNat + 200 < cap ∧ 1000 ≤ w.heldUnder200 + 1 then (false, w.stageB, w.duty)
           else if w.stageB = true ∧ p.toNat + 100 < cap ∧ 100 ≤ w.heldUnder100 + 1 then (w.stageC, false, w.duty)
           else if w.stageB = false then (w.stageC, false, min 64 (w.duty + 1)) else (w.stageC, true, w.duty)))
      ∧ (p.toNat ≤ cap → cap ≤ p.toNat + 50 → t.pow.duty = w.duty ∧ t.pow.stageB = w.stageB ∧ t.pow.stageC = w.stageC ∧ t.pow.unreachable = w.unreachable))
    ∧ (∃ t : State, exec .inputOverpower s = .next t ∧ t.pow = { s.pow with duty := 8 } ∧ t.mem = s.mem ∧ t.out = s.out)
    ∧ (∀ d : DroopDomain, ∃ t : State, exec (.droopStretch d) s = .next t ∧ t = { s with pow := { s.pow with stretches := t.pow.stretches } }
      ∧ t.pow.stretches.toNat = min (s.pow.stretches.toNat + 1) (2 ^ 32 - 1))
    ∧ (∀ r : Reading, (0x800 ≤ r.sensor.toNat ∧ r.sensor.toNat ≤ 0x8B7) ∨ (0x900 ≤ r.sensor.toNat ∧ r.sensor.toNat ≤ 0x917) →
      ∃ t : State, exec (.sensorRead [r]) s = .next t
        ∧ (∀ x : Int, r.value = some x → -640 ≤ x → x ≤ 2400 → t.sensor r.sensor.toNat = .temp x)
        ∧ ((r.value = none ∨ ∃ x : Int, r.value = some x ∧ (x < -640 ∨ 2400 < x)) → t.sensor r.sensor.toNat = .bad)
        ∧ (∀ n, n ≠ r.sensor.toNat → t.sensor n = s.sensor n)
        ∧ (∀ g, t.thermalStep g ≤ s.thermalStep g + 1 ∧ s.thermalStep g ≤ t.thermalStep g + 1)))
    ∧ (s.up = true → ∀ cores rest,
      let w := (s.chargePeriod cores rest).energy
      ∃ t : State, exec (.energyCalibration cores rest) s = .next t
        ∧ t = { s with pow := { s.pow with calibK := t.pow.calibK }, energy := { w with modelled := 0, metered := s.pow.energy } }
        ∧ (w.modelled ≠ 0 → t.pow.calibK = max 800 (min 1250 (1000 * ((s.pow.energy - s.energy.metered).toNat * 10 ^ 9) / w.modelled))))

/-- Bring-up (R17, R366, R445, R448, R449). -/
def Obligations.BringupStagesComplete : Prop :=
  ∀ s : State, s.bringing = true →
    (∀ b : BootImages, s.pow.stage = .pllLocked →
      (∀ sp res, [b.spA, b.spB].find? (fun i => imageValid s.sec.fuses 1 i) = some sp → [b.resA, b.resB].find? (fun i => imageValid s.sec.fuses 2 i) = some res →
        ∃ t : State, exec (.securityBoot b) s = .next t ∧ t.pow.stage = .booted ∧ t.pow.bootEpoch = s.pow.bootEpoch + 1 ∧ t.pow.report = .none
          ∧ t.sec.log.map (fun e => e.ty) = [1, 2, 3, 4] ∧ t.sec.svns = (sp.svn.toNat, res.svn.toNat) ∧ t.sec.aliasKey = some (Config.aliasKey t.sec.digest)
          ∧ (b.certOk = true → t.sec.fuses = s.sec.fuses) ∧ t.mem = s.mem ∧ t.chan = s.chan)
      ∧ ([b.spA, b.spB].find? (fun i => imageValid s.sec.fuses 1 i) = none →
        ∃ t : State, exec (.securityBoot b) s = .next t ∧ t.pow.stage = .pllLocked ∧ t.pow.report = .bootFailed 1 ∧ t.pow.faultN = true ∧ t.sec.fuses = s.sec.fuses)
      ∧ (∀ sp, [b.spA, b.spB].find? (fun i => imageValid s.sec.fuses 1 i) = some sp → [b.resA, b.resB].find? (fun i => imageValid s.sec.fuses 2 i) = none →
        ∃ t : State, exec (.securityBoot b) s = .next t ∧ t.pow.stage = .pllLocked ∧ t.pow.report = .bootFailed 2 ∧ t.pow.faultN = true ∧ t.sec.fuses = s.sec.fuses))
    ∧ (∀ ok mismatch : BitVec 22, s.pow.stage = .booted → ∃ t : State, exec (.dieLinkTraining ok mismatch) s = .next t ∧ t.pow.moduleFailed = none
      ∧ (let u := s.trainDieLinks ok mismatch
        (u.pow.report = .none → t = { u with pow := { u.pow with stage := .linked } }) ∧ (u.pow.report ≠ .none → t = u ∧ u.pow.report = .stalled 6 ∧ u.pow.faultN = true)))
    ∧ (∀ (channels : BitVec 384) (slots : BitVec 416) (cores : BitVec 160), s.pow.stage = .linked →
      ∃ t : State, exec (.memoryTraining channels slots cores) s = .next t ∧ t.pow.stage = .trained ∧ t.mem.unitsUp = t.mem.unitsAtBoot
        ∧ (∀ u : Fin 384, t.mem.unitsUp.getLsbD u.val = (channels.getLsbD u.val && s.hubUp (u.val / 96) && !s.mem.unitsLost.getLsbD u.val))
        ∧ (∀ n : Fin 416, (s.dieState (n.val / 52)).mode ≠ .present ∨ slots.getLsbD n.val = false → (t.slot n.val).st = 3)
        ∧ (∀ n : Fin 416, (s.dieState (n.val / 52)).mode = .present → slots.getLsbD n.val = true → t.slot n.val = s.slot n.val))
    ∧ (s.pow.stage = .trained → ∃ t : State, exec .spareAssignment s = .next t ∧ t.pow.stage = .assigned
      ∧ (∀ n : Fin 416, (s.slot n.val).st = 3 → (t.slot n.val).st = 3)
      ∧ (∀ (la : Fin 384) n, t.slotOf la.val = some n → s.slotOf la.val = none → (s.slot n).st ≠ 3))
    ∧ (s.pow.stage = .assigned → ∃ w : State, exec .atlasPublish s = .next (((w.postEvent 0 0x0001 (leBytes 8 0 ++ leBytes 4 0)).readyPort 0).readyPort 1)
      ∧ w.pow.stage = .published ∧ (w.partition 0).mode = .live ∧ w.sec.logClosed = (!s.sec.debugBring || s.sec.logClosed) ∧ (s.sec.debugBring = true → w.sec.debugOpen = true)
      ∧ (s.sec.debugBring = false → w.sec.fuses.svnSp = max s.sec.fuses.svnSp (min 64 s.sec.svns.1) ∧ w.sec.fuses.svnRes = max s.sec.fuses.svnRes (min 64 s.sec.svns.2)))
    ∧ (∀ event : Fin 11, s.pow.stage.awaits = some event.val → event ≠ 3 →
      exec (.bringupStalled event) s = .next { s with pow := { s.pow with faultN := true, report := .stalled event.val } })
    ∧ (s.pow.stage = .railsUp → ∃ t : State, exec (.bringupStalled 3) s = .next t
      ∧ t = { s with pow := { s.pow with faultN := true, stage := .descending, needCycle := true, pwrPending := false } })

/-- Register writes (R8-R11, R282, R344, R437, R453).
That what firmware checks is done at once is the model's choice (log entries 47 and 75). -/
def Obligations.RegisterWritesComplete : Prop :=
  ∀ (s : State) (port : Fin 2) (v : Word),
    (s.barServes port 0 = true →
      (∀ size, size = 4 ∨ size = 8 →
        let r := (s.port port).regs
        (r.partBusy = false → exec (.registerWrite ⟨port, none, 0x10000, size⟩ v) s = .next (s.setPort port { s.port port with regs := { r with partSelect := bits v 0 4 } }))
        ∧ (r.partBusy = true → exec (.registerWrite ⟨port, none, 0x10000, size⟩ v) s = .next s)
        ∧ (field v 0 7 ≤ 96 → exec (.registerWrite ⟨port, none, 0x70000, size⟩ v) s = .next { s with pow := { s.pow with capStep := field v 0 7 } })
        ∧ (96 < field v 0 7 → exec (.registerWrite ⟨port, none, 0x70000, size⟩ v) s = .next s)
        ∧ ((∀ n, n < 12 → (s.lp n).enable = false) → field v 0 12 ≠ 0xFFF → exec (.registerWrite ⟨port, none, 0x50000, size⟩ v) s = .next { s with link := { s.link with number := bits v 0 12 } })
        ∧ ((∃ n, n < 12 ∧ (s.lp n).enable = true) ∨ field v 0 12 = 0xFFF → exec (.registerWrite ⟨port, none, 0x50000, size⟩ v) s = .next s))
      ∧ (∀ k, k < 4 → (s.port port).regs.partBusy = false → (s.port port).regs.partArg.length = 4 →
        ∃ t : State, exec (.registerWrite ⟨port, none, BitVec.ofNat 20 (0x10020 + 8 * k), 8⟩ v) s = .next t
          ∧ (t.port port).regs.partArg[k]? = some v ∧ (∀ j, j ≠ k → (t.port port).regs.partArg[j]? = (s.port port).regs.partArg[j]?)
          ∧ t = s.setPort port { s.port port with regs := { (s.port port).regs with partArg := (t.port port).regs.partArg } })
      ∧ (∀ (off : BitVec 20) size, off.toNat < 0x28000 ∨ 0x2E000 ≤ off.toNat →
        (off.toNat < 0x10000 ∨ (size ≠ 4 ∧ size ≠ 8) ∨ off.toNat % size ≠ 0 → exec (.registerWrite ⟨port, none, off, size⟩ v) s = .next s)))
    ∧ (∀ (off : BitVec 20) size (ch : Fin 3072), 0x28000 ≤ off.toNat → off.toNat < 0x2E000 → (off.toNat - 0x28000) / 8 = ch.val →
      exec (.registerWrite ⟨port, none, off, size⟩ v) s = exec (.chanNudge port ch) s)
    ∧ (∀ (fn : Fin 128) (off : BitVec 20) size,
      (∀ n : Fin 512, 0x1000 ≤ off.toNat → off.toNat < 0x2000 → (off.toNat - 0x1000) / 8 = n.val → exec (.registerWrite ⟨port, some fn, off, size⟩ v) s = exec (.vfNudge port fn n) s)
      ∧ (off.toNat < 0x1000 ∨ 0x2000 ≤ off.toNat → exec (.registerWrite ⟨port, some fn, off, size⟩ v) s = .next s))
    ∧ (s.barServes port 0 = true → (s.port port).regs.partBusy = false → ∀ x ∈ [(0x10000, 4), (0x30018, 2), (0x40000, 4), (0x60008, 7), (0x80020, 4)],
      ∃ t : State, exec (.registerWrite ⟨port, none, BitVec.ofNat 20 x.1, 8⟩ v) s = .next t ∧ t.readReg port x.1 = BitVec.ofNat 64 (field v 0 x.2))
    ∧ (∀ off ∈ [0x10008, 0x20010, 0x80018, 0x90000, 0xB0020], s.readReg port off = 0)
    ∧ (∀ off, 0xC0000 ≤ off ∨ off % 8 ≠ 0 → s.readReg port off = 0)
    ∧ (∀ (off : BitVec 20) size,
      (s.barReads port 0 = true →
        (size = 8 → off.toNat % 8 = 0 → s.readBar0 ⟨port, none, off, size⟩ = some (leBytes 8 (s.readReg port off.toNat).toNat))
        ∧ (size = 4 → off.toNat % 8 = 0 → s.readBar0 ⟨port, none, off, size⟩ = some (leBytes 4 ((s.readReg port off.toNat).toNat % 2 ^ 32)))
        ∧ (size = 4 → off.toNat % 8 = 4 → s.readBar0 ⟨port, none, off, size⟩ = some (leBytes 4 ((s.readReg port (off.toNat - 4)).toNat / 2 ^ 32))))
      ∧ (∀ vf : Option (Fin 128), (s.barReads port (vf.getD 0) = true → (size ≠ 4 ∧ size ≠ 8) ∨ off.toNat % size ≠ 0 → s.readBar0 ⟨port, vf, off, size⟩ = some (List.replicate size 0xFF))
        ∧ (s.barReads port (vf.getD 0) = false → s.readBar0 ⟨port, vf, off, size⟩ = none)))
    ∧ (s.barServes port 0 = false → ∀ a : RegAccess, a.port = port → a.vf = none → exec (.registerWrite a v) s = .next s)

/-- Decoding with a block scale (R125). -/
def Obligations.BlockElementsDecode : Prop :=
  ∀ (c raw e : Nat), e < 256 →
    (e = 255 → scaledNum c raw e = .nan)
    ∧ (∀ n m k, e ≠ 255 → numOf c raw = .fin n m k → scaledNum c raw e = .fin n m (k + ((e : Int) - 127)))
    ∧ (numOf c raw = .nan → scaledNum c raw e = .nan)

/-- The pool below the caches (R150, R154).
That writes to a channel out of service are lost is the model's choice (log entry 17). -/
def Obligations.MemoryLinesReadBack : Prop :=
  ∀ (s : State) (line : Nat) (d : Line) (m : BitVec 128) (p : BitVec 2),
    (s.unitUp (s.unitOf line) = true →
      (∀ i, i < 128 → lineByte ((s.writeMem line d m p).memLine line).1 i = if m.getLsbD i then lineByte d i else lineByte (s.memLine line).1 i)
      ∧ (∀ g, g < 2 → ((s.writeMem line d m p).memLine line).2.getLsbD g = (p.getLsbD g || ((s.memLine line).2.getLsbD g && !covers m g))))
    ∧ (∀ k, k ≠ line → (s.writeMem line d m p).memLine k = s.memLine k)
    ∧ (s.unitUp (s.unitOf line) = false → s.writeMem line d m p = s ∧ (s.memLine line).2 = 3)

/-- The queue of commands: first in, first out.
That an empty queue idles is the model's choice (log entry 1). -/
def Obligations.StepRunsTheFront : Prop :=
  (∀ (s : State) (c : Instr) (rest : List Instr), s.pending = c :: rest → step s = exec c { s with pending := rest })
  ∧ (∀ s : State, s.pending = [] → step s = .next s)

/-- The table gives no bits; an XAI word is read by its fields (R53, R55, R93). -/
def Obligations.NoWordSpellsACommand : Prop :=
  (∀ (nbits w : Nat) (s : State), decodeTableWord nbits w = none ∧ s.withFetchWord nbits w = s)
  ∧ (∀ (i j : Issue) (w w2 : Word) (b : BitVec 48), j = { i with pred := ⟨field w 49 3, (bits w 49 3).isLt⟩, pneg := w.getLsbD 48 } → b = bits w 0 48 →
    (14 ≤ field w 60 4 → xaiDecode i w w2 = none)
    ∧ (field w 60 4 = 0 → xaiDecode i w w2 = some (.integerOp j (bits w 52 8) b))
    ∧ (field w 60 4 = 1 → xaiDecode i w w2 = some (.fp32Op j (bits w 52 8) b))
    ∧ (field w 60 4 = 2 → xaiDecode i w w2 = some (.fp64Op j (bits w 52 8) b))
    ∧ (field w 60 4 = 3 → xaiDecode i w w2 = some (.packed16Op j (bits w 52 8) b))
    ∧ (field w 60 4 = 4 → (field w 52 8 = 0 → xaiDecode i w w2 = some (.cvt j b)) ∧ (2 < field w 52 8 → xaiDecode i w w2 = none))
    ∧ (field w 60 4 = 8 → (field w 52 8 = 0 → xaiDecode i w w2 = some (.ld j b)) ∧ (field w 52 8 = 1 → xaiDecode i w w2 = some (.st j b)))
    ∧ (field w 60 4 = 9 → (field w 52 8 = 7 → xaiDecode i w w2 = some (.atomic j .cas b)) ∧ (field w 52 8 = 0x10 → xaiDecode i w w2 = some (.red j .add b)))
    ∧ (field w 60 4 = 10 → (field w 52 8 = 0 → xaiDecode i w w2 = some (.bra j b)) ∧ (field w 52 8 = 4 → xaiDecode i w w2 = some (.exit j b))
      ∧ (6 < field w 52 8 → xaiDecode i w w2 = none))
    ∧ (field w 60 4 = 11 → (field w 52 8 = 0 → xaiDecode i w w2 = some (.barSync j b)) ∧ (field w 52 8 = 0x10 → xaiDecode i w w2 = some (.fence j b)))
    ∧ (field w 60 4 = 12 → field w 52 8 ≠ 0 → xaiDecode i w w2 = none)
    ∧ (field w 60 4 = 13 → (field w 52 8 = 0 → xaiDecode i w w2 = some (.tload j b w2)) ∧ (field w 52 8 = 8 → xaiDecode i w w2 = some (.twait j b w2))))

/-- The state after reset.
That the fuse counters are 0 is the model's choice (log entry 3). -/
def Obligations.ResetLeaves : Prop :=
  let s := State.reset
  s.pow.stage = .unpowered ∧ s.powered = false ∧ s.up = false ∧ s.pending = [] ∧ s.chan.cmds = [] ∧ s.arr = [] ∧ s.memWf = true ∧ s.mem.bytes = []
  ∧ (∀ p, s.plot p = .free) ∧ (∀ p, Tbl.get none s.mem.keys p = none)
  ∧ (Tbl.get PartWays.reset s.mem.ways 0).mask = 0xFFFF ∧ (∀ p, p ≠ 0 → (Tbl.get PartWays.reset s.mem.ways p).mask = 0)
  ∧ s.pow.duty = 64 ∧ s.pow.stageB = false ∧ s.pow.stageC = false
  ∧ (∀ n : Fin 2, (s.port n).ringHoldoff = 100 ∧ (s.port n).ringEnable = false ∧ (s.port n).regs.partBusy = false)
  ∧ s.sec.fuses.ident = 0 ∧ s.sec.fuses.debug = 0

/-- The invariant of the fuses holds at reset (R364).
That the counters start at 0 is the model's choice (log entry 3). -/
def Obligations.FusesBoundedAtReset : Prop := State.reset.sec.fuses.bounded

/-- The invariant of the fuses is kept by every step (R364, R368, R372, R386). -/
def Obligations.FusesStayBounded : Prop :=
  ∀ s t : State, s.sec.fuses.bounded → step s = .next t → t.sec.fuses.bounded

/-- Every step: it goes on, takes one command, and burned fuses stay burned (R364). -/
def Obligations.StepsGoOnAndFusesOnlyRise : Prop :=
  ∀ s : State, ∃ t : State, step s = .next t ∧ t.pending = s.pending.tail ∧ t.sec.fuses.rootHash = s.sec.fuses.rootHash
    ∧ s.sec.fuses.ident ≤ t.sec.fuses.ident ∧ s.sec.fuses.svnSp ≤ t.sec.fuses.svnSp ∧ s.sec.fuses.svnRes ≤ t.sec.fuses.svnRes
    ∧ s.sec.fuses.debug ≤ t.sec.fuses.debug
end

