-- ==== Sys2Proof/Laws/Table.lean ====
section
/-! SUPPORT. Sparse tables: what a key reads as after a write, and that every write keeps the canonical form; the same
of memory. -/

namespace Sys2Proof

variable {α : Type}

theorem Tbl.get_put_same (d : α) (t : Tbl α) (i : Nat) (x : α) : Tbl.get d (Tbl.put t i x) i = x := by
  induction t with
  | nil => simp [Tbl.put, Tbl.get]
  | cons e t ih =>
    obtain ⟨k, v⟩ := e
    unfold Tbl.put
    split
    · simp [Tbl.get]
    · split
      · simp [Tbl.get, *]
      · simp [Tbl.get, ih]; omega

theorem Tbl.get_put_ne (d : α) (t : Tbl α) (i j : Nat) (x : α) (h : j ≠ i) : Tbl.get d (Tbl.put t i x) j = Tbl.get d t j := by
  induction t with
  | nil => simp [Tbl.put, Tbl.get, h.symm]
  | cons e t ih =>
    obtain ⟨k, v⟩ := e
    unfold Tbl.put
    split
    · simp [Tbl.get, h.symm]
    · split
      · subst i; simp [Tbl.get, h.symm]
      · simp [Tbl.get, ih]

theorem Tbl.get_filter_same (d : α) (t : Tbl α) (i : Nat) : Tbl.get d (t.filter (fun e => decide (e.1 ≠ i))) i = d := by
  induction t with
  | nil => rfl
  | cons e t ih =>
    obtain ⟨k, v⟩ := e
    by_cases h : k = i <;> simp_all [Tbl.get]

theorem Tbl.get_filter_ne (d : α) (t : Tbl α) (i j : Nat) (h : j ≠ i) : Tbl.get d (t.filter (fun e => decide (e.1 ≠ i))) j = Tbl.get d t j := by
  induction t with
  | nil => rfl
  | cons e t ih =>
    obtain ⟨k, v⟩ := e
    by_cases hk : k = i <;> by_cases hj : k = j <;> simp_all [Tbl.get]

/-- A key reads as what was written to it. -/
@[simp] theorem Tbl.get_set_same [DecidableEq α] (d : α) (t : Tbl α) (i : Nat) (x : α) : Tbl.get d (Tbl.set d t i x) i = x := by
  unfold Tbl.set
  split
  · subst x; exact Tbl.get_filter_same d t i
  · exact Tbl.get_put_same d t i x

/-- A write leaves every other key. -/
theorem Tbl.get_set_ne [DecidableEq α] (d : α) (t : Tbl α) (i j : Nat) (x : α) (h : j ≠ i) : Tbl.get d (Tbl.set d t i x) j = Tbl.get d t j := by
  unfold Tbl.set
  split
  · exact Tbl.get_filter_ne d t i j h
  · exact Tbl.get_put_ne d t i j x h

/-- What a key reads as after a write. -/
theorem Tbl.get_set [DecidableEq α] (d : α) (t : Tbl α) (i j : Nat) (x : α) : Tbl.get d (Tbl.set d t i x) j = if j = i then x else Tbl.get d t j := by
  split
  · subst j; exact Tbl.get_set_same d t i x
  · rename_i h; exact Tbl.get_set_ne d t i j x h

theorem Tbl.wfFrom_mono [DecidableEq α] (d : α) (t : Tbl α) (lo hi : Nat) (h : lo ≤ hi) (w : Tbl.wfFrom d hi t = true) : Tbl.wfFrom d lo t = true := by
  cases t with
  | nil => rfl
  | cons e t =>
    obtain ⟨k, v⟩ := e
    simp only [Tbl.wfFrom, Bool.and_eq_true, decide_eq_true_eq] at w ⊢
    exact ⟨⟨by omega, w.1.2⟩, w.2⟩

/-- A filter keeps the canonical form. -/
theorem Tbl.wfFrom_filter [DecidableEq α] (d : α) (p : Nat × α → Bool) (t : Tbl α) (lo : Nat) (w : Tbl.wfFrom d lo t = true) :
    Tbl.wfFrom d lo (t.filter p) = true := by
  induction t generalizing lo with
  | nil => rfl
  | cons e t ih =>
    obtain ⟨k, v⟩ := e
    simp only [Tbl.wfFrom, Bool.and_eq_true, decide_eq_true_eq] at w
    by_cases h : p (k, v) = true
    · simp [h, Tbl.wfFrom, w.1, ih _ w.2]
    · rw [List.filter_cons_of_neg h]
      exact Tbl.wfFrom_mono d _ lo (k + 1) (by omega) (ih _ w.2)

theorem Tbl.wfFrom_put [DecidableEq α] (d : α) (t : Tbl α) (lo i : Nat) (x : α) (hx : x ≠ d) (hi : lo ≤ i) (w : Tbl.wfFrom d lo t = true) :
    Tbl.wfFrom d lo (Tbl.put t i x) = true := by
  induction t generalizing lo with
  | nil => simp [Tbl.put, Tbl.wfFrom, hx, hi]
  | cons e t ih =>
    obtain ⟨k, v⟩ := e
    simp only [Tbl.wfFrom, Bool.and_eq_true, decide_eq_true_eq] at w
    unfold Tbl.put
    split
    · simp [Tbl.wfFrom, hx, hi, w]; omega
    · split
      · simp [Tbl.wfFrom, hx, w]
      · simp only [Tbl.wfFrom, Bool.and_eq_true, decide_eq_true_eq]
        exact ⟨w.1, ih _ (by omega) w.2⟩

/-- A write keeps the canonical form. -/
theorem Tbl.wf_set [DecidableEq α] (d : α) (t : Tbl α) (i : Nat) (x : α) (w : Tbl.wf d t = true) : Tbl.wf d (Tbl.set d t i x) = true := by
  unfold Tbl.set Tbl.wf at *
  split
  · exact Tbl.wfFrom_filter d _ t 0 w
  · rename_i h; exact Tbl.wfFrom_put d t 0 i x h (Nat.zero_le _) w

namespace Machine

/-- The bytes of a line that a mask names are written, and no others. -/
theorem memPut_get (d : Line) (m : BitVec 128) (base i n : Nat) (t : Tbl Byte) (a : Nat) :
    Tbl.get 0 (memPut d m base i n t) a = if base + i ≤ a ∧ a < base + i + n ∧ m.getLsbD (a - base) = true then lineByte d (a - base) else Tbl.get 0 t a := by
  induction n generalizing i t with
  | zero => rw [if_neg (by omega)]; rfl
  | succ n ih =>
    unfold memPut
    rw [ih]
    by_cases h : a = base + i
    · subst h
      simp only [Nat.add_sub_cancel_left]
      rw [if_neg (by omega)]
      by_cases hm : m.getLsbD i = true
      · rw [if_pos hm, Tbl.get_set_same, if_pos ⟨by omega, by omega, hm⟩]
      · rw [if_neg hm, if_neg (fun h => hm h.2.2)]
    · have key : (base + (i + 1) ≤ a ∧ a < base + (i + 1) + n ∧ m.getLsbD (a - base) = true) ↔
          (base + i ≤ a ∧ a < base + i + (n + 1) ∧ m.getLsbD (a - base) = true) := by
        constructor <;> rintro ⟨h1, h2, h3⟩ <;> exact ⟨by omega, by omega, h3⟩
      by_cases hm : m.getLsbD i = true
      · rw [if_pos hm, Tbl.get_set_ne _ _ _ _ _ h, if_congr key rfl rfl]
      · rw [if_neg hm, if_congr key rfl rfl]

/-- A write of a line keeps memory's canonical form. -/
theorem memPut_wf (d : Line) (m : BitVec 128) (base i n : Nat) (t : Tbl Byte) (w : Tbl.wf 0 t = true) : Tbl.wf 0 (memPut d m base i n t) = true := by
  induction n generalizing i t with
  | zero => exact w
  | succ n ih => unfold memPut; apply ih; split; exacts [Tbl.wf_set _ _ _ _ w, w]

/-- A write at a channel keeps it. -/
theorem State.writeMem_wf (s : State) (line : Nat) (d : Line) (m : BitVec 128) (p : BitVec 2) (w : s.memWf = true) : (s.writeMem line d m p).memWf = true := by
  unfold State.memWf at *
  simp only [Bool.and_eq_true] at w ⊢
  unfold State.writeMem
  split
  · exact ⟨memPut_wf _ _ _ _ _ _ w.1, Tbl.wf_set _ _ _ _ (Tbl.wf_set _ _ _ _ w.2)⟩
  · exact w

/-- Marking a granule keeps it. -/
theorem State.setPoison_wf (s : State) (g : Nat) (b : Bool) (w : s.memWf = true) : (s.setPoison g b).memWf = true := by
  unfold State.memWf at *
  simp only [Bool.and_eq_true] at w ⊢
  exact ⟨w.1, Tbl.wf_set _ _ _ _ w.2⟩

/-- Zeroing a granted plot keeps it. -/
theorem State.zeroPlot_wf (s : State) (plot : Nat) (w : s.memWf = true) : (s.zeroPlot plot).memWf = true := by
  unfold State.memWf at *
  simp only [Bool.and_eq_true] at w ⊢
  exact ⟨Tbl.wfFrom_filter _ _ _ _ w.1, Tbl.wfFrom_filter _ _ _ _ w.2⟩

/-- Memory at reset has it. -/
theorem reset_memWf : State.reset.memWf = true := rfl

end Machine
end Sys2Proof
end

