-- ==== Sys2Proof/Laws/State.lean ====
section
/-! SUPPORT. Reads after updates of State: for each named update, what each reader then gives. -/

namespace Sys2Proof.Machine

/-! ### The tables that State holds: what is read after a write -/

@[simp] theorem State.array_setArray (s : State) (k : Nat) (a : ArrayState) : (s.setArray k a).array k = a := Tbl.get_set_same _ _ _ _
theorem State.array_setArray_ne (s : State) (k j : Nat) (a : ArrayState) (h : j ≠ k) : (s.setArray k a).array j = s.array j := Tbl.get_set_ne _ _ _ _ _ h
@[simp] theorem State.partition_setPartition (s : State) (p : Fin 16) (x : Partition) : (s.setPartition p x).partition p = x := Tbl.get_set_same _ _ _ _
theorem State.partition_setPartition_ne (s : State) (p q : Fin 16) (x : Partition) (h : q ≠ p) : (s.setPartition p x).partition q = s.partition q :=
  Tbl.get_set_ne _ _ _ _ _ (fun e => h (Fin.ext e))
@[simp] theorem State.port_setPort (s : State) (n : Fin 2) (x : PortState) : (s.setPort n x).port n = x := by
  unfold State.setPort State.port; split <;> simp [*]
theorem State.port_setPort_ne (s : State) (n m : Fin 2) (x : PortState) (h : m ≠ n) : (s.setPort n x).port m = s.port m := by
  fin_cases n <;> fin_cases m <;> first | exact absurd rfl h | rfl
theorem fnKey_ne (p q : Fin 2) (f g : Fin 128) (h : ¬ (q = p ∧ g = f)) : fnKey q g ≠ fnKey p f := by
  unfold fnKey; intro e; apply h; constructor <;> apply Fin.ext <;> omega
@[simp] theorem State.fn_setFn (s : State) (p : Fin 2) (f : Fin 128) (x : FnState) : (s.setFn p f x).fn p f = x := Tbl.get_set_same _ _ _ _
theorem State.fn_setFn_ne (s : State) (p q : Fin 2) (f g : Fin 128) (x : FnState) (h : ¬ (q = p ∧ g = f)) : (s.setFn p f x).fn q g = s.fn q g :=
  Tbl.get_set_ne _ _ _ _ _ (fnKey_ne p q f g h)
@[simp] theorem State.entry_setEntry (s : State) (c : Fin 3072) (e : BitVec 512) : (s.setEntry c e).entry c = e := Tbl.get_set_same _ _ _ _
theorem State.entry_setEntry_ne (s : State) (c d : Fin 3072) (e : BitVec 512) (h : d ≠ c) : (s.setEntry c e).entry d = s.entry d :=
  Tbl.get_set_ne _ _ _ _ _ (fun x => h (Fin.ext x))
@[simp] theorem State.dyn_setDyn (s : State) (c : Fin 3072) (e : ChanDyn) : (s.setDyn c e).dyn c = e := Tbl.get_set_same _ _ _ _
theorem State.dyn_setDyn_ne (s : State) (c d : Fin 3072) (e : ChanDyn) (h : d ≠ c) : (s.setDyn c e).dyn d = s.dyn d :=
  Tbl.get_set_ne _ _ _ _ _ (fun x => h (Fin.ext x))
@[simp] theorem State.lp_setLp (s : State) (n : Nat) (x : LinkPort) : (s.setLp n x).lp n = x := Tbl.get_set_same _ _ _ _
theorem State.lp_setLp_ne (s : State) (n m : Nat) (x : LinkPort) (h : m ≠ n) : (s.setLp n x).lp m = s.lp m := Tbl.get_set_ne _ _ _ _ _ h
@[simp] theorem State.slot_setSlot (s : State) (n : Nat) (x : SlotState) : (s.setSlot n x).slot n = x := Tbl.get_set_same _ _ _ _
theorem State.slot_setSlot_ne (s : State) (n m : Nat) (x : SlotState) (h : m ≠ n) : (s.setSlot n x).slot m = s.slot m := Tbl.get_set_ne _ _ _ _ _ h
@[simp] theorem State.core_setCore (s : State) (n : Nat) (x : CoreState) : (s.setCore n x).core n = x := Tbl.get_set_same _ _ _ _
theorem State.core_setCore_ne (s : State) (n m : Nat) (x : CoreState) (h : m ≠ n) : (s.setCore n x).core m = s.core m := Tbl.get_set_ne _ _ _ _ _ h
@[simp] theorem State.dieState_setDie (s : State) (n : Nat) (x : DieState) : (s.setDie n x).dieState n = x := Tbl.get_set_same _ _ _ _
theorem State.dieState_setDie_ne (s : State) (n m : Nat) (x : DieState) (h : m ≠ n) : (s.setDie n x).dieState m = s.dieState m := Tbl.get_set_ne _ _ _ _ _ h
@[simp] theorem State.domain_setDomain (s : State) (n : Nat) (x : Domain) : (s.setDomain n x).domain n = x := Tbl.get_set_same _ _ _ _
theorem State.domain_setDomain_ne (s : State) (n m : Nat) (x : Domain) (h : m ≠ n) : (s.setDomain n x).domain m = s.domain m := Tbl.get_set_ne _ _ _ _ _ h
@[simp] theorem State.plot_setPlot (s : State) (n : Nat) (x : PlotHold) : (s.setPlot n x).plot n = x := Tbl.get_set_same _ _ _ _
theorem State.plot_setPlot_ne (s : State) (n m : Nat) (x : PlotHold) (h : m ≠ n) : (s.setPlot n x).plot m = s.plot m := Tbl.get_set_ne _ _ _ _ _ h

/-! ### setArray leaves every part of State but `arr` -/

@[simp] theorem State.setArray_mem (s : State) (k : Nat) (a : ArrayState) : (s.setArray k a).mem = s.mem := rfl
@[simp] theorem State.setArray_chan (s : State) (k : Nat) (a : ArrayState) : (s.setArray k a).chan = s.chan := rfl
@[simp] theorem State.setArray_host (s : State) (k : Nat) (a : ArrayState) : (s.setArray k a).host = s.host := rfl
@[simp] theorem State.setArray_link (s : State) (k : Nat) (a : ArrayState) : (s.setArray k a).link = s.link := rfl
@[simp] theorem State.setArray_sec (s : State) (k : Nat) (a : ArrayState) : (s.setArray k a).sec = s.sec := rfl
@[simp] theorem State.setArray_err (s : State) (k : Nat) (a : ArrayState) : (s.setArray k a).err = s.err := rfl
@[simp] theorem State.setArray_pow (s : State) (k : Nat) (a : ArrayState) : (s.setArray k a).pow = s.pow := rfl
@[simp] theorem State.setArray_atlas (s : State) (k : Nat) (a : ArrayState) : (s.setArray k a).atlas = s.atlas := rfl
@[simp] theorem State.setArray_out (s : State) (k : Nat) (a : ArrayState) : (s.setArray k a).out = s.out := rfl
@[simp] theorem State.setArray_freeCount (s : State) (k : Nat) (a : ArrayState) : (s.setArray k a).freeCount = s.freeCount := rfl
@[simp] theorem State.setArray_pending (s : State) (k : Nat) (a : ArrayState) : (s.setArray k a).pending = s.pending := rfl
@[simp] theorem State.setArray_energy (s : State) (k : Nat) (a : ArrayState) : (s.setArray k a).energy = s.energy := rfl

/-! ### setPartition leaves every part of State but `chan` -/

@[simp] theorem State.setPartition_arr (s : State) (p : Fin 16) (x : Partition) : (s.setPartition p x).arr = s.arr := rfl
@[simp] theorem State.setPartition_mem (s : State) (p : Fin 16) (x : Partition) : (s.setPartition p x).mem = s.mem := rfl
@[simp] theorem State.setPartition_host (s : State) (p : Fin 16) (x : Partition) : (s.setPartition p x).host = s.host := rfl
@[simp] theorem State.setPartition_link (s : State) (p : Fin 16) (x : Partition) : (s.setPartition p x).link = s.link := rfl
@[simp] theorem State.setPartition_sec (s : State) (p : Fin 16) (x : Partition) : (s.setPartition p x).sec = s.sec := rfl
@[simp] theorem State.setPartition_err (s : State) (p : Fin 16) (x : Partition) : (s.setPartition p x).err = s.err := rfl
@[simp] theorem State.setPartition_pow (s : State) (p : Fin 16) (x : Partition) : (s.setPartition p x).pow = s.pow := rfl
@[simp] theorem State.setPartition_atlas (s : State) (p : Fin 16) (x : Partition) : (s.setPartition p x).atlas = s.atlas := rfl
@[simp] theorem State.setPartition_out (s : State) (p : Fin 16) (x : Partition) : (s.setPartition p x).out = s.out := rfl
@[simp] theorem State.setPartition_freeCount (s : State) (p : Fin 16) (x : Partition) : (s.setPartition p x).freeCount = s.freeCount := rfl
@[simp] theorem State.setPartition_pending (s : State) (p : Fin 16) (x : Partition) : (s.setPartition p x).pending = s.pending := rfl
@[simp] theorem State.setPartition_energy (s : State) (p : Fin 16) (x : Partition) : (s.setPartition p x).energy = s.energy := rfl

/-! ### setFn leaves every part of State but `host` -/

@[simp] theorem State.setFn_arr (s : State) (p : Fin 2) (f : Fin 128) (x : FnState) : (s.setFn p f x).arr = s.arr := rfl
@[simp] theorem State.setFn_mem (s : State) (p : Fin 2) (f : Fin 128) (x : FnState) : (s.setFn p f x).mem = s.mem := rfl
@[simp] theorem State.setFn_chan (s : State) (p : Fin 2) (f : Fin 128) (x : FnState) : (s.setFn p f x).chan = s.chan := rfl
@[simp] theorem State.setFn_link (s : State) (p : Fin 2) (f : Fin 128) (x : FnState) : (s.setFn p f x).link = s.link := rfl
@[simp] theorem State.setFn_sec (s : State) (p : Fin 2) (f : Fin 128) (x : FnState) : (s.setFn p f x).sec = s.sec := rfl
@[simp] theorem State.setFn_err (s : State) (p : Fin 2) (f : Fin 128) (x : FnState) : (s.setFn p f x).err = s.err := rfl
@[simp] theorem State.setFn_pow (s : State) (p : Fin 2) (f : Fin 128) (x : FnState) : (s.setFn p f x).pow = s.pow := rfl
@[simp] theorem State.setFn_atlas (s : State) (p : Fin 2) (f : Fin 128) (x : FnState) : (s.setFn p f x).atlas = s.atlas := rfl
@[simp] theorem State.setFn_out (s : State) (p : Fin 2) (f : Fin 128) (x : FnState) : (s.setFn p f x).out = s.out := rfl
@[simp] theorem State.setFn_freeCount (s : State) (p : Fin 2) (f : Fin 128) (x : FnState) : (s.setFn p f x).freeCount = s.freeCount := rfl
@[simp] theorem State.setFn_pending (s : State) (p : Fin 2) (f : Fin 128) (x : FnState) : (s.setFn p f x).pending = s.pending := rfl
@[simp] theorem State.setFn_energy (s : State) (p : Fin 2) (f : Fin 128) (x : FnState) : (s.setFn p f x).energy = s.energy := rfl

/-! ### setEntry leaves every part of State but `chan`, and the memory that holds the channel table -/

@[simp] theorem State.setEntry_arr (s : State) (c : Fin 3072) (e : BitVec 512) : (s.setEntry c e).arr = s.arr := rfl
@[simp] theorem State.setEntry_host (s : State) (c : Fin 3072) (e : BitVec 512) : (s.setEntry c e).host = s.host := rfl
@[simp] theorem State.setEntry_link (s : State) (c : Fin 3072) (e : BitVec 512) : (s.setEntry c e).link = s.link := rfl
@[simp] theorem State.setEntry_sec (s : State) (c : Fin 3072) (e : BitVec 512) : (s.setEntry c e).sec = s.sec := rfl
@[simp] theorem State.setEntry_err (s : State) (c : Fin 3072) (e : BitVec 512) : (s.setEntry c e).err = s.err := rfl
@[simp] theorem State.setEntry_pow (s : State) (c : Fin 3072) (e : BitVec 512) : (s.setEntry c e).pow = s.pow := rfl
@[simp] theorem State.setEntry_atlas (s : State) (c : Fin 3072) (e : BitVec 512) : (s.setEntry c e).atlas = s.atlas := rfl
@[simp] theorem State.setEntry_out (s : State) (c : Fin 3072) (e : BitVec 512) : (s.setEntry c e).out = s.out := rfl
@[simp] theorem State.setEntry_freeCount (s : State) (c : Fin 3072) (e : BitVec 512) : (s.setEntry c e).freeCount = s.freeCount := rfl
@[simp] theorem State.setEntry_pending (s : State) (c : Fin 3072) (e : BitVec 512) : (s.setEntry c e).pending = s.pending := rfl
@[simp] theorem State.setEntry_energy (s : State) (c : Fin 3072) (e : BitVec 512) : (s.setEntry c e).energy = s.energy := rfl

/-! ### setDyn leaves every part of State but `chan` -/

@[simp] theorem State.setDyn_arr (s : State) (c : Fin 3072) (e : ChanDyn) : (s.setDyn c e).arr = s.arr := rfl
@[simp] theorem State.setDyn_mem (s : State) (c : Fin 3072) (e : ChanDyn) : (s.setDyn c e).mem = s.mem := rfl
@[simp] theorem State.setDyn_host (s : State) (c : Fin 3072) (e : ChanDyn) : (s.setDyn c e).host = s.host := rfl
@[simp] theorem State.setDyn_link (s : State) (c : Fin 3072) (e : ChanDyn) : (s.setDyn c e).link = s.link := rfl
@[simp] theorem State.setDyn_sec (s : State) (c : Fin 3072) (e : ChanDyn) : (s.setDyn c e).sec = s.sec := rfl
@[simp] theorem State.setDyn_err (s : State) (c : Fin 3072) (e : ChanDyn) : (s.setDyn c e).err = s.err := rfl
@[simp] theorem State.setDyn_pow (s : State) (c : Fin 3072) (e : ChanDyn) : (s.setDyn c e).pow = s.pow := rfl
@[simp] theorem State.setDyn_atlas (s : State) (c : Fin 3072) (e : ChanDyn) : (s.setDyn c e).atlas = s.atlas := rfl
@[simp] theorem State.setDyn_out (s : State) (c : Fin 3072) (e : ChanDyn) : (s.setDyn c e).out = s.out := rfl
@[simp] theorem State.setDyn_freeCount (s : State) (c : Fin 3072) (e : ChanDyn) : (s.setDyn c e).freeCount = s.freeCount := rfl
@[simp] theorem State.setDyn_pending (s : State) (c : Fin 3072) (e : ChanDyn) : (s.setDyn c e).pending = s.pending := rfl
@[simp] theorem State.setDyn_energy (s : State) (c : Fin 3072) (e : ChanDyn) : (s.setDyn c e).energy = s.energy := rfl

/-! ### setLp leaves every part of State but `link` -/

@[simp] theorem State.setLp_arr (s : State) (n : Nat) (x : LinkPort) : (s.setLp n x).arr = s.arr := rfl
@[simp] theorem State.setLp_mem (s : State) (n : Nat) (x : LinkPort) : (s.setLp n x).mem = s.mem := rfl
@[simp] theorem State.setLp_chan (s : State) (n : Nat) (x : LinkPort) : (s.setLp n x).chan = s.chan := rfl
@[simp] theorem State.setLp_host (s : State) (n : Nat) (x : LinkPort) : (s.setLp n x).host = s.host := rfl
@[simp] theorem State.setLp_sec (s : State) (n : Nat) (x : LinkPort) : (s.setLp n x).sec = s.sec := rfl
@[simp] theorem State.setLp_err (s : State) (n : Nat) (x : LinkPort) : (s.setLp n x).err = s.err := rfl
@[simp] theorem State.setLp_pow (s : State) (n : Nat) (x : LinkPort) : (s.setLp n x).pow = s.pow := rfl
@[simp] theorem State.setLp_atlas (s : State) (n : Nat) (x : LinkPort) : (s.setLp n x).atlas = s.atlas := rfl
@[simp] theorem State.setLp_out (s : State) (n : Nat) (x : LinkPort) : (s.setLp n x).out = s.out := rfl
@[simp] theorem State.setLp_freeCount (s : State) (n : Nat) (x : LinkPort) : (s.setLp n x).freeCount = s.freeCount := rfl
@[simp] theorem State.setLp_pending (s : State) (n : Nat) (x : LinkPort) : (s.setLp n x).pending = s.pending := rfl
@[simp] theorem State.setLp_energy (s : State) (n : Nat) (x : LinkPort) : (s.setLp n x).energy = s.energy := rfl

/-! ### setSlot leaves every part of State but `atlas` -/

@[simp] theorem State.setSlot_arr (s : State) (n : Nat) (x : SlotState) : (s.setSlot n x).arr = s.arr := rfl
@[simp] theorem State.setSlot_mem (s : State) (n : Nat) (x : SlotState) : (s.setSlot n x).mem = s.mem := rfl
@[simp] theorem State.setSlot_chan (s : State) (n : Nat) (x : SlotState) : (s.setSlot n x).chan = s.chan := rfl
@[simp] theorem State.setSlot_host (s : State) (n : Nat) (x : SlotState) : (s.setSlot n x).host = s.host := rfl
@[simp] theorem State.setSlot_link (s : State) (n : Nat) (x : SlotState) : (s.setSlot n x).link = s.link := rfl
@[simp] theorem State.setSlot_sec (s : State) (n : Nat) (x : SlotState) : (s.setSlot n x).sec = s.sec := rfl
@[simp] theorem State.setSlot_err (s : State) (n : Nat) (x : SlotState) : (s.setSlot n x).err = s.err := rfl
@[simp] theorem State.setSlot_pow (s : State) (n : Nat) (x : SlotState) : (s.setSlot n x).pow = s.pow := rfl
@[simp] theorem State.setSlot_out (s : State) (n : Nat) (x : SlotState) : (s.setSlot n x).out = s.out := rfl
@[simp] theorem State.setSlot_freeCount (s : State) (n : Nat) (x : SlotState) : (s.setSlot n x).freeCount = s.freeCount := rfl
@[simp] theorem State.setSlot_pending (s : State) (n : Nat) (x : SlotState) : (s.setSlot n x).pending = s.pending := rfl
@[simp] theorem State.setSlot_energy (s : State) (n : Nat) (x : SlotState) : (s.setSlot n x).energy = s.energy := rfl

/-! ### setCore leaves every part of State but `atlas` -/

@[simp] theorem State.setCore_arr (s : State) (n : Nat) (x : CoreState) : (s.setCore n x).arr = s.arr := rfl
@[simp] theorem State.setCore_mem (s : State) (n : Nat) (x : CoreState) : (s.setCore n x).mem = s.mem := rfl
@[simp] theorem State.setCore_chan (s : State) (n : Nat) (x : CoreState) : (s.setCore n x).chan = s.chan := rfl
@[simp] theorem State.setCore_host (s : State) (n : Nat) (x : CoreState) : (s.setCore n x).host = s.host := rfl
@[simp] theorem State.setCore_link (s : State) (n : Nat) (x : CoreState) : (s.setCore n x).link = s.link := rfl
@[simp] theorem State.setCore_sec (s : State) (n : Nat) (x : CoreState) : (s.setCore n x).sec = s.sec := rfl
@[simp] theorem State.setCore_err (s : State) (n : Nat) (x : CoreState) : (s.setCore n x).err = s.err := rfl
@[simp] theorem State.setCore_pow (s : State) (n : Nat) (x : CoreState) : (s.setCore n x).pow = s.pow := rfl
@[simp] theorem State.setCore_out (s : State) (n : Nat) (x : CoreState) : (s.setCore n x).out = s.out := rfl
@[simp] theorem State.setCore_freeCount (s : State) (n : Nat) (x : CoreState) : (s.setCore n x).freeCount = s.freeCount := rfl
@[simp] theorem State.setCore_pending (s : State) (n : Nat) (x : CoreState) : (s.setCore n x).pending = s.pending := rfl
@[simp] theorem State.setCore_energy (s : State) (n : Nat) (x : CoreState) : (s.setCore n x).energy = s.energy := rfl

/-! ### setDie leaves every part of State but `link` -/

@[simp] theorem State.setDie_arr (s : State) (n : Nat) (x : DieState) : (s.setDie n x).arr = s.arr := rfl
@[simp] theorem State.setDie_mem (s : State) (n : Nat) (x : DieState) : (s.setDie n x).mem = s.mem := rfl
@[simp] theorem State.setDie_chan (s : State) (n : Nat) (x : DieState) : (s.setDie n x).chan = s.chan := rfl
@[simp] theorem State.setDie_host (s : State) (n : Nat) (x : DieState) : (s.setDie n x).host = s.host := rfl
@[simp] theorem State.setDie_sec (s : State) (n : Nat) (x : DieState) : (s.setDie n x).sec = s.sec := rfl
@[simp] theorem State.setDie_err (s : State) (n : Nat) (x : DieState) : (s.setDie n x).err = s.err := rfl
@[simp] theorem State.setDie_pow (s : State) (n : Nat) (x : DieState) : (s.setDie n x).pow = s.pow := rfl
@[simp] theorem State.setDie_atlas (s : State) (n : Nat) (x : DieState) : (s.setDie n x).atlas = s.atlas := rfl
@[simp] theorem State.setDie_out (s : State) (n : Nat) (x : DieState) : (s.setDie n x).out = s.out := rfl
@[simp] theorem State.setDie_freeCount (s : State) (n : Nat) (x : DieState) : (s.setDie n x).freeCount = s.freeCount := rfl
@[simp] theorem State.setDie_pending (s : State) (n : Nat) (x : DieState) : (s.setDie n x).pending = s.pending := rfl
@[simp] theorem State.setDie_energy (s : State) (n : Nat) (x : DieState) : (s.setDie n x).energy = s.energy := rfl

/-! ### setDomain leaves every part of State but `pow` -/

@[simp] theorem State.setDomain_arr (s : State) (n : Nat) (x : Domain) : (s.setDomain n x).arr = s.arr := rfl
@[simp] theorem State.setDomain_mem (s : State) (n : Nat) (x : Domain) : (s.setDomain n x).mem = s.mem := rfl
@[simp] theorem State.setDomain_chan (s : State) (n : Nat) (x : Domain) : (s.setDomain n x).chan = s.chan := rfl
@[simp] theorem State.setDomain_host (s : State) (n : Nat) (x : Domain) : (s.setDomain n x).host = s.host := rfl
@[simp] theorem State.setDomain_link (s : State) (n : Nat) (x : Domain) : (s.setDomain n x).link = s.link := rfl
@[simp] theorem State.setDomain_sec (s : State) (n : Nat) (x : Domain) : (s.setDomain n x).sec = s.sec := rfl
@[simp] theorem State.setDomain_err (s : State) (n : Nat) (x : Domain) : (s.setDomain n x).err = s.err := rfl
@[simp] theorem State.setDomain_atlas (s : State) (n : Nat) (x : Domain) : (s.setDomain n x).atlas = s.atlas := rfl
@[simp] theorem State.setDomain_out (s : State) (n : Nat) (x : Domain) : (s.setDomain n x).out = s.out := rfl
@[simp] theorem State.setDomain_freeCount (s : State) (n : Nat) (x : Domain) : (s.setDomain n x).freeCount = s.freeCount := rfl
@[simp] theorem State.setDomain_pending (s : State) (n : Nat) (x : Domain) : (s.setDomain n x).pending = s.pending := rfl
@[simp] theorem State.setDomain_energy (s : State) (n : Nat) (x : Domain) : (s.setDomain n x).energy = s.energy := rfl

/-! ### setPlot leaves every part of State but `mem` -/

@[simp] theorem State.setPlot_arr (s : State) (n : Nat) (x : PlotHold) : (s.setPlot n x).arr = s.arr := rfl
@[simp] theorem State.setPlot_chan (s : State) (n : Nat) (x : PlotHold) : (s.setPlot n x).chan = s.chan := rfl
@[simp] theorem State.setPlot_host (s : State) (n : Nat) (x : PlotHold) : (s.setPlot n x).host = s.host := rfl
@[simp] theorem State.setPlot_link (s : State) (n : Nat) (x : PlotHold) : (s.setPlot n x).link = s.link := rfl
@[simp] theorem State.setPlot_sec (s : State) (n : Nat) (x : PlotHold) : (s.setPlot n x).sec = s.sec := rfl
@[simp] theorem State.setPlot_err (s : State) (n : Nat) (x : PlotHold) : (s.setPlot n x).err = s.err := rfl
@[simp] theorem State.setPlot_pow (s : State) (n : Nat) (x : PlotHold) : (s.setPlot n x).pow = s.pow := rfl
@[simp] theorem State.setPlot_atlas (s : State) (n : Nat) (x : PlotHold) : (s.setPlot n x).atlas = s.atlas := rfl
@[simp] theorem State.setPlot_out (s : State) (n : Nat) (x : PlotHold) : (s.setPlot n x).out = s.out := rfl
@[simp] theorem State.setPlot_freeCount (s : State) (n : Nat) (x : PlotHold) : (s.setPlot n x).freeCount = s.freeCount := rfl
@[simp] theorem State.setPlot_pending (s : State) (n : Nat) (x : PlotHold) : (s.setPlot n x).pending = s.pending := rfl
@[simp] theorem State.setPlot_energy (s : State) (n : Nat) (x : PlotHold) : (s.setPlot n x).energy = s.energy := rfl

/-! ### setCmd leaves every part of State but `chan` -/

@[simp] theorem State.setCmd_arr (s : State) (x : Cmd) : (s.setCmd x).arr = s.arr := rfl
@[simp] theorem State.setCmd_mem (s : State) (x : Cmd) : (s.setCmd x).mem = s.mem := rfl
@[simp] theorem State.setCmd_host (s : State) (x : Cmd) : (s.setCmd x).host = s.host := rfl
@[simp] theorem State.setCmd_link (s : State) (x : Cmd) : (s.setCmd x).link = s.link := rfl
@[simp] theorem State.setCmd_sec (s : State) (x : Cmd) : (s.setCmd x).sec = s.sec := rfl
@[simp] theorem State.setCmd_err (s : State) (x : Cmd) : (s.setCmd x).err = s.err := rfl
@[simp] theorem State.setCmd_pow (s : State) (x : Cmd) : (s.setCmd x).pow = s.pow := rfl
@[simp] theorem State.setCmd_atlas (s : State) (x : Cmd) : (s.setCmd x).atlas = s.atlas := rfl
@[simp] theorem State.setCmd_out (s : State) (x : Cmd) : (s.setCmd x).out = s.out := rfl
@[simp] theorem State.setCmd_freeCount (s : State) (x : Cmd) : (s.setCmd x).freeCount = s.freeCount := rfl
@[simp] theorem State.setCmd_pending (s : State) (x : Cmd) : (s.setCmd x).pending = s.pending := rfl
@[simp] theorem State.setCmd_energy (s : State) (x : Cmd) : (s.setCmd x).energy = s.energy := rfl

/-! ### dropCmd leaves every part of State but `chan` -/

@[simp] theorem State.dropCmd_arr (s : State) (c : CmdRef) : (s.dropCmd c).arr = s.arr := rfl
@[simp] theorem State.dropCmd_mem (s : State) (c : CmdRef) : (s.dropCmd c).mem = s.mem := rfl
@[simp] theorem State.dropCmd_host (s : State) (c : CmdRef) : (s.dropCmd c).host = s.host := rfl
@[simp] theorem State.dropCmd_link (s : State) (c : CmdRef) : (s.dropCmd c).link = s.link := rfl
@[simp] theorem State.dropCmd_sec (s : State) (c : CmdRef) : (s.dropCmd c).sec = s.sec := rfl
@[simp] theorem State.dropCmd_err (s : State) (c : CmdRef) : (s.dropCmd c).err = s.err := rfl
@[simp] theorem State.dropCmd_pow (s : State) (c : CmdRef) : (s.dropCmd c).pow = s.pow := rfl
@[simp] theorem State.dropCmd_atlas (s : State) (c : CmdRef) : (s.dropCmd c).atlas = s.atlas := rfl
@[simp] theorem State.dropCmd_out (s : State) (c : CmdRef) : (s.dropCmd c).out = s.out := rfl
@[simp] theorem State.dropCmd_freeCount (s : State) (c : CmdRef) : (s.dropCmd c).freeCount = s.freeCount := rfl
@[simp] theorem State.dropCmd_pending (s : State) (c : CmdRef) : (s.dropCmd c).pending = s.pending := rfl
@[simp] theorem State.dropCmd_energy (s : State) (c : CmdRef) : (s.dropCmd c).energy = s.energy := rfl

/-! ### emit leaves every part of State but `out` -/

@[simp] theorem State.emit_arr (s : State) (o : Out) : (s.emit o).arr = s.arr := rfl
@[simp] theorem State.emit_mem (s : State) (o : Out) : (s.emit o).mem = s.mem := rfl
@[simp] theorem State.emit_chan (s : State) (o : Out) : (s.emit o).chan = s.chan := rfl
@[simp] theorem State.emit_host (s : State) (o : Out) : (s.emit o).host = s.host := rfl
@[simp] theorem State.emit_link (s : State) (o : Out) : (s.emit o).link = s.link := rfl
@[simp] theorem State.emit_sec (s : State) (o : Out) : (s.emit o).sec = s.sec := rfl
@[simp] theorem State.emit_err (s : State) (o : Out) : (s.emit o).err = s.err := rfl
@[simp] theorem State.emit_pow (s : State) (o : Out) : (s.emit o).pow = s.pow := rfl
@[simp] theorem State.emit_atlas (s : State) (o : Out) : (s.emit o).atlas = s.atlas := rfl
@[simp] theorem State.emit_freeCount (s : State) (o : Out) : (s.emit o).freeCount = s.freeCount := rfl
@[simp] theorem State.emit_pending (s : State) (o : Out) : (s.emit o).pending = s.pending := rfl
@[simp] theorem State.emit_energy (s : State) (o : Out) : (s.emit o).energy = s.energy := rfl

/-! ### report leaves every part of State but `err` -/

@[simp] theorem State.report_arr (s : State) (r : Report) : (s.report r).arr = s.arr := rfl
@[simp] theorem State.report_mem (s : State) (r : Report) : (s.report r).mem = s.mem := rfl
@[simp] theorem State.report_chan (s : State) (r : Report) : (s.report r).chan = s.chan := rfl
@[simp] theorem State.report_host (s : State) (r : Report) : (s.report r).host = s.host := rfl
@[simp] theorem State.report_link (s : State) (r : Report) : (s.report r).link = s.link := rfl
@[simp] theorem State.report_sec (s : State) (r : Report) : (s.report r).sec = s.sec := rfl
@[simp] theorem State.report_pow (s : State) (r : Report) : (s.report r).pow = s.pow := rfl
@[simp] theorem State.report_atlas (s : State) (r : Report) : (s.report r).atlas = s.atlas := rfl
@[simp] theorem State.report_out (s : State) (r : Report) : (s.report r).out = s.out := rfl
@[simp] theorem State.report_freeCount (s : State) (r : Report) : (s.report r).freeCount = s.freeCount := rfl
@[simp] theorem State.report_pending (s : State) (r : Report) : (s.report r).pending = s.pending := rfl
@[simp] theorem State.report_energy (s : State) (r : Report) : (s.report r).energy = s.energy := rfl

/-! ### setPoison leaves every part of State but `mem` -/

@[simp] theorem State.setPoison_arr (s : State) (g : Nat) (b : Bool) : (s.setPoison g b).arr = s.arr := rfl
@[simp] theorem State.setPoison_chan (s : State) (g : Nat) (b : Bool) : (s.setPoison g b).chan = s.chan := rfl
@[simp] theorem State.setPoison_host (s : State) (g : Nat) (b : Bool) : (s.setPoison g b).host = s.host := rfl
@[simp] theorem State.setPoison_link (s : State) (g : Nat) (b : Bool) : (s.setPoison g b).link = s.link := rfl
@[simp] theorem State.setPoison_sec (s : State) (g : Nat) (b : Bool) : (s.setPoison g b).sec = s.sec := rfl
@[simp] theorem State.setPoison_err (s : State) (g : Nat) (b : Bool) : (s.setPoison g b).err = s.err := rfl
@[simp] theorem State.setPoison_pow (s : State) (g : Nat) (b : Bool) : (s.setPoison g b).pow = s.pow := rfl
@[simp] theorem State.setPoison_atlas (s : State) (g : Nat) (b : Bool) : (s.setPoison g b).atlas = s.atlas := rfl
@[simp] theorem State.setPoison_out (s : State) (g : Nat) (b : Bool) : (s.setPoison g b).out = s.out := rfl
@[simp] theorem State.setPoison_freeCount (s : State) (g : Nat) (b : Bool) : (s.setPoison g b).freeCount = s.freeCount := rfl
@[simp] theorem State.setPoison_pending (s : State) (g : Nat) (b : Bool) : (s.setPoison g b).pending = s.pending := rfl
@[simp] theorem State.setPoison_energy (s : State) (g : Nat) (b : Bool) : (s.setPoison g b).energy = s.energy := rfl

/-! ### setPort leaves every part of State but `host` -/

@[simp] theorem State.setPort_arr (s : State) (n : Fin 2) (x : PortState) : (s.setPort n x).arr = s.arr := by unfold State.setPort; split <;> rfl
@[simp] theorem State.setPort_mem (s : State) (n : Fin 2) (x : PortState) : (s.setPort n x).mem = s.mem := by unfold State.setPort; split <;> rfl
@[simp] theorem State.setPort_chan (s : State) (n : Fin 2) (x : PortState) : (s.setPort n x).chan = s.chan := by unfold State.setPort; split <;> rfl
@[simp] theorem State.setPort_link (s : State) (n : Fin 2) (x : PortState) : (s.setPort n x).link = s.link := by unfold State.setPort; split <;> rfl
@[simp] theorem State.setPort_sec (s : State) (n : Fin 2) (x : PortState) : (s.setPort n x).sec = s.sec := by unfold State.setPort; split <;> rfl
@[simp] theorem State.setPort_err (s : State) (n : Fin 2) (x : PortState) : (s.setPort n x).err = s.err := by unfold State.setPort; split <;> rfl
@[simp] theorem State.setPort_pow (s : State) (n : Fin 2) (x : PortState) : (s.setPort n x).pow = s.pow := by unfold State.setPort; split <;> rfl
@[simp] theorem State.setPort_atlas (s : State) (n : Fin 2) (x : PortState) : (s.setPort n x).atlas = s.atlas := by unfold State.setPort; split <;> rfl
@[simp] theorem State.setPort_out (s : State) (n : Fin 2) (x : PortState) : (s.setPort n x).out = s.out := by unfold State.setPort; split <;> rfl
@[simp] theorem State.setPort_freeCount (s : State) (n : Fin 2) (x : PortState) : (s.setPort n x).freeCount = s.freeCount := by unfold State.setPort; split <;> rfl
@[simp] theorem State.setPort_pending (s : State) (n : Fin 2) (x : PortState) : (s.setPort n x).pending = s.pending := by unfold State.setPort; split <;> rfl
@[simp] theorem State.setPort_energy (s : State) (n : Fin 2) (x : PortState) : (s.setPort n x).energy = s.energy := by unfold State.setPort; split <;> rfl

/-! ### A free value advances its counter and nothing else -/

@[simp] theorem State.freeVal_arr (s : State) (w : Nat) : (s.freeVal w).2.arr = s.arr := rfl
@[simp] theorem State.freeVal_mem (s : State) (w : Nat) : (s.freeVal w).2.mem = s.mem := rfl
@[simp] theorem State.freeVal_chan (s : State) (w : Nat) : (s.freeVal w).2.chan = s.chan := rfl
@[simp] theorem State.freeVal_host (s : State) (w : Nat) : (s.freeVal w).2.host = s.host := rfl
@[simp] theorem State.freeVal_link (s : State) (w : Nat) : (s.freeVal w).2.link = s.link := rfl
@[simp] theorem State.freeVal_sec (s : State) (w : Nat) : (s.freeVal w).2.sec = s.sec := rfl
@[simp] theorem State.freeVal_err (s : State) (w : Nat) : (s.freeVal w).2.err = s.err := rfl
@[simp] theorem State.freeVal_pow (s : State) (w : Nat) : (s.freeVal w).2.pow = s.pow := rfl
@[simp] theorem State.freeVal_atlas (s : State) (w : Nat) : (s.freeVal w).2.atlas = s.atlas := rfl
@[simp] theorem State.freeVal_out (s : State) (w : Nat) : (s.freeVal w).2.out = s.out := rfl
@[simp] theorem State.freeVal_pending (s : State) (w : Nat) : (s.freeVal w).2.pending = s.pending := rfl
@[simp] theorem State.freeVal_energy (s : State) (w : Nat) : (s.freeVal w).2.energy = s.energy := rfl
@[simp] theorem State.freeVal_freeCount (s : State) (w : Nat) : (s.freeVal w).2.freeCount = s.freeCount + 1 := rfl

/-! ### Readers of what an update does not touch -/

@[simp] theorem State.partition_setArray' (s : State) (k : Nat) (a : ArrayState) (q : Fin 16) : (s.setArray k a).partition q = s.partition q := rfl
@[simp] theorem State.port_setArray' (s : State) (k : Nat) (a : ArrayState) (m : Fin 2) : (s.setArray k a).port m = s.port m := rfl
@[simp] theorem State.fn_setArray' (s : State) (k : Nat) (a : ArrayState) (q : Fin 2) (h : Fin 128) : (s.setArray k a).fn q h = s.fn q h := rfl
@[simp] theorem State.entry_setArray' (s : State) (k : Nat) (a : ArrayState) (d : Fin 3072) : (s.setArray k a).entry d = s.entry d := rfl
@[simp] theorem State.dyn_setArray' (s : State) (k : Nat) (a : ArrayState) (d : Fin 3072) : (s.setArray k a).dyn d = s.dyn d := rfl
@[simp] theorem State.lp_setArray' (s : State) (k : Nat) (a : ArrayState) (m : Nat) : (s.setArray k a).lp m = s.lp m := rfl
@[simp] theorem State.slot_setArray' (s : State) (k : Nat) (a : ArrayState) (m : Nat) : (s.setArray k a).slot m = s.slot m := rfl
@[simp] theorem State.core_setArray' (s : State) (k : Nat) (a : ArrayState) (m : Nat) : (s.setArray k a).core m = s.core m := rfl
@[simp] theorem State.dieState_setArray' (s : State) (k : Nat) (a : ArrayState) (m : Nat) : (s.setArray k a).dieState m = s.dieState m := rfl
@[simp] theorem State.domain_setArray' (s : State) (k : Nat) (a : ArrayState) (m : Nat) : (s.setArray k a).domain m = s.domain m := rfl
@[simp] theorem State.plot_setArray' (s : State) (k : Nat) (a : ArrayState) (m : Nat) : (s.setArray k a).plot m = s.plot m := rfl
@[simp] theorem State.cmd_setArray' (s : State) (k : Nat) (a : ArrayState) (ref : CmdRef) : (s.setArray k a).cmd ref = s.cmd ref := rfl
@[simp] theorem State.array_setPartition' (s : State) (p : Fin 16) (x : Partition) (k : Nat) : (s.setPartition p x).array k = s.array k := rfl
@[simp] theorem State.port_setPartition' (s : State) (p : Fin 16) (x : Partition) (m : Fin 2) : (s.setPartition p x).port m = s.port m := rfl
@[simp] theorem State.fn_setPartition' (s : State) (p : Fin 16) (x : Partition) (q : Fin 2) (h : Fin 128) : (s.setPartition p x).fn q h = s.fn q h := rfl
@[simp] theorem State.entry_setPartition' (s : State) (p : Fin 16) (x : Partition) (d : Fin 3072) : (s.setPartition p x).entry d = s.entry d := rfl
@[simp] theorem State.dyn_setPartition' (s : State) (p : Fin 16) (x : Partition) (d : Fin 3072) : (s.setPartition p x).dyn d = s.dyn d := rfl
@[simp] theorem State.lp_setPartition' (s : State) (p : Fin 16) (x : Partition) (m : Nat) : (s.setPartition p x).lp m = s.lp m := rfl
@[simp] theorem State.slot_setPartition' (s : State) (p : Fin 16) (x : Partition) (m : Nat) : (s.setPartition p x).slot m = s.slot m := rfl
@[simp] theorem State.core_setPartition' (s : State) (p : Fin 16) (x : Partition) (m : Nat) : (s.setPartition p x).core m = s.core m := rfl
@[simp] theorem State.dieState_setPartition' (s : State) (p : Fin 16) (x : Partition) (m : Nat) : (s.setPartition p x).dieState m = s.dieState m := rfl
@[simp] theorem State.domain_setPartition' (s : State) (p : Fin 16) (x : Partition) (m : Nat) : (s.setPartition p x).domain m = s.domain m := rfl
@[simp] theorem State.plot_setPartition' (s : State) (p : Fin 16) (x : Partition) (m : Nat) : (s.setPartition p x).plot m = s.plot m := rfl
@[simp] theorem State.cmd_setPartition' (s : State) (p : Fin 16) (x : Partition) (ref : CmdRef) : (s.setPartition p x).cmd ref = s.cmd ref := rfl
@[simp] theorem State.array_setFn' (s : State) (p : Fin 2) (f : Fin 128) (x : FnState) (k : Nat) : (s.setFn p f x).array k = s.array k := rfl
@[simp] theorem State.partition_setFn' (s : State) (p : Fin 2) (f : Fin 128) (x : FnState) (q : Fin 16) : (s.setFn p f x).partition q = s.partition q := rfl
@[simp] theorem State.port_setFn' (s : State) (p : Fin 2) (f : Fin 128) (x : FnState) (m : Fin 2) : (s.setFn p f x).port m = s.port m := rfl
@[simp] theorem State.entry_setFn' (s : State) (p : Fin 2) (f : Fin 128) (x : FnState) (d : Fin 3072) : (s.setFn p f x).entry d = s.entry d := rfl
@[simp] theorem State.dyn_setFn' (s : State) (p : Fin 2) (f : Fin 128) (x : FnState) (d : Fin 3072) : (s.setFn p f x).dyn d = s.dyn d := rfl
@[simp] theorem State.lp_setFn' (s : State) (p : Fin 2) (f : Fin 128) (x : FnState) (m : Nat) : (s.setFn p f x).lp m = s.lp m := rfl
@[simp] theorem State.slot_setFn' (s : State) (p : Fin 2) (f : Fin 128) (x : FnState) (m : Nat) : (s.setFn p f x).slot m = s.slot m := rfl
@[simp] theorem State.core_setFn' (s : State) (p : Fin 2) (f : Fin 128) (x : FnState) (m : Nat) : (s.setFn p f x).core m = s.core m := rfl
@[simp] theorem State.dieState_setFn' (s : State) (p : Fin 2) (f : Fin 128) (x : FnState) (m : Nat) : (s.setFn p f x).dieState m = s.dieState m := rfl
@[simp] theorem State.domain_setFn' (s : State) (p : Fin 2) (f : Fin 128) (x : FnState) (m : Nat) : (s.setFn p f x).domain m = s.domain m := rfl
@[simp] theorem State.plot_setFn' (s : State) (p : Fin 2) (f : Fin 128) (x : FnState) (m : Nat) : (s.setFn p f x).plot m = s.plot m := rfl
@[simp] theorem State.cmd_setFn' (s : State) (p : Fin 2) (f : Fin 128) (x : FnState) (ref : CmdRef) : (s.setFn p f x).cmd ref = s.cmd ref := rfl
@[simp] theorem State.array_setEntry' (s : State) (c : Fin 3072) (e : BitVec 512) (k : Nat) : (s.setEntry c e).array k = s.array k := rfl
@[simp] theorem State.partition_setEntry' (s : State) (c : Fin 3072) (e : BitVec 512) (q : Fin 16) : (s.setEntry c e).partition q = s.partition q := rfl
@[simp] theorem State.port_setEntry' (s : State) (c : Fin 3072) (e : BitVec 512) (m : Fin 2) : (s.setEntry c e).port m = s.port m := rfl
@[simp] theorem State.fn_setEntry' (s : State) (c : Fin 3072) (e : BitVec 512) (q : Fin 2) (h : Fin 128) : (s.setEntry c e).fn q h = s.fn q h := rfl
@[simp] theorem State.dyn_setEntry' (s : State) (c : Fin 3072) (e : BitVec 512) (d : Fin 3072) : (s.setEntry c e).dyn d = s.dyn d := rfl
@[simp] theorem State.lp_setEntry' (s : State) (c : Fin 3072) (e : BitVec 512) (m : Nat) : (s.setEntry c e).lp m = s.lp m := rfl
@[simp] theorem State.slot_setEntry' (s : State) (c : Fin 3072) (e : BitVec 512) (m : Nat) : (s.setEntry c e).slot m = s.slot m := rfl
@[simp] theorem State.core_setEntry' (s : State) (c : Fin 3072) (e : BitVec 512) (m : Nat) : (s.setEntry c e).core m = s.core m := rfl
@[simp] theorem State.dieState_setEntry' (s : State) (c : Fin 3072) (e : BitVec 512) (m : Nat) : (s.setEntry c e).dieState m = s.dieState m := rfl
@[simp] theorem State.domain_setEntry' (s : State) (c : Fin 3072) (e : BitVec 512) (m : Nat) : (s.setEntry c e).domain m = s.domain m := rfl
@[simp] theorem State.cmd_setEntry' (s : State) (c : Fin 3072) (e : BitVec 512) (ref : CmdRef) : (s.setEntry c e).cmd ref = s.cmd ref := rfl
@[simp] theorem State.array_setDyn' (s : State) (c : Fin 3072) (e : ChanDyn) (k : Nat) : (s.setDyn c e).array k = s.array k := rfl
@[simp] theorem State.partition_setDyn' (s : State) (c : Fin 3072) (e : ChanDyn) (q : Fin 16) : (s.setDyn c e).partition q = s.partition q := rfl
@[simp] theorem State.port_setDyn' (s : State) (c : Fin 3072) (e : ChanDyn) (m : Fin 2) : (s.setDyn c e).port m = s.port m := rfl
@[simp] theorem State.fn_setDyn' (s : State) (c : Fin 3072) (e : ChanDyn) (q : Fin 2) (h : Fin 128) : (s.setDyn c e).fn q h = s.fn q h := rfl
@[simp] theorem State.entry_setDyn' (s : State) (c : Fin 3072) (e : ChanDyn) (d : Fin 3072) : (s.setDyn c e).entry d = s.entry d := rfl
@[simp] theorem State.lp_setDyn' (s : State) (c : Fin 3072) (e : ChanDyn) (m : Nat) : (s.setDyn c e).lp m = s.lp m := rfl
@[simp] theorem State.slot_setDyn' (s : State) (c : Fin 3072) (e : ChanDyn) (m : Nat) : (s.setDyn c e).slot m = s.slot m := rfl
@[simp] theorem State.core_setDyn' (s : State) (c : Fin 3072) (e : ChanDyn) (m : Nat) : (s.setDyn c e).core m = s.core m := rfl
@[simp] theorem State.dieState_setDyn' (s : State) (c : Fin 3072) (e : ChanDyn) (m : Nat) : (s.setDyn c e).dieState m = s.dieState m := rfl
@[simp] theorem State.domain_setDyn' (s : State) (c : Fin 3072) (e : ChanDyn) (m : Nat) : (s.setDyn c e).domain m = s.domain m := rfl
@[simp] theorem State.plot_setDyn' (s : State) (c : Fin 3072) (e : ChanDyn) (m : Nat) : (s.setDyn c e).plot m = s.plot m := rfl
@[simp] theorem State.cmd_setDyn' (s : State) (c : Fin 3072) (e : ChanDyn) (ref : CmdRef) : (s.setDyn c e).cmd ref = s.cmd ref := rfl
@[simp] theorem State.array_setLp' (s : State) (n : Nat) (x : LinkPort) (k : Nat) : (s.setLp n x).array k = s.array k := rfl
@[simp] theorem State.partition_setLp' (s : State) (n : Nat) (x : LinkPort) (q : Fin 16) : (s.setLp n x).partition q = s.partition q := rfl
@[simp] theorem State.port_setLp' (s : State) (n : Nat) (x : LinkPort) (m : Fin 2) : (s.setLp n x).port m = s.port m := rfl
@[simp] theorem State.fn_setLp' (s : State) (n : Nat) (x : LinkPort) (q : Fin 2) (h : Fin 128) : (s.setLp n x).fn q h = s.fn q h := rfl
@[simp] theorem State.entry_setLp' (s : State) (n : Nat) (x : LinkPort) (d : Fin 3072) : (s.setLp n x).entry d = s.entry d := rfl
@[simp] theorem State.dyn_setLp' (s : State) (n : Nat) (x : LinkPort) (d : Fin 3072) : (s.setLp n x).dyn d = s.dyn d := rfl
@[simp] theorem State.slot_setLp' (s : State) (n : Nat) (x : LinkPort) (m : Nat) : (s.setLp n x).slot m = s.slot m := rfl
@[simp] theorem State.core_setLp' (s : State) (n : Nat) (x : LinkPort) (m : Nat) : (s.setLp n x).core m = s.core m := rfl
@[simp] theorem State.dieState_setLp' (s : State) (n : Nat) (x : LinkPort) (m : Nat) : (s.setLp n x).dieState m = s.dieState m := rfl
@[simp] theorem State.domain_setLp' (s : State) (n : Nat) (x : LinkPort) (m : Nat) : (s.setLp n x).domain m = s.domain m := rfl
@[simp] theorem State.plot_setLp' (s : State) (n : Nat) (x : LinkPort) (m : Nat) : (s.setLp n x).plot m = s.plot m := rfl
@[simp] theorem State.cmd_setLp' (s : State) (n : Nat) (x : LinkPort) (ref : CmdRef) : (s.setLp n x).cmd ref = s.cmd ref := rfl
@[simp] theorem State.array_setSlot' (s : State) (n : Nat) (x : SlotState) (k : Nat) : (s.setSlot n x).array k = s.array k := rfl
@[simp] theorem State.partition_setSlot' (s : State) (n : Nat) (x : SlotState) (q : Fin 16) : (s.setSlot n x).partition q = s.partition q := rfl
@[simp] theorem State.port_setSlot' (s : State) (n : Nat) (x : SlotState) (m : Fin 2) : (s.setSlot n x).port m = s.port m := rfl
@[simp] theorem State.fn_setSlot' (s : State) (n : Nat) (x : SlotState) (q : Fin 2) (h : Fin 128) : (s.setSlot n x).fn q h = s.fn q h := rfl
@[simp] theorem State.entry_setSlot' (s : State) (n : Nat) (x : SlotState) (d : Fin 3072) : (s.setSlot n x).entry d = s.entry d := rfl
@[simp] theorem State.dyn_setSlot' (s : State) (n : Nat) (x : SlotState) (d : Fin 3072) : (s.setSlot n x).dyn d = s.dyn d := rfl
@[simp] theorem State.lp_setSlot' (s : State) (n : Nat) (x : SlotState) (m : Nat) : (s.setSlot n x).lp m = s.lp m := rfl
@[simp] theorem State.core_setSlot' (s : State) (n : Nat) (x : SlotState) (m : Nat) : (s.setSlot n x).core m = s.core m := rfl
@[simp] theorem State.dieState_setSlot' (s : State) (n : Nat) (x : SlotState) (m : Nat) : (s.setSlot n x).dieState m = s.dieState m := rfl
@[simp] theorem State.domain_setSlot' (s : State) (n : Nat) (x : SlotState) (m : Nat) : (s.setSlot n x).domain m = s.domain m := rfl
@[simp] theorem State.plot_setSlot' (s : State) (n : Nat) (x : SlotState) (m : Nat) : (s.setSlot n x).plot m = s.plot m := rfl
@[simp] theorem State.cmd_setSlot' (s : State) (n : Nat) (x : SlotState) (ref : CmdRef) : (s.setSlot n x).cmd ref = s.cmd ref := rfl
@[simp] theorem State.array_setCore' (s : State) (n : Nat) (x : CoreState) (k : Nat) : (s.setCore n x).array k = s.array k := rfl
@[simp] theorem State.partition_setCore' (s : State) (n : Nat) (x : CoreState) (q : Fin 16) : (s.setCore n x).partition q = s.partition q := rfl
@[simp] theorem State.port_setCore' (s : State) (n : Nat) (x : CoreState) (m : Fin 2) : (s.setCore n x).port m = s.port m := rfl
@[simp] theorem State.fn_setCore' (s : State) (n : Nat) (x : CoreState) (q : Fin 2) (h : Fin 128) : (s.setCore n x).fn q h = s.fn q h := rfl
@[simp] theorem State.entry_setCore' (s : State) (n : Nat) (x : CoreState) (d : Fin 3072) : (s.setCore n x).entry d = s.entry d := rfl
@[simp] theorem State.dyn_setCore' (s : State) (n : Nat) (x : CoreState) (d : Fin 3072) : (s.setCore n x).dyn d = s.dyn d := rfl
@[simp] theorem State.lp_setCore' (s : State) (n : Nat) (x : CoreState) (m : Nat) : (s.setCore n x).lp m = s.lp m := rfl
@[simp] theorem State.slot_setCore' (s : State) (n : Nat) (x : CoreState) (m : Nat) : (s.setCore n x).slot m = s.slot m := rfl
@[simp] theorem State.dieState_setCore' (s : State) (n : Nat) (x : CoreState) (m : Nat) : (s.setCore n x).dieState m = s.dieState m := rfl
@[simp] theorem State.domain_setCore' (s : State) (n : Nat) (x : CoreState) (m : Nat) : (s.setCore n x).domain m = s.domain m := rfl
@[simp] theorem State.plot_setCore' (s : State) (n : Nat) (x : CoreState) (m : Nat) : (s.setCore n x).plot m = s.plot m := rfl
@[simp] theorem State.cmd_setCore' (s : State) (n : Nat) (x : CoreState) (ref : CmdRef) : (s.setCore n x).cmd ref = s.cmd ref := rfl
@[simp] theorem State.array_setDie' (s : State) (n : Nat) (x : DieState) (k : Nat) : (s.setDie n x).array k = s.array k := rfl
@[simp] theorem State.partition_setDie' (s : State) (n : Nat) (x : DieState) (q : Fin 16) : (s.setDie n x).partition q = s.partition q := rfl
@[simp] theorem State.port_setDie' (s : State) (n : Nat) (x : DieState) (m : Fin 2) : (s.setDie n x).port m = s.port m := rfl
@[simp] theorem State.fn_setDie' (s : State) (n : Nat) (x : DieState) (q : Fin 2) (h : Fin 128) : (s.setDie n x).fn q h = s.fn q h := rfl
@[simp] theorem State.entry_setDie' (s : State) (n : Nat) (x : DieState) (d : Fin 3072) : (s.setDie n x).entry d = s.entry d := rfl
@[simp] theorem State.dyn_setDie' (s : State) (n : Nat) (x : DieState) (d : Fin 3072) : (s.setDie n x).dyn d = s.dyn d := rfl
@[simp] theorem State.lp_setDie' (s : State) (n : Nat) (x : DieState) (m : Nat) : (s.setDie n x).lp m = s.lp m := rfl
@[simp] theorem State.slot_setDie' (s : State) (n : Nat) (x : DieState) (m : Nat) : (s.setDie n x).slot m = s.slot m := rfl
@[simp] theorem State.core_setDie' (s : State) (n : Nat) (x : DieState) (m : Nat) : (s.setDie n x).core m = s.core m := rfl
@[simp] theorem State.domain_setDie' (s : State) (n : Nat) (x : DieState) (m : Nat) : (s.setDie n x).domain m = s.domain m := rfl
@[simp] theorem State.plot_setDie' (s : State) (n : Nat) (x : DieState) (m : Nat) : (s.setDie n x).plot m = s.plot m := rfl
@[simp] theorem State.cmd_setDie' (s : State) (n : Nat) (x : DieState) (ref : CmdRef) : (s.setDie n x).cmd ref = s.cmd ref := rfl
@[simp] theorem State.array_setDomain' (s : State) (n : Nat) (x : Domain) (k : Nat) : (s.setDomain n x).array k = s.array k := rfl
@[simp] theorem State.partition_setDomain' (s : State) (n : Nat) (x : Domain) (q : Fin 16) : (s.setDomain n x).partition q = s.partition q := rfl
@[simp] theorem State.port_setDomain' (s : State) (n : Nat) (x : Domain) (m : Fin 2) : (s.setDomain n x).port m = s.port m := rfl
@[simp] theorem State.fn_setDomain' (s : State) (n : Nat) (x : Domain) (q : Fin 2) (h : Fin 128) : (s.setDomain n x).fn q h = s.fn q h := rfl
@[simp] theorem State.entry_setDomain' (s : State) (n : Nat) (x : Domain) (d : Fin 3072) : (s.setDomain n x).entry d = s.entry d := rfl
@[simp] theorem State.dyn_setDomain' (s : State) (n : Nat) (x : Domain) (d : Fin 3072) : (s.setDomain n x).dyn d = s.dyn d := rfl
@[simp] theorem State.lp_setDomain' (s : State) (n : Nat) (x : Domain) (m : Nat) : (s.setDomain n x).lp m = s.lp m := rfl
@[simp] theorem State.slot_setDomain' (s : State) (n : Nat) (x : Domain) (m : Nat) : (s.setDomain n x).slot m = s.slot m := rfl
@[simp] theorem State.core_setDomain' (s : State) (n : Nat) (x : Domain) (m : Nat) : (s.setDomain n x).core m = s.core m := rfl
@[simp] theorem State.dieState_setDomain' (s : State) (n : Nat) (x : Domain) (m : Nat) : (s.setDomain n x).dieState m = s.dieState m := rfl
@[simp] theorem State.plot_setDomain' (s : State) (n : Nat) (x : Domain) (m : Nat) : (s.setDomain n x).plot m = s.plot m := rfl
@[simp] theorem State.cmd_setDomain' (s : State) (n : Nat) (x : Domain) (ref : CmdRef) : (s.setDomain n x).cmd ref = s.cmd ref := rfl
@[simp] theorem State.array_setPlot' (s : State) (n : Nat) (x : PlotHold) (k : Nat) : (s.setPlot n x).array k = s.array k := rfl
@[simp] theorem State.partition_setPlot' (s : State) (n : Nat) (x : PlotHold) (q : Fin 16) : (s.setPlot n x).partition q = s.partition q := rfl
@[simp] theorem State.port_setPlot' (s : State) (n : Nat) (x : PlotHold) (m : Fin 2) : (s.setPlot n x).port m = s.port m := rfl
@[simp] theorem State.fn_setPlot' (s : State) (n : Nat) (x : PlotHold) (q : Fin 2) (h : Fin 128) : (s.setPlot n x).fn q h = s.fn q h := rfl
@[simp] theorem State.entry_setPlot' (s : State) (n : Nat) (x : PlotHold) (d : Fin 3072) : (s.setPlot n x).entry d = s.entry d := rfl
@[simp] theorem State.dyn_setPlot' (s : State) (n : Nat) (x : PlotHold) (d : Fin 3072) : (s.setPlot n x).dyn d = s.dyn d := rfl
@[simp] theorem State.lp_setPlot' (s : State) (n : Nat) (x : PlotHold) (m : Nat) : (s.setPlot n x).lp m = s.lp m := rfl
@[simp] theorem State.slot_setPlot' (s : State) (n : Nat) (x : PlotHold) (m : Nat) : (s.setPlot n x).slot m = s.slot m := rfl
@[simp] theorem State.core_setPlot' (s : State) (n : Nat) (x : PlotHold) (m : Nat) : (s.setPlot n x).core m = s.core m := rfl
@[simp] theorem State.dieState_setPlot' (s : State) (n : Nat) (x : PlotHold) (m : Nat) : (s.setPlot n x).dieState m = s.dieState m := rfl
@[simp] theorem State.domain_setPlot' (s : State) (n : Nat) (x : PlotHold) (m : Nat) : (s.setPlot n x).domain m = s.domain m := rfl
@[simp] theorem State.cmd_setPlot' (s : State) (n : Nat) (x : PlotHold) (ref : CmdRef) : (s.setPlot n x).cmd ref = s.cmd ref := rfl
@[simp] theorem State.array_setCmd' (s : State) (x : Cmd) (k : Nat) : (s.setCmd x).array k = s.array k := rfl
@[simp] theorem State.partition_setCmd' (s : State) (x : Cmd) (q : Fin 16) : (s.setCmd x).partition q = s.partition q := rfl
@[simp] theorem State.port_setCmd' (s : State) (x : Cmd) (m : Fin 2) : (s.setCmd x).port m = s.port m := rfl
@[simp] theorem State.fn_setCmd' (s : State) (x : Cmd) (q : Fin 2) (h : Fin 128) : (s.setCmd x).fn q h = s.fn q h := rfl
@[simp] theorem State.entry_setCmd' (s : State) (x : Cmd) (d : Fin 3072) : (s.setCmd x).entry d = s.entry d := rfl
@[simp] theorem State.dyn_setCmd' (s : State) (x : Cmd) (d : Fin 3072) : (s.setCmd x).dyn d = s.dyn d := rfl
@[simp] theorem State.lp_setCmd' (s : State) (x : Cmd) (m : Nat) : (s.setCmd x).lp m = s.lp m := rfl
@[simp] theorem State.slot_setCmd' (s : State) (x : Cmd) (m : Nat) : (s.setCmd x).slot m = s.slot m := rfl
@[simp] theorem State.core_setCmd' (s : State) (x : Cmd) (m : Nat) : (s.setCmd x).core m = s.core m := rfl
@[simp] theorem State.dieState_setCmd' (s : State) (x : Cmd) (m : Nat) : (s.setCmd x).dieState m = s.dieState m := rfl
@[simp] theorem State.domain_setCmd' (s : State) (x : Cmd) (m : Nat) : (s.setCmd x).domain m = s.domain m := rfl
@[simp] theorem State.plot_setCmd' (s : State) (x : Cmd) (m : Nat) : (s.setCmd x).plot m = s.plot m := rfl
@[simp] theorem State.array_dropCmd' (s : State) (c : CmdRef) (k : Nat) : (s.dropCmd c).array k = s.array k := rfl
@[simp] theorem State.partition_dropCmd' (s : State) (c : CmdRef) (q : Fin 16) : (s.dropCmd c).partition q = s.partition q := rfl
@[simp] theorem State.port_dropCmd' (s : State) (c : CmdRef) (m : Fin 2) : (s.dropCmd c).port m = s.port m := rfl
@[simp] theorem State.fn_dropCmd' (s : State) (c : CmdRef) (q : Fin 2) (h : Fin 128) : (s.dropCmd c).fn q h = s.fn q h := rfl
@[simp] theorem State.entry_dropCmd' (s : State) (c : CmdRef) (d : Fin 3072) : (s.dropCmd c).entry d = s.entry d := rfl
@[simp] theorem State.dyn_dropCmd' (s : State) (c : CmdRef) (d : Fin 3072) : (s.dropCmd c).dyn d = s.dyn d := rfl
@[simp] theorem State.lp_dropCmd' (s : State) (c : CmdRef) (m : Nat) : (s.dropCmd c).lp m = s.lp m := rfl
@[simp] theorem State.slot_dropCmd' (s : State) (c : CmdRef) (m : Nat) : (s.dropCmd c).slot m = s.slot m := rfl
@[simp] theorem State.core_dropCmd' (s : State) (c : CmdRef) (m : Nat) : (s.dropCmd c).core m = s.core m := rfl
@[simp] theorem State.dieState_dropCmd' (s : State) (c : CmdRef) (m : Nat) : (s.dropCmd c).dieState m = s.dieState m := rfl
@[simp] theorem State.domain_dropCmd' (s : State) (c : CmdRef) (m : Nat) : (s.dropCmd c).domain m = s.domain m := rfl
@[simp] theorem State.plot_dropCmd' (s : State) (c : CmdRef) (m : Nat) : (s.dropCmd c).plot m = s.plot m := rfl
@[simp] theorem State.array_emit' (s : State) (o : Out) (k : Nat) : (s.emit o).array k = s.array k := rfl
@[simp] theorem State.partition_emit' (s : State) (o : Out) (q : Fin 16) : (s.emit o).partition q = s.partition q := rfl
@[simp] theorem State.port_emit' (s : State) (o : Out) (m : Fin 2) : (s.emit o).port m = s.port m := rfl
@[simp] theorem State.fn_emit' (s : State) (o : Out) (q : Fin 2) (h : Fin 128) : (s.emit o).fn q h = s.fn q h := rfl
@[simp] theorem State.entry_emit' (s : State) (o : Out) (d : Fin 3072) : (s.emit o).entry d = s.entry d := rfl
@[simp] theorem State.dyn_emit' (s : State) (o : Out) (d : Fin 3072) : (s.emit o).dyn d = s.dyn d := rfl
@[simp] theorem State.lp_emit' (s : State) (o : Out) (m : Nat) : (s.emit o).lp m = s.lp m := rfl
@[simp] theorem State.slot_emit' (s : State) (o : Out) (m : Nat) : (s.emit o).slot m = s.slot m := rfl
@[simp] theorem State.core_emit' (s : State) (o : Out) (m : Nat) : (s.emit o).core m = s.core m := rfl
@[simp] theorem State.dieState_emit' (s : State) (o : Out) (m : Nat) : (s.emit o).dieState m = s.dieState m := rfl
@[simp] theorem State.domain_emit' (s : State) (o : Out) (m : Nat) : (s.emit o).domain m = s.domain m := rfl
@[simp] theorem State.plot_emit' (s : State) (o : Out) (m : Nat) : (s.emit o).plot m = s.plot m := rfl
@[simp] theorem State.cmd_emit' (s : State) (o : Out) (ref : CmdRef) : (s.emit o).cmd ref = s.cmd ref := rfl
@[simp] theorem State.array_report' (s : State) (r : Report) (k : Nat) : (s.report r).array k = s.array k := rfl
@[simp] theorem State.partition_report' (s : State) (r : Report) (q : Fin 16) : (s.report r).partition q = s.partition q := rfl
@[simp] theorem State.port_report' (s : State) (r : Report) (m : Fin 2) : (s.report r).port m = s.port m := rfl
@[simp] theorem State.fn_report' (s : State) (r : Report) (q : Fin 2) (h : Fin 128) : (s.report r).fn q h = s.fn q h := rfl
@[simp] theorem State.entry_report' (s : State) (r : Report) (d : Fin 3072) : (s.report r).entry d = s.entry d := rfl
@[simp] theorem State.dyn_report' (s : State) (r : Report) (d : Fin 3072) : (s.report r).dyn d = s.dyn d := rfl
@[simp] theorem State.lp_report' (s : State) (r : Report) (m : Nat) : (s.report r).lp m = s.lp m := rfl
@[simp] theorem State.slot_report' (s : State) (r : Report) (m : Nat) : (s.report r).slot m = s.slot m := rfl
@[simp] theorem State.core_report' (s : State) (r : Report) (m : Nat) : (s.report r).core m = s.core m := rfl
@[simp] theorem State.dieState_report' (s : State) (r : Report) (m : Nat) : (s.report r).dieState m = s.dieState m := rfl
@[simp] theorem State.domain_report' (s : State) (r : Report) (m : Nat) : (s.report r).domain m = s.domain m := rfl
@[simp] theorem State.plot_report' (s : State) (r : Report) (m : Nat) : (s.report r).plot m = s.plot m := rfl
@[simp] theorem State.cmd_report' (s : State) (r : Report) (ref : CmdRef) : (s.report r).cmd ref = s.cmd ref := rfl
@[simp] theorem State.array_setPoison' (s : State) (g : Nat) (b : Bool) (k : Nat) : (s.setPoison g b).array k = s.array k := rfl
@[simp] theorem State.partition_setPoison' (s : State) (g : Nat) (b : Bool) (q : Fin 16) : (s.setPoison g b).partition q = s.partition q := rfl
@[simp] theorem State.port_setPoison' (s : State) (g : Nat) (b : Bool) (m : Fin 2) : (s.setPoison g b).port m = s.port m := rfl
@[simp] theorem State.fn_setPoison' (s : State) (g : Nat) (b : Bool) (q : Fin 2) (h : Fin 128) : (s.setPoison g b).fn q h = s.fn q h := rfl
@[simp] theorem State.entry_setPoison' (s : State) (g : Nat) (b : Bool) (d : Fin 3072) : (s.setPoison g b).entry d = s.entry d := rfl
@[simp] theorem State.dyn_setPoison' (s : State) (g : Nat) (b : Bool) (d : Fin 3072) : (s.setPoison g b).dyn d = s.dyn d := rfl
@[simp] theorem State.lp_setPoison' (s : State) (g : Nat) (b : Bool) (m : Nat) : (s.setPoison g b).lp m = s.lp m := rfl
@[simp] theorem State.slot_setPoison' (s : State) (g : Nat) (b : Bool) (m : Nat) : (s.setPoison g b).slot m = s.slot m := rfl
@[simp] theorem State.core_setPoison' (s : State) (g : Nat) (b : Bool) (m : Nat) : (s.setPoison g b).core m = s.core m := rfl
@[simp] theorem State.dieState_setPoison' (s : State) (g : Nat) (b : Bool) (m : Nat) : (s.setPoison g b).dieState m = s.dieState m := rfl
@[simp] theorem State.domain_setPoison' (s : State) (g : Nat) (b : Bool) (m : Nat) : (s.setPoison g b).domain m = s.domain m := rfl
@[simp] theorem State.plot_setPoison' (s : State) (g : Nat) (b : Bool) (m : Nat) : (s.setPoison g b).plot m = s.plot m := rfl
@[simp] theorem State.cmd_setPoison' (s : State) (g : Nat) (b : Bool) (ref : CmdRef) : (s.setPoison g b).cmd ref = s.cmd ref := rfl
end Sys2Proof.Machine
end

