-- ==== Sys2Proof/Laws/Arr.lean ====
section
/-! SUPPORT. Requests of the pool leave the arrays as they are: reads of lines, and translation. -/

set_option linter.unusedSimpArgs false
set_option linter.unusedTactic false
set_option linter.unreachableTactic false

namespace Sys2Proof.Machine

@[simp] theorem State.arr_mk (a b c d e f g h i j k l m) : (State.mk a b c d e f g h i j k l m).arr = a := rfl

@[simp] theorem foldl_arr {α : Type} (F : State → α → State) (h : ∀ s a, (F s a).arr = s.arr) (l : List α) (s : State) :
    (l.foldl F s).arr = s.arr := by
  induction l generalizing s with
  | nil => rfl
  | cons a l ih => rw [List.foldl_cons, ih, h]

@[simp] theorem foldl_arr2 {α β : Type} (F : β × State → α → β × State) (h : ∀ x a, (F x a).2.arr = x.2.arr) (l : List α) (x : β × State) :
    (l.foldl F x).2.arr = x.2.arr := by
  induction l generalizing x with
  | nil => rfl
  | cons a l ih => rw [List.foldl_cons, ih, h]

@[simp] theorem foldl_arr1 {α β : Type} (F : State × β → α → State × β) (h : ∀ x a, (F x a).1.arr = x.1.arr) (l : List α) (x : State × β) :
    (l.foldl F x).1.arr = x.1.arr := by
  induction l generalizing x with
  | nil => rfl
  | cons a l ih => rw [List.foldl_cons, ih, h]

@[simp] theorem fst_ite {α β : Type} (c : Prop) [Decidable c] (a b : α × β) : (if c then a else b).1 = if c then a.1 else b.1 := by split <;> rfl
@[simp] theorem arr_ite (c : Prop) [Decidable c] (a b : State) : (if c then a else b).arr = if c then a.arr else b.arr := by split <;> rfl
@[simp] theorem snd_ite {α β : Type} (c : Prop) [Decidable c] (a b : α × β) : (if c then a else b).2 = if c then a.2 else b.2 := by split <;> rfl

@[simp] theorem State.charge_arr : ∀ (s : State) (p : Fin 16) (c : Option CmdRef) (e : EnergyEvent) (n : ℕ), State.arr (State.charge s p c e n) = State.arr s := by
  intros; rfl

@[simp] theorem State.writeMem_arr : ∀ (s : State) (line : ℕ) (d : Line) (m : BitVec 128) (p : BitVec 2), State.arr (State.writeMem s line d m p) = State.arr s := by
  intros; unfold State.writeMem; dsimp only; (repeat' (first | with_reducible rfl | (simp only [↓State.arr_mk, ↓foldl_arr, ↓foldl_arr2]; done) | split | (simp only [Prod.ext_iff] at *; (try casesm* _ ∧ _); subst_vars) | refine (foldl_arr _ (fun _ _ => ?_) _ _).trans ?_ | refine (foldl_arr2 _ (fun _ _ => ?_) _ _).trans ?_ | simp only [↓State.arr_mk, ↓foldl_arr, ↓foldl_arr2]))

@[simp] theorem State.enterReq_arr : ∀ (s : State) (r : MemReq), State.arr (State.enterReq s r) = State.arr s := by
  intros; unfold State.enterReq; dsimp only; (repeat' (first | with_reducible rfl | (simp only [↓State.arr_mk, ↓foldl_arr, ↓foldl_arr2]; done) | split | (simp only [Prod.ext_iff] at *; (try casesm* _ ∧ _); subst_vars) | refine (foldl_arr _ (fun _ _ => ?_) _ _).trans ?_ | refine (foldl_arr2 _ (fun _ _ => ?_) _ _).trans ?_ | simp only [↓State.arr_mk, ↓foldl_arr, ↓foldl_arr2]))

@[simp] theorem State.chanAsk_arr : ∀ (s : State) (line : ℕ) (p : Fin 16) (cls : ReqClass) (bytes : ℕ) (target : FillFor), State.arr (State.chanAsk s line p cls bytes target) = State.arr s := by
  intros; simp [State.chanAsk, *]

@[simp] theorem State.llcPut_arr : ∀ (s : State) (l : LlcLine), State.arr (State.llcPut s l) = State.arr s := by
  intros; rfl

@[simp] theorem State.llcDrop_arr : ∀ (s : State) (l : LlcLine), State.arr (State.llcDrop s l) = State.arr s := by
  intros; rfl

@[simp] theorem State.countDemoted_arr : ∀ (s : State) (p : Fin 16), State.arr (State.countDemoted s p) = State.arr s := by
  intros; rfl

@[simp] theorem State.countDeclined_arr : ∀ (s : State) (p : Fin 16), State.arr (State.countDeclined s p) = State.arr s := by
  intros; rfl

@[simp] theorem State.shadowNote_arr : ∀ (s : State) (p : Fin 16) (slice set tag hint : ℕ) (hit : Bool), State.arr (State.shadowNote s p slice set tag hint hit) = State.arr s := by
  intros; unfold State.shadowNote; dsimp only; (repeat' (first | with_reducible rfl | (simp only [↓State.arr_mk, ↓foldl_arr, ↓foldl_arr2]; done) | split | (simp only [Prod.ext_iff] at *; (try casesm* _ ∧ _); subst_vars) | refine (foldl_arr _ (fun _ _ => ?_) _ _).trans ?_ | refine (foldl_arr2 _ (fun _ _ => ?_) _ _).trans ?_ | simp only [↓State.arr_mk, ↓foldl_arr, ↓foldl_arr2]))

@[simp] theorem State.llcHit_arr : ∀ (s : State) (p : Fin 16) (l : LlcLine) (hint : ℕ), State.arr (State.llcHit s p l hint) = State.arr s := by
  intros; simp [State.llcHit, *]

@[simp] theorem State.raiseEpoch_arr : ∀ (s : State) (p : Fin 16), State.arr (State.raiseEpoch s p) = State.arr s := by
  intros; rfl

@[simp] theorem State.setDieLine_arr : ∀ (s : State) (line : ℕ) (d : Fin 2) (x : Option DieLine), State.arr (State.setDieLine s line d x) = State.arr s := by
  intros; rfl

@[simp] theorem State.setEvEntry_arr : ∀ (s : State) (line : ℕ) (d : Fin 2) (x : Option EvEntry), State.arr (State.setEvEntry s line d x) = State.arr s := by
  intros; rfl

@[simp] theorem State.dieAnswer_arr : ∀ (s : State) (d : Fin 2) (line : ℕ) (q : Snoop) (w : Option Line), State.arr (Prod.snd (State.dieAnswer s d line q w)) = State.arr s := by
  intros; unfold State.dieAnswer; dsimp only; (repeat' (first | (simp [*]; done) | split | (simp only [Prod.ext_iff] at *; (try casesm* _ ∧ _); subst_vars) | refine (foldl_arr _ (fun _ _ => ?_) _ _).trans ?_ | refine (foldl_arr2 _ (fun _ _ => ?_) _ _).trans ?_))

@[simp] theorem State.wakeLine_arr : ∀ (s : State) (line : ℕ), State.arr (State.wakeLine s line) = State.arr s := by
  intros; rfl

@[simp] theorem State.takeRsp_arr : ∀ (s : State) (d : Fin 2) (line : ℕ) (r : Rsp), State.arr (State.takeRsp s d line r) = State.arr s := by
  intros; unfold State.takeRsp; dsimp only; (repeat' (first | (simp [*]; done) | split | (simp only [Prod.ext_iff] at *; (try casesm* _ ∧ _); subst_vars) | refine (foldl_arr _ (fun _ _ => ?_) _ _).trans ?_ | refine (foldl_arr2 _ (fun _ _ => ?_) _ _).trans ?_))

@[simp] theorem State.snoopNow_arr : ∀ (s : State) (d : Fin 2) (line : ℕ) (q : Snoop), State.arr (State.snoopNow s d line q) = State.arr s := by
  intros; simp [State.snoopNow, *]

@[simp] theorem State.snoopAll_arr : ∀ (s : State) (line : ℕ) (q : Snoop), State.arr (State.snoopAll s line q) = State.arr s := by
  intros; simp [State.snoopAll, *]

@[simp] theorem State.evictLine_arr : ∀ (s : State) (l : LlcLine), State.arr (State.evictLine s l) = State.arr s := by
  intros; unfold State.evictLine; dsimp only; (repeat' (first | (simp [*]; done) | split | (simp only [Prod.ext_iff] at *; (try casesm* _ ∧ _); subst_vars) | refine (foldl_arr _ (fun _ _ => ?_) _ _).trans ?_ | refine (foldl_arr2 _ (fun _ _ => ?_) _ _).trans ?_))

@[simp] theorem State.llcAlloc_arr : ∀ (s : State) (p : Fin 16) (line hint : ℕ) (remote dieReq : Bool) (hd : HomeData) (d : Line) (po : BitVec 2), State.arr (Prod.snd (State.llcAlloc s p line hint remote dieReq hd d po)) = State.arr s := by
  intros; unfold State.llcAlloc; dsimp only; (repeat' (first | (simp [*]; done) | split | (simp only [Prod.ext_iff] at *; (try casesm* _ ∧ _); subst_vars) | refine (foldl_arr _ (fun _ _ => ?_) _ _).trans ?_ | refine (foldl_arr2 _ (fun _ _ => ?_) _ _).trans ?_))

@[simp] theorem State.retirePage_arr : ∀ (s : State) (u pg : ℕ), State.arr (State.retirePage s u pg) = State.arr s := by
  intros; unfold State.retirePage; (repeat' split) <;> simp only [↓State.arr_mk, ↓foldl_arr, ↓foldl_arr2, ↓State.report_arr]

@[simp] theorem State.countCorrection_arr : ∀ (s : State) (u pg : ℕ), State.arr (State.countCorrection s u pg) = State.arr s := by
  intros; simp [State.countCorrection, *]

@[simp] theorem State.refillRead_arr : ∀ (s : State) (r : RefillPage), State.arr (State.refillRead s r) = State.arr s := by
  intros; unfold State.refillRead; dsimp only; (repeat' (first | (simp [*]; done) | split | (simp only [Prod.ext_iff] at *; (try casesm* _ ∧ _); subst_vars) | refine (foldl_arr _ (fun _ _ => ?_) _ _).trans ?_ | refine (foldl_arr2 _ (fun _ _ => ?_) _ _).trans ?_))

@[simp] theorem State.poisonFound_arr : ∀ (s : State) (u pg : ℕ) (granule : Option ℕ), State.arr (State.poisonFound s u pg granule) = State.arr s := by
  intros; unfold State.poisonFound; dsimp only; (repeat' (first | (simp [*]; done) | split | (simp only [Prod.ext_iff] at *; (try casesm* _ ∧ _); subst_vars) | refine (foldl_arr _ (fun _ _ => ?_) _ _).trans ?_ | refine (foldl_arr2 _ (fun _ _ => ?_) _ _).trans ?_))

@[simp] theorem State.eccTake_arr : ∀ (s : State) (u pg : ℕ) (granule : Option ℕ) (good : BitVec 512) (e : EccEvent), State.arr (Prod.snd (Prod.snd (State.eccTake s u pg granule good e))) = State.arr s := by
  intros; unfold State.eccTake; dsimp only; (repeat' (first | (simp [*]; done) | split | (simp only [Prod.ext_iff] at *; (try casesm* _ ∧ _); subst_vars) | refine (foldl_arr _ (fun _ _ => ?_) _ _).trans ?_ | refine (foldl_arr2 _ (fun _ _ => ?_) _ _).trans ?_))

@[simp] theorem State.eccFree_arr : ∀ (s : State), State.arr (Prod.snd (State.eccFree s)) = State.arr s := by
  intros; rfl

@[simp] theorem State.readGranule_arr : ∀ (s : State) (line g : ℕ) (e : EccEvent), State.arr (Prod.snd (Prod.snd (State.readGranule s line g e))) = State.arr s := by
  intros; simp [State.readGranule, *]

@[simp] theorem State.churnOne_arr : ∀ (s : State) (o : ChurnOp) (e : EccEvent), State.arr (Prod.snd (State.churnOne s o e)) = State.arr s := by
  intros; simp [State.churnOne, *]

@[simp] theorem State.flushChurn_arr : ∀ (s : State) (line : ℕ), State.arr (State.flushChurn s line) = State.arr s := by
  intros; simp [State.flushChurn, *]

@[simp] theorem State.readLine_arr : ∀ (s : State) (line : ℕ) (e : EccPair), State.arr (Prod.snd (State.readLine s line e)) = State.arr s := by
  intros; simp [State.readLine, *]

@[simp] theorem State.readFree_arr : ∀ (s : State) (line : ℕ), State.arr (Prod.snd (State.readFree s line)) = State.arr s := by
  intros; simp [State.readFree, *]

@[simp] theorem State.writeBehind_arr : ∀ (s : State) (line : ℕ) (d : Line) (m : BitVec 128) (p : BitVec 2), State.arr (State.writeBehind s line d m p) = State.arr s := by
  intros; simp [State.writeBehind, *]

@[simp] theorem State.engRead_arr : ∀ (s : State) (p : Fin 16) (line hint : ℕ) (cls : optParam ReqClass ReqClass.array), State.arr (Prod.snd (State.engRead s p line hint cls)) = State.arr s := by
  intros; unfold State.engRead; dsimp only; (repeat' (first | (simp [*]; done) | split | (simp only [Prod.ext_iff] at *; (try casesm* _ ∧ _); subst_vars) | refine (foldl_arr _ (fun _ _ => ?_) _ _).trans ?_ | refine (foldl_arr2 _ (fun _ _ => ?_) _ _).trans ?_))

@[simp] theorem State.walk_arr (rd : LineRead) (h : ∀ s line, (rd s line).2.arr = s.arr) (s : State) (p : Fin 16) (va page level : Nat) :
    (State.walk rd s p va page level).2.arr = s.arr := by
  induction level generalizing s page with
  | zero => unfold State.walk; dsimp only; (repeat' split) <;> first | rfl | exact h _ _
  | succ l ih => unfold State.walk; dsimp only; (repeat' split) <;> first | rfl | exact h _ _ | exact (ih _ _).trans (h _ _)

@[simp] theorem State.translateWith_arr (rd : LineRead) (h : ∀ s line, (rd s line).2.arr = s.arr) (s : State) (p : Fin 16) (va : Nat) (write : Bool) :
    (s.translateWith rd p va write).2.arr = s.arr := by
  unfold State.translateWith
  split
  · rfl
  split
  · rfl
  split
  · rfl
  dsimp only
  split
  · rfl
  split
  · rfl
  split <;> (rename_i e; exact (congrArg (fun x : _ × State => x.2.arr) e).symm.trans (State.walk_arr rd h s p va _ _))

theorem walkRead_arr (p : Fin 16) (s : State) (line : Nat) : (walkRead p s line).2.arr = s.arr := by
  unfold walkRead; split <;> simp

@[simp] theorem State.translate_arr (s : State) (p : Fin 16) (va : Nat) (write : Bool) : (s.translate p va write).2.arr = s.arr :=
  State.translateWith_arr _ (walkRead_arr p) s p va write

end Sys2Proof.Machine
end

