-- ==== Sys2Proof/Laws/Issue.lean ====
section
/-! SUPPORT. The issue of an instruction: when it goes through to its effect, what the fetch of its word touches, and what
its group is afterwards. -/

namespace Sys2Proof.Machine

/-- A fetched word of a legal instruction whose registers no load has still to write takes its effect. -/
theorem State.issue_runs (s : State) (i : Issue) (c : Cmd) (g : Group) (legal : Cmd → Bool) (regs : List Nat) (run : Run → State → Group → Eff)
    (h : s.issuer i.g = some (c, g)) (hc : i.cell = .none) (hs : i.sram = .none) (hf : i.fetch = .word) (hl : legal c = true) (hp : g.pending regs = []) :
    s.issue i legal regs run = State.settle i.g.la.val c (run ⟨i.g.la.val, c, g.lanes i⟩ (s.fetched i c g) g) := by
  unfold State.issue State.fetched
  rw [h, hc, hs, hf]
  simp [State.cellEvent, State.sramEvent, hl, hp]

/-- One whose registers a load has still to write waits for it (R45). -/
theorem State.issue_holds (s : State) (i : Issue) (c : Cmd) (g : Group) (legal : Cmd → Bool) (regs : List Nat) (run : Run → State → Group → Eff)
    (h : s.issuer i.g = some (c, g)) (hc : i.cell = .none) (hs : i.sram = .none) (hf : i.fetch = .word) (hl : legal c = true) (hp : g.pending regs ≠ []) :
    s.issue i legal regs run = (s.fetched i c g).putGroup i.g.la.val { g with st := .waiting (.operand (g.pending regs)) } := by
  unfold State.issue State.fetched
  rw [h, hc, hs, hf]
  simp [State.cellEvent, State.sramEvent, hl, hp, State.settle]

/-- An illegal word ends its command with ILLEGAL_INSTRUCTION (R57). -/
theorem State.issue_illegal (s : State) (i : Issue) (c : Cmd) (g : Group) (legal : Cmd → Bool) (regs : List Nat) (run : Run → State → Group → Eff)
    (h : s.issuer i.g = some (c, g)) (hc : i.cell = .none) (hs : i.sram = .none) (hf : i.fetch = .word) (hl : legal c = false) :
    s.issue i legal regs run = (s.fetched i c g).endCmd c 0x11 (BitVec.ofNat 32 i.g.la.val) := by
  unfold State.issue State.fetched
  rw [h, hc, hs, hf]
  simp [State.cellEvent, State.sramEvent, hl]

/-- A group that cannot issue leaves the state as it is. -/
theorem State.issue_not (s : State) (i : Issue) (legal : Cmd → Bool) (regs : List Nat) (run : Run → State → Group → Eff) (h : s.issuer i.g = none) :
    s.issue i legal regs run = s := by
  unfold State.issue; rw [h]

/-- What lets a group issue. -/
theorem State.issuer_some (s : State) (r : GroupRef) (c : Cmd) (g : Group) (h : s.issuer r = some (c, g)) :
    s.groupOf r = some g ∧ g.st = .ready ∧ c.stage = .running ∧ s.occupantCmd r.la.val = some c ∧ g.quantumDue = false ∧ (s.array r.la.val).turn g = true := by
  unfold State.issuer at h
  split at h
  · cases h
  · rename_i o ho
    split at h
    · rename_i c' g' hc hg
      split at h
      · rename_i hr
        cases h
        exact ⟨hg, hr.2.1, hr.1, by simp [State.occupantCmd, ho, hc], hr.2.2⟩
      · cases h
    · cases h

/-- The group of a reference carries its numbers. -/
theorem State.groupOf_names (s : State) (r : GroupRef) (g : Group) (h : s.groupOf r = some g) : g.cohort = r.cohort ∧ g.num = r.group := by
  simpa using List.find?_some h

theorem find_map_put (l : List Group) (x g h : Group) (hg : l.find? (fun y => decide (y.cohort = x.cohort ∧ y.num = x.num)) = some g) (hc : h.cohort = x.cohort) (hn : h.num = x.num) :
    (l.map (fun y => if y.cohort = h.cohort ∧ y.num = h.num then h else y)).find? (fun y => decide (y.cohort = x.cohort ∧ y.num = x.num)) = some h := by
  induction l with
  | nil => cases hg
  | cons y t ih =>
    by_cases hy : y.cohort = x.cohort ∧ y.num = x.num
    · simp [hc, hn, hy]
    · have : t.find? (fun y => decide (y.cohort = x.cohort ∧ y.num = x.num)) = some g := by simpa [List.find?_cons, hy] using hg
      rw [List.map_cons, if_neg (by rw [hc, hn]; exact hy), List.find?_cons_of_neg (by simpa using hy)]
      exact ih this

/-- A group replaced is read back. -/
theorem State.groupOf_putGroup (s : State) (r : GroupRef) (g h : Group) (hg : s.groupOf r = some g) (hc : h.cohort = g.cohort) (hn : h.num = g.num) :
    (s.putGroup r.la.val h).groupOf r = some h := by
  have hx := s.groupOf_names r g hg
  unfold State.groupOf State.groupAt State.putGroup at *
  rw [State.array_setArray]
  have hg' : (s.array r.la.val).groups.find? (fun y => decide (y.cohort = g.cohort ∧ y.num = g.num)) = some g := by rw [hx.1, hx.2]; exact hg
  have := find_map_put _ g g h hg' hc hn
  rw [hx.1, hx.2] at this
  exact this

theorem OnlyArray.refl (s : State) (la : Nat) : OnlyArray s s la := ⟨s.arr, s.freeCount, s.energy, rfl, fun _ _ => rfl⟩

theorem OnlyArray.trans {s t u : State} {la : Nat} (h : OnlyArray s t la) (k : OnlyArray t u la) : OnlyArray s u la := by
  obtain ⟨a, n, e, rfl, ha⟩ := h
  obtain ⟨b, o, f, rfl, hb⟩ := k
  exact ⟨b, o, f, rfl, fun j hj => (hb j hj).trans (ha j hj)⟩

theorem OnlyArray.set (s : State) (la : Nat) (a : ArrayState) : OnlyArray s (s.setArray la a) la :=
  ⟨_, s.freeCount, s.energy, rfl, fun _ hk => Tbl.get_set_ne _ _ _ _ _ hk⟩

theorem OnlyArray.on (s : State) (la : Nat) (f : ArrayState → ArrayState) : OnlyArray s (s.onArray la f) la := OnlyArray.set s la _

theorem OnlyArray.put (s : State) (la : Nat) (g : Group) : OnlyArray s (s.putGroup la g) la := OnlyArray.set s la _

theorem OnlyArray.free (s : State) (la w : Nat) : OnlyArray s (s.freeVal w).2 la := ⟨s.arr, _, s.energy, rfl, fun _ _ => rfl⟩

theorem OnlyArray.charge (s : State) (la : Nat) (p : Fin 16) (c : Option CmdRef) (e : EnergyEvent) (n : Nat) : OnlyArray s (s.charge p c e n) la :=
  ⟨s.arr, s.freeCount, _, rfl, fun _ _ => rfl⟩

/-- An issue charges its command and notes the quadrant's last issuer. -/
theorem OnlyArray.issued (s : State) (la : Nat) (c : Cmd) (g : Group) : OnlyArray s (s.issued la c g) la :=
  ((OnlyArray.charge s la _ _ _ _).trans (OnlyArray.charge _ la _ _ _ _)).trans (OnlyArray.on _ la _)

theorem State.issued_groupOf (s : State) (r : GroupRef) (c : Cmd) (g : Group) : (s.issued r.la.val c g).groupOf r = s.groupOf r := by
  unfold State.issued State.groupOf State.groupAt State.onArray
  rw [State.array_setArray]
  rfl

/-- The fetch of a word leaves the groups of the array and every other array. -/
theorem State.fetchLine_array (s : State) (la : Nat) (c : Cmd) (pc : Word) :
    ((s.fetchLine la c pc).array la).groups = (s.array la).groups ∧ ∀ k, k ≠ la → (s.fetchLine la c pc).array k = s.array k := by
  have ht := s.translate_arr c.part pc.toNat false
  have one (u : State) (hu : u.arr = s.arr) (f : ArrayState → ArrayState) (hf : ∀ a, (f a).groups = a.groups) :
      ((u.onArray la f).array la).groups = (s.array la).groups ∧ ∀ k, k ≠ la → (u.onArray la f).array k = s.array k := by
    unfold State.onArray
    refine ⟨?_, fun k hk => ?_⟩
    · rw [State.array_setArray, hf]; unfold State.array; rw [hu]
    · unfold State.array State.setArray; rw [Tbl.get_set_ne _ _ _ _ _ hk, hu]
  have none (u : State) (hu : u.arr = s.arr) : (u.array la).groups = (s.array la).groups ∧ ∀ k, k ≠ la → u.array k = s.array k := by
    unfold State.array; rw [hu]; exact ⟨rfl, fun _ _ => rfl⟩
  unfold State.fetchLine
  split <;> rename_i h <;> rw [h] at ht <;> dsimp only at ht
  · split
    · exact one _ ht _ (fun a => by unfold ArrayState.l1Touch; rfl)
    · split
      · exact none _ ht
      · dsimp only
        split
        · exact none _ (by rw [State.engRead_arr, ht])
        · exact one _ (by rw [State.engRead_arr, ht]) _ (fun a => by unfold ArrayState.l1Fill; split <;> rfl)
  · exact none _ ht

/-- The group is still there after the fetch. -/
theorem State.fetched_groupOf (s : State) (i : Issue) (c : Cmd) (g : Group) : (s.fetched i c g).groupOf i.g = s.groupOf i.g := by
  unfold State.groupOf State.groupAt State.fetched; rw [(State.fetchLine_array s i.g.la.val c g.path.pc).1]

theorem mem_onesBelow {n : Nat} (x : BitVec n) (k l : Nat) : l ∈ onesBelow x k ↔ l < k ∧ x.getLsbD l = true := by
  induction k with
  | zero => simp [onesBelow]
  | succ k ih =>
    unfold onesBelow
    rw [List.mem_append, ih]
    by_cases hk : x.getLsbD k = true
    · rw [if_pos hk, List.mem_singleton]
      constructor
      · rintro (h | rfl)
        · exact ⟨by omega, h.2⟩
        · exact ⟨by omega, hk⟩
      · intro h
        by_cases e : l = k
        · exact Or.inr e
        · exact Or.inl ⟨by omega, h.2⟩
    · rw [if_neg hk]
      constructor
      · rintro (h | h)
        · exact ⟨by omega, h.2⟩
        · cases h
      · intro h
        refine Or.inl ⟨?_, h.2⟩
        have : l ≠ k := by rintro rfl; exact hk h.2
        omega

theorem onesBelow_nodup {n : Nat} (x : BitVec n) (k : Nat) : (onesBelow x k).Nodup := by
  induction k with
  | zero => exact List.nodup_nil
  | succ k ih =>
    unfold onesBelow
    split
    · refine List.nodup_append.mpr ⟨ih, List.nodup_singleton k, ?_⟩
      intro a ha b hb
      rw [List.mem_singleton] at hb
      have := (mem_onesBelow x k a).mp ha
      omega
    · simpa using ih

/-- The lanes of a mask are its bits, each once. -/
theorem mem_laneList (m : BitVec 64) (l : Nat) : l ∈ laneList m ↔ m.getLsbD l = true := by
  unfold laneList ones
  rw [mem_onesBelow]
  exact ⟨fun h => h.2, fun h => ⟨BitVec.lt_of_getLsbD h, h⟩⟩

theorem laneList_nodup (m : BitVec 64) : (laneList m).Nodup := onesBelow_nodup m 64

/-! ### Registers and predicates -/

theorem Group.reg_setReg (g : Group) (l k r q : Nat) (v : Word32) (hl : l < 64) (hk : k < 64) :
    (g.setReg l r v).reg k q = if k = l ∧ q = r ∧ q ≠ 255 then v else g.reg k q := by
  unfold Group.setReg Group.reg
  by_cases hr : r = 255
  · subst r
    rw [if_pos rfl]
    split
    · rename_i h; rw [if_neg (by omega)]
    · rename_i h; rw [if_neg (by omega)]
  · rw [if_neg hr]
    by_cases hq : q = 255
    · subst q; simp
    · rw [if_neg hq, if_neg hq]
      by_cases h : k = l ∧ q = r
      · obtain ⟨rfl, rfl⟩ := h
        simp [hq]
      · rw [if_neg (by omega), Tbl.get_set_ne]
        intro e; apply h; omega

/-- What a register holds after every lane of a mask has written one. -/
theorem Group.reg_eachSet (g : Group) (m : BitVec 64) (d : Nat) (v : Nat → Word32) (k q : Nat) (hk : k < 64) :
    (g.each m (fun h l => h.setReg l d (v l))).reg k q = if m.getLsbD k = true ∧ q = d ∧ q ≠ 255 then v k else g.reg k q := by
  have gen : ∀ (ls : List Nat) (h : Group), (∀ l ∈ ls, l < 64) → ls.Nodup →
      (ls.foldl (fun h l => h.setReg l d (v l)) h).reg k q = if k ∈ ls ∧ q = d ∧ q ≠ 255 then v k else h.reg k q := by
    intro ls
    induction ls with
    | nil => intro h _ _; simp
    | cons a t ih =>
      intro h hb hn
      rw [List.foldl_cons, ih _ (fun l hl => hb l (List.mem_cons_of_mem _ hl)) (List.nodup_cons.mp hn).2,
        Group.reg_setReg _ _ _ _ _ _ (hb a List.mem_cons_self) hk]
      by_cases ha : k = a
      · subst k
        simp [(List.nodup_cons.mp hn).1]
      · simp [ha]
  unfold Group.each
  rw [gen _ _ (fun l hl => BitVec.lt_of_getLsbD ((mem_laneList m l).mp hl)) (laneList_nodup m)]
  simp only [mem_laneList]

theorem Group.pred_setPred (g : Group) (p q : Nat) (m v : BitVec 64) :
    (g.setPred p m v).pred q = if q = p ∧ q ≠ 7 then (g.pred p &&& ~~~m) ||| (v &&& m) else g.pred q := by
  unfold Group.setPred
  by_cases hp : p = 7
  · subst p; rw [if_pos rfl, if_neg (by omega)]
  · rw [if_neg hp]
    unfold Group.pred
    by_cases hq : q = 7
    · subst q; simp
    · rw [if_neg hq, if_neg hq]
      by_cases h : q = p
      · subst q; simp [hp]
      · simp [h, hp, Tbl.get_set_ne _ _ _ _ _ h]

/-! ### The end of an issue -/

/-- A group that goes on is put back, its counts one higher. -/
theorem State.settle_ok (la : Nat) (c : Cmd) (s : State) (g : Group) (h : g.live ≠ []) :
    State.settle la c (.ok s g false) = (s.issued la c g).putGroup la g.counted.settled := by
  unfold State.settle
  simp only [Bool.false_eq_true, if_false]
  rw [if_neg]
  exact h

/-- A current path with lanes makes the group live. -/
theorem Group.live_of_path (g : Group) (h : g.path.mask ≠ 0) : g.live ≠ [] := by
  unfold Group.path at h
  unfold Group.live
  cases hp : g.paths with
  | nil => rw [hp] at h; exact absurd rfl h
  | cons p t => rw [hp] at h; rw [List.filter_cons_of_pos (by simpa using h)]; exact List.cons_ne_nil _ _

theorem Group.path_advance (g : Group) (n : Nat) (h : g.path.mask ≠ 0) :
    (g.advance n).path.pc = g.path.pc + BitVec.ofNat 64 n ∧ (g.advance n).path.mask = g.path.mask := by
  unfold Group.advance Group.setPc
  unfold Group.path at *
  cases hp : g.paths with
  | nil => rw [hp] at h; exact absurd rfl h
  | cons p t => simp

/-- A group that keeps its numbers and its lanes completes an instruction. -/
theorem completes_ok (s u : State) (i : Issue) (c : Cmd) (g g' : Group) (n : Nat) (f : Group → Prop)
    (hg : u.groupOf i.g = some g) (hm : g.path.mask ≠ 0) (hu : OnlyArray (s.fetched i c g) u i.g.la.val)
    (hc : g'.cohort = g.cohort) (hn : g'.num = g.num) (hp : g'.paths = g.paths)
    (hf : ∀ h : Group, h.regs = g'.regs → h.preds = g'.preds → f h) :
    Completes s (.next (State.settle i.g.la.val c (.ok u (g'.advance n) false))) i c g n f := by
  have hpath : g'.path = g.path := by unfold Group.path; rw [hp]
  have hadv := g'.path_advance n (by rw [hpath]; exact hm)
  have hx : (g'.advance n).cohort = g'.cohort ∧ (g'.advance n).num = g'.num ∧ (g'.advance n).regs = g'.regs ∧ (g'.advance n).preds = g'.preds := by
    unfold Group.advance Group.setPc; split <;> exact ⟨rfl, rfl, rfl, rfl⟩
  rw [State.settle_ok _ _ _ _ (Group.live_of_path _ (by rw [hadv.2, hpath]; exact hm))]
  refine ⟨_, (g'.advance n).counted.settled, rfl, ?_, hadv.1.trans (by rw [hpath]), hadv.2.trans (by rw [hpath]),
    (hu.trans (OnlyArray.issued u _ c _)).trans (OnlyArray.put _ _ _), hf _ hx.2.2.1 hx.2.2.2⟩
  exact State.groupOf_putGroup _ i.g g _ ((State.issued_groupOf u i.g c _).trans hg) (hx.1.trans hc) (hx.2.1.trans hn)

/-- An instruction that only changes registers and predicates completes. -/
theorem vector_completes (s : State) (i : Issue) (c : Cmd) (g : Group) (legal : Cmd → Bool) (regs : List Nat) (f : Run → Group → Group) (p : Group → Prop)
    (h : Goes s i c g) (hl : legal c = true) (hr : g.pending regs = [])
    (hc : (f ⟨i.g.la.val, c, g.lanes i⟩ g).cohort = g.cohort) (hn : (f ⟨i.g.la.val, c, g.lanes i⟩ g).num = g.num)
    (hp : (f ⟨i.g.la.val, c, g.lanes i⟩ g).paths = g.paths)
    (hf : ∀ x : Group, x.regs = (f ⟨i.g.la.val, c, g.lanes i⟩ g).regs → x.preds = (f ⟨i.g.la.val, c, g.lanes i⟩ g).preds → p x) :
    Completes s (.next (s.vector i legal regs f)) i c g 8 p := by
  obtain ⟨h1, h2, h3, h4, h5⟩ := h
  have h2 : g.path.mask ≠ 0 := by intro e; simp [Path.eligible, e] at h2
  unfold State.vector
  rw [State.issue_runs s i c g legal regs _ h1 h3 h4 h5 hl hr]
  exact completes_ok s _ i c g _ 8 p ((State.fetched_groupOf s i c g).trans (s.issuer_some _ _ _ h1).1) h2 (OnlyArray.refl _ _) hc hn hp hf

end Sys2Proof.Machine
end

