-- ==== Sys2Proof/WellFormed.lean ====
section
/-! DEFINITION. Which terms of Instr are commands: the relations between operands that their types do not
give. -/

namespace Sys2Proof

/-- A register access reads or writes at least one byte (R9 says what each size does). -/
def wfAccess (a : RegAccess) : Bool := decide (0 < a.size ∧ a.size ≤ 4096)

/-- The relations between a command's operands. -/
def Instr.wf : Instr → Bool
  | .apertureWrite _ _ off data _ => decide (0 < data.length ∧ off.toNat + data.length ≤ 2 ^ 36)
  | .apertureRead _ _ off len => decide (0 < len ∧ off.toNat + len ≤ 2 ^ 36)
  | .stash _ pa data _ => decide (0 < data.length ∧ pa.toNat % 128 + data.length ≤ 128)
  | .meridianWrite _ f => decide (0 < f.payload.length ∧ f.payload.length ≤ 128)
  | .bulkWrite _ f => decide (0 < f.payload.length ∧ f.payload.length ≤ 512)
  | .registerWrite a _ => wfAccess a
  | .urgencyLevelChange _ pc => decide (pc ≤ 100)
  | .regulatorEpoch _ _ n => decide (n ≤ 64)
  | .flitReceive l _ g _ => decide (g.val < (if l.val < 8 then 80 else if l.val < 14 then 40 else if l.val < 18 then 24 else 16))
  | .d2dReplayTimeout l _ g => decide (g.val < (if l.val < 8 then 80 else if l.val < 14 then 40 else if l.val < 18 then 24 else 16))
  | .d2dWireFailed l g _ => decide (g.val < (if l.val < 8 then 80 else if l.val < 14 then 40 else if l.val < 18 then 24 else 16))
  | _ => true

end Sys2Proof
end

