-- ==== Sys2Proof/Tests/Slice0.lean ====
section
/-! SUPPORT. Tests: ill-formed terms refused, worked examples of the spec, and for each statement with hypotheses a state and
operands that meet them. -/

set_option Elab.async false
set_option linter.unusedSimpArgs false
set_option linter.constructorNameAsVariable false

namespace Sys2Proof.Tests

open Sys2Proof Sys2Proof.Machine

/-! ### Small states -/

/-- A channel entry of PT1 that is ACTIVE, with its ring at 0x4000 and its doorbell at 0x3000 of the partition or of the host, for a
function, with a nudge index. -/
def entryOf (fn : Nat) (host : Bool) (slot : Nat) : BitVec 512 :=
  BitVec.ofNat 512 (0x4000 + 0x3000 <<< 64 + 0x5000 <<< 128 + 6 <<< 192 + 6 <<< 200 + 1 <<< 208 + (if host then 2 else 0) <<< 232 + fn <<< 240 + slot <<< 288 + 1 <<< 360)

/-- A module that is up, both ports ready; PT1 is LIVE with LA0, plots 0 and 1, virtual function 1 of P0 and channel 0. -/
def upState : State := { State.reset with
  mem := { MemState.reset with unitsAtBoot := BitVec.allOnes 384, unitsUp := BitVec.allOnes 384, plots := [(0, .granted 1 0), (1, .granted 1 0)], keys := [(1, some 1)] }
  pow := { PowState.reset with stage := .published, pgood := true }
  host := { HostState.reset with
    port0 := { PortState.reset with released := true, ready := true, linkUp := true, numVfs := 2 }
    port1 := { PortState.reset with released := true, ready := true, linkUp := true, numVfs := 2 }
    fns := [(0, { FnState.reset with mode := .enabled, busMaster := true }), (1, { FnState.reset with mode := .enabled, busMaster := true, bound := some 1 }),
      (128, { FnState.reset with mode := .enabled, busMaster := true })] }
  atlas := { AtlasState.reset with arrayMap := [(0, some 0)], slots := [(0, ⟨0, none⟩)] }
  chan := { ChanState.reset with entries := [(0, entryOf 0 false 0)], dyn := [(0, { ChanDyn.reset with assigned := true })], parts := [(1, { Partition.absent with mode := .live, floor := [0], credits := [1, 1, 1, 1] })] } }

/-- A launch of one cohort of one group of 255 registers, with 4 KiB of local store, that enters at 0x1000. -/
def launchSlot : BitVec 512 := BitVec.ofNat 512 0x40001180100010001000100000000000000000000000000000000100000000000000000000000000000000001

/-- Such a command of channel 0 and PT1, running on LA0. -/
def cmd0 : Cmd := ⟨0, 0, [launchSlot], 1, 0, .running, true, false, 0, true, [], false, [0], some ⟨0, [(0, 0)]⟩, none, 1, .zero, none, 0, 0, [], false, 0, none, false, none, true, none⟩

/-- Its group, about to issue at 0x1000 with all lanes. -/
def group0 : Group := ⟨0, 0, 0, 0, .ready, [⟨0x1000, BitVec.allOnes 64, none, 0⟩], 0, 0, [], [], [], []⟩

/-- LA0 with that group. -/
def array0 : ArrayState := { ArrayState.idle with occ := some ⟨⟨0, 0⟩, 1, 1, [], true, false⟩, cohorts := [⟨0, 0, 4096, 0, [], 0⟩], groups := [group0] }

/-- The module with a group on LA0. -/
def onArray (g : Group) : State := { upState with arr := [(0, { array0 with groups := [g] })], chan := { upState.chan with cmds := [cmd0] } }

/-- The state in which the group is ready. -/
def runs : State := onArray group0

/-- An issue of that group: of all lanes, of none, of those of p0. -/
def issAll : Issue := ⟨⟨0, 0, 0⟩, 7, false, .word, .none, .none⟩
def issNone : Issue := ⟨⟨0, 0, 0⟩, 7, true, .word, .none, .none⟩
def issP0 : Issue := ⟨⟨0, 0, 0⟩, 0, false, .word, .none, .none⟩

/-- A pair is its first component and something. -/
theorem pair_of_fst {α β : Type} {p : α × β} {a : α} (h : p.1 = a) : ∃ u, p = (a, u) := ⟨p.2, by rw [← h]⟩

/-! ### Ill-formed terms -/

theorem test_wf_apertureWrite : Instr.wf (.apertureWrite 0 0 0 [] ⟨false, none, false⟩) = false := by decide
theorem test_wf_apertureRead : Instr.wf (.apertureRead 0 0 0 0) = false := by decide
theorem test_wf_stash : Instr.wf (.stash 0 127 [0, 0] 0) = false := by decide
theorem test_wf_meridianWrite : Instr.wf (.meridianWrite 0 ⟨0, [], false, false⟩) = false := by decide
theorem test_wf_bulkWrite : Instr.wf (.bulkWrite 0 ⟨0, [], false, false⟩) = false := by decide
theorem test_wf_registerWrite : Instr.wf (.registerWrite ⟨0, none, 0, 0⟩ 0) = false := by decide
theorem test_wf_urgencyLevelChange : Instr.wf (.urgencyLevelChange (.pcie 0) 101) = false := by decide
theorem test_wf_regulatorEpoch : Instr.wf (.regulatorEpoch 0 0 65) = false := by decide
theorem test_wf_flitReceive : Instr.wf (.flitReceive 18 0 16 ⟨⟨0, 0, 0, 0, 0, 0⟩, ⟨0, 0, 0, 0, 0, 0⟩⟩) = false := by decide
theorem test_wf_d2dReplayTimeout : Instr.wf (.d2dReplayTimeout 8 0 40) = false := by decide
theorem test_wf_d2dWireFailed : Instr.wf (.d2dWireFailed 14 24 .trackStopped) = false := by decide
theorem test_wf_accepts : Instr.wf (.registerWrite ⟨0, none, 0x10000, 8⟩ 0) = true := by decide

/-! ### Witnesses: instructions -/

/-- The operands of format V. -/
def opsV (dst a b c fmt rnd mod : Nat) : BitVec 48 :=
  BitVec.ofNat 48 (dst + a * 2 ^ 8 + b * 2 ^ 16 + c * 2 ^ 24 + fmt * 2 ^ 32 + rnd * 2 ^ 37 + mod * 2 ^ 43)

/-- The operands of format M, in local store. -/
def opsM (data base size scope order : Nat) : BitVec 48 :=
  BitVec.ofNat 48 (data + base * 2 ^ 8 + size * 2 ^ 36 + scope * 2 ^ 39 + order * 2 ^ 44 + 2 ^ 46)

/-- The operands of format S. -/
def opsS (barrier count scope order : Nat) : BitVec 48 := BitVec.ofNat 48 (barrier + count * 2 ^ 4 + scope * 2 ^ 12 + order * 2 ^ 15)

/-- The state in which lane 0 alone has p0. -/
def groupP0 : Group := { group0 with preds := [(0, 1)] }
def runsP0 : State := onArray groupP0

/-- The state in which a store of the group is on its way. -/
def runsPending : State :=
  { runs with mem := { runs.mem with homeReqs := [⟨0, 0, 0, 0, 1, ⟨0, 0⟩, .pool, 5, .write 0 1, 0, 4, .sent, none, .group⟩], nextReq := 1 } }

theorem goes_all : Goes runs issAll cmd0 group0 := ⟨rfl, rfl, rfl, rfl, rfl⟩
theorem goes_none : Goes runs issNone cmd0 group0 := ⟨rfl, rfl, rfl, rfl, rfl⟩
theorem goes_p0 : Goes runsP0 issP0 cmd0 groupP0 := ⟨rfl, rfl, rfl, rfl, rfl⟩
theorem goes_pending : Goes runsPending issAll cmd0 group0 := ⟨rfl, rfl, rfl, rfl, rfl⟩

theorem witness_IntegerAndMovesComplete :
    legalInt 0 (opsV 254 255 0 0 0x0A 0 0) cmd0 = true ∧ legalInt 145 (opsV 254 0 0 0 0 0 0) cmd0 = true
    ∧ legalV (opsV 254 0 255 0 0 2 0) = true ∧ regNamed cmd0.regCount 254 = true ∧ regNamed cmd0.regCount 255 = true := by decide +kernel
theorem witness_PredicatesComplete :
    legalV (opsV 7 0 2 0 0x1A 0 5) = true ∧ opDst (opsV 7 0 2 0 0x1A 0 5) < 8 ∧ setpFmt 0x1A = true ∧ opMod (opsV 7 0 2 0 0x1A 0 5) ≤ 5
    ∧ fmtNamed cmd0.regCount 0x1A 0 = true ∧ fmtNamed cmd0.regCount 0x1A 2 = true
    ∧ opA (opsV 7 7 7 0 0 0 1) < 8 ∧ opB (opsV 7 7 7 0 0 0 1) < 8 ∧ opMod (opsV 7 7 7 0 0 0 1) = 1 ∧ opMod (opsV 7 7 7 0 0 0 0) = 0 := by decide +kernel
theorem witness_BallotS2vNopComplete :
    legalV (opsV 252 7 0 0 0 0 0) = true ∧ pairNamed cmd0.regCount 252 = true ∧ opA (opsV 252 7 0 0 0 0 0) < 8
    ∧ opA (opsV 0 12 0 0 0 0 0) ≤ 12 ∧ cleanJ 0xFFFFFFFFFF = true := by decide +kernel
theorem witness_FloatingPointComplete :
    cmd0.sentry = 0 ∧ legalFp fp32Ops 12 (opsV 1 2 3 0 0 1 0) (regNamed cmd0.regCount) = true ∧ legalFp fp64Ops 6 (opsV 2 4 6 0 0 0 0) (pairNamed cmd0.regCount) = true
    ∧ legalFp packedOps 4 (opsV 1 2 3 0 2 0 0) (regNamed cmd0.regCount) = true ∧ opFmt (opsV 1 2 3 0 3 0 0) = 3 := by decide +kernel
theorem witness_ConversionsComplete :
    legalCvt (opsV 1 2 0 0 2 0 1) cmd0 = true ∧ legalCvt (opsV 1 2 3 32 1 0 4) cmd0 = true ∧ legalCvt (opsV 1 2 0 0 1 0 1) cmd0 = true
    ∧ sampleFmt (opFmt (opsV 1 2 0 0 1 0 0)) = true ∧ regsNamed cmd0.regCount 1 2 = true
    ∧ legalV (opsV 1 2 3 0 0 0 0x1A) = true ∧ sampleFmt (opMod (opsV 1 2 3 0 0 0 0x1A)) = true := by decide +kernel
theorem witness_BranchesComplete :
    cleanJ 0 = true ∧ group0.lanes issNone = 0 ∧ group0.lanes issAll ≠ 0 ∧ pairNamed cmd0.regCount (opTarget 0) = true
    ∧ groupP0.path.mask &&& ~~~(groupP0.lanes issP0) ≠ 0 ∧ (∀ l, (groupP0.lanes issP0).getLsbD l = true → (groupP0.pair l (opTarget 0)).toNat % 8 = 0) := by
  refine ⟨by decide +kernel, by decide +kernel, by decide +kernel, by decide +kernel, by decide +kernel, fun l _ => ?_⟩
  have h : groupP0.pair l (opTarget 0) = 0 := by simp [Group.pair, Group.reg, groupP0, group0, Tbl.get]
  rw [h]; rfl
theorem witness_ExitYieldFenceComplete :
    ¬ released (runsPending.fetched issAll cmd0 group0) issAll group0 1 ∧ released (runs.fetched issAll cmd0 group0) issAll group0 1 ∧ released (runsP0.fetched issP0 cmd0 groupP0) issP0 groupP0 4
    ∧ (runsP0.array 0).cohortOf 0 = some ⟨0, 0, 4096, 0, [], 0⟩ ∧ legalS (opsS 0 0 4 3) [0, 1, 2, 3] = true ∧ 2 ≤ opOrderS (opsS 0 0 4 3)
    ∧ opOrderS (opsS 0 0 4 1) < 2 := by
  refine ⟨?_, ?_, ?_, rfl, by decide +kernel, by decide +kernel, by decide⟩ <;> unfold released <;> decide +kernel
theorem witness_BarriersComplete :
    legalS (opsS 15 255 4 3) [0, 1, 3] = true ∧ legalS (opsS 15 255 1 2) [0, 2] = true ∧ opCount (opsS 15 255 4 3) = 255
    ∧ group0.lanes issAll ≠ 0 ∧ released (runs.fetched issAll cmd0 group0) issAll group0 (opScopeS (opsS 15 255 4 3)) := by
  refine ⟨by decide +kernel, by decide +kernel, by decide +kernel, by decide +kernel, ?_⟩ ; unfold released ; decide +kernel
theorem witness_LoadsAndStoresComplete :
    legalM cmd0.regCount (opsM 1 2 2 4 0) = true ∧ legalData cmd0.regCount (opsM 1 2 2 4 0) 1 = true ∧ opOrder (opsM 1 2 2 4 1) ≤ 1
    ∧ opOrder (opsM 1 2 2 4 2) = 2 ∧ opSpace (opsM 1 2 2 4 2) = 1 ∧ released (runs.fetched issAll cmd0 group0) issAll group0 (opActs (opsM 1 2 2 4 2)) := by
  refine ⟨by decide +kernel, by decide +kernel, by decide +kernel, by decide +kernel, by decide +kernel, ?_⟩ ; unfold released ; decide +kernel
/-- What is reached is in local store. -/
def isLocal : Dest → Bool
  | .localStore _ => true
  | _ => false

theorem reach_of_local {l : List (Nat × Dest)} (h : l.all (fun x => isLocal x.2) = true) : allReach l := by
  intro x hx
  have := List.all_eq_true.mp h x hx
  cases hd : x.2 <;> simp [hd, isLocal] at this ⊢

theorem witness_LoadsAndStoresComplete_reach :
    allReach (walked runs issAll cmd0 group0 (opsM 1 2 2 4 0) .read).1 ∧ allReach (walked runs issAll cmd0 group0 (opsM 1 2 2 4 2) .write).1 := by
  have h : ((walked runs issAll cmd0 group0 (opsM 1 2 2 4 0) .read).1.all (fun x => isLocal x.2) && (walked runs issAll cmd0 group0 (opsM 1 2 2 4 2) .write).1.all (fun x => isLocal x.2)) = true := by
    decide +kernel
  rw [Bool.and_eq_true] at h
  exact ⟨reach_of_local h.1, reach_of_local h.2⟩
theorem witness_AtomicsComplete :
    legalAtomic (opsM 2 1 3 4 3) 2 cmd0 = true ∧ (∀ x ∈ (walked runs issAll cmd0 group0 (opsM 2 1 3 4 3) .atomic).1, ∃ off, x.2 = .localStore off)
    ∧ released (runs.fetched issAll cmd0 group0) issAll group0 (opActs (opsM 2 1 3 4 3)) := by
  refine ⟨by decide +kernel, ?_, by unfold released ; decide +kernel⟩
  intro x hx
  have h : (walked runs issAll cmd0 group0 (opsM 2 1 3 4 3) .atomic).1.all (fun x => isLocal x.2) = true := by decide +kernel
  have := List.all_eq_true.mp h x hx
  cases hd : x.2 <;> simp [hd, isLocal] at this ⊢
theorem witness_TileInstructionsComplete :
    group0.token 7 = .clear ∧ (runs.array 0).queued < 32 ∧ ({ group0 with tokens := [(7, .busy)] } : Group).token 7 ≠ .clear
    ∧ legalMove false (opsV 0 2 4 6 1 0 0) 0 cmd0 = true ∧ legalMove true (opsV 0 2 4 6 1 0 0) 0 cmd0 = true
    ∧ legalGrid 0 0 false cmd0 = true ∧ legalGrid 0 0 true cmd0 = true ∧ field (0x0002#48) 16 32 = 0 ∧ group0.faulted 0xFF = none ∧ group0.busy 0xFF = false
    ∧ ({ group0 with tokens := [(7, .busy)] } : Group).busy 0x80 = true := by decide +kernel
theorem witness_IllegalEndsTheCommand :
    legalInt 18 0 cmd0 = false ∧ legalM cmd0.regCount (opsM 0 0 5 0 0) = false ∧ legalData cmd0.regCount (opsM 1 0 3 0 0) 1 = false
    ∧ legalAtomic (opsM 254 0 3 0 0) 2 cmd0 = false ∧ cleanJ (BitVec.ofNat 48 (2 ^ 40)) = false ∧ legalS (opsS 0 0 5 0) [0, 1, 2, 3] = false
    ∧ legalGrid (BitVec.ofNat 48 (2 ^ 36)) 0 false cmd0 = false := by decide +kernel

/-! ### Witnesses: loads under way, the sentry, faults -/

/-- No load of the group is under way. -/
theorem group0_pending (l : List Nat) : group0.pending l = [] := rfl

/-- A load of 4 bytes of local store into v1 of lane 0 that has been read. -/
def load0 : LoadOp := ⟨0, 0x1000, opsM 1 2 2 4 0, .read, 1, [(0, 0)], [(0, [1, 2, 3, 4])], []⟩
def groupLoad : Group := { group0 with loads := [load0] }
theorem goes_load : Goes (onArray groupLoad) issAll cmd0 groupLoad := ⟨rfl, rfl, rfl, rfl, rfl⟩
theorem witness_IntegerAndMovesComplete_held : legalInt 0 (opsV 1 1 1 0 0x0A 0 0) cmd0 = true ∧ groupLoad.pending (intRegs 0 (opsV 1 1 1 0 0x0A 0 0)) ≠ [] := by
  decide +kernel
theorem witness_ExitYieldFenceComplete_loads :
    legalS (opsS 0 0 4 1) [0, 1, 2, 3] = true ∧ opOrderS (opsS 0 0 4 1) = 1 ∧ opScopeS (opsS 0 0 4 1) ≠ 0 ∧ groupLoad.loads ≠ [] ∧ groupLoad.lanes issAll ≠ 0 := by
  decide +kernel

/-- The command with its sentry on, on an array that watches. -/
def cmdSentry : Cmd := { cmd0 with slots := [launchSlot ||| (1 <<< 344)] }
def runsSentry : State := { upState with arr := [(0, { array0 with sentryArmed := true })], chan := { upState.chan with cmds := [cmdSentry] } }
theorem goes_sentry : Goes runsSentry issAll cmdSentry group0 := ⟨rfl, rfl, rfl, rfl, rfl⟩
theorem witness_FloatingPointComplete_quiet : Quiet runs issAll cmd0 [(0, 2)] := Or.inl (by decide)
theorem witness_FloatingPointComplete_traps : Traps runsSentry issAll cmdSentry [(0, 2)] :=
  ⟨by decide, (0, 2), List.mem_singleton.mpr rfl, by decide, by decide +kernel⟩

/-- A group whose v0 and v1 hold an address that is not aligned, in each lane of p0. -/
def groupOdd : Group := { groupP0 with regs := [(0, 0x1001)] }
theorem goes_odd : Goes (onArray groupOdd) issP0 cmd0 groupOdd := ⟨rfl, rfl, rfl, rfl, rfl⟩
theorem witness_BranchesComplete_misaligned :
    cleanJ 0 = true ∧ pairNamed cmd0.regCount (opTarget 0) = true ∧ groupOdd.lanes issP0 = 1 ∧ (groupOdd.pair 0 (opTarget 0)).toNat % 8 ≠ 0 := by
  decide +kernel

/-- A load or store of the pool. -/
def opsPool (data base size order : Nat) : BitVec 48 := BitVec.ofNat 48 (data + base * 2 ^ 8 + size * 2 ^ 36 + order * 2 ^ 44)
/-- A lane meets a fault. -/
def isFault : Dest → Bool
  | .fault _ _ => true
  | _ => false
theorem fault_of_any {l : List (Nat × Dest)} (h : l.any (fun x => isFault x.2) = true) : ∃ x ∈ l, ∃ k b, x.2 = .fault k b := by
  obtain ⟨x, hx, hf⟩ := List.any_eq_true.mp h
  refine ⟨x, hx, ?_⟩
  cases hd : x.2 with
  | fault k b => exact ⟨k, b, rfl⟩
  | _ => simp [hd, isFault] at hf
theorem witness_LoadsAndStoresComplete_fault :
    legalM cmd0.regCount (opsPool 1 0 2 0) = true ∧ legalData cmd0.regCount (opsPool 1 0 2 0) 1 = true
    ∧ ∃ x ∈ (walked (onArray groupOdd) issP0 cmd0 groupOdd (opsPool 1 0 2 0) .read).1, ∃ k b, x.2 = .fault k b :=
  ⟨by decide +kernel, by decide +kernel, fault_of_any (by decide +kernel)⟩
theorem witness_TileInstructionsComplete_faulted :
    let g : Group := { group0 with tokens := [(7, .faulted ⟨.alignment, 9, 1, 0x2001, 0x1000⟩ ⟨0, 0, 0, 7, 0, 0x1000, .discard 0 1, none, [], true, none⟩ none)] }
    g.token 7 ≠ .clear ∧ g.token 7 ≠ .busy ∧ g.faulted 0x80 ≠ none := by decide +kernel
/-- Word 0 of class 0xF is no instruction. -/
theorem witness_IllegalEndsTheCommand_reserved : xaiDecode issAll (BitVec.ofNat 64 (15 * 2 ^ 60)) 0 = none := by decide +kernel

/-! ### Witnesses: residency, parks, channels and commands -/

/-- Bytes at an address, as memory lists them. -/
def bytesAt (a : Nat) (l : List Byte) : Tbl Byte := (l.zipIdx.map (fun x => (a + x.2, x.1))).filter (fun x => decide (x.2 ≠ 0))

/-- A full-array reduction of FP32 in segments of 1, with PATTERN_ID 7. -/
def patBytes : List Byte :=
  leBytes 4 0x4E544150 ++ leBytes 2 1 ++ leBytes 2 128 ++ leBytes 4 7 ++ [6, 0, 0, 0] ++ leBytes 4 0 ++ leBytes 4 1 ++ leBytes 8 0
    ++ leBytes 4 (2 ^ 32 - (0x4E544150 + 0x00800001 + 7 + 6 + 1 + 1 + 1)) ++ List.replicate 28 0
    ++ leBytes 8 0 ++ leBytes 8 1 ++ List.replicate 32 0 ++ leBytes 8 0 ++ leBytes 8 1

/-- Memory of PT1: one root entry maps its first addresses to the pool, the next to module 128; 0x2000 holds the descriptor, 0x3000 a doorbell of 1, 0x4000 a
descriptor of a QUEUE_FENCE. -/
def mappedBytes (s : State) (more : Tbl Byte) : State :=
  { s with mem := { s.mem with roots := [(1, some 262144)], bytes := bytesAt 0x2000 patBytes ++ [(0x3000, 1), (0x4000, 10)] ++ more ++ bytesAt (2 ^ 30) (leBytes 8 0xDF ++ leBytes 8 (0xDF + (2 ^ 41 + 2 ^ 36) * 2 ^ 10)) } }

/-- Such memory with its lines in the slices, one to a way. -/
def mapped (s : State) (more : Tbl Byte) : State :=
  let t := mappedBytes s more
  let lines := [64, 96, 128, 2 ^ 23] ++ (more.map (fun x => x.1 / 128)).dedup
  { t with mem := { t.mem with llc := (lines.zipIdx).map (fun x => ⟨x.1, none, 0, 0, x.2, 1, .normal, 0, 0, .i, .i, .clean, (t.memLine x.1).1, 0⟩) } }

/-- LA0 occupied by the command as given, nothing resident. -/
def occupied (c : Cmd) (o : Occupant) (a : ArrayState) : State := { upState with arr := [(0, { a with occ := some o })], chan := { upState.chan with cmds := [c] } }

theorem witness_GroupsStartZeroAtTheEntry :
    let s := occupied cmd0 ⟨⟨0, 0⟩, 1, 0, [], true, false⟩ ArrayState.idle
    s.occupantCmd 0 = some cmd0 ∧ cmd0.stage = .running ∧ cmd0.kind ≠ 5 ∧ cmd0.nextCohort 0 0 = some 0 ∧ (s.array 0).cohorts.length < cmd0.maxCohorts := by
  refine ⟨rfl, rfl, ?_, ?_, ?_⟩ <;> decide +kernel

theorem witness_ResidencyEventsComplete_first :
    let s := occupied cmd0 ⟨⟨0, 0⟩, 1, 0, [], false, false⟩ ArrayState.idle
    s.occupantCmd 0 = some cmd0 ∧ cmd0.kind ≠ 5 ∧ ∃ b u, s.argRead cmd0 = (.ok b, u) :=
  ⟨rfl, by decide +kernel, [], pair_of_fst (by decide +kernel)⟩
theorem witness_ResidencyEventsComplete_fetch :
    let s := mapped (occupied cmd0 ⟨⟨0, 0⟩, 1, 0, [⟨0, 7, 0x2000⟩], false, false⟩ ArrayState.idle) []
    s.occupantCmd 0 = some cmd0 ∧ ∃ u, s.fetchPattern cmd0 0x2000 = (.ok (patOf patBytes) 7, u) :=
  ⟨rfl, pair_of_fst (by decide +kernel)⟩

/-- A discard of the group, all of whose requests have been sent. -/
def sentDiscard : TileOp := ⟨0, 0, 0, 0, 0, 0x1000, .discard 0x2000 128, none, [], true, none⟩

/-- The module with a tile operation of the group queued. -/
def tiles (op : TileOp) (slots : Tbl (Option PatSlot)) : State :=
  mapped (occupied cmd0 ⟨⟨0, 0⟩, 1, 1, [], true, false⟩ { array0 with tq := [op], slots := slots }) []
theorem witness_TileOperationsComplete_discard :
    let s := tiles sentDiscard []
    s.occupantCmd 0 = some cmd0 ∧ s.groupFor 0 sentDiscard = some group0 ∧ group0.live ≠ [] ∧ sentDiscard.held = none ∧ (s.array 0).inFlight[0]? = some sentDiscard
      ∧ s.moveBehind (s.array 0) 1 sentDiscard = false ∧ s.tileSent 0 sentDiscard 4 = false := by
  refine ⟨rfl, ?_, ?_, rfl, ?_, ?_, ?_⟩ <;> decide +kernel
/-- A load of one row of eight FP32 elements from 0x2000, ordered or not. -/
def rowLoad (order : Nat) : TileOp := ⟨0, 0, 0, 0, 0, 0x1000, .load 0 0x2000 8 1 32 1 1 0 false 0 4 order 32, none, [], false, none⟩
theorem witness_TileOperationsComplete_acquire :
    (tiles (rowLoad 1) []).groupFor 0 (rowLoad 1) = some group0 ∧ ((tiles (rowLoad 1) []).array 0).inFlight[0]? = some (rowLoad 1)
      ∧ (tiles (rowLoad 1) []).moveBehind ((tiles (rowLoad 1) []).array 0) 1 (rowLoad 1) = false := by
  refine ⟨?_, ?_, ?_⟩ <;> decide +kernel
theorem witness_TileOperationsComplete_load :
    let s := tiles (rowLoad 0) []
    let u := (s.charge 1 (some cmd0.ref) .tile 1).charge 1 (some cmd0.ref) .sram 1
    let x : Tl := ⟨0, cmd0, rowLoad 0, group0⟩
    let v := (u.tileNeeds x 0 (moveCuts 0x2000 32 1 (rowBytes 1 8))).2
    s.moveBehind (s.array 0) 1 (rowLoad 0) = false ∧ (u.tileNeeds x 0 (moveCuts 0x2000 32 1 (rowBytes 1 8))).1 ≠ .wait
      ∧ (v.array 0).lsHolds 0 0 (rowBytes 1 8) = true ∧ (v.tileRow x 0 (lineCuts 0x2000 (rowBytes 1 8))).1 = .ok (patBytes.take 32) := by
  refine ⟨?_, ?_, ?_, ?_⟩ <;> decide +kernel
/-- A store of accumulators 0 to 7, and a reduction of a segment of four INT32 elements under pattern slot 0. -/
def accStore : TileOp := ⟨0, 0, 0, 0, 0, 0x1000, .store 0 0x2000 8 1 32 1 1 0 false 0 4 0 true 0 false 32, none, [], false, none⟩
def reduceOp : TileOp := ⟨0, 0, 0, 0, 0, 0x1000, .grid 5 0 0 4 0 0 false 0 256 0 0, none, [], false, none⟩
/-- The pattern of the reduction. -/
def sumPat : Pattern := { patOf patBytes with segment := 4, a := { (patOf patBytes).a with fmt := 10 }, d := { (patOf patBytes).d with fmt := 10 } }
theorem witness_TileOperationsComplete_accumulators :
    let c : Cmd := { cmd0 with slots := [launchSlot ||| (1 <<< 339)] }
    let s := occupied c ⟨⟨0, 0⟩, 1, 1, [], true, false⟩ { array0 with tq := [accStore] }
    s.occupantCmd 0 = some c ∧ (s.array 0).inGrid = some accStore ∧ s.groupFor 0 accStore = some group0 ∧ Tbl.get 0 (s.array 0).accFmt 0 = 0 ∧ accRange c 0 1 = true := by
  refine ⟨rfl, ?_, ?_, ?_, ?_⟩ <;> decide +kernel
theorem witness_TileOperationsComplete_reduce :
    let s := tiles reduceOp [(0, some ⟨sumPat, 7, 1⟩)]
    let r : GridRun := ⟨0, cmd0, reduceOp, sumPat, 0, 7, 5, 0, 0, 0, 256, 0, 0, 4, 0, false⟩
    (s.array 0).inGrid = some reduceOp ∧ gridServes 5 sumPat.kind = true ∧ sumPat.kind = 6 ∧ sumPat.operation = 0 ∧ (4 : Word).toNat % 2 ^ 32 ≤ sumPat.segment
      ∧ firstBad (r.checks (s.array 0)) = none ∧ firstBad (r.outChecks (s.array 0)) = none
      ∧ gridServes 2 sumPat.kind = false ∧ Tbl.get none (s.array 0).slots 1 = none := by
  refine ⟨?_, ?_, ?_, ?_, ?_, ?_, ?_, ?_, ?_⟩ <;> decide +kernel

/-- A load of one line into v1 that has come back, and one refused. -/
def loaded : LoadOp := ⟨0, 0x1000, opsPool 1 2 2 0, .read, 1, [(0, 0x2000)], [], [⟨0, .pool, 64, [(0, 0)], true, some (.data 5 0)⟩]⟩
def refusedLoad : LoadOp := { loaded with parts := [⟨0, .pool, 64, [(0, 0)], true, some .refused⟩] }
def waitsFor (w : WaitReason) (l : List LoadOp) : Group := { group0 with st := .waiting w, loads := l }

theorem witness_WaitingGroupsGoOn_operand :
    let g := waitsFor (.operand [0]) [loaded]
    (onArray g).groupOf ⟨0, 0, 0⟩ = some g ∧ (onArray g).occupantCmd 0 = some cmd0 ∧ (∀ x ∈ g.loads, (onArray g).arrivedAll 0 g x = true ∧ x.bad = false) ∧ g.path.eligible = true := by
  refine ⟨rfl, rfl, ?_, ?_⟩ <;> decide +kernel
theorem witness_WaitingGroupsGoOn_refused :
    let g := waitsFor (.operand [0]) [refusedLoad]
    (onArray g).groupOf ⟨0, 0, 0⟩ = some g ∧ (onArray g).arrivedAll 0 g refusedLoad = true ∧ refusedLoad.refusedLanes ≠ [] := by
  refine ⟨rfl, ?_, ?_⟩ <;> decide +kernel
theorem witness_WaitingGroupsGoOn_release :
    let g := waitsFor (.release 4) []
    (onArray g).groupOf ⟨0, 0, 0⟩ = some g ∧ (onArray g).occupantCmd 0 = some cmd0 ∧ (onArray g).releaseDone 0 0 0 4 = true ∧ g.path.eligible = true :=
  ⟨rfl, rfl, by decide +kernel, by decide +kernel⟩
theorem witness_WaitingGroupsGoOn_park :
    let f : ParkFault := ⟨.alignment, 1, 1, 0x2001, 0x1000⟩
    let g := waitsFor (.parkSlot f .instr none) []
    let s := { upState with arr := [(0, { array0 with groups := [g], faultQ := [(0, 0)] })], chan := { upState.chan with cmds := [cmd0] } }
    s.groupOf ⟨0, 0, 0⟩ = some g ∧ s.occupantCmd 0 = some cmd0 ∧ (s.array 0).freeSlot = some 0 ∧ (s.array 0).faultQ = [(g.cohort, g.num)] := ⟨rfl, rfl, rfl, rfl⟩
theorem witness_WaitingGroupsGoOn_queue :
    let g := waitsFor .queueSlot []
    (onArray g).groupOf ⟨0, 0, 0⟩ = some g ∧ ((onArray g).array 0).queued < 32 := ⟨rfl, by decide⟩
theorem witness_WaitingGroupsGoOn_quantum :
    let g : Group := { group0 with paths := [⟨0x1000, 1, none, 0⟩, ⟨0x2000, 2, none, 0⟩], sinceSwitch := 256 }
    (onArray g).groupOf ⟨0, 0, 0⟩ = some g ∧ g.st = .ready ∧ g.quantumDue = true := ⟨rfl, rfl, by decide⟩

theorem witness_ParksExpireAndCohortsTrap_expiry :
    let s := occupied cmd0 ⟨⟨0, 0⟩, 1, 1, [], true, false⟩ { array0 with groups := [{ group0 with st := .parked 15 }], parks := [(15, some ⟨0, 0, some 0, ⟨.alignment, 1, 1, 0x2001, 0x1000⟩, .instr, none⟩)] }
    s.occupantCmd 0 = some cmd0 ∧ (Tbl.get none (s.array 0).parks 15).isSome = true ∧ cmd0.isSealed = false ∧ cmd0.arrays ≠ [] ∧ cmd0.parkKills < 2 := by
  refine ⟨rfl, rfl, ?_, ?_, ?_⟩ <;> decide +kernel
theorem witness_ParksExpireAndCohortsTrap_barrier :
    let s := onArray { group0 with st := .waiting .barrier, paths := [⟨0x1000, 1, some ⟨false, 0, 0, false, 0⟩, 0⟩, ⟨0x2000, 2, some ⟨false, 1, 0, false, 0⟩, 0⟩] }
    s.occupantCmd 0 = some cmd0 ∧ (s.array 0).freeSlot = some 0 ∧ (s.array 0).diverged 0 = true := ⟨rfl, rfl, by decide⟩

/-- The module with that channel as channel 0. -/
def withChan (e : BitVec 512) (d : ChanDyn) : State :=
  mapped { upState with chan := { upState.chan with entries := [(0, e)], dyn := [(0, d)] } } []

theorem witness_DoorbellsReachTheChannel_host :
    let s := withChan (entryOf 0 true 0) { ChanDyn.reset with assigned := true }
    s.up = true ∧ entState (s.entry 0) = 1 ∧ entHost (s.entry 0) 1 = true ∧ s.hostOk (s.chanCtx 0) (blk (s.entry 0) 8 0 55) = true := by
  refine ⟨?_, ?_, ?_, ?_⟩ <;> decide +kernel
theorem witness_DoorbellsReachTheChannel_device :
    let s := withChan (entryOf 0 false 0) { ChanDyn.reset with assigned := true }
    entState (s.entry 0) = 1 ∧ entHost (s.entry 0) 1 = false ∧ s.frontBusy 0 false 0x3000 8 = false ∧ blk (s.entry 0) 8 0 64 = 0x3000
      ∧ (s.frontRead 0 false 0x3000 8 (.data [])).1 = .ok [1, 0, 0, 0, 0, 0, 0, 0] := by
  refine ⟨?_, ?_, ?_, ?_, ?_⟩ <;> decide +kernel
theorem witness_DoorbellsReachTheChannel_nudges :
    let s := withChan (entryOf 1 false 511) { ChanDyn.reset with assigned := true }
    s.barServes 0 1 = true ∧ fnOf (entFn (s.entry 0)) = (0, 1) ∧ blk (s.entry 0) 36 0 16 = 511
      ∧ fnOf (entFn ((withChan (entryOf 0 false 0) ChanDyn.reset).entry 0)) = (0, 0)
      ∧ ∀ d : Fin 3072, (s.dyn d).assigned = true → d = 0 := by
  refine ⟨?_, ?_, ?_, ?_, fun d h => ?_⟩
  case refine_5 =>
    by_contra hd
    have : ¬ d.val = 0 := fun h0 => hd (Fin.ext h0)
    simp [withChan, mapped, mappedBytes, State.dyn, Tbl.get, ChanDyn.reset, Ne.symm this] at h
  all_goals decide +kernel

theorem witness_DescriptorFetchTakesTheCommand :
    let s := withChan (entryOf 0 false 0) { ChanDyn.reset with assigned := true, producer := 1 }
    s.heldSlots 0 < 8 ∧ s.slotsBusy 0 = false ∧ 0 < ((s.dyn 0).producer - entConsumed (s.entry 0)).toNat
      ∧ (s.slotsRead 0 (.data []) 0 1).1 = .ok [10] ∧ 1 + blk (10 : BitVec 512) 2 0 3 ≤ 1 ∧ ((s.slotsRead 0 (.data []) 0 1).2.slotsRead 0 (.data []) 1 0).1 = .ok [] := by
  refine ⟨?_, ?_, ?_, ?_, ?_, ?_⟩ <;> decide +kernel

/-- A command of channel 0 with a descriptor, fetched, its waits holding. -/
def fetched (d : BitVec 512) : Cmd := { cmd0 with slots := [d], stage := .fetched, started := false, arrays := [], left := 0 }
/-- A descriptor of a kind with fields at bytes. -/
def desc (kind : Nat) (l : List (Nat × Nat)) : BitVec 512 := BitVec.ofNat 512 (kind + (l.map (fun x => x.2 <<< (8 * x.1))).foldl (· + ·) 0)
/-- The module with one command. -/
def withCmd (c : Cmd) : State := mapped { upState with chan := { upState.chan with cmds := [c] } } (bytesAt 0x7000 (leBytes 8 0x2000 ++ leBytes 8 128))

theorem witness_CommandsStart_launch :
    let x := fetched launchSlot
    let s := withCmd x
    s.cmd x.ref = some x ∧ s.up = true ∧ x.kind = 1 ∧ s.ready x = true ∧ s.candidates 1 = [x] ∧ s.effPriority 1 0 ≤ 7 ∧ x.names = [0] ∧ s.placeInvalid x x.names = false
      ∧ s.unbound 0 = false ∧ s.leaving 1 0 = false ∧ (s.partition 1).floor.contains 0 = true ∧ (s.array 0).occ = none := by
  refine ⟨?_, ?_, ?_, ?_, ?_, ?_, ?_, ?_, ?_, ?_, ?_, ?_⟩ <;> decide +kernel
theorem witness_CommandsStart_patternLoad :
    let x : Cmd := { fetched (desc 5 [(16, 0x2000), (26, 1), (28, 3), (32, 7)]) with stage := .running, arrays := [0] }
    (withCmd x).cmd x.ref = some x ∧ x.kind = 5 ∧ ((withCmd x).fetchPattern x (blk x.head 16 0 64)).1 = .ok (patOf patBytes) 7 := by
  refine ⟨?_, ?_, ?_⟩ <;> decide +kernel
theorem witness_CommandsStart_queueFence :
    let x := fetched (desc 10 [])
    (withCmd x).ready x = true ∧ x.kind = 10 ∧ (withCmd x).fenced x = [] := by
  refine ⟨?_, ?_, ?_⟩ <;> decide +kernel
theorem witness_CommandsStart_retest :
    let x := { fetched (desc 10 []) with waitsHeld := false }
    (withCmd x).heldBack x = false ∧ ((withCmd x).semEntriesTest x (semEntries x.slots)).1 = .holds := by
  refine ⟨?_, ?_⟩ <;> decide +kernel

theorem witness_EngineCommandsFinish_copy :
    let x := fetched (desc 3 [(16, 0x2000), (24, 0x6000), (32, 1), (36, 1), (40, 1), (44, 1), (45, 1)])
    let c : Cmd := { x with stage := .running, started := true }
    let u := ((withCmd x).begin x.ref 3).2
    let sh := copyShape c.slots
    let g := u.engGets c 0 (scaleReads c.slots ++ sh.reads)
    let w := g.2.engPuts c 0 (copyWrites sh sh.elements (c.copyHow.rows sh.elements ((g.1.getD []).take 1) [] (genSeed 0 0x3FF 0)) [] 0)
    ((withCmd x).begin x.ref 3).1 = some c ∧ (sh.writes ++ scaleRange c.slots).any (fun r => u.rangeBusy c.part r.1 r.2) = false ∧ blk c.head 47 0 3 = 0
      ∧ (sh.writes.map (fun r => lastByte sh.dstFmt sh.elements r.1)).flatten = [] ∧ scaleReads c.slots = [] ∧ g.1 = some [[0x50, 0x41, 0x54, 0x4E]] ∧ w.1 = true ∧ (w.2.cmd x.ref).isSome = true := by
  refine ⟨?_, ?_, ?_, ?_, ?_, ?_, ?_, ?_⟩ <;> decide +kernel
theorem witness_EngineCommandsFinish_fill :
    let x := fetched (desc 4 [(16, 0x6000), (24, 64)])
    let c : Cmd := { x with stage := .running, started := true }
    let u := ((withCmd x).begin x.ref 4).2
    let w := u.engPuts c 0 [(0x6000, fillBytes 0 64)]
    ((withCmd x).begin x.ref 4).1 = some c ∧ u.rangeBusy 1 0x6000 64 = false ∧ w.1 = true ∧ (w.2.cmd x.ref).isSome = true := by
  refine ⟨?_, ?_, ?_, ?_⟩ <;> decide +kernel
theorem witness_EngineCommandsFinish_invalidate :
    let x := fetched (desc 9 [(16, 1)])
    ((withCmd x).begin x.ref 9).1 = some { x with stage := .running, started := true } ∧ (withCmd x).mem.homeReqs = [] ∧ (withCmd x).host.reads = [] ∧ (withCmd x).link.reqs = [] ∧ blk x.head 16 0 8 = 1 := by
  refine ⟨?_, ?_, ?_, ?_, ?_⟩ <;> decide +kernel
theorem witness_EngineCommandsFinish_remoteCopy :
    let x := fetched (desc 8 [(16, 0x2000), (24, 2 ^ 48), (32, 128)])
    let u := ((withCmd x).begin x.ref 8).2
    ((withCmd x).begin x.ref 8).1 = some { x with stage := .running, started := true } ∧ blk x.head 32 0 64 ≠ 0
      ∧ (u.remoteAt 1 0x2000 false).isSome ≠ (u.remoteAt 1 (2 ^ 48) true).isSome
      ∧ blk (fetched (desc 8 [])).head 32 0 64 = 0 ∧ ((withCmd (fetched (desc 8 []))).begin x.ref 8).1.isSome = true := by
  refine ⟨?_, ?_, ?_, ?_, ?_⟩ <;> decide +kernel
theorem witness_EngineCommandsFinish_checkpoint :
    let x := fetched (desc 7 [(16, 0x7000), (24, 1), (32, 0x8000), (40, 512)])
    let c : Cmd := { x with stage := .running, started := true }
    ((withCmd x).begin x.ref 7).1 = some c ∧ c.sent = 0 ∧ (((withCmd x).begin x.ref 7).2.ckBuild c).1.isSome = true := by
  refine ⟨?_, rfl, ?_⟩ <;> decide +kernel

theorem witness_CommandsEnd_commit :
    let x : Cmd := { fetched (desc 10 []) with stage := .finished }
    let s := withCmd x
    s.cmd x.ref = some x ∧ (s.applyStep x).1 = true ∧ ((s.applyStep x).2.writeReport x).1 = true ∧ ((s.applyStep x).2.writeReport x).2.cmd x.ref = some x
      ∧ ((s.applyStep x).2.writeReport x).2.performed x.ref = true ∧ semEntries x.slots = [] := by
  refine ⟨?_, ?_, ?_, ?_, ?_, ?_⟩ <;> decide +kernel
theorem witness_CommandsEnd_drain :
    let x : Cmd := { cmd0 with stage := .draining none, reruns := 15 }
    let s := occupied x ⟨⟨0, 0⟩, 1, 1, [], true, true⟩ ArrayState.idle
    s.cmd x.ref = some x ∧ x.arrays = [0] ∧ (s.array 0).cohorts = [] ∧ (s.array 0).tq = [] ∧ x.reruns < rerunLimit (s.entry x.ch)
      ∧ (s.array 0).occ.any (fun o => decide (o.cmd = x.ref)) = true := by
  refine ⟨?_, ?_, ?_, ?_, ?_, ?_⟩ <;> decide +kernel
/-- A STEP of PT1 over no sequence, its template at 0x9000 and its pool at 0xA000. -/
def stepState : State :=
  let s := mapped { upState with chan := { upState.chan with
    parts := [(1, { Partition.absent with mode := .live, floor := [0], serving := true, seqBase := 0xB000, seqCount := 0, pool := 0xA000 })]
    cmds := [fetched (desc 2 [(16, 0x9000), (24, 0xC000), (32, 1), (36, 1)])] } } (bytesAt 0x9000 (leBytes 64 launchSlot.toNat) ++ [(0xA008, 4)])
  s
/-- The build can be made and its writes land. -/
def stepLands (x : Cmd) : Except StepEnd Built × State → Bool
  | (.ok b, u) => !(stepWrites x b).any (fun y => u.rangeBusy x.part y.1 y.2.length) && decide ((u.putAll x 0 (stepWrites x b)).1 = .ok)
      && decide ((u.putAll x 0 (stepWrites x b)).2.cmd x.ref = some x)
  | _ => false
theorem witness_CommandsEnd_step :
    let x := fetched (desc 2 [(16, 0x9000), (24, 0xC000), (32, 1), (36, 1)])
    stepState.ready x = true ∧ stepState.stepHeld x = false ∧ ∃ b u v, stepState.stepBuild x = (.ok b, u) ∧ (stepWrites x b).any (fun y => u.rangeBusy x.part y.1 y.2.length) = false
      ∧ u.putAll x 0 (stepWrites x b) = (.ok, v) ∧ v.cmd x.ref = some x := by
  have h : stepLands (fetched (desc 2 [(16, 0x9000), (24, 0xC000), (32, 1), (36, 1)])) (stepState.stepBuild (fetched (desc 2 [(16, 0x9000), (24, 0xC000), (32, 1), (36, 1)]))) = true := by
    decide +kernel
  refine ⟨by decide +kernel, by decide +kernel, ?_⟩
  revert h
  generalize fetched (desc 2 [(16, 0x9000), (24, 0xC000), (32, 1), (36, 1)]) = x
  generalize stepState.stepBuild x = p
  obtain ⟨r, u⟩ := p
  cases r with
  | error e => intro h; exact absurd h (by simp [stepLands])
  | ok b =>
    intro h
    simp only [stepLands, Bool.and_eq_true, Bool.not_eq_true', decide_eq_true_eq] at h
    exact ⟨b, u, _, rfl, h.1.1, Prod.ext h.1.2 rfl, h.2⟩

theorem witness_CommandsEnd_replay :
    let x := fetched (desc 6 [])
    x.kind = 6 ∧ ((withCmd x).replayAll x 0 (blk x.head 16 0 8)).2.cmd x.ref = some x := by
  refine ⟨?_, ?_⟩ <;> decide +kernel
/-- A REPLAY of ticket 0 beside a command parked on LA0 in slot 0. -/
def replayCmd (action : Nat) : Cmd := { fetched (desc 6 [(16, 1), (56, action)]) with idx := 1 }
def replayState (action : Nat) (tickets : BitVec 32) : State :=
  let s := occupied cmd0 ⟨⟨0, 0⟩, 1, 1, [], true, false⟩ { array0 with groups := [{ group0 with st := .parked 0 }], parks := [(0, some ⟨tickets, 0, some 0, ⟨.translation, 1, 1, 0x2000, 0x1000⟩, .instr, none⟩)] }
  { s with chan := { s.chan with cmds := [cmd0, replayCmd action] } }
theorem witness_CommandsEnd_replayOne :
    let s := replayState 1 0
    s.cmd ⟨0, 1⟩ = some (replayCmd 1) ∧ (replayCmd 1).kind = 6 ∧ blk (replayCmd 1).head 16 0 8 = 1 ∧ bits (replayCmd 1).head 192 32 = 0 ∧ s.occupantCmd 0 = some cmd0
      ∧ (Tbl.get none (s.array 0).parks 0).isSome = true ∧ cmd0.part = (replayCmd 1).part ∧ blk (replayCmd 1).head 56 0 8 = 1 ∧ blk (replayCmd 0).head 56 0 8 = 0
      ∧ 3 ≤ blk (replayCmd 3).head 56 0 8 ∧ ((replayState 0 512).array 0).parks ≠ [] ∧ group0.live ≠ [] := by
  refine ⟨?_, ?_, ?_, ?_, ?_, ?_, ?_, ?_, ?_, ?_, ?_, ?_⟩ <;> decide +kernel
/-- Nothing at the template of a STEP. -/
theorem witness_CommandsEnd_stepError :
    let x := fetched (desc 2 [(16, 0x2000), (24, 0xC000), (32, 1), (36, 1)])
    (withCmd x).stepHeld x = false ∧ (match ((withCmd x).stepBuild x).1 with
      | .error _ => true
      | .ok _ => false) = true := by
  refine ⟨?_, ?_⟩ <;> decide +kernel
theorem witness_CommandsEnd_holdoff :
    let s (due : Bool) : State := withChan (entryOf 0 false 0) { ChanDyn.reset with holding := true, irqDue := due }
    ((s true).dyn 0).holding = true ∧ ((s true).dyn 0).irqDue = true ∧ ((s false).dyn 0).holding = true ∧ ((s false).dyn 0).irqDue = false := ⟨rfl, rfl, rfl, rfl⟩

theorem witness_SchedulerLimitsTakeEffect_commands :
    (withCmd { fetched launchSlot with donating := some 0 }).up = true
    ∧ (let x : Cmd := { fetched launchSlot with placement := some ⟨0, [(0, 1)]⟩ } ; x.usesArrays = true ∧ (withCmd x).ready x = true ∧ x.names.any (fun la => (withCmd x).unbound la) = true)
    ∧ (let x : Cmd := { cmd0 with slots := [launchSlot ||| 0x200], sealOverrun := true } ; x.stage = .running ∧ x.isSealed = true ∧ x.arrays ≠ []) := by
  refine ⟨?_, ⟨?_, ?_, ?_⟩, ⟨?_, ?_, ?_⟩⟩ <;> decide +kernel
/-- A running command on LA0 in slice of queue 0, and one of queue 1 that names LA0. -/
def contended : State :=
  let s := onArray group0
  { s with chan := { s.chan with
    parts := [(1, { Partition.absent with mode := .live, floor := [0], queues := [(0, { QueueState.reset with inSlice := true })] })]
    cmds := [cmd0, { fetched launchSlot with idx := 1, queue := 1 }] } }
theorem witness_SchedulerLimitsTakeEffect_slice :
    contended.up = true ∧ ((contended.partition 1).queue 0).inSlice = true ∧ contended.contender 1 0 = true := by
  refine ⟨?_, ?_, ?_⟩ <;> decide +kernel
theorem witness_SchedulerLimitsTakeEffect_loan :
    let s : State := { upState with chan := { upState.chan with parts := [(1, { Partition.absent with mode := .live, floor := [0], loan := some ⟨0, 1, 2, 10⟩ })] } }
    s.offerOf 0 = some (1, ⟨0, 1, 2, 10⟩) ∧ Tbl.get false s.chan.lent 0 = false ∧ (s.array 0).occ = none ∧ s.chan.cmds = [] := by
  refine ⟨?_, ?_, ?_, ?_⟩ <;> decide +kernel

/-! ### Witnesses: partition and channel actions -/

/-- Host software of P0 asks for a partition action on a partition, with its arguments, in a state. -/
def asks (s : State) (p : Fin 16) (a : List Word) : State := s.setRegs 0 { (s.port 0).regs with partSelect := BitVec.ofNat 4 p.val, partArg := a }
/-- PT1 without a channel, with figures. -/
def askState : State := { upState with chan := { upState.chan with entries := [], dyn := [], parts := [(1, { Partition.absent with mode := .live, floor := [0], cores := [5], credits := [1, 1, 1, 1] })] } }
def asking (p : Fin 16) (a : List Word) : State := asks askState p a

theorem witness_PartitionGrants_create : (asking 2 [5, 0, 0, 0]).Asks 0 1 2 .absent := by unfold State.Asks; decide +kernel
theorem witness_PartitionGrants_destroy :
    (asking 1 [0, 0, 0, 0]).Asks 0 2 1 .live ∧ (asking 1 [0, 0, 0, 0]).chansOf 1 = [] := by
  unfold State.Asks; refine ⟨?_, ?_⟩ <;> decide +kernel
/-- The only channel with an entry is channel 0. -/
theorem only_channel (s : State) (e : BitVec 512) (h : s.chan.entries = [(0, e)]) (ch : Fin 3072) : s.entry ch = if ch = 0 then e else 0 := by
  simp only [State.entry, h, Tbl.get]
  by_cases hc : ch.val = 0
  · rw [if_pos hc.symm, if_pos (Fin.ext hc)]
  · rw [if_neg (fun h => hc h.symm), if_neg (fun e => hc (congrArg Fin.val e))]
theorem witness_PartitionGrants_destroyRunning :
    let s := asks { upState with chan := { upState.chan with entries := [(0, setEntState (entryOf 0 false 0) 2)] } } 1 [0, 0, 0, 0]
    s.Asks 0 2 1 .live ∧ (∀ ch ∈ s.chansOf 1, entState (s.entry ch) = 2) ∧ s.chansOf 1 ≠ [] := by
  intro s
  have he : s.chan.entries = [(0, setEntState (entryOf 0 false 0) 2)] := rfl
  refine ⟨by unfold State.Asks; decide +kernel, ?_, List.ne_nil_of_mem (a := 0) (List.mem_filter.mpr ⟨List.mem_finRange 0, by decide +kernel⟩)⟩
  intro ch h
  have h := (List.mem_filter.mp h).2
  rw [only_channel s _ he ch] at h ⊢
  by_cases hc : ch = 0
  · simp only [hc, if_true]; decide +kernel
  · rw [if_neg hc] at h; exact absurd (of_decide_eq_true (Bool.and_eq_true_iff.mp h).1) (by decide +kernel)
theorem witness_PartitionGrants_arrays :
    let s := asking 1 [383 + 0x10000, 0, 0, 0]
    s.Asks 0 3 1 .live ∧ arg (s.port 0).regs.partArg 0 0 9 = 383 ∧ arg (s.port 0).regs.partArg 0 16 9 = 1 ∧ s.floorOf 383 = none := by
  unfold State.Asks; refine ⟨?_, ?_, ?_, ?_⟩ <;> decide +kernel
theorem witness_PartitionGrants_releaseArrays :
    let s := asking 1 [0x10000, 0, 0, 0]
    s.Asks 0 4 1 .live ∧ arg (s.port 0).regs.partArg 0 0 9 = 0 ∧ arg (s.port 0).regs.partArg 0 16 9 = 1 ∧ (s.partition 1).loan = none
      ∧ 0 ∈ (s.partition 1).floor ∧ (s.array 0).occ = none := by
  unfold State.Asks; refine ⟨?_, ?_, ?_, ?_, ?_, ?_⟩ <;> decide +kernel
theorem witness_PartitionGrants_plots :
    let s := asking 1 [1127 + 0x10000, 0, 0, 0]
    s.Asks 0 5 1 .live ∧ arg (s.port 0).regs.partArg 0 0 11 = 1127 ∧ arg (s.port 0).regs.partArg 0 16 11 = 1 ∧ s.admits = true
      ∧ s.confinedBand 46 = (s.partition 1).confined ∧ (s.partition 1).confined = false ∧ s.plotAbsent 1127 = false ∧ s.plot 1127 = .free := by
  unfold State.Asks; refine ⟨?_, ?_, ?_, ?_, ?_, ?_, ?_, ?_⟩ <;> decide +kernel
theorem witness_PartitionGrants_releasePlots :
    let s := asking 1 [1 + 0x10000, 0, 0, 0]
    s.Asks 0 6 1 .live ∧ arg (s.port 0).regs.partArg 0 0 11 = 1 ∧ arg (s.port 0).regs.partArg 0 16 11 = 1 ∧ 1 ∈ s.plotsOf 1 ∧ s.plotStuck 1 = false ∧ s.plotDark 1 = false := by
  unfold State.Asks; refine ⟨?_, ?_, ?_, ?_, ?_, ?_⟩ <;> decide +kernel
theorem witness_PartitionGrants_cores :
    let t := asking 1 [1, 0, 0, 0]
    let s : State := { t with mem := { t.mem with ways := [(1, { PartWays.reset with mask := 3 })] }, atlas := { t.atlas with cores := [(159, { CoreState.reset with st := 0 })] } }
    s.Asks 0 7 1 .live ∧ arg (s.port 0).regs.partArg 0 0 8 = 1 ∧ 2 ≤ pop (s.ways 1).mask ∧ (s.partition 1).confined = false
      ∧ 1 ≤ (s.freeCores 0).length + (s.freeCores 1).length := by
  unfold State.Asks; refine ⟨?_, ?_, ?_, ?_, ?_⟩ <;> decide +kernel
theorem witness_PartitionGrants_releaseCores :
    let s := asking 1 [1, 0, 0, 0]
    s.Asks 0 8 1 .live ∧ arg (s.port 0).regs.partArg 0 0 8 = 1 ∧ 1 ≤ (s.partition 1).cores.length := by
  unfold State.Asks; refine ⟨?_, ?_, ?_⟩ <;> decide +kernel

theorem witness_PartitionSettings_bandwidth :
    let s := asking 1 [0, 0, 0, 0]
    s.Asks 0 9 1 .live ∧ 100 * 0 ≤ s.healthy ∧ 0 ≤ (s.partition 1).guarantee := by
  unfold State.Asks; refine ⟨?_, ?_, ?_⟩ <;> decide +kernel
theorem witness_PartitionSettings_limits :
    let s (a b c d : Nat) := asking 1 [BitVec.ofNat 64 (a + b * 2 ^ 16 + c * 2 ^ 32 + d * 2 ^ 48), 0, 0, 0]
    ((s 1 1 1 1).Asks 0 10 1 .live ∧ arg ((s 1 1 1 1).port 0).regs.partArg 0 0 16 = 1 ∧ arg ((s 1 1 1 1).port 0).regs.partArg 0 48 16 = 1)
    ∧ (s 1000 10000 10000 1000).Asks 0 10 1 .live ∧ arg ((s 1000 10000 10000 1000).port 0).regs.partArg 0 0 16 = 1000
      ∧ arg ((s 1000 10000 10000 1000).port 0).regs.partArg 0 16 16 = 10000 ∧ arg ((s 1000 10000 10000 1000).port 0).regs.partArg 0 32 16 = 10000
      ∧ arg ((s 1000 10000 10000 1000).port 0).regs.partArg 0 48 16 = 1000 := by
  unfold State.Asks; refine ⟨⟨?_, ?_, ?_⟩, ?_, ?_, ?_, ?_, ?_⟩ <;> decide +kernel
theorem witness_PartitionSettings_queue :
    let s := asking 1 [0x0000006400000100 + 63, 0, 0, 0]
    let t := asking 1 [0x000F424000000000, 0, 0, 0]
    (s.Asks 0 11 1 .live ∧ arg (s.port 0).regs.partArg 0 0 6 = 63 ∧ arg (s.port 0).regs.partArg 0 32 20 = 100 ∧ s.chan.cmds = [])
    ∧ t.Asks 0 11 1 .live ∧ arg (t.port 0).regs.partArg 0 32 20 = 1000000 := by
  unfold State.Asks; refine ⟨⟨?_, ?_, ?_, ?_⟩, ?_, ?_⟩ <;> decide +kernel
theorem witness_PartitionSettings_loan :
    let s := asks { askState with chan := { askState.chan with parts := [(1, { Partition.absent with mode := .live, floor := [383] }), (2, { Partition.absent with mode := .live })] } } 1 [0x000A00020001017F, 0, 0, 0]
    s.Asks 0 12 1 .live ∧ (s.partition 1).loan = none ∧ arg (s.port 0).regs.partArg 0 0 9 = 383 ∧ arg (s.port 0).regs.partArg 0 16 9 = 1
      ∧ toPart (arg (s.port 0).regs.partArg 0 32 4) = 2 ∧ arg (s.port 0).regs.partArg 0 48 16 = 10 ∧ (s.partition 2).mode = .live ∧ 383 ∈ (s.partition 1).floor := by
  unfold State.Asks; refine ⟨?_, ?_, ?_, ?_, ?_, ?_, ?_, ?_⟩ <;> decide +kernel
theorem witness_PartitionSettings_credits :
    let s := asking 1 [0xC0C0C0C0, 0, 0, 0]
    s.Asks 0 13 1 .live ∧ (∀ v, v < 4 → ((allParts.map (fun q => if q = 1 then arg (s.port 0).regs.partArg 0 (8 * v) 8 else (s.partition q).credits.getD v 0)).foldl (· + ·) 0) ≤ 192)
      ∧ arg (s.port 0).regs.partArg 0 24 8 = 192 := by
  unfold State.Asks; refine ⟨?_, ?_, ?_⟩ <;> decide +kernel
theorem witness_PartitionSettings_rings :
    let s := asks (mapped askState (bytesAt 0x5000 (leBytes 8 0x6000 ++ leBytes 8 1 ++ [4]))) 1 [0x5000, 0, 0, 0]
    let c : Ctx := ⟨1, 0, 0, some 0⟩
    s.Asks 0 14 1 .live ∧ bits ((s.port 0).regs.partArg.getD 2 0) 16 8 = 0 ∧ (s.ringRead c 0x5000 false none).1 = some (some ⟨0x5000, 0x6000, 1, 4, false, 0, 0⟩)
      ∧ ((s.ringRead c 0x5000 false none).2.ringRead c 0 false none).1 = some none := by
  unfold State.Asks; refine ⟨?_, ?_, ?_, ?_⟩ <;> decide +kernel
theorem witness_PartitionSettings_serving :
    let s := asking 1 [0xB000, 32768, 0xA000, 4096]
    s.Asks 0 15 1 .live ∧ arg (s.port 0).regs.partArg 0 0 6 = 0 ∧ arg (s.port 0).regs.partArg 1 0 16 = 32768 ∧ arg (s.port 0).regs.partArg 3 0 16 = 4096
      ∧ (allParts.map (fun q => if q = 1 then arg (s.port 0).regs.partArg 1 0 16 else (s.partition q).seqCount)).foldl (· + ·) 0 ≤ 32768 := by
  unfold State.Asks; refine ⟨?_, ?_, ?_, ?_, ?_⟩ <;> decide +kernel

theorem witness_PartitionActionsAreChecked :
    let bad := asking 1 [0, 1, 0, 0]
    let own := asking 0 [0, 0, 0, 0]
    let gone := asking 2 [0, 0, 0, 0]
    let busy := bad.setRegs 0 { (bad.port 0).regs with partBusy := true }
    (bad.up = true ∧ bad.barServes 0 0 = true ∧ (bad.port 0).regs.partBusy = false ∧ bad.chan.acts = [] ∧ bad.actPart (.host 0) = 1 ∧ (bad.partition 1).mode = .live
      ∧ argsOk 13 (bad.port 0).regs.partArg = false)
    ∧ (own.actPart (.host 0) = 0 ∧ (own.port 0).regs.partBusy = false ∧ own.barServes 0 0 = true ∧ own.chan.acts = [])
    ∧ (gone.actPart (.host 0) = 2 ∧ (gone.partition 2).mode ≠ .live ∧ gone.barServes 0 0 = true ∧ gone.chan.acts = [])
    ∧ ((busy.port 0).regs.partBusy = true ∧ busy.barServes 0 0 = true) := by
  refine ⟨⟨?_, ?_, ?_, ?_, ?_, ?_, ?_⟩, ⟨?_, ?_, ?_, ?_⟩, ⟨?_, ?_, ?_, ?_⟩, ?_, ?_⟩ <;> decide +kernel

/-- Host software of P0 selects a channel whose entry is given. -/
def chanAsks (e : BitVec 512) (sel : Nat) (d : ChanDyn) : State :=
  let s : State := { upState with chan := { upState.chan with entries := [(sel, e)], dyn := [(sel, d)] } }
  s.setRegs 0 { (s.port 0).regs with chanSelect := BitVec.ofNat 12 sel, chanData := entryWords (entryOf 0 true 0) }
def chanTaken (s : State) (ch : Fin 3072) : Bool :=
  s.up && s.barServes 0 0 && !(s.port 0).regs.chanBusy && decide (s.chan.acts = []) && decide ((s.port 0).regs.chanSelect.toNat = ch.val)
    && (!(s.dyn ch).assigned || decide ((fnOf (entFn (s.entry ch))).1 = 0))
theorem witness_ChannelActions_write :
    let s := chanAsks 0 3071 ChanDyn.reset
    let w := wordsEntry (s.port 0).regs.chanData
    chanTaken s 3071 = true ∧ entState (s.entry 3071) = 0 ∧ (fnOf (entFn w)).1 = 0 ∧ entryOk w = true ∧ s.nudgeTaken 3071 w = false ∧ entPart w = 1
      ∧ (s.partition 1).mode = .live ∧ s.fnOfPart 1 0 (fnOf (entFn w)).2 = true ∧ s.lockBars 1 (entFn w) = false := by
  refine ⟨?_, ?_, ?_, ?_, ?_, ?_, ?_, ?_, ?_⟩ <;> decide +kernel
theorem witness_ChannelActions_running :
    let s (st : Nat) := chanAsks (setEntState (entryOf 0 true 0) st) 0 { ChanDyn.reset with assigned := true, stop := some .stop }
    (∀ st : Fin 5, chanTaken (s st.val) 0 = true ∧ entState ((s st.val).entry 0) = st.val) ∧ (∀ st : Fin 5, (s st.val).chanCmds 0 = [])
      ∧ entPart ((s 3).entry 0) = 1 ∧ ((s 3).partition 1).mode = .live ∧ (s 4).lockBars 1 (entFn ((s 4).entry 0)) = false ∧ entHost ((s 3).entry 0) 1 = true
      ∧ ((s 2).dyn 0).stop = some .stop := by
  refine ⟨?_, ?_, ?_, ?_, ?_, ?_, ?_⟩ <;> decide +kernel
/-- The block of a SET_LIMITS call of PT1 in the pool. -/
theorem witness_PartitionSettings_call :
    let s := mapped askState (bytesAt 0x7000 (leBytes 8 (1000 + 10000 * 2 ^ 16 + 10000 * 2 ^ 32 + 10 * 2 ^ 48)))
    let u := s.callBlock 1 0x7000 (.data [])
    s.up = true ∧ s.chan.acts = [] ∧ u.1 = some ((BitVec.ofNat 64 (1000 + 10000 * 2 ^ 16 + 10000 * 2 ^ 32 + 10 * 2 ^ 48)) :: List.replicate 15 0)
      ∧ u.2.chan.acts = [] ∧ (u.2.partition 1).mode = .live := by
  refine ⟨?_, ?_, ?_, ?_, ?_⟩ <;> decide +kernel

/-! ### Witnesses: partition services, mailbox, debug -/

theorem witness_PartitionCalls_calls :
    (mapped upState []).callable 1 = true ∧ (∀ ch ∈ askState.chansOf 1, (acceptedList 0).contains (entFn (askState.entry ch)) = true)
      ∧ ((mapped upState (bytesAt 0x7000 [1])).svcRead 1 0x7000 64).1 = some (1 :: List.replicate 63 0) ∧ (upState.svcRead 1 0x7000 64).1 = none := by
  refine ⟨by decide +kernel, ?_, by decide +kernel, by decide +kernel⟩
  have h : askState.chansOf 1 = [] := by decide +kernel
  rw [h]; intro ch hc; exact absurd hc (by simp)
theorem witness_PartitionCalls_share :
    let t := { upState with host := { upState.host with port0 := { upState.host.port0 with mbox := bytesAt 0 [1, 0, 0, 0, 2, 0, 0xFF, 0xFF] } } }
    t.callable 1 = true ∧ (∀ q, 0 ≤ q → q < 0 + 2 → ∃ r, t.plot q = .granted 1 r) ∧ t.mboxTakes 0 = true ∧ (t.port 0).mboxNat 0 1 = 1 ∧ (t.partition 1).lock = none
      ∧ (t.port 0).mboxNat 2 2 = 0 ∧ (t.port 0).mboxNat 4 2 = 2 ∧ (t.port 0).mboxNat 6 2 = 0xFFFF := by
  refine ⟨by decide +kernel, ?_, ?_, ?_, ?_, ?_, ?_, ?_⟩
  · intro q _ h
    obtain rfl | rfl : q = 0 ∨ q = 1 := by omega
    · exact ⟨0, by decide +kernel⟩
    · exact ⟨0, by decide +kernel⟩
  all_goals decide +kernel
theorem witness_PartitionCalls_refillTables :
    let s (l : Option LockRecord) : State := { askState with chan := { askState.chan with parts := [(1, { askState.partition 1 with lock := l })] }
                                                             host := { askState.host with port0 := { askState.host.port0 with refillSelect := 1 } } }
    (s none).barServes 0 0 = true ∧ toPart ((s none).port 0).refillSelect.toNat = 1 ∧ ((s none).partition 1).lock = none ∧ (s none).callable 1 = true
      ∧ ((s (some ⟨[], false, false⟩)).partition 1).lock.isSome = true ∧ (s (some ⟨[], false, false⟩)).barServes 0 0 = true := by
  refine ⟨?_, ?_, ?_, ?_, ?_, ?_⟩ <;> decide +kernel
theorem witness_PartitionCalls_hart :
    let s : State := { askState with atlas := { askState.atlas with cores := [(5, { CoreState.reset with st := 0 })] } }
    s.callable 1 = true ∧ (s.partition 1).cores[0]? = some 5 ∧ (s.core 5).st = 0 ∧ (s.core 5).running = false := by
  refine ⟨?_, ?_, ?_, ?_⟩ <;> decide +kernel

theorem witness_PartitionReports :
    let s : State := { upState with chan := { upState.chan with parts := [(1, { Partition.absent with mode := .live, powerDue := true })] } }
    s.up = true ∧ (s.partition 1).mode ≠ .absent ∧ (s.partition 1).mode = .live ∧ (s.partition 1).powerDue = true := by
  refine ⟨?_, ?_, ?_, ?_⟩ <;> decide +kernel

/-- The mailbox of P0 holds bytes. -/
def withMbox (s : State) (l : List Byte) : State := { s with host := { s.host with port0 := { s.host.port0 with mbox := bytesAt 0 l } } }
/-- The security processor of the module. -/
def withSec (x : SecState) : State := { upState with sec := x }
def keyed : SecState := { SecState.reset with aliasKey := some 1 }

theorem witness_Mailbox_requests :
    let s := withMbox (withSec keyed) [1, 0, 128, 0, 3]
    s.mboxTakes 0 = true ∧ (s.port 0).mboxNat 0 1 = 1 ∧ (s.port 0).mboxNat 2 2 = 128 ∧ (s.port 0).mboxNat 4 1 = 3 ∧ s.sec.debugOpen = false ∧ (s.partition 1).mode = .live
      ∧ s.hasStream 1 128 = false ∧ (lowestFree s.link.tx).isSome = true ∧ (lowestFree s.link.rx).isSome = true ∧ s.sec.opens = [] ∧ s.sec.peerOpens = [] := by
  refine ⟨?_, ?_, ?_, ?_, ?_, ?_, ?_, ?_, ?_, ?_, ?_⟩ <;> decide +kernel
theorem witness_Mailbox_report :
    let s := withMbox (withSec keyed) [1]
    s.mboxTakes 0 = true ∧ ∃ b, s.signedReport (toPart ((s.port 0).mboxNat 0 1)) 0 0 true = .ok b := by
  refine ⟨by decide +kernel, ?_⟩
  cases h : (withMbox (withSec keyed) [1]).signedReport (toPart (((withMbox (withSec keyed) [1]).port 0).mboxNat 0 1)) 0 0 true with
  | ok b => exact ⟨b, rfl⟩
  | error e =>
    have k : ((withMbox (withSec keyed) [1]).signedReport (toPart (((withMbox (withSec keyed) [1]).port 0).mboxNat 0 1)) 0 0 true).isOk = true := by decide +kernel
    rw [h] at k; exact absurd k (by simp [Except.isOk, Except.toBool])
theorem witness_Mailbox_opens :
    let o : PeerOpen := ⟨128, 3, 1, true, 0, 0, true, 9⟩
    let s := withMbox (withSec { keyed with peerOpens := [o] }) [1, 0, 128, 0, 3]
    s.mboxTakes 0 = true ∧ s.sec.peerOpens = [o] ∧ s.openAgrees ⟨0, 1, 128, 3⟩ o = true := by
  refine ⟨?_, ?_, ?_⟩ <;> decide +kernel
theorem witness_Mailbox_ends :
    let s := withMbox { withSec { keyed with opens := [⟨0, 1, 128, 3⟩] } with link := { LinkState.reset with tx := [(5, some ⟨128, 1, 3, 9, 0, 0⟩)], rx := [(9, some ⟨128, 1, 3, 0, 0, 0, 0, 0⟩)] } } [5]
    s.mboxTakes 0 = true ∧ Tbl.get none s.link.tx ((s.port 0).mboxNat 0 2) = some ⟨128, 1, 3, 9, 0, 0⟩
      ∧ s.sec.opens.find? (fun o => decide (o.port = 0)) = some ⟨0, 1, 128, 3⟩ ∧ Tbl.get none s.link.rx 9 = some ⟨128, 1, 3, 0, 0, 0, 0, 0⟩ ∧ s.up = true ∧ s.sec.debugOpen = false := by
  refine ⟨?_, ?_, ?_, ?_, ?_, ?_⟩ <;> decide +kernel

theorem witness_DebugRecoveryAndStatus :
    ((withSec keyed).barServes 0 0 = true ∧ (withSec keyed).sec.debugBring = false ∧ (withSec keyed).sec.fuses.debug < 32)
    ∧ ((withSec { keyed with debugOpen := true }).powered = true)
    ∧ (({ runs with sec := { keyed with debugOpen := true } } : State).powered = true ∧ ({ runs with sec := { keyed with debugOpen := true } } : State).groupOf ⟨0, 0, 0⟩ = some group0)
    ∧ upState.pow.stage.managed = true := by
  refine ⟨⟨?_, ?_, ?_⟩, ?_, ⟨?_, ?_⟩, ?_⟩ <;> decide +kernel
theorem leBytes_length (n x : Nat) : (leBytes n x).length = n := by
  induction n generalizing x with
  | zero => rfl
  | succ n ih => simp only [leBytes, List.length_cons, ih]
theorem acceptedBytes_length (l : Option LockRecord) : (acceptedBytes l).length = 32 := by
  simp only [acceptedBytes, List.length_flatten, List.map_map, Function.comp_def, leBytes_length, List.map_const', List.sum_replicate, List.length_range]; rfl
theorem reportBody_length (s : State) (p : Fin 16) (n : BitVec 256) (u : BitVec 512) (h : Bool) : (s.reportBody p n u h).length = 448 := by
  simp only [State.reportBody, List.length_append, leBytes_length, digestBytes, acceptedBytes_length, List.length_cons, List.length_nil, List.length_replicate]
theorem signed_ok (s : State) (p : Fin 16) (n : BitVec 256) (u : BitVec 512) (h : Bool) (k : Nat) (h1 : ¬ (s.partition p).mode = .absent)
    (h2 : s.sec.aliasKey = some k) (h3 : ¬ (s.sec.exhausted = true ∨ s.sec.debugOpen = true)) : ∃ b, s.signedReport p n u h = .ok b ∧ b.length = 512 := by
  refine ⟨s.reportBody p n u h ++ (Config.sign k (s.reportBody p n u h) ++ List.replicate 64 0).take 64, ?_, ?_⟩
  · unfold State.signedReport; simp only [h2, if_neg h1, if_neg h3]
  · rw [List.length_append, reportBody_length, List.length_take, List.length_append, List.length_replicate]; omega
theorem witness_PartitionCalls_report :
    (withSec keyed).callable 1 = true ∧ ∃ b, (withSec keyed).signedReport 1 0 0 false = .ok b ∧ b.length = 512 :=
  ⟨by decide +kernel, signed_ok _ _ _ _ _ 1 (by decide +kernel) rfl (by decide +kernel)⟩

theorem witness_DebugRecovery_image :
    let i : FwImage := ⟨0, 0, 0, 0, 0, 0, false, false⟩
    let s : State := { State.reset with pow := { PowState.reset with stage := .pllLocked, report := .bootFailed 1 }, sec := { SecState.reset with boot := some ⟨0, i, i, i, i, false⟩ } }
    s.pow.report = .bootFailed 1 ∧ s.sec.boot = some ⟨0, i, i, i, i, false⟩ ∧ s.pow.stage = .pllLocked := ⟨rfl, rfl, rfl⟩

/-! ### Witnesses: the coherent fabric and the controllers -/

/-- Line 64 in its home slice, with the records of the dies given. -/
def cached (a b : DieRec) : LlcLine := ⟨64, none, upState.sliceOf 64, upState.setOf 64, 0, 1, .normal, 0, 0, a, b, .clean, 5, 0⟩
/-- The module with that line cached, and what the dies hold and what is on its way. -/
def fabric (l : List LlcLine) (f : MemState → MemState) : State := { upState with
  mem := f { upState.mem with llc := l }
  chan := { upState.chan with parts := [(1, { Partition.absent with mode := .live, floor := [0], cores := [5] })] }
  atlas := { upState.atlas with cores := [(5, { CoreState.reset with st := 0 })] } }
/-- Core 5 of SD0, which PT1 holds, asks. -/
def who5 : CoreAsk := ⟨5, 0, false⟩
/-- SD0 holds the line in a state. -/
def sd0 (m : Moesi) (x : MemState) : MemState := { x with die := [(128, some ⟨m, 7, 0, 32, 0⟩)] }
/-- SD0 evicts the line it held in a state. -/
def evicting (m : Moesi) (x : MemState) : MemState := { x with evict := [(128, some ⟨⟨m, 7, 0, 32, 0⟩, false, false⟩)] }

theorem witness_DieRequests :
    (fabric [] id).coreAsks 0 64 1 who5 = true ∧ (fabric [] id).reach 1 64 false = true ∧ (fabric [] id).reach 1 64 true = true ∧ (fabric [] id).reach 1 (2 ^ 30) true = false
      ∧ (fabric [] id).reach 1 (2 ^ 30) false = false ∧ (fabric [] id).dieMay 0 64 = true ∧ (fabric [] id).dieLine 64 0 = none ∧ (fabric [] id).llcFind 64 = none
      ∧ (∀ b ∈ ([.i, .s, .x, .o] : List DieRec), (fabric [cached .i b] id).llcFind 64 = some (cached .i b) ∧ (cached .i b).recOf 1 = b
        ∧ (fabric [cached .i b] id).coreAsks 0 64 1 who5 = true ∧ (fabric [cached .i b] id).dieMay 0 64 = true ∧ (fabric [cached .i b] id).dieLine 64 0 = none) := by
  refine ⟨?_, ?_, ?_, ?_, ?_, ?_, ?_, ?_, ?_⟩ <;> decide +kernel
theorem witness_DieRequests_upgrade :
    ∀ a ∈ ([.i, .x] : List DieRec), ∀ b ∈ ([.i, .s] : List DieRec), ∀ m ∈ ([.s, .o] : List Moesi),
      let s := fabric [cached a b] (sd0 m)
      s.coreAsks 0 64 1 who5 = true ∧ s.dieMay 0 64 = true ∧ s.dieLine 64 0 = some ⟨m, 7, 0, 32, 0⟩ ∧ s.llcFind 64 = some (cached a b) ∧ (cached a b).recOf 0 = a ∧ (cached a b).recOf 1 = b := by
  decide +kernel
theorem witness_DieRequests_evictions :
    (∀ m ∈ ([.m, .o, .e, .s] : List Moesi), (fabric [cached .x .i] (sd0 m)).dieLine 64 0 = some ⟨m, 7, 0, 32, 0⟩ ∧ (fabric [cached .x .i] (sd0 m)).evEntry 64 0 = none
      ∧ (fabric [cached .x .i] (sd0 m)).evFree 0 = true)
    ∧ (∀ m ∈ ([.m, .o, .e, .s] : List Moesi), (fabric [cached .x .i] (evicting m)).evEntry 64 0 = some ⟨⟨m, 7, 0, 32, 0⟩, false, false⟩
      ∧ (fabric [cached .x .i] (evicting m)).txnBusy 64 = false ∧ (fabric [cached .x .i] (evicting m)).llcFind 64 = some (cached .x .i)) ∧ (cached .x .i).recOf 0 ≠ .i := by
  refine ⟨?_, ?_, ?_⟩ <;> decide +kernel
theorem witness_DieRequests_acks :
    let s := fabric [cached .i .i] (fun x => { x with evAcks := [(128, true)], pushes := [(128, some (1, 3))] })
    Tbl.get false s.mem.evAcks (dieKey 64 0) = true ∧ Tbl.get none s.mem.pushes (2 * 64 + (0 : Fin 2).val) = some (1, 3) ∧ s.txnBusy 64 = false
      ∧ s.llcFind 64 = some (cached .i .i) ∧ s.dieLine 64 0 = none ∧ s.evEntry 64 0 = none := by
  refine ⟨?_, ?_, ?_, ?_, ?_, ?_⟩ <;> decide +kernel

theorem witness_SnoopsAndResponses :
    (∀ q ∈ ([.snpS, .snpCur, .snpI, .snpInd] : List Snoop), ∀ m ∈ ([none, some .m, some .o, some .e, some .s] : List (Option Moesi)),
      let s := fabric [cached .x .i] (fun x => { x with snoops := [(128, some q)], die := (m.map (fun m => (128, some ⟨m, 7, 0, 32, 0⟩))).toList })
      Tbl.get none s.mem.snoops (dieKey 64 0) = some q ∧ s.evEntry 64 0 = none ∧ s.dieLine 64 0 = m.map (fun m => ⟨m, 7, 0, 32, 0⟩))
    ∧ (let s := fabric [cached .x .i] (fun x => evicting .m { x with snoops := [(128, some .snpI)] })
       Tbl.get none s.mem.snoops (dieKey 64 0) = some .snpI ∧ s.evEntry 64 0 = some ⟨⟨.m, 7, 0, 32, 0⟩, false, false⟩)
    ∧ (∀ r ∈ ([.fwd 7 0, .sData 7 0, .iData 7 0, .s, .e, .i] : List Rsp),
      let s := fabric [cached .x .i] (fun x => { x with rsps := [(128, some r)] })
      s.llcFind 64 = some (cached .x .i) ∧ Tbl.get none s.mem.rsps (dieKey 64 0) = some r) := by
  refine ⟨?_, ?_, ?_⟩ <;> decide +kernel

theorem witness_StaleEvictions :
    let s := fabric [cached .i .s] (evicting .m)
    let b := fabric [cached .i .s] (fun x => evicting .s { x with txns := [(64, some ⟨.rds 1 1 who5, false, false, true⟩)] })
    (s.evEntry 64 0 = some ⟨⟨.m, 7, 0, 32, 0⟩, false, false⟩ ∧ s.txnBusy 64 = false ∧ (∀ l, s.llcFind 64 = some l → l.recOf 0 = .i))
    ∧ b.evEntry 64 0 = some ⟨⟨.s, 7, 0, 32, 0⟩, false, false⟩ ∧ b.txnBusy 64 = true := by
  refine ⟨⟨?_, ?_, ?_⟩, ?_, ?_⟩
  case refine_3 =>
    intro l h
    have k : (fabric [cached .i .s] (evicting .m)).llcFind 64 = some (cached .i .s) := by decide +kernel
    rw [k] at h; cases h; decide +kernel
  all_goals decide +kernel

/-- A request of LA0's group on line 64. -/
def reqOf (p : Fin 16) (op : HomeOp) (hint : Nat) : HomeReq := ⟨9, 0, 0, 0, p, ⟨0, 0⟩, .pool, 64, op, hint, 1, .sent, none, .group⟩
def sent (r : HomeReq) (l : List LlcLine) : State := fabric l (fun x => { x with homeReqs := [r], unitsUp := BitVec.allOnes 384 })
def someOps : List HomeOp := [.rdOnce, .write 3 (BitVec.allOnes 128), .write 3 1, .atomic .add 2 [(0, 0, 1, 0)], .red .add 2 [(0, 0, 1)], .discard]
theorem witness_HomeRequests :
    (∀ op ∈ someOps, ∀ l ∈ ([[], [cached .i .i], [cached .i .s], [cached .x .i]] : List (List LlcLine)),
      let r := reqOf 1 op 3
      let s := sent r l
      s.up = true ∧ s.homeReq 9 = some r ∧ s.behind r = false ∧ s.txnBusy r.line = false ∧ s.reach 1 64 op.writes = true ∧ s.llcFind 64 = l.head?)
    ∧ ((sent (reqOf 2 .rdOnce 0) []).reach 2 64 HomeOp.rdOnce.writes = false ∧ (sent (reqOf 2 .discard 0) []).reach 2 64 HomeOp.discard.writes = false)
    ∧ (sent (reqOf 1 .rdOnce 0) []).unitUp ((sent (reqOf 1 .rdOnce 0) []).unitOf 64) = true ∧ (cached .i .i).poison &&& granulesOf [0] = 0 := by
  refine ⟨?_, ⟨?_, ?_⟩, ?_, ?_⟩ <;> decide +kernel
theorem witness_HomeRequests_stash : upState.up = true ∧ (2 ^ 13 + 127) % 128 + 1 ≤ 128 ∧ upState.txnBusy 64 = false ∧ upState.reach 1 64 true = true ∧ field (0x4000 : BitVec 16) 14 2 ≠ 2 := by
  refine ⟨?_, ?_, ?_, ?_, ?_⟩ <;> decide +kernel

theorem witness_Controllers_regulator :
    let s (g : Nat) (rate : Int) : State := { upState with
      mem := { upState.mem with regs := [(1, some ⟨rate, 0, 0⟩)] }, chan := { upState.chan with parts := [(1, { Partition.absent with mode := .live, guarantee := g, ceiling := 5000 })] } }
    Tbl.get none (s 0 500).mem.regs (16 * 0 + 1) = some ⟨500, 0, 0⟩ ∧ ((s 0 500).regG 0 1 : Int) < 500 ∧ (0 : Int) ≤ (s 0 0).regG 0 1 := by
  refine ⟨?_, ?_, ?_⟩ <;> decide +kernel
theorem witness_Controllers_channel :
    let q : MemReq := ⟨0, upState.unitOf 64, 64, 128, 1, .array, true, 0, .home 9⟩
    let s : State := { upState with mem := { upState.mem with reqs := [q], homeReqs := [{ reqOf 1 .rdOnce 0 with stage := .handling }], txns := [(64, some ⟨.req 9, false, false, true⟩)] } }
    ((s.enterAll (upState.unitOf 64 / 96)).pickReq (upState.unitOf 64) none).map (·.1) = some q ∧ (s.enterAll (upState.unitOf 64 / 96)).canServe q = true ∧ s.unitUp (s.unitOf 64) = true := by
  refine ⟨?_, ?_, ?_⟩ <;> decide +kernel
theorem witness_Controllers_scrub :
    let u : Nat := upState.unitOf 64
    let pg : Nat := upState.pageOf 64
    upState.powered = true ∧ upState.unitUp u = true ∧ pg < 786432 ∧ upState.devicePage u pg = some 2 ∧ Tbl.get false upState.mem.poison (64 * 2 + 0) = false := by
  refine ⟨?_, ?_, ?_, ?_, ?_⟩ <;> decide +kernel
theorem witness_Controllers_churn :
    let o : ChurnOp := ⟨0, upState.unitOf 64, 64, 1, ⟨0, 0⟩, .red .add 2, 0, 1, false⟩
    let s : State := { upState with mem := { upState.mem with churn := [o] } }
    s.mem.churn.find? (fun x => decide (x.unit = o.unit) && !s.mem.reqs.any (fun r => decide (r.seq = x.seq))) = some o ∧ (s.memLine 64).2.getLsbD 0 = false ∧ s.hubUp 3 = true := by
  refine ⟨?_, ?_, ?_⟩ <;> decide +kernel
theorem witness_Controllers_registers :
    let s : State := { upState with host := { upState.host with port0 := { upState.host.port0 with llcSelect := 1 } }, mem := { upState.mem with ways := [(0, { PartWays.reset with mask := 0xFFF0 })] } }
    s.barServes 0 0 = true ∧ toPart (s.port 0).llcSelect.toNat = 1 ∧ (∀ q : Fin 16, q ≠ 1 → (s.ways q).mask &&& bits (0xC000F : Word) 0 16 = 0) ∧ pop (bits (0xC000F : Word) 0 16 : BitVec 16) = 4
      ∧ field (0xC000F : Word) 16 4 = 12 ∧ (s.ways 0).mask &&& bits (0x10 : Word) 0 16 ≠ 0 := by
  refine ⟨?_, ?_, ?_, ?_, ?_, ?_⟩ <;> decide +kernel
theorem witness_HomeRequests_stashCore :
    let s := fabric [cached .i .i] id
    let u := s.engWrite 1 64 (placeBytes 0 (List.replicate 128 1)) (byteMask 0 128) 0 0
    s.up = true ∧ s.txnBusy 64 = false ∧ u.stashCore 1 0x8000 = some 5 ∧ (u.llcFind 64).isSome = true ∧ u.stashCore 1 0x80FF = none := by
  refine ⟨?_, ?_, ?_, ?_, ?_⟩ <;> decide +kernel
theorem witness_Controllers_churnRefused :
    let o : ChurnOp := ⟨0, upState.unitOf 64, 64, 1, ⟨0, 0⟩, .red .add 2, 0, 1, true⟩
    o.refused = true ∧ ({ runs with mem := { runs.mem with churn := [o] } } : State).cmd o.cmd = some cmd0 := ⟨rfl, by decide +kernel⟩

/-! ### Witnesses: internal links and the guest site -/

/-- The module with its links otherwise. -/
def withLink (f : LinkState → LinkState) : State := { upState with link := f upState.link }
/-- One internal link in a state. -/
def oneLink (l : Nat) (m : LinkMode) (again : Bool) : State := withLink (fun x => { x with d2d := [(l, ⟨m, again, false, none⟩)] })
/-- One die in a state. -/
def oneDie (d : Nat) (m : DieMode) (l : List Nat) : State := withLink (fun x => { x with dies := [(d, ⟨m, false⟩)], d2d := l.map (fun k => (k, ⟨.up, false, false, none⟩)) })
/-- A flit with SEQ 0 and ACK 0xFFFF of class 1, 5 in the last byte of its payload. -/
def goodFlit : Flit := ⟨5 <<< 1016, 0, 0xFFFF, 1, 0, 6461689696707219104⟩
theorem crc64_append (c : BitVec 64) (a b : List Byte) : crc64 c (a ++ b) = crc64 (crc64 c a) b := by
  induction a generalizing c with
  | nil => rfl
  | cons x t ih => exact ih _
theorem crc64_zeros (n : Nat) : crc64 0 (List.replicate n 0) = 0 := by
  induction n with
  | zero => rfl
  | succ n ih => rw [List.replicate_succ, crc64, show crc64Bits 8 ((0 : BitVec 64) ^^^ ((0 : Byte).setWidth 64 <<< 56)) = 0 by decide +kernel, ih]
theorem goodFlit_ok : flitOk goodFlit = true := by
  have h : leBytes 128 goodFlit.payload.toNat ++ leBytes 2 goodFlit.seq.toNat ++ leBytes 2 goodFlit.ack.toNat ++ [goodFlit.cls] ++ leBytes 3 goodFlit.rsvd.toNat
      = List.replicate 127 0 ++ ([5, 0, 0] ++ ([0xFF, 0xFF, 1] ++ [0, 0, 0])) := by decide +kernel
  rw [flitOk, h, crc64_append, crc64_zeros, crc64_append, show crc64 0 [5, 0, 0] = 12417877605993905115 by decide +kernel, crc64_append,
    show crc64 12417877605993905115 [0xFF, 0xFF, 1] = 6480652409365098797 by decide +kernel, show crc64 6480652409365098797 [0, 0, 0] = 6461689696707219104 by decide +kernel]
  decide
theorem badFlit : flitOk { goodFlit with crc := 0 } = false := by
  have h := of_decide_eq_true goodFlit_ok
  exact decide_eq_false (fun e => absurd (h.trans (Eq.symm e)) (by decide))

theorem witness_PassMasks :
    (∀ (m0 m1 : BitVec 80) (r : Bool),
      ((oneLink 21 (.compare m0 m1) r).d2d 21).mode = .compare m0 m1 ∧ ((oneLink 21 (.compare m0 m1) r).d2d 21).retrained = r)
    ∧ allGroups 21 = 0xFFFF
    ∧ ((oneDie 13 .lost []).up = true ∧ ((oneDie 13 .lost []).dieState (dieOf 9)).mode = .lost ∧ linksOf 13 = [16, 17] ∧ ((oneDie 13 .lost []).d2d 16).barred = false)
    ∧ ((oneLink 21 (.training 2 1 1) false).up = true ∧ ((oneLink 21 (.training 2 1 1) false).d2d 21).barred = false
      ∧ ∀ d ∈ [(linkEnds 21).1, (linkEnds 21).2], ((oneLink 21 (.training 2 1 1) false).dieState d).mode = .present) := by
  refine ⟨fun _ _ _ => ⟨rfl, rfl⟩, ?_, ⟨?_, ?_, ?_, ?_⟩, ?_, ?_, ?_⟩ <;> decide +kernel
/-- What turns its CRC into 0. -/
def crcError : Flit := ⟨0, 0, 0, 0, 0, goodFlit.crc⟩
theorem witness_DieLinkEvents_flits :
    let fresh : LaneGroup := { LaneGroup.reset with txSeq := 0, rxSeq := 0 }
    let s (x : LaneGroup) : State := withLink (fun y => { y with d2d := [(0, ⟨.up, false, false, none⟩)], groups := [(groupKey 0 0 79, x)], ins := [(0, ⟨79, []⟩)] })
    let x := (s fresh).laneGroup 0 0 79
    flitOk goodFlit = true ∧ Flit.flip goodFlit ⟨0, 0, 0, 0, 0, 0⟩ = goodFlit ∧ Flit.flip goodFlit crcError = { goodFlit with crc := 0 } ∧ flitOk { goodFlit with crc := 0 } = false
      ∧ ((s fresh).d2d 0).mode = .up ∧ 79 < linkGroups 0 ∧ (s fresh).link.transit = []
      ∧ (goodFlit.seq = x.txSeq ∧ x.held.length < 128 ∧ goodFlit.seq = x.rxSeq ∧ x.discarding = false ∧ ((s fresh).linkIn 0 0).early = [] ∧ ((s fresh).linkIn 0 0).next = x.tookCount * linkGroups 0 + 79)
      ∧ goodFlit.seq ≠ ((s { fresh with txSeq := 1, held := [goodFlit] }).laneGroup 0 0 79).txSeq ∧ goodFlit ∈ ((s { fresh with txSeq := 1, held := [goodFlit] }).laneGroup 0 0 79).held
      ∧ goodFlit.seq ≠ ((s { fresh with rxSeq := 1 }).laneGroup 0 0 79).rxSeq
      ∧ 8 ≤ ((s { fresh with failSame := 8 }).laneGroup 0 0 79).failSame
      ∧ ((s { fresh with crcAt := (List.range 256).reverse }).laneGroup 0 0 79).crcRate = true := by
  refine ⟨goodFlit_ok, ?_, ?_, badFlit, ?_, ?_, ?_, ⟨?_, ?_, ?_, ?_, ?_, ?_⟩, ?_, ?_, ?_, ?_, ?_⟩ <;> decide +kernel
theorem witness_DieLinkEvents_dies :
    (∀ k : Fin 4, ((oneLink 5 (.training k 0xFF 0xFF) false).d2d 5).mode = .training k 0xFF 0xFF)
    ∧ (upState.up = true ∧ (upState.dieState (dieOf 0)).mode = .present ∧ (upState.dieState (dieOf 0)).lostOnce = false)
    ∧ (let s : State := { oneDie 13 .selfTest [16, 17] with pow := { upState.pow with domains := (unitDomains 13).map (fun k => (k, .on)) } }
       (s.dieState (dieOf 9)).mode = .selfTest ∧ (∀ k ∈ linksOf (dieOf 9), (s.d2d k).mode = .up) ∧ (∀ k ∈ unitDomains (dieOf 9), s.domain k ≠ .off ∧ s.domain k ≠ .comingUp)
         ∧ (∀ k, k < 80 → (s.core (80 * (dieOf 9 - 12) + k)).replaced ≠ some 3) ∧ s.domain (448 + (80 * (dieOf 9 - 12) + 3) / 8) = .on)
    ∧ upState.hubUp 1 = true ∧ ¬ upState.hubsUp < 4 := by
  refine ⟨?_, ⟨?_, ?_, ?_⟩, ⟨?_, ?_, ?_, ?_, ?_⟩, ?_, ?_⟩ <;> decide +kernel

/-- The guest site as given, its domain on, its address space that of PT1. -/
def guestSite (x : GuestState) : State :=
  let s := mapped upState []
  { s with link := { s.link with guest := x }, pow := { s.pow with domains := [(506, .on)] }, mem := { s.mem with guestRoots := [(1, some 262144)] } }
/-- A message of the guest with an operation, an address and 128 bytes. -/
def guestMsg (op va : Nat) : BitVec 128 := BitVec.ofNat 128 (op + 127 * 2 ^ 16 + va * 2 ^ 28)

theorem witness_GuestCountsDisagree :
    (∀ r ∈ [false, true],
      let x : GuestState := { GuestState.reset with st := 1, retried := r, offer := 4 }
      (guestSite x).up = true ∧ (guestSite x).link.guest.st = 1 ∧ (guestSite x).domain 506 = .on ∧ (guestSite x).guestHub = true ∧ (guestSite x).link.guest.retried = r)
    ∧ min { GuestState.reset with maxModules := 4 }.maxModules 7 = 4 ∧ GuestState.reset.control.getLsbD 0 = false
    ∧ (let s := guestSite { GuestState.reset with st := 3 }
       s.link.guest.st = 3 ∧ s.link.guest.reads = [] ∧ s.barServes 0 0 = true ∧ (0x27 : Word).getLsbD 6 = false) := by
  refine ⟨?_, ?_, ?_, ?_, ?_, ?_, ?_⟩ <;> decide +kernel
theorem witness_GuestSite_training :
    let s (x : GuestState) := guestSite x
    ((s GuestState.reset).up = true ∧ (s GuestState.reset).barServes 0 0 = true ∧ GuestState.reset.control.getLsbD 0 = false ∧ GuestState.reset.st = 0 ∧ GuestState.reset.reads = []
      ∧ (s GuestState.reset).guestHub = true ∧ (0x127 : Word).getLsbD 0 = true ∧ (0x127 : Word).getLsbD 6 = false)
    ∧ ((0x127 : Word).getLsbD 0 = true ∧ (s { GuestState.reset with control := 0x127 }).guestHub = true)
    ∧ ((s { GuestState.reset with st := 1, maxModules := 4 }).domain 506 = .on ∧ (s { GuestState.reset with st := 1, maxModules := 4 }).guestHub = true) := by
  refine ⟨⟨?_, ?_, ?_, ?_, ?_, ?_, ?_, ?_⟩, ⟨?_, ?_⟩, ?_, ?_⟩ <;> decide +kernel
theorem witness_GuestSite_messages :
    let s := guestSite { GuestState.reset with st := 2, owner := 1, reads := [(0, 64, .drop)], credits := 256, dataCredits := 256 }
    (s.link.guest.st = 2 ∧ s.link.guest.waiting = [] ∧ s.link.guest.credits ≠ 0)
      ∧ (guestMsgOk 0 (guestMsg 0 0x2000) = true ∧ field (guestMsg 0 0x2000) 28 57 = 0x2000 ∧ guestUnits (guestMsg 0 0x2000) ≤ 256)
      ∧ (s.guestAt 1 0x2000 false).1 = .pool 0x2000 ∧ (s.guestAt 1 0x2000 false).2.txnBusy 64 = false
      ∧ ((s.guestAt 1 0x2000 false).2.engRead 1 64 0).1.2 = 0
      ∧ (s.guestAt 1 (2 ^ 56) false).1 = .status 1 ∧ guestMsgOk 0 (guestMsg 0 (2 ^ 56)) = true
      ∧ guestMsgOk 1 (guestMsg 1 0x2000) = true ∧ guestUnits (guestMsg 1 0x2000) ≤ 256 ∧ (s.guestAt 1 0x2000 true).1 = .pool 0x2000 ∧ (s.guestAt 1 0x2000 true).2.txnBusy 64 = false
      ∧ guestMsgOk 1 (guestMsg 1 (2 ^ 56)) = true ∧ (s.guestAt 1 (2 ^ 56) true).1 = .status 1
      ∧ guestMsgOk 2 (guestMsg 2 0) = true ∧ s.link.guest.reads.find? (fun r => decide (r.1 = field (guestMsg 2 0) 4 12)) = some (0, 64, .drop) ∧ field (guestMsg 2 0) 24 4 = 0
      ∧ guestMsgOk 0 (guestMsg 0 1) = false ∧ guestMsgOk 1 (guestMsg 1 1) = false := by
  refine ⟨⟨?_, ?_, ?_⟩, ⟨?_, ?_, ?_⟩, ?_, ?_, ?_, ?_, ?_, ?_, ?_, ?_, ?_, ?_, ?_, ?_, ?_, ?_, ?_, ?_⟩ <;> decide +kernel
/-- A message to a line with an open transaction waits. -/
theorem witness_GuestSite_busy :
    let s : State := { guestSite { GuestState.reset with st := 2, owner := 1, credits := 256, dataCredits := 256 } with mem := { (mapped upState []).mem with guestRoots := [(1, some 262144)], txns := [(64, some ⟨.req 0, false, false, false⟩)] } }
    (s.guestAt 1 0x2000 false).1 = .pool 0x2000 ∧ (s.guestAt 1 0x2000 false).2.txnBusy 64 = true := by
  refine ⟨?_, ?_⟩ <;> decide +kernel

/-! ### Witnesses: host ports -/

/-- The module with virtual function 2 of P1 as given and no channels. -/
def withFn (f : FnState) : State := { upState with host := { upState.host with fns := [(130, f)] }, chan := { upState.chan with entries := [] } }

theorem witness_FunctionResets :
    (∀ m ∈ ([.disabled, .enabled, .resetting] : List FnMode),
      let s := withFn { FnState.reset with mode := m }
      s.up = true ∧ s.portServes 1 = true ∧ s.fnExists 1 2 = true ∧ (s.fn 1 2).mode = m ∧ (s.port 1).numVfs = 2 ∧ (s.fn 1 2).d3hot = false)
    ∧ (withFn { FnState.reset with mode := .resetting }).resetDrained [] = true ∧ (withFn { FnState.reset with mode := .resetting }).powered = true
      ∧ ((withFn FnState.reset).port 1).released = true
    ∧ (State.reset.port 1).released = false ∧ State.reset.up = false
    ∧ (let s : State := { upState with host := { upState.host with port1 := PortState.reset } } ; s.up = true ∧ (s.port 1).released = false) := by
  refine ⟨?_, ?_, ?_, ?_, ?_, ?_, ?_, ?_⟩ <;> decide +kernel
theorem witness_HostRequests_configuration :
    upState.powered = true ∧ (upState.port 0).released = true ∧ (upState.port 0).linkUp = true ∧ upState.pow.stage = .published ∧ upState.fnExists 0 0 = true
      ∧ ((withFn { FnState.reset with mode := .resetting }).fn 1 2).mode = .resetting ∧ (withFn { FnState.reset with mode := .resetting }).fnExists 1 2 = true := by
  refine ⟨?_, ?_, ?_, ?_, ?_, ?_, ?_⟩ <;> decide +kernel
theorem witness_HostRequests_apertures :
    let s := mapped upState []
    s.portServes 0 = true ∧ s.tlpDropped 0 1 = false ∧ s.fnServes 0 1 = true ∧ s.aperturePart 0 1 = some 1 ∧ s.rangeBusy 1 (apertureBase + 0) 128 = false ∧ s.host.inbound = []
      ∧ s.aperturePart 0 2 = none ∧ s.fnServes 0 2 = false
      ∧ (withFn { FnState.reset with mode := .enabled }).fnServes 1 2 = true ∧ (withFn { FnState.reset with mode := .enabled }).aperturePart 1 2 = none := by
  refine ⟨?_, ?_, ?_, ?_, ?_, ?_, ?_, ?_, ?_, ?_⟩ <;> decide +kernel
/-- The aperture's first page mapped to 0x2000, whose first line is poisoned in the slice as given. -/
def apertureMapped (q : BitVec 2) : State :=
  let s := mapped upState []
  { s with mem := { s.mem with tlb := [⟨1, apertureBase / 4096, 0x8DF, 0⟩], llc := s.mem.llc.map (fun l => if l.line = 64 then { l with poison := q } else l) } }
theorem witness_HostRequests_poisoned :
    (apertureMapped 1).rangeBusy 1 (apertureBase + 0) 4 = false ∧ ((apertureMapped 1).apertureLoads 0 1 (lineCuts (apertureBase + 0) 4)).2.1 = true
      ∧ ((apertureMapped 0).apertureLoads 0 1 (lineCuts (apertureBase + 0) 4)).2.1 = false := by
  refine ⟨?_, ?_, ?_⟩ <;> decide +kernel
/-- A request to a line with an open transaction waits. -/
theorem witness_HostRequests_busy :
    ({ apertureMapped 0 with mem := { (apertureMapped 0).mem with txns := [(64, some ⟨.req 0, false, false, false⟩)] } } : State).rangeBusy 1 (apertureBase + 0) 4 = true := by decide +kernel
theorem witness_HostRequests_answers :
    let s (m : FnMode) : State := { withFn { FnState.reset with mode := m, flipBusy := true } with
      host := { (withFn { FnState.reset with mode := m, flipBusy := true }).host with reads := [⟨4, 1, 2, 0x1000, 4, .drop, none⟩], pages := [⟨6, true, 1, 2, 0, 1, false, .engine ⟨0, 0⟩ 0x1000⟩] } }
    (∀ m ∈ ([.enabled, .resetting] : List FnMode), (s m).host.reads.find? (fun r => decide (r.tag = 4) && r.held.isNone) = some ⟨4, 1, 2, 0x1000, 4, .drop, none⟩ ∧ (s m).powered = true ∧ (s m).tlpDropped 1 2 = false
      ∧ ((s m).fn 1 2).mode = m ∧ ((s m).fn 1 2).flipBusy = true ∧ (s m).up = true)
    ∧ (s .enabled).host.pages.find? (fun x => decide (x.tag = 6) && x.sent) = some ⟨6, true, 1, 2, 0, 1, false, .engine ⟨0, 0⟩ 0x1000⟩ := by
  refine ⟨?_, ?_⟩ <;> decide +kernel
theorem witness_HostRequests_binding :
    let s (b : Option LockRecord) (sel : Nat) : State := { upState with
      host := { upState.host with port0 := { upState.host.port0 with fnSelect := BitVec.ofNat 7 sel } }
      chan := { upState.chan with entries := [], parts := [(1, { Partition.absent with mode := .live, lock := b })] } }
    ((s none 1).barServes 0 0 = true ∧ ((s none 1).port 0).fnSelect.toNat = 1 ∧ (s none 1).fnChans 0 1 = [] ∧ ((s none 1).fn 0 1).flipBusy = false)
    ∧ ((s (some ⟨[1], false, false⟩) 1).fn 0 1).bound = some 1 ∧ (((s (some ⟨[1], false, false⟩) 1).partition 1).lock.any (fun l => l.accepted.contains (fnWord 0 1))) = true := by
  refine ⟨⟨?_, ?_, ?_, ?_⟩, ?_, ?_⟩ <;> decide +kernel

/-! ### Witnesses: mailboxes of the functions and Meridian -/

/-- A secured session runs on P0's function 0 and on virtual function 1, in a TDISP state; the log has an entry. -/
def sessions (t : Tdisp) : State :=
  { upState with
    sec := { keyed with sessions := [⟨0, 0⟩, ⟨0, 1⟩], log := [⟨1, 5, []⟩] }
    host := { upState.host with fns := [(1, { FnState.reset with mode := .enabled, bound := some 1, tdisp := t })], port0 := { upState.host.port0 with ide := List.replicate 5 ⟨true, false, 0, 127, 0, 0⟩ } } }
theorem witness_DoeMailboxes :
    (sessions .unlocked).doeTakes 0 1 = true ∧ (∀ sec : Bool, (sessions .unlocked).spdmTakes 0 1 sec = true) ∧ (sessions .unlocked).sec.log[(1 : Byte).toNat - 1]? = some ⟨1, 5, []⟩
      ∧ (sessions .unlocked).sec.aliasKey.isSome = true ∧ (sessions .unlocked).spdmTakes 0 0 true = true
      ∧ ((sessions .unlocked).fn 0 1).tdisp = .unlocked ∧ ((sessions .unlocked).fn 0 1).bound = some 1 ∧ ((sessions .unlocked).partition 1).mode ≠ .absent
      ∧ lockAdd ((sessions .unlocked).partition 1).lock (fnWord 0 1) = some ⟨[1], false, false⟩ ∧ ((sessions .locked).fn 0 1).tdisp = .locked ∧ (sessions .locked).spdmTakes 0 1 true = true
      ∧ (sessions .unlocked).portServes 0 = true ∧ ((sessions .unlocked).port 0).ide[4]? = some ⟨true, false, 0, 127, 0, 0⟩ := by
  refine ⟨?_, ?_, ?_, ?_, ?_, ?_, ?_, ?_, ?_, ?_, ?_, ?_, ?_⟩ <;> decide +kernel
theorem witness_DoeMailboxes_report : ∃ b, (sessions .unlocked).signedReport 1 0 0 true = .ok b := ⟨_, rfl⟩

/-- Meridian port 11 as given; P0 selects it and route entry 5; its domain is on. -/
def oneLp (x : LinkPort) : State :=
  { upState with
    link := { upState.link with lps := [(11, x)] }
    pow := { upState.pow with domains := [(503, .on)] }
    host := { upState.host with port0 := { upState.host.port0 with linkSelect := 11, routeSelect := 5 } } }
def lpUp : LinkPort := { LinkPort.reset with enable := true, mode := .up, peer := 7, sparePeer := some 0 }
theorem witness_MeridianPorts_control :
    (oneLp LinkPort.reset).up = true ∧ (oneLp LinkPort.reset).barServes 0 0 = true ∧ toLp ((oneLp LinkPort.reset).port 0).linkSelect.toNat = 11 ∧ ((oneLp LinkPort.reset).lp 11).enable = false
      ∧ ((oneLp lpUp).lp 11).enable = true ∧ ((oneLp lpUp).lp 11).mode ≠ .fenced ∧ (5 : Word).getLsbD 0 = true ∧ (1 : Word).getLsbD 2 = false
      ∧ (oneLp LinkPort.reset).link.number ≠ 0xFFF ∧ ({ oneLp LinkPort.reset with link := { (oneLp LinkPort.reset).link with number := 0xFFF } } : State).barServes 0 0 = true := by
  refine ⟨?_, ?_, ?_, ?_, ?_, ?_, ?_, ?_, ?_, ?_⟩ <;> decide +kernel
theorem witness_MeridianPorts_training :
    let s (k : Nat) := oneLp { lpUp with mode := .training, fails := k }
    ((s 1).lp 11).mode = .training ∧ (s 1).domain (492 + 11) = .on ∧ (7 : BitVec 12) ≠ (s 1).link.number ∧ ((s 1).lp 11).fails + 1 < 3 ∧ 3 ≤ ((s 2).lp 11).fails + 1 := by
  refine ⟨?_, ?_, ?_, ?_, ?_⟩ <;> decide +kernel
theorem witness_MeridianPorts_lanes :
    ((oneLp lpUp).lp 11).mode = .up ∧ ((oneLp lpUp).lp 11).failed.contains 3 = false ∧ (oneLp lpUp).spareFree 11 = true ∧ goodPair (lpUp.failed ++ [3]) = some 0 ∧ goodPair ([0] ++ [3]) = none
      ∧ (∀ j, j < 11 % 3 → ((oneLp lpUp).lp (11 / 3 * 3 + j)).subst = none) ∧ (oneLp { lpUp with subst := some (3, false) }).canSend 11 none 3 = true
      ∧ ((oneLp { lpUp with subst := some (3, true), trained := true }).lp 11).subst = some (3, true) := by
  refine ⟨?_, ?_, ?_, ?_, ?_, ?_, ?_, ?_⟩ <;> decide +kernel

/-- A frame from module 7 on stream 9, COUNTER 1 and HOP_SEQ 1, of an opcode, a length and a destination, for line 64 of PT1. -/
def frame (op vc len dest : Nat) (b : List Byte) : Frame :=
  ⟨BitVec.ofNat 320 (1 + vc * 2 ^ 32 + 3 * 2 ^ 34 + op * 2 ^ 64 + 2 ^ 74 + dest * 2 ^ 80 + 7 * 2 ^ 96 + 9 * 2 ^ 112 + (len - 1) * 2 ^ 144 + 0x2000 * 2 ^ 160 + 2 ^ 256), b, true, true⟩
/-- Port 11 is up, stream 9 is from module 7 for PT1, and a request of the group on a line of module 7 is out. -/
def heard (op : HomeOp) (write atomic : Bool) : State :=
  { oneLp lpUp with
    link := { (oneLp lpUp).link with rx := [(9, some ⟨7, 1, 2, 0, 0, 0, 0, 0⟩)], reqs := [⟨0, 7, 1, none, write, atomic, 0x2000, 128, 0, some 11, none, .home 9 0, 0⟩] }
    mem := { upState.mem with homeReqs := [{ reqOf 1 op 0 with place := .remote 7, stage := .handling }] } }
/-- A frame is heard on its stream. -/
def hears (s : State) (op : Nat) (f : Frame) : Bool :=
  s.up && decide ((rxFrame f).op = op) && decide ((rxFrame f).dest = s.link.number) && (rxFrame f).wellFormed
    && (match s.hopTake 11 f with | some u => (u.checkFrame 11 f).1.isSome | none => false)
theorem hears_of (s : State) (op : Nat) (f : Frame) (h : hears s op f = true) : ∃ r t, s.Hears 11 op f r t := by
  simp only [hears, Bool.and_eq_true, decide_eq_true_eq] at h
  obtain ⟨⟨⟨⟨h1, h2⟩, h3⟩, h4⟩, h5⟩ := h
  cases h6 : s.hopTake 11 f with
  | none => rw [h6] at h5; exact absurd h5 Bool.false_ne_true
  | some u =>
    rw [h6] at h5
    obtain ⟨r, hr⟩ := Option.isSome_iff_exists.mp h5
    exact ⟨r, _, h1, h2, h3, h4, u, h6, Prod.ext hr rfl⟩
theorem witness_MeridianFrames_hears :
    hears (heard .rdOnce false false) 1 (frame 1 0 128 0 []) = true ∧ hears (heard .rdOnce false false) 2 (frame 2 0 128 0 (List.replicate 128 1)) = true
      ∧ hears (heard .rdOnce false false) 3 (frame 3 2 512 0 (List.replicate 512 1)) = true ∧ hears (heard .rdOnce false false) 4 (frame 4 3 16 0 (List.replicate 16 1)) = true
      ∧ hears (heard .rdOnce false false) 0x10 (frame 0x10 1 128 0 (List.replicate 128 1)) = true ∧ hears (heard .rdOnce false false) 0x11 (frame 0x11 1 1 0 []) = true
      ∧ hears (heard .rdOnce false false) 0x12 (frame 0x12 1 4 0 [1, 0, 0, 0]) = true := by
  refine ⟨?_, ?_, ?_, ?_, ?_, ?_, ?_⟩ <;> decide +kernel
theorem witness_MeridianFrames_answers :
    (heard .rdOnce false false).cutsFree ((rxFrame (frame 3 2 512 0 [])).cuts 512) = true ∧ (heard .rdOnce false false).pullReady (rxFrame (frame 0x10 1 128 0 [])) = true
      ∧ (∀ w a : Bool, ((heard .rdOnce w a).answered ⟨7, 1, 2, 1, 1, 0, 0, 0⟩ (rxFrame (frame 0x10 1 128 0 []))).any (fun q => decide (q.use = .home 9 0 ∧ q.write = w ∧ q.atomic = a)) = true)
      ∧ (rxFrame (frame 0x10 1 128 0 [])).status = 0 ∧ (heard .rdOnce false false).homeReq 9 = some { reqOf 1 .rdOnce 0 with place := .remote 7, stage := .handling }
      ∧ ((heard (.atomic .add 2 [(0, 0, 1, 0)]) false true).homeReq 9).map (·.op) = some (.atomic .add 2 [(0, 0, 1, 0)]) := by
  refine ⟨?_, ?_, ?_, ?_, ?_, ?_⟩ <;> decide +kernel
theorem witness_MeridianFrames_others :
    ((heard .rdOnce false false).hopTake 11 ⟨0, [], true, true⟩).isNone = true ∧ ((heard .rdOnce false false).hopTake 11 (frame 1 0 128 5 [])).isSome = true
      ∧ (rxFrame (frame 1 0 128 5 [])).dest ≠ (heard .rdOnce false false).link.number ∧ (rxFrame (frame 1 0 128 5 [])).wellFormed = true ∧ ((heard .rdOnce false false).lp 11).mode = .up
      ∧ ((oneLp { lpUp with replay := [(1, none, ⟨0, []⟩)] }).lp 11).replay ≠ []
      ∧ ((heard .rdOnce false false).link.reqs.find? (fun q => decide (q.tag = 0))).any (fun q => q.lp.isSome) = true
      ∧ (∀ k ∈ [1, 4], field (BitVec.ofNat 64 (k * 2 ^ 16) : Word) 16 3 = k) := by
  refine ⟨?_, ?_, ?_, ?_, ?_, ?_, ?_, ?_⟩ <;> decide +kernel

/-! ### Witnesses: errors, power, bring-up, registers and queue -/

/-- A merge entry of region 3 for a unit, and n of them. -/
def merged (u : Nat) (stamp : Word) : Merged := ⟨0x21, 1, BitVec.ofNat 16 u, 3, 0, 0, [1], 0, 0, stamp, 1, false⟩
def withErr (x : ErrState) : State := { upState with err := x }
/-- A report of the type 0x0021 on unit 4. -/
def rep : Report := ⟨0x21, 4, 0, 0, 9, 0, 0⟩
theorem witness_ReportsMerge :
    let all := (List.range 32).map (fun k => merged (100 + k) 0)
    upState.powered = true ∧ (errType rep.ty.toNat).isSome = true
      ∧ ((withErr { ErrState.reset with merges := [merged 4 0] }).err.merges.any (fun x => decide (x.region = (3 : Fin 23).val ∧ x.unit = rep.unit ∧ x.ty = rep.ty)) = true)
      ∧ (all.any (fun x => decide (x.region = (3 : Fin 23).val ∧ x.unit = rep.unit ∧ x.ty = rep.ty)) = false ∧ 32 ≤ (all.filter (fun x => decide (x.region = (3 : Fin 23).val))).length)
      ∧ ((withErr { ErrState.reset with merges := [merged 4 0] }).err.merges.find? (fun x => decide (x.region = (3 : Fin 23).val ∧ x.unit = 4 ∧ x.ty = 0x21))) = some (merged 4 0) := by
  refine ⟨?_, ?_, ?_, ⟨?_, ?_⟩, ?_⟩ <;> decide +kernel
theorem witness_Collector_reports :
    let s (l : List CollectorEntry) := withErr { ErrState.reset with inbox := [merged 4 0], entries := l }
    (∀ b : Bool, (s [⟨merged 4 0, some 1, b, true⟩]).err.entries.find? (fun e => decide (e.m.unit = (merged 4 0).unit)) = some ⟨merged 4 0, some 1, b, true⟩
      ∧ (s [⟨merged 4 0, some 1, b, true⟩]).err.entries.find? (fun e => decide (e.m.unit = 4) && (if b then e.window else !e.window)) = some ⟨merged 4 0, some 1, b, true⟩)
    ∧ (s []).err.inbox = [merged 4 0] ∧ (s []).err.entries.find? (fun e => decide (e.m.unit = (merged 4 0).unit)) = none
      ∧ 1024 ≤ ((s (List.replicate 1024 ⟨merged 5 0, none, true, true⟩)).err.entries).length
      ∧ (s (List.replicate 1024 ⟨merged 5 0, none, true, true⟩)).err.entries.find? (fun e => decide (e.m.unit = (merged 4 0).unit)) = none := by
  refine ⟨?_, ?_, ?_, ?_, ?_⟩ <;> decide +kernel
theorem witness_Collector_others :
    let r : SentryRec := ⟨0, 9, 0, 0, 0, 0, 0, 0, 0, 0, 0, 0, 0, 0, 0, 0, 0, 0, 0, 0, 0⟩
    upState.barServes 0 0 = true ∧ (0x100000021 : Word).getLsbD 32 = true ∧ (errType (field (0x100000021 : Word) 0 16)).isSome = true ∧ (0x21 : Word).getLsbD 32 = false
      ∧ (withErr { ErrState.reset with sentry := [(1, r)], sentryFull := [(1, some 9)] }).err.sentry = [(1, r)]
      ∧ (Tbl.get none (withErr { ErrState.reset with sentry := [(1, r)], sentryFull := [(1, some 9)] }).err.sentryFull 1).isSome = true
      ∧ Tbl.get none (withErr { ErrState.reset with sentry := [(1, r)] }).err.sentryFull 1 = none
      ∧ (({ upState with host := { upState.host with port1 := { upState.host.port1 with ringHolding := true } } } : State).port 1).ringHolding = true
      ∧ (withErr { ErrState.reset with full := 1 }).err.entries.find? (fun e => decide (e.m.unit = unitId 2 22) && e.window) = none
      ∧ 0 < (withErr { ErrState.reset with full := 1 }).err.full ∧ (withErr { ErrState.reset with full := 1 }).err.fullAt = none
      ∧ (withErr { ErrState.reset with full := 2, fullAt := some (1, 0) }).err.entries.find? (fun e => decide (e.m.unit = unitId 2 22) && e.written.isSome) = none
      ∧ (withErr { ErrState.reset with full := 2, fullAt := some (1, 0) }).err.fullAt = some (1, 0) := by
  refine ⟨?_, ?_, ?_, ?_, ?_, ?_, ?_, ?_, ?_, ?_, ?_, ?_, ?_⟩ <;> decide +kernel
theorem witness_RefillsAndSwaps :
    let s (d : Option (List Byte)) : State := { upState with mem := { upState.mem with refilling := [(2, some ⟨d, 0, 2⟩)] } }
    let t (p : Bool) : State := { withErr { ErrState.reset with swaps := [⟨0, 26, 0, p⟩] } with pow := { upState.pow with domains := [(26, .on)] } }
    (Tbl.get none (s none).mem.refilling 2 = some ⟨none, 0, 2⟩ ∧ (List.replicate 4096 (0 : Byte)).length = 4096 ∧ Tbl.get none (s (some [])).mem.refilling 2 = some ⟨some [], 0, 2⟩)
    ∧ (upState.up = true ∧ (upState.slot 0).st ≠ 3 ∧ (({ upState with atlas := { upState.atlas with slots := [(0, ⟨3, none⟩)] } } : State).slot 0).st = 3)
    ∧ (∀ p, (t p).up = true ∧ (t p).domain 26 = .on ∧ (t p).err.swaps.find? (fun x => decide (x.spare = 26)) = some ⟨0, 26, 0, p⟩ ∧ ((t p).array 0).occ = none)
    ∧ (∀ w ∈ (t false).err.swaps, w.spare = 26 → (t false).laOf 26 = none)
    ∧ (({ t false with arr := runs.arr } : State).array 0).occ ≠ none := by
  refine ⟨⟨?_, ?_, ?_⟩, ⟨?_, ?_, ?_⟩, ?_, ?_, ?_⟩ <;> decide +kernel

/-- The module in a stage of its bring-up. -/
def inStage (st : Stage) : State := { State.reset with pow := { PowState.reset with stage := st } }
theorem witness_PowerEvents :
    State.reset.pow.stage = .unpowered ∧ 40000 ≤ (40000 : BitVec 16).toNat ∧ (60000 : BitVec 16).toNat ≤ 60000
      ∧ (inStage .softStart).pow.stage = .softStart ∧ (inStage .softStart).pow.needCycle = false ∧ (inStage .descending).pow.stage = .descending ∧ (inStage .descending).pow.pwrPending = false
      ∧ (∀ k : Fin 10, (inStage (.rails k)).pow.stage = .rails k) ∧ (inStage .railsUp).pow.stage = .railsUp ∧ (inStage .railsUp).bringing = true
      ∧ (∀ st ∈ [Stage.unpowered, .softStart, .descending], upState.pow.stage ≠ st) ∧ upState.powered = true ∧ upState.pow.moduleFailed = none
      ∧ 43999 < 44000 ∧ upState.pow.stage ≠ .railsUp ∧ 1 < railPhases.getD 8 0 + 2
      ∧ (let s : State := { upState with pow := { upState.pow with queue := [26], domains := [(30, .comingUp)] } }
         s.pow.queue = [26] ∧ s.powered = true ∧ (s.pow.domains.filter (fun x => decide (x.2 = .comingUp))).length < 8 ∧ s.domain 30 = .comingUp)
      ∧ (let s : State := { upState with chan := { upState.chan with parts := [] }, pow := { upState.pow with domains := [(0, .on)] } }
         s.laOf 0 = some 0 ∧ s.up = true ∧ s.floorOf 0 = none ∧ Tbl.get false s.chan.lent 0 = false ∧ s.domain 0 = .on) := by
  refine ⟨?_, ?_, ?_, ?_, ?_, ?_, ?_, ?_, ?_, ?_, ?_, ?_, ?_, ?_, ?_, ?_, ?_, ?_⟩ <;> decide +kernel
/-- The module failed while it ran. -/
def failedState : State := { upState with pow := { upState.pow with moduleFailed := some 0x52 } }
theorem witness_PowerLoops_failed : failedState.powered = true ∧ failedState.pow.moduleFailed ≠ none ∧ upState.pow.moduleFailed = none := by
  refine ⟨?_, ?_, ?_⟩ <;> decide +kernel
theorem witness_PowerLoops :
    let s (d : Nat) (b c : Bool) : State := { upState with pow := { upState.pow with duty := d, stageB := b, stageC := c, capStep := 48, heldUnder100 := 99, heldUnder200 := 999 } }
    (s 64 false false).powered = true ∧ 1200 + 25 * (s 8 true false).pow.capStep = 2400 ∧ (s 8 true false).pow.duty ≤ 8 ∧ (s 8 true true).pow.stageC = true ∧ 8 < (s 9 false false).pow.duty
      ∧ 2400 < (2401 : BitVec 16).toNat ∧ (2349 : BitVec 16).toNat + 50 < 2400 ∧ (2400 : BitVec 16).toNat ≤ 2400 ∧ 2400 ≤ (2350 : BitVec 16).toNat + 50
      ∧ 0x800 ≤ (0x8B7 : BitVec 12).toNat ∧ (0x8B7 : BitVec 12).toNat ≤ 0x8B7 ∧ (0x917 : BitVec 12).toNat ≤ 0x917 := by
  refine ⟨?_, ?_, ?_, ?_, ?_, ?_, ?_, ?_, ?_, ?_, ?_, ?_⟩ <;> decide +kernel
/-- A valid image of a type. -/
def image (ty : Byte) : FwImage := ⟨0x474D4946, ty, 3, 1, 0, Config.rootHash, true, true⟩
theorem image_valid (ty : Byte) : imageValid SecState.reset.fuses ty.toNat (image ty) = true := by
  simp [imageValid, image, SecState.reset]
theorem witness_BringupStages :
    (∀ st ∈ [Stage.pllLocked, .booted, .linked, .trained, .assigned], (inStage st).bringing = true ∧ (inStage st).pow.stage = st)
    ∧ [image 1, image 1].find? (fun i => imageValid (inStage .pllLocked).sec.fuses 1 i) = some (image 1)
    ∧ [image 2, image 2].find? (fun i => imageValid (inStage .pllLocked).sec.fuses 2 i) = some (image 2)
    ∧ [image 2, image 2].find? (fun i => imageValid (inStage .pllLocked).sec.fuses 1 i) = none
    ∧ [image 1, image 1].find? (fun i => imageValid (inStage .pllLocked).sec.fuses 2 i) = none
    ∧ (inStage .assigned).pow.stage.awaits = some 9 ∧ (inStage .assigned).pow.stage.awaits ≠ some 3 ∧ (inStage .railsUp).pow.stage = .railsUp ∧ (inStage .railsUp).bringing = true
    ∧ ((inStage .booted).dieState 0).mode = .present ∧ ((inStage .booted).trainDieLinks 0 0).pow.report = .stalled 6
    ∧ ((inStage .booted).trainDieLinks (BitVec.allOnes 22) 0).pow.report = .none := by
  refine ⟨by decide +kernel, List.find?_cons_of_pos (image_valid 1), List.find?_cons_of_pos (image_valid 2), ?_, ?_, ?_, ?_, ?_, ?_, ?_, ?_, ?_⟩
  · simp [imageValid, image]
  · simp [imageValid, image]
  all_goals decide +kernel

theorem witness_RegisterWrites :
    let s := upState
    s.barServes 0 0 = true ∧ (s.port 0).regs.partBusy = false ∧ (s.port 0).regs.partArg.length = 4 ∧ field (96 : Word) 0 7 ≤ 96 ∧ 96 < field (97 : Word) 0 7
      ∧ (∀ n, n < 12 → (s.lp n).enable = false) ∧ (oneLp lpUp).barServes 0 0 = true ∧ ((oneLp lpUp).lp 11).enable = true ∧ field (0xFFF : Word) 0 12 = 0xFFF
      ∧ (0x2DFF8 - 0x28000) / 8 = 3071 ∧ (0x1FF8 - 0x1000) / 8 = 511 ∧ State.reset.barServes 0 0 = false
      ∧ s.barReads 0 0 = true ∧ State.reset.barReads 0 0 = false ∧ failedState.barReads 0 0 = true ∧ failedState.barServes 0 0 = false := by
  refine ⟨?_, ?_, ?_, ?_, ?_, ?_, ?_, ?_, ?_, ?_, ?_, ?_, ?_, ?_, ?_, ?_⟩ <;> decide +kernel
theorem witness_BlockElementsDecode : (254 : Nat) ≠ 255 ∧ (254 : Nat) < 256 ∧ numOf 1 0x3F800000 ≠ .nan ∧ numOf 1 0x7FC00000 = .nan := by
  refine ⟨?_, ?_, ?_, ?_⟩ <;> decide +kernel
theorem witness_MemoryLinesReadBack : upState.unitUp (upState.unitOf 64) = true ∧ State.reset.unitUp (State.reset.unitOf 64) = false := by
  refine ⟨?_, ?_⟩ <;> decide +kernel
theorem witness_StepRunsTheFront : ({ upState with pending := [.pwrEnAsserted] } : State).pending = .pwrEnAsserted :: [] ∧ upState.pending = [] := ⟨rfl, rfl⟩
theorem witness_FusesStayBounded : State.reset.sec.fuses.bounded ∧ step State.reset = .next State.reset := by
  refine ⟨⟨rfl, ?_, ?_, ?_, ?_⟩, rfl⟩ <;> decide

/-! ### Worked examples of the spec -/

/-- The elements of a block in FP32 as numbers. -/
def block (l : List Nat) : List Machine.Num := l.map (numOf 1)
/-- 04, quantising one 32-element gradient block to FP8 E4M3. -/
def gradient : List Nat := [0x40466666, 0xC00CCCCD, 0x3F400000, 0xBD4CCCCD, 0x3FB33333, 0x3B449BA6, 0xBF19999A, 0x4039999A, 0x3DCCCCCD, 0xBF800000, 0x3CA3D70A, 0xBEB33333, 0x0, 0x3FF33333, 0xB951B717, 0x3F000000, 0xC0400000, 0x3E8A3D71, 0x3F666666, 0xBE000000, 0x3D23D70A, 0x40200000, 0xBFCCCCCD, 0x3C03126F, 0x3E4CCCCD, 0xBEE66666, 0x3F99999A, 0xBC75C28F, 0x3F19999A, 0x40433333, 0xBF4CCCCD, 0x3E99999A]
theorem test_gradientScale : blockScale 4 (block gradient) = (0x78, 0) := by decide +kernel
theorem test_gradientCodes : (block gradient).map (fun x => (blockElem 4 0x78 false x 0 0).raw) =
    [0x7C, 0xF9, 0x6C, 0xCD, 0x73, 0x2C, 0xEA, 0x7C, 0x55, 0xF0, 0x42, 0xE3, 0x00, 0x77, 0x8D, 0x68, 0xFC, 0x61, 0x6E, 0xD8, 0x4A, 0x7A, 0xF5, 0x38, 0x5D, 0xE6, 0x72, 0xBF, 0x6A, 0x7C, 0xED, 0x62] := by decide +kernel
theorem test_gradientUncrushed : (block gradient).all (fun x => decide ((blockElem 4 0x78 false x 0 0).counts = NumCounts.zero)) = true := by decide +kernel
/-- 04, a crushed 16-element block in FP4 E2M1. -/
def echo : List Nat := [0x42C00000, 0x3E99999A, 0xBF666666, 0x3FD9999A, 0x40333333, 0xC0900000, 0x40A00000, 0x0, 0x41500000, 0xBD4CCCCD, 0x4079999A, 0x41B00000, 0xC0E00000, 0x3F19999A, 0x42200000, 0xBF99999A]
theorem test_echoScale : blockScale 8 (block echo) = (0x83, 0) := by decide +kernel
theorem test_echoCodes : (block echo).map (fun x => (blockElem 8 0x83 false x 0 0).raw) = [0x7, 0x0, 0x8, 0x0, 0x0, 0x9, 0x1, 0x0, 0x2, 0x8, 0x0, 0x3, 0x9, 0x0, 0x4, 0x8] := by decide +kernel
theorem test_echoCrushed : ((block echo).map (fun x => (blockElem 8 0x83 false x 0 0).counts.crushed)).foldl (· + ·) 0 = 8 := by decide +kernel
/-- 05, projecting two addresses. -/
theorem test_projectGlobal : upState.project 0x1234000 = (72, 0xC000) ∧ sliceOfUnit 72 = 18 := by decide +kernel
theorem test_projectConfined : ({ upState with mem := { upState.mem with bandMode := 1 <<< 40 } } : State).project 0xF3C0005000 = (261, 0xA2000000) ∧ sliceOfUnit 261 = 65 := by decide +kernel
/-- 05, three tenants on one module: figures in 100 MB/s. -/
def tenants (units : BitVec 384) (pt3 : Nat) (hub3 : Fin 4) : State :=
  { upState with
    mem := { upState.mem with unitsUp := units }
    chan := { upState.chan with parts := [(0, { Partition.absent with mode := .live, guarantee := 2000 }), (1, { Partition.absent with mode := .live, guarantee := 60000 }),
      (2, { Partition.absent with mode := .live, confined := true, hub := 1, guarantee := 24000 }), (3, { Partition.absent with mode := .live, confined := true, hub := hub3, guarantee := pt3 })] } }
theorem test_admission : (tenants (BitVec.allOnes 384) 5000 1).admits = false ∧ (tenants (BitVec.allOnes 384) 25000 2).admits = true := by decide +kernel
/-- MS14.C9 and MS15.C2 out of service. -/
def twoDown : BitVec 384 := BitVec.allOnes 384 &&& ~~~((1 : BitVec 384) <<< (14 * 16 + 9)) &&& ~~~((1 : BitVec 384) <<< (15 * 16 + 2))
theorem test_shortfall : (tenants twoDown 25000 2).factorOf 2 = 64250 ∧ (tenants twoDown 25000 2).factorOf 1 = 65536 ∧ (tenants twoDown 24000 2).factorOf 2 = 65536 := by decide +kernel
/-- 15, capping an FP64 atmosphere run at 2,400 W. -/
def capRun : List Nat → State → List Nat
  | [], _ => []
  | p :: t, s => match exec (.capLoopPeriod (BitVec.ofNat 16 p) 48000 0) s with
    | .next u => u.pow.duty :: capRun t u
    | _ => []
theorem test_capLoop : capRun [3380, 2600, 2470, 2405, 2375] { upState with pow := { upState.pow with capStep := 48 } } = [44, 40, 38, 37, 37] := by decide +kernel
/-- 16, strapping module 0x2A5. -/
theorem test_modid : (match exec (.rootPllLock 0x2A5) (inStage .railsUp) with | .next t => t.link.number | _ => 0) = 0x2A5 := by decide +kernel
/-- 04: unsigned INT8 is 0x1C, and bit 4 on another format is reserved. -/
theorem test_formatCodes : fmtReserved 0x1C = false ∧ fmtReserved 0x11 = true := by decide

/-- 03, encoding a TCONTRACT. -/
theorem test_tcontractWords : xaiDecode issNone 0xD02E0009900C0B0A 0x0E0DFFFF = some (.tcontract issAll 0x0009900C0B0A 0x0E0DFFFF) := by decide +kernel
theorem test_reservedClass : xaiDecode issNone 0xE000000000000000 0 = none := by decide +kernel

/-- Charges take nothing from the energy modelled. -/
theorem chargePeriod_modelled (s : State) (cores : List (Fin 160 × Nat)) (rest : Nat) : s.energy.modelled ≤ (s.chargePeriod cores rest).energy.modelled := by
  have grows (s : State) p c e n : s.energy.modelled ≤ (s.charge p c e n).energy.modelled := Nat.le_add_right _ _
  have folds {α : Type} (l : List α) (f : State → α → State) (h : ∀ s k, s.energy.modelled ≤ (f s k).energy.modelled) (s : State) :
      s.energy.modelled ≤ (l.foldl f s).energy.modelled := by
    induction l generalizing s with
    | nil => exact Nat.le_refl _
    | cons k t ih => exact Nat.le_trans (h s k) (ih (f s k))
  unfold State.chargePeriod
  generalize List.range 384 = l
  refine Nat.le_trans (folds _ _ (fun s la => ?_) s) (Nat.le_trans (folds _ _ (fun s n => ?_) _) (grows _ _ _ _ _))
  · split
    · exact Nat.le_refl _
    · split
      · exact grows _ _ _ _ _
      · split <;> exact grows _ _ _ _ _
  · split
    · exact Nat.le_refl _
    · exact grows _ _ _ _ _
theorem chargePeriod_pos (s : State) (cores : List (Fin 160 × Nat)) (rest : Nat) (h : s.energy.modelled = 1) : (s.chargePeriod cores rest).energy.modelled ≠ 0 := by
  have := chargePeriod_modelled s cores rest
  omega
theorem witness_PowerLoops_calibration :
    let s : State := { upState with energy := { EnergyState.reset with modelled := 1 } }
    s.powered = true ∧ s.up = true ∧ (s.chargePeriod [] 0).energy.modelled ≠ 0 :=
  ⟨by decide +kernel, by decide +kernel, chargePeriod_pos _ _ _ rfl⟩
theorem witness_PowerEvents_enables :
    let d : State := { inStage .descending with pow := { (inStage .descending).pow with pwrPending := true, pwrEn := true } }
    ({ inStage .softStart with pow := { (inStage .softStart).pow with charged := true } } : State).pow.charged = true
      ∧ (d.pow.stage = .descending ∧ d.pow.pwrPending = true ∧ d.pow.pwrEn = true ∧ d.pow.needCycle = false)
      ∧ (∀ k : Fin 10, (inStage (.rails k)).pow.moduleFailed = none) ∧ (8 : Fin 9).val ≤ (9 : Fin 10).val := by
  refine ⟨?_, ⟨?_, ?_, ?_, ?_⟩, ?_, ?_⟩ <;> decide +kernel
theorem witness_ReportsMerge_types :
    (errType 0x0039).isSome = true ∧ (errType 0x0023).isSome = true ∧ upState.up = true ∧ field (unitId 6 159) 12 4 = 6 ∧ field (unitId 6 159) 0 12 < 160 ∧ field (unitId 4 383) 12 4 = 4
      ∧ ¬ field (unitId 6 160) 0 12 < 160 ∧ State.reset.up = false := by
  refine ⟨?_, ?_, ?_, ?_, ?_, ?_, ?_, ?_⟩ <;> decide +kernel
theorem witness_NoWordSpellsACommand :
    (∀ k : Fin 16, field (BitVec.ofNat 64 (k.val * 2 ^ 60) : Word) 60 4 = k.val) ∧ (∀ k : Fin 256, field (BitVec.ofNat 64 (k.val * 2 ^ 52) : Word) 52 8 = k.val) := by
  refine ⟨?_, ?_⟩ <;> decide +kernel

end Sys2Proof.Tests
end

section
/-! SUPPORT. Writes and reads of BAR0 (00 R7-R11; 17 R451-R457): what the size and the offset of an access make of it, what
the write of each register leaves, and what its read returns; with these the statement about register writes. -/

namespace Sys2Proof.Machine

/-! ### The slots at an offset -/

theorem nudgeSlot_eq_none {off : Nat} (h : off < 0x28000 ∨ 0x2E000 ≤ off) : nudgeSlot off = none := by
  rw [nudgeSlot, dif_neg (by omega)]

theorem nudgeSlot_eq_some {off : Nat} {ch : Fin 3072} (lo : 0x28000 ≤ off) (hi : off < 0x2E000) (h : (off - 0x28000) / 8 = ch.val) :
    nudgeSlot off = some ch := by
  rw [nudgeSlot, dif_pos ⟨lo, hi⟩]
  exact congrArg some (Fin.ext h)

theorem vfSlot_eq_none {off : Nat} (h : off < 0x1000 ∨ 0x2000 ≤ off) : vfSlot off = none := by
  rw [vfSlot, dif_neg (by omega)]

theorem vfSlot_eq_some {off : Nat} {n : Fin 512} (lo : 0x1000 ≤ off) (hi : off < 0x2000) (h : (off - 0x1000) / 8 = n.val) :
    vfSlot off = some n := by
  rw [vfSlot, dif_pos ⟨lo, hi⟩]
  exact congrArg some (Fin.ext h)

/-! ### The access: its function, its offset and its size -/

theorem exec_registerWrite (a : RegAccess) (v : Word) (s : State) : exec (.registerWrite a v) s = execRegisterWrite a v s := rfl

/-- The write of a physical function outside the nudge slots. -/
theorem exec_registerWrite_register (s : State) (port : Fin 2) (off : BitVec 20) (size : Nat) (v : Word)
    (h : off.toNat < 0x28000 ∨ 0x2E000 ≤ off.toNat) :
    exec (.registerWrite ⟨port, none, off, size⟩ v) s = .next (if s.barServes port 0 then s.writeSized port off.toNat size v else s) := by
  simp only [exec_registerWrite, execRegisterWrite, nudgeSlot_eq_none h]

theorem exec_registerWrite_serving {s : State} {port : Fin 2} (hs : s.barServes port 0 = true) (off : BitVec 20) (size : Nat) (v : Word)
    (h : off.toNat < 0x28000 ∨ 0x2E000 ≤ off.toNat) :
    exec (.registerWrite ⟨port, none, off, size⟩ v) s = .next (s.writeSized port off.toNat size v) := by
  rw [exec_registerWrite_register s port off size v h, if_pos hs]

theorem exec_registerWrite_nudge (s : State) (port : Fin 2) (off : BitVec 20) (size : Nat) (v : Word) (ch : Fin 3072)
    (lo : 0x28000 ≤ off.toNat) (hi : off.toNat < 0x2E000) (h : (off.toNat - 0x28000) / 8 = ch.val) :
    exec (.registerWrite ⟨port, none, off, size⟩ v) s = exec (.chanNudge port ch) s := by
  simp only [exec_registerWrite, execRegisterWrite, nudgeSlot_eq_some lo hi h]
  rfl

theorem exec_registerWrite_vfNudge (s : State) (port : Fin 2) (fn : Fin 128) (off : BitVec 20) (size : Nat) (v : Word) (n : Fin 512)
    (lo : 0x1000 ≤ off.toNat) (hi : off.toNat < 0x2000) (h : (off.toNat - 0x1000) / 8 = n.val) :
    exec (.registerWrite ⟨port, some fn, off, size⟩ v) s = exec (.vfNudge port fn n) s := by
  simp only [exec_registerWrite, execRegisterWrite, vfSlot_eq_some lo hi h]
  rfl

theorem exec_registerWrite_vfOther (s : State) (port : Fin 2) (fn : Fin 128) (off : BitVec 20) (size : Nat) (v : Word)
    (h : off.toNat < 0x1000 ∨ 0x2000 ≤ off.toNat) : exec (.registerWrite ⟨port, some fn, off, size⟩ v) s = .next s := by
  simp only [exec_registerWrite, execRegisterWrite, vfSlot_eq_none h]

/-- A physical function that does not serve takes neither a register write nor a nudge (R455). -/
theorem exec_registerWrite_notServing {s : State} {port : Fin 2} (hs : s.barServes port 0 = false) (off : BitVec 20) (size : Nat) (v : Word) :
    exec (.registerWrite ⟨port, none, off, size⟩ v) s = .next s := by
  by_cases h : off.toNat < 0x28000 ∨ 0x2E000 ≤ off.toNat
  · rw [exec_registerWrite_register s port off size v h, if_neg (by simp [hs])]
  · have hch : (off.toNat - 0x28000) / 8 < 3072 := by omega
    have nudge := exec_registerWrite_nudge s port off size v ⟨_, hch⟩ (by omega) (by omega) rfl
    have asleep : s.pfNudge port ⟨_, hch⟩ = s := by simp [State.pfNudge, hs]
    exact nudge.trans (congrArg Host.Outcome.next asleep)

theorem bits_joinHalves (lo hi : Word) {w : Nat} (hw : w ≤ 32) : bits (joinHalves lo hi) 0 w = bits lo 0 w := by
  have half (i : Nat) (hi : i < 32) : (0xFFFFFFFF#64).getLsbD i = true ∧ (0xFFFFFFFF00000000#64).getLsbD i = false := by
    interval_cases i <;> decide
  ext i h
  simp [joinHalves, half i (by omega)]

theorem State.writeReg_below (s : State) (port : Fin 2) (off : Nat) (v : Word) (h : off < 0x10000) : s.writeReg port off v = s := by
  rw [State.writeReg, if_pos h]

/-- A write of eight bytes, or of the low four, writes the register with a word that has the operand's low half (R9). -/
theorem State.writeSized_aligned (s : State) (port : Fin 2) (off size : Nat) (v : Word) (hsize : size = 4 ∨ size = 8) (hoff : off % 8 = 0) :
    ∃ u : Word, s.writeSized port off size v = s.writeReg port off u ∧ ∀ w, w ≤ 32 → bits u 0 w = bits v 0 w := by
  rcases hsize with rfl | rfl
  · exact ⟨joinHalves v (s.heldWord port off), by simp [State.writeSized, hoff], fun w hw => bits_joinHalves _ _ hw⟩
  · exact ⟨v, by simp [State.writeSized, hoff], fun _ _ => rfl⟩

theorem State.writeSized_eight (s : State) (port : Fin 2) (off : Nat) (v : Word) (hoff : off % 8 = 0) :
    s.writeSized port off 8 v = s.writeReg port off v := by
  rw [State.writeSized, if_pos ⟨rfl, hoff⟩]

/-- A write below the PART block, of a size other than 4 and 8, or misaligned is discarded (R9). -/
theorem State.writeSized_discarded (s : State) (port : Fin 2) (off size : Nat) (v : Word)
    (h : off < 0x10000 ∨ (size ≠ 4 ∧ size ≠ 8) ∨ off % size ≠ 0) : s.writeSized port off size v = s := by
  unfold State.writeSized
  split
  · next whole =>
    obtain ⟨rfl, hoff⟩ := whole
    exact s.writeReg_below port off _ (by omega)
  split
  · next low =>
    obtain ⟨rfl, hoff⟩ := low
    exact s.writeReg_below port off _ (by omega)
  split
  · next high =>
    obtain ⟨rfl, hoff, -⟩ := high
    exact s.writeReg_below port (off - 4) _ (by omega)
  · rfl

/-! ### What the write of a register leaves -/

theorem State.writeReg_partSelect (s : State) (port : Fin 2) (u : Word) :
    s.writeReg port 0x10000 u
      = if (s.port port).regs.partBusy then s else s.setRegs port { (s.port port).regs with partSelect := bits u 0 4 } := rfl

theorem State.writeReg_partArg (s : State) (port : Fin 2) (k : Nat) (u : Word) (hk : k < 4) :
    s.writeReg port (0x10020 + 8 * k) u
      = if (s.port port).regs.partBusy then s else s.setRegs port { (s.port port).regs with partArg := (s.port port).regs.partArg.set k u } := by
  interval_cases k <;> rfl

theorem State.writeReg_hubSelect (s : State) (port : Fin 2) (u : Word) :
    s.writeReg port 0x30018 u = s.setPort port { s.port port with hubSelect := bits u 0 2 } := rfl

theorem State.writeReg_llcSelect (s : State) (port : Fin 2) (u : Word) :
    s.writeReg port 0x40000 u = s.setPort port { s.port port with llcSelect := bits u 0 4 } := rfl

theorem State.writeReg_number (s : State) (port : Fin 2) (u : Word) :
    s.writeReg port 0x50000 u
      = if s.numberLocked ∨ field u 0 12 = 0xFFF then s else { s with link := { s.link with number := bits u 0 12 } } := rfl

theorem State.writeReg_fnSelect (s : State) (port : Fin 2) (u : Word) :
    s.writeReg port 0x60008 u = s.setPort port { s.port port with fnSelect := bits u 0 7 } := rfl

theorem State.writeReg_capStep (s : State) (port : Fin 2) (u : Word) :
    s.writeReg port 0x70000 u = if 96 < field u 0 7 then s else { s with pow := { s.pow with capStep := field u 0 7 } } := rfl

theorem State.writeReg_refillSelect (s : State) (port : Fin 2) (u : Word) :
    s.writeReg port 0x80020 u = s.setPort port { s.port port with refillSelect := bits u 0 4 } := rfl

theorem State.numberLocked_iff (s : State) : s.numberLocked = true ↔ ∃ n, n < 12 ∧ (s.lp n).enable = true := by
  simp [State.numberLocked]

/-! ### What the read of a register returns -/

theorem State.readReg_partSelect (s : State) (port : Fin 2) : s.readReg port 0x10000 = (s.port port).regs.partSelect.setWidth 64 := rfl

theorem State.readReg_hubSelect (s : State) (port : Fin 2) : s.readReg port 0x30018 = (s.port port).hubSelect.setWidth 64 := rfl

theorem State.readReg_llcSelect (s : State) (port : Fin 2) : s.readReg port 0x40000 = (s.port port).llcSelect.setWidth 64 := rfl

theorem State.readReg_fnSelect (s : State) (port : Fin 2) : s.readReg port 0x60008 = (s.port port).fnSelect.setWidth 64 := rfl

theorem State.readReg_refillSelect (s : State) (port : Fin 2) : s.readReg port 0x80020 = (s.port port).refillSelect.setWidth 64 := rfl

/-- The write-only registers PART_CONTROL, CHAN_CONTROL, ERR_INJECT, SEC_MBOX_COMMAND and DBG_UNLOCK read zero (R11). -/
theorem State.readReg_writeOnly (s : State) (port : Fin 2) : ∀ off ∈ [0x10008, 0x20010, 0x80018, 0x90000, 0xB0020], s.readReg port off = 0 := by
  simp only [List.forall_mem_cons, List.not_mem_nil, false_imp_iff, implies_true, and_true]
  exact ⟨rfl, rfl, rfl, rfl, rfl⟩

theorem State.readReg_outside (s : State) (port : Fin 2) (off : Nat) (h : 0xC0000 ≤ off ∨ off % 8 ≠ 0) : s.readReg port off = 0 := by
  unfold State.readReg
  split
  · rfl
  · simp only [show ¬ off < 0x10000 by omega, show ¬ off < 0x20000 by omega, show ¬ off < 0x30000 by omega, show ¬ off < 0x50000 by omega,
      show ¬ off < 0x60000 by omega, show ¬ off < 0x70000 by omega, show ¬ off < 0x90000 by omega, show ¬ off < 0xC0000 by omega, if_false]

theorem readSized_eight (reg : Nat → Word) (off : Nat) (h : off % 8 = 0) : readSized reg off 8 = leBytes 8 (reg off).toNat := by
  rw [readSized, if_pos ⟨rfl, h⟩]

theorem readSized_low (reg : Nat → Word) (off : Nat) (h : off % 8 = 0) : readSized reg off 4 = leBytes 4 ((reg off).toNat % 2 ^ 32) := by
  have at_register : off / 8 * 8 = off := by omega
  simp [readSized, h, at_register, show off % 4 = 0 by omega]

theorem readSized_high (reg : Nat → Word) (off : Nat) (h : off % 8 = 4) : readSized reg off 4 = leBytes 4 ((reg (off - 4)).toNat / 2 ^ 32) := by
  have at_register : off / 8 * 8 = off - 4 := by omega
  have fits : (reg (off - 4)).toNat / 2 ^ 32 < 2 ^ 32 := by
    have := (reg (off - 4)).isLt
    omega
  rw [readSized, if_neg (by simp), if_pos ⟨rfl, by omega⟩, at_register, h]
  exact congrArg (leBytes 4) (Nat.mod_eq_of_lt fits)

theorem readSized_other (reg : Nat → Word) (off size : Nat) (h : (size ≠ 4 ∧ size ≠ 8) ∨ off % size ≠ 0) :
    readSized reg off size = List.replicate size 0xFF := by
  have not_eight : ¬ (size = 8 ∧ off % 8 = 0) := by rintro ⟨rfl, _⟩; omega
  have not_four : ¬ (size = 4 ∧ off % 4 = 0) := by rintro ⟨rfl, _⟩; omega
  rw [readSized, if_neg not_eight, if_neg not_four]

theorem State.readBar0_unserved (s : State) (a : RegAccess) (h : s.barReads a.port (a.vf.getD 0) = false) : s.readBar0 a = none := by
  simp [State.readBar0, h]

theorem State.readBar0_physical (s : State) (port : Fin 2) (off : BitVec 20) (size : Nat) (h : s.barReads port 0 = true) :
    s.readBar0 ⟨port, none, off, size⟩ = some (readSized (s.readReg port) off.toNat size) := by
  simp [State.readBar0, h]

theorem State.readBar0_virtual (s : State) (port : Fin 2) (fn : Fin 128) (off : BitVec 20) (size : Nat) (h : s.barReads port fn = true) :
    s.readBar0 ⟨port, some fn, off, size⟩ = some (readSized (s.readVf port fn) off.toNat size) := by
  simp [State.readBar0, h]

/-- An access of another size, or misaligned, reads ones of a physical and of a virtual function (R9). -/
theorem State.readBar0_other (s : State) (a : RegAccess) (h : s.barReads a.port (a.vf.getD 0) = true)
    (odd : (a.size ≠ 4 ∧ a.size ≠ 8) ∨ a.off.toNat % a.size ≠ 0) : s.readBar0 a = some (List.replicate a.size 0xFF) := by
  obtain ⟨port, vf, off, size⟩ := a
  cases vf with
  | none => rw [s.readBar0_physical port off size h, readSized_other _ _ _ odd]
  | some fn => rw [s.readBar0_virtual port fn off size h, readSized_other _ _ _ odd]

/-! ### The parts of the statement -/

section Serving

variable {s : State} {port : Fin 2} (hs : s.barServes port 0 = true) (size : Nat) (hsize : size = 4 ∨ size = 8) (v : Word)
include hs hsize

/-- The write of a register by its low half: the word written agrees with the operand in every field of that half. -/
theorem exec_registerWrite_low (off : BitVec 20) (hoff : off.toNat % 8 = 0) (out : off.toNat < 0x28000 ∨ 0x2E000 ≤ off.toNat) :
    ∃ u : Word, exec (.registerWrite ⟨port, none, off, size⟩ v) s = .next (s.writeReg port off.toNat u) ∧ ∀ w, w ≤ 32 → bits u 0 w = bits v 0 w := by
  obtain ⟨u, hu, low⟩ := s.writeSized_aligned port off.toNat size v hsize hoff
  exact ⟨u, by rw [exec_registerWrite_serving hs off size v out, hu], low⟩

theorem exec_write_partSelect :
    exec (.registerWrite ⟨port, none, 0x10000, size⟩ v) s
      = .next (if (s.port port).regs.partBusy then s else s.setRegs port { (s.port port).regs with partSelect := bits v 0 4 }) := by
  obtain ⟨u, hu, low⟩ := exec_registerWrite_low hs size hsize v 0x10000 (by decide) (by decide)
  rw [hu, ← low 4 (by decide)]
  exact congrArg _ (s.writeReg_partSelect port u)

theorem exec_write_capStep :
    exec (.registerWrite ⟨port, none, 0x70000, size⟩ v) s
      = .next (if 96 < field v 0 7 then s else { s with pow := { s.pow with capStep := field v 0 7 } }) := by
  obtain ⟨u, hu, low⟩ := exec_registerWrite_low hs size hsize v 0x70000 (by decide) (by decide)
  have same : field u 0 7 = field v 0 7 := congrArg BitVec.toNat (low 7 (by decide))
  rw [hu, ← same]
  exact congrArg _ (s.writeReg_capStep port u)

theorem exec_write_number :
    exec (.registerWrite ⟨port, none, 0x50000, size⟩ v) s
      = .next (if s.numberLocked ∨ field v 0 12 = 0xFFF then s else { s with link := { s.link with number := bits v 0 12 } }) := by
  obtain ⟨u, hu, low⟩ := exec_registerWrite_low hs size hsize v 0x50000 (by decide) (by decide)
  have same : field u 0 12 = field v 0 12 := congrArg BitVec.toNat (low 12 (by decide))
  rw [hu, ← same, ← low 12 (by decide)]
  exact congrArg _ (s.writeReg_number port u)

end Serving

section Whole

variable {s : State} {port : Fin 2} (hs : s.barServes port 0 = true) (v : Word)
include hs

/-- A write of eight bytes at a register's offset. -/
theorem exec_registerWrite_whole (off : Nat) (lt : off < 2 ^ 20) (hoff : off % 8 = 0) (out : off < 0x28000 ∨ 0x2E000 ≤ off) :
    exec (.registerWrite ⟨port, none, BitVec.ofNat 20 off, 8⟩ v) s = .next (s.writeReg port off v) := by
  have at_offset : (BitVec.ofNat 20 off).toNat = off := by rw [BitVec.toNat_ofNat, Nat.mod_eq_of_lt lt]
  rw [exec_registerWrite_serving hs _ 8 v (by rwa [at_offset]), at_offset, s.writeSized_eight port off v hoff]

theorem exec_write_partArg (k : Nat) (hk : k < 4) (idle : (s.port port).regs.partBusy = false) :
    exec (.registerWrite ⟨port, none, BitVec.ofNat 20 (0x10020 + 8 * k), 8⟩ v) s
      = .next (s.setRegs port { (s.port port).regs with partArg := (s.port port).regs.partArg.set k v }) := by
  rw [exec_registerWrite_whole hs v _ (by omega) (by omega) (by omega), s.writeReg_partArg port k v hk, if_neg (by simp [idle])]

/-- A selector written whole reads back its field with zeros above: from what its write leaves in its field. -/
theorem exec_write_reads_back (off w : Nat) (lt : off < 2 ^ 20) (hoff : off % 8 = 0) (out : off < 0x28000 ∨ 0x2E000 ≤ off)
    (back : (s.writeReg port off v).readReg port off = (bits v 0 w).setWidth 64) :
    ∃ t : State, exec (.registerWrite ⟨port, none, BitVec.ofNat 20 off, 8⟩ v) s = .next t ∧ t.readReg port off = BitVec.ofNat 64 (field v 0 w) :=
  ⟨_, exec_registerWrite_whole hs v off lt hoff out, by rw [back, field, BitVec.ofNat_toNat]⟩

theorem exec_write_selector_reads_back (idle : (s.port port).regs.partBusy = false) :
    ∀ x ∈ [(0x10000, 4), (0x30018, 2), (0x40000, 4), (0x60008, 7), (0x80020, 4)],
      ∃ t : State, exec (.registerWrite ⟨port, none, BitVec.ofNat 20 x.1, 8⟩ v) s = .next t ∧ t.readReg port x.1 = BitVec.ofNat 64 (field v 0 x.2) := by
  simp only [List.forall_mem_cons, List.not_mem_nil, false_imp_iff, implies_true, and_true]
  refine ⟨?_, ?_, ?_, ?_, ?_⟩ <;> refine exec_write_reads_back hs v _ _ (by decide) (by decide) (by decide) ?_
  · rw [State.writeReg_partSelect, if_neg (by simp [idle]), State.readReg_partSelect, State.setRegs, State.port_setPort]
  · rw [State.writeReg_hubSelect, State.readReg_hubSelect, State.port_setPort]
  · rw [State.writeReg_llcSelect, State.readReg_llcSelect, State.port_setPort]
  · rw [State.writeReg_fnSelect, State.readReg_fnSelect, State.port_setPort]
  · rw [State.writeReg_refillSelect, State.readReg_refillSelect, State.port_setPort]

end Whole

/-- Settles O52: each clause is the case of `execRegisterWrite`, `State.writeReg` or `readSized` that its offset, its size and
the function's state pick. -/
theorem registerWritesComplete : Obligations.RegisterWritesComplete := by
  unfold Obligations.RegisterWritesComplete
  intro s port v
  refine ⟨fun hs => ⟨fun size hsize => ?fields, fun k hk idle len => ?partArg, fun off size out discarded => ?discarded⟩,
    fun off size ch lo hi h => exec_registerWrite_nudge s port off size v ch lo hi h,
    fun fn off size => ⟨fun n lo hi h => exec_registerWrite_vfNudge s port fn off size v n lo hi h, exec_registerWrite_vfOther s port fn off size v⟩,
    fun hs idle => exec_write_selector_reads_back hs v idle, s.readReg_writeOnly port, s.readReg_outside port, fun off size => ?reads,
    fun hs a hport hvf => ?notServing⟩
  case fields =>
    rw [exec_write_partSelect hs size hsize v, exec_write_capStep hs size hsize v, exec_write_number hs size hsize v, ← s.numberLocked_iff]
    refine ⟨fun idle => ?_, fun busy => ?_, fun le => ?_, fun gt => ?_, fun off ok => ?_, fun locked => ?_⟩
    · rw [if_neg (by simp [idle]), State.setRegs]
    · rw [if_pos busy]
    · rw [if_neg (by omega)]
    · rw [if_pos gt]
    · have unlocked : ¬ s.numberLocked = true := by rw [s.numberLocked_iff]; rintro ⟨n, hn, on⟩; simp [off n hn] at on
      rw [if_neg (not_or.mpr ⟨unlocked, ok⟩)]
    · rw [if_pos locked]
  case partArg =>
    refine ⟨_, exec_write_partArg hs v k hk idle, ?_, fun j hj => ?_, ?_⟩ <;> rw [State.setRegs, State.port_setPort]
    · exact List.getElem?_set_self (by omega)
    · exact List.getElem?_set_ne hj.symm
  case discarded =>
    rw [exec_registerWrite_serving hs off size v out, s.writeSized_discarded port off.toNat size v discarded]
  case reads =>
    refine ⟨fun hr => ?_, fun vf => ⟨fun hr odd => s.readBar0_other ⟨port, vf, off, size⟩ hr odd, s.readBar0_unserved ⟨port, vf, off, size⟩⟩⟩
    rw [s.readBar0_physical port off size hr]
    refine ⟨?_, ?_, ?_⟩
    · rintro rfl h
      rw [readSized_eight _ _ h]
    · rintro rfl h
      rw [readSized_low _ _ h]
    · rintro rfl h
      rw [readSized_high _ _ h]
  case notServing =>
    obtain ⟨p, vf, off, size⟩ := a
    obtain rfl : p = port := hport
    obtain rfl : vf = none := hvf
    exact exec_registerWrite_notServing hs off size v

end Sys2Proof.Machine
end

section
/-! SUPPORT. Reports at the region controllers (14 R395): what firmware answers before a merge, what the merge leaves, and the
close of an entry; with these the statement about merged reports. -/

namespace Sys2Proof.Machine

/-! ### The distinct reporters and the join of reports (R391) -/

theorem mem_joinReporter (l : List (BitVec 16)) (r q : BitVec 16) : q ∈ joinReporter l r ↔ q ∈ l ∨ q = r := by
  unfold joinReporter
  split
  · have held : r ∈ l := by simpa using ‹l.contains r = true›
    exact ⟨Or.inl, fun h => h.elim id (fun e => e ▸ held)⟩
  · simp

theorem Merged.join_ty {x y : Merged} (h : y.ty = x.ty) : (x.join y).ty = x.ty := by
  unfold Merged.join; dsimp only; split
  · exact h
  · rfl

/-! ### The report leaves the raised ones, and firmware answers it (R24, R153, R395) -/

/-- The report is no longer among those raised. -/
def State.takeRaised (s : State) (region : Fin 23) (r : Report) : State :=
  { s with err := { s.err with raised := s.err.raised.erase (region, r) } }

/-- What firmware does before a merge: a spare for a fenced core, the Atlas for a retired page. -/
def State.answerReport (s : State) (r : Report) : State :=
  let s := if r.ty = 0x0039 ∧ s.up ∧ field r.unit 12 4 = 6 ∧ field r.unit 0 12 < 160 then s.fenceCore (field r.unit 0 12) else s
  if r.ty = 0x0023 ∧ s.up ∧ field r.unit 12 4 = 4 ∧ field r.unit 0 12 < 384 then s.noteRetired (field r.unit 0 12) else s

theorem State.answerReport_of_not_page (s : State) {r : Report} (page : r.ty ≠ 0x0023) :
    s.answerReport r = if r.ty = 0x0039 ∧ s.up ∧ field r.unit 12 4 = 6 ∧ field r.unit 0 12 < 160 then s.fenceCore (field r.unit 0 12) else s :=
  if_neg (fun h => page h.1)

theorem State.answerReport_of_not_core (s : State) {r : Report} (core : r.ty ≠ 0x0039) :
    s.answerReport r = if r.ty = 0x0023 ∧ s.up ∧ field r.unit 12 4 = 4 ∧ field r.unit 0 12 < 384 then s.noteRetired (field r.unit 0 12) else s := by
  unfold State.answerReport
  rw [if_neg (fun h : r.ty = 0x0039 ∧ _ => core h.1)]

theorem State.answerReport_other (s : State) {r : Report} (core : r.ty ≠ 0x0039) (page : r.ty ≠ 0x0023) : s.answerReport r = s := by
  rw [s.answerReport_of_not_core core, if_neg (fun h => page h.1)]

theorem State.answerReport_core {s : State} {r : Report} (core : r.ty = 0x0039) :
    s.answerReport r = if s.up ∧ field r.unit 12 4 = 6 ∧ field r.unit 0 12 < 160 then s.fenceCore (field r.unit 0 12) else s := by
  rw [s.answerReport_of_not_page (by rw [core]; decide)]
  exact if_congr (and_iff_right core) rfl rfl

theorem State.answerReport_page {s : State} {r : Report} (page : r.ty = 0x0023) :
    s.answerReport r = if s.up ∧ field r.unit 12 4 = 4 ∧ field r.unit 0 12 < 384 then s.noteRetired (field r.unit 0 12) else s := by
  rw [s.answerReport_of_not_core (by rw [page]; decide)]
  exact if_congr (and_iff_right page) rfl rfl

/-- The conditions of the statement leave one state before the merge. -/
theorem State.eq_answerReport {v u : State} {r : Report} (other : r.ty ≠ 0x0039 ∧ r.ty ≠ 0x0023 → u = v) (down : v.up = false → u = v)
    (core : v.up = true → r.ty = 0x0039 → u = if field r.unit 12 4 = 6 ∧ field r.unit 0 12 < 160 then v.fenceCore (field r.unit 0 12) else v)
    (page : v.up = true → r.ty = 0x0023 → u = if field r.unit 12 4 = 4 ∧ field r.unit 0 12 < 384 then v.noteRetired (field r.unit 0 12) else v) :
    u = v.answerReport r := by
  by_cases isCore : r.ty = 0x0039
  · rw [State.answerReport_core isCore]
    cases up : v.up with
    | false => simp [down up]
    | true => simpa using core up isCore
  · by_cases isPage : r.ty = 0x0023
    · rw [State.answerReport_page isPage]
      cases up : v.up with
      | false => simp [down up]
      | true => simpa using page up isPage
    · rw [other ⟨isCore, isPage⟩, v.answerReport_other isCore isPage]

/-! ### The merge (R395) -/

/-- The merge entry is that of a region, suspect and type. -/
def Merged.sameAs (region : Fin 23) (unit ty : BitVec 16) (x : Merged) : Bool := decide (x.region = region.val ∧ x.unit = unit ∧ x.ty = ty)

/-- A merged report is taken in: it joins the open entry, opens one, or goes to the collector. -/
def ErrState.merge (e : ErrState) (region : Fin 23) (m : Merged) : ErrState :=
  if e.merges.any (Merged.sameAs region m.unit m.ty) then
    { e with merges := e.merges.map (fun x => if Merged.sameAs region m.unit m.ty x then x.join m else x) }
  else if (e.merges.filter (fun x => decide (x.region = region.val))).length < 32 then { e with merges := e.merges ++ [m] }
  else { e with inbox := e.inbox ++ [m] }

/-- The entry of the report's suspect and type takes it in, and no other entry changes. -/
theorem ErrState.merge_of_open {e : ErrState} {region : Fin 23} {m : Merged} (h : e.merges.any (Merged.sameAs region m.unit m.ty) = true) :
    e.merge region m = { e with merges := e.merges.map (fun x => if Merged.sameAs region m.unit m.ty x then x.join m else x) } := by
  rw [ErrState.merge, if_pos h]

theorem ErrState.merge_of_room {e : ErrState} {region : Fin 23} {m : Merged} (h : e.merges.any (Merged.sameAs region m.unit m.ty) = false)
    (room : (e.merges.filter (fun x => decide (x.region = region.val))).length < 32) : e.merge region m = { e with merges := e.merges ++ [m] } := by
  rw [ErrState.merge, if_neg (by simp [h]), if_pos room]

theorem ErrState.merge_of_full {e : ErrState} {region : Fin 23} {m : Merged} (h : e.merges.any (Merged.sameAs region m.unit m.ty) = false)
    (full : 32 ≤ (e.merges.filter (fun x => decide (x.region = region.val))).length) : e.merge region m = { e with inbox := e.inbox ++ [m] } := by
  rw [ErrState.merge, if_neg (by simp [h]), if_neg (by omega)]

/-- A merge changes the entries and what the collector is to take, and nothing else of the controllers. -/
theorem ErrState.merge_frame (e : ErrState) (region : Fin 23) (m : Merged) :
    e.merge region m = { e with merges := (e.merge region m).merges, inbox := (e.merge region m).inbox } := by
  unfold ErrState.merge; split
  · rfl
  · split <;> rfl

/-- What an open entry becomes when a report of its type joins it. -/
theorem Merged.join_of {x : Merged} {r : Report} (region : Nat) (stamp : Word) (h : x.ty = r.ty) :
    let y := x.join (Merged.of r region stamp false)
    y.ty = x.ty ∧ y.unit = x.unit ∧ y.region = x.region ∧ y.stamp = x.stamp ∧ y.parts = x.parts ||| r.parts
      ∧ y.reports = min (x.reports + 1) (2 ^ 32 - 1) ∧ (∀ q, q ∈ y.reporters ↔ q ∈ x.reporters ∨ q = r.reporter) :=
  ⟨Merged.join_ty h.symm, rfl, rfl, rfl, rfl, rfl, mem_joinReporter x.reporters r.reporter⟩

theorem exec_errorReport {s : State} {r : Report} (region : Fin 23) (powered : s.powered = true) (known : (errType r.ty.toNat).isSome = true) :
    let u := (s.takeRaised region r).answerReport r
    exec (.errorReport region r) s
      = .next { u with err := u.err.merge region (Merged.of r region.val (u.freeVal 64).1 false), freeCount := u.freeCount + 1 } := by
  have guard : ¬ ((!s.powered) = true ∨ (errType r.ty.toNat).isNone = true) := by
    rw [Option.isNone_eq_false_iff.mpr known, powered]; decide
  intro u
  unfold ErrState.merge
  split
  · exact (if_neg guard).trans (if_pos ‹_›)
  · split
    · exact (if_neg guard).trans ((if_neg ‹_›).trans (if_pos ‹_›))
    · exact (if_neg guard).trans ((if_neg ‹_›).trans (if_neg ‹_›))

/-! ### The close of an entry (R395) -/

theorem exec_mergeWindowClose {s : State} {region : Fin 23} {ty unit : BitVec 16} {m : Merged}
    (h : s.err.merges.find? (Merged.sameAs region unit ty) = some m) :
    exec (.mergeWindowClose region ty unit) s
      = .next { s with err := { s.err with merges := s.err.merges.filter (fun x => !Merged.sameAs region unit ty x), inbox := s.err.inbox ++ [m] } } := by
  change execMergeWindowClose region ty unit s = _
  unfold execMergeWindowClose
  dsimp only
  split
  · rename_i shut
    cases shut.symm.trans h
  · rename_i found
    cases found.symm.trans h
    rfl

/-! ### The statement -/

/-- Settles O46: the report joins, opens or passes by the entries of the state that firmware's answer leaves. -/
theorem reportsMergeByRegion : Obligations.ReportsMergeByRegion := by
  unfold Obligations.ReportsMergeByRegion
  refine ⟨?reports, ?close⟩
  case reports =>
    intro s u region r powered known v same other down core page
    obtain rfl : u = v.answerReport r := State.eq_answerReport other down core page
    generalize hu : v.answerReport r = u
    let m := Merged.of r region.val (u.freeVal 64).1 false
    refine ⟨{ u with err := u.err.merge region m, freeCount := u.freeCount + 1 }, (u.freeVal 64).1,
      by rw [exec_errorReport region powered known]; subst hu; rfl,
      congrArg (fun e => { u with err := e, freeCount := u.freeCount + 1 }) (u.err.merge_frame region m), ?joins, ?opens, ?passes⟩
    case joins =>
      intro held
      rw [ErrState.merge_of_open (m := m) held]
      refine ⟨rfl, List.length_map _, fun k x hx => ⟨_, by rw [List.getElem?_map, hx]; rfl, fun no => if_neg (Bool.eq_false_iff.mp no), fun yes => ?_⟩⟩
      rw [if_pos yes]
      exact Merged.join_of _ _ (of_decide_eq_true yes).2.2
    case opens =>
      intro none room
      rw [ErrState.merge_of_room (m := m) none room]
      exact ⟨rfl, rfl⟩
    case passes =>
      intro none full
      rw [ErrState.merge_of_full (m := m) none full]
      exact ⟨rfl, rfl⟩
  case close =>
    intro s region ty unit m h
    refine ⟨_, exec_mergeWindowClose h, rfl, fun x => ?_⟩
    rw [List.mem_filter, Bool.not_eq_true', Merged.sameAs, decide_eq_false_iff_not]

end Sys2Proof.Machine
end

section
/-! SUPPORT. Requests of the pool, translations, writes to host memory and records of rings leave the standing of the module:
power and bring-up, security, the Atlas, the links, the partitions and the units in service. -/

namespace Sys2Proof.Machine

/-- What no request of the pool touches. -/
structure Standing where
  pow : PowState
  sec : SecState
  atlas : AtlasState
  link : LinkState
  parts : Tbl Partition
  unitsUp : BitVec 384
  unitsAtBoot : BitVec 384

def State.standing (s : State) : Standing := ⟨s.pow, s.sec, s.atlas, s.link, s.chan.parts, s.mem.unitsUp, s.mem.unitsAtBoot⟩

/-! ### How a function of the state passes through folds and branches -/

theorem foldl_keeps {α β γ : Type} (g : β → γ) (F : β → α → β) (h : ∀ s a, g (F s a) = g s) (l : List α) (s : β) : g (l.foldl F s) = g s :=
  List.foldlRecOn (motive := fun t => g t = g s) l F rfl (fun t ht a _ => (h t a).trans ht)

@[simp] theorem foldl_standing {α : Type} (F : State → α → State) (h : ∀ s a, (F s a).standing = s.standing) (l : List α) (s : State) :
    (l.foldl F s).standing = s.standing := foldl_keeps _ F h l s

@[simp] theorem foldl_standing_fst {α β : Type} (F : State × β → α → State × β) (h : ∀ x a, (F x a).1.standing = x.1.standing) (l : List α) (x : State × β) :
    (l.foldl F x).1.standing = x.1.standing := foldl_keeps (fun x => x.1.standing) F h l x

@[simp] theorem standing_ite (c : Prop) [Decidable c] (a b : State) : (if c then a else b).standing = if c then a.standing else b.standing := apply_ite _ _ _ _

/-- A state written out: its standing is read off. -/
@[simp] theorem State.standing_mk (a b c d e f g h i j k l m) :
    (State.mk a b c d e f g h i j k l m).standing = ⟨h, f, i, e, c.parts, b.unitsUp, b.unitsAtBoot⟩ := rfl

@[simp] theorem State.standing_fold (s : State) : (⟨s.pow, s.sec, s.atlas, s.link, s.chan.parts, s.mem.unitsUp, s.mem.unitsAtBoot⟩ : Standing) = s.standing := rfl

/-! ### Channels (R154-R161) -/

@[simp] theorem State.report_standing (s : State) (r : Report) : (s.report r).standing = s.standing := rfl
@[simp] theorem State.emit_standing (s : State) (o : Out) : (s.emit o).standing = s.standing := rfl
@[simp] theorem State.freeVal_standing (s : State) (w : Nat) : (s.freeVal w).2.standing = s.standing := rfl
@[simp] theorem State.charge_standing (s : State) (p : Fin 16) (c : Option CmdRef) (e : EnergyEvent) (n : Nat) : (s.charge p c e n).standing = s.standing := rfl
@[simp] theorem State.setPoison_standing (s : State) (g : Nat) (b : Bool) : (s.setPoison g b).standing = s.standing := rfl

@[simp] theorem State.writeMem_standing (s : State) (line : Nat) (d : Line) (m : BitVec 128) (p : BitVec 2) : (s.writeMem line d m p).standing = s.standing := by
  unfold State.writeMem; split <;> rfl

@[simp] theorem State.enterReq_standing (s : State) (r : MemReq) : (s.enterReq r).standing = s.standing := by
  unfold State.enterReq; dsimp only; (repeat' split) <;> rfl

@[simp] theorem State.chanAsk_standing (s : State) (line : Nat) (p : Fin 16) (cls : ReqClass) (bytes : Nat) (target : FillFor) :
    (s.chanAsk line p cls bytes target).standing = s.standing := by
  simp [State.chanAsk]

/-! ### The home and the dies (R177-R194) -/

@[simp] theorem State.llcPut_standing (s : State) (l : LlcLine) : (s.llcPut l).standing = s.standing := rfl
@[simp] theorem State.llcDrop_standing (s : State) (l : LlcLine) : (s.llcDrop l).standing = s.standing := rfl
@[simp] theorem State.countDemoted_standing (s : State) (p : Fin 16) : (s.countDemoted p).standing = s.standing := rfl
@[simp] theorem State.wakeLine_standing (s : State) (line : Nat) : (s.wakeLine line).standing = s.standing := rfl

@[simp] theorem State.shadowNote_standing (s : State) (p : Fin 16) (slice set tag hint : Nat) (hit : Bool) : (s.shadowNote p slice set tag hint hit).standing = s.standing := by
  unfold State.shadowNote; split <;> rfl

@[simp] theorem State.llcHit_standing (s : State) (p : Fin 16) (l : LlcLine) (hint : Nat) : (s.llcHit p l hint).standing = s.standing := by
  simp [State.llcHit]

@[simp] theorem State.dieAnswer_standing (s : State) (d : Fin 2) (line : Nat) (q : Snoop) (w : Option Line) : (s.dieAnswer d line q w).2.standing = s.standing := by
  unfold State.dieAnswer; dsimp only; (repeat' split) <;> rfl

@[simp] theorem State.takeRsp_standing (s : State) (d : Fin 2) (line : Nat) (r : Rsp) : (s.takeRsp d line r).standing = s.standing := by
  unfold State.takeRsp; split
  · rfl
  · cases r <;> rfl

@[simp] theorem State.snoopNow_standing (s : State) (d : Fin 2) (line : Nat) (q : Snoop) : (s.snoopNow d line q).standing = s.standing := by
  simp [State.snoopNow]

@[simp] theorem State.snoopAll_standing (s : State) (line : Nat) (q : Snoop) : (s.snoopAll line q).standing = s.standing := by
  simp [State.snoopAll]

@[simp] theorem State.evictLine_standing (s : State) (l : LlcLine) : (s.evictLine l).standing = s.standing := by
  unfold State.evictLine; split
  · rfl
  · dsimp only; split <;> simp

@[simp] theorem State.llcAlloc_standing (s : State) (p : Fin 16) (line hint : Nat) (remote dieReq : Bool) (hd : HomeData) (d : Line) (po : BitVec 2) :
    (s.llcAlloc p line hint remote dieReq hd d po).2.standing = s.standing := by
  unfold State.llcAlloc; dsimp only; split
  · simp
  · split
    · simp
    · change State.standing (if _ then _ else _) = _
      (repeat' split) <;> simp

/-! ### Error correction (R149-R153, R403-R405) -/

@[simp] theorem State.retirePage_standing (s : State) (u pg : Nat) : (s.retirePage u pg).standing = s.standing := by
  unfold State.retirePage; dsimp only; split
  · rfl
  · split <;> rfl

@[simp] theorem State.countCorrection_standing (s : State) (u pg : Nat) : (s.countCorrection u pg).standing = s.standing := by
  simp [State.countCorrection]

@[simp] theorem State.refillRead_standing (s : State) (r : RefillPage) : (s.refillRead r).standing = s.standing := by
  unfold State.refillRead; split
  · dsimp only; split <;> rfl
  · rfl
  · rfl

@[simp] theorem State.poisonFound_standing (s : State) (u pg : Nat) (granule : Option Nat) : (s.poisonFound u pg granule).standing = s.standing := by
  unfold State.poisonFound; split
  · simp
  · dsimp only; split
    · rfl
    · split
      · exact State.refillRead_standing _ _
      · simp

@[simp] theorem State.eccTake_standing (s : State) (u pg : Nat) (granule : Option Nat) (good : BitVec 512) (e : EccEvent) :
    (s.eccTake u pg granule good e).2.2.standing = s.standing := by
  cases e <;> simp [State.eccTake]

@[simp] theorem State.eccFree_standing (s : State) : s.eccFree.2.standing = s.standing := rfl

@[simp] theorem State.readGranule_standing (s : State) (line g : Nat) (e : EccEvent) : (s.readGranule line g e).2.2.standing = s.standing := by
  simp [State.readGranule]

@[simp] theorem State.churnOne_standing (s : State) (o : ChurnOp) (e : EccEvent) : (s.churnOne o e).2.standing = s.standing := by
  unfold State.churnOne
  split
  · rfl
  · dsimp only
    split <;> simp

@[simp] theorem State.flushChurn_standing (s : State) (line : Nat) : (s.flushChurn line).standing = s.standing := by
  simp [State.flushChurn]

@[simp] theorem State.readLine_standing (s : State) (line : Nat) (e : EccPair) : (s.readLine line e).2.standing = s.standing := by
  simp [State.readLine]

@[simp] theorem State.readFree_standing (s : State) (line : Nat) : (s.readFree line).2.standing = s.standing := by
  simp [State.readFree]

@[simp] theorem State.writeBehind_standing (s : State) (line : Nat) (d : Line) (m : BitVec 128) (p : BitVec 2) : (s.writeBehind line d m p).standing = s.standing := by
  simp [State.writeBehind]

/-! ### Requests of engines (R185, R190, R196) -/

@[simp] theorem State.engRead_standing (s : State) (p : Fin 16) (line hint : Nat) (cls : ReqClass) : (s.engRead p line hint cls).2.standing = s.standing := by
  unfold State.engRead; split
  · dsimp only; split <;> simp
  · simp

@[simp] theorem State.engWrite_standing (s : State) (p : Fin 16) (line : Nat) (d : Line) (m : BitVec 128) (po : BitVec 2) (hint : Nat) (cls : ReqClass) :
    (s.engWrite p line d m po hint cls).standing = s.standing := by
  unfold State.engWrite; dsimp only; split
  · split <;> simp
  · split
    · simp
    · split <;> simp

@[simp] theorem State.engUpdate_standing (s : State) (p : Fin 16) (line hint : Nat) (touch : BitVec 2) (f : Line → Line) (cls : ReqClass) :
    (s.engUpdate p line hint touch f cls).2.standing = s.standing := by
  unfold State.engUpdate; dsimp only; split
  · split
    · simp
    · split <;> simp
  · split
    · simp
    · simp

/-! ### Translation (R157, R257, R375) -/

@[simp] theorem State.walk_standing (rd : LineRead) (h : ∀ s line, (rd s line).2.standing = s.standing) (s : State) (p : Fin 16) (va page level : Nat) :
    (State.walk rd s p va page level).2.standing = s.standing := by
  induction level generalizing s page with
  | zero => unfold State.walk; dsimp only; (repeat' split) <;> simp [h]
  | succ l ih => unfold State.walk; dsimp only; (repeat' split) <;> simp [h, ih]

@[simp] theorem State.translateWith_standing (rd : LineRead) (h : ∀ s line, (rd s line).2.standing = s.standing) (s : State) (p : Fin 16) (va : Nat) (write : Bool) :
    (s.translateWith rd p va write).2.standing = s.standing := by
  unfold State.translateWith
  dsimp only
  split
  · rfl
  split
  · rfl
  split
  · rfl
  split
  · rfl
  split
  · rfl
  · rename_i root _
    have walked := State.walk_standing rd h s p va root 4
    generalize State.walk rd s p va root 4 = found at walked
    obtain ⟨_ | _, _⟩ := found <;> exact walked

theorem walkRead_standing (p : Fin 16) (s : State) (line : Nat) : (walkRead p s line).2.standing = s.standing := by
  unfold walkRead; split <;> simp

@[simp] theorem State.translate_standing (s : State) (p : Fin 16) (va : Nat) (write : Bool) : (s.translate p va write).2.standing = s.standing :=
  State.translateWith_standing _ (walkRead_standing p) s p va write

/-! ### Host memory (R217, R315, R335, R336) -/

@[simp] theorem State.sendTag_standing (s : State) (r : HostTag) (x : HostSend) : (s.sendTag r x).standing = s.standing := by
  cases x <;> rfl

@[simp] theorem State.askTag_standing (s : State) (port : Fin 2) (fn : Fin 128) (a : Word) (n : Nat) (use : HostFor) (x : HostSend) :
    (s.askTag port fn a n use x).standing = s.standing := by
  simp [State.askTag]

@[simp] theorem State.hostAsk_standing (s : State) (c : Ctx) (iova n : Nat) : (s.hostAsk c iova n).standing = s.standing := rfl

@[simp] theorem State.setFn_standing (s : State) (p : Fin 2) (f : Fin 128) (x : FnState) : (s.setFn p f x).standing = s.standing := rfl

@[simp] theorem State.writeBackWord_standing (s : State) (x : Fin 2 × Word × BitVec 64) : (s.writeBackWord x).standing = s.standing := rfl

@[simp] theorem State.mergeBits_standing (s : State) (port : Fin 2) (a : Word) (b : BitVec 64) : (s.mergeBits port a b).standing = s.standing := by
  unfold State.mergeBits; split
  · rfl
  · split <;> simp [State.askAside]

@[simp] theorem State.logPage_standing (s : State) (port : Fin 2) (fn : Fin 128) (page : Nat) : (s.logPage port fn page).standing = s.standing := by
  simp [State.logPage]

@[simp] theorem State.hostWrite_standing (s : State) (c : Ctx) (iova : Nat) (b : List Byte) (release : Bool) : (s.hostWrite c iova b release).standing = s.standing := by
  simp [State.hostWrite]

/-! ### Byte strings and rings (R257, R286-R288) -/

@[simp] theorem State.readCut_standing (s : State) (c : Ctx) (buf : Tbl (Option BufByte)) (hint va n : Nat) (atlas : Nat → Byte) (cls : ReqClass) :
    (s.readCut c buf hint va n atlas cls).2.standing = s.standing := by
  unfold State.readCut; dsimp only; (repeat' split) <;> simp

@[simp] theorem State.readCuts_standing (s : State) (c : Ctx) (buf : Tbl (Option BufByte)) (hint : Nat) (atlas : Nat → Byte) (cls : ReqClass) (l : List (Nat × Nat)) :
    (s.readCuts c buf hint atlas cls l).2.standing = s.standing := by
  induction l generalizing s with
  | nil => rfl
  | cons a l ih =>
    have cut := s.readCut_standing c buf hint a.1 a.2 atlas cls
    unfold State.readCuts
    generalize s.readCut c buf hint a.1 a.2 atlas cls = got at cut
    obtain ⟨g, t⟩ := got
    cases g with
    | ok b =>
      have rest := ih t
      dsimp only
      generalize State.readCuts t c buf hint atlas cls l = more at rest
      obtain ⟨m, u⟩ := more
      cases m <;> exact rest.trans cut
    | _ => exact cut

@[simp] theorem State.vaRead_standing (s : State) (c : Ctx) (buf : Tbl (Option BufByte)) (hint va n : Nat) (atlas : Nat → Byte) (cls : ReqClass) :
    (s.vaRead c buf hint va n atlas cls).2.standing = s.standing := by
  simp [State.vaRead]

@[simp] theorem State.writeCut_standing (s : State) (c : Ctx) (hint va : Nat) (b : List Byte) (po : BitVec 2) (release : Bool) (cls : ReqClass) :
    (s.writeCut c hint va b po release cls).2.standing = s.standing := by
  unfold State.writeCut; dsimp only; (repeat' split) <;> simp

@[simp] theorem State.writeCuts_standing (s : State) (c : Ctx) (hint : Nat) (release : Bool) (cls : ReqClass) (l : List (Nat × Nat)) (b : List Byte) :
    (s.writeCuts c hint release cls l b).2.standing = s.standing := by
  induction l generalizing s b with
  | nil => rfl
  | cons a l ih =>
    have cut := s.writeCut_standing c hint a.1 (b.take a.2) 0 release cls
    unfold State.writeCuts
    generalize s.writeCut c hint a.1 (b.take a.2) 0 release cls = put at cut
    obtain ⟨g, t⟩ := put
    cases g with
    | ok => exact (ih t _).trans cut
    | _ => exact cut

@[simp] theorem State.vaWrite_standing (s : State) (c : Ctx) (hint va : Nat) (b : List Byte) (release : Bool) (cls : ReqClass) :
    (s.vaWrite c hint va b release cls).2.standing = s.standing := by
  simp [State.vaWrite]

@[simp] theorem State.ringPut_standing (s : State) (c : Ctx) (host : Bool) (a : Nat) (b : List Byte) (release : Bool) : (s.ringPut c host a b release).2.standing = s.standing := by
  unfold State.ringPut
  split
  · split <;> simp
  · have put := s.vaWrite_standing c 0 a b release .array
    generalize s.vaWrite c 0 a b release = x at put
    obtain ⟨g, t⟩ := x
    cases g <;> exact put

@[simp] theorem State.ringConsumer_standing (s : State) (c : Ctx) (r : RingReg) : (s.ringConsumer c r).2.standing = s.standing := by
  unfold State.ringConsumer
  dsimp only
  split
  · split <;> simp
  · have read := s.vaRead_standing c [] 0 ((r.block.toNat + 28) % 2 ^ 64) 4 (fun _ => 0) .array
    generalize s.vaRead c [] 0 ((r.block.toNat + 28) % 2 ^ 64) 4 (fun _ => 0) = x at read
    obtain ⟨g, t⟩ := x
    cases g <;> exact read

@[simp] theorem State.ringRecord_standing (s : State) (c : Ctx) (r : RingReg) (record : List Byte) (kind : Option Byte) (cons : Option (BitVec 32)) :
    (s.ringRecord c r record kind cons).2.2.standing = s.standing := by
  unfold State.ringRecord; cases cons <;> cases kind <;> simp

@[simp] theorem State.mirrorWrite_standing (s : State) : s.mirrorWrite.standing = s.standing := by
  simp [State.mirrorWrite]

end Sys2Proof.Machine
end

section
/-! SUPPORT. Events, updates of the Atlas, kills of commands and the loss of units: what they leave of power and bring-up, of the
units in service and of the slots. -/

namespace Sys2Proof.Machine

/-! ### Events and updates of the Atlas (R26, R33, R288) -/

/-- The slots, the links with the dies, and the units in service. -/
structure Plant where
  slots : Tbl SlotState
  link : LinkState
  unitsUp : BitVec 384
  unitsAtBoot : BitVec 384

def State.plant (s : State) : Plant := ⟨s.atlas.slots, s.link, s.mem.unitsUp, s.mem.unitsAtBoot⟩

/-- What no event and no update of the Atlas touches: power and bring-up, and the plant. -/
structure Footing where
  pow : PowState
  plant : Plant

def State.footing (s : State) : Footing := ⟨s.pow, s.plant⟩

theorem footing_of_standing {s t : State} (h : t.standing = s.standing) : t.footing = s.footing :=
  congrArg (fun x : Standing => (⟨x.pow, ⟨x.atlas.slots, x.link, x.unitsUp, x.unitsAtBoot⟩⟩ : Footing)) h

theorem pow_of_standing {s t : State} (h : t.standing = s.standing) : t.pow = s.pow := congrArg Standing.pow h
theorem pow_of_footing {s t : State} (h : t.footing = s.footing) : t.pow = s.pow := congrArg Footing.pow h
theorem plant_of_footing {s t : State} (h : t.footing = s.footing) : t.plant = s.plant := congrArg Footing.plant h

@[simp] theorem foldl_footing {α : Type} (F : State → α → State) (h : ∀ s a, (F s a).footing = s.footing) (l : List α) (s : State) :
    (l.foldl F s).footing = s.footing := foldl_keeps _ F h l s

@[simp] theorem footing_ite (c : Prop) [Decidable c] (a b : State) : (if c then a else b).footing = if c then a.footing else b.footing := apply_ite _ _ _ _

/-- A state written out: its footing is read off. -/
@[simp] theorem State.footing_mk (a b c d e f g h i j k l m) :
    (State.mk a b c d e f g h i j k l m).footing = ⟨h, ⟨i.slots, e, b.unitsUp, b.unitsAtBoot⟩⟩ := rfl

@[simp] theorem State.footing_fold (s : State) : (⟨s.pow, ⟨s.atlas.slots, s.link, s.mem.unitsUp, s.mem.unitsAtBoot⟩⟩ : Footing) = s.footing := rfl

@[simp] theorem State.ringRecord_footing (s : State) (c : Ctx) (r : RingReg) (record : List Byte) (kind : Option Byte) (cons : Option (BitVec 32)) :
    (s.ringRecord c r record kind cons).2.2.footing = s.footing := footing_of_standing (s.ringRecord_standing c r record kind cons)

@[simp] theorem State.setPartition_footing (s : State) (p : Fin 16) (x : Partition) : (s.setPartition p x).footing = s.footing := rfl
@[simp] theorem State.setCore_footing (s : State) (n : Nat) (x : CoreState) : (s.setCore n x).footing = s.footing := rfl

@[simp] theorem State.postEvent_footing (s : State) (p : Fin 16) (event : Nat) (body : List Byte) : (s.postEvent p event body).footing = s.footing := by
  unfold State.postEvent; dsimp only; split
  · rfl
  · split <;> simp

@[simp] theorem State.postAll_footing (s : State) (parts : BitVec 16) (event : Nat) (body : List Byte) : (s.postAll parts event body).footing = s.footing := by
  simp [State.postAll]

@[simp] theorem State.atlasBegin_footing (s : State) : s.atlasBegin.footing = s.footing := by
  unfold State.atlasBegin; split <;> rfl

@[simp] theorem State.mirrorWrite_footing (s : State) : s.mirrorWrite.footing = s.footing := footing_of_standing s.mirrorWrite_standing

@[simp] theorem State.atlasEnd_footing (s : State) : s.atlasEnd.footing = s.footing := by
  unfold State.atlasEnd; split
  · rfl
  · dsimp only
    rw [State.postAll_footing, State.mirrorWrite_footing]
    rfl

@[simp] theorem State.endSwaps_footing (s : State) : s.endSwaps.footing = s.footing := by
  simp [State.endSwaps]

@[simp] theorem State.endSwap_footing (s : State) : s.endSwap.footing = s.footing := by
  simp [State.endSwap]

@[simp] theorem State.postRecovery_footing (s : State) (parts unit : BitVec 16) (kind : Nat) (outcome : Option Nat) :
    (s.postRecovery parts unit kind outcome).footing = s.footing := by
  simp [State.postRecovery]

/-! ### Cores that are brought in (R22, R24) -/

@[simp] theorem State.coreIn_footing (s : State) (spare failed : Nat) : (s.coreIn spare failed).footing = s.footing := by
  simp [State.coreIn]

@[simp] theorem State.clusterUp_footing (s : State) (dom : Nat) : (s.clusterUp dom).footing = s.footing := by
  unfold State.clusterUp; split
  · rfl
  · dsimp only; split <;> simp

/-! ### Power and bring-up through the operations of commands -/

@[simp] theorem foldl_pow {α : Type} (F : State → α → State) (h : ∀ s a, (F s a).pow = s.pow) (l : List α) (s : State) : (l.foldl F s).pow = s.pow := foldl_keeps _ F h l s

@[simp] theorem foldl_pow_snd {α β : Type} (F : β × State → α → β × State) (h : ∀ x a, (F x a).2.pow = x.2.pow) (l : List α) (x : β × State) :
    (l.foldl F x).2.pow = x.2.pow := foldl_keeps (fun x => x.2.pow) F h l x

@[simp] theorem state_pow_ite (c : Prop) [Decidable c] (a b : State) : (if c then a else b).pow = if c then a.pow else b.pow := apply_ite _ _ _ _

@[simp] theorem State.engWrite_pow (s : State) (p : Fin 16) (line : Nat) (d : Line) (m : BitVec 128) (po : BitVec 2) (hint : Nat) (cls : ReqClass) :
    (s.engWrite p line d m po hint cls).pow = s.pow := pow_of_standing (s.engWrite_standing p line d m po hint cls)
@[simp] theorem State.engRead_pow (s : State) (p : Fin 16) (line hint : Nat) (cls : ReqClass) : (s.engRead p line hint cls).2.pow = s.pow :=
  pow_of_standing (s.engRead_standing p line hint cls)
@[simp] theorem State.engUpdate_pow (s : State) (p : Fin 16) (line hint : Nat) (touch : BitVec 2) (f : Line → Line) (cls : ReqClass) :
    (s.engUpdate p line hint touch f cls).2.pow = s.pow := pow_of_standing (s.engUpdate_standing p line hint touch f cls)
@[simp] theorem State.translate_pow (s : State) (p : Fin 16) (va : Nat) (write : Bool) : (s.translate p va write).2.pow = s.pow :=
  pow_of_standing (s.translate_standing p va write)
@[simp] theorem State.ringPut_pow (s : State) (c : Ctx) (host : Bool) (a : Nat) (b : List Byte) (release : Bool) : (s.ringPut c host a b release).2.pow = s.pow :=
  pow_of_standing (s.ringPut_standing c host a b release)
@[simp] theorem State.postAll_pow (s : State) (parts : BitVec 16) (event : Nat) (body : List Byte) : (s.postAll parts event body).pow = s.pow :=
  pow_of_footing (s.postAll_footing parts event body)
@[simp] theorem State.postRecovery_pow (s : State) (parts unit : BitVec 16) (kind : Nat) (outcome : Option Nat) :
    (s.postRecovery parts unit kind outcome).pow = s.pow := pow_of_footing (s.postRecovery_footing parts unit kind outcome)
@[simp] theorem State.atlasBegin_pow (s : State) : s.atlasBegin.pow = s.pow := pow_of_footing s.atlasBegin_footing
@[simp] theorem State.atlasNote_pow (s : State) (kind : Nat) (parts : BitVec 16) : (s.atlasNote kind parts).pow = s.pow := rfl
@[simp] theorem State.endSwaps_pow (s : State) : s.endSwaps.pow = s.pow := pow_of_footing s.endSwaps_footing
@[simp] theorem State.endSwap_pow (s : State) : s.endSwap.pow = s.pow := pow_of_footing s.endSwap_footing

@[simp] theorem State.poisonRange_pow (s : State) (p : Fin 16) (a n : Nat) : (s.poisonRange p a n).pow = s.pow := by
  unfold State.poisonRange; split
  · rfl
  · refine foldl_pow _ (fun s i => ?_) _ s
    have went := s.translate_pow p ((a / 64 + i) * 64) true
    dsimp only
    generalize s.translate p ((a / 64 + i) * 64) true = found at went
    obtain ⟨x, t⟩ := found
    cases x with
    | pool pa =>
      dsimp only at went ⊢
      split
      · exact (t.engWrite_pow _ _ _ _ _ _ _).trans went
      · exact went
    | _ => exact went

@[simp] theorem State.poisonRegions_pow (s : State) (c : Cmd) : (s.poisonRegions c).pow = s.pow := by
  simp [State.poisonRegions]

@[simp] theorem State.semRead_pow (s : State) (p : Fin 16) (va : Nat) : (s.semRead p va).2.pow = s.pow := by
  unfold State.semRead
  have went := s.translate_pow p va false
  generalize s.translate p va false = found at went
  obtain ⟨x, t⟩ := found
  cases x with
  | pool pa =>
    dsimp only at went ⊢
    split
    · exact went
    · split <;> simp [went]
  | _ => exact went

@[simp] theorem State.semWrite_pow (s : State) (p : Fin 16) (line off : Nat) (value : Word) (owner : Nat) : (s.semWrite p line off value owner).2.pow = s.pow := by
  simp [State.semWrite]

@[simp] theorem State.poisonRead_pow (s : State) (p : Fin 16) (granule : Nat) (reporter : BitVec 16) : (s.poisonRead p granule reporter).pow = s.pow := by
  simp [State.poisonRead]

@[simp] theorem State.endDonation_pow (s : State) (c : Cmd) : (s.endDonation c).pow = s.pow := by
  unfold State.endDonation; split
  · rfl
  · dsimp only; split <;> rfl

@[simp] theorem State.releaseClaims_pow (s : State) (c : Cmd) : (s.releaseClaims c).2.pow = s.pow := by
  unfold State.releaseClaims
  refine (foldl_pow_snd _ (fun x i => ?_) _ _).trans (s.endDonation_pow c)
  split
  · rfl
  · rename_i va _ _ _
    have read := x.2.semRead_pow c.part va
    generalize x.2.semRead c.part va = found at read
    obtain ⟨m, t⟩ := found
    cases m <;> simp_all

@[simp] theorem State.sendMsix_pow (s : State) (port : Fin 2) (fn : Fin 128) (v : Nat) : (s.sendMsix port fn v).pow = s.pow := by
  simp [State.sendMsix]

@[simp] theorem State.coreInterrupt_pow (s : State) (p : Fin 16) (index n : Nat) : (s.coreInterrupt p index n).pow = s.pow := by
  unfold State.coreInterrupt; split <;> simp

@[simp] theorem State.sendChanIrq_pow (s : State) (ch : Fin 3072) : (s.sendChanIrq ch).pow = s.pow := by
  unfold State.sendChanIrq; dsimp only; split <;> simp

@[simp] theorem State.chanIrq_pow (s : State) (ch : Fin 3072) : (s.chanIrq ch).pow = s.pow := by
  simp [State.chanIrq]

@[simp] theorem State.sentryFree_pow (s : State) (t : BitVec 32) : (s.sentryFree t).pow = s.pow := rfl

@[simp] theorem State.vacateArrays_pow (s : State) (c : Cmd) : (s.vacateArrays c).pow = s.pow := by
  refine foldl_pow _ (fun s la => ?_) _ s
  split
  · exact foldl_pow _ State.sentryFree_pow _ s
  · rfl

@[simp] theorem State.sendTag_pow (s : State) (r : HostTag) (x : HostSend) : (s.sendTag r x).pow = s.pow := pow_of_standing (s.sendTag_standing r x)

@[simp] theorem State.sendHeld_pow (s : State) (port : Fin 2) : (s.sendHeld port).pow = s.pow := by
  unfold State.sendHeld
  refine foldl_pow _ (fun s r => ?_) _ _
  split <;> simp

@[simp] theorem State.settleInvals_pow (s : State) : s.settleInvals.pow = s.pow := by
  simp [State.settleInvals]

@[simp] theorem State.dropReads_pow (s : State) (c : CmdRef) : (s.dropReads c).pow = s.pow := by
  simp [State.dropReads, State.dropFrames]

@[simp] theorem State.killCmd_pow (s : State) (c : Cmd) (fin : Option (Nat × BitVec 32)) : (s.killCmd c fin).pow = s.pow := by
  simp [State.killCmd]

@[simp] theorem State.noteError_pow (s : State) (ch : Fin 3072) (cause : Nat) : (s.noteError ch cause).pow = s.pow := by
  simp [State.noteError]

@[simp] theorem State.putRecord_pow (s : State) (c : Cmd) (status : Nat) (poisoned report : Bool) (detail : BitVec 32) :
    (s.putRecord c status poisoned report detail).pow = s.pow := by
  simp [State.putRecord, State.recordEnergy, State.chanPut]

@[simp] theorem State.complete_pow (s : State) (c : Cmd) (status : Nat) (detail : BitVec 32) : (s.complete c status detail).pow = s.pow := by
  simp [State.complete]

@[simp] theorem State.endCmd_pow (s : State) (c : Cmd) (status : Nat) (detail : BitVec 32) : (s.endCmd c status detail).pow = s.pow := by
  unfold State.endCmd; split <;> simp

@[simp] theorem State.killRerun_pow (s : State) (c : Cmd) : (s.killRerun c).pow = s.pow := by
  unfold State.killRerun; split <;> simp

@[simp] theorem State.killOn_pow (s : State) (la : Nat) : (s.killOn la).pow = s.pow := by
  unfold State.killOn; split
  · rfl
  · split <;> simp

end Sys2Proof.Machine
end

section
/-! SUPPORT. The loss of units while the links train (08 R231-R234, 14 R406-R412, 16 R448): nothing but the failure of the module
moves bring-up, and that only stops it at the event it waits for. -/

namespace Sys2Proof.Machine

/-! ### Where bring-up stands -/

/-- The stage of bring-up, and what has stopped it. -/
structure Progress where
  stage : Stage
  moduleFailed : Option (BitVec 16)
  report : MgmtReport
  faultN : Bool

def PowState.progress (p : PowState) : Progress := ⟨p.stage, p.moduleFailed, p.report, p.faultN⟩

@[simp] theorem foldl_progress {α : Type} (F : State → α → State) (h : ∀ s a, (F s a).pow.progress = s.pow.progress) (l : List α) (s : State) :
    (l.foldl F s).pow.progress = s.pow.progress := foldl_keeps (fun s => s.pow.progress) F h l s

/-! ### Domains, spares and swaps (R18, R406, R422) -/

@[simp] theorem State.wantDomain_progress (s : State) (n : Nat) : (s.wantDomain n).pow.progress = s.pow.progress := by
  unfold State.wantDomain; split <;> rfl

@[simp] theorem State.dropDomain_progress (s : State) (n : Nat) : (s.dropDomain n).pow.progress = s.pow.progress := rfl

@[simp] theorem State.takeSpare_progress (s : State) (la old : Nat) : (s.takeSpare la old).pow.progress = s.pow.progress := by
  unfold State.takeSpare; split <;> simp

@[simp] theorem State.unbindLa_pow (s : State) (la : Nat) : (s.unbindLa la).pow = s.pow := rfl

@[simp] theorem State.bindSwap_pow (s : State) (w : Swap) : (s.bindSwap w).pow = s.pow := by
  simp [State.bindSwap]

@[simp] theorem State.settleBindings_pow (s : State) : s.settleBindings.pow = s.pow := by
  simp [State.settleBindings]

@[simp] theorem State.dropLinks_pow (s : State) (d : Nat) : (s.dropLinks d).pow = s.pow := by
  refine foldl_pow _ (fun t l => ?_) _ s
  rfl

@[simp] theorem State.loseSlots_progress (s : State) (d : Nat) : (s.loseSlots d).pow.progress = s.pow.progress := by
  unfold State.loseSlots
  dsimp only
  rw [State.settleBindings_pow]
  refine (foldl_progress _ (fun t la => ?_) _ _).trans ((foldl_progress _ (fun t i => ?_) _ _).trans ?_)
  · split
    · simp
    · split
      · rfl
      · split <;> simp
  · simp
  · simp

/-! ### Dies, hubs and links that are lost (R231, R233, R409, R410) -/

@[simp] theorem State.loseHubMem_pow (s : State) (h : Nat) : (s.loseHubMem h).pow = s.pow := rfl

@[simp] theorem State.loseHubDomains_progress (s : State) (h : Nat) : (s.loseHubDomains h).pow.progress = s.pow.progress := by
  have dropped (l : List Nat) (k : Nat) (t : State) : (l.foldl (fun t i => t.dropDomain (k + i)) t).pow.progress = t.pow.progress := by
    refine foldl_progress _ (fun t i => ?_) l t
    rfl
  unfold State.loseHubDomains
  dsimp only
  split
  · simp only [State.report_pow, State.atlasNote_pow, dropped]
  · simp only [dropped]

@[simp] theorem State.moveBuilders_pow (s : State) (h : Nat) : (s.moveBuilders h).pow = s.pow := by
  unfold State.moveBuilders
  dsimp only
  refine (foldl_pow _ (fun t p => ?_) _ _).trans (foldl_pow _ (fun t c => ?_) _ _)
  · split <;> simp
  · split
    · cases t.cmd c.ref <;> simp
    · rfl

@[simp] theorem State.refactor_pow (s : State) : s.refactor.pow = s.pow := by
  simp [State.refactor]

@[simp] theorem State.reroute_pow (s : State) : s.reroute.pow = s.pow := by
  refine foldl_pow _ (fun t l => ?_) _ s
  rfl

@[simp] theorem State.resend_pow (s : State) (l : Nat) : (s.resend l).pow = s.pow := by
  unfold State.resend; split
  · rfl
  · refine foldl_pow _ (fun t dir => (foldl_pow _ (fun u g => ?_) _ _).trans ?_) _ s <;> rfl

@[simp] theorem State.barDie_pow (s : State) (d : Nat) : (s.barDie d).pow = s.pow := by
  have dropped : ((s.setDie d ⟨.barred, false⟩).dropLinks d).pow = s.pow := State.dropLinks_pow _ d
  unfold State.barDie
  dsimp only
  split
  · refine (foldl_pow _ (fun t i => ?_) _ _).trans dropped
    rfl
  · refine (foldl_pow _ (fun t i => ?_) _ _).trans dropped
    rfl

@[simp] theorem State.holdCores_pow (s : State) : s.holdCores.pow = s.pow := by
  refine foldl_pow _ (fun t d => ?_) _ s
  split
  · rfl
  · refine foldl_pow _ (fun u i => ?_) _ t
    rfl

/-! ### The training of the links -/

/-- Bring-up waits for the links (event 6), or has stopped there. -/
def Progress.linking (p : Progress) : Prop :=
  p.stage = .booted ∧ p.moduleFailed = none ∧ (p.report = .none ∨ p.report = .stalled 6 ∧ p.faultN = true)

/-- The loss of dies that the module cannot run without stops bring-up at the links. -/
theorem State.failModule_linking (s : State) {cause : Nat} (die : cause = 0x0051 ∨ cause = 0x0052) (h : s.pow.progress.linking) :
    (s.failModule cause).pow.progress.linking := by
  obtain ⟨booted, running, -⟩ := h
  have awaits : (if cause = 0x0051 ∨ cause = 0x0052 then s.pow.stage.awaits else none) = some 6 := by
    rw [if_pos die, show s.pow.stage = .booted from booted]; rfl
  rw [State.failModule, if_neg (by rw [show s.pow.moduleFailed = none from running]; decide), awaits]
  exact ⟨booted, running, .inr ⟨rfl, rfl⟩⟩

theorem State.failModule_ite_linking {s : State} {cause : Nat} {c : Prop} [Decidable c] (die : cause = 0x0051 ∨ cause = 0x0052) (h : s.pow.progress.linking) :
    (if c then s.failModule cause else s).pow.progress.linking := by
  split
  · exact s.failModule_linking die h
  · exact h

/-- The units of a lost die are dropped: the arrays of a compute die, the requests, lines and cores of a service die. -/
def State.loseDieUnits (s : State) (d : Nat) : State :=
  if d < 8 then s.loseSlots d
  else
    let s := (s.loseDieReqs (if d = 12 then 0 else 1)).loseDieLines (if d = 12 then 0 else 1)
    let s := { s with err := { s.err with coreSwaps := s.err.coreSwaps.filter (fun x => decide (12 + x.1 / 80 ≠ d)) } }
    let s := (List.range 10).foldl (fun s c => s.dropDomain (448 + 10 * (d - 12) + c)) s
    (List.range 80).foldl (fun s i =>
      let n := 80 * (d - 12) + i
      s.setCore n { s.core n with st := 3, running := false }) s

theorem State.loseDieUnits_progress (s : State) (d : Nat) : (s.loseDieUnits d).pow.progress = s.pow.progress := by
  unfold State.loseDieUnits
  split
  · exact s.loseSlots_progress d
  · refine (foldl_progress _ (fun t i => ?_) _ _).trans (foldl_progress _ (fun t c => ?_) _ _) <;> rfl

theorem State.fenceDie_linking (s : State) (d : Nat) (mode : DieMode) (code detail : Nat) (h : s.pow.progress.linking) :
    (s.fenceDie d mode code detail).pow.progress.linking := by
  unfold State.fenceDie
  split
  · exact h
  · refine State.failModule_ite_linking (.inl rfl) ?_
    rw [State.endSwaps_pow]
    refine (congrArg Progress.linking (State.loseDieUnits_progress _ d)).mpr ?_
    simpa using h

theorem State.loseHub_linking (s : State) (hub : Nat) (h : s.pow.progress.linking) : (s.loseHub hub).pow.progress.linking := by
  unfold State.loseHub
  dsimp only
  split
  · exact h
  · split
    · exact State.failModule_linking _ (.inr rfl) (by simpa using h)
    · rw [State.refactor_pow, State.endSwaps_pow, State.moveBuilders_pow, State.loseHubDomains_progress]
      refine State.fenceDie_linking _ _ _ _ _ (State.fenceDie_linking _ _ _ _ _ ?_)
      split <;> simpa using h

/-- What each step of a fold keeps, the fold keeps. -/
theorem foldl_linking {α : Type} (F : State → α → State) (h : ∀ s a, s.pow.progress.linking → (F s a).pow.progress.linking) (l : List α) (s : State)
    (hs : s.pow.progress.linking) : (l.foldl F s).pow.progress.linking :=
  List.foldlRecOn (motive := fun t : State => t.pow.progress.linking) l F hs (fun t ht a _ => h t a ht)

theorem State.linkDown_linking (s : State) (l code detail : Nat) (h : s.pow.progress.linking) : (s.linkDown l code detail).pow.progress.linking := by
  unfold State.linkDown
  dsimp only
  split
  · exact h
  · split
    · split
      · exact State.fenceDie_linking _ _ _ _ _ h
      · exact h
    · rw [State.resend_pow, State.reroute_pow]
      refine foldl_linking _ (fun t hub ht => ?_) _ _ ?_
      · split
        · exact t.loseHub_linking hub ht
        · exact ht
      · split <;> exact h

theorem State.trainDieLinks_linking (s : State) (ok mismatch : BitVec 22) (h : s.pow.progress.linking) : (s.trainDieLinks ok mismatch).pow.progress.linking := by
  unfold State.trainDieLinks
  dsimp only
  rw [State.holdCores_pow]
  refine foldl_linking _ (fun t l ht => ?_) _ _ (foldl_linking _ (fun t l ht => ?_) _ _ (foldl_linking _ (fun t l ht => ?_) _ _ h))
  · split
    · exact ht
    · exact t.linkDown_linking _ _ _ ht
  · split <;> exact ht
  · split
    · rw [State.barDie_pow]
      exact ht
    · exact ht

end Sys2Proof.Machine
end

section
/-! SUPPORT. The stages of bring-up (01 R17, 13 R365-R373, 16 R445-R449): what each command leaves; with these the statement about
bring-up. -/

namespace Sys2Proof.Machine

/-! ### Bring-up that goes on (R448) -/

theorem State.bringing_iff (s : State) : s.bringing = true ↔ s.pow.report = .none ∧ s.pow.moduleFailed = none := by
  simp [State.bringing]

/-- The guard of a stage's command is passed. -/
theorem stage_guard {s : State} {st : Stage} (going : s.bringing = true) (stage : s.pow.stage = st) : ¬ (s.pow.stage ≠ st ∨ (!s.bringing) = true) := by
  simp [going, stage]

/-! ### Security boot (R366-R372) -/

@[simp] theorem SecState.addLog_types (x : SecState) (ty : Nat) (digest : BitVec 256) (data : List Byte) :
    (x.addLog ty digest data).log.map (fun e => e.ty) = x.log.map (fun e => e.ty) ++ [ty] := by
  simp [SecState.addLog]

@[simp] theorem SecState.certify_log (x : SecState) (ok : Bool) : (x.certify ok).log = x.log := by
  unfold SecState.certify; dsimp only; (repeat' split) <;> rfl

theorem SecState.certify_aliasKey (x : SecState) (ok : Bool) : (x.certify ok).aliasKey = some (Config.aliasKey (x.certify ok).digest) := by
  unfold SecState.certify; dsimp only; (repeat' split) <;> rfl

theorem exec_securityBoot {s : State} (b : BootImages) (going : s.bringing = true) (stage : s.pow.stage = .pllLocked) :
    exec (.securityBoot b) s = .next (s.bootRun b) := if_neg (stage_guard going stage)

/-- The images that a boot takes. -/
def spImage (s : State) (b : BootImages) : Option FwImage := [b.spA, b.spB].find? (fun i => imageValid s.sec.fuses 1 i)
def resImage (s : State) (b : BootImages) : Option FwImage := [b.resA, b.resB].find? (fun i => imageValid s.sec.fuses 2 i)

theorem State.bootRun_booted {s : State} {b : BootImages} {sp res : FwImage} (hsp : spImage s b = some sp) (hres : resImage s b = some res) :
    let t := s.bootRun b
    t.pow = { s.pow with stage := .booted, bootEpoch := s.pow.bootEpoch + 1, faultN := false, report := .none }
      ∧ t.sec.log.map (fun e => e.ty) = [1, 2, 3, 4] ∧ t.sec.svns = (sp.svn.toNat, res.svn.toNat) ∧ t.sec.aliasKey = some (Config.aliasKey t.sec.digest)
      ∧ (b.certOk = true → t.sec.fuses = s.sec.fuses) ∧ t.mem = s.mem ∧ t.chan = s.chan := by
  unfold spImage at hsp
  unfold resImage at hres
  simp only [State.bootRun, hsp, hres]
  refine ⟨trivial, ?_, trivial, SecState.certify_aliasKey _ _, fun ok => ?_, trivial, trivial⟩
  · simp
  · rw [ok]; rfl

theorem State.bootRun_noSp {s : State} {b : BootImages} (hsp : spImage s b = none) :
    (s.bootRun b).pow = { s.pow with faultN := true, report := .bootFailed 1 } ∧ (s.bootRun b).sec.fuses = s.sec.fuses := by
  unfold spImage at hsp
  simp only [State.bootRun, hsp]
  exact ⟨rfl, rfl⟩

theorem State.bootRun_noRes {s : State} {b : BootImages} {sp : FwImage} (hsp : spImage s b = some sp) (hres : resImage s b = none) :
    (s.bootRun b).pow = { s.pow with faultN := true, report := .bootFailed 2 } ∧ (s.bootRun b).sec.fuses = s.sec.fuses := by
  unfold spImage at hsp
  unfold resImage at hres
  simp only [State.bootRun, hsp, hres]
  exact ⟨rfl, rfl⟩

/-! ### The links (R445 event 6) -/

theorem exec_dieLinkTraining {s : State} (ok mismatch : BitVec 22) (going : s.bringing = true) (stage : s.pow.stage = .booted) :
    let u := s.trainDieLinks ok mismatch
    exec (.dieLinkTraining ok mismatch) s = .next (if u.pow.report = .none then { u with pow := { u.pow with stage := .linked } } else u) :=
  if_neg (stage_guard going stage)

/-- The training of links whose module bring-up waits for. -/
theorem State.trainDieLinks_stands {s : State} (ok mismatch : BitVec 22) (going : s.bringing = true) (stage : s.pow.stage = .booted) :
    let u := s.trainDieLinks ok mismatch
    u.pow.moduleFailed = none ∧ (u.pow.report ≠ .none → u.pow.report = .stalled 6 ∧ u.pow.faultN = true) := by
  obtain ⟨clear, running⟩ := s.bringing_iff.mp going
  obtain ⟨-, running', stands⟩ := s.trainDieLinks_linking ok mismatch ⟨stage, running, .inl clear⟩
  exact ⟨running', stands.resolve_left⟩

/-! ### Memory training (R17, R140, R154, R445 event 7) -/

theorem slot_of_plant {s t : State} (h : t.plant = s.plant) (n : Nat) : t.slot n = s.slot n :=
  congrArg (fun x : Plant => Tbl.get SlotState.reset x.slots n) h
theorem dieState_of_link {s t : State} (h : t.link = s.link) (n : Nat) : t.dieState n = s.dieState n := by
  rw [State.dieState, State.dieState, h]
theorem unitsUp_of_plant {s t : State} (h : t.plant = s.plant) : t.mem.unitsUp = s.mem.unitsUp := congrArg Plant.unitsUp h
theorem unitsAtBoot_of_plant {s t : State} (h : t.plant = s.plant) : t.mem.unitsAtBoot = s.mem.unitsAtBoot := congrArg Plant.unitsAtBoot h

theorem getLsbD_or_unit (m : BitVec 384) (u : Nat) {i : Nat} (hi : i < 384) : (m ||| BitVec.ofNat 384 (2 ^ u)).getLsbD i = (m.getLsbD i || decide (u = i)) := by
  rw [BitVec.getLsbD_or, BitVec.getLsbD_ofNat, Nat.testBit_two_pow, decide_eq_true hi, Bool.true_and]

/-- The bits that a fold sets in a mask of units: those of the list that satisfy a condition. -/
theorem getLsbD_foldl_unit (p : Nat → Bool) (l : List Nat) (m : BitVec 384) {i : Nat} (hi : i < 384) :
    (l.foldl (fun m u => if p u then m ||| BitVec.ofNat 384 (2 ^ u) else m) m).getLsbD i = (m.getLsbD i || (decide (i ∈ l) && p i)) := by
  induction l generalizing m with
  | nil => simp
  | cons u l ih =>
    have first : (if p u then m ||| BitVec.ofNat 384 (2 ^ u) else m).getLsbD i = (m.getLsbD i || (decide (u = i) && p u)) := by
      cases p u
      · simp
      · rw [if_pos rfl, getLsbD_or_unit m u hi, Bool.and_true]
    rw [List.foldl_cons, ih, first]
    by_cases e : u = i
    · subst e
      cases p u <;> simp
    · simp [e, Ne.symm e]

/-- The channels in service after their training: the mask that fills the unit lists. -/
def State.passed (s : State) (channels : BitVec 384) : BitVec 384 :=
  (List.range 384).foldl (fun m u => if channels.getLsbD u && !s.mem.unitsLost.getLsbD u && s.hubUp (u / 96) then m ||| BitVec.ofNat 384 (2 ^ u) else m) 0

theorem State.getLsbD_passed (s : State) (channels : BitVec 384) (u : Fin 384) :
    (s.passed channels).getLsbD u.val = (channels.getLsbD u.val && s.hubUp (u.val / 96) && !s.mem.unitsLost.getLsbD u.val) := by
  rw [State.passed, getLsbD_foldl_unit _ _ _ u.isLt]
  simp [Bool.and_right_comm]

theorem State.trainChannels_plant (s : State) (channels : BitVec 384) :
    (s.trainChannels channels).plant = ⟨s.atlas.slots, s.link, s.passed channels, s.passed channels⟩ := by
  unfold State.trainChannels
  dsimp only
  refine (foldl_keeps State.plant _ (fun t u => ?_) _ _).trans ?_
  · split <;> rfl
  · simp only [State.plant, State.countRetired, State.passed]

/-- A slot does not pass: its die is absent, or its self-test fails. -/
def State.slotFails (s : State) (slots : BitVec 416) (n : Nat) : Prop := (s.dieState (n / 52)).mode ≠ .present ∨ slots.getLsbD n = false

/-- The self-test of one slot. -/
def State.testSlot (slots : BitVec 416) (s : State) (n : Nat) : State :=
  if (s.dieState (n / 52)).mode ≠ .present then s.setSlot n { s.slot n with st := 3 }
  else if slots.getLsbD n then s
  else (s.report (mkReport 0x0012 (unitId 1 n) 4)).setSlot n { s.slot n with st := 3 }

theorem State.testSlot_link (slots : BitVec 416) (s : State) (n : Nat) : (s.testSlot slots n).link = s.link := by
  unfold State.testSlot; (repeat' split) <;> rfl

theorem State.testSlot_mem (slots : BitVec 416) (s : State) (n : Nat) : (s.testSlot slots n).mem = s.mem := by
  unfold State.testSlot; (repeat' split) <;> rfl

theorem State.slotFails_of_link {s t : State} {slots : BitVec 416} {n : Nat} (h : t.link = s.link) : t.slotFails slots n ↔ s.slotFails slots n := by
  rw [State.slotFails, State.slotFails, dieState_of_link h]

theorem State.testSlot_fails {slots : BitVec 416} {s : State} {n : Nat} (h : s.slotFails slots n) : ((s.testSlot slots n).slot n).st = 3 := by
  unfold State.testSlot
  split
  · rw [State.slot_setSlot]
  · rename_i present
    rw [if_neg (by rw [h.resolve_left present]; decide), State.slot_setSlot]

theorem State.testSlot_passes {slots : BitVec 416} {s : State} {n : Nat} (h : ¬ s.slotFails slots n) : s.testSlot slots n = s := by
  obtain ⟨present, passes⟩ := not_or.mp h
  rw [State.testSlot, if_neg present, if_pos (by simpa using passes)]

theorem State.testSlot_ne (slots : BitVec 416) (s : State) {n k : Nat} (h : n ≠ k) : (s.testSlot slots k).slot n = s.slot n := by
  unfold State.testSlot
  split
  · exact State.slot_setSlot_ne _ _ _ _ h
  · split
    · rfl
    · exact State.slot_setSlot_ne _ _ _ _ h

theorem State.testSlot_fenced (slots : BitVec 416) {s : State} {n : Nat} (k : Nat) (h : (s.slot n).st = 3) : ((s.testSlot slots k).slot n).st = 3 := by
  by_cases e : n = k
  · subst e
    by_cases f : s.slotFails slots n
    · exact State.testSlot_fails f
    · rwa [State.testSlot_passes f]
  · rwa [State.testSlot_ne slots s e]

theorem State.testSlots_mem (s : State) (slots : BitVec 416) : (s.testSlots slots).mem = s.mem :=
  foldl_keeps State.mem (State.testSlot slots) (State.testSlot_mem slots) _ s

theorem foldl_testSlot_fails {slots : BitVec 416} {s : State} {n : Nat} {l : List Nat} (h : s.slotFails slots n) (tested : n ∈ l) :
    ((l.foldl (State.testSlot slots) s).slot n).st = 3 := by
  induction l generalizing s with
  | nil => cases tested
  | cons k l ih =>
    rw [List.foldl_cons]
    by_cases e : n = k
    · subst e
      exact List.foldlRecOn (motive := fun t : State => (t.slot n).st = 3) l _ (State.testSlot_fails h) (fun _ ht k _ => State.testSlot_fenced slots k ht)
    · exact ih ((State.slotFails_of_link (s.testSlot_link slots k)).mpr h) ((List.mem_cons.mp tested).resolve_left e)

theorem State.testSlots_fails {s : State} {slots : BitVec 416} (n : Fin 416) (h : s.slotFails slots n.val) : ((s.testSlots slots).slot n.val).st = 3 :=
  foldl_testSlot_fails h (List.mem_range.mpr n.isLt)

theorem State.testSlots_passes {s : State} {slots : BitVec 416} {n : Nat} (h : ¬ s.slotFails slots n) : (s.testSlots slots).slot n = s.slot n := by
  refine (List.foldlRecOn (motive := fun t : State => t.link = s.link ∧ t.slot n = s.slot n) (List.range 416) (State.testSlot slots) ⟨rfl, rfl⟩ (fun t ht k _ => ?_)).2
  obtain ⟨link, slot⟩ := ht
  refine ⟨(t.testSlot_link slots k).trans link, ?_⟩
  by_cases e : n = k
  · subst e
    rw [State.testSlot_passes (fun f => h ((State.slotFails_of_link link).mp f)), slot]
  · rw [State.testSlot_ne slots t e, slot]

theorem State.testCores_plant (s : State) (cores : BitVec 160) : (s.testCores cores).plant = s.plant := by
  unfold State.testCores
  refine foldl_keeps State.plant _ (fun t n => ?_) _ s
  dsimp only
  split
  · rfl
  · split
    · rfl
    · split <;> rfl

theorem State.bootDomains_plant (s : State) : s.bootDomains.plant = s.plant := by
  have on (t : State) (n : Nat) (b : Bool) : (if b then t.setDomain n .on else t).plant = t.plant := by split <;> rfl
  unfold State.bootDomains
  dsimp only
  rw [on, on]
  refine (foldl_keeps State.plant _ (fun t st => on t _ _) _ _).trans ((foldl_keeps State.plant _ (fun t c => ?_) _ _).trans
    (foldl_keeps State.plant _ (fun t g => on t _ _) _ _))
  exact (plant_of_footing (State.clusterUp_footing _ _)).trans (on t _ _)

/-- What MEMORY_TRAINING leaves: the units in service, and the slots that pass or are fenced. -/
def State.trainedFrom (s : State) (channels : BitVec 384) (slots : BitVec 416) (t : State) : Prop :=
  t.pow.stage = .trained ∧ t.mem.unitsUp = t.mem.unitsAtBoot
    ∧ (∀ u : Fin 384, t.mem.unitsUp.getLsbD u.val = (channels.getLsbD u.val && s.hubUp (u.val / 96) && !s.mem.unitsLost.getLsbD u.val))
    ∧ (∀ n : Fin 416, (s.dieState (n.val / 52)).mode ≠ .present ∨ slots.getLsbD n.val = false → (t.slot n.val).st = 3)
    ∧ (∀ n : Fin 416, (s.dieState (n.val / 52)).mode = .present → slots.getLsbD n.val = true → t.slot n.val = s.slot n.val)

/-- It is so of every state whose plant is that of the tested slots, after channels trained to a mask. -/
theorem State.trainedFrom_of_plant {s v u : State} {m : BitVec 384} {channels : BitVec 384} {slots : BitVec 416}
    (units : v.plant = ⟨s.atlas.slots, s.link, m, m⟩)
    (passed : ∀ k : Fin 384, m.getLsbD k.val = (channels.getLsbD k.val && s.hubUp (k.val / 96) && !s.mem.unitsLost.getLsbD k.val))
    (plant : u.plant = (v.testSlots slots).plant) : s.trainedFrom channels slots { u with pow := { u.pow with stage := .trained } } := by
  have mem : (v.testSlots slots).mem = v.mem := v.testSlots_mem slots
  have up : u.mem.unitsUp = m := by
    rw [unitsUp_of_plant plant, mem]; exact congrArg Plant.unitsUp units
  have atBoot : u.mem.unitsAtBoot = m := by
    rw [unitsAtBoot_of_plant plant, mem]; exact congrArg Plant.unitsAtBoot units
  have link : v.link = s.link := congrArg Plant.link units
  have slot (n : Nat) : v.slot n = s.slot n := congrArg (fun x : Plant => Tbl.get SlotState.reset x.slots n) units
  refine ⟨rfl, up.trans atBoot.symm, fun k => ?_, fun n fails => ?_, fun n present passes => ?_⟩
  · exact (congrArg (fun m : BitVec 384 => m.getLsbD k.val) up).trans (passed k)
  · change (u.slot n.val).st = 3
    rw [slot_of_plant plant]
    exact State.testSlots_fails n ((State.slotFails_of_link link).mpr fails)
  · change u.slot n.val = _
    rw [slot_of_plant plant, State.testSlots_passes, slot]
    rw [State.slotFails_of_link link, State.slotFails, present, passes]
    simp

theorem exec_memoryTraining {s : State} (channels : BitVec 384) (slots : BitVec 416) (cores : BitVec 160) (going : s.bringing = true) (stage : s.pow.stage = .linked) :
    ∃ t : State, exec (.memoryTraining channels slots cores) s = .next t ∧ s.trainedFrom channels slots t :=
  ⟨_, if_neg (stage_guard going stage),
    State.trainedFrom_of_plant (s.trainChannels_plant channels) (s.getLsbD_passed channels) ((State.bootDomains_plant _).trans (State.testCores_plant _ cores))⟩

/-! ### Spare assignment (R17, R18) -/

/-- A slot is bound to a logical array. -/
def State.bindSlot (s : State) (la n : Nat) : State :=
  let s := s.setSlot n { s.slot n with st := 0 }
  { s with atlas := { s.atlas with arrayMap := Tbl.set none s.atlas.arrayMap la (some n) } }

theorem State.slot_bindSlot_ne (s : State) (la : Nat) {n m : Nat} (h : m ≠ n) : (s.bindSlot la n).slot m = s.slot m :=
  State.slot_setSlot_ne s n m { s.slot n with st := 0 } h

theorem State.slotOf_bindSlot (s : State) (la n k : Nat) : (s.bindSlot la n).slotOf k = if k = la then some n else s.slotOf k :=
  Tbl.get_set none s.atlas.arrayMap la k (some n)

/-- What binding from s keeps: a fenced slot stays fenced, and no array is newly bound to one. -/
def State.bindsHealthy (s t : State) : Prop :=
  (∀ n, (s.slot n).st = 3 → (t.slot n).st = 3) ∧ ∀ la n, t.slotOf la = some n → s.slotOf la = none → (s.slot n).st ≠ 3

theorem State.bindsHealthy_bindSlot {s t : State} (la : Nat) {n : Nat} (h : s.bindsHealthy t) (healthy : (s.slot n).st ≠ 3) : s.bindsHealthy (t.bindSlot la n) := by
  obtain ⟨fenced, bound⟩ := h
  refine ⟨fun m hm => ?_, fun k m hk free => ?_⟩
  · rw [State.slot_bindSlot_ne t la (fun e : m = n => healthy (e ▸ hm))]
    exact fenced m hm
  · rw [State.slotOf_bindSlot] at hk
    split at hk
    · cases hk
      exact healthy
    · exact bound k m hk free

theorem State.bindsHealthy_bindRegion {s t : State} (r : Nat) (h : s.bindsHealthy t) : s.bindsHealthy (t.bindRegion r) := by
  refine List.foldlRecOn (motive := s.bindsHealthy) _ (fun (u : State) (x : Nat × Nat) => u.bindSlot (24 * r + x.2) (26 * r + x.1)) h (fun u hu x hx => ?_)
  have good : x.1 ∈ (List.range 26).filter (fun k => decide ((t.slot (26 * r + k)).st ≠ 3)) := List.mem_of_mem_take (List.fst_mem_of_mem_zipIdx hx)
  have healthy : (t.slot (26 * r + x.1)).st ≠ 3 := of_decide_eq_true (List.mem_filter.mp good).2
  exact State.bindsHealthy_bindSlot _ hu (fun f => healthy (h.1 _ f))

theorem State.isSpare_of_findSpare {s : State} {la n : Nat} (h : s.findSpare la = some n) : s.isSpare n = true := by
  have ready : n ∈ (List.range 416).filter (fun n => s.isSpare n) := by
    simp only [State.findSpare, Option.orElse_eq_or, Option.or_eq_some_iff] at h
    rcases h with home | ⟨-, die | ⟨-, half | ⟨-, any⟩⟩⟩
    · exact List.mem_of_find?_eq_some home
    · exact List.mem_of_find?_eq_some die
    · exact List.mem_of_find?_eq_some half
    · exact List.mem_of_mem_head? any
  exact (List.mem_filter.mp ready).2

theorem State.bindsHealthy_bindSpare {s t : State} (la : Nat) (h : s.bindsHealthy t) : s.bindsHealthy (t.bindSpare la) := by
  unfold State.bindSpare
  split
  · exact h
  · split
    · exact h
    · rename_i n found
      have spare : (t.slot n).st = 1 := by
        have ready := State.isSpare_of_findSpare found
        simp only [State.isSpare, Bool.and_eq_true, decide_eq_true_eq] at ready
        exact ready.1
      exact State.bindsHealthy_bindSlot la h (fun f => by rw [h.1 n f] at spare; exact absurd spare (by decide))

theorem State.bindsHealthy_self (s : State) : s.bindsHealthy s := ⟨fun _ => id, fun la n now before => by rw [before] at now; cases now⟩

theorem State.bindsHealthy_assigned {s u : State} (h : s.bindsHealthy u) :
    let t := { u with pow := { u.pow with stage := .assigned } }
    t.pow.stage = .assigned ∧ s.bindsHealthy t := ⟨rfl, h⟩

theorem exec_spareAssignment {s : State} (going : s.bringing = true) (stage : s.pow.stage = .trained) :
    ∃ t : State, exec .spareAssignment s = .next t ∧ t.pow.stage = .assigned ∧ s.bindsHealthy t := by
  have regions := List.foldlRecOn (motive := s.bindsHealthy) (List.range 16) (fun s r => s.bindRegion r) s.bindsHealthy_self
    (fun t ht r _ => State.bindsHealthy_bindRegion r ht)
  have spares := List.foldlRecOn (motive := s.bindsHealthy) (List.range 384) (fun s la => s.bindSpare la) regions
    (fun t ht la _ => State.bindsHealthy_bindSpare la ht)
  exact ⟨_, if_neg (stage_guard going stage), State.bindsHealthy_assigned spares⟩

/-! ### Publication (R366, R368, R386, R445, R449) -/

theorem State.partition_of_chan {s t : State} (h : t.chan = s.chan) (p : Fin 16) : t.partition p = s.partition p := by
  rw [State.partition, State.partition, h]

theorem State.makeRegs_chan (s : State) (p : Fin 16) : (s.makeRegs p).chan = s.chan := by
  refine foldl_keeps State.chan _ (fun t h => ?_) _ s
  dsimp only
  split <;> rfl

theorem State.makeRegs_sec (s : State) (p : Fin 16) : (s.makeRegs p).sec = s.sec := by
  refine foldl_keeps State.sec _ (fun t h => ?_) _ s
  dsimp only
  split <;> rfl

theorem State.bootPT0_live (s : State) : (s.bootPT0.partition 0).mode = .live := by
  unfold State.bootPT0
  extract_lets plots hi granted absent made rooted
  have chan : made.chan = (granted.setPartition 0 _).chan := State.makeRegs_chan _ 0
  clear_value granted made
  change (made.partition 0).mode = _
  rw [State.partition_of_chan chan, State.partition_setPartition]

theorem State.bootPT0_sec (s : State) : s.bootPT0.sec = { s.sec with nextKey := s.sec.nextKey + 1 } := by
  unfold State.bootPT0
  extract_lets plots hi granted absent made rooted
  have plotted : granted.sec = s.sec := by
    refine foldl_keeps State.sec _ (fun t p => ?_) plots s
    rfl
  have sec : made.sec = s.sec := (State.makeRegs_sec _ 0).trans plotted
  clear_value granted made
  change { made.sec with nextKey := made.sec.nextKey + 1 } = _
  rw [sec]

theorem State.closeLog_chan (s : State) : s.closeLog.chan = s.chan := by
  unfold State.closeLog; dsimp only; split <;> rfl

theorem State.closeLog_closed (s : State) : s.closeLog.sec.logClosed = (!s.sec.debugBring || s.sec.logClosed) := by
  unfold State.closeLog; dsimp only; split <;> simp_all

theorem State.closeLog_debug {s : State} (h : s.sec.debugBring = true) : s.closeLog.sec.debugOpen = true := by
  unfold State.closeLog; simp [h]

theorem State.closeLog_fuses {s : State} (h : s.sec.debugBring = false) :
    s.closeLog.sec.fuses = { s.sec.fuses with svnSp := max s.sec.fuses.svnSp (min 64 s.sec.svns.1), svnRes := max s.sec.fuses.svnRes (min 64 s.sec.svns.2) } := by
  unfold State.closeLog; simp [h, SecState.addLog]

/-- The factors of the hubs are posted (R164). -/
def State.postFactors (s : State) : State :=
  { s with mem := { s.mem with factor := (List.range 4).foldl (fun f h => Tbl.set 65536 f h (s.factorOf h)) [] } }

theorem State.postFactors_sec (s : State) : s.postFactors.sec = s.sec := rfl

/-- The debug nonce is drawn, and the stage is reached (R386, R445). -/
def State.drawNonce (s : State) : State :=
  let (nonce, s) := s.freeVal 256
  { s with sec := { s.sec with nonce := nonce }, pow := { s.pow with stage := .published } }

/-- The module as firmware publishes it. -/
def State.publish (s : State) : State := s.bootPT0.postFactors.closeLog.drawNonce

theorem exec_atlasPublish {s : State} (going : s.bringing = true) (stage : s.pow.stage = .assigned) :
    exec .atlasPublish s = .next (((s.publish.mirrorWrite.postEvent 0 0x0001 (leBytes 8 0 ++ leBytes 4 0)).readyPort 0).readyPort 1) := by
  change execAtlasPublish s = _
  rw [execAtlasPublish, if_neg (stage_guard going stage), State.publish]
  generalize s.bootPT0 = t
  rfl

theorem State.publish_stage (s : State) : s.publish.pow.stage = .published := rfl

theorem State.publish_live (s : State) : (s.publish.partition 0).mode = .live := by
  have live := s.bootPT0_live
  unfold State.publish
  generalize s.bootPT0 = t at live
  have chan : t.postFactors.closeLog.drawNonce.chan = t.chan := t.postFactors.closeLog_chan
  rwa [State.partition_of_chan chan]

/-- What publication leaves of the log, the debug port and the fuses. -/
theorem State.publish_sec (s : State) :
    s.publish.sec.logClosed = (!s.sec.debugBring || s.sec.logClosed) ∧ (s.sec.debugBring = true → s.publish.sec.debugOpen = true)
      ∧ (s.sec.debugBring = false → s.publish.sec.fuses.svnSp = max s.sec.fuses.svnSp (min 64 s.sec.svns.1)
        ∧ s.publish.sec.fuses.svnRes = max s.sec.fuses.svnRes (min 64 s.sec.svns.2)) := by
  have sec := s.bootPT0_sec
  unfold State.publish
  generalize s.bootPT0 = t at sec
  have debugBring : t.postFactors.sec.debugBring = s.sec.debugBring := by rw [State.postFactors_sec, sec]
  have logClosed : t.postFactors.sec.logClosed = s.sec.logClosed := by rw [State.postFactors_sec, sec]
  have fuses : t.postFactors.sec.fuses = s.sec.fuses := by rw [State.postFactors_sec, sec]
  have svns : t.postFactors.sec.svns = s.sec.svns := by rw [State.postFactors_sec, sec]
  rw [← debugBring, ← logClosed, ← fuses, ← svns]
  generalize t.postFactors = u
  change u.closeLog.sec.logClosed = _ ∧ (_ → u.closeLog.sec.debugOpen = true) ∧ (_ → u.closeLog.sec.fuses.svnSp = _ ∧ u.closeLog.sec.fuses.svnRes = _)
  refine ⟨u.closeLog_closed, State.closeLog_debug, fun h => ?_⟩
  rw [State.closeLog_fuses h]
  exact ⟨rfl, rfl⟩

/-! ### Stalls (R448) -/

theorem exec_bringupStalled {s : State} {event : Fin 11} (going : s.bringing = true) (awaits : s.pow.stage.awaits = some event.val) :
    exec (.bringupStalled event) s
      = .next (if event = 3 then { s with pow := { s.pow with faultN := true, stage := .descending, needCycle := true, pwrPending := false } }
          else { s with pow := { s.pow with faultN := true, report := .stalled event.val } }) := by
  have guard : ¬ (s.pow.stage.awaits ≠ some event.val ∨ (!s.bringing) = true) := by simp [going, awaits]
  refine (if_neg guard).trans ?_
  split <;> rfl

/-! ### The statement -/

/-- Settles O51: each command of bring-up is its stage's operation, and the training of links stops at no event but the sixth. -/
theorem bringupStagesComplete : Obligations.BringupStagesComplete := by
  unfold Obligations.BringupStagesComplete
  intro s going
  refine ⟨fun b stage => ⟨?booted, ?noSp, ?noRes⟩, ?links, fun channels slots cores => exec_memoryTraining channels slots cores going, ?spares, ?publish, ?stalls, ?noPll⟩
  case booted =>
    intro sp res hsp hres
    obtain ⟨pow, log, svns, key, fuses, mem, chan⟩ := State.bootRun_booted hsp hres
    exact ⟨s.bootRun b, exec_securityBoot b going stage, by rw [pow], by rw [pow], by rw [pow], log, svns, key, fuses, mem, chan⟩
  case noSp =>
    intro hsp
    obtain ⟨pow, fuses⟩ := State.bootRun_noSp hsp
    exact ⟨s.bootRun b, exec_securityBoot b going stage, by rw [pow, stage], by rw [pow], by rw [pow], fuses⟩
  case noRes =>
    intro sp hsp hres
    obtain ⟨pow, fuses⟩ := State.bootRun_noRes hsp hres
    exact ⟨s.bootRun b, exec_securityBoot b going stage, by rw [pow, stage], by rw [pow], by rw [pow], fuses⟩
  case links =>
    intro ok mismatch stage
    obtain ⟨running, stands⟩ := State.trainDieLinks_stands ok mismatch going stage
    refine ⟨_, exec_dieLinkTraining ok mismatch going stage, ?_, fun clear => if_pos clear, fun stopped => ⟨if_neg stopped, stands stopped⟩⟩
    split <;> exact running
  case spares =>
    intro stage
    obtain ⟨t, run, assigned, fenced, bound⟩ := exec_spareAssignment going stage
    exact ⟨t, run, assigned, fun n => fenced n.val, fun la n => bound la.val n⟩
  case publish =>
    intro stage
    have run := exec_atlasPublish going stage
    have standing := s.publish.mirrorWrite_standing
    have published := s.publish_stage
    have live := s.publish_live
    have leaves := s.publish_sec
    generalize s.publish = u at run standing published live leaves
    obtain ⟨closed, debug, burned⟩ := leaves
    have sec : u.mirrorWrite.sec = u.sec := congrArg Standing.sec standing
    have same : u.mirrorWrite.partition 0 = u.partition 0 := congrArg (fun x : Standing => Tbl.get Partition.absent x.parts 0) standing
    exact ⟨u.mirrorWrite, run, by rw [pow_of_standing standing, published], by rw [same, live], by rw [sec, closed], fun h => by rw [sec, debug h],
      fun h => by rw [sec]; exact burned h⟩
  case stalls =>
    intro event awaits other
    rw [exec_bringupStalled going awaits, if_neg other]
  case noPll =>
    intro stage
    exact ⟨_, exec_bringupStalled going (by rw [stage]; rfl), rfl⟩

end Sys2Proof.Machine
end

section
/-! SUPPORT. XAI instruction words (02 R53, R55, R57, R93): the instruction of each class, by its OP; with these the statement
about words. -/

namespace Sys2Proof

/-- The issue of a word, gated by the predicate that the word names (R53). -/
def Issue.gatedBy (i : Issue) (w : Word) : Issue := { i with pred := ⟨field w 49 3, (bits w 49 3).isLt⟩, pneg := w.getLsbD 48 }

section
variable {i : Issue} {w w2 : Word}

theorem xaiDecode_integer (h : field w 60 4 = 0) : xaiDecode i w w2 = some (.integerOp (i.gatedBy w) (bits w 52 8) (bits w 0 48)) := by
  rw [xaiDecode, h]; rfl

theorem xaiDecode_fp32 (h : field w 60 4 = 1) : xaiDecode i w w2 = some (.fp32Op (i.gatedBy w) (bits w 52 8) (bits w 0 48)) := by
  rw [xaiDecode, h]; rfl

theorem xaiDecode_fp64 (h : field w 60 4 = 2) : xaiDecode i w w2 = some (.fp64Op (i.gatedBy w) (bits w 52 8) (bits w 0 48)) := by
  rw [xaiDecode, h]; rfl

theorem xaiDecode_packed16 (h : field w 60 4 = 3) : xaiDecode i w w2 = some (.packed16Op (i.gatedBy w) (bits w 52 8) (bits w 0 48)) := by
  rw [xaiDecode, h]; rfl

theorem xaiDecode_conversion (h : field w 60 4 = 4) :
    xaiDecode i w w2 = ([.cvt (i.gatedBy w) (bits w 0 48), .unpk12 (i.gatedBy w) (bits w 0 48), .pk12 (i.gatedBy w) (bits w 0 48)] : List Instr)[field w 52 8]? := by
  rw [xaiDecode, h]; rfl

theorem xaiDecode_memory (h : field w 60 4 = 8) :
    xaiDecode i w w2 = ([.ld (i.gatedBy w) (bits w 0 48), .st (i.gatedBy w) (bits w 0 48), .prefetch (i.gatedBy w) (bits w 0 48)] : List Instr)[field w 52 8]? := by
  rw [xaiDecode, h]; rfl

theorem xaiDecode_atomic (h : field w 60 4 = 9) :
    xaiDecode i w w2 = if field w 52 8 < 16 then atomicOps[field w 52 8]?.map (fun a => .atomic (i.gatedBy w) a (bits w 0 48))
      else redOps[field w 52 8 - 16]?.map (fun a => .red (i.gatedBy w) a (bits w 0 48)) := by
  rw [xaiDecode, h]; rfl

theorem xaiDecode_control (h : field w 60 4 = 10) :
    xaiDecode i w w2 = ([.bra (i.gatedBy w) (bits w 0 48), .brx (i.gatedBy w) (bits w 0 48), .call (i.gatedBy w) (bits w 0 48), .ret (i.gatedBy w) (bits w 0 48),
      .exit (i.gatedBy w) (bits w 0 48), .yield (i.gatedBy w) (bits w 0 48), .nop (i.gatedBy w) (bits w 0 48)] : List Instr)[field w 52 8]? := by
  rw [xaiDecode, h]; rfl

theorem xaiDecode_sync (h : field w 60 4 = 11) :
    xaiDecode i w w2 = if field w 52 8 = 16 then some (.fence (i.gatedBy w) (bits w 0 48))
      else ([.barSync (i.gatedBy w) (bits w 0 48), .barArrive (i.gatedBy w) (bits w 0 48), .barWait (i.gatedBy w) (bits w 0 48)] : List Instr)[field w 52 8]? := by
  rw [xaiDecode, h]; rfl

theorem xaiDecode_special (h : field w 60 4 = 12) : xaiDecode i w w2 = if field w 52 8 = 0 then some (.s2v (i.gatedBy w) (bits w 0 48)) else none := by
  rw [xaiDecode, h]; rfl

theorem xaiDecode_tile (h : field w 60 4 = 13) :
    xaiDecode i w w2 = if field w 52 8 = 8 then some (.twait (i.gatedBy w) (bits w 0 48) w2)
      else if field w 52 8 = 9 then some (.tdiscard (i.gatedBy w) (bits w 0 48) w2)
      else ([.tload (i.gatedBy w) (bits w 0 48) w2, .tstore (i.gatedBy w) (bits w 0 48) w2, .tcontract (i.gatedBy w) (bits w 0 48) w2,
        .tstencil (i.gatedBy w) (bits w 0 48) w2, .tfft (i.gatedBy w) (bits w 0 48) w2, .treduce (i.gatedBy w) (bits w 0 48) w2] : List Instr)[field w 52 8]? := by
  rw [xaiDecode, h]; rfl

theorem xaiDecode_reserved (h : 14 ≤ field w 60 4) : xaiDecode i w w2 = none := by
  have lt : field w 60 4 < 16 := (bits w 60 4).isLt
  have cls : field w 60 4 = 14 ∨ field w 60 4 = 15 := by omega
  rcases cls with cls | cls <;> rw [xaiDecode, cls] <;> rfl

/-- Whether a word is an instruction does not depend on its issue. -/
theorem xaiDecode_eq_none_iff (i j : Issue) (w w2 : Word) : xaiDecode i w w2 = none ↔ xaiDecode j w w2 = none := by
  unfold xaiDecode
  dsimp only
  split <;> (repeat' split) <;> simp

end

/-- Settles O56: the table's decoder refuses every word, and each class of an XAI word picks by its OP. -/
theorem noWordSpellsACommand : Obligations.NoWordSpellsACommand := by
  unfold Obligations.NoWordSpellsACommand
  refine ⟨fun _ _ _ => ⟨rfl, rfl⟩, ?_⟩
  rintro i j w w2 b rfl rfl
  refine ⟨xaiDecode_reserved, xaiDecode_integer, xaiDecode_fp32, xaiDecode_fp64, xaiDecode_packed16, fun h => ?_, fun h => ?_, fun h => ?_, fun h => ?_, fun h => ?_, fun h op => ?_, fun h => ?_⟩
  · rw [xaiDecode_conversion h]
    exact ⟨fun op => by rw [op]; rfl, fun op => List.getElem?_eq_none op⟩
  · rw [xaiDecode_memory h]
    exact ⟨fun op => by rw [op]; rfl, fun op => by rw [op]; rfl⟩
  · rw [xaiDecode_atomic h]
    exact ⟨fun op => by rw [op]; rfl, fun op => by rw [op]; rfl⟩
  · rw [xaiDecode_control h]
    exact ⟨fun op => by rw [op]; rfl, fun op => by rw [op]; rfl, fun op => List.getElem?_eq_none op⟩
  · rw [xaiDecode_sync h]
    exact ⟨fun op => by rw [op]; rfl, fun op => by rw [op]; rfl⟩
  · rw [xaiDecode_special h, if_neg op]
  · rw [xaiDecode_tile h]
    exact ⟨fun op => by rw [op]; rfl, fun op => by rw [op]; rfl⟩

end Sys2Proof
end

section
/-! SUPPORT. Requests of the pool, translations, writes to host memory, records of rings and events leave the arrays and the commands
as they are. -/

namespace Sys2Proof.Machine

/-- The arrays and the commands. -/
structure Roster where
  arr : Tbl ArrayState
  cmds : List Cmd

def State.roster (s : State) : Roster := ⟨s.arr, s.chan.cmds⟩

/-! ### How a function of the state passes through folds and branches -/

@[simp] theorem foldl_roster {α : Type} (F : State → α → State) (h : ∀ s a, (F s a).roster = s.roster) (l : List α) (s : State) :
    (l.foldl F s).roster = s.roster := foldl_keeps _ F h l s

@[simp] theorem foldl_roster_fst {α β : Type} (F : State × β → α → State × β) (h : ∀ x a, (F x a).1.roster = x.1.roster) (l : List α) (x : State × β) :
    (l.foldl F x).1.roster = x.1.roster := foldl_keeps (fun x => x.1.roster) F h l x

@[simp] theorem roster_ite (c : Prop) [Decidable c] (a b : State) : (if c then a else b).roster = if c then a.roster else b.roster := apply_ite _ _ _ _

/-- A state written out: its roster is read off. -/
@[simp] theorem State.roster_mk (a b c d e f g h i j k l m) : (State.mk a b c d e f g h i j k l m).roster = ⟨a, c.cmds⟩ := rfl

@[simp] theorem State.roster_fold (s : State) : (⟨s.arr, s.chan.cmds⟩ : Roster) = s.roster := rfl

/-! ### Channels (R154-R161) -/

@[simp] theorem State.report_roster (s : State) (r : Report) : (s.report r).roster = s.roster := rfl
@[simp] theorem State.emit_roster (s : State) (o : Out) : (s.emit o).roster = s.roster := rfl
@[simp] theorem State.freeVal_roster (s : State) (w : Nat) : (s.freeVal w).2.roster = s.roster := rfl
@[simp] theorem State.charge_roster (s : State) (p : Fin 16) (c : Option CmdRef) (e : EnergyEvent) (n : Nat) : (s.charge p c e n).roster = s.roster := rfl
@[simp] theorem State.setPoison_roster (s : State) (g : Nat) (b : Bool) : (s.setPoison g b).roster = s.roster := rfl

@[simp] theorem State.writeMem_roster (s : State) (line : Nat) (d : Line) (m : BitVec 128) (p : BitVec 2) : (s.writeMem line d m p).roster = s.roster := by
  unfold State.writeMem; split <;> rfl

@[simp] theorem State.enterReq_roster (s : State) (r : MemReq) : (s.enterReq r).roster = s.roster := by
  unfold State.enterReq; dsimp only; (repeat' split) <;> rfl

@[simp] theorem State.chanAsk_roster (s : State) (line : Nat) (p : Fin 16) (cls : ReqClass) (bytes : Nat) (target : FillFor) :
    (s.chanAsk line p cls bytes target).roster = s.roster := by
  simp [State.chanAsk]

/-! ### The home and the dies (R177-R194) -/

@[simp] theorem State.llcPut_roster (s : State) (l : LlcLine) : (s.llcPut l).roster = s.roster := rfl
@[simp] theorem State.llcDrop_roster (s : State) (l : LlcLine) : (s.llcDrop l).roster = s.roster := rfl
@[simp] theorem State.countDemoted_roster (s : State) (p : Fin 16) : (s.countDemoted p).roster = s.roster := rfl
@[simp] theorem State.wakeLine_roster (s : State) (line : Nat) : (s.wakeLine line).roster = s.roster := rfl

@[simp] theorem State.shadowNote_roster (s : State) (p : Fin 16) (slice set tag hint : Nat) (hit : Bool) : (s.shadowNote p slice set tag hint hit).roster = s.roster := by
  unfold State.shadowNote; split <;> rfl

@[simp] theorem State.llcHit_roster (s : State) (p : Fin 16) (l : LlcLine) (hint : Nat) : (s.llcHit p l hint).roster = s.roster := by
  unfold State.llcHit; split
  · exact s.shadowNote_roster p l.slice l.set l.line hint true
  · change State.roster (if _ then _ else _) = _
    split <;> simp

@[simp] theorem State.dieAnswer_roster (s : State) (d : Fin 2) (line : Nat) (q : Snoop) (w : Option Line) : (s.dieAnswer d line q w).2.roster = s.roster := by
  unfold State.dieAnswer; dsimp only; (repeat' split) <;> rfl

@[simp] theorem State.takeRsp_roster (s : State) (d : Fin 2) (line : Nat) (r : Rsp) : (s.takeRsp d line r).roster = s.roster := by
  unfold State.takeRsp; split
  · rfl
  · cases r <;> rfl

@[simp] theorem State.snoopNow_roster (s : State) (d : Fin 2) (line : Nat) (q : Snoop) : (s.snoopNow d line q).roster = s.roster := by
  simp [State.snoopNow]

@[simp] theorem State.snoopAll_roster (s : State) (line : Nat) (q : Snoop) : (s.snoopAll line q).roster = s.roster := by
  simp [State.snoopAll]

@[simp] theorem State.evictLine_roster (s : State) (l : LlcLine) : (s.evictLine l).roster = s.roster := by
  unfold State.evictLine; split
  · rfl
  · dsimp only; split <;> simp

@[simp] theorem State.llcAlloc_roster (s : State) (p : Fin 16) (line hint : Nat) (remote dieReq : Bool) (hd : HomeData) (d : Line) (po : BitVec 2) :
    (s.llcAlloc p line hint remote dieReq hd d po).2.roster = s.roster := by
  unfold State.llcAlloc; dsimp only; split
  · simp
  · split
    · simp
    · change State.roster (if _ then _ else _) = _
      (repeat' split) <;> simp

/-! ### Error correction (R149-R153, R403-R405) -/

@[simp] theorem State.retirePage_roster (s : State) (u pg : Nat) : (s.retirePage u pg).roster = s.roster := by
  unfold State.retirePage; dsimp only; split
  · rfl
  · split <;> rfl

@[simp] theorem State.countCorrection_roster (s : State) (u pg : Nat) : (s.countCorrection u pg).roster = s.roster := by
  simp [State.countCorrection]

@[simp] theorem State.refillRead_roster (s : State) (r : RefillPage) : (s.refillRead r).roster = s.roster := by
  unfold State.refillRead; split
  · dsimp only; split <;> rfl
  · rfl
  · rfl

@[simp] theorem State.poisonFound_roster (s : State) (u pg : Nat) (granule : Option Nat) : (s.poisonFound u pg granule).roster = s.roster := by
  unfold State.poisonFound; split
  · simp
  · dsimp only; split
    · rfl
    · split
      · exact State.refillRead_roster _ _
      · simp

@[simp] theorem State.eccTake_roster (s : State) (u pg : Nat) (granule : Option Nat) (good : BitVec 512) (e : EccEvent) :
    (s.eccTake u pg granule good e).2.2.roster = s.roster := by
  cases e <;> simp [State.eccTake]

@[simp] theorem State.eccFree_roster (s : State) : s.eccFree.2.roster = s.roster := rfl

@[simp] theorem State.readGranule_roster (s : State) (line g : Nat) (e : EccEvent) : (s.readGranule line g e).2.2.roster = s.roster := by
  simp [State.readGranule]

@[simp] theorem State.churnOne_roster (s : State) (o : ChurnOp) (e : EccEvent) : (s.churnOne o e).2.roster = s.roster := by
  unfold State.churnOne
  split
  · rfl
  · dsimp only
    split <;> simp

@[simp] theorem State.flushChurn_roster (s : State) (line : Nat) : (s.flushChurn line).roster = s.roster := by
  unfold State.flushChurn
  refine (foldl_roster_fst _ (fun x o => ?_) _ _ : State.roster (Prod.fst _) = _)
  dsimp only; split <;> simp

@[simp] theorem State.readLine_roster (s : State) (line : Nat) (e : EccPair) : (s.readLine line e).2.roster = s.roster := by
  simp [State.readLine]

@[simp] theorem State.readFree_roster (s : State) (line : Nat) : (s.readFree line).2.roster = s.roster := by
  simp [State.readFree]

@[simp] theorem State.writeBehind_roster (s : State) (line : Nat) (d : Line) (m : BitVec 128) (p : BitVec 2) : (s.writeBehind line d m p).roster = s.roster := by
  simp [State.writeBehind]

/-! ### Requests of engines (R185, R190, R196) -/

@[simp] theorem State.engRead_roster (s : State) (p : Fin 16) (line hint : Nat) (cls : ReqClass) : (s.engRead p line hint cls).2.roster = s.roster := by
  unfold State.engRead; split
  · dsimp only; split <;> simp
  · simp

@[simp] theorem State.engWrite_roster (s : State) (p : Fin 16) (line : Nat) (d : Line) (m : BitVec 128) (po : BitVec 2) (hint : Nat) (cls : ReqClass) :
    (s.engWrite p line d m po hint cls).roster = s.roster := by
  unfold State.engWrite; dsimp only; split
  · split <;> simp
  · split
    · simp
    · split <;> simp

/-! ### Translation (R157, R257, R375) -/

@[simp] theorem State.walk_roster (rd : LineRead) (h : ∀ s line, (rd s line).2.roster = s.roster) (s : State) (p : Fin 16) (va page level : Nat) :
    (State.walk rd s p va page level).2.roster = s.roster := by
  induction level generalizing s page with
  | zero => unfold State.walk; dsimp only; (repeat' split) <;> simp [h]
  | succ l ih => unfold State.walk; dsimp only; (repeat' split) <;> simp [h, ih]

@[simp] theorem State.translateWith_roster (rd : LineRead) (h : ∀ s line, (rd s line).2.roster = s.roster) (s : State) (p : Fin 16) (va : Nat) (write : Bool) :
    (s.translateWith rd p va write).2.roster = s.roster := by
  unfold State.translateWith
  dsimp only
  split
  · rfl
  split
  · rfl
  split
  · rfl
  split
  · rfl
  split
  · rfl
  · rename_i root _
    have walked := State.walk_roster rd h s p va root 4
    generalize State.walk rd s p va root 4 = found at walked
    obtain ⟨_ | _, _⟩ := found <;> exact walked

theorem walkRead_roster (p : Fin 16) (s : State) (line : Nat) : (walkRead p s line).2.roster = s.roster := by
  unfold walkRead; split <;> simp

@[simp] theorem State.translate_roster (s : State) (p : Fin 16) (va : Nat) (write : Bool) : (s.translate p va write).2.roster = s.roster :=
  State.translateWith_roster _ (walkRead_roster p) s p va write

/-! ### Host memory (R217, R315, R335, R336) -/

@[simp] theorem State.sendTag_roster (s : State) (r : HostTag) (x : HostSend) : (s.sendTag r x).roster = s.roster := by
  cases x <;> rfl

@[simp] theorem State.askTag_roster (s : State) (port : Fin 2) (fn : Fin 128) (a : Word) (n : Nat) (use : HostFor) (x : HostSend) :
    (s.askTag port fn a n use x).roster = s.roster := by
  simp [State.askTag]

@[simp] theorem State.hostAsk_roster (s : State) (c : Ctx) (iova n : Nat) : (s.hostAsk c iova n).roster = s.roster := rfl

@[simp] theorem State.setFn_roster (s : State) (p : Fin 2) (f : Fin 128) (x : FnState) : (s.setFn p f x).roster = s.roster := rfl

@[simp] theorem State.writeBackWord_roster (s : State) (x : Fin 2 × Word × BitVec 64) : (s.writeBackWord x).roster = s.roster := rfl

@[simp] theorem State.mergeBits_roster (s : State) (port : Fin 2) (a : Word) (b : BitVec 64) : (s.mergeBits port a b).roster = s.roster := by
  unfold State.mergeBits; split
  · rfl
  · split <;> simp [State.askAside]

@[simp] theorem State.logPage_roster (s : State) (port : Fin 2) (fn : Fin 128) (page : Nat) : (s.logPage port fn page).roster = s.roster := by
  simp [State.logPage]

@[simp] theorem State.hostWrite_roster (s : State) (c : Ctx) (iova : Nat) (b : List Byte) (release : Bool) : (s.hostWrite c iova b release).roster = s.roster := by
  simp [State.hostWrite]

/-! ### Byte strings and rings (R257, R286-R288) -/

@[simp] theorem State.readCut_roster (s : State) (c : Ctx) (buf : Tbl (Option BufByte)) (hint va n : Nat) (atlas : Nat → Byte) (cls : ReqClass) :
    (s.readCut c buf hint va n atlas cls).2.roster = s.roster := by
  unfold State.readCut; dsimp only; (repeat' split) <;> simp

@[simp] theorem State.readCuts_roster (s : State) (c : Ctx) (buf : Tbl (Option BufByte)) (hint : Nat) (atlas : Nat → Byte) (cls : ReqClass) (l : List (Nat × Nat)) :
    (s.readCuts c buf hint atlas cls l).2.roster = s.roster := by
  induction l generalizing s with
  | nil => rfl
  | cons a l ih =>
    have cut := s.readCut_roster c buf hint a.1 a.2 atlas cls
    unfold State.readCuts
    generalize s.readCut c buf hint a.1 a.2 atlas cls = got at cut
    obtain ⟨g, t⟩ := got
    cases g with
    | ok b =>
      have rest := ih t
      dsimp only
      generalize State.readCuts t c buf hint atlas cls l = more at rest
      obtain ⟨m, u⟩ := more
      cases m <;> exact rest.trans cut
    | _ => exact cut

@[simp] theorem State.vaRead_roster (s : State) (c : Ctx) (buf : Tbl (Option BufByte)) (hint va n : Nat) (atlas : Nat → Byte) (cls : ReqClass) :
    (s.vaRead c buf hint va n atlas cls).2.roster = s.roster := by
  simp [State.vaRead]

@[simp] theorem State.writeCut_roster (s : State) (c : Ctx) (hint va : Nat) (b : List Byte) (po : BitVec 2) (release : Bool) (cls : ReqClass) :
    (s.writeCut c hint va b po release cls).2.roster = s.roster := by
  unfold State.writeCut; dsimp only; (repeat' split) <;> simp

@[simp] theorem State.writeCuts_roster (s : State) (c : Ctx) (hint : Nat) (release : Bool) (cls : ReqClass) (l : List (Nat × Nat)) (b : List Byte) :
    (s.writeCuts c hint release cls l b).2.roster = s.roster := by
  induction l generalizing s b with
  | nil => rfl
  | cons a l ih =>
    have cut := s.writeCut_roster c hint a.1 (b.take a.2) 0 release cls
    unfold State.writeCuts
    generalize s.writeCut c hint a.1 (b.take a.2) 0 release cls = put at cut
    obtain ⟨g, t⟩ := put
    cases g with
    | ok => exact (ih t _).trans cut
    | _ => exact cut

@[simp] theorem State.vaWrite_roster (s : State) (c : Ctx) (hint va : Nat) (b : List Byte) (release : Bool) (cls : ReqClass) :
    (s.vaWrite c hint va b release cls).2.roster = s.roster := by
  simp [State.vaWrite]

@[simp] theorem State.ringPut_roster (s : State) (c : Ctx) (host : Bool) (a : Nat) (b : List Byte) (release : Bool) : (s.ringPut c host a b release).2.roster = s.roster := by
  unfold State.ringPut
  split
  · split <;> simp
  · have put := s.vaWrite_roster c 0 a b release .array
    generalize s.vaWrite c 0 a b release = x at put
    obtain ⟨g, t⟩ := x
    cases g <;> exact put

@[simp] theorem State.ringConsumer_roster (s : State) (c : Ctx) (r : RingReg) : (s.ringConsumer c r).2.roster = s.roster := by
  unfold State.ringConsumer
  dsimp only
  split
  · split <;> simp
  · have read := s.vaRead_roster c [] 0 ((r.block.toNat + 28) % 2 ^ 64) 4 (fun _ => 0) .array
    generalize s.vaRead c [] 0 ((r.block.toNat + 28) % 2 ^ 64) 4 (fun _ => 0) = x at read
    obtain ⟨g, t⟩ := x
    cases g <;> exact read

@[simp] theorem State.ringRecord_roster (s : State) (c : Ctx) (r : RingReg) (record : List Byte) (kind : Option Byte) (cons : Option (BitVec 32)) :
    (s.ringRecord c r record kind cons).2.2.roster = s.roster := by
  unfold State.ringRecord; cases cons <;> cases kind <;> simp

@[simp] theorem State.coreInterrupt_roster (s : State) (p : Fin 16) (index n : Nat) : (s.coreInterrupt p index n).roster = s.roster := by
  unfold State.coreInterrupt; split
  · rfl
  · split <;> rfl

@[simp] theorem State.setPartition_roster (s : State) (p : Fin 16) (x : Partition) : (s.setPartition p x).roster = s.roster := rfl

@[simp] theorem State.postFault_roster (s : State) (p : Fin 16) (kind : Byte) (record : List Byte) : (s.postFault p kind record).roster = s.roster := by
  unfold State.postFault; dsimp only; split
  · rfl
  · split <;> simp

/-! ### What the arrays and the commands give -/

theorem State.array_of_roster {s t : State} (h : t.roster = s.roster) (k : Nat) : t.array k = s.array k :=
  congrArg (fun x : Roster => Tbl.get ArrayState.idle x.arr k) h

theorem State.groupOf_of_roster {s t : State} (h : t.roster = s.roster) (r : GroupRef) : t.groupOf r = s.groupOf r := by
  unfold State.groupOf State.groupAt; rw [State.array_of_roster h]

theorem State.cmd_of_roster {s t : State} (h : t.roster = s.roster) (c : CmdRef) : t.cmd c = s.cmd c :=
  congrArg (fun x : Roster => x.cmds.find? (fun y : Cmd => decide (y.ch = c.ch ∧ y.idx = c.idx))) h

end Sys2Proof.Machine
end

section
/-! SUPPORT. Registers of lanes (02 R41, R54): what a write of one lane leaves of a group, and what a run of writes leaves of each
lane. -/

namespace Sys2Proof.Machine

/-! ### Writes that touch registers alone -/

/-- Nothing but registers differs. -/
def Group.OnlyRegs (g h : Group) : Prop := h = { g with regs := h.regs }

theorem Group.OnlyRegs.refl (g : Group) : g.OnlyRegs g := rfl

theorem Group.OnlyRegs.trans {g h k : Group} (gh : g.OnlyRegs h) (hk : h.OnlyRegs k) : g.OnlyRegs k := by
  unfold Group.OnlyRegs at *; rw [hk, gh]

theorem Group.OnlyRegs.foldl {α : Type} {F : Group → α → Group} (step : ∀ (g : Group) a, g.OnlyRegs (F g a)) (l : List α) (g : Group) : g.OnlyRegs (l.foldl F g) :=
  List.foldlRecOn (motive := fun h => g.OnlyRegs h) l F (.refl g) (fun _ kept a _ => kept.trans (step _ a))

theorem Group.OnlyRegs.frame {g h : Group} (kept : g.OnlyRegs h) :
    h.cohort = g.cohort ∧ h.num = g.num ∧ h.paths = g.paths ∧ h.preds = g.preds ∧ h.loads = g.loads ∧ h.st = g.st := by
  unfold Group.OnlyRegs at kept
  rw [kept]
  exact ⟨rfl, rfl, rfl, rfl, rfl, rfl⟩

theorem Group.setReg_onlyRegs (g : Group) (l r : Nat) (v : Word32) : g.OnlyRegs (g.setReg l r v) := by
  unfold Group.setReg; split <;> rfl

theorem Group.setPair_onlyRegs (g : Group) (l r : Nat) (v : Word) : g.OnlyRegs (g.setPair l r v) :=
  (g.setReg_onlyRegs l r _).trans (Group.setReg_onlyRegs _ l (r + 1) _)

theorem Group.setRaw_onlyRegs (g : Group) (l r fmt raw : Nat) : g.OnlyRegs (g.setRaw l r fmt raw) := by
  unfold Group.setRaw
  split
  · exact g.setPair_onlyRegs l r _
  · split <;> exact g.setReg_onlyRegs l r _

theorem Group.setBytes_onlyRegs (g : Group) (l r : Nat) (b : List Byte) : g.OnlyRegs (g.setBytes l r b) :=
  .foldl (fun h _ => h.setReg_onlyRegs l _ _) _ g

theorem Group.each_onlyRegs (g : Group) (m : BitVec 64) {f : Group → Nat → Group} (step : ∀ (h : Group) l, h.OnlyRegs (f h l)) : g.OnlyRegs (g.each m f) :=
  .foldl step _ g

theorem Group.reg_of_regs {g h : Group} (same : h.regs = g.regs) (l r : Nat) : h.reg l r = g.reg l r := by
  unfold Group.reg; rw [same]

/-! ### Writes of one lane -/

/-- A change of a group's registers in one lane, from that lane's registers. -/
structure Group.OfLane (l : Nat) (f : Group → Group) : Prop where
  other : ∀ g k r, k < 64 → k ≠ l → (f g).reg k r = g.reg k r
  own : ∀ g h, (∀ r, g.reg l r = h.reg l r) → ∀ r, (f g).reg l r = (f h).reg l r

theorem Group.OfLane.comp {l : Nat} {f e : Group → Group} (he : Group.OfLane l e) (hf : Group.OfLane l f) : Group.OfLane l (fun g => e (f g)) where
  other g k r hk ne := (he.other _ k r hk ne).trans (hf.other g k r hk ne)
  own g h same := he.own _ _ (hf.own g h same)

theorem Group.ofLane_setReg {l : Nat} (hl : l < 64) (r : Nat) (v : Word32) : Group.OfLane l (fun g => g.setReg l r v) where
  other g k q hk ne := by rw [Group.reg_setReg _ _ _ _ _ _ hl hk, if_neg (fun h => ne h.1)]
  own g h same q := by rw [Group.reg_setReg _ _ _ _ _ _ hl hl, Group.reg_setReg _ _ _ _ _ _ hl hl, same]

theorem Group.ofLane_setPair {l : Nat} (hl : l < 64) (r : Nat) (v : Word) : Group.OfLane l (fun g => g.setPair l r v) :=
  (Group.ofLane_setReg hl (r + 1) _).comp (Group.ofLane_setReg hl r _)

theorem Group.ofLane_setRaw {l : Nat} (hl : l < 64) (r fmt raw : Nat) : Group.OfLane l (fun g => g.setRaw l r fmt raw) := by
  unfold Group.setRaw
  split
  · exact Group.ofLane_setPair hl r _
  · split <;> exact Group.ofLane_setReg hl r _

section
variable {α : Type} {F : Group → α → Group} {lane : α → Nat} {l : List α}

/-- A run of writes leaves the lanes that none of them writes. -/
theorem Group.reg_foldl_other (local' : ∀ a ∈ l, Group.OfLane (lane a) (fun g => F g a)) {k : Nat} (hk : k < 64) (none : ∀ a ∈ l, lane a ≠ k) (g : Group) (r : Nat) :
    (l.foldl F g).reg k r = g.reg k r := by
  induction l generalizing g with
  | nil => rfl
  | cons a t ih =>
    rw [List.foldl_cons, ih (fun b hb => local' b (List.mem_cons_of_mem _ hb)) (fun b hb => none b (List.mem_cons_of_mem _ hb))]
    exact (local' a List.mem_cons_self).other g k r hk (none a List.mem_cons_self).symm

/-- A run of writes, each of another lane, leaves in a lane what its own write does. -/
theorem Group.reg_foldl_own (local' : ∀ a ∈ l, Group.OfLane (lane a) (fun g => F g a)) (bound : ∀ a ∈ l, lane a < 64) (each : (l.map lane).Nodup)
    {a : α} (ha : a ∈ l) (g : Group) (r : Nat) : (l.foldl F g).reg (lane a) r = (F g a).reg (lane a) r := by
  induction l generalizing g with
  | nil => cases ha
  | cons b t ih =>
    obtain ⟨fresh, each⟩ := List.nodup_cons.mp each
    have rest : ∀ c ∈ t, Group.OfLane (lane c) (fun g => F g c) := fun c hc => local' c (List.mem_cons_of_mem _ hc)
    rw [List.foldl_cons]
    rcases List.mem_cons.mp ha with rfl | later
    · exact Group.reg_foldl_other rest (bound a ha) (fun c hc e => fresh (e ▸ List.mem_map_of_mem hc)) _ r
    · have ne : lane a ≠ lane b := fun e => fresh (e ▸ List.mem_map_of_mem later)
      rw [ih rest (fun c hc => bound c (List.mem_cons_of_mem _ hc)) each later]
      exact (rest a later).own _ _ (fun q => (local' b List.mem_cons_self).other g _ q (bound a ha) ne) r

end

theorem laneList_lt {m : BitVec 64} {l : Nat} (h : l ∈ laneList m) : l < 64 := BitVec.lt_of_getLsbD ((mem_laneList m l).mp h)

/-- A run of writes with one write for each lane of a mask, in any order. -/
theorem wroteLanes_of_nodup {α : Type} {F : Group → α → Group} {lane : α → Nat} {l : List α} {g : Group} {m : BitVec 64} {v : Nat → Group}
    (local' : ∀ a ∈ l, Group.OfLane (lane a) (fun h => F h a)) (each : (l.map lane).Nodup) (lanes : ∀ k, k ∈ l.map lane ↔ m.getLsbD k = true)
    (kept : ∀ (h : Group) a, h.OnlyRegs (F h a)) (val : ∀ a ∈ l, ∀ r, (F g a).reg (lane a) r = (v (lane a)).reg (lane a) r) : WroteLanes g (l.foldl F g) m v := by
  have bound : ∀ a ∈ l, lane a < 64 := fun a ha => BitVec.lt_of_getLsbD ((lanes _).mp (List.mem_map_of_mem ha))
  refine ⟨(Group.OnlyRegs.foldl kept l g).frame.2.2.2.1, fun k r hk => ?_⟩
  split
  · rename_i on
    obtain ⟨a, ha, rfl⟩ := List.mem_map.mp ((lanes k).mpr on)
    rw [Group.reg_foldl_own local' bound each ha, val a ha]
  · rename_i off
    exact Group.reg_foldl_other local' hk (fun a ha e => off ((lanes k).mp (e ▸ List.mem_map_of_mem ha))) g r

/-- A run of writes with one write for each lane of a mask. -/
theorem wroteLanes_of_foldl {α : Type} {F : Group → α → Group} {lane : α → Nat} {l : List α} {g : Group} {m : BitVec 64} {v : Nat → Group}
    (local' : ∀ a ∈ l, Group.OfLane (lane a) (fun h => F h a)) (lanes : l.map lane = laneList m) (kept : ∀ (h : Group) a, h.OnlyRegs (F h a))
    (val : ∀ a ∈ l, ∀ r, (F g a).reg (lane a) r = (v (lane a)).reg (lane a) r) : WroteLanes g (l.foldl F g) m v :=
  wroteLanes_of_nodup local' (lanes ▸ laneList_nodup m) (fun k => lanes ▸ mem_laneList m k) kept val

/-- Lanes that each write one register. -/
theorem wroteReg_of_wroteLanes {g h : Group} {m : BitVec 64} {d : Nat} {v : Nat → Word32} (w : WroteLanes g h m (fun l => g.setReg l d (v l))) : WroteReg g h m d v := by
  refine ⟨w.1, fun l r hl => ?_⟩
  rw [w.2 l r hl]
  by_cases on : m.getLsbD l = true
  · rw [if_pos on, Group.reg_setReg _ _ _ _ _ _ hl hl]
    simp only [on, true_and]
  · rw [if_neg on, if_neg (fun e => on e.1)]

/-- Lanes that each write a pair that begins at an even register. -/
theorem wrotePair_of_wroteLanes {g h : Group} {m : BitVec 64} {d : Nat} {v : Nat → Word} (w : WroteLanes g h m (fun l => g.setPair l d (v l))) : WrotePair g h m d v := by
  refine ⟨w.1, fun l r hl => ?_⟩
  rw [w.2 l r hl]
  by_cases on : m.getLsbD l = true
  · rw [if_pos on]
    unfold Group.setPair
    rw [Group.reg_setReg _ _ _ _ _ _ hl hl, Group.reg_setReg _ _ _ _ _ _ hl hl]
    simp only [on, true_and]
    by_cases low : r = d
    · simp [low]
    · simp [low]
  · rw [if_neg on, if_neg (fun e => on e.1), if_neg (fun e => on e.1)]

theorem WroteLanes.congr {g h k : Group} {m : BitVec 64} {v : Nat → Group} (w : WroteLanes g h m v) (regs : k.regs = h.regs) (preds : k.preds = h.preds) : WroteLanes g k m v :=
  ⟨preds.trans w.1, fun l r hl => (Group.reg_of_regs regs l r).trans (w.2 l r hl)⟩

end Sys2Proof.Machine
end

section
/-! SUPPORT. The issue of an instruction (02 R43, R45, R57, R59, R60, R67-R73): what the fetch leaves of the array, path switches, the end of
an issue, and parking. -/

namespace Sys2Proof.Machine

/-! ### An instruction that goes through -/

section
variable {s : State} {i : Issue} {c : Cmd} {g : Group}

theorem Goes.group (go : Goes s i c g) : s.groupOf i.g = some g := (s.issuer_some _ _ _ go.1).1

theorem Goes.ready (go : Goes s i c g) : g.st = .ready := (s.issuer_some _ _ _ go.1).2.1

theorem Goes.fetched_group (go : Goes s i c g) : (s.fetched i c g).groupOf i.g = some g := (s.fetched_groupOf i c g).trans go.group

theorem Goes.mask_ne (go : Goes s i c g) : g.path.mask ≠ 0 := by
  obtain ⟨-, el, -⟩ := go
  intro e; simp [Path.eligible, e] at el

theorem Goes.wait_none (go : Goes s i c g) : g.path.wait = none := by
  obtain ⟨-, el, -⟩ := go
  simp only [Path.eligible, Bool.and_eq_true] at el
  exact Option.isNone_iff_eq_none.mp el.2

theorem Goes.issue (go : Goes s i c g) {legal : Cmd → Bool} {regs : List Nat} (run : Run → State → Group → Eff) (ok : legal c = true) (free : g.pending regs = []) :
    s.issue i legal regs run = State.settle i.g.la.val c (run ⟨i.g.la.val, c, g.lanes i⟩ (s.fetched i c g) g) :=
  s.issue_runs i c g legal regs run go.1 go.2.2.1 go.2.2.2.1 go.2.2.2.2 ok free

theorem Goes.issue_illegal (go : Goes s i c g) {legal : Cmd → Bool} (regs : List Nat) (run : Run → State → Group → Eff) (bad : legal c = false) :
    s.issue i legal regs run = (s.fetched i c g).endCmd c 0x11 (BitVec.ofNat 32 i.g.la.val) :=
  s.issue_illegal i c g legal regs run go.1 go.2.2.1 go.2.2.2.1 go.2.2.2.2 bad

end

theorem pending_nil (g : Group) : g.pending [] = [] := by
  unfold Group.pending
  rw [List.filter_eq_nil_iff.mpr (fun o _ => by simp)]
  rfl

/-- A group with lanes on its current path has that path first. -/
theorem Group.paths_eq {g : Group} (live : g.path.mask ≠ 0) : g.paths = g.path :: g.paths.tail := by
  unfold Group.path at *
  cases hp : g.paths with
  | nil => rw [hp] at live; exact absurd rfl live
  | cons p t => rfl

/-- Nothing of a group but its path list, its state and its counts of issues differs. -/
def Group.SameRun (g h : Group) : Prop :=
  h.cohort = g.cohort ∧ h.num = g.num ∧ h.regs = g.regs ∧ h.preds = g.preds ∧ h.loads = g.loads

theorem Group.SameRun.refl (g : Group) : g.SameRun g := ⟨rfl, rfl, rfl, rfl, rfl⟩

theorem Group.SameRun.trans {g h k : Group} (gh : g.SameRun h) (hk : h.SameRun k) : g.SameRun k := by
  obtain ⟨a, b, d, e, f⟩ := gh
  obtain ⟨a', b', d', e', f'⟩ := hk
  exact ⟨a'.trans a, b'.trans b, d'.trans d, e'.trans e, f'.trans f⟩

theorem Group.setPc_sameRun (g : Group) (pc : Word) : g.SameRun (g.setPc pc) := by
  unfold Group.setPc; split <;> exact .refl _

theorem Group.advance_sameRun (g : Group) (n : Nat) : g.SameRun (g.advance n) := g.setPc_sameRun _

theorem Group.counted_sameRun (g : Group) : g.SameRun g.counted := .refl _

theorem Group.settled_sameRun (g : Group) : g.SameRun g.settled := .refl _

/-! ### The fetch of a word (R170) -/

/-- The fetch of a word touches nothing of its array but the L1. -/
theorem State.fetchLine_only (s : State) (la : Nat) (c : Cmd) (pc : Word) : ∃ l n, (s.fetchLine la c pc).array la = { s.array la with l1 := l, l1Clock := n } := by
  have walked := s.translate_roster c.part pc.toNat false
  have same {u : State} (hu : u.roster = s.roster) : ∃ l n, u.array la = { s.array la with l1 := l, l1Clock := n } := ⟨_, _, State.array_of_roster hu la⟩
  have touched {u : State} (hu : u.roster = s.roster) {f : ArrayState → ArrayState} (hf : ∀ a, ∃ l n, f a = { a with l1 := l, l1Clock := n }) :
      ∃ l n, (u.onArray la f).array la = { s.array la with l1 := l, l1Clock := n } := by
    rw [State.onArray, State.array_setArray, State.array_of_roster hu]
    exact hf _
  unfold State.fetchLine
  generalize s.translate c.part pc.toNat false = found at walked
  obtain ⟨x, u⟩ := found
  cases x with
  | pool pa =>
    dsimp only at walked ⊢
    split
    · exact touched walked (fun a => ⟨_, _, rfl⟩)
    · split
      · exact same walked
      · have read := (u.engRead_roster c.part (pa / 128) 0 .array).trans walked
        split
        · exact same read
        · refine touched read (fun a => ?_)
          unfold ArrayState.l1Fill
          split <;> exact ⟨_, _, rfl⟩
  | _ => exact same walked

theorem State.fetched_array (s : State) (i : Issue) (c : Cmd) (g : Group) :
    ∃ l n, (s.fetched i c g).array i.g.la.val = { s.array i.g.la.val with l1 := l, l1Clock := n } := s.fetchLine_only _ c _

theorem State.fetched_sentryArmed (s : State) (i : Issue) (c : Cmd) (g : Group) :
    ((s.fetched i c g).array i.g.la.val).sentryArmed = (s.array i.g.la.val).sentryArmed := by
  obtain ⟨l, n, e⟩ := s.fetched_array i c g
  rw [e]

theorem State.fetched_cohortOf (s : State) (i : Issue) (c : Cmd) (g : Group) (k : Nat) :
    ((s.fetched i c g).array i.g.la.val).cohortOf k = (s.array i.g.la.val).cohortOf k := by
  obtain ⟨l, n, e⟩ := s.fetched_array i c g
  rw [e]; rfl

/-! ### Merged paths and switches (R59, R60) -/

/-- Every lane of the mask x is in the mask y. -/
theorem and_or_left_eq {x y : BitVec 64} (h : x &&& y = x) (z : BitVec 64) : x &&& (y ||| z) = x := by
  apply BitVec.eq_of_getLsbD_eq
  intro i _
  have := congrArg (fun v => v.getLsbD i) h
  simp only [BitVec.getLsbD_and, BitVec.getLsbD_or] at this ⊢
  cases hx : x.getLsbD i <;> simp_all

theorem and_trans {x y z : BitVec 64} (h : x &&& y = x) (k : y &&& z = y) : x &&& z = x := by
  rw [← h, BitVec.and_assoc, k]

theorem foldl_or_start (l : List Path) (m x : BitVec 64) (h : x &&& m = x) : x &&& l.foldl (fun m q => m ||| q.mask) m = x := by
  induction l generalizing m with
  | nil => exact h
  | cons q t ih => exact ih _ (and_or_left_eq h q.mask)

theorem foldl_or_mem {l : List Path} {q : Path} (hq : q ∈ l) (m : BitVec 64) : q.mask &&& l.foldl (fun m q => m ||| q.mask) m = q.mask := by
  induction l generalizing m with
  | nil => cases hq
  | cons p t ih =>
    rcases List.mem_cons.mp hq with rfl | later
    · refine foldl_or_start t _ _ ?_
      dsimp only
      rw [BitVec.or_comm]
      exact and_or_left_eq (BitVec.and_self) _
    · exact ih later _

/-- A list of paths has the lanes of a path where it goes, waiting as it does. -/
def Carries (l : List Path) (p : Path) : Prop := ∃ q ∈ l, q.pc = p.pc ∧ q.wait = p.wait ∧ p.mask &&& q.mask = p.mask

theorem Carries.of_mem {l : List Path} {p : Path} (h : p ∈ l) : Carries l p := ⟨p, h, rfl, rfl, BitVec.and_self⟩

theorem Carries.trans {k : List Path} {p q : Path} (pc : q.pc = p.pc) (wait : q.wait = p.wait) (mask : p.mask &&& q.mask = p.mask) (h : Carries k q) : Carries k p := by
  obtain ⟨r, hr, rpc, rwait, rmask⟩ := h
  exact ⟨r, hr, rpc.trans pc, rwait.trans wait, and_trans mask rmask⟩

theorem mergePaths_carries {l : List Path} {p : Path} (hp : p ∈ l) : Carries (mergePaths l) p := by
  induction l with
  | nil => cases hp
  | cons a t ih =>
    unfold mergePaths
    rcases List.mem_cons.mp hp with rfl | later
    · exact ⟨_, List.mem_cons_self, rfl, rfl, foldl_or_start _ _ _ BitVec.and_self⟩
    · obtain ⟨q, hq, pc, wait, mask⟩ := ih later
      by_cases same : q.pc = a.pc ∧ q.wait = a.wait
      · refine ⟨_, List.mem_cons_self, ?_, ?_, and_trans mask (foldl_or_mem (List.mem_filter.mpr ⟨hq, by simpa using same⟩) _)⟩
        · exact same.1.symm.trans pc
        · exact same.2.symm.trans wait
      · exact ⟨q, List.mem_cons_of_mem _ (List.mem_filter.mpr ⟨hq, by simpa [imp_iff_not_or] using same⟩), pc, wait, mask⟩

theorem mergePaths_from {l : List Path} {q : Path} (hq : q ∈ mergePaths l) : ∃ p ∈ l, q.pc = p.pc ∧ q.wait = p.wait := by
  induction l generalizing q with
  | nil => cases hq
  | cons a t ih =>
    unfold mergePaths at hq
    rcases List.mem_cons.mp hq with rfl | later
    · exact ⟨a, List.mem_cons_self, rfl, rfl⟩
    · obtain ⟨p, hp, pc, wait⟩ := ih (List.mem_of_mem_filter later)
      exact ⟨p, List.mem_cons_of_mem _ hp, pc, wait⟩

/-- The paths among which a switch chooses: those that live, the current one as it has just issued. -/
def Group.switchable (g : Group) : List Path :=
  if g.path.mask = 0 then g.live else match g.live with
    | [] => []
    | p :: t => { p with stamp := g.issues } :: t

/-- A switch chooses one of the merged paths, or keeps the current one. -/
theorem Group.switch_cases (g : Group) :
    (mergePaths g.switchable = [] ∧ g.switch = g) ∨ ∃ cur rest, mergePaths g.switchable = cur :: rest
      ∧ ((longest ((if g.path.mask = 0 then cur :: rest else rest).filter Path.eligible) = none ∧ g.switch = { g with paths := cur :: rest })
        ∨ ∃ p, longest ((if g.path.mask = 0 then cur :: rest else rest).filter Path.eligible) = some p
          ∧ g.switch = { g with paths := p :: (cur :: rest).filter (fun q => decide (q ≠ p)), sinceSwitch := 0 }) := by
  unfold Group.switch Group.switchable Group.live
  simp only [decide_eq_true_eq]
  generalize mergePaths _ = l
  cases l with
  | nil => exact .inl ⟨rfl, rfl⟩
  | cons cur rest =>
    refine .inr ⟨cur, rest, rfl, ?_⟩
    dsimp only
    generalize longest _ = best
    cases best with
    | none => exact .inl ⟨rfl, rfl⟩
    | some p => exact .inr ⟨p, rfl, rfl⟩

theorem Group.switch_sameRun (g : Group) : g.SameRun g.switch := by
  rcases g.switch_cases with ⟨-, e⟩ | ⟨cur, rest, -, ⟨-, e⟩ | ⟨p, -, e⟩⟩ <;> rw [e] <;> exact .refl _

theorem Group.switchable_carries {g : Group} {p : Path} (hp : p ∈ g.paths) (lanes : p.mask ≠ 0) : Carries g.switchable p := by
  have live : p ∈ g.live := List.mem_filter.mpr ⟨hp, by simpa using lanes⟩
  unfold Group.switchable
  split
  · exact .of_mem live
  · cases hl : g.live with
    | nil => rw [hl] at live; cases live
    | cons q t =>
      rw [hl] at live
      rcases List.mem_cons.mp live with rfl | later
      · exact ⟨_, List.mem_cons_self, rfl, rfl, BitVec.and_self⟩
      · exact .of_mem (List.mem_cons_of_mem _ later)

/-- A switch keeps every live path. -/
theorem Group.switch_carries {g : Group} {p : Path} (hp : p ∈ g.paths) (lanes : p.mask ≠ 0) : Carries g.switch.paths p := by
  obtain ⟨q, hq, pc, wait, mask⟩ := Group.switchable_carries hp lanes
  refine Carries.trans pc wait mask ?_
  obtain ⟨r, hr, more⟩ := mergePaths_carries hq
  rcases g.switch_cases with ⟨e, -⟩ | ⟨cur, rest, e, ⟨-, kept⟩ | ⟨p, -, chose⟩⟩
  · rw [e] at hr; cases hr
  · rw [kept]; exact ⟨r, e ▸ hr, more⟩
  · rw [chose]
    by_cases same : r = p
    · exact ⟨r, same ▸ List.mem_cons_self, more⟩
    · exact ⟨r, List.mem_cons_of_mem _ (List.mem_filter.mpr ⟨e ▸ hr, by simpa using same⟩), more⟩

/-- With no other eligible path the current one stays current. -/
theorem Group.switch_stays {g : Group} (lanes : g.path.mask ≠ 0) (alone : ∀ p ∈ g.paths.tail, p.eligible = false) : g.switch.path.pc = g.path.pc := by
  have paths : g.switchable = { g.path with stamp := g.issues } :: g.paths.tail.filter (fun p => decide (p.mask ≠ 0)) := by
    unfold Group.switchable Group.live
    rw [if_neg lanes, Group.paths_eq lanes, List.filter_cons_of_pos (by simpa using lanes)]
    rfl
  rcases g.switch_cases with ⟨none, -⟩ | ⟨cur, rest, merged, cases⟩
  · rw [paths] at none; simp [mergePaths] at none
  · rw [paths, mergePaths, List.cons.injEq] at merged
    obtain ⟨rfl, rfl⟩ := merged
    rcases cases with ⟨-, kept⟩ | ⟨p, chosen, -⟩
    · rw [kept]; rfl
    · rw [if_neg lanes, List.filter_eq_nil_iff.mpr] at chosen
      · cases chosen
      · intro q hq el
        simp only [Path.eligible, Bool.and_eq_true, Option.isNone_iff_eq_none] at el
        obtain ⟨p, hp, -, wait⟩ := mergePaths_from (List.mem_of_mem_filter hq)
        obtain ⟨tail, live⟩ := List.mem_filter.mp hp
        have := alone p tail
        simp only [Path.eligible, ← wait, el.2, live] at this
        cases this

/-! ### The end of an issue (R43, R45, R60) -/

/-- The group behind an instruction that completes, with a path switch where the flag says so. -/
def Group.behind (g : Group) (sw : Bool) : Group := if sw then g.counted.switch else g.counted

theorem Group.behind_sameRun (g : Group) (sw : Bool) : g.SameRun (g.behind sw) := by
  unfold Group.behind
  split
  · exact g.counted_sameRun.trans (Group.switch_sameRun _)
  · exact g.counted_sameRun

theorem Group.behind_carries {g : Group} {p : Path} (hp : p ∈ g.paths) (lanes : p.mask ≠ 0) (sw : Bool) : Carries (g.behind sw).paths p := by
  unfold Group.behind
  split
  · exact Group.switch_carries (g := g.counted) hp lanes
  · exact .of_mem hp

theorem Group.live_of_carries {g : Group} {p : Path} (h : Carries g.paths p) (lanes : p.mask ≠ 0) : g.live ≠ [] := by
  obtain ⟨q, hq, -, -, mask⟩ := h
  refine List.ne_nil_of_mem (List.mem_filter.mpr ⟨hq, ?_⟩)
  rw [decide_eq_true_eq]
  rintro none
  rw [none] at mask
  exact lanes (mask.symm.trans BitVec.and_zero)

/-- A group with a live path goes on, whatever path is then current. -/
theorem State.settle_live (la : Nat) (c : Cmd) (s : State) {g : Group} {p : Path} (hp : p ∈ g.paths) (lanes : p.mask ≠ 0) (sw : Bool) :
    State.settle la c (.ok s g sw) = (s.issued la c g).putGroup la (g.behind sw).settled := by
  have live := Group.live_of_carries (Group.behind_carries hp lanes sw) lanes
  unfold Group.behind at *
  exact if_neg live

/-- What the issue of a group that goes on leaves of its array. -/
theorem State.issued_array (s : State) (la : Nat) (c : Cmd) (g : Group) : ∃ l, (s.issued la c g).array la = { s.array la with last := l } := by
  unfold State.issued State.onArray
  rw [State.array_setArray]
  exact ⟨_, rfl⟩

theorem State.putGroup_array (s : State) (la : Nat) (g : Group) : (s.putGroup la g).array la = (s.array la).putGroup g := by
  unfold State.putGroup; rw [State.array_setArray]

/-- The end of an instruction that completes: the group as it is then, and what else of the array differs. -/
theorem settles {u : State} {r : GroupRef} {c : Cmd} {g g' : Group} {p : Path} (there : u.groupOf r = some g) (cohort : g'.cohort = g.cohort) (num : g'.num = g.num)
    (hp : p ∈ g'.paths) (lanes : p.mask ≠ 0) (sw : Bool) :
    (State.settle r.la.val c (.ok u g' sw)).groupOf r = some (g'.behind sw).settled ∧ OnlyArray u (State.settle r.la.val c (.ok u g' sw)) r.la.val
      ∧ ∃ l k, (State.settle r.la.val c (.ok u g' sw)).array r.la.val = { u.array r.la.val with last := l, groups := k } := by
  obtain ⟨hc, hn, -⟩ := g'.behind_sameRun sw
  rw [State.settle_live _ _ _ hp lanes]
  refine ⟨State.groupOf_putGroup _ r g _ ((State.issued_groupOf u r c g').trans there) (hc.trans cohort) (hn.trans num),
    (OnlyArray.issued u _ c g').trans (OnlyArray.put _ _ _), ?_⟩
  obtain ⟨l, e⟩ := u.issued_array r.la.val c g'
  rw [State.putGroup_array, e]
  exact ⟨_, _, rfl⟩

/-! ### Parking (R67-R73) -/

theorem State.sendPage_roster (s : State) (port : Fin 2) (fn : Fin 128) : (s.sendPage port fn).roster = s.roster := by
  unfold State.sendPage; dsimp only; split
  · rfl
  · split <;> rfl

theorem State.askPage_roster (s : State) (x : Ctx) (iova : Nat) (write : Bool) (use : PageFor) : (s.askPage x iova write use).2.roster = s.roster :=
  State.sendPage_roster _ _ _

/-- The page request of a park that the translation unit can resume (R73). -/
def State.parkPage (s : State) (la : Nat) (c : Cmd) (k : Fin 16) (f : ParkFault) : Option Nat × State :=
  if f.access.getLsbD 5 then
    let write := f.access.getLsbD 1 || f.access.getLsbD 2
    match s.translate c.part f.addr.toNat write with
    | (.host iova, s) => let (n, s) := s.askPage (s.chanCtx c.ch) iova write (.park la k); (some n, s)
    | (_, s) => (none, s)
  else (none, s)

theorem State.parkPage_roster (s : State) (la : Nat) (c : Cmd) (k : Fin 16) (f : ParkFault) : (s.parkPage la c k f).2.roster = s.roster := by
  unfold State.parkPage
  split
  · have walked := s.translate_roster c.part f.addr.toNat (f.access.getLsbD 1 || f.access.getLsbD 2)
    dsimp only
    generalize s.translate c.part f.addr.toNat (f.access.getLsbD 1 || f.access.getLsbD 2) = found at walked
    obtain ⟨x, v⟩ := found
    cases x with
    | host iova => exact (State.askPage_roster _ _ _ _ _).trans walked
    | _ => exact walked
  · rfl

/-- An array in a slot of which a group has parked. -/
def ArrayState.parked (a : ArrayState) (g : Group) (k : Fin 16) (p : Park) : ArrayState :=
  ArrayState.putGroup { a with
    parks := Tbl.set none a.parks k.val (some p)
    parkSeq := a.parkSeq + 1
    faultQ := a.faultQ.filter (fun x => decide (x ≠ (g.cohort, g.num))) } { g with st := .parked k }

/-- A group that parks is in its slot, with its fault and what it parked for; it waits for a slot no more (R68, R69). -/
theorem State.parkIn_array (s : State) (la : Nat) (c : Cmd) (g : Group) (k : Fin 16) (f : ParkFault) (src : ParkSrc) (rec : Option SentryRec) :
    ∃ t pr, (s.parkIn la c g k f src rec).array la = (s.array la).parked g k ⟨t, g.cohort, some g.num, f, src, pr⟩ := by
  have same := (s.freeVal 64).2.parkPage_roster la c k f
  have posted : (s.parkIn la c g k f src rec).roster = ((((s.freeVal 64).2.parkPage la c k f).2.onArray la (fun a => { a with
      parks := Tbl.set none a.parks k.val (some ⟨ticketOf la k (s.array la).parkSeq, g.cohort, some g.num, f, src, ((s.freeVal 64).2.parkPage la c k f).1⟩)
      parkSeq := a.parkSeq + 1
      faultQ := a.faultQ.filter (fun x => decide (x ≠ (g.cohort, g.num))) })).putGroup la { g with st := .parked k }).roster := by
    unfold State.parkIn
    exact (State.postFault_roster _ _ _ _).trans (by cases rec <;> rfl)
  refine ⟨ticketOf la k (s.array la).parkSeq, ((s.freeVal 64).2.parkPage la c k f).1, (State.array_of_roster posted la).trans ?_⟩
  rw [State.putGroup_array, State.onArray, State.array_setArray, State.array_of_roster same]
  rfl

theorem State.groupAt_putGroup {a : ArrayState} {r : GroupRef} {g h : Group} {s t : State} (there : s.groupOf r = some g) (same : a.groups = (s.array r.la.val).groups)
    (cohort : h.cohort = g.cohort) (num : h.num = g.num) (put : t.array r.la.val = a.putGroup h) : t.groupOf r = some h := by
  have := State.groupOf_putGroup s r g h there cohort num
  unfold State.groupOf State.groupAt at this ⊢
  rw [State.putGroup_array] at this
  rw [put]
  unfold ArrayState.putGroup at this ⊢
  rw [same]
  exact this

theorem State.parkIn_groupOf {s : State} {r : GroupRef} {g h : Group} (there : s.groupOf r = some g) (cohort : h.cohort = g.cohort) (num : h.num = g.num)
    (c : Cmd) (k : Fin 16) (f : ParkFault) (src : ParkSrc) (rec : Option SentryRec) :
    (s.parkIn r.la.val c h k f src rec).groupOf r = some { h with st := .parked k } := by
  obtain ⟨t, pr, e⟩ := s.parkIn_array r.la.val c h k f src rec
  exact State.groupAt_putGroup (a := { s.array r.la.val with
    parks := Tbl.set none (s.array r.la.val).parks k.val (some _)
    parkSeq := (s.array r.la.val).parkSeq + 1
    faultQ := (s.array r.la.val).faultQ.filter _ }) there rfl cohort num e

/-- A group that faults is parked, or waits for a slot. -/
theorem State.park_parks {s : State} {r : GroupRef} {g h : Group} (there : s.groupOf r = some g) (cohort : h.cohort = g.cohort) (num : h.num = g.num)
    (c : Cmd) (f : ParkFault) (src : ParkSrc) (rec : Option SentryRec) :
    ∃ st, (s.park r.la.val c h f src rec).groupOf r = some { h with st := st } ∧ ({ h with st := st } : Group).parks := by
  unfold State.park
  split
  · exact ⟨_, State.parkIn_groupOf there cohort num c _ f src rec, .inl ⟨_, rfl⟩⟩
  · refine ⟨.waiting (.parkSlot f src rec), ?_, .inr ⟨_, _, _, rfl⟩⟩
    exact State.groupOf_putGroup _ r g _ (by unfold State.groupOf State.groupAt State.onArray at *; rw [State.array_setArray]; exact there) cohort num

/-- An instruction that faults parks its group. -/
theorem fault_parks {u : State} {r : GroupRef} {g h : Group} (there : u.groupOf r = some g) (cohort : h.cohort = g.cohort) (num : h.num = g.num)
    (c : Cmd) (f : ParkFault) (rec : Option SentryRec) :
    ∃ st, (State.settle r.la.val c (.fault u h f rec)).groupOf r = some { h with st := st } ∧ ({ h with st := st } : Group).parks :=
  State.park_parks ((State.issued_groupOf u r c h).trans there) cohort num c f .instr rec

/-- A group that is held stays as it is but for its wait. -/
theorem holds_of_hold {s : State} {i : Issue} {c : Cmd} {g : Group} (go : Goes s i c g) (w : WaitReason) :
    Holds s (.next (State.settle i.g.la.val c (.hold (s.fetched i c g) g w))) i c g w :=
  ⟨_, rfl, State.groupOf_putGroup _ i.g g _ go.fetched_group rfl rfl, OnlyArray.put _ _ _⟩

end Sys2Proof.Machine
end

section
/-! SUPPORT. Instructions of classes 0x0, 0x5, 0x6, 0x7 and 0xC that write one register, pair or predicate in their lanes (02 R41, R53, R58,
R472); with these the statements about them. -/

namespace Sys2Proof.Machine

/-- Lanes that each write one register touch nothing else of the group. -/
theorem Group.each_setReg_onlyRegs (g : Group) (m : BitVec 64) (d : Nat) (v : Nat → Word32) : g.OnlyRegs (g.each m (fun h l => h.setReg l d (v l))) :=
  g.each_onlyRegs m (fun h l => h.setReg_onlyRegs l d _)

theorem wroteReg_each {g h : Group} {m : BitVec 64} {d : Nat} {v : Nat → Word32} (regs : h.regs = (g.each m (fun h l => h.setReg l d (v l))).regs)
    (preds : h.preds = (g.each m (fun h l => h.setReg l d (v l))).preds) : WroteReg g h m d v :=
  ⟨preds.trans (g.each_setReg_onlyRegs m d v).frame.2.2.2.1, fun l r hl => (Group.reg_of_regs regs l r).trans (g.reg_eachSet m d v l r hl)⟩

section
variable {s : State} {i : Issue} {c : Cmd} {g : Group} (go : Goes s i c g) {legal : Cmd → Bool} {regs : List Nat} (ok : legal c = true) (free : g.pending regs = [])
include go ok free

/-- An instruction whose lanes each write one register. -/
theorem vector_setReg (d : Nat) (v : Run → Group → Nat → Word32) :
    Completes s (.next (s.vector i legal regs (fun r g => g.each r.m (fun h l => h.setReg l d (v r g l))))) i c g 8
      (fun h => WroteReg g h (g.lanes i) d (v ⟨i.g.la.val, c, g.lanes i⟩ g)) := by
  obtain ⟨cohort, num, paths, -⟩ := (g.each_setReg_onlyRegs (g.lanes i) d (v ⟨i.g.la.val, c, g.lanes i⟩ g)).frame
  exact vector_completes s i c g legal regs _ _ go ok free cohort num paths (fun h hregs hpreds => wroteReg_each hregs hpreds)

/-- An instruction whose lanes each write one pair of registers. -/
theorem vector_setPair (d : Nat) (v : Run → Group → Nat → Word) :
    Completes s (.next (s.vector i legal regs (fun r g => g.each r.m (fun h l => h.setPair l d (v r g l))))) i c g 8
      (fun h => WrotePair g h (g.lanes i) d (v ⟨i.g.la.val, c, g.lanes i⟩ g)) := by
  have kept := g.each_onlyRegs (g.lanes i) (f := fun h l => h.setPair l d (v ⟨i.g.la.val, c, g.lanes i⟩ g l)) (fun h l => h.setPair_onlyRegs l d _)
  obtain ⟨cohort, num, paths, -⟩ := kept.frame
  have wrote : WroteLanes g (g.each (g.lanes i) (fun h l => h.setPair l d (v ⟨i.g.la.val, c, g.lanes i⟩ g l))) (g.lanes i)
      (fun l => g.setPair l d (v ⟨i.g.la.val, c, g.lanes i⟩ g l)) :=
    wroteLanes_of_foldl (lane := id) (fun l hl => Group.ofLane_setPair (laneList_lt hl) d _) (List.map_id _) (fun h l => h.setPair_onlyRegs l d _) (fun _ _ _ => rfl)
  exact vector_completes s i c g legal regs _ _ go ok free cohort num paths (fun h hregs hpreds => wrotePair_of_wroteLanes (wrote.congr hregs hpreds))

/-- An instruction that writes one predicate in its lanes. -/
theorem vector_setPred (p : Nat) (v : Run → Group → BitVec 64) :
    Completes s (.next (s.vector i legal regs (fun r g => g.setPred p r.m (v r g)))) i c g 8
      (fun h => WrotePred g h (g.lanes i) p (v ⟨i.g.la.val, c, g.lanes i⟩ g)) := by
  have kept : ∀ m w, (g.setPred p m w).cohort = g.cohort ∧ (g.setPred p m w).num = g.num ∧ (g.setPred p m w).paths = g.paths ∧ (g.setPred p m w).regs = g.regs := by
    intro m w; unfold Group.setPred; split <;> exact ⟨rfl, rfl, rfl, rfl⟩
  obtain ⟨cohort, num, paths, same⟩ := kept (g.lanes i) (v ⟨i.g.la.val, c, g.lanes i⟩ g)
  refine vector_completes s i c g legal regs _ _ go ok free cohort num paths (fun h hregs hpreds => ⟨hregs.trans same, fun q => ?_⟩)
  rw [← Group.pred_setPred]
  unfold Group.pred
  rw [hpreds]

end

/-- A move of a register from the lanes that `from'` names. -/
theorem moveIssue_completes {s : State} {i : Issue} {c : Cmd} {g : Group} {ops : BitVec 48} (go : Goes s i c g) (usesB : Bool) (src : Run → Group → Nat → Option Nat)
    (clean : legalV ops = true) (dst : regNamed c.regCount (opDst ops) = true) (a : regNamed c.regCount (opA ops) = true) (b : usesB = true → regNamed c.regCount (opB ops) = true)
    (free : g.pending ([opDst ops, opA ops] ++ (if usesB then [opB ops] else [])) = []) :
    Completes s (.next (s.moveIssue i ops usesB src)) i c g 8 (fun h => WroteReg g h (g.lanes i) (opDst ops) (fun l => match src ⟨i.g.la.val, c, g.lanes i⟩ g l with
      | some k => g.intSrc k (opA ops) (opNeg ops 0)
      | none => 0)) := by
  have ok : (legalV ops && regNamed c.regCount (opDst ops) && regNamed c.regCount (opA ops) && (!usesB || regNamed c.regCount (opB ops))) = true := by
    cases usesB
    · simp [clean, dst, a]
    · simp [clean, dst, a, b]
  exact vector_setReg go (legal := fun c => legalV ops && regNamed c.regCount (opDst ops) && regNamed c.regCount (opA ops) && (!usesB || regNamed c.regCount (opB ops))) ok free (opDst ops) _

/-- Settles O1: each instruction writes one register in its lanes; what a load has still to write holds it. -/
theorem integerAndMovesComplete : Obligations.IntegerAndMovesComplete := by
  unfold Obligations.IntegerAndMovesComplete
  intro s i c g ops go
  refine ⟨fun op ok free => vector_setReg go ok free _ _, fun clean dst a b free => ⟨?_, ?_, ?_⟩, fun clean dst a free d => ?_, fun op ok held => ?_⟩
  · exact moveIssue_completes go true (fun _ g l => some (field (g.reg l (opB ops)) 0 6)) clean dst a (fun _ => b) free
  · exact moveIssue_completes go true (fun _ g l => some (l ^^^ field (g.reg l (opB ops)) 0 6)) clean dst a (fun _ => b) free
  · exact moveIssue_completes go true (fun r g _ => some (field (g.reg (leader r.m) (opB ops)) 0 6)) clean dst a (fun _ => b) free
  · exact moveIssue_completes go false (fun _ _ l => neighbour d (decide (opMod ops % 2 = 1)) l) clean dst a (fun h => nomatch h) free
  · obtain ⟨issuer, -, cell, sram, word⟩ := go
    have := s.issue_holds i c g (legalInt op.toNat ops) (intRegs op.toNat ops)
      (fun r s g => .ok s ((g.each r.m (fun h l => h.setReg l (opDst ops) (intResult op.toNat ops g l))).advance 8) false) issuer cell sram word ok held
    refine ⟨_, congrArg Host.Outcome.next this, ?_, OnlyArray.put _ _ _⟩
    exact State.groupOf_putGroup _ i.g g _ ((s.fetched_groupOf i c g).trans (s.issuer_some _ _ _ issuer).1) rfl rfl

/-! ### Predicates -/

/-- An operation on predicates writes the predicate that DST names. -/
theorem predIssue_completes {s : State} {i : Issue} {c : Cmd} {g : Group} {ops : BitVec 48} (go : Goes s i c g) (op : Nat)
    (clean : legalV ops = true) (dst : predNamed (opDst ops) = true) (a : predNamed (opA ops) = true) (b : op = 4 ∨ predNamed (opB ops) = true) :
    Completes s (.next (s.predIssue i op ops)) i c g 8 (fun h => WrotePred g h (g.lanes i) (opDst ops) (predOp op (g.pred (opA ops)) (g.pred (opB ops)))) := by
  have ok : (legalV ops && predNamed (opDst ops) && predNamed (opA ops) && (decide (op = 4) || predNamed (opB ops))) = true := by
    simpa [clean, dst, a] using b
  exact vector_setPred go (legal := fun _ => legalV ops && predNamed (opDst ops) && predNamed (opA ops) && (decide (op = 4) || predNamed (opB ops))) ok (pending_nil g) _ _

/-- A vote writes in its lanes whether the predicate holds in any, or in every one. -/
theorem vote_completes {s : State} {i : Issue} {c : Cmd} {g : Group} {ops : BitVec 48} (go : Goes s i c g) (clean : legalV ops = true) (dst : predNamed (opDst ops) = true)
    (a : predNamed (opA ops) = true) (mode : opMod ops ≤ 1) {v : BitVec 64}
    (val : (if (if opMod ops = 0 then decide (g.lanes i &&& g.pred (opA ops) ≠ 0) else decide (g.lanes i &&& g.pred (opA ops) = g.lanes i)) = true
      then BitVec.allOnes 64 else 0) = v) :
    Completes s (exec (.vote i ops) s) i c g 8 (fun h => WrotePred g h (g.lanes i) (opDst ops) v) := by
  rw [← val]
  exact vector_setPred go (legal := fun _ => legalV ops && predNamed (opA ops) && predNamed (opDst ops) && decide (opMod ops ≤ 1)) (by simp [clean, dst, a, mode]) (pending_nil g) _
    (fun r g => if (if opMod ops = 0 then decide (r.m &&& g.pred (opA ops) ≠ 0) else decide (r.m &&& g.pred (opA ops) = r.m)) = true then BitVec.allOnes 64 else 0)

/-- Settles O2: each instruction writes one predicate in its lanes. -/
theorem predicatesComplete : Obligations.PredicatesComplete := by
  unfold Obligations.PredicatesComplete
  intro s i c g ops go clean dst
  refine ⟨fun fmt mode a b free => ?_, fun a => ⟨fun b => ⟨?_, ?_, ?_⟩, ?_, fun mode => ?_, fun mode => ?_⟩⟩
  · exact vector_setPred go (legal := fun c => legalV ops && setpFmt (opFmt ops) && decide (opMod ops ≤ 5) && predNamed (opDst ops)
      && fmtNamed c.regCount (opFmt ops) (opA ops) && fmtNamed c.regCount (opFmt ops) (opB ops)) (by simp [clean, fmt, mode, dst, a, b]) free _ _
  · exact predIssue_completes go 1 clean dst a (.inr b)
  · exact predIssue_completes go 2 clean dst a (.inr b)
  · exact predIssue_completes go 3 clean dst a (.inr b)
  · exact predIssue_completes go 4 clean dst a (.inl rfl)
  · exact vote_completes go clean dst a (by omega) (by simp [mode])
  · exact vote_completes go clean dst a (by omega) (by simp [mode])

/-! ### BALLOT, S2V, NOP -/

/-- S2V completes with a sample of the clock counter at hand (R58). -/
theorem s2v_completes {s : State} {i : Issue} {c : Cmd} {g : Group} {ops : BitVec 48} (go : Goes s i c g) (clean : legalV ops = true) (sel : opA ops ≤ 12)
    (dst : regNamed c.regCount (opDst ops) = true) (free : g.pending [opDst ops] = []) :
    Completes s (exec (.s2v i ops) s) i c g 8 (fun h => ∃ clock, WroteReg g h (g.lanes i) (opDst ops)
      (fun l => BitVec.ofNat 32 (s2vValue ⟨i.g.la.val, c, g.lanes i⟩ g clock (opA ops) l))) := by
  change Completes s (.next (s.issue i (fun c => legalV ops && decide (opA ops ≤ 12) && regNamed c.regCount (opDst ops)) [opDst ops] _)) i c g 8 _
  rw [go.issue _ (by simp [clean, sel, dst]) free]
  obtain ⟨cohort, num, paths, -⟩ := (g.each_setReg_onlyRegs (g.lanes i) (opDst ops)
    (fun l => BitVec.ofNat 32 (s2vValue ⟨i.g.la.val, c, g.lanes i⟩ g ((s.fetched i c g).freeVal 64).1 (opA ops) l))).frame
  exact completes_ok s _ i c g _ 8 _ go.fetched_group go.mask_ne (OnlyArray.free _ _ 64) cohort num paths (fun h hregs hpreds => ⟨_, wroteReg_each hregs hpreds⟩)

/-- Settles O3: BALLOT writes a pair, S2V a register, NOP nothing. -/
theorem ballotS2vNopComplete : Obligations.BallotS2vNopComplete := by
  unfold Obligations.BallotS2vNopComplete
  intro s i c g ops go
  refine ⟨fun clean a dst free => ?_, fun clean sel dst free => s2v_completes go clean sel dst free, fun clean => ?_⟩
  · exact vector_setPair go (legal := fun c => legalV ops && predNamed (opA ops) && pairNamed c.regCount (opDst ops)) (by simp [clean, a, dst]) free _ (fun r g _ => r.m &&& g.pred (opA ops))
  · exact vector_completes s i c g (fun _ => cleanJ ops) [] (fun _ g => g) _ go clean (pending_nil g) rfl rfl rfl (fun h hregs hpreds => ⟨hregs, hpreds⟩)

end Sys2Proof.Machine
end

section
/-! SUPPORT. Floating-point instructions under the sentry (02 R53, R105, R114, R130-R132, R472): where the sentry traps, the group parks
behind the instruction; with these the statement about them. -/

namespace Sys2Proof.Machine

/-! ### Results that the sentry watches -/

section
variable {s u : State} {i : Issue} {c : Cmd} {g g' : Group} (armed : (u.array i.g.la.val).sentryArmed = (s.array i.g.la.val).sentryArmed)
  {watch causes : List (Nat × Nat)} (same : ∀ x, x ∈ watch ↔ x ∈ causes)
include armed same

theorem watched_of_quiet (quiet : Quiet s i c causes) (k fa fb fo : Nat) :
    u.watched ⟨i.g.la.val, c, g.lanes i⟩ g g' k fa fb fo watch = .ok u (g'.advance 8) false := by
  unfold State.watched
  dsimp only
  rw [armed]
  rcases quiet with off | none
  · rw [off]
  · rw [List.filter_eq_nil_iff.mpr (fun x hx => ?_)]
    · split
      · rename_i h; cases h
      · rfl
    · obtain ⟨hx, nan⟩ := List.mem_filter.mp hx
      rcases none x ((same x).mp hx) with zero | passes
      · simp [zero] at nan
      · simp [passes]

theorem watched_of_traps (traps : Traps s i c causes) (k fa fb fo : Nat) :
    ∃ f rec, u.watched ⟨i.g.la.val, c, g.lanes i⟩ g g' k fa fb fo watch = .fault (u.sentryFired i.g.la.val) (g'.advance 8).counted f rec := by
  obtain ⟨on, x, hx, nan, trap⟩ := traps
  have hit : x ∈ (watch.filter (fun x => decide (x.2 ≠ 0))).filter (fun x => sentryTraps c.sentry x.2) :=
    List.mem_filter.mpr ⟨List.mem_filter.mpr ⟨(same x).mpr hx, by simpa using nan⟩, trap⟩
  unfold State.watched
  dsimp only
  rw [armed, on]
  cases found : (watch.filter (fun x => decide (x.2 ≠ 0))).filter (fun x => sentryTraps c.sentry x.2) with
  | nil => rw [found] at hit; cases hit
  | cons t l => exact ⟨_, _, rfl⟩

end

theorem State.sentryFired_groupOf (s : State) (r : GroupRef) : (s.sentryFired r.la.val).groupOf r = s.groupOf r := by
  unfold State.sentryFired State.onArray State.groupOf State.groupAt
  rw [State.array_setArray]

/-- A watched instruction completes, or parks its group behind it; either way its results stand (R130-R132). -/
theorem watched_ends {s u : State} {i : Issue} {c : Cmd} {g g' : Group} (go : Goes s i c g) (there : u.groupOf i.g = some g) (only : OnlyArray (s.fetched i c g) u i.g.la.val)
    (armed : (u.array i.g.la.val).sentryArmed = (s.array i.g.la.val).sentryArmed) {watch causes : List (Nat × Nat)} (same : ∀ x, x ∈ watch ↔ x ∈ causes)
    (kept : g.OnlyRegs g') (k fa fb fo : Nat) {f : Group → Prop} (hf : ∀ h : Group, h.regs = g'.regs → h.preds = g'.preds → f h) :
    let o : Host.Outcome State Fault Refusal := .next (State.settle i.g.la.val c (u.watched ⟨i.g.la.val, c, g.lanes i⟩ g g' k fa fb fo watch))
    (Quiet s i c causes → Completes s o i c g 8 f)
      ∧ (Traps s i c causes → ∃ t h, o = .next t ∧ t.groupOf i.g = some h ∧ h.parks ∧ h.path.pc = g.path.pc + 8 ∧ f h) := by
  obtain ⟨cohort, num, paths, -⟩ := kept.frame
  refine ⟨fun quiet => ?_, fun traps => ?_⟩
  · rw [watched_of_quiet armed same quiet]
    exact completes_ok s u i c g g' 8 f there go.mask_ne only cohort num paths hf
  · obtain ⟨fault, rec, e⟩ := watched_of_traps (u := u) (g := g) (g' := g') armed same traps k fa fb fo
    obtain ⟨hc, hn, hregs, hpreds, -⟩ := (g'.advance_sameRun 8).trans (Group.counted_sameRun _)
    obtain ⟨st, found, parks⟩ := fault_parks ((State.sentryFired_groupOf u i.g).trans there) (hc.trans cohort) (hn.trans num) c fault rec
    rw [e]
    have current : g'.path = g.path := by unfold Group.path; rw [paths]
    exact ⟨_, _, rfl, found, parks, by rw [← current]; exact (g'.path_advance 8 (by rw [current]; exact go.mask_ne)).1, hf _ hregs hpreds⟩

/-! ### Results of a format in the registers -/

theorem Group.setRaw_fp32 (g : Group) (l r raw : Nat) : g.setRaw l r 1 raw = g.setReg l r (BitVec.ofNat 32 raw) := by
  have low : BitVec.ofNat 32 (raw % 2 ^ 32) = BitVec.ofNat 32 raw := BitVec.eq_of_toNat_eq (by simp)
  exact congrArg (g.setReg l r) low

theorem Group.setRaw_fp64 (g : Group) (l r raw : Nat) : g.setRaw l r 0 raw = g.setPair l r (BitVec.ofNat 64 raw) := rfl

/-- The end of a class 0x1 or 0x2 instruction: each lane holds its result as a code of the format. -/
theorem fpIssue_ends {s : State} {i : Issue} {c : Cmd} {g : Group} (go : Goes s i c g) (table : List FpOp) (fmt op : Nat) (ops : BitVec 48) (named : Cmd → Nat → Bool)
    (ok : legalFp table op ops (named c) = true) (free : g.pending (fpRegs table op (if fmt = 0 then 2 else 1) ops) = []) {f : Group → Prop}
    (hf : ∀ h, WroteLanes g h (g.lanes i) (fun l => g.setRaw l (opDst ops) fmt (fpLane (table.getD op .add) op fmt ops g l).1) → f h) :
    let o : Host.Outcome State Fault Refusal := .next (s.fpIssue i table fmt op ops named)
    let causes := (laneList (g.lanes i)).map (fun l => (l, (fpLane (table.getD op .add) op fmt ops g l).2))
    (Quiet s i c causes → Completes s o i c g 8 f)
      ∧ (Traps s i c causes → ∃ t h, o = .next t ∧ t.groupOf i.g = some h ∧ h.parks ∧ h.path.pc = g.path.pc + 8 ∧ f h) := by
  dsimp only
  unfold State.fpIssue
  rw [go.issue (legal := fun c => legalFp table op ops (named c)) _ ok free]
  refine watched_ends go go.fetched_group (OnlyArray.refl _ _) (s.fetched_sentryArmed i c g) (fun x => by simp) ?kept _ _ _ _ (fun h hregs hpreds => hf h ?wrote)
  case kept => exact .foldl (fun h x => h.setRaw_onlyRegs _ _ _ _) _ g
  case wrote =>
    refine WroteLanes.congr (wroteLanes_of_foldl (lane := Prod.fst) (fun x hx => ?_) ?_ (fun h x => h.setRaw_onlyRegs _ _ _ _) (fun x hx r => ?_)) hregs hpreds
    · obtain ⟨l, hl, rfl⟩ := List.mem_map.mp hx
      exact Group.ofLane_setRaw (laneList_lt hl) _ _ _
    · rw [List.map_map]; exact List.map_id _
    · obtain ⟨l, hl, rfl⟩ := List.mem_map.mp hx
      rfl

/-- The end of a class 0x3 instruction: each lane holds its two halves. -/
theorem packed16_ends {s : State} {i : Issue} {c : Cmd} {g : Group} (go : Goes s i c g) (op : BitVec 8) (ops : BitVec 48)
    (ok : legalFp packedOps op.toNat ops (regNamed c.regCount) = true) (fmt : opFmt ops = 2 ∨ opFmt ops = 3) (free : g.pending (fpRegs packedOps op.toNat 1 ops) = []) :
    let o := exec (.packed16Op i op ops) s
    let half (l : Nat) (hi : Bool) : Nat × Nat := packedHalf (packedOps.getD op.toNat .add) ops g l hi
    let causes := ((laneList (g.lanes i)).map (fun l => [(l, (half l false).2), (l, (half l true).2)])).flatten
    let f (h : Group) : Prop := WroteReg g h (g.lanes i) (opDst ops) (fun l => BitVec.ofNat 32 ((half l false).1 + 65536 * (half l true).1))
    (Quiet s i c causes → Completes s o i c g 8 f)
      ∧ (Traps s i c causes → ∃ t h, o = .next t ∧ t.groupOf i.g = some h ∧ h.parks ∧ h.path.pc = g.path.pc + 8 ∧ f h) := by
  intro o half causes f
  have run : o = .next (s.issue i (fun c => legalFp packedOps op.toNat ops (regNamed c.regCount) && decide (opFmt ops = 2 ∨ opFmt ops = 3)) (fpRegs packedOps op.toNat 1 ops) _) := rfl
  rw [run, go.issue (legal := fun c => legalFp packedOps op.toNat ops (regNamed c.regCount) && decide (opFmt ops = 2 ∨ opFmt ops = 3)) _ (by simp [ok, fmt]) free]
  refine watched_ends go go.fetched_group (OnlyArray.refl _ _) (s.fetched_sentryArmed i c g) (fun x => by simp [causes, half]) ?kept _ _ _ _
    (fun h hregs hpreds => wroteReg_of_wroteLanes ?wrote)
  case kept => exact .foldl (fun h x => h.setReg_onlyRegs _ _ _) _ g
  case wrote =>
    refine WroteLanes.congr (wroteLanes_of_foldl (lane := Prod.fst) (fun x hx => ?_) ?_ (fun h x => h.setReg_onlyRegs _ _ _) (fun x hx r => ?_)) hregs hpreds
    · obtain ⟨l, hl, rfl⟩ := List.mem_map.mp hx
      exact Group.ofLane_setReg (laneList_lt hl) _ _
    · rw [List.map_map]; exact List.map_id _
    · obtain ⟨l, hl, rfl⟩ := List.mem_map.mp hx
      rfl

/-- Settles O4: the lanes' results stand; the instruction completes, or the sentry's trap parks the group behind it. -/
theorem floatingPointComplete : Obligations.FloatingPointComplete := by
  unfold Obligations.FloatingPointComplete
  intro s i c g ops op go
  refine ⟨fun ok free => ?_, fun ok free => ?_, fun ok fmt free => packed16_ends go op ops ok fmt free⟩
  · exact fpIssue_ends go fp32Ops 1 op.toNat ops (fun c => regNamed c.regCount) ok free
      (fun h w => wroteReg_of_wroteLanes (by simpa only [Group.setRaw_fp32] using w))
  · exact fpIssue_ends go fp64Ops 0 op.toNat ops (fun c => pairNamed c.regCount) ok free
      (fun h w => wrotePair_of_wroteLanes (by simpa only [Group.setRaw_fp64] using w))

end Sys2Proof.Machine
end

section
/-! SUPPORT. An acquiring load or atomic of local store lands at once, and its acquire takes from every other load that its group awaits
the right to fill the L1: the loads awaited are then not those awaited before it. -/

namespace Sys2Proof.Machine

/-- A load of the group of `awaitingState` that a line of the pool is still to answer, and that fills the L1 with it or not. -/
def refillLoad (fill : Bool) : LoadOp :=
  ⟨0, 0, 8 + 2 * 2 ^ 36, .read, 1, [(0, 0x4000)], [], [⟨0, .pool, 128, [(0, 0)], fill, none⟩]⟩

/-- A ready group whose only lane is lane 0, awaiting `refillLoad true`. -/
def awaitingGroup : Group := ⟨0, 0, 0, 0, .ready, [⟨0, 1, none, 0⟩], 0, 0, [], [], [], [refillLoad true]⟩

/-- The running command of that group. -/
def awaitingCmd : Cmd := { Cmd.fresh 0 0 0 [] with stage := .running }

/-- The array of that group: one cohort with 128 bytes of local store. -/
def awaitingArray : ArrayState :=
  { ArrayState.idle with
    occ := some ⟨⟨0, 0⟩, 0, 0, [], true, false⟩, cohorts := [⟨0, 0, 128, 0, [], 0⟩], groups := [awaitingGroup], loadSeq := 1 }

/-- A state with one array in use, whose group awaits a load. -/
def awaitingState : State :=
  { State.reset with arr := [(0, awaitingArray)], chan := { ChanState.reset with cmds := [awaitingCmd] } }

/-- An instruction of that group under p7, its line at hand. -/
def awaitingIssue : Issue := ⟨⟨0, 0, 0⟩, 7, false, .word, .none, .none⟩

/-- The operands of format M that name v0, address 0 of local store, four bytes, and an acquire at cohort scope. -/
def acquireLocal : BitVec 48 := BitVec.ofNat 48 (255 * 2 ^ 8 + 2 * 2 ^ 36 + 2 ^ 39 + 2 ^ 44 + 2 ^ 46)

/-- The loads that the group awaits after an instruction. -/
def loadsAfter (ins : Instr) : List LoadOp :=
  match exec ins awaitingState with
  | .next t => ((t.groupOf awaitingIssue.g).map (·.loads)).getD []
  | _ => []

theorem loadsAfter_of_next {ins : Instr} {t : State} {h : Group} (run : exec ins awaitingState = .next t)
    (at_ : t.groupOf awaitingIssue.g = some h) : loadsAfter ins = h.loads := by
  simp [loadsAfter, run, at_]

theorem awaiting_goes : Goes awaitingState awaitingIssue awaitingCmd awaitingGroup := ⟨rfl, rfl, rfl, rfl, rfl⟩

theorem acquireLocal_reaches (k : AccessKind) (hk : k = .read ∨ k = .atomic) :
    (walked awaitingState awaitingIssue awaitingCmd awaitingGroup acquireLocal k).1 = [(0, .localStore 0)] := by
  obtain rfl | rfl := hk <;> decide +kernel

theorem allReach_localStore (a : Nat) : allReach [(0, .localStore a)] := by
  intro x hx
  obtain rfl := List.mem_singleton.mp hx
  exact ⟨fun _ _ => nofun, fun _ => nofun⟩

theorem loadsAfter_ld : loadsAfter (.ld awaitingIssue acquireLocal) = [refillLoad false] := by decide +kernel

theorem loadsAfter_atomic : loadsAfter (.atomic awaitingIssue .add acquireLocal) = [refillLoad false] := by decide +kernel

/-- `Loads` has the group await what it awaited before, or that and one load more; neither is the load that may not fill. -/
theorem not_loads_of_refill {ins : Instr} (after : loadsAfter ins = [refillLoad false]) {t : State} {h : Group}
    (run : exec ins awaitingState = .next t) : ¬ Loads awaitingState t awaitingIssue awaitingGroup h acquireLocal := by
  rintro ⟨at_, -, -, -, -, same | ⟨o, more, -⟩⟩
  · rw [← loadsAfter_of_next run at_, after] at same
    revert same
    decide +kernel
  · rw [← loadsAfter_of_next run at_, after] at more
    exact absurd (congrArg List.length more) (by simp [awaitingGroup])

/-- Refutes O9: a group awaits a load of the pool that would fill the L1 and then loads local store with an acquire at cohort scope. The
second load lands at once, and the acquire strikes the fill from the first: the loads awaited are neither those before nor those and one more. -/
theorem not_loadsAndStoresComplete : ¬ Obligations.LoadsAndStoresComplete := by
  unfold Obligations.LoadsAndStoresComplete
  intro holds
  obtain ⟨ld, -⟩ := holds _ _ _ _ acquireLocal awaiting_goes (by decide +kernel)
  obtain ⟨-, goesOn, -⟩ := ld (by decide +kernel) (by decide +kernel) (by decide +kernel)
  obtain ⟨t, h, run, loads, -⟩ := goesOn (by decide +kernel) (by rw [acquireLocal_reaches _ (.inl rfl)]; exact allReach_localStore 0)
  exact not_loads_of_refill loadsAfter_ld run loads

/-- Refutes O10: a group awaits a load of the pool that would fill the L1 and then adds to local store with an acquire at cohort scope. The
atomic lands at once, and the acquire strikes the fill from the first load: the loads awaited are neither those before nor those and one more. -/
theorem not_atomicsComplete : ¬ Obligations.AtomicsComplete := by
  unfold Obligations.AtomicsComplete
  intro holds
  obtain ⟨reach, -⟩ := holds _ _ _ _ acquireLocal awaiting_goes .add false _ 1 (.inl ⟨rfl, rfl, rfl, by decide +kernel⟩) (by decide +kernel) (by decide +kernel)
  obtain ⟨goesOn, -⟩ := reach (by rw [acquireLocal_reaches _ (.inr rfl)]; exact allReach_localStore 0) (by rw [acquireLocal_reaches _ (.inr rfl)]; decide +kernel)
  obtain ⟨t, h, ⟨run, loads, -⟩ | ⟨_, _, red, -⟩⟩ := goesOn (.inr (.inl (by decide +kernel)))
  · exact not_loads_of_refill loadsAfter_atomic run loads
  · exact absurd red (by decide)

end Sys2Proof.Machine
end

section
/-! SUPPORT. Illegal words (02 R57): each ends its command. -/

namespace Sys2Proof.Machine

/-- A fetched word of a reserved class or OP ends its command (R57). -/
theorem Goes.issue_reserved {s : State} {i : Issue} {c : Cmd} {g : Group} (go : Goes s i c g) {w : Word} (none : xaiDecode i w 0 = none)
    (legal : Cmd → Bool) (regs : List Nat) (run : Run → State → Group → Eff) :
    State.issue s { i with fetch := .reserved w } legal regs run = (s.fetched i c g).endCmd c 0x11 (BitVec.ofNat 32 i.g.la.val) := by
  obtain ⟨issuer, -, cell, sram, -⟩ := go
  have gone (j : Issue) : xaiDecode j w 0#64 = Option.none := (xaiDecode_eq_none_iff i j w 0).mp none
  unfold State.issue State.fetched
  rw [issuer, cell, sram]
  simp [State.cellEvent, State.sramEvent, gone]

/-- Settles O12: each class checks its word before anything else of it, and an illegal one ends the command. -/
theorem illegalEndsTheCommand : Obligations.IllegalEndsTheCommand := by
  unfold Obligations.IllegalEndsTheCommand
  intro s i c g ops w2 go
  refine ⟨fun op bad => ?integer, fun bad => ?load, fun op bad cas => ?atomic, fun bad => ?branch, fun bad => ?fence, fun bad => ?tile, fun w none j hj => ?word⟩
  case integer => exact congrArg _ (go.issue_illegal _ _ bad)
  case load =>
    refine congrArg _ (go.issue_illegal _ _ ?_)
    rw [Bool.and_eq_false_iff, Bool.and_eq_false_iff, decide_eq_false_iff_not, Nat.not_le, or_assoc]
    exact bad
  case atomic =>
    subst cas
    exact congrArg _ (go.issue_illegal _ _ bad)
  case branch => exact congrArg _ (go.issue_illegal _ _ bad)
  case fence => exact congrArg _ (go.issue_illegal _ _ bad)
  case tile => exact congrArg _ (go.issue_illegal _ _ bad)
  case word =>
    subst hj
    exact congrArg _ (go.issue_reserved none _ _ _)

end Sys2Proof.Machine
end

section
/-! SUPPORT. Residency (02 R38-R42; 03 R86, R88): the first residency of a command on an array, its cohorts and their groups, and the
patterns that it still lacks. -/

namespace Sys2Proof.Machine

/-! ### Cohorts and their groups (R38, R41) -/

/-- A group as it starts: no register and no predicate written, and one path with all lanes at the entry. -/
def Group.Fresh (cohort : Nat) (entry : Word) (g : Group) : Prop :=
  g.cohort = cohort ∧ g.regs = [] ∧ g.preds = [] ∧ g.paths = [⟨entry, BitVec.allOnes 64, none, 0⟩]

theorem Group.Fresh.reg {cohort : Nat} {entry : Word} {g : Group} (h : g.Fresh cohort entry) (l r : Nat) : g.reg l r = 0 := by
  obtain ⟨-, regs, -, -⟩ := h
  unfold Group.reg
  rw [regs]
  exact ite_self _

theorem Group.Fresh.pred {cohort : Nat} {entry : Word} {g : Group} (h : g.Fresh cohort entry) {p : Nat} (hp : p < 7) : g.pred p = 0 := by
  obtain ⟨-, -, preds, -⟩ := h
  unfold Group.pred
  rw [preds, if_neg (by omega)]
  rfl

/-- Dealing appends fresh groups. -/
theorem dealGroups_appends (cohort : Nat) (entry : Word) (gs : List Group) (n : Nat) :
    ∃ new, dealGroups cohort entry gs n = gs ++ new ∧ new.length = n ∧ ∀ g ∈ new, g.Fresh cohort entry := by
  unfold dealGroups
  induction n with
  | zero => exact ⟨[], (List.append_nil _).symm, rfl, by simp⟩
  | succ n ih =>
    obtain ⟨new, dealt, length, fresh⟩ := ih
    rw [List.range_succ, List.foldl_append, dealt, List.foldl_cons, List.foldl_nil, List.append_assoc]
    refine ⟨_, rfl, by simp [length], fun g hg => ?_⟩
    rcases List.mem_append.mp hg with old | one
    · exact fresh g old
    · rw [List.mem_singleton.mp one]
      exact ⟨rfl, rfl, rfl, rfl⟩

theorem State.makeCohort_groups (s : State) (la : Nat) (c : Cmd) (o : Occupant) (idx : Nat) :
    ((s.makeCohort la c o idx).array la).groups = dealGroups idx c.entryPc (s.array la).groups c.groups := by
  unfold State.makeCohort
  dsimp only
  rw [State.array_setArray]
  rfl

/-- Settles O13: dealing appends fresh groups; v255 and p7 are constant by their accessors. -/
theorem groupsStartZeroAtTheEntry : Obligations.GroupsStartZeroAtTheEntry := by
  unfold Obligations.GroupsStartZeroAtTheEntry
  refine ⟨fun s la o c idx occ cmd running stays kind resident fetched next room => ?_, fun g l v m w => ⟨rfl, rfl, rfl, rfl⟩⟩
  obtain ⟨new, dealt, length, fresh⟩ := dealGroups_appends idx c.entryPc (s.array la.val).groups c.groups
  have run : exec (.cohortResident la) s = .next (s.makeCohort la.val c o idx) := by
    change execCohortResident la s = _
    unfold execCohortResident
    simp only [occ, cmd]
    simp [running, stays, kind, resident, fetched, next, room]
  refine ⟨_, new, run, (s.makeCohort_groups la.val c o idx).trans dealt, length, fun g hg => ?_⟩
  obtain ⟨cohort, -, -, paths⟩ := fresh g hg
  exact ⟨cohort, (fresh g hg).reg, fun p => (fresh g hg).pred, _, paths, rfl, rfl⟩

/-! ### The first residency, and patterns (R39, R88) -/

/-- What the first residency leaves of its array (R39, R90, R121, R128, R132). -/
theorem State.firstResidency_array (s : State) (la : Nat) (c : Cmd) (o : Occupant) (args : List Byte) :
    (s.firstResidency la c o args).array la = { s.array la with
      occ := some { o with resident := true, fetching := c.patterns.filter (fun r => !(s.array la).hasPattern c.part r) }
      l1 := [], acc := [], accFmt := [], gens := [], counts := .zero, sentryArmed := decide (c.sentry ≠ 0), streams := [], args := args } := by
  unfold State.firstResidency
  dsimp only
  split
  · rw [State.array_setCmd', State.array_setArray]
  · rw [State.array_setArray]

section
variable {s : State} {la : Fin 384} {o : Occupant} {c : Cmd} (occ : (s.array la.val).occ = some o) (cmd : s.occupantCmd la.val = some c)
  (running : c.stage = .running) (stays : o.draining = false)
include occ cmd running stays

/-- COHORT_RESIDENT of a command new on its array goes as the read of its arguments does. -/
theorem exec_cohortResident_first (kind : c.kind ≠ 5) (new : o.resident = false) {k : Asked} {u : State} (read : s.argRead c = (k, u)) :
    (∀ b, k = .ok b → exec (.cohortResident la) s = .next (u.firstResidency la.val c o b)) ∧ (k = .wait → exec (.cohortResident la) s = .next u)
      ∧ ∀ n va, k = .poison n va → exec (.cohortResident la) s = .next (u.consumePoison c n (unitId 1 ((u.slotOf la.val).getD 0))) := by
  have run : exec (.cohortResident la) s = execCohortResident la s := rfl
  unfold execCohortResident at run
  simp only [occ, cmd, running, stays, kind, new] at run
  refine ⟨fun b hk => ?_, fun hk => ?_, fun n va hk => ?_⟩ <;> subst hk <;> rw [run] <;> simp [read]

/-- PATTERN_FETCH_COMPLETE of a listed slot goes as the read and the validation of its descriptor do. -/
theorem exec_patternFetch {slot : Fin 4} {r : PatRef} (listed : o.fetching.find? (fun r => decide (r.slot = slot)) = some r) {k : PatFetch} {u : State}
    (fetched : s.fetchPattern c r.addr.toNat = (k, u)) :
    (∀ p n, k = .ok p n → exec (.patternFetchComplete la slot) s = .next ((u.putSlot la.val slot ⟨p, r.id, c.part.val⟩).onArray la.val
        (fun a => { a with occ := some { o with fetching := o.fetching.filter (fun x => decide (x ≠ r)) } })))
      ∧ (k = .refused → exec (.patternFetchComplete la slot) s = .next (u.endCmd c 0x14 (BitVec.ofNat 32 la.val)))
      ∧ (∀ q va, k = .fault q va → exec (.patternFetchComplete la slot) s = .next (u.endCmd c 0x14 (BitVec.ofNat 32 la.val)))
      ∧ (∀ n va, k = .poison n va → exec (.patternFetchComplete la slot) s = .next (u.consumePoison c n (unitId 1 ((u.slotOf la.val).getD 0))))
      ∧ (k = .wait → exec (.patternFetchComplete la slot) s = .next u) := by
  have run : exec (.patternFetchComplete la slot) s = execPatternFetchComplete la slot s := rfl
  unfold execPatternFetchComplete at run
  simp only [occ, cmd, listed] at run
  rw [if_neg (by simp [running, stays]), fetched] at run
  refine ⟨fun p n hk => ?_, fun hk => ?_, fun q va hk => ?_, fun n va hk => ?_, fun hk => ?_⟩ <;> subst hk <;> exact run

end

/-- Settles O14: the first residency and each outcome of a pattern's fetch. -/
theorem residencyEventsComplete : Obligations.ResidencyEventsComplete := by
  unfold Obligations.ResidencyEventsComplete
  intro s la o c occ cmd running stays
  refine ⟨fun kind new => ⟨fun b u read => ?first, fun u read => ?waits, fun n va u read => ?poison⟩, fun slot r listed k u fetched => ?pattern⟩
  case first =>
    have run := (exec_cohortResident_first occ cmd running stays kind new read).1 b rfl
    refine ⟨_, { o with resident := true, fetching := c.patterns.filter (fun r => !(u.array la.val).hasPattern c.part r) }, run, ?_⟩
    rw [State.firstResidency_array]
    exact ⟨rfl, rfl, rfl, rfl, rfl, rfl, rfl, rfl, rfl⟩
  case waits => exact (exec_cohortResident_first occ cmd running stays kind new read).2.1 rfl
  case poison => exact (exec_cohortResident_first occ cmd running stays kind new read).2.2 n va rfl
  case pattern =>
    obtain ⟨valid, others⟩ := exec_patternFetch occ cmd running stays listed fetched
    refine ⟨fun p n hk => ?_, others⟩
    refine ⟨_, { o with fetching := o.fetching.filter (fun x => decide (x ≠ r)) }, valid p n hk, ?_, fun q hq => ?_, ?_, ?_, fun q hq => ?_, (OnlyArray.on u _ _).trans (OnlyArray.on _ _ _)⟩
    · simp [State.onArray, State.putSlot]
    · simp [State.onArray, State.putSlot, Tbl.get_set_ne _ _ _ _ _ hq]
    · rw [State.onArray, State.array_setArray]
    · simp
    · exact List.mem_of_mem_filter hq

end Sys2Proof.Machine
end

section
/-! SUPPORT. Control transfers (02 R59, R60): how a path splits, and where its lanes go; with these the statement about branches. -/

namespace Sys2Proof.Machine

/-! ### A path that splits -/

theorem Group.splitOff_sameRun (g : Group) (m : BitVec 64) (f : Path → Path) : g.SameRun (g.splitOff m f) := by
  unfold Group.splitOff
  split
  · exact .refl g
  · dsimp only; split <;> exact .refl g

/-- The lanes split off are a path of their own, changed by `f`. -/
theorem Group.splitOff_mem {g : Group} (live : g.path.mask ≠ 0) (m : BitVec 64) (f : Path → Path) :
    ∃ st, { f { g.path with mask := m, stamp := g.issues } with stamp := st } ∈ (g.splitOff m f).paths := by
  unfold Group.splitOff
  rw [Group.paths_eq live]
  dsimp only
  split
  · exact ⟨_, List.mem_cons_self⟩
  · exact ⟨_, List.mem_cons_of_mem _ List.mem_cons_self⟩

/-- Lanes that are left over stay current, at the next instruction. -/
theorem Group.splitOff_rest {g : Group} (live : g.path.mask ≠ 0) {m : BitVec 64} (rest : g.path.mask &&& ~~~m ≠ 0) (f : Path → Path) :
    (g.splitOff m f).path = { g.path with mask := g.path.mask &&& ~~~m, pc := g.path.pc + 8 } := by
  have paths := Group.paths_eq live
  unfold Group.splitOff
  rw [paths]
  dsimp only
  rw [if_neg rest]
  rfl

/-! ### Direct branches (R59) -/

/-- A direct branch of the participating lanes has ended: they are on a path at the target, and lanes left over stay current. -/
def Branched (s t : State) (i : Issue) (c : Cmd) (g : Group) (target : Word) (f : Group → Prop) : Prop :=
  ∃ h, t.groupOf i.g = some h ∧ OnlyArray (s.fetched i c g) t i.g.la.val ∧ f h ∧ (∃ p ∈ h.paths, p.pc = target ∧ p.mask &&& g.lanes i = g.lanes i)
    ∧ (g.path.mask &&& ~~~(g.lanes i) ≠ 0 → h.path.pc = g.path.pc + 8 ∧ h.path.mask = g.path.mask &&& ~~~(g.lanes i))

/-- The end of a direct branch of lanes, some of whose registers may have been written. -/
theorem branch_ends {s : State} {i : Issue} {c : Cmd} {g g1 : Group} (go : Goes s i c g) (some' : g.lanes i ≠ 0) (kept : g.OnlyRegs g1) (target : Word)
    {f : Group → Prop} (hf : ∀ h : Group, h.regs = g1.regs → h.preds = g1.preds → f h) :
    Branched s (State.settle i.g.la.val c (.ok (s.fetched i c g) (g1.branch (g.lanes i) target).1 (g1.branch (g.lanes i) target).2)) i c g target f := by
  obtain ⟨cohort, num, paths, -⟩ := kept.frame
  have current : g1.path = g.path := by unfold Group.path; rw [paths]
  have live : g1.path.mask ≠ 0 := current ▸ go.mask_ne
  have split : g1.branch (g.lanes i) target = (g1.splitOff (g.lanes i) (fun q => { q with pc := target }),
      decide (g.path.mask &&& ~~~(g.lanes i) = 0) && decide (target.toNat ≤ g.path.pc.toNat)) := by
    unfold Group.branch; rw [if_neg some', current]
  rw [split]
  obtain ⟨st, taken⟩ := Group.splitOff_mem live (g.lanes i) (fun q => { q with pc := target })
  obtain ⟨cohort', num', regs, preds, -⟩ := g1.splitOff_sameRun (g.lanes i) (fun q => { q with pc := target })
  obtain ⟨found, only, -⟩ := settles (c := c) go.fetched_group (cohort'.trans cohort) (num'.trans num) taken some'
    (decide (g.path.mask &&& ~~~(g.lanes i) = 0) && decide (target.toNat ≤ g.path.pc.toNat))
  obtain ⟨-, -, regs', preds', -⟩ := Group.behind_sameRun (g1.splitOff (g.lanes i) (fun q => { q with pc := target }))
    (decide (g.path.mask &&& ~~~(g.lanes i) = 0) && decide (target.toNat ≤ g.path.pc.toNat))
  obtain ⟨p, hp, pc, -, mask⟩ := Group.behind_carries taken some' (decide (g.path.mask &&& ~~~(g.lanes i) = 0) && decide (target.toNat ≤ g.path.pc.toNat))
  refine ⟨_, found, only, hf _ (regs'.trans regs) (preds'.trans preds), ⟨p, hp, pc, (BitVec.and_comm _ _).trans mask⟩, fun rest => ?_⟩
  have stays := Group.splitOff_rest live (current ▸ rest) (fun q => { q with pc := target })
  rw [current] at stays
  rw [decide_eq_false rest, Bool.false_and]
  change (g1.splitOff (g.lanes i) (fun q => { q with pc := target })).path.pc = _ ∧ (g1.splitOff (g.lanes i) (fun q => { q with pc := target })).path.mask = _
  rw [stays]
  exact ⟨rfl, rfl⟩

/-! ### Indirect branches (R53, R59) -/

/-- A list of targets sends a lane somewhere. -/
def SendsTo (ts : List (Word × BitVec 64)) (l : Nat) (t : Word) : Prop := ∃ x ∈ ts, x.1 = t ∧ x.2.getLsbD l = true

theorem sendsTo_addTarget (t : Word) {m : BitVec 64} {l : Nat} (on : m.getLsbD l = true) (ts : List (Word × BitVec 64)) : SendsTo (addTarget t m ts) l t := by
  induction ts with
  | nil => exact ⟨_, List.mem_cons_self, rfl, on⟩
  | cons x ts ih =>
    obtain ⟨u, k⟩ := x
    unfold addTarget
    split
    · rename_i same
      exact ⟨_, List.mem_cons_self, same.symm, by simp [on]⟩
    · split
      · exact ⟨_, List.mem_cons_self, rfl, on⟩
      · obtain ⟨y, hy, more⟩ := ih
        exact ⟨y, List.mem_cons_of_mem _ hy, more⟩

theorem SendsTo.addTarget {ts : List (Word × BitVec 64)} {l : Nat} {u : Word} (h : SendsTo ts l u) (t : Word) (m : BitVec 64) : SendsTo (addTarget t m ts) l u := by
  induction ts with
  | nil => obtain ⟨_, hx, -⟩ := h; cases hx
  | cons x ts ih =>
    obtain ⟨v, k⟩ := x
    obtain ⟨y, hy, pc, on⟩ := h
    unfold Machine.addTarget
    split
    · rcases List.mem_cons.mp hy with rfl | later
      · exact ⟨_, List.mem_cons_self, pc, by simp [show k.getLsbD l = true from on]⟩
      · exact ⟨y, List.mem_cons_of_mem _ later, pc, on⟩
    · split
      · exact ⟨y, List.mem_cons_of_mem _ hy, pc, on⟩
      · rcases List.mem_cons.mp hy with rfl | later
        · exact ⟨_, List.mem_cons_self, pc, on⟩
        · obtain ⟨z, hz, more⟩ := ih ⟨y, later, pc, on⟩
          exact ⟨z, List.mem_cons_of_mem _ hz, more⟩

/-- The targets of the lanes of a mask, each with its lanes. -/
def Group.targets (g : Group) (m : BitVec 64) (reg : Nat) : List (Word × BitVec 64) :=
  (laneList m).foldl (fun l x => addTarget (g.pair x reg) (1#64 <<< x) l) []

theorem sendsTo_foldl (dest : Nat → Word) {ls : List Nat} {l : Nat} {ts : List (Word × BitVec 64)} (hl : l < 64) (h : l ∈ ls ∨ SendsTo ts l (dest l)) :
    SendsTo (ls.foldl (fun ts x => addTarget (dest x) (1#64 <<< x) ts) ts) l (dest l) := by
  induction ls generalizing ts with
  | nil =>
    rcases h with h | h
    · cases h
    · exact h
  | cons a ls ih =>
    refine ih ?_
    rcases h with h | h
    · rcases List.mem_cons.mp h with rfl | later
      · exact .inr (sendsTo_addTarget _ (by simp [hl]) _)
      · exact .inl later
    · exact .inr (h.addTarget _ _)

theorem Group.targets_sendsTo (g : Group) {m : BitVec 64} (reg : Nat) {l : Nat} (on : m.getLsbD l = true) : SendsTo (g.targets m reg) l (g.pair l reg) :=
  sendsTo_foldl (fun x => g.pair x reg) (BitVec.lt_of_getLsbD on) (.inl ((mem_laneList m l).mpr on))

theorem Group.indirect_sameRun (g : Group) (m : BitVec 64) (reg : Nat) : g.SameRun (g.indirect m reg).1 := by
  unfold Group.indirect
  dsimp only
  split
  · exact g.advance_sameRun 8
  · exact .refl g
  · exact .refl g

/-- Each target has a path. -/
theorem Group.indirect_mem {g : Group} {m : BitVec 64} {reg : Nat} {x : Word × BitVec 64} (hx : x ∈ g.targets m reg) :
    ∃ st, (⟨x.1, x.2, none, st⟩ : Path) ∈ (g.indirect m reg).1.paths := by
  unfold Group.targets at hx
  unfold Group.indirect
  dsimp only
  generalize (laneList m).foldl _ [] = ts at hx
  match ts with
  | [] => cases hx
  | [(t, k)] =>
    rw [List.mem_singleton] at hx
    subst hx
    exact ⟨_, List.mem_append_right _ List.mem_cons_self⟩
  | (t, k) :: y :: l =>
    rcases List.mem_cons.mp hx with rfl | later
    · exact ⟨_, List.mem_append_left _ (List.mem_append_left _ List.mem_cons_self)⟩
    · exact ⟨g.issues, List.mem_append_left _ (List.mem_append_left _ (List.mem_cons_of_mem _ (List.mem_map.mpr ⟨x, later, rfl⟩)))⟩

theorem lanesWhere_bit (f : Nat → Bool) (ls : List Nat) (x : BitVec 64) {k : Nat} (hk : k < 64) :
    (ls.foldl (fun x l => if f l then x ||| (1#64 <<< l) else x) x).getLsbD k = (x.getLsbD k || (decide (k ∈ ls) && f k)) := by
  induction ls generalizing x with
  | nil => simp
  | cons a ls ih =>
    rw [List.foldl_cons, ih]
    by_cases same : k = a
    · subst same
      cases f k <;> simp [hk]
    · have off : (1#64 <<< a).getLsbD k = false := by
        simp only [BitVec.getLsbD_shiftLeft, BitVec.getLsbD_one]
        simp; omega
      cases f a <;> simp [same, off]

theorem getLsbD_lanesWhere (m : BitVec 64) (f : Nat → Bool) {k : Nat} (hk : k < 64) : (lanesWhere m f).getLsbD k = (m.getLsbD k && f k) := by
  unfold lanesWhere
  rw [lanesWhere_bit f _ _ hk]
  simp [mem_laneList]

theorem lanesWhere_eq_zero {m : BitVec 64} {f : Nat → Bool} (none : ∀ l, m.getLsbD l = true → f l = false) : lanesWhere m f = 0 := by
  refine BitVec.eq_of_getLsbD_eq (fun k hk => ?_)
  rw [getLsbD_lanesWhere m f hk]
  cases on : m.getLsbD k
  · simp
  · simp [none k on]

theorem lanesWhere_ne_zero {m : BitVec 64} {f : Nat → Bool} {l : Nat} (on : m.getLsbD l = true) (holds : f l = true) : lanesWhere m f ≠ 0 := by
  intro zero
  have := getLsbD_lanesWhere m f (BitVec.lt_of_getLsbD on)
  rw [zero, on, holds] at this
  simp at this

section
variable {s : State} {i : Issue} {c : Cmd} {g : Group} {ops : BitVec 48} (go : Goes s i c g) (clean : cleanJ ops = true)
  (pair : pairNamed c.regCount (opTarget ops) = true) (free : g.pending (regSpan (opTarget ops) 2) = [])
include go clean pair free

theorem indirectIssue_none (none : g.lanes i = 0) : Completes s (.next (s.indirectIssue i ops)) i c g 8 (fun h => h.regs = g.regs ∧ h.preds = g.preds) := by
  unfold State.indirectIssue
  rw [go.issue (legal := fun c => cleanJ ops && pairNamed c.regCount (opTarget ops)) _ (by simp [clean, pair]) free, if_pos none]
  exact completes_ok s _ i c g g 8 _ go.fetched_group go.mask_ne (OnlyArray.refl _ _) rfl rfl rfl (fun h hregs hpreds => ⟨hregs, hpreds⟩)

theorem indirectIssue_goes (some' : g.lanes i ≠ 0) (aligned : ∀ l, (g.lanes i).getLsbD l = true → (g.pair l (opTarget ops)).toNat % 8 = 0) :
    s.indirectIssue i ops = State.settle i.g.la.val c (.ok (s.fetched i c g) (g.indirect (g.lanes i) (opTarget ops)).1 (g.indirect (g.lanes i) (opTarget ops)).2) := by
  unfold State.indirectIssue
  rw [go.issue (legal := fun c => cleanJ ops && pairNamed c.regCount (opTarget ops)) _ (by simp [clean, pair]) free, if_neg some']
  dsimp only
  rw [lanesWhere_eq_zero (fun l on => by simp [aligned l on]), if_neg (fun h => h rfl)]

omit clean pair free in
/-- The end of an indirect branch: each lane is on a path at the address in its pair. -/
theorem indirect_ends {reg : Nat} (some' : g.lanes i ≠ 0) :
    ∃ h, (State.settle i.g.la.val c (.ok (s.fetched i c g) (g.indirect (g.lanes i) reg).1 (g.indirect (g.lanes i) reg).2)).groupOf i.g = some h
      ∧ OnlyArray (s.fetched i c g) (State.settle i.g.la.val c (.ok (s.fetched i c g) (g.indirect (g.lanes i) reg).1 (g.indirect (g.lanes i) reg).2)) i.g.la.val
      ∧ h.regs = g.regs ∧ h.preds = g.preds ∧ ∀ l, (g.lanes i).getLsbD l = true → ∃ p ∈ h.paths, p.pc = g.pair l reg ∧ p.mask.getLsbD l = true := by
  obtain ⟨cohort, num, regs, preds, -⟩ := g.indirect_sameRun (g.lanes i) reg
  have path {l : Nat} (on : (g.lanes i).getLsbD l = true) : ∃ p ∈ (g.indirect (g.lanes i) reg).1.paths, p.pc = g.pair l reg ∧ p.mask.getLsbD l = true := by
    obtain ⟨x, hx, pc, bit⟩ := g.targets_sendsTo reg on
    obtain ⟨st, hp⟩ := Group.indirect_mem hx
    exact ⟨_, hp, pc, bit⟩
  generalize g.indirect (g.lanes i) reg = gone at cohort num regs preds path
  obtain ⟨g', sw⟩ := gone
  obtain ⟨-, -, regs', preds', -⟩ := Group.behind_sameRun g' sw
  have lanes {m : BitVec 64} {l : Nat} (bit : m.getLsbD l = true) : m ≠ 0 := by rintro rfl; simp at bit
  obtain ⟨k, on⟩ : ∃ l, (g.lanes i).getLsbD l = true := by
    by_contra none
    exact some' (BitVec.eq_of_getLsbD_eq (fun l _ => by simpa using fun on => none ⟨l, on⟩))
  obtain ⟨p, hp, -, bit⟩ := path on
  obtain ⟨found, only, -⟩ := settles (c := c) go.fetched_group cohort num hp (lanes bit) sw
  refine ⟨_, found, only, regs'.trans regs, preds'.trans preds, fun l on => ?_⟩
  obtain ⟨p, hp, pc, bit⟩ := path on
  obtain ⟨q, hq, pc', -, mask⟩ := Group.behind_carries hp (lanes bit) sw
  refine ⟨q, hq, pc'.trans pc, ?_⟩
  rw [← mask, BitVec.getLsbD_and, Bool.and_eq_true] at bit
  exact bit.2

/-- Aligned targets: each lane is on a path at the address in its pair. -/
theorem indirectIssue_aligned (some' : g.lanes i ≠ 0) (aligned : ∀ l, (g.lanes i).getLsbD l = true → (g.pair l (opTarget ops)).toNat % 8 = 0) :
    ∃ t h, (.next (s.indirectIssue i ops) : Host.Outcome State Fault Refusal) = .next t ∧ t.groupOf i.g = some h ∧ OnlyArray (s.fetched i c g) t i.g.la.val
      ∧ h.regs = g.regs ∧ h.preds = g.preds ∧ ∀ l, (g.lanes i).getLsbD l = true → ∃ p ∈ h.paths, p.pc = g.pair l (opTarget ops) ∧ p.mask.getLsbD l = true := by
  obtain ⟨h, ends⟩ := indirect_ends go some'
  exact ⟨_, h, congrArg _ (indirectIssue_goes go clean pair free some' aligned), ends⟩

/-- A target that is not aligned parks the group. -/
theorem indirectIssue_misaligned {l : Nat} (on : (g.lanes i).getLsbD l = true) (bad : (g.pair l (opTarget ops)).toNat % 8 ≠ 0) :
    ∃ t h, (.next (s.indirectIssue i ops) : Host.Outcome State Fault Refusal) = .next t ∧ t.groupOf i.g = some h ∧ h.parks ∧ h.path.pc = g.path.pc ∧ h.regs = g.regs := by
  have some' : g.lanes i ≠ 0 := by rintro zero; simp [zero] at on
  unfold State.indirectIssue
  rw [go.issue (legal := fun c => cleanJ ops && pairNamed c.regCount (opTarget ops)) _ (by simp [clean, pair]) free, if_neg some']
  dsimp only
  rw [if_pos (lanesWhere_ne_zero on (by simpa using bad))]
  obtain ⟨st, found, parks⟩ := fault_parks go.fetched_group (h := g) rfl rfl c _ none
  exact ⟨_, _, rfl, found, parks, rfl, rfl⟩

end

/-- Lanes that write a pair with one value. -/
theorem wrotePair_each {g h : Group} {m : BitVec 64} {d : Nat} {v : Word} (regs : h.regs = (g.each m (fun k l => k.setPair l d v)).regs)
    (preds : h.preds = (g.each m (fun k l => k.setPair l d v)).preds) : WrotePair g h m d (fun _ => v) := by
  have wrote : WroteLanes g (g.each m (fun k l => k.setPair l d v)) m (fun l => g.setPair l d v) :=
    wroteLanes_of_foldl (lane := id) (fun l hl => Group.ofLane_setPair (laneList_lt hl) d _) (List.map_id _) (fun h l => h.setPair_onlyRegs l d _) (fun _ _ _ => rfl)
  exact wrotePair_of_wroteLanes (v := fun _ => v) (wrote.congr regs preds)

section
variable {s : State} {i : Issue} {c : Cmd} {g : Group} {ops : BitVec 48} (go : Goes s i c g) (clean : cleanJ ops = true)
include go clean

theorem exec_bra : exec (.bra i ops) s = .next (State.settle i.g.la.val c (.ok (s.fetched i c g) (g.branch (g.lanes i) (g.target ops)).1 (g.branch (g.lanes i) (g.target ops)).2)) :=
  congrArg _ (go.issue (legal := fun _ => cleanJ ops) _ clean (pending_nil g))

theorem exec_call (pair : pairNamed c.regCount (opTarget ops) = true) (free : g.pending (regSpan (opTarget ops) 2) = []) :
    exec (.call i ops) s = .next (State.settle i.g.la.val c (.ok (s.fetched i c g)
      ((g.each (g.lanes i) (fun h l => h.setPair l (opTarget ops) (g.path.pc + 8))).branch (g.lanes i) (g.target ops)).1
      ((g.each (g.lanes i) (fun h l => h.setPair l (opTarget ops) (g.path.pc + 8))).branch (g.lanes i) (g.target ops)).2)) :=
  congrArg _ (go.issue (legal := fun c => cleanJ ops && pairNamed c.regCount (opTarget ops)) _ (by simp [clean, pair]) free)

end

/-- Settles O6: direct branches split the path; indirect ones make a path for each target, or park the group. -/
theorem branchesComplete : Obligations.BranchesComplete := by
  unfold Obligations.BranchesComplete
  intro s i c g ops go clean
  refine ⟨fun none => ⟨?braNone, fun pair free => ⟨?callNone, ?_, ?_⟩⟩, fun some' => ⟨?bra, fun pair free => ⟨?call, fun aligned => ⟨?_, ?_⟩, fun l on bad => ⟨?_, ?_⟩⟩⟩⟩
  case braNone =>
    rw [exec_bra go clean, none]
    exact completes_ok s _ i c g g 8 _ go.fetched_group go.mask_ne (OnlyArray.refl _ _) rfl rfl rfl (fun h hregs hpreds => ⟨hregs, hpreds⟩)
  case callNone =>
    rw [exec_call go clean pair free, none]
    exact completes_ok s _ i c g g 8 _ go.fetched_group go.mask_ne (OnlyArray.refl _ _) rfl rfl rfl (fun h hregs hpreds => ⟨hregs, hpreds⟩)
  case bra =>
    obtain ⟨h, found, only, ⟨regs, preds⟩, more⟩ := branch_ends go some' (.refl g) (g.target ops) (f := fun h => h.regs = g.regs ∧ h.preds = g.preds) (fun _ r p => ⟨r, p⟩)
    exact ⟨_, h, exec_bra go clean, found, only, regs, preds, more⟩
  case call =>
    obtain ⟨h, more⟩ := branch_ends go some' (g.each_onlyRegs (g.lanes i) (fun h l => h.setPair_onlyRegs l (opTarget ops) (g.path.pc + 8))) (g.target ops)
      (fun _ regs preds => wrotePair_each regs preds)
    exact ⟨_, h, exec_call go clean pair free, more⟩
  · exact indirectIssue_none go clean pair free none
  · exact indirectIssue_none go clean pair free none
  · exact indirectIssue_aligned go clean pair free some' aligned
  · exact indirectIssue_aligned go clean pair free some' aligned
  · exact indirectIssue_misaligned go clean pair free on bad
  · exact indirectIssue_misaligned go clean pair free on bad

end Sys2Proof.Machine
end

section
/-! SUPPORT. What an acquire and a barrier leave of a group and of its cohort (02 R63, R64, R172, R203). -/

namespace Sys2Proof.Machine

/-! ### What holds of a resident group -/

/-- A group of a reference. -/
def Group.named (g : Group) (r : GroupRef) : Prop := g.cohort = r.cohort ∧ g.num = r.group

/-- The array of a reference lists its group, and what it lists under these numbers has a property. -/
def State.Holding (s : State) (r : GroupRef) (P : Group → Prop) : Prop :=
  (∃ g ∈ (s.array r.la.val).groups, g.named r) ∧ ∀ g ∈ (s.array r.la.val).groups, g.named r → P g

section
variable {s t : State} {r : GroupRef} {P Q : Group → Prop}

theorem State.Holding.groupOf (h : s.Holding r P) : ∃ g, s.groupOf r = some g ∧ g.named r ∧ P g := by
  obtain ⟨⟨g, hg, name⟩, all⟩ := h
  cases found : s.groupOf r with
  | none => exact absurd (decide_eq_true (p := g.cohort = r.cohort ∧ g.num = r.group) name) (List.find?_eq_none.mp found g hg)
  | some k =>
    have name := s.groupOf_names r k found
    exact ⟨k, rfl, name, all k (List.mem_of_find?_eq_some found) name⟩

theorem State.listed_of_groupOf {g : Group} (h : s.groupOf r = some g) : ∃ g ∈ (s.array r.la.val).groups, g.named r :=
  ⟨g, List.mem_of_find?_eq_some h, s.groupOf_names r g h⟩

theorem State.Holding.of_groups (same : (t.array r.la.val).groups = (s.array r.la.val).groups) (h : s.Holding r P) : t.Holding r P := by
  unfold State.Holding at *
  rw [same]
  exact h

theorem State.listed_putGroup (listed : ∃ g ∈ (s.array r.la.val).groups, g.named r) (h : Group) : ∃ g ∈ ((s.putGroup r.la.val h).array r.la.val).groups, g.named r := by
  obtain ⟨g, hg, name⟩ := listed
  rw [State.putGroup_array]
  refine ⟨_, List.mem_map_of_mem hg, ?_⟩
  split
  · rename_i same
    exact ⟨same.1.symm.trans name.1, same.2.symm.trans name.2⟩
  · exact name

/-- What a replaced group has, its reference holds. -/
theorem State.holding_putGroup (listed : ∃ g ∈ (s.array r.la.val).groups, g.named r) {h : Group} (name : h.named r) (has : P h) : (s.putGroup r.la.val h).Holding r P := by
  refine ⟨State.listed_putGroup listed h, fun g hg named => ?_⟩
  rw [State.putGroup_array] at hg
  obtain ⟨x, -, rfl⟩ := List.mem_map.mp hg
  split
  · exact has
  · rename_i other
    rw [if_neg other] at named
    exact absurd ⟨named.1.trans name.1.symm, named.2.trans name.2.symm⟩ other

theorem State.Holding.putGroup (holds : s.Holding r P) {h : Group} (has : h.named r → P h) : (s.putGroup r.la.val h).Holding r P := by
  refine ⟨State.listed_putGroup holds.1 h, fun g hg named => ?_⟩
  rw [State.putGroup_array] at hg
  obtain ⟨x, hx, rfl⟩ := List.mem_map.mp hg
  split
  · rename_i same
    rw [if_pos same] at named
    exact has named
  · rename_i other
    rw [if_neg other] at named
    exact holds.2 x hx named

end

/-! ### Acquires (R172, R203) -/

/-- What an acquire leaves of its array: no line of data in the L1, and no load that will fill it. -/
theorem State.acquire_array (s : State) (la : Nat) (p : Fin 16) (scope : Nat) :
    (s.acquire la p scope).array la = if scope = 0 then s.array la else ArrayState.noFill { s.array la with l1 := (s.array la).l1.filter (·.instr) } (fun _ => true) := by
  unfold State.acquire
  split
  · rfl
  · dsimp only
    split
    · unfold State.array
      rw [State.raiseEpoch_arr]
      exact State.array_setArray s la _
    · exact State.array_setArray s la _

theorem State.acquire_cohorts (s : State) (la : Nat) (p : Fin 16) (scope : Nat) : ((s.acquire la p scope).array la).cohorts = (s.array la).cohorts := by
  rw [State.acquire_array]; split <;> rfl

/-- An acquire changes nothing of a group but its loads. -/
theorem State.Holding.acquire {s : State} {r : GroupRef} {P : Group → Prop} (loads : ∀ g l, P g → P { g with loads := l }) (h : s.Holding r P) (p : Fin 16) (scope : Nat) :
    (s.acquire r.la.val p scope).Holding r P := by
  unfold State.Holding
  rw [State.acquire_array]
  split
  · exact h
  · obtain ⟨⟨g, hg, name⟩, all⟩ := h
    refine ⟨⟨_, List.mem_map_of_mem hg, name⟩, fun k hk named => ?_⟩
    obtain ⟨x, hx, rfl⟩ := List.mem_map.mp hk
    exact loads x _ (all x hx named)

/-! ### Barriers (R63, R64) -/

theorem Barrier.arrive_phase (count exited fuel n : Nat) (b : Barrier) : b.phase ≤ (Barrier.arrive count exited fuel n b).phase := by
  induction fuel generalizing n b with
  | zero => exact Nat.le_refl _
  | succ fuel ih =>
    cases n with
    | zero => exact Nat.le_refl _
    | succ n =>
      rw [Barrier.arrive]
      · split
        · exact Nat.le_trans (Nat.le_succ _) (ih (n + 1 - max 1 (b.expected.getD count - exited - b.arrived)) ⟨b.phase + 1, 0, none⟩)
        · exact Nat.le_refl _
      · exact nofun

/-- A path whose wait, if it is for an earlier phase of a barrier, has ended. -/
def Path.wake (p : Path) (b : Fin 16) (phase : Nat) : Path := { p with wait := p.wait.filter (fun w => !decide (w.b = b ∧ w.phase < phase)) }

/-- The release of a ready group takes waits from its paths and nothing more. -/
theorem Group.release_ready {g : Group} (ready : g.st = .ready) (b : Fin 16) (phase : Nat) :
    (g.release b phase).2 = { g with paths := g.paths.map (fun p => p.wake b phase) } := by
  unfold Group.release
  dsimp only
  rw [if_pos (.inr (by rw [ready]; exact nofun))]
  rfl

theorem Group.release_named (g : Group) (b : Fin 16) (phase : Nat) : (g.release b phase).2.cohort = g.cohort ∧ (g.release b phase).2.num = g.num := by
  unfold Group.release
  dsimp only
  split
  · exact ⟨rfl, rfl⟩
  · split
    · exact ⟨rfl, rfl⟩
    · obtain ⟨cohort, num, -⟩ := Group.switch_sameRun { g with paths := g.paths.map (fun p => p.wake b phase) }
      exact ⟨cohort, num⟩

section
variable {s : State} {r : GroupRef} {P Q : Group → Prop} (p : Fin 16) (b : Fin 16) (phase : Nat)

/-- The acquires of the waits that a wake ends. -/
def State.wakeAcquires (s : State) (la : Nat) (p : Fin 16) (hit : List BarrierWait) : State :=
  hit.foldl (fun s w => if w.acquire then s.acquire la p w.scope else s) s

theorem State.Holding.wakeAcquires (loads : ∀ g l, P g → P { g with loads := l }) (h : s.Holding r P) (hit : List BarrierWait) : (s.wakeAcquires r.la.val p hit).Holding r P :=
  List.foldlRecOn (motive := fun t : State => t.Holding r P) hit _ h (fun t ht w _ => by
    split
    · exact ht.acquire loads p w.scope
    · exact ht)

theorem State.listed_wakeAcquires (h : ∃ g ∈ (s.array r.la.val).groups, g.named r) (hit : List BarrierWait) :
    ∃ g ∈ ((s.wakeAcquires r.la.val p hit).array r.la.val).groups, g.named r :=
  (State.Holding.wakeAcquires (P := fun _ => True) p (fun _ _ _ => trivial) ⟨h, fun _ _ _ => trivial⟩ hit).1

theorem State.wakeAcquires_cohorts (s : State) (la : Nat) (hit : List BarrierWait) : ((s.wakeAcquires la p hit).array la).cohorts = (s.array la).cohorts :=
  List.foldlRecOn (motive := fun t : State => (t.array la).cohorts = (s.array la).cohorts) hit _ rfl (fun t ht w _ => by
    split
    · exact (t.acquire_cohorts la p w.scope).trans ht
    · exact ht)

/-- A wake goes through the groups that its array lists, as they are when it begins. -/
theorem State.barrierWake_eq (s : State) (la cohort : Nat) : s.barrierWake la cohort p b phase = (s.array la).groups.foldl (fun s g =>
    if g.cohort ≠ cohort then s else (s.putGroup la (g.release b phase).2).wakeAcquires la p (g.release b phase).1) s := rfl

theorem State.barrierWake_cohorts (s : State) (la cohort : Nat) : ((s.barrierWake la cohort p b phase).array la).cohorts = (s.array la).cohorts := by
  rw [State.barrierWake_eq]
  refine List.foldlRecOn (motive := fun t : State => (t.array la).cohorts = (s.array la).cohorts) _ _ rfl (fun t ht g _ => ?_)
  split
  · exact ht
  · rw [State.wakeAcquires_cohorts, State.putGroup_array]
    exact ht

/-- Once a wake has come to the group of a reference, the group is as its release leaves it, or an acquire after that. -/
theorem State.barrierWake_fold (loads : ∀ g l, Q g → Q { g with loads := l }) (l : List Group) (wakes : ∀ g ∈ l, g.named r → Q (g.release b phase).2) (s : State)
    (listed : ∃ g ∈ (s.array r.la.val).groups, g.named r) (reached : (∃ g ∈ l, g.named r) ∨ s.Holding r Q) :
    (l.foldl (fun s g => if g.cohort ≠ r.cohort then s else (s.putGroup r.la.val (g.release b phase).2).wakeAcquires r.la.val p (g.release b phase).1) s).Holding r Q := by
  induction l generalizing s with
  | nil =>
    rcases reached with ⟨_, none, -⟩ | holds
    · cases none
    · exact holds
  | cons g l ih =>
    have named : (g.release b phase).2.named r ↔ g.named r := by
      unfold Group.named
      rw [(g.release_named b phase).1, (g.release_named b phase).2]
    rw [List.foldl_cons]
    refine ih (fun k hk => wakes k (List.mem_cons_of_mem _ hk)) _ ?_ ?_
    · split
      · exact listed
      · exact State.listed_wakeAcquires p (State.listed_putGroup listed _) _
    · by_cases name : g.named r
      · rw [if_neg (fun ne => ne name.1)]
        exact .inr ((State.holding_putGroup listed (named.mpr name) (wakes g List.mem_cons_self name)).wakeAcquires p loads _)
      · rcases reached with ⟨k, hk, here⟩ | holds
        · rcases List.mem_cons.mp hk with rfl | later
          · exact absurd here name
          · exact .inl ⟨k, later, here⟩
        · right
          split
          · exact holds
          · exact (holds.putGroup (fun n => absurd (named.mp n) name)).wakeAcquires p loads _

theorem State.Holding.barrierWake (loads : ∀ g l, Q g → Q { g with loads := l }) (wakes : ∀ g, g.named r → P g → Q (g.release b phase).2) (h : s.Holding r P) :
    (s.barrierWake r.la.val r.cohort p b phase).Holding r Q :=
  State.barrierWake_fold p b phase loads _ (fun g hg name => wakes g name (h.2 g hg name)) s h.1 (.inl h.1)

end

/-! ### The cohort of a barrier -/

theorem ArrayState.cohortOf_idx {a : ArrayState} {k : Nat} {x : Cohort} (h : a.cohortOf k = some x) : x.idx = k := by
  simpa using List.find?_some h

theorem cohortOf_of_cohorts {a b : ArrayState} (same : a.cohorts = b.cohorts) (k : Nat) : a.cohortOf k = b.cohortOf k := by
  unfold ArrayState.cohortOf; rw [same]

/-- A cohort replaced is read back. -/
theorem ArrayState.cohortOf_putCohort {a : ArrayState} {k : Nat} {x y : Cohort} (there : a.cohortOf k = some y) (idx : x.idx = k) : (a.putCohort x).cohortOf k = some x := by
  subst idx
  unfold ArrayState.cohortOf ArrayState.putCohort at *
  dsimp only at there ⊢
  generalize a.cohorts = l at there
  induction l with
  | nil => cases there
  | cons z t ih =>
    by_cases same : z.idx = x.idx
    · simp [same]
    · rw [List.map_cons, if_neg same, List.find?_cons_of_neg (by simpa using same)]
      exact ih (by simpa [List.find?_cons, same] using there)

section
variable {s : State} {r : GroupRef} {P Q : Group → Prop} {co : Cohort} (there : (s.array r.la.val).cohortOf r.cohort = some co) (p : Fin 16) (b : Fin 16) (x : Barrier)
include there

theorem State.putBarrier_cohortOf :
    ((s.putBarrier r.la.val r.cohort p b x).array r.la.val).cohortOf r.cohort = some { co with barriers := Tbl.set Barrier.fresh co.barriers b.val x } := by
  have put : ((s.array r.la.val).putCohort { co with barriers := Tbl.set Barrier.fresh co.barriers b.val x }).cohortOf r.cohort
      = some { co with barriers := Tbl.set Barrier.fresh co.barriers b.val x } := ArrayState.cohortOf_putCohort there (show co.idx = r.cohort from ArrayState.cohortOf_idx there)
  unfold State.putBarrier
  rw [there]
  dsimp only
  split
  · rw [State.onArray, State.array_setArray]
    exact put
  · rw [cohortOf_of_cohorts (State.barrierWake_cohorts _ _ _ _ _ _), State.onArray, State.array_setArray]
    exact put

/-- A barrier is set: no phase of it completes, and the groups are as they were, or the wake reaches them. -/
theorem State.Holding.putBarrier (h : s.Holding r P) (loads : ∀ g l, Q g → Q { g with loads := l })
    (stays : (Tbl.get Barrier.fresh co.barriers b.val).phase = x.phase → ∀ g, P g → Q g)
    (wakes : (Tbl.get Barrier.fresh co.barriers b.val).phase ≠ x.phase → ∀ g, g.named r → P g → Q (g.release b x.phase).2) :
    (s.putBarrier r.la.val r.cohort p b x).Holding r Q := by
  have same : ((s.onArray r.la.val (fun a => a.putCohort { co with barriers := Tbl.set Barrier.fresh co.barriers b.val x })).array r.la.val).groups = (s.array r.la.val).groups := by
    rw [State.onArray, State.array_setArray]; rfl
  unfold State.putBarrier
  rw [there]
  dsimp only
  split
  · rename_i phase
    exact ⟨(h.of_groups same).1, fun g hg name => stays phase g ((h.of_groups same).2 g hg name)⟩
  · rename_i phase
    exact (h.of_groups same).barrierWake p b x.phase loads (wakes phase)

end

/-- A ready group on lanes at an address, with its registers, its current path waiting at no barrier. -/
def Group.Stands (regs : Tbl Word32) (pc : Word) (mask : BitVec 64) (g : Group) : Prop :=
  g.regs = regs ∧ g.st = .ready ∧ g.path.pc = pc ∧ g.path.mask = mask ∧ g.path.wait = none

section
variable {regs : Tbl Word32} {pc : Word} {mask : BitVec 64}

theorem Group.Stands.loads (g : Group) (l : List LoadOp) (h : g.Stands regs pc mask) : ({ g with loads := l } : Group).Stands regs pc mask := h

theorem Group.Stands.release {g : Group} (h : g.Stands regs pc mask) (b : Fin 16) (phase : Nat) : (g.release b phase).2.Stands regs pc mask := by
  obtain ⟨hregs, ready, hpc, hmask, hwait⟩ := h
  rw [Group.release_ready ready]
  have current : ({ g with paths := g.paths.map (fun p => p.wake b phase) } : Group).path = g.path.wake b phase := by
    unfold Group.path
    cases g.paths <;> rfl
  unfold Group.Stands
  rw [current]
  exact ⟨hregs, ready, hpc, hmask, congrArg (Option.filter _) hwait⟩

/-- A group that stands goes on standing when a barrier of its cohort is set. -/
theorem State.Holding.stands_putBarrier {s : State} {r : GroupRef} {co : Cohort} (there : (s.array r.la.val).cohortOf r.cohort = some co)
    (h : s.Holding r (Group.Stands regs pc mask)) (p : Fin 16) (b : Fin 16) (x : Barrier) : (s.putBarrier r.la.val r.cohort p b x).Holding r (Group.Stands regs pc mask) :=
  h.putBarrier there p b x Group.Stands.loads (fun _ _ => id) (fun _ _ _ k => k.release b x.phase)

/-- The exit of threads counts them in the cohort; a group that stands goes on standing (R64). -/
theorem State.Holding.stands_exitThreads {s : State} {r : GroupRef} {co : Cohort} (there : (s.array r.la.val).cohortOf r.cohort = some co)
    (h : s.Holding r (Group.Stands regs pc mask)) (p : Fin 16) (n : Nat) :
    (s.exitThreads r.la.val r.cohort n p).Holding r (Group.Stands regs pc mask)
      ∧ ∃ k, ((s.exitThreads r.la.val r.cohort n p).array r.la.val).cohortOf r.cohort = some k ∧ k.exited = co.exited + n := by
  unfold State.exitThreads
  rw [there]
  dsimp only
  refine List.foldlRecOn (motive := fun t => State.Holding t r (Group.Stands regs pc mask) ∧ ∃ k, (t.array r.la.val).cohortOf r.cohort = some k ∧ k.exited = co.exited + n)
    _ _ ⟨h.of_groups ?_, { co with exited := co.exited + n }, ?_, rfl⟩ ?_
  · rw [State.onArray, State.array_setArray]; rfl
  · rw [State.onArray, State.array_setArray]
    exact ArrayState.cohortOf_putCohort there (show co.idx = r.cohort from ArrayState.cohortOf_idx there)
  · rintro t ⟨holds, k, found, exited⟩ b -
    exact ⟨holds.stands_putBarrier found p b _, _, State.putBarrier_cohortOf found p b _, exited⟩

end

end Sys2Proof.Machine
end

section
/-! SUPPORT. EXIT, YIELD, FENCE and the barrier instructions (02 R60, R63, R64, R203-R208), with the statements about them. -/

namespace Sys2Proof.Machine

theorem Group.path_mem {g : Group} (live : g.path.mask ≠ 0) : g.path ∈ g.paths := by
  rw [Group.paths_eq live]; exact List.mem_cons_self

/-- A group that completes an instruction without a switch, on lanes, is itself but for its count and its state. -/
theorem settles_still {u : State} {r : GroupRef} {c : Cmd} {g h : Group} (there : u.groupOf r = some g) (cohort : h.cohort = g.cohort) (num : h.num = g.num)
    (lanes : h.path.mask ≠ 0) :
    (State.settle r.la.val c (.ok u h false)).groupOf r = some h.counted.settled
      ∧ ((State.settle r.la.val c (.ok u h false)).array r.la.val).l1 = (u.array r.la.val).l1
      ∧ ∀ k, ((State.settle r.la.val c (.ok u h false)).array r.la.val).cohortOf k = (u.array r.la.val).cohortOf k := by
  obtain ⟨found, -, l, k, array⟩ := settles (c := c) there cohort num (Group.path_mem lanes) lanes false
  refine ⟨found, ?_, fun k => ?_⟩ <;> rw [array]
  rfl

theorem State.afterRelease_arr (s : State) (c : Cmd) (scope : Nat) : (s.afterRelease c scope).arr = s.arr := by
  unfold State.afterRelease
  split <;> rfl

/-- The state in which an instruction goes on after the release that its ORDER has (R203). -/
def State.releasing (s : State) (c : Cmd) (order scope : Nat) : State := if 2 ≤ order then s.afterRelease c scope else s

theorem State.releasing_array (s : State) (c : Cmd) (order scope la : Nat) : (s.releasing c order scope).array la = s.array la := by
  unfold State.releasing State.array
  split
  · rw [State.afterRelease_arr]
  · rfl

theorem State.releasing_groupOf (s : State) (c : Cmd) (order scope : Nat) (r : GroupRef) : (s.releasing c order scope).groupOf r = s.groupOf r := by
  unfold State.groupOf State.groupAt
  rw [State.releasing_array]

section
variable {s : State} {i : Issue} {c : Cmd} {g : Group} {ops : BitVec 48} (go : Goes s i c g)
include go

theorem Goes.named : g.named i.g := s.groupOf_names i.g g go.group

theorem Goes.advance_path (n : Nat) : (g.advance n).path.pc = g.path.pc + BitVec.ofNat 64 n ∧ (g.advance n).path.mask = g.path.mask :=
  g.path_advance n go.mask_ne

/-! ### EXIT (R64, R208) -/

theorem exit_none (clean : cleanJ ops = true) (none : g.lanes i = 0) : Completes s (exec (.exit i ops) s) i c g 8 (fun h => h.regs = g.regs ∧ h.preds = g.preds) := by
  change Completes s (.next (s.issue i (fun _ => cleanJ ops) [] _)) i c g 8 _
  rw [go.issue (legal := fun _ => cleanJ ops) _ clean (pending_nil g), if_pos none]
  exact completes_ok s _ i c g g 8 _ go.fetched_group go.mask_ne (OnlyArray.refl _ _) rfl rfl rfl (fun h hregs hpreds => ⟨hregs, hpreds⟩)

theorem exit_holds (clean : cleanJ ops = true) (some' : g.lanes i ≠ 0) (open' : ¬ released (s.fetched i c g) i g 1) : Holds s (exec (.exit i ops) s) i c g (.release 1) := by
  change Holds s (.next (s.issue i (fun _ => cleanJ ops) [] _)) i c g _
  rw [go.issue (legal := fun _ => cleanJ ops) _ clean (pending_nil g), if_neg some', if_pos (by simpa [released] using open')]
  exact holds_of_hold go _

/-- The group whose participating lanes have left its current path, and go on elsewhere no more. -/
def Group.without (g : Group) (m : BitVec 64) : Group :=
  { g with paths := { g.path with mask := g.path.mask &&& ~~~m, pc := if g.path.mask &&& ~~~m = 0 then g.path.pc else g.path.pc + 8 } :: g.paths.tail }

theorem exit_stays (clean : cleanJ ops = true) (some' : g.lanes i ≠ 0) (done : released (s.fetched i c g) i g 1) (rest : g.path.mask &&& ~~~(g.lanes i) ≠ 0) {co : Cohort}
    (there : (s.array i.g.la.val).cohortOf g.cohort = some co) :
    ∃ t h k, exec (.exit i ops) s = .next t ∧ t.groupOf i.g = some h ∧ h.regs = g.regs ∧ h.path.pc = g.path.pc + 8
      ∧ h.path.mask = g.path.mask &&& ~~~(g.lanes i) ∧ (t.array i.g.la.val).cohortOf g.cohort = some k ∧ k.exited = co.exited + pop (g.lanes i) := by
  have cohort : g.cohort = i.g.cohort := go.named.1
  have stands : (g.without (g.lanes i)).Stands g.regs (g.path.pc + 8) (g.path.mask &&& ~~~(g.lanes i)) := ⟨rfl, go.ready, if_neg rest, rfl, go.wait_none⟩
  have left := State.holding_putGroup (P := Group.Stands g.regs (g.path.pc + 8) (g.path.mask &&& ~~~(g.lanes i))) (State.listed_of_groupOf go.fetched_group)
    (h := g.without (g.lanes i)) go.named stands
  have found : (((s.fetched i c g).putGroup i.g.la.val (g.without (g.lanes i))).array i.g.la.val).cohortOf i.g.cohort = some co := by
    rw [State.putGroup_array, ← cohort]
    exact (s.fetched_cohortOf i c g g.cohort).trans there
  obtain ⟨holds, k, counted, exited⟩ := left.stands_exitThreads found c.part (pop (g.lanes i))
  obtain ⟨h, group, -, regs, -, pc, mask, -⟩ := holds.groupOf
  have run : exec (.exit i ops) s = .next (State.settle i.g.la.val c
      (.ok (((s.fetched i c g).putGroup i.g.la.val (g.without (g.lanes i))).exitThreads i.g.la.val i.g.cohort (pop (g.lanes i)) c.part) h false)) := by
    change Host.Outcome.next (s.issue i (fun _ => cleanJ ops) [] _) = _
    rw [go.issue (legal := fun _ => cleanJ ops) _ clean (pending_nil g), if_neg some', if_neg (by simpa [released] using done)]
    unfold Group.without at group ⊢
    dsimp only at group ⊢
    rw [← cohort] at group ⊢
    rw [group, decide_eq_false rest]
  obtain ⟨settled, -, kept⟩ := settles_still (c := c) group rfl rfl (mask ▸ rest)
  exact ⟨_, _, k, run, settled, regs, pc, mask, by rw [kept, cohort]; exact counted, exited⟩

/-! ### YIELD (R60) -/

theorem exec_yield (clean : cleanJ ops = true) : exec (.yield i ops) s = .next (State.settle i.g.la.val c (.ok (s.fetched i c g) (g.advance 8) (decide (g.lanes i ≠ 0)))) :=
  congrArg _ (go.issue (legal := fun _ => cleanJ ops) _ clean (pending_nil g))

theorem yield_goesOn (clean : cleanJ ops = true) (some' : g.lanes i ≠ 0) :
    ∃ t h, exec (.yield i ops) s = .next t ∧ t.groupOf i.g = some h ∧ OnlyArray (s.fetched i c g) t i.g.la.val ∧ h.regs = g.regs ∧ h.preds = g.preds
      ∧ (∃ p ∈ h.paths, p.pc = g.path.pc + 8 ∧ p.mask &&& g.path.mask = g.path.mask)
      ∧ ((∀ p ∈ g.paths.tail, p.eligible = false) → h.path.pc = g.path.pc + 8) := by
  obtain ⟨pc, mask⟩ := go.advance_path 8
  have live : (g.advance 8).path.mask ≠ 0 := mask ▸ go.mask_ne
  obtain ⟨cohort, num, regs, preds, -⟩ := g.advance_sameRun 8
  obtain ⟨found, only, -⟩ := settles (c := c) go.fetched_group cohort num (Group.path_mem live) live true
  obtain ⟨-, -, regs', preds', -⟩ := (g.advance 8).behind_sameRun true
  obtain ⟨p, hp, pc', -, mask'⟩ := Group.behind_carries (Group.path_mem live) live true
  have tail : (g.advance 8).paths.tail = g.paths.tail := by
    unfold Group.advance Group.setPc
    cases hpaths : g.paths <;> simp [hpaths]
  refine ⟨_, _, by rw [exec_yield go clean, decide_eq_true some'], found, only, regs'.trans regs, preds'.trans preds,
    ⟨p, hp, pc'.trans pc, by rw [← mask, BitVec.and_comm]; exact mask'⟩, fun alone => ?_⟩
  exact (Group.switch_stays (g := (g.advance 8).counted) live (fun p hp => alone p (tail ▸ hp))).trans pc

/-! ### FENCE (R203, R205, R206) -/

theorem fence_release (legal : legalS ops [0, 1, 2, 3] = true) (some' : g.lanes i ≠ 0) (order : 2 ≤ opOrderS ops) (open' : ¬ released (s.fetched i c g) i g (opScopeS ops)) :
    Holds s (exec (.fence i ops) s) i c g (.release (opScopeS ops)) := by
  change Holds s (.next (s.issue i (fun _ => legalS ops [0, 1, 2, 3]) [] _)) i c g _
  rw [go.issue (legal := fun _ => legalS ops [0, 1, 2, 3]) _ legal (pending_nil g)]
  dsimp only
  rw [if_neg some', if_pos ⟨order, by simpa [released] using open'⟩]
  exact holds_of_hold go _

theorem fence_awaits (legal : legalS ops [0, 1, 2, 3] = true) (some' : g.lanes i ≠ 0) (order : opOrderS ops = 1) (scope : opScopeS ops ≠ 0) (loads : g.loads ≠ []) :
    Holds s (exec (.fence i ops) s) i c g (.operand (g.loads.map (·.seq))) := by
  change Holds s (.next (s.issue i (fun _ => legalS ops [0, 1, 2, 3]) [] _)) i c g _
  rw [go.issue (legal := fun _ => legalS ops [0, 1, 2, 3]) _ legal (pending_nil g)]
  dsimp only
  rw [if_neg some', order, if_neg (c := 2 ≤ 1 ∧ _) (fun h => absurd h.1 (by decide)), if_pos (c := 1 % 2 = 1 ∧ _ ∧ _) ⟨rfl, scope, loads⟩, if_neg (c := 2 ≤ 1) (by decide)]
  exact holds_of_hold go _

/-- The state in which a fence with its release done and its loads performed goes on. -/
def State.fenceDone (s : State) (la : Nat) (c : Cmd) (order scope : Nat) : State :=
  if order % 2 = 1 then (s.releasing c order scope).acquire la c.part scope else s.releasing c order scope

omit go in
theorem State.fenceDone_array (s : State) (la : Nat) (c : Cmd) (order scope : Nat) :
    (s.fenceDone la c order scope).array la = if order % 2 = 1 ∧ scope ≠ 0 then ArrayState.noFill { s.array la with l1 := (s.array la).l1.filter (·.instr) } (fun _ => true) else s.array la := by
  unfold State.fenceDone
  by_cases acquires : order % 2 = 1
  · rw [if_pos acquires, State.acquire_array, State.releasing_array]
    by_cases thread : scope = 0
    · rw [if_pos thread, if_neg (fun h => h.2 thread)]
    · rw [if_neg thread, if_pos ⟨acquires, thread⟩]
  · rw [if_neg acquires, if_neg (fun h => acquires h.1), State.releasing_array]

omit go in
/-- A fence leaves of a group all but its loads. -/
theorem State.fenceDone_group {s : State} {r : GroupRef} {g : Group} (there : s.groupOf r = some g) (c : Cmd) (order scope : Nat) :
    ∃ l, (s.fenceDone r.la.val c order scope).groupOf r = some { g with loads := l } := by
  unfold State.groupOf State.groupAt at *
  rw [State.fenceDone_array]
  split
  · unfold ArrayState.noFill
    rw [List.find?_map]
    refine ⟨_, Option.map_eq_some_iff.mpr ⟨g, there, rfl⟩⟩
  · exact ⟨g.loads, there⟩

theorem exec_fence (legal : legalS ops [0, 1, 2, 3] = true) (some' : g.lanes i ≠ 0) (done : opOrderS ops < 2 ∨ released (s.fetched i c g) i g (opScopeS ops))
    (reads : g.loads = [] ∨ opOrderS ops % 2 = 0 ∨ opScopeS ops = 0) {h : Group} (found : ((s.fetched i c g).fenceDone i.g.la.val c (opOrderS ops) (opScopeS ops)).groupOf i.g = some h) :
    exec (.fence i ops) s = .next (State.settle i.g.la.val c (.ok ((s.fetched i c g).fenceDone i.g.la.val c (opOrderS ops) (opScopeS ops)) (h.advance 8) false)) := by
  have release : ¬ (2 ≤ opOrderS ops ∧ State.releaseDone (s.fetched i c g) i.g.la.val g.cohort g.num (opScopeS ops) = false) := by
    rintro ⟨order, undone⟩
    rcases done with small | done
    · omega
    · exact absurd (done.symm.trans undone) (by decide)
  have awaits : ¬ (opOrderS ops % 2 = 1 ∧ opScopeS ops ≠ 0 ∧ g.loads ≠ []) := by
    rintro ⟨order, scope, loads⟩
    rcases reads with none | even | thread
    · exact loads none
    · omega
    · exact scope thread
  change Host.Outcome.next (s.issue i (fun _ => legalS ops [0, 1, 2, 3]) [] _) = _
  rw [go.issue (legal := fun _ => legalS ops [0, 1, 2, 3]) _ legal (pending_nil g)]
  unfold State.fenceDone State.releasing at found ⊢
  dsimp only
  rw [if_neg some', if_neg release, if_neg awaits, found]

theorem fence_none (legal : legalS ops [0, 1, 2, 3] = true) (none : g.lanes i = 0) : Completes s (exec (.fence i ops) s) i c g 8 (fun h => h.regs = g.regs ∧ h.preds = g.preds) := by
  change Completes s (.next (s.issue i (fun _ => legalS ops [0, 1, 2, 3]) [] _)) i c g 8 _
  rw [go.issue (legal := fun _ => legalS ops [0, 1, 2, 3]) _ legal (pending_nil g)]
  dsimp only
  rw [if_pos none]
  exact completes_ok s _ i c g g 8 _ go.fetched_group go.mask_ne (OnlyArray.refl _ _) rfl rfl rfl (fun h hregs hpreds => ⟨hregs, hpreds⟩)

theorem fence_goesOn (legal : legalS ops [0, 1, 2, 3] = true) (done : g.lanes i = 0 ∨ opOrderS ops < 2 ∨ released (s.fetched i c g) i g (opScopeS ops))
    (reads : g.loads = [] ∨ opOrderS ops % 2 = 0 ∨ opScopeS ops = 0) :
    ∃ t h, exec (.fence i ops) s = .next t ∧ t.groupOf i.g = some h ∧ h.regs = g.regs ∧ h.preds = g.preds ∧ h.path.pc = g.path.pc + 8
      ∧ (g.lanes i ≠ 0 → opOrderS ops % 2 = 1 → opScopeS ops ≠ 0 → ∀ x ∈ (t.array i.g.la.val).l1, x.instr = true) := by
  by_cases none : g.lanes i = 0
  · obtain ⟨t, h, next, found, pc, -, -, regs, preds⟩ := fence_none go legal none
    exact ⟨t, h, next, found, regs, preds, pc, fun some' => absurd none some'⟩
  · obtain ⟨l, found⟩ := State.fenceDone_group go.fetched_group c (opOrderS ops) (opScopeS ops)
    obtain ⟨cohort, num, regs, preds, -⟩ := ({ g with loads := l } : Group).advance_sameRun 8
    obtain ⟨pc, mask⟩ := ({ g with loads := l } : Group).path_advance 8 go.mask_ne
    obtain ⟨settled, l1, -⟩ := settles_still (c := c) found cohort num (h := ({ g with loads := l } : Group).advance 8) (mask ▸ go.mask_ne)
    refine ⟨_, _, exec_fence go legal none (done.resolve_left none) reads found, settled, regs, preds, pc, fun _ order scope x hx => ?_⟩
    rw [l1, State.fenceDone_array, if_pos ⟨order, scope⟩] at hx
    exact (List.mem_filter.mp hx).2

end

/-- Settles O7: EXIT, YIELD and FENCE, each as its release and its lanes have it. -/
theorem exitYieldFenceComplete : Obligations.ExitYieldFenceComplete := by
  unfold Obligations.ExitYieldFenceComplete
  intro s i c g ops go
  refine ⟨fun clean => ⟨fun none => ⟨exit_none go clean none, ?yieldNone⟩, exit_holds go clean, fun some' done rest co there => exit_stays go clean some' done rest there,
    yield_goesOn go clean⟩, fun legal => ⟨fence_release go legal, fence_awaits go legal, fence_goesOn go legal⟩⟩
  case yieldNone =>
    rw [exec_yield go clean, decide_eq_false (fun h => h none)]
    exact completes_ok s _ i c g g 8 _ go.fetched_group go.mask_ne (OnlyArray.refl _ _) rfl rfl rfl (fun h hregs hpreds => ⟨hregs, hpreds⟩)

end Sys2Proof.Machine
end

section
/-! SUPPORT. Barrier instructions (02 R63, R64, R208), with the statement about them. -/

namespace Sys2Proof.Machine

/-- The wait of a barrier instruction's lanes for the phase that is current at its issue. -/
def State.waitFor (s : State) (r : Run) (g : Group) (ops : BitVec 48) (arrives : Bool) : BarrierWait :=
  ⟨!arrives, opBarrier ops, s.phaseOf r.la g.cohort (opBarrier ops), decide (opOrderS ops % 2 = 1), opScopeS ops⟩

/-- The state in which the lanes of a barrier instruction have waited, arrived, or both. -/
def State.barrierDone (s : State) (r : Run) (g : Group) (ops : BitVec 48) (arrives waits : Bool) : State :=
  let s := s.releasing r.cmd (opOrderS ops) (opScopeS ops)
  let s := (s.putGroup r.la (if waits then g.waitAt r.m (s.waitFor r g ops arrives) else g.advance 8))
  if arrives then s.arriveAt r g (opBarrier ops) (r.count g ops) else s

/-- A group that goes on as before but for one path, which waits or not. -/
def Group.WaitsAt (regs : Tbl Word32) (pc : Word) (mask : BitVec 64) (w : Option BarrierWait) (g : Group) : Prop :=
  g.regs = regs ∧ g.st = .ready ∧ ∃ p ∈ g.paths, p.pc = pc ∧ p.mask = mask ∧ p.wait = w

theorem Group.WaitsAt.loads {regs : Tbl Word32} {pc : Word} {mask : BitVec 64} {w : Option BarrierWait} (g : Group) (l : List LoadOp) (h : g.WaitsAt regs pc mask w) :
    ({ g with loads := l } : Group).WaitsAt regs pc mask w := h

/-- The release for a later phase of the barrier that a path waits at ends its wait. -/
theorem Group.WaitsAt.release {regs : Tbl Word32} {pc : Word} {mask : BitVec 64} {w : BarrierWait} {g : Group} (h : g.WaitsAt regs pc mask (some w)) {phase : Nat}
    (later : w.phase < phase) : (g.release w.b phase).2.WaitsAt regs pc mask none := by
  obtain ⟨hregs, ready, p, hp, hpc, hmask, wait⟩ := h
  rw [Group.release_ready ready]
  refine ⟨hregs, ready, p.wake w.b phase, List.mem_map_of_mem hp, hpc, hmask, ?_⟩
  unfold Path.wake
  rw [wait]
  simp [later]

section
variable {s : State} {i : Issue} {c : Cmd} {g : Group} {ops : BitVec 48} (go : Goes s i c g) {orders : List Nat} {arrives : Bool} (waits : Bool) (legal : legalS ops orders = true)
  (named : arrives = true → opCount ops = 255 ∨ (regNamed c.regCount (opCount ops) = true ∧ g.pending [opCount ops] = []))
include go legal named

omit go in
theorem barrier_legal : (legalS ops orders && (!arrives || decide (opCount ops = 255) || regNamed c.regCount (opCount ops))) = true
    ∧ g.pending (if arrives && decide (opCount ops ≠ 255) then [opCount ops] else []) = [] := by
  cases arrives with
  | false => exact ⟨by simp [legal], pending_nil g⟩
  | true =>
    by_cases all : opCount ops = 255
    · simp [legal, all, pending_nil]
    · obtain ⟨reg, free⟩ := (named rfl).resolve_left all
      simp [legal, all, reg, free]

theorem barrier_none (none : g.lanes i = 0) : Completes s (.next (s.barrierIssue i ops orders arrives waits)) i c g 8 (fun h => h.regs = g.regs) := by
  obtain ⟨ok, free⟩ := barrier_legal legal named
  unfold State.barrierIssue
  rw [go.issue (legal := fun c => legalS ops orders && (!arrives || decide (opCount ops = 255) || regNamed c.regCount (opCount ops))) _ ok free]
  dsimp only
  rw [if_pos none]
  exact completes_ok s _ i c g g 8 _ go.fetched_group go.mask_ne (OnlyArray.refl _ _) rfl rfl rfl (fun h hregs _ => hregs)

theorem barrier_goes (some' : g.lanes i ≠ 0) (done : opOrderS ops < 2 ∨ released (s.fetched i c g) i g (opScopeS ops)) {h : Group}
    (found : ((s.fetched i c g).barrierDone ⟨i.g.la.val, c, g.lanes i⟩ g ops arrives waits).groupOf i.g = some h) :
    s.barrierIssue i ops orders arrives waits
      = State.settle i.g.la.val c (.ok ((s.fetched i c g).barrierDone ⟨i.g.la.val, c, g.lanes i⟩ g ops arrives waits) h (decide (h.path.wait ≠ none))) := by
  have release : ¬ (2 ≤ opOrderS ops ∧ State.releaseDone (s.fetched i c g) i.g.la.val g.cohort g.num (opScopeS ops) = false) := by
    rintro ⟨order, undone⟩
    rcases done with small | done
    · omega
    · exact absurd (done.symm.trans undone) (by decide)
  obtain ⟨ok, free⟩ := barrier_legal legal named
  unfold State.barrierIssue
  rw [go.issue (legal := fun c => legalS ops orders && (!arrives || decide (opCount ops = 255) || regNamed c.regCount (opCount ops))) _ ok free]
  unfold State.barrierDone State.releasing State.waitFor at found ⊢
  dsimp only at found ⊢
  rw [if_neg some', if_neg release, found]

end

section
variable {s : State} {i : Issue} {c : Cmd} {g : Group} {ops : BitVec 48} (go : Goes s i c g) {co : Cohort} (there : (s.array i.g.la.val).cohortOf g.cohort = some co)
include go there

/-- The group of a barrier instruction, as its lanes wait or go on, before any arrival. -/
theorem barrier_put {h : Group} (same : g.SameRun h) {P : Group → Prop} (has : P h) :
    (((s.fetched i c g).releasing c (opOrderS ops) (opScopeS ops)).putGroup i.g.la.val h).Holding i.g P
      ∧ ((((s.fetched i c g).releasing c (opOrderS ops) (opScopeS ops)).putGroup i.g.la.val h).array i.g.la.val).cohortOf i.g.cohort = some co := by
  obtain ⟨cohort, num, -⟩ := same
  have group : ((s.fetched i c g).releasing c (opOrderS ops) (opScopeS ops)).groupOf i.g = some g := (State.releasing_groupOf _ _ _ _ _).trans go.fetched_group
  refine ⟨State.holding_putGroup (State.listed_of_groupOf group) ⟨cohort.trans go.named.1, num.trans go.named.2⟩ has, ?_⟩
  rw [State.putGroup_array, State.releasing_array, ← go.named.1]
  exact (s.fetched_cohortOf i c g g.cohort).trans there

omit go in
theorem barrier_phase : ((s.fetched i c g).releasing c (opOrderS ops) (opScopeS ops)).phaseOf i.g.la.val g.cohort (opBarrier ops)
    = (Tbl.get Barrier.fresh co.barriers (opBarrier ops).val).phase := by
  unfold State.phaseOf
  rw [State.releasing_array, s.fetched_cohortOf i c g g.cohort, there]

/-- A barrier of the cohort of an issue after its lanes have arrived. -/
def Cohort.arrived (co : Cohort) (r : Run) (g : Group) (ops : BitVec 48) : Barrier :=
  Barrier.arrive (r.count g ops) co.exited 64 (pop r.m) (Tbl.get Barrier.fresh co.barriers (opBarrier ops).val)

omit there in
/-- An arrival sets its barrier. -/
theorem arriveAt_eq {v : State} (found : (v.array i.g.la.val).cohortOf i.g.cohort = some co) :
    v.arriveAt ⟨i.g.la.val, c, g.lanes i⟩ g (opBarrier ops) (Run.count ⟨i.g.la.val, c, g.lanes i⟩ g ops)
      = v.putBarrier i.g.la.val i.g.cohort c.part (opBarrier ops) (co.arrived ⟨i.g.la.val, c, g.lanes i⟩ g ops) := by
  unfold State.arriveAt Cohort.arrived
  rw [go.named.1, found]

/-- The lanes of a BAR.ARRIVE have arrived, and go on. -/
theorem barArrive_done :
    ((s.fetched i c g).barrierDone ⟨i.g.la.val, c, g.lanes i⟩ g ops true false).Holding i.g (Group.Stands g.regs (g.path.pc + 8) g.path.mask)
      ∧ ∃ k, (((s.fetched i c g).barrierDone ⟨i.g.la.val, c, g.lanes i⟩ g ops true false).array i.g.la.val).cohortOf g.cohort = some k
        ∧ Tbl.get Barrier.fresh k.barriers (opBarrier ops).val = co.arrived ⟨i.g.la.val, c, g.lanes i⟩ g ops := by
  obtain ⟨pc, mask⟩ := go.advance_path 8
  have same := g.advance_sameRun 8
  have stands : (g.advance 8).Stands g.regs (g.path.pc + 8) g.path.mask := by
    obtain ⟨-, -, regs, -⟩ := same
    have paths := Group.paths_eq go.mask_ne
    refine ⟨regs, ?_, pc, mask, ?_⟩
    · unfold Group.advance Group.setPc; rw [paths]; exact go.ready
    · unfold Group.advance Group.setPc; rw [paths]; exact go.wait_none
  obtain ⟨holds, found⟩ := barrier_put (ops := ops) go there same stands
  unfold State.barrierDone
  simp only [if_true, Bool.false_eq_true, if_false]
  rw [arriveAt_eq go found, go.named.1]
  generalize State.putGroup _ _ _ = v at holds found ⊢
  have set := State.putBarrier_cohortOf found c.part (opBarrier ops) (co.arrived ⟨i.g.la.val, c, g.lanes i⟩ g ops)
  exact ⟨holds.stands_putBarrier found _ _ _, _, set, by simp only [Tbl.get_set_same]⟩

theorem barArrive_goes (some' : g.lanes i ≠ 0) (done : opOrderS ops < 2 ∨ released (s.fetched i c g) i g (opScopeS ops)) (legal : legalS ops [0, 2] = true)
    (named : opCount ops = 255 ∨ (regNamed c.regCount (opCount ops) = true ∧ g.pending [opCount ops] = [])) :
    ∃ t h k, exec (.barArrive i ops) s = .next t ∧ t.groupOf i.g = some h ∧ h.regs = g.regs ∧ h.path.pc = g.path.pc + 8 ∧ h.path.mask = g.path.mask
      ∧ (t.array i.g.la.val).cohortOf g.cohort = some k ∧ Tbl.get Barrier.fresh k.barriers (opBarrier ops).val = co.arrived ⟨i.g.la.val, c, g.lanes i⟩ g ops := by
  obtain ⟨holds, k, found, new⟩ := barArrive_done (ops := ops) go there
  obtain ⟨h, group, -, regs, -, pc, mask, wait⟩ := holds.groupOf
  have run : exec (.barArrive i ops) s = .next _ := congrArg Host.Outcome.next (barrier_goes (arrives := true) go false legal (fun _ => named) some' done group)
  generalize (s.fetched i c g).barrierDone ⟨i.g.la.val, c, g.lanes i⟩ g ops true false = u at *
  rw [wait, decide_eq_false (fun h => h rfl)] at run
  obtain ⟨settled, -, kept⟩ := settles_still (c := c) group rfl rfl (mask ▸ go.mask_ne)
  exact ⟨_, _, k, run, settled, regs, pc, mask, (kept _).trans found, new⟩

omit there in
/-- The group whose participating lanes wait at a barrier. -/
theorem waitAt_waits (w : BarrierWait) : g.SameRun (g.waitAt (g.lanes i) w) ∧ (g.waitAt (g.lanes i) w).WaitsAt g.regs (g.path.pc + 8) (g.lanes i) (some w) := by
  have same := g.splitOff_sameRun (g.lanes i) (fun q => { q with pc := q.pc + 8, wait := some w })
  obtain ⟨st, taken⟩ := Group.splitOff_mem go.mask_ne (g.lanes i) (fun q => { q with pc := q.pc + 8, wait := some w })
  refine ⟨same, same.2.2.1, ?_, _, taken, rfl, rfl, rfl⟩
  have ready := go.ready
  unfold Group.waitAt Group.splitOff
  rw [Group.paths_eq go.mask_ne]
  dsimp only
  split <;> exact ready

omit go in
/-- The wait of the lanes names the barrier's phase. -/
theorem waitFor_eq (arrives : Bool) : ((s.fetched i c g).releasing c (opOrderS ops) (opScopeS ops)).waitFor ⟨i.g.la.val, c, g.lanes i⟩ g ops arrives
    = ⟨!arrives, opBarrier ops, (Tbl.get Barrier.fresh co.barriers (opBarrier ops).val).phase, decide (opOrderS ops % 2 = 1), opScopeS ops⟩ := by
  unfold State.waitFor
  rw [barrier_phase there]

/-- The lanes of a BAR.WAIT wait. -/
theorem barWait_done :
    ((s.fetched i c g).barrierDone ⟨i.g.la.val, c, g.lanes i⟩ g ops false true).Holding i.g (Group.WaitsAt g.regs (g.path.pc + 8) (g.lanes i)
        (some ⟨true, opBarrier ops, (Tbl.get Barrier.fresh co.barriers (opBarrier ops).val).phase, decide (opOrderS ops % 2 = 1), opScopeS ops⟩))
      ∧ (((s.fetched i c g).barrierDone ⟨i.g.la.val, c, g.lanes i⟩ g ops false true).array i.g.la.val).cohortOf g.cohort = some co := by
  obtain ⟨same, waits⟩ := waitAt_waits go (((s.fetched i c g).releasing c (opOrderS ops) (opScopeS ops)).waitFor ⟨i.g.la.val, c, g.lanes i⟩ g ops false)
  obtain ⟨holds, found⟩ := barrier_put (ops := ops) go there same waits
  rw [← go.named.1] at found
  unfold State.barrierDone
  simp only [if_true, Bool.false_eq_true, if_false]
  rw [waitFor_eq there] at holds found ⊢
  exact ⟨holds, found⟩

/-- The lanes of a BAR.SYNC have arrived; they wait, or, when they completed the phase, do so no more. -/
theorem barSync_done :
    ((s.fetched i c g).barrierDone ⟨i.g.la.val, c, g.lanes i⟩ g ops true true).Holding i.g (Group.WaitsAt g.regs (g.path.pc + 8) (g.lanes i)
        (if (co.arrived ⟨i.g.la.val, c, g.lanes i⟩ g ops).phase = (Tbl.get Barrier.fresh co.barriers (opBarrier ops).val).phase
          then some ⟨false, opBarrier ops, (Tbl.get Barrier.fresh co.barriers (opBarrier ops).val).phase, decide (opOrderS ops % 2 = 1), opScopeS ops⟩ else none))
      ∧ ∃ k, (((s.fetched i c g).barrierDone ⟨i.g.la.val, c, g.lanes i⟩ g ops true true).array i.g.la.val).cohortOf g.cohort = some k
        ∧ Tbl.get Barrier.fresh k.barriers (opBarrier ops).val = co.arrived ⟨i.g.la.val, c, g.lanes i⟩ g ops := by
  obtain ⟨same, waits⟩ := waitAt_waits go (((s.fetched i c g).releasing c (opOrderS ops) (opScopeS ops)).waitFor ⟨i.g.la.val, c, g.lanes i⟩ g ops true)
  obtain ⟨holds, found⟩ := barrier_put (ops := ops) go there same waits
  have grows : (Tbl.get Barrier.fresh co.barriers (opBarrier ops).val).phase ≤ (co.arrived ⟨i.g.la.val, c, g.lanes i⟩ g ops).phase := Barrier.arrive_phase _ _ _ _ _
  unfold State.barrierDone
  simp only [if_true]
  rw [arriveAt_eq go found, go.named.1]
  rw [waitFor_eq there] at holds found ⊢
  generalize State.putGroup _ _ _ = v at holds found ⊢
  have set := State.putBarrier_cohortOf found c.part (opBarrier ops) (co.arrived ⟨i.g.la.val, c, g.lanes i⟩ g ops)
  refine ⟨holds.putBarrier found c.part (opBarrier ops) (co.arrived ⟨i.g.la.val, c, g.lanes i⟩ g ops) Group.WaitsAt.loads (fun stays h waits => ?_) (fun completes h _ waits => ?_),
    _, set, by simp only [Tbl.get_set_same]⟩
  · rw [if_pos stays.symm]; exact waits
  · rw [if_neg (Ne.symm completes)]
    exact waits.release (Nat.lt_of_le_of_ne grows completes)

omit go there in
/-- The end of a barrier instruction whose lanes wait, or have waited, on a path of their own. -/
theorem barrier_settles {u : State} {w : Option BarrierWait} (holds : u.Holding i.g (Group.WaitsAt g.regs (g.path.pc + 8) (g.lanes i) w)) (some' : g.lanes i ≠ 0) :
    ∃ h, u.groupOf i.g = some h ∧ ∃ h', (State.settle i.g.la.val c (.ok u h (decide (h.path.wait ≠ none)))).groupOf i.g = some h' ∧ h'.regs = g.regs
      ∧ (∃ p ∈ h'.paths, p.pc = g.path.pc + 8 ∧ p.mask &&& g.lanes i = g.lanes i ∧ p.wait = w)
      ∧ ∀ k, ((State.settle i.g.la.val c (.ok u h (decide (h.path.wait ≠ none)))).array i.g.la.val).cohortOf k = (u.array i.g.la.val).cohortOf k := by
  obtain ⟨h, group, -, regs, -, p, hp, pc, mask, wait⟩ := holds.groupOf
  have lanes : p.mask ≠ 0 := mask ▸ some'
  refine ⟨h, group, ?_⟩
  generalize decide (h.path.wait ≠ none) = sw
  obtain ⟨found, -, l, k, array⟩ := settles (c := c) group rfl rfl hp lanes sw
  obtain ⟨-, -, regs', -⟩ := h.behind_sameRun sw
  obtain ⟨q, hq, pc', wait', mask'⟩ := Group.behind_carries hp lanes sw
  refine ⟨_, found, regs'.trans regs, ⟨q, hq, pc'.trans pc, ?_, wait'.trans wait⟩, fun k => ?_⟩
  · rw [← mask, BitVec.and_comm]; exact mask'
  · rw [array]; rfl

theorem barWait_goes (some' : g.lanes i ≠ 0) (done : opOrderS ops < 2 ∨ released (s.fetched i c g) i g (opScopeS ops)) (legal : legalS ops [0, 1, 3] = true) :
    ∃ t h k, exec (.barWait i ops) s = .next t ∧ t.groupOf i.g = some h ∧ h.regs = g.regs
      ∧ (∃ p ∈ h.paths, p.pc = g.path.pc + 8 ∧ p.mask &&& g.lanes i = g.lanes i
        ∧ p.wait = some ⟨true, opBarrier ops, (Tbl.get Barrier.fresh co.barriers (opBarrier ops).val).phase, decide (opOrderS ops % 2 = 1), opScopeS ops⟩)
      ∧ (t.array i.g.la.val).cohortOf g.cohort = some k ∧ Tbl.get Barrier.fresh k.barriers (opBarrier ops).val = Tbl.get Barrier.fresh co.barriers (opBarrier ops).val := by
  obtain ⟨holds, found⟩ := barWait_done (ops := ops) go there
  obtain ⟨h, group, h', settled, regs, path, kept⟩ := barrier_settles (c := c) holds some'
  have run : exec (.barWait i ops) s = .next _ := congrArg Host.Outcome.next (barrier_goes (arrives := false) go true legal (fun no => nomatch no) some' done group)
  exact ⟨_, h', co, run, settled, regs, path, (kept _).trans found, rfl⟩

theorem barSync_goes (some' : g.lanes i ≠ 0) (done : opOrderS ops < 2 ∨ released (s.fetched i c g) i g (opScopeS ops)) (legal : legalS ops [0, 1, 3] = true)
    (named : opCount ops = 255 ∨ (regNamed c.regCount (opCount ops) = true ∧ g.pending [opCount ops] = [])) :
    ∃ t h k, exec (.barSync i ops) s = .next t ∧ t.groupOf i.g = some h ∧ h.regs = g.regs
      ∧ (∃ p ∈ h.paths, p.pc = g.path.pc + 8 ∧ p.mask &&& g.lanes i = g.lanes i
        ∧ p.wait = if (co.arrived ⟨i.g.la.val, c, g.lanes i⟩ g ops).phase = (Tbl.get Barrier.fresh co.barriers (opBarrier ops).val).phase
          then some ⟨false, opBarrier ops, (Tbl.get Barrier.fresh co.barriers (opBarrier ops).val).phase, decide (opOrderS ops % 2 = 1), opScopeS ops⟩ else none)
      ∧ (t.array i.g.la.val).cohortOf g.cohort = some k ∧ Tbl.get Barrier.fresh k.barriers (opBarrier ops).val = co.arrived ⟨i.g.la.val, c, g.lanes i⟩ g ops := by
  obtain ⟨holds, k, found, new⟩ := barSync_done (ops := ops) go there
  obtain ⟨h, group, h', settled, regs, path, kept⟩ := barrier_settles (c := c) holds some'
  have run : exec (.barSync i ops) s = .next _ := congrArg Host.Outcome.next (barrier_goes (arrives := true) go true legal (fun _ => named) some' done group)
  exact ⟨_, h', k, run, settled, regs, path, (kept _).trans found, new⟩

end

/-- Settles O8: the lanes of a barrier instruction arrive, wait, or both, and the group goes on. -/
theorem barriersComplete : Obligations.BarriersComplete := by
  unfold Obligations.BarriersComplete
  intro s i c g ops co go there m b old count new
  have arrived : new = co.arrived ⟨i.g.la.val, c, g.lanes i⟩ g ops := rfl
  rw [arrived]
  refine ⟨fun none => ⟨fun legal named => ?_, fun legal named => ?_, fun legal => ?_⟩, fun ready legal named => ?_, fun ready legal => ⟨?_, fun named => ?_⟩⟩
  · exact barrier_none (arrives := true) go true legal (fun _ => named) none
  · exact barrier_none (arrives := true) go false legal (fun _ => named) none
  · exact barrier_none (arrives := false) go true legal (fun no => nomatch no) none
  · exact barArrive_goes go there ready.1 ready.2 legal named
  · exact barWait_goes go there ready.1 ready.2 legal
  · exact barSync_goes go there ready.1 ready.2 legal named

end Sys2Proof.Machine
end

section
/-! SUPPORT. Conversions (02 R112, R116, R121, R126, R127): what each lane draws from its stream, and what the lanes give; with these the
statement about them. -/

namespace Sys2Proof.Machine

/-! ### Generator streams (R121) -/

/-- A conversion touches nothing but its array, and of that neither the groups nor the arming of the sentry. -/
def Converts (s t : State) (la : Nat) : Prop :=
  OnlyArray s t la ∧ (t.array la).groups = (s.array la).groups ∧ (t.array la).sentryArmed = (s.array la).sentryArmed

theorem Converts.refl (s : State) (la : Nat) : Converts s s la := ⟨OnlyArray.refl s la, rfl, rfl⟩

theorem Converts.trans {s t u : State} {la : Nat} (h : Converts s t la) (k : Converts t u la) : Converts s u la :=
  ⟨h.1.trans k.1, k.2.1.trans h.2.1, k.2.2.trans h.2.2⟩

theorem Converts.setGen (s : State) (la k : Nat) (x : Word) : Converts s (s.setGen la k x) la := by
  refine ⟨OnlyArray.on s la _, ?_, ?_⟩ <;> rw [State.setGen, State.onArray, State.array_setArray]

theorem Converts.countNum (s : State) (la : Nat) (n : NumCounts) : Converts s (s.countNum la n) la := by
  refine ⟨OnlyArray.on s la _, ?_, ?_⟩ <;> rw [State.countNum, State.onArray, State.array_setArray]

theorem Converts.skipFree (s : State) (la n : Nat) : Converts s (s.skipFree n) la := ⟨⟨s.arr, _, s.energy, rfl, fun _ _ => rfl⟩, rfl, rfl⟩

section
variable (i : Issue) (c : Cmd) (g : Group)

theorem State.stream_countNum (s : State) (n : NumCounts) (l : Nat) : (s.countNum i.g.la.val n).stream i c g l = s.stream i c g l := by
  unfold State.stream
  rw [State.countNum, State.onArray, State.array_setArray]
  rfl

/-- The stream of a lane that has drawn goes on from there; the others stay. -/
theorem State.stream_setGen (s : State) (k l : Nat) (x : Word) :
    (s.setGen i.g.la.val (64 * g.quadrant + k) x).stream i c g l = if l = k then State.streamAfter i c g l x else s.stream i c g l := by
  unfold State.stream State.streamAfter ArrayState.gen
  rw [State.setGen, State.onArray, State.array_setArray]
  dsimp only
  rw [Tbl.get_set]
  by_cases same : l = k
  · simp [same]
  · rw [if_neg (fun e => same (Nat.add_left_cancel e)), if_neg (c := l = k) same]

theorem State.streamAfter_stream (s : State) (l : Nat) : State.streamAfter i c g l (s.stream i c g l) = s.stream i c g l := by
  unfold State.streamAfter State.stream ArrayState.gen
  dsimp only
  by_cases unset : Tbl.get 0 (s.array i.g.la.val).gens (64 * g.quadrant + l) = 0
  · rw [if_pos unset, ite_self]
  · rw [if_neg unset, if_neg unset]

/-- What one lane's conversion leaves. -/
def CvtLane.of (v : Conv) (l : Nat) : CvtLane := ⟨l, v.raw, none, v.cause⟩

/-- The state after one lane's conversion. -/
def State.drawn (s : State) (la k : Nat) (x : Word) (v : Conv) : State := (if v.g = x then s else s.setGen la k v.g).countNum la v.counts

theorem State.drawn_converts (s : State) (la k : Nat) (x : Word) (v : Conv) : Converts s (s.drawn la k x v) la := by
  refine Converts.trans ?_ (Converts.countNum _ _ _)
  split
  · exact Converts.refl _ _
  · exact Converts.setGen _ _ _ _

theorem State.stream_drawn (s : State) (k l : Nat) (v : Conv) : (s.drawn i.g.la.val (64 * g.quadrant + k) (s.stream i c g k) v).stream i c g l
    = if l = k then State.streamAfter i c g l v.g else s.stream i c g l := by
  unfold State.drawn
  rw [State.stream_countNum]
  split
  · rename_i same
    rw [same]
    split
    · rename_i here; rw [here, State.streamAfter_stream]
    · rfl
  · exact s.stream_setGen i c g k l _

/-- Lanes converted one by one draw each from its own stream, as it was. -/
theorem State.cvtEach_spec (m : BitVec 64) (f : Nat → Word → Conv) (ls : List Nat) (each : ls.Nodup) (s : State) :
    (s.cvtEach ⟨i.g.la.val, c, m⟩ g f ls).1 = ls.map (fun l => CvtLane.of (f l (s.stream i c g l)) l)
      ∧ Converts s (s.cvtEach ⟨i.g.la.val, c, m⟩ g f ls).2 i.g.la.val
      ∧ ∀ l, (s.cvtEach ⟨i.g.la.val, c, m⟩ g f ls).2.stream i c g l = if l ∈ ls then State.streamAfter i c g l (f l (s.stream i c g l)).g else s.stream i c g l := by
  induction ls generalizing s with
  | nil => exact ⟨rfl, Converts.refl _ _, fun l => (if_neg List.not_mem_nil).symm⟩
  | cons k ls ih =>
    obtain ⟨fresh, each⟩ := List.nodup_cons.mp each
    have kept := s.drawn_converts i.g.la.val (64 * g.quadrant + k) (s.stream i c g k) (f k (s.stream i c g k))
    have streams := fun l => s.stream_drawn i c g k l (f k (s.stream i c g k))
    obtain ⟨out, only, after⟩ := ih each (s.drawn i.g.la.val (64 * g.quadrant + k) (s.stream i c g k) (f k (s.stream i c g k)))
    refine ⟨?_, kept.trans only, fun l => (after l).trans ?_⟩
    · rw [List.map_cons]
      refine congrArg (List.cons _) (out.trans (List.map_congr_left (fun l hl => ?_)))
      have ne : l ≠ k := by rintro rfl; exact fresh hl
      rw [streams, if_neg ne]
    · rw [streams]
      by_cases here : l = k
      · subst here; simp [fresh]
      · simp [here]

end

/-! ### CVT (R116, R126, R127) -/

section
variable {u : State} {i : Issue} {c : Cmd} {g : Group} {ops : BitVec 48}

/-- The participating lanes of block k. -/
def blockLanes (g : Group) (i : Issue) (ops : BitVec 48) (k : Nat) : List Nat := (laneList (g.lanes i)).filter (fun l => decide (l / opC ops = k))

/-- The values that the lanes of block k bring. -/
def blockVals (g : Group) (i : Issue) (ops : BitVec 48) (k : Nat) : List Num :=
  (blockLanes g i ops k).map (fun l => g.src l (opA ops) (opMod ops) (opNeg ops 0))

/-- The scale of block k, and the cause of its NaN. -/
def blockScaleOf (g : Group) (i : Issue) (ops : BitVec 48) (k : Nat) : Nat × Nat := blockScale (opFmt ops) (blockVals g i ops k)

/-- The conversion of a lane of block k. -/
def blockConv (g : Group) (i : Issue) (ops : BitVec 48) (k l : Nat) (x : Word) : Conv :=
  blockElem (opFmt ops) (blockScaleOf g i ops k).1 ((blockVals g i ops k).all Num.isZero) (g.src l (opA ops) (opMod ops) (opNeg ops 0)) (opRnd ops) x

theorem mem_blockLanes (k l : Nat) : l ∈ blockLanes g i ops k ↔ (g.lanes i).getLsbD l = true ∧ l / opC ops = k := by
  unfold blockLanes
  rw [List.mem_filter, mem_laneList, decide_eq_true_eq]

theorem State.cvtAt_mx (mx : opC ops ≠ 0 ∧ fmtIsMx (opFmt ops) = true) (l : Nat) :
    u.cvtAt i c g ops l = ⟨l, (blockConv g i ops (l / opC ops) l (u.stream i c g l)).raw, some (blockScaleOf g i ops (l / opC ops)).1, (blockScaleOf g i ops (l / opC ops)).2⟩ := by
  unfold State.cvtAt
  rw [if_neg (fun h => mx.1 h.1), if_pos mx]
  unfold blockConv blockScaleOf blockVals blockLanes
  dsimp only

theorem State.quantise_eq (pos : opC ops ≠ 0) (k : Nat) (s : State) : s.quantise ⟨i.g.la.val, c, g.lanes i⟩ g ops (k * opC ops) (opC ops) =
    if blockLanes g i ops k = [] then ([], s) else
      (((s.cvtEach ⟨i.g.la.val, c, g.lanes i⟩ g (blockConv g i ops k) (blockLanes g i ops k)).1.map
          (fun o => { o with scale := some (blockScaleOf g i ops k).1, cause := (blockScaleOf g i ops k).2 })),
        if (blockScaleOf g i ops k).1 = 255 then (s.cvtEach ⟨i.g.la.val, c, g.lanes i⟩ g (blockConv g i ops k) (blockLanes g i ops k)).2.countNum i.g.la.val ⟨0, 0, 0, 1, 0⟩
        else (s.cvtEach ⟨i.g.la.val, c, g.lanes i⟩ g (blockConv g i ops k) (blockLanes g i ops k)).2) := by
  have block : (laneList (g.lanes i)).filter (fun l => decide (k * opC ops ≤ l ∧ l < k * opC ops + opC ops)) = blockLanes g i ops k := by
    unfold blockLanes
    refine List.filter_congr (fun l _ => ?_)
    rw [decide_eq_decide, Nat.div_eq_iff (Nat.pos_of_ne_zero pos)]
    constructor <;> intro h <;> constructor <;> omega
  unfold State.quantise
  dsimp only
  rw [block]
  unfold blockConv blockScaleOf blockVals
  split
  · rfl
  · generalize blockScale _ _ = found
    obtain ⟨scale, cause⟩ := found
    rfl

/-- One block: its lanes give what `cvtAt` says, and the streams of the other lanes stay. -/
theorem State.quantise_spec (mx : opC ops ≠ 0 ∧ fmtIsMx (opFmt ops) = true) (k : Nat) (s : State)
    (same : ∀ l, l / opC ops = k → s.stream i c g l = u.stream i c g l) :
    (s.quantise ⟨i.g.la.val, c, g.lanes i⟩ g ops (k * opC ops) (opC ops)).1 = (blockLanes g i ops k).map (u.cvtAt i c g ops)
      ∧ Converts s (s.quantise ⟨i.g.la.val, c, g.lanes i⟩ g ops (k * opC ops) (opC ops)).2 i.g.la.val
      ∧ ∀ l, l / opC ops ≠ k → (s.quantise ⟨i.g.la.val, c, g.lanes i⟩ g ops (k * opC ops) (opC ops)).2.stream i c g l = s.stream i c g l := by
  rw [State.quantise_eq mx.1]
  split
  · rename_i none
    rw [none]
    exact ⟨rfl, Converts.refl _ _, fun _ _ => rfl⟩
  · obtain ⟨out, only, streams⟩ := s.cvtEach_spec i c g (g.lanes i) (blockConv g i ops k) (blockLanes g i ops k) ((laneList_nodup _).filter _)
    refine ⟨?_, ?_, fun l other => ?_⟩
    · dsimp only
      rw [out, List.map_map]
      refine List.map_congr_left (fun l hl => ?_)
      obtain ⟨-, rfl⟩ := (mem_blockLanes k l).mp hl
      rw [State.cvtAt_mx mx, ← same l rfl]
      simp only [Function.comp, CvtLane.of]
    · dsimp only
      split
      · exact only.trans (Converts.countNum _ _ _)
      · exact only
    · have outside : l ∉ blockLanes g i ops k := fun h => other ((mem_blockLanes k l).mp h).2
      dsimp only
      split
      · rw [State.stream_countNum, streams, if_neg outside]
      · rw [streams, if_neg outside]

/-- The lanes of a mask, in some order, each with its conversion. -/
def Gives (u : State) (i : Issue) (c : Cmd) (g : Group) (ops : BitVec 48) (below : Nat → Prop) (out : List CvtLane) : Prop :=
  ∃ ls : List Nat, out = ls.map (u.cvtAt i c g ops) ∧ ls.Nodup ∧ ∀ l, l ∈ ls ↔ (g.lanes i).getLsbD l = true ∧ below l

/-- The first n blocks of a quantising conversion. -/
def State.quantiseTo (s : State) (r : Run) (g : Group) (ops : BitVec 48) (n : Nat) : List CvtLane × State :=
  (List.range n).foldl (fun (x : List CvtLane × State) k => (x.1 ++ (x.2.quantise r g ops (k * opC ops) (opC ops)).1, (x.2.quantise r g ops (k * opC ops) (opC ops)).2)) ([], s)

theorem State.quantiseTo_succ (s : State) (r : Run) (g : Group) (ops : BitVec 48) (n : Nat) : s.quantiseTo r g ops (n + 1) =
    ((s.quantiseTo r g ops n).1 ++ ((s.quantiseTo r g ops n).2.quantise r g ops (n * opC ops) (opC ops)).1, ((s.quantiseTo r g ops n).2.quantise r g ops (n * opC ops) (opC ops)).2) := by
  unfold State.quantiseTo
  rw [List.range_succ, List.foldl_append]
  rfl

theorem State.quantiseAll_eq (s : State) (r : Run) (g : Group) (ops : BitVec 48) : s.quantiseAll r g ops = s.quantiseTo r g ops (64 / opC ops) := by
  unfold State.quantiseAll State.quantiseTo
  congr 1

theorem State.quantiseTo_spec (mx : opC ops ≠ 0 ∧ fmtIsMx (opFmt ops) = true) (n : Nat) :
    Gives u i c g ops (fun l => l / opC ops < n) (u.quantiseTo ⟨i.g.la.val, c, g.lanes i⟩ g ops n).1
      ∧ Converts u (u.quantiseTo ⟨i.g.la.val, c, g.lanes i⟩ g ops n).2 i.g.la.val
      ∧ ∀ l, n ≤ l / opC ops → (u.quantiseTo ⟨i.g.la.val, c, g.lanes i⟩ g ops n).2.stream i c g l = u.stream i c g l := by
  induction n with
  | zero => exact ⟨⟨[], rfl, List.nodup_nil, by simp⟩, Converts.refl _ _, fun _ _ => rfl⟩
  | succ n ih =>
    obtain ⟨⟨ls, out, nodup, mem⟩, only, streams⟩ := ih
    rw [State.quantiseTo_succ]
    generalize u.quantiseTo ⟨i.g.la.val, c, g.lanes i⟩ g ops n = x at out only streams ⊢
    have same (l : Nat) (hl : l / opC ops = n) : x.2.stream i c g l = u.stream i c g l := streams l (Nat.le_of_eq hl.symm)
    obtain ⟨block, kept, others⟩ := State.quantise_spec mx n x.2 same
    dsimp only
    have all := only.trans kept
    refine ⟨⟨ls ++ blockLanes g i ops n, ?_, ?_, fun l => ?_⟩, all, fun l hl => ?_⟩
    · rw [List.map_append, ← out, ← block]
    · refine List.nodup_append.mpr ⟨nodup, (laneList_nodup _).filter _, fun a ha b hb e => ?_⟩
      subst e
      have before := ((mem a).mp ha).2
      have here := ((mem_blockLanes n a).mp hb).2
      exact absurd here (Nat.ne_of_lt before)
    · rw [List.mem_append, mem, mem_blockLanes, ← and_or_left]
      exact and_congr_right (fun _ => Nat.lt_succ_iff_lt_or_eq.symm)
    · exact (others l (Nat.ne_of_gt hl)).trans (streams l (Nat.le_of_succ_le hl))

/-- What the lanes of a CVT between unlike formats give, and the state behind it. -/
def State.cvtAll (s : State) (r : Run) (g : Group) (ops : BitVec 48) : List CvtLane × State :=
  if opC ops ≠ 0 ∧ fmtIsMx (opFmt ops) = true then s.quantiseAll r g ops
  else (s.skipFree 64).cvtEach r g (fun l x => cvtLane ops g l (decide (opC ops ≠ 0)) x (Config.free (s.freeCount + l)).toNat) (laneList r.m)

theorem State.cvtAll_gives (size : opC ops = 0 ∨ opC ops = 16 ∨ opC ops = 32) (unlike : ¬ (opC ops = 0 ∧ opFmt ops = opMod ops)) :
    Gives u i c g ops (fun _ => True) (u.cvtAll ⟨i.g.la.val, c, g.lanes i⟩ g ops).1 ∧ Converts u (u.cvtAll ⟨i.g.la.val, c, g.lanes i⟩ g ops).2 i.g.la.val := by
  unfold State.cvtAll
  split
  · rename_i mx
    rw [State.quantiseAll_eq]
    obtain ⟨⟨ls, out, nodup, mem⟩, only, -⟩ := State.quantiseTo_spec (u := u) (i := i) (c := c) (g := g) mx (64 / opC ops)
    refine ⟨⟨ls, out, nodup, fun l => ?_⟩, only⟩
    rw [mem, and_true, and_iff_left_iff_imp]
    intro on
    have := BitVec.lt_of_getLsbD on
    rcases size with zero | half | full
    · exact absurd zero mx.1
    · rw [half]; omega
    · rw [full]; omega
  · rename_i mx
    obtain ⟨out, only, -⟩ := (u.skipFree 64).cvtEach_spec i c g (g.lanes i) (fun l x => cvtLane ops g l (decide (opC ops ≠ 0)) x (Config.free (u.freeCount + l)).toNat) _ (laneList_nodup (g.lanes i))
    refine ⟨⟨laneList (g.lanes i), out.trans (List.map_congr_left (fun l _ => ?_)), laneList_nodup _, fun l => by rw [mem_laneList, and_true]⟩, (Converts.skipFree u _ 64).trans only⟩
    unfold State.cvtAt
    rw [if_neg unlike, if_neg mx]
    rfl

end

end Sys2Proof.Machine
end

section
/-! SUPPORT. CVT, UNPK12 and PK12 (02 R112, R113, R116, R127, R130): the registers that the conversions of the lanes leave; with these the
statement about them. -/

namespace Sys2Proof.Machine

/-- The write of one lane of a conversion: its element, then its block's scale. -/
def writeLane (ops : BitVec 48) (h : Group) (o : CvtLane) : Group :=
  match o.scale with
  | some v => (h.setRaw o.lane (opDst ops) (opFmt ops) o.raw).setReg o.lane (opB ops) (BitVec.ofNat 32 v)
  | none => h.setRaw o.lane (opDst ops) (opFmt ops) o.raw

theorem writeCvt_eq (ops : BitVec 48) (g : Group) (l : List CvtLane) : writeCvt ops g l = l.foldl (writeLane ops) g := rfl

theorem writeLane_onlyRegs (ops : BitVec 48) (h : Group) (o : CvtLane) : h.OnlyRegs (writeLane ops h o) := by
  unfold writeLane
  split
  · exact (h.setRaw_onlyRegs _ _ _ _).trans (Group.setReg_onlyRegs _ _ _ _)
  · exact h.setRaw_onlyRegs _ _ _ _

theorem ofLane_writeLane (ops : BitVec 48) (o : CvtLane) (hl : o.lane < 64) : Group.OfLane o.lane (fun h => writeLane ops h o) := by
  unfold writeLane
  split
  · exact (Group.ofLane_setReg hl _ _).comp (Group.ofLane_setRaw hl _ _ _)
  · exact Group.ofLane_setRaw hl _ _ _

section
variable {s u : State} {i : Issue} {c : Cmd} {g : Group} {ops : BitVec 48}

theorem State.cvtAt_lane (l : Nat) : (u.cvtAt i c g ops l).lane = l := by
  unfold State.cvtAt
  split
  · rfl
  · split <;> rfl

/-- The conversions of the lanes, written in any order. -/
theorem wroteLanes_of_gives {out : List CvtLane} (gives : Gives u i c g ops (fun _ => True) out) :
    WroteLanes g (writeCvt ops g out) (g.lanes i) (fun l => writeCvt ops g [u.cvtAt i c g ops l]) := by
  obtain ⟨ls, rfl, nodup, mem⟩ := gives
  have lanes : (ls.map (u.cvtAt i c g ops)).map CvtLane.lane = ls := by
    rw [List.map_map]
    exact (List.map_congr_left (fun l _ => State.cvtAt_lane l)).trans (List.map_id _)
  rw [writeCvt_eq]
  refine wroteLanes_of_nodup (lane := CvtLane.lane) (fun o ho => ofLane_writeLane ops o ?_) (by rw [lanes]; exact nodup) (fun l => by rw [lanes, mem, and_true])
    (writeLane_onlyRegs ops) (fun o ho r => ?_)
  · obtain ⟨l, hl, rfl⟩ := List.mem_map.mp ho
    rw [State.cvtAt_lane]
    exact BitVec.lt_of_getLsbD ((mem l).mp hl).1
  · obtain ⟨l, -, rfl⟩ := List.mem_map.mp ho
    rw [State.cvtAt_lane]
    rfl

theorem causes_of_gives {out : List CvtLane} (gives : Gives u i c g ops (fun _ => True) out) (x : Nat × Nat) :
    x ∈ out.map (fun o => (o.lane, o.cause)) ↔ x ∈ (laneList (g.lanes i)).map (fun l => (l, (u.cvtAt i c g ops l).cause)) := by
  obtain ⟨ls, rfl, -, mem⟩ := gives
  simp only [List.map_map, List.mem_map, Function.comp, State.cvtAt_lane, mem, mem_laneList, and_true]

theorem Converts.groupOf (h : Converts s u i.g.la.val) : u.groupOf i.g = s.groupOf i.g := by
  unfold State.groupOf State.groupAt
  rw [h.2.1]

/-- The end of a CVT between unlike formats. -/
theorem exec_cvt (go : Goes s i c g) (legal : legalCvt ops c = true) (free : g.pending (cvtRegs ops) = []) (unlike : ¬ (opC ops = 0 ∧ opFmt ops = opMod ops)) :
    exec (.cvt i ops) s = .next (State.settle i.g.la.val c (((s.fetched i c g).cvtAll ⟨i.g.la.val, c, g.lanes i⟩ g ops).2.watched ⟨i.g.la.val, c, g.lanes i⟩ g
      (writeCvt ops g ((s.fetched i c g).cvtAll ⟨i.g.la.val, c, g.lanes i⟩ g ops).1) 2 (opMod ops) 0xFF (opFmt ops)
      (((s.fetched i c g).cvtAll ⟨i.g.la.val, c, g.lanes i⟩ g ops).1.map (fun o => (o.lane, o.cause))))) := by
  change Host.Outcome.next (s.issue i (legalCvt ops) (cvtRegs ops) _) = _
  rw [go.issue (legal := legalCvt ops) _ legal free]
  dsimp only
  rw [if_neg unlike]
  unfold State.cvtAll
  split <;> rfl

theorem exec_cvt_copy (go : Goes s i c g) (legal : legalCvt ops c = true) (free : g.pending (cvtRegs ops) = []) (like : opC ops = 0 ∧ opFmt ops = opMod ops) :
    exec (.cvt i ops) s = .next (State.settle i.g.la.val c (.ok (s.fetched i c g)
      ((g.each (g.lanes i) (fun h l => h.setRaw l (opDst ops) (opFmt ops) (g.raw l (opA ops) (opFmt ops)))).advance 8) false)) := by
  change Host.Outcome.next (s.issue i (legalCvt ops) (cvtRegs ops) _) = _
  rw [go.issue (legal := legalCvt ops) _ legal free]
  dsimp only
  rw [if_pos like]

theorem legalCvt_size (legal : legalCvt ops c = true) : opC ops = 0 ∨ opC ops = 16 ∨ opC ops = 32 := by
  unfold legalCvt at legal
  simp only [Bool.and_eq_true, decide_eq_true_eq] at legal
  obtain ⟨⟨⟨⟨-, size⟩, -⟩, -⟩, -⟩ := legal
  exact size

theorem State.cvtAt_like (like : opC ops = 0 ∧ opFmt ops = opMod ops) (l : Nat) : u.cvtAt i c g ops l = ⟨l, g.raw l (opA ops) (opFmt ops), none, 0⟩ := by
  unfold State.cvtAt
  rw [if_pos like]

/-- CVT between unlike formats: the sentry watches its causes (R130). -/
theorem cvt_unlike (go : Goes s i c g) (legal : legalCvt ops c = true) (free : g.pending (cvtRegs ops) = []) (unlike : ¬ (opC ops = 0 ∧ opFmt ops = opMod ops)) :
    let causes := (laneList (g.lanes i)).map (fun l => (l, ((s.fetched i c g).cvtAt i c g ops l).cause))
    let f (h : Group) : Prop := WroteLanes g h (g.lanes i) (fun l => writeCvt ops g [(s.fetched i c g).cvtAt i c g ops l])
    (Quiet s i c causes → Completes s (exec (.cvt i ops) s) i c g 8 f)
      ∧ (Traps s i c causes → ∃ t h, exec (.cvt i ops) s = .next t ∧ t.groupOf i.g = some h ∧ h.parks ∧ h.path.pc = g.path.pc + 8 ∧ f h) := by
  obtain ⟨gives, only⟩ := State.cvtAll_gives (u := s.fetched i c g) (i := i) (c := c) (g := g) (legalCvt_size legal) unlike
  have there := only.groupOf.trans go.fetched_group
  have armed := only.2.2.trans (s.fetched_sentryArmed i c g)
  rw [exec_cvt go legal free unlike]
  generalize (s.fetched i c g).cvtAll ⟨i.g.la.val, c, g.lanes i⟩ g ops = x at gives only there armed ⊢
  exact watched_ends go there only.1 armed (causes_of_gives gives) (.foldl (writeLane_onlyRegs ops) x.1 g) 2 (opMod ops) 0xFF (opFmt ops)
    (fun h regs preds => (wroteLanes_of_gives gives).congr regs preds)

/-- CVT between equal formats copies; it has no cause for the sentry. -/
theorem cvt_like (go : Goes s i c g) (legal : legalCvt ops c = true) (free : g.pending (cvtRegs ops) = []) (like : opC ops = 0 ∧ opFmt ops = opMod ops) :
    Completes s (exec (.cvt i ops) s) i c g 8 (fun h => WroteLanes g h (g.lanes i) (fun l => writeCvt ops g [(s.fetched i c g).cvtAt i c g ops l])) := by
  rw [exec_cvt_copy go legal free like]
  have wrote : WroteLanes g (g.each (g.lanes i) (fun h l => h.setRaw l (opDst ops) (opFmt ops) (g.raw l (opA ops) (opFmt ops)))) (g.lanes i)
      (fun l => writeCvt ops g [(s.fetched i c g).cvtAt i c g ops l]) :=
    wroteLanes_of_foldl (lane := id) (fun l hl => Group.ofLane_setRaw (laneList_lt hl) _ _ _) (List.map_id _) (fun h l => h.setRaw_onlyRegs l _ _ _)
      (fun l _ r => by rw [State.cvtAt_like like]; rfl)
  obtain ⟨cohort, num, paths, -⟩ := (g.each_onlyRegs (g.lanes i) (fun h l => h.setRaw_onlyRegs l (opDst ops) (opFmt ops) (g.raw l (opA ops) (opFmt ops)))).frame
  exact completes_ok s _ i c g _ 8 _ go.fetched_group go.mask_ne (OnlyArray.refl _ _) cohort num paths (fun h regs preds => wrote.congr regs preds)

end

/-! ### UNPK12 and PK12 (R112, R113) -/

/-- Writes of the lanes behind writes of the lanes. -/
theorem WroteLanes.trans {g h k : Group} {m : BitVec 64} {v : Nat → Group} {f : Nat → Group → Group} (first : WroteLanes g h m v) (second : WroteLanes h k m (fun l => f l h))
    (local' : ∀ l, l < 64 → Group.OfLane l (f l)) : WroteLanes g k m (fun l => f l (v l)) := by
  refine ⟨second.1.trans first.1, fun l r hl => ?_⟩
  rw [second.2 l r hl]
  split
  · rename_i on
    exact (local' l hl).own _ _ (fun q => by rw [first.2 l q hl, if_pos on]) r
  · rename_i off
    rw [first.2 l r hl, if_neg off]

section
variable {s : State} {i : Issue} {c : Cmd} {g : Group} {ops : BitVec 48} (go : Goes s i c g)
include go

/-- The end of an instruction that has no cause for the sentry. -/
theorem watched_none {u : State} {g' : Group} (only : Converts (s.fetched i c g) u i.g.la.val) (kept : g.OnlyRegs g') (k fa fb fo : Nat) {f : Group → Prop}
    (hf : ∀ h : Group, h.regs = g'.regs → h.preds = g'.preds → f h) :
    Completes s (.next (State.settle i.g.la.val c (u.watched ⟨i.g.la.val, c, g.lanes i⟩ g g' k fa fb fo []))) i c g 8 f :=
  (watched_ends go (only.groupOf.trans go.fetched_group) only.1 (only.2.2.trans (s.fetched_sentryArmed i c g)) (causes := []) (fun _ => Iff.rfl) kept k fa fb fo hf).1
    (.inr (fun _ none => nomatch none))

omit go in
/-- The lanes' elements written into a register each. -/
theorem wroteLanes_raw (h : Group) (d fmt : Nat) (v : Nat → Conv) :
    WroteLanes h (((laneList (g.lanes i)).map (fun l => CvtLane.of (v l) l)).foldl (fun h o => h.setRaw o.lane d fmt o.raw) h) (g.lanes i) (fun l => h.setRaw l d fmt (v l).raw) := by
  refine wroteLanes_of_foldl (lane := CvtLane.lane) (fun o ho => ?_) ?_ (fun h o => h.setRaw_onlyRegs _ _ _ _) (fun o ho r => ?_)
  · obtain ⟨l, hl, rfl⟩ := List.mem_map.mp ho
    exact Group.ofLane_setRaw (laneList_lt hl) _ _ _
  · rw [List.map_map]; exact List.map_id _
  · obtain ⟨l, -, rfl⟩ := List.mem_map.mp ho
    rfl

/-- The two conversions of the lanes of an instruction, the second behind the first. -/
def State.cvtTwice (s : State) (r : Run) (g : Group) (f e : Nat → Word → Conv) : List CvtLane × List CvtLane × State :=
  ((s.cvtEach r g f (laneList r.m)).1, (s.cvtEach r g f (laneList r.m)).2.cvtEach r g e (laneList r.m))

omit go in
theorem State.cvtTwice_spec (u : State) (f e : Nat → Word → Conv) :
    (u.cvtTwice ⟨i.g.la.val, c, g.lanes i⟩ g f e).1 = (laneList (g.lanes i)).map (fun l => CvtLane.of (f l (u.stream i c g l)) l)
      ∧ (u.cvtTwice ⟨i.g.la.val, c, g.lanes i⟩ g f e).2.1 = (laneList (g.lanes i)).map (fun l => CvtLane.of (e l (State.streamAfter i c g l (f l (u.stream i c g l)).g)) l)
      ∧ Converts u (u.cvtTwice ⟨i.g.la.val, c, g.lanes i⟩ g f e).2.2 i.g.la.val := by
  unfold State.cvtTwice
  dsimp only
  obtain ⟨first, only, streams⟩ := u.cvtEach_spec i c g (g.lanes i) f _ (laneList_nodup (g.lanes i))
  obtain ⟨second, only', -⟩ := (u.cvtEach ⟨i.g.la.val, c, g.lanes i⟩ g f (laneList (g.lanes i))).2.cvtEach_spec i c g (g.lanes i) e _ (laneList_nodup (g.lanes i))
  refine ⟨first, second.trans (List.map_congr_left (fun l hl => ?_)), only.trans only'⟩
  rw [streams, if_pos hl]

theorem exec_unpk12 (clean : legalV ops = true) (sample : sampleFmt (opFmt ops) = true) (a : regNamed c.regCount (opA ops) = true)
    (dst : regsNamed c.regCount (opDst ops) 2 = true) (free : g.pending (opA ops :: regSpan (opDst ops) 2) = []) :
    let x := (s.fetched i c g).cvtTwice ⟨i.g.la.val, c, g.lanes i⟩ g (fun l w => unpkAt g ops l 0 w) (fun l w => unpkAt g ops l 1 w)
    exec (.unpk12 i ops) s = .next (State.settle i.g.la.val c (x.2.2.watched ⟨i.g.la.val, c, g.lanes i⟩ g
      (x.2.1.foldl (fun h o => h.setRaw o.lane (opDst ops + 1) (opFmt ops) o.raw) (x.1.foldl (fun h o => h.setRaw o.lane (opDst ops) (opFmt ops) o.raw) g))
      2 0x0E 0xFF (opFmt ops) [])) := by
  change Host.Outcome.next (s.issue i (fun c => legalV ops && sampleFmt (opFmt ops) && regNamed c.regCount (opA ops) && regsNamed c.regCount (opDst ops) 2)
    (opA ops :: regSpan (opDst ops) 2) _) = _
  rw [go.issue (legal := fun c => legalV ops && sampleFmt (opFmt ops) && regNamed c.regCount (opA ops) && regsNamed c.regCount (opDst ops) 2) _
    (by simp [clean, sample, a, dst]) free]
  unfold State.cvtTwice unpkAt
  dsimp only
  rw [List.nil_append, List.nil_append]

theorem exec_pk12 (clean : legalV ops = true) (sample : sampleFmt (opMod ops) = true) (a : regNamed c.regCount (opA ops) = true) (b : regNamed c.regCount (opB ops) = true)
    (dst : regNamed c.regCount (opDst ops) = true) (free : g.pending [opDst ops, opA ops, opB ops] = []) :
    let x := (s.fetched i c g).cvtTwice ⟨i.g.la.val, c, g.lanes i⟩ g (fun l w => pkAt g ops (opA ops) l 0 w) (fun l w => pkAt g ops (opB ops) l 1 w)
    exec (.pk12 i ops) s = .next (State.settle i.g.la.val c (x.2.2.watched ⟨i.g.la.val, c, g.lanes i⟩ g
      ((x.1.zip x.2.1).foldl (fun h o => h.setReg o.1.lane (opDst ops) (BitVec.ofNat 32 (o.1.raw % 4096 + 4096 * (o.2.raw % 4096)))) g)
      2 (opMod ops) (opMod ops) 0x0E [])) := by
  change Host.Outcome.next (s.issue i (fun c => legalV ops && sampleFmt (opMod ops) && regNamed c.regCount (opA ops) && regNamed c.regCount (opB ops) && regNamed c.regCount (opDst ops))
    [opDst ops, opA ops, opB ops] _) = _
  rw [go.issue (legal := fun c => legalV ops && sampleFmt (opMod ops) && regNamed c.regCount (opA ops) && regNamed c.regCount (opB ops) && regNamed c.regCount (opDst ops)) _
    (by simp [clean, sample, a, b, dst]) free]
  unfold State.cvtTwice pkAt
  dsimp only

theorem unpk12_completes (clean : legalV ops = true) (sample : sampleFmt (opFmt ops) = true) (a : regNamed c.regCount (opA ops) = true)
    (dst : regsNamed c.regCount (opDst ops) 2 = true) (free : g.pending (opA ops :: regSpan (opDst ops) 2) = []) :
    Completes s (exec (.unpk12 i ops) s) i c g 8 (fun h => WroteLanes g h (g.lanes i) (fun l =>
      let a := unpkAt g ops l 0 ((s.fetched i c g).stream i c g l)
      let b := unpkAt g ops l 1 (State.streamAfter i c g l a.g)
      (g.setRaw l (opDst ops) (opFmt ops) a.raw).setRaw l (opDst ops + 1) (opFmt ops) b.raw)) := by
  obtain ⟨first, second, only⟩ := (s.fetched i c g).cvtTwice_spec (i := i) (c := c) (g := g) (fun l w => unpkAt g ops l 0 w) (fun l w => unpkAt g ops l 1 w)
  rw [exec_unpk12 go clean sample a dst free]
  generalize (s.fetched i c g).cvtTwice ⟨i.g.la.val, c, g.lanes i⟩ g (fun l w => unpkAt g ops l 0 w) (fun l w => unpkAt g ops l 1 w) = x at first second only ⊢
  rw [first, second]
  refine watched_none go only ((Group.OnlyRegs.foldl (fun h _ => h.setRaw_onlyRegs _ _ _ _) _ _).trans (.foldl (fun h _ => h.setRaw_onlyRegs _ _ _ _) _ _)) _ _ _ _
    (fun h regs preds => WroteLanes.congr ?_ regs preds)
  exact WroteLanes.trans (wroteLanes_raw g _ _ _)
    (f := fun l h => h.setRaw l (opDst ops + 1) (opFmt ops) (unpkAt g ops l 1 (State.streamAfter i c g l (unpkAt g ops l 0 ((s.fetched i c g).stream i c g l)).g)).raw)
    (wroteLanes_raw _ _ _ _) (fun l hl => Group.ofLane_setRaw hl _ _ _)

theorem pk12_completes (clean : legalV ops = true) (sample : sampleFmt (opMod ops) = true) (a : regNamed c.regCount (opA ops) = true) (b : regNamed c.regCount (opB ops) = true)
    (dst : regNamed c.regCount (opDst ops) = true) (free : g.pending [opDst ops, opA ops, opB ops] = []) :
    Completes s (exec (.pk12 i ops) s) i c g 8 (fun h => WroteLanes g h (g.lanes i) (fun l =>
      let a := pkAt g ops (opA ops) l 0 ((s.fetched i c g).stream i c g l)
      let b := pkAt g ops (opB ops) l 1 (State.streamAfter i c g l a.g)
      g.setReg l (opDst ops) (BitVec.ofNat 32 (a.raw % 4096 + 4096 * (b.raw % 4096))))) := by
  obtain ⟨first, second, only⟩ := (s.fetched i c g).cvtTwice_spec (i := i) (c := c) (g := g) (fun l w => pkAt g ops (opA ops) l 0 w) (fun l w => pkAt g ops (opB ops) l 1 w)
  rw [exec_pk12 go clean sample a b dst free]
  generalize (s.fetched i c g).cvtTwice ⟨i.g.la.val, c, g.lanes i⟩ g (fun l w => pkAt g ops (opA ops) l 0 w) (fun l w => pkAt g ops (opB ops) l 1 w) = x at first second only ⊢
  rw [first, second, List.zip_map']
  refine watched_none go only (.foldl (fun h _ => h.setReg_onlyRegs _ _ _) _ _) _ _ _ _ (fun h regs preds => WroteLanes.congr ?_ regs preds)
  refine wroteLanes_of_foldl (lane := fun o : CvtLane × CvtLane => o.1.lane) (fun o ho => ?_) ?_ (fun h o => h.setReg_onlyRegs _ _ _) (fun o ho r => ?_)
  · obtain ⟨l, hl, rfl⟩ := List.mem_map.mp ho
    exact Group.ofLane_setReg (laneList_lt hl) _ _
  · rw [List.map_map]; exact List.map_id _
  · obtain ⟨l, -, rfl⟩ := List.mem_map.mp ho
    rfl

end

/-- Settles O5: each lane draws from its own stream and writes what it converts; only CVT has causes for the sentry. -/
theorem conversionsComplete : Obligations.ConversionsComplete := by
  unfold Obligations.ConversionsComplete
  intro s i c g ops go u m
  refine ⟨fun legal free => ?_, fun clean sample a dst free => unpk12_completes go clean sample a dst free,
    fun clean sample a b dst free => pk12_completes go clean sample a b dst free⟩
  by_cases like : opC ops = 0 ∧ opFmt ops = opMod ops
  · refine ⟨fun _ => cvt_like go legal free like, fun traps => ?_⟩
    obtain ⟨-, x, hx, cause, -⟩ := traps
    obtain ⟨l, -, rfl⟩ := List.mem_map.mp hx
    rw [State.cvtAt_like like] at cause
    exact absurd rfl cause
  · exact cvt_unlike go legal free like

end Sys2Proof.Machine
end

section
/-! SUPPORT. Groups that wait (02 R45, R60, R68, R206): what the arrival of a load leaves of its group; with these the statement about the
events of waiting groups. -/

namespace Sys2Proof.Machine

/-! ### A load that is all there (R45) -/

/-- The registers that a load writes. -/
def Group.take (g : Group) (o : LoadOp) : Group := (o.done ++ o.arrived).foldl (fun h x => if o.writes = [] then h else h.setBytes x.1 (opDst o.ops) x.2) g

/-- A change of registers that looks at nothing of the group but its registers. -/
structure Group.RegsOnly (f : Group → Group) : Prop where
  only : ∀ g : Group, g.OnlyRegs (f g)
  loads : ∀ (g : Group) l, f { g with loads := l } = { f g with loads := l }

theorem Group.regsOnly_id : Group.RegsOnly (fun g => g) := ⟨Group.OnlyRegs.refl, fun _ _ => rfl⟩

theorem Group.RegsOnly.foldl {α : Type} {F : Group → α → Group} (step : ∀ a, Group.RegsOnly (fun g => F g a)) (l : List α) : Group.RegsOnly (fun g => l.foldl F g) := by
  refine ⟨fun g => .foldl (fun h a => (step a).only h) l g, ?_⟩
  induction l with
  | nil => exact fun _ _ => rfl
  | cons a l ih =>
    intro g k
    rw [List.foldl_cons, (step a).loads, ih]
    rfl

theorem Group.regsOnly_setReg (l r : Nat) (v : Word32) : Group.RegsOnly (fun g => g.setReg l r v) :=
  ⟨fun g => g.setReg_onlyRegs l r v, fun g k => by unfold Group.setReg; split <;> rfl⟩

theorem Group.regsOnly_take (o : LoadOp) : Group.RegsOnly (fun g => g.take o) :=
  .foldl (fun x => by
    by_cases none : o.writes = []
    · simp only [if_pos none]; exact Group.regsOnly_id
    · simp only [if_neg none]; exact .foldl (fun k => Group.regsOnly_setReg _ _ _) _) _

/-! ### What an arrival leaves of its group -/

/-- A group as its loads `done` leave it, whatever it still awaits. -/
def Group.after (g : Group) (done : List LoadOp) (left : List LoadOp) : Group := { done.foldl Group.take g with loads := left }

theorem Group.after_frame (g : Group) (done left : List LoadOp) :
    (g.after done left).cohort = g.cohort ∧ (g.after done left).num = g.num ∧ (g.after done left).paths = g.paths ∧ (g.after done left).preds = g.preds ∧ (g.after done left).st = g.st := by
  obtain ⟨cohort, num, paths, preds, -, st⟩ := (Group.OnlyRegs.foldl (fun h o => (Group.regsOnly_take o).only h) done g).frame
  exact ⟨cohort, num, paths, preds, st⟩

theorem Group.take_after (g : Group) (done left : List LoadOp) (o : LoadOp) (k : List LoadOp) :
    ({ (g.after done left).take o with loads := k } : Group) = g.after (done ++ [o]) k := by
  unfold Group.after
  rw [(Group.regsOnly_take o).loads, List.foldl_append]
  rfl

theorem State.groupOf_of_groups {s t : State} {r : GroupRef} (same : (t.array r.la.val).groups = (s.array r.la.val).groups) : t.groupOf r = s.groupOf r := by
  unfold State.groupOf State.groupAt
  rw [same]

/-- An acquire leaves a group all but the marks of its loads. -/
theorem State.acquire_groupOf {s : State} {r : GroupRef} {g : Group} (there : s.groupOf r = some g) (p : Fin 16) (scope : Nat) :
    ∃ l, (s.acquire r.la.val p scope).groupOf r = some { g with loads := l } ∧ l.map (·.seq) = g.loads.map (·.seq) := by
  unfold State.groupOf State.groupAt at *
  rw [State.acquire_array]
  split
  · exact ⟨g.loads, there, rfl⟩
  · unfold ArrayState.noFill
    rw [List.find?_map]
    exact ⟨_, Option.map_eq_some_iff.mpr ⟨g, there, rfl⟩, by rw [List.map_map]; rfl⟩

theorem ArrayState.l1Fill_groups (a : ArrayState) (sets line : Nat) (d : Line) (instr oldest : Bool) : (a.l1Fill sets line d instr oldest).groups = a.groups := by
  unfold ArrayState.l1Fill
  split <;> rfl

theorem State.fillParts_groups (s : State) (la : Nat) (c : Cmd) (o : LoadOp) : ((s.fillParts la c o).array la).groups = (s.array la).groups := by
  unfold State.fillParts
  split
  · rfl
  · rw [State.onArray, State.array_setArray]
    refine List.foldlRecOn (motive := fun a : ArrayState => a.groups = (s.array la).groups) _ _ rfl (fun a ha p _ => ?_)
    split
    · rw [ArrayState.l1Fill_groups]; exact ha
    · exact ha

/-- What an arrival depends on beside the load: the host's reads, the requests of the links, and the group's numbers. -/
def SameAsks (s t : State) : Prop := t.host.reads = s.host.reads ∧ t.link.reqs = s.link.reqs

theorem State.arrivedAll_congr {s t : State} (same : SameAsks s t) {g h : Group} (cohort : h.cohort = g.cohort) (num : h.num = g.num) (la : Nat) (o : LoadOp) :
    t.arrivedAll la h o = s.arrivedAll la g o := by
  unfold State.arrivedAll State.awaits
  rw [same.1, same.2, cohort, num]

theorem State.acquire_asks (s : State) (la : Nat) (p : Fin 16) (scope : Nat) : SameAsks s (s.acquire la p scope) := by
  unfold State.acquire
  split
  · exact ⟨rfl, rfl⟩
  · dsimp only
    split <;> exact ⟨rfl, rfl⟩

theorem State.fillParts_asks (s : State) (la : Nat) (c : Cmd) (o : LoadOp) : SameAsks s (s.fillParts la c o) := by
  unfold State.fillParts
  split <;> exact ⟨rfl, rfl⟩

theorem State.landLoad_asks (s : State) (la : Nat) (c : Cmd) (g : Group) (o : LoadOp) : SameAsks s (s.landLoad la c g o) := by
  unfold State.landLoad
  dsimp only
  split
  · obtain ⟨reads, reqs⟩ := State.acquire_asks ((State.putGroup _ _ _).fillParts la c o) la c.part (opActs o.ops)
    obtain ⟨reads', reqs'⟩ := State.fillParts_asks (State.putGroup _ _ _) la c o
    exact ⟨reads.trans reads', reqs.trans reqs'⟩
  · exact State.fillParts_asks (State.putGroup _ _ _) la c o

/-- A load that lands writes its registers, and is awaited no more. -/
theorem State.landLoad_groupOf {s : State} {r : GroupRef} {g g0 : Group} {done left : List LoadOp} (there : s.groupOf r = some g) (is : g = g0.after done left) (c : Cmd) (o : LoadOp) :
    ∃ l, (s.landLoad r.la.val c g o).groupOf r = some (g0.after (done ++ [o]) l) ∧ l.map (·.seq) = (left.filter (fun x => decide (x.seq ≠ o.seq))).map (·.seq) := by
  obtain ⟨cohort, num, -, -, loads, -⟩ := ((Group.regsOnly_take o).only g).frame
  have put : (((s.charge c.part (some c.ref) .sram 1).putGroup r.la.val { g.take o with loads := (g.take o).loads.filter (fun x => decide (x.seq ≠ o.seq)) }).fillParts r.la.val c o).groupOf r
      = some (g0.after (done ++ [o]) (left.filter (fun x => decide (x.seq ≠ o.seq)))) := by
    refine (State.groupOf_of_groups (State.fillParts_groups _ _ _ _)).trans
      ((State.groupOf_putGroup (s.charge c.part (some c.ref) .sram 1) r g { g.take o with loads := (g.take o).loads.filter (fun x => decide (x.seq ≠ o.seq)) } there cohort num).trans ?_)
    rw [loads]
    subst is
    exact congrArg some (Group.take_after g0 done left o _)
  unfold State.landLoad
  dsimp only
  split
  · obtain ⟨l, found, seqs⟩ := State.acquire_groupOf put c.part (opActs o.ops)
    exact ⟨l, found, seqs⟩
  · exact ⟨_, put, rfl⟩

/-- A load of a group lands where it is all there, clean. -/
def State.landOne (r : GroupRef) (c : Cmd) (s : State) (o : LoadOp) : State :=
  match s.groupOf r with
  | none => s
  | some g => if s.arrivedAll r.la.val g o && !o.bad then s.landLoad r.la.val c g o else s

theorem State.landOne_eq {s : State} {r : GroupRef} {g : Group} (there : s.groupOf r = some g) (c : Cmd) (o : LoadOp) :
    State.landOne r c s o = if s.arrivedAll r.la.val g o && !o.bad then s.landLoad r.la.val c g o else s := by
  unfold State.landOne
  rw [there]

theorem State.landLoads_eq {s : State} {r : GroupRef} {g : Group} (there : s.groupOf r = some g) (c : Cmd) : s.landLoads r.la.val c r = g.loads.foldl (State.landOne r c) s := by
  unfold State.landLoads
  rw [there]
  rfl

/-- The loads of a group land one by one, each of them all there. -/
theorem State.landLoads_fold (r : GroupRef) (c : Cmd) (g0 : Group) (ls done left : List LoadOp) (s : State) (there : s.groupOf r = some (g0.after done left))
    (all : ∀ o ∈ ls, s.arrivedAll r.la.val g0 o = true ∧ o.bad = false) (covered : ∀ x ∈ left.map (·.seq), x ∈ ls.map (·.seq)) :
    (ls.foldl (State.landOne r c) s).groupOf r = some (g0.after (done ++ ls) []) := by
  induction ls generalizing s done left with
  | nil =>
    cases left with
    | nil => rw [List.append_nil]; exact there
    | cons o l => exact nomatch covered o.seq List.mem_cons_self
  | cons o ls ih =>
    obtain ⟨cohort, num, -⟩ := g0.after_frame done left
    obtain ⟨arrived, good⟩ := all o List.mem_cons_self
    obtain ⟨l, found, seqs⟩ := State.landLoad_groupOf there rfl c o
    have asks := s.landLoad_asks r.la.val c (g0.after done left) o
    rw [List.foldl_cons, State.landOne_eq there, State.arrivedAll_congr ⟨rfl, rfl⟩ cohort num, arrived, good, Bool.not_false, Bool.and_self, if_pos rfl,
      ← List.singleton_append, ← List.append_assoc]
    refine ih _ _ _ found (fun p hp => ?_) (fun x hx => ?_)
    · rw [State.arrivedAll_congr asks rfl rfl]
      exact all p (List.mem_cons_of_mem _ hp)
    · rw [seqs] at hx
      obtain ⟨y, hy, rfl⟩ := List.mem_map.mp hx
      obtain ⟨kept, other⟩ := List.mem_filter.mp hy
      rcases List.mem_cons.mp (covered y.seq (List.mem_map_of_mem kept)) with same | later
      · exact absurd same (by simpa using other)
      · exact later

theorem State.landLoads_groupOf {s : State} {r : GroupRef} {g : Group} (there : s.groupOf r = some g) (c : Cmd) (all : ∀ o ∈ g.loads, s.arrivedAll r.la.val g o = true ∧ o.bad = false) :
    (s.landLoads r.la.val c r).groupOf r = some (g.after g.loads []) := by
  rw [State.landLoads_eq there]
  exact State.landLoads_fold r c g g.loads [] g.loads s there all (fun _ hx => hx)

/-! ### The events of waiting groups -/

section
variable {s : State} {r : GroupRef} {g : Group} (there : s.groupOf r = some g) {c : Cmd} (occupant : s.occupantCmd r.la.val = some c) (running : c.stage = .running)
include there occupant running

/-- OPERAND_ARRIVAL of a group that waits lands its loads and wakes it. -/
theorem exec_operandArrival {w : WaitReason} (waits : g.st = .waiting w) (slotless : ∀ f src rec, w ≠ .parkSlot f src rec) {h : Group} {w' : WaitReason}
    (landed : (s.landLoads r.la.val c r).groupOf r = some h) (still : h.st = .waiting w') :
    exec (.operandArrival r) s = .next ((s.landLoads r.la.val c r).wakeGroup r.la.val c h) := by
  change execOperandArrival r s = _
  unfold execOperandArrival
  simp only [occupant, there, running]
  rw [if_neg (fun h => h rfl), waits]
  cases w with
  | parkSlot f src rec => exact absurd rfl (slotless f src rec)
  | _ => simp only [landed, still]

/-- Every load of a group that waits for loads has come back clean: they land, and the group goes on. -/
theorem operandArrival_lands {q : List Nat} (waits : g.st = .waiting (.operand q)) (all : ∀ o ∈ g.loads, s.arrivedAll r.la.val g o = true ∧ o.bad = false) :
    ∃ t h, exec (.operandArrival r) s = .next t ∧ t.groupOf r = some h ∧ h.loads = [] ∧ h.paths = g.paths ∧ h.preds = g.preds
      ∧ h.st = (if g.path.eligible = true then .ready else .waiting .barrier)
      ∧ ∀ l k, h.reg l k = (g.loads.foldl (fun y o => (o.done ++ o.arrived).foldl (fun y v => if o.writes = [] then y else y.setBytes v.1 (opDst o.ops) v.2) y) g).reg l k := by
  obtain ⟨cohort, num, paths, preds, st⟩ := g.after_frame g.loads []
  have landed := State.landLoads_groupOf there c all
  have current : (g.after g.loads []).path = g.path := by unfold Group.path; rw [paths]
  have run := exec_operandArrival there occupant running waits (fun _ _ _ => nofun) landed (st.trans waits)
  have wakes : (s.landLoads r.la.val c r).wakeGroup r.la.val c (g.after g.loads []) = (s.landLoads r.la.val c r).putGroup r.la.val (g.after g.loads []).settled := by
    unfold State.wakeGroup State.wakeable
    rw [st, waits]
    rfl
  refine ⟨_, (g.after g.loads []).settled, run.trans (congrArg _ wakes), State.groupOf_putGroup _ r _ _ landed rfl rfl, rfl, paths, preds, ?_, fun _ _ => rfl⟩
  unfold Group.settled
  rw [current]

theorem operandArrival_refused {q : List Nat} (waits : g.st = .waiting (.operand q)) {o : LoadOp} (one : g.loads = [o]) (arrived : s.arrivedAll r.la.val g o = true)
    (refused : o.refusedLanes ≠ []) : ∃ t h, exec (.operandArrival r) s = .next t ∧ t.groupOf r = some h ∧ h.parks ∧ h.regs = g.regs := by
  have bad : o.bad = true := by unfold LoadOp.bad; simp [refused]
  have stays : s.landLoads r.la.val c r = s := by
    rw [State.landLoads_eq there, one, List.foldl_cons, List.foldl_nil, State.landOne_eq there, bad, Bool.not_true, Bool.and_false, if_neg Bool.false_ne_true]
  have run := exec_operandArrival there occupant running waits (fun _ _ _ => nofun) (by rw [stays]; exact there) waits
  have parks : ∃ f, s.wakeGroup r.la.val c g = s.park r.la.val c g f (.load o.seq) none := by
    unfold State.wakeGroup State.loadFault
    rw [one, List.find?_cons_of_pos (by rw [arrived, bad]; rfl)]
    dsimp only
    rw [if_pos refused]
    exact ⟨_, rfl⟩
  obtain ⟨f, e⟩ := parks
  obtain ⟨st, found, parked⟩ := State.park_parks there rfl rfl c f (.load o.seq) none
  rw [stays, e] at run
  exact ⟨_, _, run, found, parked, rfl⟩

theorem operandArrival_released {scope : Nat} (waits : g.st = .waiting (.release scope)) (done : s.releaseDone r.la.val g.cohort g.num scope = true) (none : g.loads = [])
    (eligible : g.path.eligible = true) : ∃ t, exec (.operandArrival r) s = .next t ∧ t.groupOf r = some { g with st := .ready } ∧ OnlyArray s t r.la.val := by
  have stays : s.landLoads r.la.val c r = s := by
    rw [State.landLoads_eq there, none, List.foldl_nil]
  have run := exec_operandArrival there occupant running waits (fun _ _ _ => nofun) (by rw [stays]; exact there) waits
  have wakes : s.wakeGroup r.la.val c g = s.putGroup r.la.val { g with st := .ready } := by
    unfold State.wakeGroup State.wakeable Group.resumed Group.settled
    rw [none, waits, eligible]
    dsimp only [List.find?_nil]
    rw [if_pos done]
    rfl
  rw [stays, wakes] at run
  exact ⟨_, run, State.groupOf_putGroup s r g _ there rfl rfl, OnlyArray.put _ _ _⟩

end

/-- Settles O16: each event of a waiting group. -/
theorem waitingGroupsGoOn : Obligations.WaitingGroupsGoOn := by
  unfold Obligations.WaitingGroupsGoOn
  intro s r g there
  refine ⟨fun c occupant running q waits => ⟨operandArrival_lands there occupant running waits, fun o one arrived refused => operandArrival_refused there occupant running waits one arrived refused⟩,
    fun c scope occupant running waits done none eligible => operandArrival_released there occupant running waits done none eligible, fun c f src rec k l occupant queue waits free => ?slot,
    fun waits space => ?entry, fun ready due => ?switch⟩
  case slot =>
    obtain ⟨cohort, num⟩ := s.groupOf_names r g there
    have run : exec (.parkSlotGranted r.la) s = .next (s.parkIn r.la.val c g k f src rec) := by
      change execParkSlotGranted r.la s = _
      unfold execParkSlotGranted
      have here : s.groupOf ⟨r.la, g.cohort, g.num⟩ = some g := by rw [cohort, num]; exact there
      simp only [occupant, queue, List.head?_cons, free, here, waits]
    obtain ⟨ticket, page, array⟩ := s.parkIn_array r.la.val c g k f src rec
    refine ⟨_, ⟨ticket, g.cohort, some g.num, f, src, page⟩, run, State.parkIn_groupOf there rfl rfl c k f src rec, ?_⟩
    rw [array]
    unfold ArrayState.parked ArrayState.putGroup
    exact ⟨by simp only [Tbl.get_set_same], rfl, rfl, rfl, rfl, fun h => by simp at h⟩
  case entry =>
    refine ⟨s.putGroup r.la.val { g with st := .ready }, ?_, State.groupOf_putGroup s r g _ there rfl rfl, OnlyArray.put _ _ _⟩
    change execTileQueueSpaceFreed r s = _
    unfold execTileQueueSpaceFreed
    simp only [there]
    exact if_pos ⟨waits, space⟩
  case switch =>
    obtain ⟨cohort, num, regs, preds, -⟩ := g.switch_sameRun
    refine ⟨s.putGroup r.la.val g.switch, ?_, State.groupOf_putGroup s r g _ there cohort num, OnlyArray.put _ _ _, regs, preds⟩
    change execPathQuantumSwitch r s = _
    unfold execPathQuantumSwitch
    simp only [there]
    exact if_pos ⟨ready, due⟩

end Sys2Proof.Machine
end

section
/-! SUPPORT. Kills (02 R65, R66, R71, R75, R76; 09 R272, R273): what a command that is killed leaves of the arrays and of the list of commands;
with these the statement about parks that expire and cohorts that trap. -/

namespace Sys2Proof.Machine

/-! ### Dropped requests (R303, R331) -/

@[simp] theorem State.sendHeld_roster (s : State) (port : Fin 2) : (s.sendHeld port).roster = s.roster := by
  unfold State.sendHeld
  refine foldl_roster _ (fun s r => ?_) _ _
  split <;> simp

@[simp] theorem State.settleInvals_roster (s : State) : s.settleInvals.roster = s.roster := by
  unfold State.settleInvals
  dsimp only
  rw [State.sendHeld_roster, State.sendHeld_roster]
  refine foldl_keeps (fun y : List AtsInval × State => y.2.roster) _ (fun y x => ?_) s.host.invals ([], s)
  split <;> rfl

@[simp] theorem State.dropReads_roster (s : State) (c : CmdRef) : (s.dropReads c).roster = s.roster := by
  unfold State.dropReads
  exact State.settleInvals_roster _

@[simp] theorem State.sentryFree_roster (s : State) (t : BitVec 32) : (s.sentryFree t).roster = s.roster := rfl

/-! ### Arrays that are left (R76, R273) -/

/-- A vacated array has no park. -/
theorem State.vacateArrays_park (s : State) (c : Cmd) {la : Nat} {k : Nat} (free : Tbl.get none (s.array la).parks k = none) :
    Tbl.get none ((s.vacateArrays c).array la).parks k = none := by
  unfold State.vacateArrays
  refine List.foldlRecOn (motive := fun t : State => Tbl.get none (t.array la).parks k = none) _ _ free (fun t ht other _ => ?_)
  split
  · by_cases here : la = other
    · subst here
      rw [State.array_setArray]
      rfl
    · rw [State.array_setArray_ne _ _ _ _ here, State.array_of_roster (foldl_roster _ State.sentryFree_roster _ _)]
      exact ht
  · exact ht

theorem State.vacateArrays_cmds (s : State) (c : Cmd) : (s.vacateArrays c).chan.cmds = s.chan.cmds := by
  unfold State.vacateArrays
  refine List.foldlRecOn (motive := fun t : State => t.chan.cmds = s.chan.cmds) _ _ rfl (fun t ht other _ => ?_)
  split
  · exact (congrArg Roster.cmds (foldl_roster _ State.sentryFree_roster _ t)).trans ht
  · exact ht

/-! ### The list of commands -/

/-- A command replaced is read back. -/
theorem State.cmd_setCmd_same {s : State} {ref : CmdRef} {c d : Cmd} (there : s.cmd ref = some c) (name : d.ref = ref) : (s.setCmd d).cmd ref = some d := by
  subst name
  unfold State.cmd State.setCmd at *
  dsimp only at there ⊢
  generalize s.chan.cmds = l at there
  induction l with
  | nil => cases there
  | cons y l ih =>
    by_cases same : y.ch = d.ch ∧ y.idx = d.idx
    · simp [same, Cmd.ref]
    · rw [List.map_cons, if_neg same, List.find?_cons_of_neg (by rw [decide_eq_true_eq]; exact same)]
      exact ih (by rwa [List.find?_cons_of_neg (by rw [decide_eq_true_eq]; exact same)] at there)

theorem State.cmd_name {s : State} {ref : CmdRef} {c : Cmd} (there : s.cmd ref = some c) : c.ref = ref := by
  obtain ⟨ch, idx⟩ : c.ch = ref.ch ∧ c.idx = ref.idx := by simpa using List.find?_some there
  unfold Cmd.ref
  rw [ch, idx]

/-- The command that occupies an array is listed. -/
theorem State.cmd_of_occupant {s : State} {la : Nat} {c : Cmd} (occupant : s.occupantCmd la = some c) : s.cmd c.ref = some c := by
  obtain ⟨o, -, there⟩ := Option.bind_eq_some_iff.mp occupant
  rw [State.cmd_name there]
  exact there

theorem State.cmd_of_cmds {s t : State} (same : t.chan.cmds = s.chan.cmds) (ref : CmdRef) : t.cmd ref = s.cmd ref := by
  unfold State.cmd
  rw [same]

/-- A running command that is killed drains, with the status given. -/
theorem State.killCmd_cmd {s : State} {ref : CmdRef} {x c : Cmd} (there : s.cmd ref = some x) (name : c.ref = ref) (fin : Option (Nat × BitVec 32)) :
    (s.killCmd c fin).cmd ref = some { c with stage := .draining fin, build := none, left := 0, buf := [], counts := ⟨0, 0, 0, 0, 0⟩ } := by
  have listed : ((s.vacateArrays c).dropReads c.ref).cmd ref = some x := by
    rw [State.cmd_of_roster (State.dropReads_roster _ _), State.cmd_of_cmds (s.vacateArrays_cmds c)]
    exact there
  unfold State.killCmd
  dsimp only
  rw [State.cmd_setPartition']
  exact State.cmd_setCmd_same listed name

theorem State.killCmd_park (s : State) (c : Cmd) (fin : Option (Nat × BitVec 32)) {la k : Nat} (free : Tbl.get none (s.array la).parks k = none) :
    Tbl.get none ((s.killCmd c fin).array la).parks k = none := by
  unfold State.killCmd
  dsimp only
  rw [State.array_setPartition', State.array_setCmd', State.array_of_roster (State.dropReads_roster _ _)]
  exact s.vacateArrays_park c free

/-! ### A park that expires (R75) -/

theorem State.freePark_cmds (s : State) (la : Nat) (k : Fin 16) : (s.freePark la k).chan.cmds = s.chan.cmds := by
  unfold State.freePark
  split <;> rfl

theorem State.freePark_park (s : State) (la : Nat) (k : Fin 16) : Tbl.get none ((s.freePark la k).array la).parks k.val = none := by
  unfold State.freePark
  split
  · assumption
  · rw [State.onArray, State.array_setArray]
    simp only [Tbl.get_set_same]

section
variable {s : State} {la : Fin 384} {c : Cmd} (occupant : s.occupantCmd la.val = some c) (running : c.stage = .running)
include occupant running

theorem parkLimit_expires {k : Fin 16} {p : Park} (parked : Tbl.get none (s.array la.val).parks k.val = some p) (single : p.fault.cls ≠ .barrierDiverged)
    (plain : c.isSealed = false) (holds : c.arrays ≠ []) :
    ∃ t d, exec (.parkLimitExpired la (.slot k)) s = .next t ∧ t.cmd c.ref = some d ∧ Tbl.get none (t.array la.val).parks k.val = none
      ∧ (c.parkKills < 2 → d.stage = .draining none ∧ d.parkKills = c.parkKills + 1)
      ∧ (2 ≤ c.parkKills → d.stage = .draining (some (0x13, BitVec.ofNat 32 la.val))) := by
  have run : exec (.parkLimitExpired la (.slot k)) s = .next ((s.freePark la.val k).parkExpire c la.val p.fault.cls) := by
    change execParkLimitExpired la (.slot k) s = _
    unfold execParkLimitExpired
    simp only [occupant, parked]
  have listed : (s.freePark la.val k).cmd c.ref = some c := (State.cmd_of_cmds (s.freePark_cmds la.val k) c.ref).trans (State.cmd_of_occupant occupant)
  unfold State.parkExpire at run
  rw [if_neg single, if_neg (by rw [running]; exact fun h => h rfl), if_neg (by rw [plain]; exact Bool.false_ne_true)] at run
  by_cases third : 2 ≤ c.parkKills
  · have ended : (s.freePark la.val k).endCmd c 0x13 (BitVec.ofNat 32 la.val) = (s.freePark la.val k).killCmd c (some (0x13, BitVec.ofNat 32 la.val)) := by
      unfold State.endCmd
      rw [running]
      exact if_neg holds
    rw [if_pos third, ended] at run
    exact ⟨_, _, run, State.killCmd_cmd listed rfl _, State.killCmd_park _ _ _ (s.freePark_park la.val k), fun h => absurd h (Nat.not_lt.mpr third), fun _ => rfl⟩
  · rw [if_neg third] at run
    exact ⟨_, _, run, State.killCmd_cmd (c := { c with parkKills := c.parkKills + 1 }) listed rfl _, State.killCmd_park _ _ _ (s.freePark_park la.val k), fun _ => ⟨rfl, rfl⟩,
      fun h => absurd h third⟩

/-! ### A cohort that has diverged (R65, R66, R71) -/

/-- The park of a cohort that has diverged. -/
def State.divergedPark (s : State) (la cohort : Nat) (k : Fin 16) : Park :=
  ⟨ticketOf la k (s.array la).parkSeq, cohort, none, ⟨.barrierDiverged, 0, 0, 0, 0⟩, .instr, none⟩

/-- The state in which a diverged cohort is parked and its command drains. -/
def State.trapped (s : State) (la : Nat) (c : Cmd) (cohort : Nat) (k : Fin 16) : State :=
  ((((s.freeVal 64).2.vacateArrays c).dropReads c.ref).onArray la (fun x => { x with
      groups := ((s.array la).groups.filter (fun g => decide (g.cohort = cohort))).map (fun g => { g with st := .parked k })
      cohorts := (s.array la).cohorts.filter (fun x => decide (x.idx = cohort))
      parks := [(k.val, some (s.divergedPark la cohort k))]
      parkSeq := x.parkSeq + 1 })).setCmd { c with stage := .draining (some (0x12, BitVec.ofNat 32 la)), build := none }

theorem exec_barrierDiverged {cohort : Nat} {k : Fin 16} (free : (s.array la.val).freeSlot = some k) (diverged : (s.array la.val).diverged cohort = true) :
    ∃ t, exec (.barrierDiverged la cohort) s = .next t ∧ t.roster = (s.trapped la.val c cohort k).roster := by
  have run : exec (.barrierDiverged la cohort) s = execBarrierDiverged la cohort s := rfl
  unfold execBarrierDiverged at run
  simp only [occupant, free] at run
  rw [if_neg (by simp [running, diverged])] at run
  refine ⟨_, run, foldl_roster _ (fun t g => ?_) _ _⟩
  split
  · rfl
  · exact State.postFault_roster _ _ _ _

omit running in
theorem State.trapped_cmd (cohort : Nat) (k : Fin 16) :
    (s.trapped la.val c cohort k).cmd c.ref = some { c with stage := .draining (some (0x12, BitVec.ofNat 32 la.val)), build := none } := by
  have listed : (((s.freeVal 64).2.vacateArrays c).dropReads c.ref).cmd c.ref = some c := by
    rw [State.cmd_of_roster (State.dropReads_roster _ _), State.cmd_of_cmds (State.vacateArrays_cmds _ c)]
    exact State.cmd_of_occupant occupant
  unfold State.trapped
  exact State.cmd_setCmd_same (c := c) (by rw [State.onArray, State.cmd_setArray']; exact listed) rfl

theorem cohort_diverges {cohort : Nat} {k : Fin 16} (free : (s.array la.val).freeSlot = some k) (diverged : (s.array la.val).diverged cohort = true) :
    ∃ t d p, exec (.barrierDiverged la cohort) s = .next t ∧ t.cmd c.ref = some d ∧ d.stage = .draining (some (0x12, BitVec.ofNat 32 la.val))
      ∧ Tbl.get none (t.array la.val).parks k.val = some p ∧ p.cohort = cohort ∧ p.group = none ∧ p.fault.cls = .barrierDiverged
      ∧ (t.array la.val).groups = ((s.array la.val).groups.filter (fun g => decide (g.cohort = cohort))).map (fun g => { g with st := .parked k }) := by
  obtain ⟨t, run, roster⟩ := exec_barrierDiverged occupant running free diverged
  refine ⟨t, _, s.divergedPark la.val cohort k, run, (State.cmd_of_roster roster _).trans (State.trapped_cmd occupant cohort k), rfl, ?_, rfl, rfl, rfl, ?_⟩
  · rw [State.array_of_roster roster, State.trapped, State.array_setCmd', State.onArray, State.array_setArray]
    simp [Tbl.get]
  · rw [State.array_of_roster roster, State.trapped, State.array_setCmd', State.onArray, State.array_setArray]

end

/-- Settles O17: a park that expires kills its command, or ends it the third time; a diverged cohort is parked as one. -/
theorem parksExpireAndCohortsTrap : Obligations.ParksExpireAndCohortsTrap := by
  unfold Obligations.ParksExpireAndCohortsTrap
  intro s la c occupant running
  exact ⟨fun k p parked single plain holds => parkLimit_expires occupant running parked single plain holds,
    fun cohort k free diverged => cohort_diverges occupant running free diverged⟩

end Sys2Proof.Machine
end

section
/-! SUPPORT. The start of commands (09 R262-R264; 10 R289-R296): what the scheduler decides on the one command that it considers; with these
the statement about starting commands. -/

namespace Sys2Proof.Machine

/-! ### The order of dispatch (R294) -/

/-- Of a list without repetitions one element alone is taken. -/
theorem flatten_pick {α β : Type} [DecidableEq α] (l : List α) (each : l.Nodup) {a : α} (ha : a ∈ l) (x : β) :
    (l.map (fun q => if q = a then [x] else [])).flatten = [x] := by
  have none (t : List α) (h : a ∉ t) : (t.map (fun q => if q = a then [x] else [])).flatten = [] := by
    rw [List.flatten_eq_nil_iff]
    intro k hk
    obtain ⟨q, hq, rfl⟩ := List.mem_map.mp hk
    exact if_neg (by rintro rfl; exact h hq)
  induction l with
  | nil => cases ha
  | cons q t ih =>
    obtain ⟨fresh, each⟩ := List.nodup_cons.mp each
    rw [List.map_cons, List.flatten_cons]
    by_cases here : q = a
    · subst here
      rw [if_pos rfl, none t fresh]
      rfl
    · rw [if_neg here, ih each ((List.mem_cons.mp ha).resolve_left (Ne.symm here))]
      rfl

/-- A partition with one candidate: the decision is the one on it. -/
theorem State.schedule_one {s : State} {x : Cmd} (one : s.candidates x.part = [x]) (priority : s.effPriority x.part x.queue ≤ 7) : s.schedule x.part = s.decideOn x.ref := by
  have queues (pr : Nat) : ((List.finRange 64).map (fun q => if [x].any (fun c => decide (c.queue = q)) && decide (s.effPriority x.part q = pr)
      then [x].filter (fun c => decide (c.queue = q)) else [])).flatten = if pr = s.effPriority x.part x.queue then [x] else [] := by
    by_cases here : pr = s.effPriority x.part x.queue
    · rw [if_pos here]
      refine (congrArg List.flatten (List.map_congr_left (fun q _ => ?_))).trans (flatten_pick (List.finRange 64) (List.nodup_finRange 64) (List.mem_finRange x.queue) x)
      by_cases same : q = x.queue
      · subst same; simp [here]
      · simp [same, Ne.symm same]
    · rw [if_neg here, List.flatten_eq_nil_iff]
      intro k hk
      obtain ⟨q, -, rfl⟩ := List.mem_map.mp hk
      by_cases same : q = x.queue
      · subst same; simp [Ne.symm here]
      · simp [Ne.symm same]
  unfold State.schedule
  dsimp only
  rw [one]
  simp only [queues]
  rw [flatten_pick [7, 6, 5, 4, 3, 2, 1, 0] (by decide) (by simp; omega) x]
  rfl

/-! ### A fold over arrays -/

/-- What each step makes of its own array, leaving the others, a fold makes of every array that it visits. -/
theorem foldl_arrays {step : State → Nat → State} {P : ArrayState → Prop} (own : ∀ s la, P ((step s la).array la))
    (others : ∀ s la k, k ≠ la → (step s la).array k = s.array k) (las : List Nat) (s : State) {la : Nat} (visited : la ∈ las ∨ P (s.array la)) :
    P ((las.foldl step s).array la) := by
  induction las generalizing s with
  | nil => exact visited.resolve_left (List.not_mem_nil)
  | cons k t ih =>
    refine ih (step s k) ?_
    by_cases here : la = k
    · exact .inr (here ▸ own s la)
    · rw [others s k la here]
      exact visited.imp_left (fun m => (List.mem_cons.mp m).resolve_left here)

/-- Steps that leave the command of a reference leave it over a fold. -/
theorem foldl_cmd {step : State → Nat → State} {ref : CmdRef} (keeps : ∀ s la, (step s la).cmd ref = s.cmd ref) (las : List Nat) (s : State) :
    (las.foldl step s).cmd ref = s.cmd ref := by
  induction las generalizing s with
  | nil => rfl
  | cons k t ih => exact (ih (step s k)).trans (keeps s k)

/-! ### LAUNCH (R289-R296) -/

theorem State.reclaim_unlent {s : State} (unlent : s.chan.lent = []) (la : Nat) : s.reclaim la = s := by
  unfold State.reclaim
  rw [unlent]
  rfl

/-- An array is given to a command. -/
def State.occupy (s : State) (c : Cmd) (la : Nat) : State := s.onArray la (fun a => { a with occ := some ⟨c.ref, c.part, 0, [], false, false⟩ })

theorem State.occupy_occ (c : Cmd) (s : State) (la : Nat) : ((s.occupy c la).array la).occ = some ⟨c.ref, c.part, 0, [], false, false⟩ := by
  unfold State.occupy State.onArray
  rw [State.array_setArray]

theorem State.occupy_others (c : Cmd) (s : State) (la k : Nat) (other : k ≠ la) : (s.occupy c la).array k = s.array k := State.array_setArray_ne _ _ _ _ other

/-- What a command looks like once it started (R295). -/
def Cmd.begun (c : Cmd) (las : List Nat) : Cmd :=
  let kept := las.filter (fun la => decide (c.kind = 5) || (c.nextCohort la 0).isSome)
  { c with stage := .running, arrays := kept, left := las.length - kept.length, buf := [] }

/-- With nothing lent, a start gives the command its arrays. -/
theorem State.start_unlent {s : State} {ref : CmdRef} {c : Cmd} (there : s.cmd ref = some c) (unlent : s.chan.lent = []) (las : List Nat) :
    (s.start c las).cmd ref = some (c.begun las)
    ∧ ∀ la ∈ (c.begun las).arrays, ((s.start c las).array la).occ = some ⟨ref, c.part, 0, [], false, false⟩ := by
  have own : las.foldl (fun s la => if (s.partition c.part).floor.contains la then s.reclaim la else s) s = s :=
    List.foldlRecOn las _ (motive := fun t => t = s) rfl (by rintro t rfl la -; rw [State.reclaim_unlent unlent]; exact ite_self _)
  unfold State.start
  dsimp only
  rw [own]
  have sliced (q : QueueState) : ∃ u : State, (if s.queueHolds c.part c.queue = [] then s.setQueueState c.part c.queue q else s) = u ∧ u.cmd ref = some c := by
    refine ⟨_, rfl, ?_⟩
    split
    · exact there
    · exact there
  obtain ⟨u, eq, there⟩ := sliced { (s.partition c.part).queue c.queue with inSlice := true, ended := false }
  rw [eq]
  generalize kept : las.filter (fun la => decide (c.kind = 5) || (c.nextCohort la 0).isSome) = l
  have begun : c.begun las = { c with stage := .running, arrays := l, left := las.length - l.length, buf := [] } := by unfold Cmd.begun; dsimp only; rw [kept]
  rw [begun]
  have name := State.cmd_name there
  have after : (l.foldl (fun s la => s.occupy c la) u).cmd ref = some c := (foldl_cmd (step := fun s la => s.occupy c la) (fun _ _ => rfl) l u).trans there
  have taken {la : Nat} (m : la ∈ l) : ((l.foldl (fun s la => s.occupy c la) u).array la).occ = some ⟨c.ref, c.part, 0, [], false, false⟩ :=
    foldl_arrays (P := fun a => a.occ = some ⟨c.ref, c.part, 0, [], false, false⟩) (fun s la => State.occupy_occ c s la) (State.occupy_others c) l u (.inl m)
  rw [name] at taken
  exact ⟨State.cmd_setCmd_same after name, fun la m => taken m⟩

/-- With nothing reserved and every array free, no array is contested. -/
theorem State.contest_free {s : State} (unreserved : s.chan.reserved = []) (c : Cmd) {las : List Nat} (free : ∀ la ∈ las, (s.array la).occ = none) :
    las.foldl (State.contest c) (false, s) = (false, s) := by
  induction las with
  | nil => rfl
  | cons la t ih =>
    have one : State.contest c (false, s) la = (false, s) := by
      have nobar : s.barred la c = false := by unfold State.barred; rw [unreserved]; rfl
      unfold State.contest
      dsimp only
      rw [nobar, free la List.mem_cons_self]
      rfl
    rw [List.foldl_cons, one]
    exact ih (fun k m => free k (List.mem_cons_of_mem _ m))

/-- A placed launch whose placement is valid keeps it. -/
theorem State.placeFor_placed {s : State} {c : Cmd} {p : Placement} (kind : c.kind ≠ 5) (placed : c.placement = some p) (valid : s.placeInvalid c c.names = false) :
    s.placeFor c = (.ok c.names, s.setCmd c) := by
  have same : { c with placement := some p } = c := by cases c; cases placed; rfl
  unfold State.placeFor
  rw [if_neg kind, placed]
  dsimp only
  rw [same, valid]
  rfl

/-- A command that is ready, placed, with its arrays bound, its own, free and not reserved, starts. -/
theorem State.decideOn_free {s : State} {ref : CmdRef} {x : Cmd} {p : Placement} (there : s.cmd ref = some x) (ready : s.ready x = true) (kind : x.kind ≠ 5)
    (placed : x.placement = some p) (valid : s.placeInvalid x x.names = false) (unreserved : s.chan.reserved = [])
    (own : ∀ la ∈ x.names, s.unbound la = false ∧ s.leaving x.part la = false ∧ (s.partition x.part).floor.contains la = true ∧ (s.array la).occ = none) :
    s.decideOn ref = (s.setCmd x).start x x.names := by
  have name := State.cmd_name there
  have again : (s.setCmd x).cmd ref = some x := State.cmd_setCmd_same there name
  have bound : x.names.any (fun la => (s.setCmd x).unbound la || (s.setCmd x).notLent x.part la || (s.setCmd x).leaving x.part la) = false := by
    rw [List.any_eq_false]
    intro la m
    obtain ⟨bound, stays, floor, -⟩ := own la m
    have b : (s.setCmd x).unbound la = false := bound
    have l : (s.setCmd x).leaving x.part la = false := stays
    have f : (s.setCmd x).notLent x.part la = false := by
      unfold State.notLent
      rw [State.partition_setCmd', floor]
      rfl
    rw [b, l, f]
    exact Bool.false_ne_true
  have free : ∀ la ∈ x.names, ((s.setCmd x).array la).occ = none := fun la m => (own la m).2.2.2
  have none : x.names.any (fun la => ((s.setCmd x).array la).occ.isSome) = false := by
    rw [List.any_eq_false]
    intro la m
    rw [free la m]
    exact Bool.false_ne_true
  have reserved : (s.setCmd x).chan.reserved = [] := unreserved
  unfold State.decideOn
  rw [there]
  dsimp only
  rw [ready, State.placeFor_placed kind placed valid]
  dsimp only
  rw [again]
  simp only [Option.getD_some]
  rw [if_neg (by decide), if_neg (ne_true_of_eq_false bound), State.contest_free reserved x free]
  dsimp only
  rw [if_neg (by rw [none]; decide)]

/-- LAUNCH of a command that the scheduler considers alone. -/
theorem exec_launch_starts {s : State} {ref : CmdRef} {x : Cmd} {p : Placement} (there : s.cmd ref = some x) (up : s.up = true) (kind : x.kind = 1)
    (ready : s.ready x = true) (one : s.candidates x.part = [x]) (priority : s.effPriority x.part x.queue ≤ 7) (placed : x.placement = some p)
    (valid : s.placeInvalid x x.names = false) (unreserved : s.chan.reserved = [])
    (own : ∀ la ∈ x.names, s.unbound la = false ∧ s.leaving x.part la = false ∧ (s.partition x.part).floor.contains la = true ∧ (s.array la).occ = none) :
    exec (.launch ref) s = .next ((s.setCmd x).start x x.names) := by
  have fetched : x.stage = .fetched := by unfold State.ready at ready; simp at ready; exact ready.1.1.1
  have goes : execLaunch ref s = .next (s.schedule x.part) := by
    unfold execLaunch
    rw [there]
    dsimp only
    rw [if_neg (by simp [up, kind, fetched])]
  refine goes.trans (congrArg Host.Outcome.next ?_)
  rw [State.schedule_one one priority, State.cmd_name there]
  exact State.decideOn_free there ready (by rw [kind]; decide) placed valid unreserved own

/-! ### PATTERN_LOAD (R39, R86) -/

/-- A pattern is written into a slot of an array, and the array is free. -/
def State.loadSlot (slot : Fin 4) (v : PatSlot) (s : State) (la : Nat) : State := (s.putSlot la slot v).onArray la (fun a => { a with occ := none })

theorem State.loadSlot_own (slot : Fin 4) (v : PatSlot) (s : State) (la : Nat) :
    ((s.loadSlot slot v la).array la).occ = none ∧ Tbl.get none ((s.loadSlot slot v la).array la).slots slot.val = some v := by
  unfold State.loadSlot State.putSlot State.onArray
  simp only [State.array_setArray, Tbl.get_set_same, and_self]

theorem State.loadSlot_others (slot : Fin 4) (v : PatSlot) (s : State) (la k : Nat) (other : k ≠ la) : (s.loadSlot slot v la).array k = s.array k := by
  unfold State.loadSlot State.putSlot State.onArray
  rw [State.array_setArray_ne _ _ _ _ other, State.array_setArray_ne _ _ _ _ other]

/-- The slot that a PATTERN_LOAD names. -/
theorem slot_field (x : Cmd) : blk x.head 28 0 2 % 4 = blk x.head 28 0 2 := Nat.mod_eq_of_lt (bits x.head (8 * 28 + 0) 2).isLt

theorem exec_patternLoad_running {s : State} {ref : CmdRef} {x : Cmd} (there : s.cmd ref = some x) (up : s.up = true) (kind : x.kind = 5) (runs : x.stage = .running) :
    exec (.patternLoad ref) s = .next (s.loadPattern x) := by
  have goes : execPatternLoad ref s = .next (s.loadPattern x) := by
    unfold execPatternLoad
    rw [there]
    dsimp only
    rw [if_neg (by simp [up, kind]), if_neg (by rw [runs]; decide), if_pos runs]
  exact goes

/-- A pattern that is read goes into its slot on each array; the arrays are free and the command finished. -/
theorem State.loadPattern_ok {s u : State} {ref : CmdRef} {x : Cmd} {p : Pattern} {n : BitVec 32} (fetched : s.fetchPattern x (blk x.head 16 0 64) = (.ok p n, u))
    {c : Cmd} (there : u.cmd ref = some c) (name : x.ref = ref) : ∃ d : Cmd, (s.loadPattern x).cmd ref = some d ∧ d.stage = .finished ∧ d.arrays = [] ∧ d.left = x.arrays.length
      ∧ ∀ la ∈ x.arrays, ((s.loadPattern x).array la).occ = none
        ∧ Tbl.get none ((s.loadPattern x).array la).slots (blk x.head 28 0 2) = some ⟨p, BitVec.ofNat 32 (blk x.head 32 0 32), x.part.val⟩ := by
  let slot : Fin 4 := ⟨blk x.head 28 0 2 % 4, Nat.mod_lt _ (by decide)⟩
  let v : PatSlot := ⟨p, BitVec.ofNat 32 (blk x.head 32 0 32), x.part.val⟩
  have shown : s.loadPattern x = (x.arrays.foldl (State.loadSlot slot v) u).setCmd { x with stage := .finished, arrays := [], left := x.arrays.length, started := true } := by
    unfold State.loadPattern
    rw [fetched]
    rfl
  have after : (x.arrays.foldl (State.loadSlot slot v) u).cmd ref = some c := (foldl_cmd (step := State.loadSlot slot v) (fun _ _ => rfl) x.arrays u).trans there
  rw [shown]
  refine ⟨_, State.cmd_setCmd_same after name, rfl, rfl, rfl, fun la m => ?_⟩
  rw [State.array_setCmd', ← slot_field]
  exact foldl_arrays (P := fun a => a.occ = none ∧ Tbl.get none a.slots slot.val = some v) (State.loadSlot_own slot v) (State.loadSlot_others slot v) x.arrays u (.inl m)

/-! ### The waits of a command (R263, R264) -/

theorem exec_semaphoreRetest_tests {s : State} {ref : CmdRef} {x : Cmd} (there : s.cmd ref = some x) (up : s.up = true) (stage : x.stage = .fetched)
    (waits : x.waitsHeld = false) (free : s.heldBack x = false) : exec (.semaphoreRetest ref) s = .next ((s.semTest x).schedule x.part) := by
  have goes : execSemaphoreRetest ref s = .next ((s.semTest x).schedule x.part) := by
    unfold execSemaphoreRetest
    rw [there]
    dsimp only
    rw [if_neg (by simp [up, stage, waits, free])]
  exact goes

/-- Entries none of which claims claim nothing. -/
theorem State.claimFrom_none (s : State) (c : Cmd) (l : List (Nat × Nat × Word)) (unclaimed : ∀ e ∈ l, e.2.1 ≠ 3) (i : Nat) (got : List Nat) :
    s.claimFrom c i l got = ((true, got), s) := by
  induction l generalizing i with
  | nil => rfl
  | cons e t ih =>
    obtain ⟨va, op, v⟩ := e
    unfold State.claimFrom
    rw [if_pos (unclaimed _ List.mem_cons_self)]
    exact ih (fun e m => unclaimed e (List.mem_cons_of_mem _ m)) (i + 1)

section Tests
variable {s u : State} {c : Cmd}

theorem State.semTest_invalid (quiet : (semEntries c.slots).any (fun e => s.rangeBusy c.part e.1 16) = false)
    (tested : s.semEntriesTest c (semEntries c.slots) = (.invalid, u)) : s.semTest c = u.finishCmd c 5 0 := by
  unfold State.semTest
  dsimp only
  rw [if_neg (ne_true_of_eq_false quiet), tested]

theorem State.semTest_waits (quiet : (semEntries c.slots).any (fun e => s.rangeBusy c.part e.1 16) = false)
    (tested : s.semEntriesTest c (semEntries c.slots) = (.waits none, u)) : s.semTest c = u.setCmd { c with tested := true } := by
  unfold State.semTest
  dsimp only
  rw [if_neg (ne_true_of_eq_false quiet), tested]

theorem State.semTest_holds (quiet : (semEntries c.slots).any (fun e => s.rangeBusy c.part e.1 16) = false)
    (tested : s.semEntriesTest c (semEntries c.slots) = (.holds, u)) (unclaimed : ∀ e ∈ semEntries c.slots, e.2.1 ≠ 3) :
    (s.semTest c).chan = (u.setCmd { c with tested := true, waitsHeld := true, claims := [], donating := none }).chan := by
  unfold State.semTest
  dsimp only
  rw [if_neg (ne_true_of_eq_false quiet), tested]
  dsimp only
  rw [State.claimFrom_none u c _ unclaimed]
  dsimp only
  rw [if_pos rfl]
  split <;> rfl

end Tests

/-! ### QUEUE_FENCE (R262) -/

theorem exec_queueFence_finishes {s : State} {ref : CmdRef} {x : Cmd} (there : s.cmd ref = some x) (up : s.up = true) (kind : x.kind = 10) (ready : s.ready x = true)
    (first : s.fenced x = []) : exec (.queueFence ref) s = .next (s.setCmd { x with stage := .finished }) := by
  have goes : execQueueFence ref s = .next (s.setCmd { x with stage := .finished }) := by
    unfold execQueueFence
    rw [there]
    dsimp only
    rw [if_neg (by simp [up, kind, ready, first])]
  exact goes

/-- Settles O20: each command's own condition lets it past its guards, and what follows is the start on free arrays, the
load of the slots, or the outcome of the semaphore test. -/
theorem commandsStart : Obligations.CommandsStart := by
  intro s ref x there up
  have name := State.cmd_name there
  refine ⟨?launch, ?pattern, fun kind ready first => exec_queueFence_finishes there up kind ready first, ?retest⟩
  case launch =>
    intro p kind ready one priority placed valid unreserved unlent own
    have again : (s.setCmd x).cmd ref = some x := State.cmd_setCmd_same there name
    obtain ⟨shown, taken⟩ := State.start_unlent again unlent x.names
    have arrays : (x.begun x.names).arrays = x.names.filter (fun la => (x.nextCohort la 0).isSome) := by
      unfold Cmd.begun
      simp [kind]
    exact ⟨_, _, exec_launch_starts there up kind ready one priority placed valid unreserved own, shown, rfl, arrays, taken⟩
  case pattern =>
    intro r u kind runs fetched kept
    have goes := exec_patternLoad_running there up kind runs
    obtain ⟨c, here⟩ := Option.isSome_iff_exists.mp kept
    refine ⟨?_, ?_, ?_, ?_⟩
    · rintro rfl
      rw [goes]; unfold State.loadPattern; rw [fetched]
    · rintro (rfl | ⟨k, a, rfl⟩) <;> (rw [goes]; unfold State.loadPattern; rw [fetched])
    · rintro g a rfl
      rw [goes]; unfold State.loadPattern; rw [fetched]
    · rintro p n rfl
      obtain ⟨d, rest⟩ := State.loadPattern_ok fetched here name
      exact ⟨_, d, goes, rest⟩
  case retest =>
    intro r u stage waits free quiet tested kept
    have goes := exec_semaphoreRetest_tests there up stage waits free
    obtain ⟨c, here⟩ := Option.isSome_iff_exists.mp kept
    refine ⟨?_, ?_, ?_⟩
    · rintro rfl
      rw [goes, State.semTest_invalid quiet tested]
    · rintro rfl
      rw [goes, State.semTest_waits quiet tested]
    · rintro rfl unclaimed
      have cmds := State.cmd_of_cmds (congrArg ChanState.cmds (State.semTest_holds quiet tested unclaimed)) ref
      exact ⟨_, _, goes, cmds.trans (State.cmd_setCmd_same here name), rfl, rfl⟩

end Sys2Proof.Machine
end

section
/-! SUPPORT. Tile instructions and TWAIT as they issue (03 R92, R94-R98, R100); with these the statement about them. -/

namespace Sys2Proof.Machine

theorem Group.advance_tokens (g : Group) (n : Nat) : (g.advance n).tokens = g.tokens := by
  unfold Group.advance Group.setPc
  split <;> rfl

theorem Group.token_setToken (g : Group) (t : Fin 8) (x : Token) : (g.setToken t x).token t.val = x := Tbl.get_set_same _ _ _ _

/-- The operation that a tile instruction adds to the queue of an array (R97, R98). -/
def ArrayState.accepted (a : ArrayState) (g : Group) (m : BitVec 64) (tok : Fin 8) (kind : TileKind) : TileOp :=
  ⟨a.tileSeq, g.cohort, g.num, tok, leader m, g.path.pc, kind, none, [], false, none⟩

/-- What a tile instruction with participating lanes comes to, by its token and the room in the queue (R97, R98, R100). -/
def AcceptsTile (s : State) (i : Issue) (c : Cmd) (g : Group) (o : Host.Outcome State Fault Refusal) (tok : Fin 8) (kind : TileKind) : Prop :=
  (g.token tok.val = .clear → (s.array i.g.la.val).queued < 32 →
    Completes s o i c g 16 (fun h => h.regs = g.regs ∧ h.preds = g.preds ∧ h.token tok.val = .busy)
    ∧ ∃ t, o = .next t ∧ (t.array i.g.la.val).tq = (s.array i.g.la.val).tq ++ [(s.array i.g.la.val).accepted g (g.lanes i) tok kind])
  ∧ (g.token tok.val = .clear → ¬ (s.array i.g.la.val).queued < 32 → Holds s o i c g .queueSlot)
  ∧ (g.token tok.val = .busy → Holds s o i c g (.tokens (1#8 <<< tok.val) false))
  ∧ (∀ f q rec, g.token tok.val = .faulted f q rec → ∃ t h, o = .next t ∧ t.groupOf i.g = some h ∧ h.parks ∧ h.path.pc = g.path.pc ∧ h.regs = g.regs)

section
variable {s : State} {i : Issue} {c : Cmd} {g : Group} (go : Goes s i c g)

/-- The fetch of a word leaves the tile queue of its array. -/
theorem State.fetched_tiles (s : State) (i : Issue) (c : Cmd) (g : Group) :
    ((s.fetched i c g).array i.g.la.val).queued = (s.array i.g.la.val).queued ∧ ((s.fetched i c g).array i.g.la.val).tq = (s.array i.g.la.val).tq
      ∧ ((s.fetched i c g).array i.g.la.val).tileSeq = (s.array i.g.la.val).tileSeq := by
  obtain ⟨l, n, e⟩ := s.fetched_array i c g
  rw [e]
  exact ⟨rfl, rfl, rfl⟩

/-- The state in which an array has added an operation to its queue. -/
def State.enqueue (s : State) (la : Nat) (op : TileOp) : State :=
  s.onArray la (fun a => { a with tq := a.tq ++ [op], tileSeq := a.tileSeq + 1 })

include go

/-- An operation that the queue takes: its token is busy and its group goes on. -/
theorem enqueue_completes (tok : Fin 8) (op : TileOp) :
    Completes s (.next (State.settle i.g.la.val c (.ok ((s.fetched i c g).enqueue i.g.la.val op) ((g.setToken tok .busy).advance 16) false))) i c g 16
        (fun h => h.regs = g.regs ∧ h.preds = g.preds ∧ h.token tok.val = .busy)
      ∧ ((State.settle i.g.la.val c (.ok ((s.fetched i c g).enqueue i.g.la.val op) ((g.setToken tok .busy).advance 16) false)).array i.g.la.val).tq
        = (s.array i.g.la.val).tq ++ [op] := by
  obtain ⟨cohort, num, regs, preds, -⟩ := (g.setToken tok .busy).advance_sameRun 16
  obtain ⟨pc, mask⟩ := (g.setToken tok .busy).path_advance 16 go.mask_ne
  have lanes : ((g.setToken tok .busy).advance 16).path.mask ≠ 0 := mask ▸ go.mask_ne
  have there : ((s.fetched i c g).enqueue i.g.la.val op).groupOf i.g = some g :=
    (State.groupOf_of_groups (by rw [State.enqueue, State.onArray, State.array_setArray])).trans go.fetched_group
  obtain ⟨found, only, l, k, array⟩ := settles (c := c) there cohort num (Group.path_mem lanes) lanes false
  refine ⟨⟨_, _, rfl, found, pc, mask, (OnlyArray.on _ _ _).trans only, regs, preds, ?_⟩, ?_⟩
  · exact (congrArg (fun t => Tbl.get Token.clear t tok.val) ((g.setToken tok .busy).advance_tokens 16)).trans (g.token_setToken tok .busy)
  · rw [array]
    unfold State.enqueue State.onArray
    rw [State.array_setArray]
    exact congrArg (· ++ [op]) (s.fetched_tiles i c g).2.1

/-- A legal tile instruction whose registers are at hand. -/
theorem issueTile_accepts (some' : g.lanes i ≠ 0) {legal : Cmd → Bool} {regs : List Nat} (ok : legal c = true) (free : g.pending regs = []) (tok : Fin 8)
    (kind : Group → Nat → TileKind) : AcceptsTile s i c g (.next (s.issueTile i legal regs tok kind)) tok (kind g (leader (g.lanes i))) := by
  obtain ⟨queued, -, seq⟩ := s.fetched_tiles i c g
  unfold State.issueTile
  rw [go.issue _ ok free, if_neg some']
  refine ⟨fun clear room => ?_, fun clear full => ?_, fun busy => ?_, fun f q rec faulted => ?_⟩
  · simp only [clear, queued, if_neg (Nat.not_le.mpr room)]
    obtain ⟨completes, tq⟩ := enqueue_completes go tok (((s.fetched i c g).array i.g.la.val).accepted g (g.lanes i) tok (kind g (leader (g.lanes i))))
    exact ⟨completes, _, rfl, tq.trans (by unfold ArrayState.accepted; rw [seq])⟩
  · simp only [clear, queued, if_pos (Nat.not_lt.mp full)]
    exact holds_of_hold go _
  · simp only [busy]
    exact holds_of_hold go _
  · simp only [faulted]
    obtain ⟨st, found, parks⟩ := State.park_parks go.fetched_group rfl rfl c (tokenFault f q g.path.pc 0) (.token tok false) rec
    exact ⟨_, _, rfl, found, parks, rfl, rfl⟩

/-! ### TWAIT (R96, R97, R100) -/

variable {ops : BitVec 48} {w2 : Word} (clean : field ops 8 40 = 0) (zero : w2 = 0) (some' : g.lanes i ≠ 0)
include clean zero some'

theorem twait_faultless (good : g.faulted (bits ops 0 8) = none) :
    (g.busy (bits ops 0 8) = false → Completes s (exec (.twait i ops w2) s) i c g 16 (fun h => h.regs = g.regs ∧ h.preds = g.preds))
      ∧ (g.busy (bits ops 0 8) = true → Holds s (exec (.twait i ops w2) s) i c g (.tokens (bits ops 0 8) true)) := by
  have run : exec (.twait i ops w2) s = .next (State.settle i.g.la.val c
      (if g.busy (bits ops 0 8) then .hold (s.fetched i c g) g (.tokens (bits ops 0 8) true) else .ok (s.fetched i c g) (g.advance 16) false)) := by
    change Host.Outcome.next (s.issue i (fun _ => decide (field ops 8 40 = 0) && decide (w2 = 0)) [] _) = _
    rw [go.issue _ (by rw [decide_eq_true clean, decide_eq_true zero]; rfl) (pending_nil g), if_neg some']
    simp only [good]
  rw [run]
  refine ⟨fun idle => ?_, fun busy => ?_⟩
  · rw [if_neg (by rw [idle]; exact Bool.false_ne_true)]
    exact completes_ok s _ i c g g 16 _ go.fetched_group go.mask_ne (OnlyArray.refl _ _) rfl rfl rfl (fun h hregs hpreds => ⟨hregs, hpreds⟩)
  · rw [if_pos busy]
    exact holds_of_hold go _

theorem twait_faulted (bad : g.faulted (bits ops 0 8) ≠ none) : ∃ t h, exec (.twait i ops w2) s = .next t ∧ t.groupOf i.g = some h ∧ h.parks ∧ h.regs = g.regs := by
  obtain ⟨⟨t, f, op, rec⟩, found⟩ := Option.ne_none_iff_exists'.mp bad
  have run : exec (.twait i ops w2) s = .next (State.settle i.g.la.val c
      (.stop ((s.fetched i c g).park i.g.la.val c g (tokenFault f op g.path.pc 16) (.token t true) rec))) := by
    change Host.Outcome.next (s.issue i (fun _ => decide (field ops 8 40 = 0) && decide (w2 = 0)) [] _) = _
    rw [go.issue _ (by rw [decide_eq_true clean, decide_eq_true zero]; rfl) (pending_nil g), if_neg some']
    simp only [found]
  obtain ⟨st, there, parks⟩ := State.park_parks go.fetched_group rfl rfl c (tokenFault f op g.path.pc 16) (.token t true) rec
  exact ⟨_, _, run, there, parks, rfl⟩

end

/-- Settles O11: each tile instruction issues by its token and the room in the queue, and TWAIT by the tokens that it names. -/
theorem tileInstructionsComplete : Obligations.TileInstructionsComplete := by
  unfold Obligations.TileInstructionsComplete
  intro s i c g ops w2 go some' a accepts l
  refine ⟨fun ok free => ?_, fun ok free => ?_, fun ok free => ⟨?_, ?_, ?_⟩, fun ok free => ?_, fun clean zero pair reg free => ?_,
    fun clean zero good => twait_faultless go clean zero some' good, fun clean zero bad => twait_faulted go clean zero some' bad⟩
  · exact issueTile_accepts go some' ok free _ _
  · exact issueTile_accepts go some' ok free _ _
  · exact issueTile_accepts go some' ok free _ _
  · exact issueTile_accepts go some' ok free _ _
  · exact issueTile_accepts go some' ok free _ _
  · exact issueTile_accepts go some' ok free _ _
  · exact issueTile_accepts go some' (legal := fun c => decide (field ops 16 32 = 0) && decide (w2 = 0) && pairNamed c.regCount (field ops 0 8) && regNamed c.regCount (field ops 8 8))
      (by rw [pair, reg, decide_eq_true clean, decide_eq_true zero]; rfl) free 0 _

end Sys2Proof.Machine
end

section
/-! SUPPORT. Local store and the end of a tile operation (03 R97, R98, R100): what is read where bytes have been written, and what the end
of an operation leaves of its group, its queue and local store. -/

namespace Sys2Proof.Machine

/-! ### Bytes of local store (R42) -/

theorem leBytes_length (n v : Nat) : (leBytes n v).length = n := by
  induction n generalizing v with
  | zero => rfl
  | succ n ih => rw [leBytes, List.length_cons, ih]

theorem leNat_leBytes (n v : Nat) : leNat (leBytes n v) = v % 256 ^ n := by
  induction n generalizing v with
  | zero => simp [leBytes, leNat, Nat.mod_one]
  | succ n ih =>
    rw [leBytes, leNat, ih, BitVec.toNat_ofNat, Nat.pow_succ' (m := 256), Nat.mod_mul]

/-- The next byte of a run of bytes that a partition writes, and the place after it. -/
def putLsByte (p : Fin 16) (t : Tbl (Option (Byte × Fin 16)) × Nat) (v : Byte) : Tbl (Option (Byte × Fin 16)) × Nat :=
  (Tbl.set none t.1 t.2 (some (v, p)), t.2 + 1)

theorem foldl_putLsByte_before (p : Fin 16) (b : List Byte) (t : Tbl (Option (Byte × Fin 16))) {i k : Nat} (before : i < k) :
    Tbl.get none (b.foldl (putLsByte p) (t, k)).1 i = Tbl.get none t i := by
  induction b generalizing t k with
  | nil => rfl
  | cons v b ih =>
    rw [List.foldl_cons, putLsByte, ih _ (Nat.lt_succ_of_lt before)]
    exact Tbl.get_set_ne _ _ _ _ _ (Nat.ne_of_lt before)

theorem foldl_putLsByte_at (p : Fin 16) (b : List Byte) (t : Tbl (Option (Byte × Fin 16))) (k : Nat) {j : Nat} (inside : j < b.length) :
    Tbl.get none (b.foldl (putLsByte p) (t, k)).1 (k + j) = some (b[j], p) := by
  induction b generalizing t k j with
  | nil => exact absurd inside (Nat.not_lt_zero j)
  | cons v b ih =>
    rw [List.foldl_cons]
    cases j with
    | zero => exact (foldl_putLsByte_before p b _ (Nat.lt_succ_self k)).trans (Tbl.get_set_same _ _ _ _)
    | succ j =>
      rw [← Nat.succ_add_eq_add_succ k j]
      exact ih _ _ (Nat.lt_of_succ_lt_succ inside)

/-- Bytes that a cohort writes are read back. -/
theorem ArrayState.lsRead_lsWrite {a : ArrayState} {c : Nat} {x : Cohort} (there : a.cohortOf c = some x) (p : Fin 16) (off : Nat) (b : List Byte) :
    (a.lsWrite p c off b).lsRead c off b.length = b := by
  have written : a.lsWrite p c off b = { a with ls := (b.foldl (putLsByte p) (a.ls, x.lsBase + off)).1 } := by
    unfold ArrayState.lsWrite
    rw [there]
    rfl
  have here : ({ a with ls := (b.foldl (putLsByte p) (a.ls, x.lsBase + off)).1 } : ArrayState).cohortOf c = some x := there
  rw [written]
  refine List.ext_getElem (by simp [ArrayState.lsRead]) (fun j _ inside => ?_)
  unfold ArrayState.lsRead ArrayState.lsByte
  simp only [List.getElem_map, List.getElem_range, here, ← Nat.add_assoc, foldl_putLsByte_at p b a.ls (x.lsBase + off) inside]

/-- What a tile operation meets of its array: the tile queue, the cohorts, and local store. -/
structure TileView where
  tq : List TileOp
  cohorts : List Cohort
  ls : Tbl (Option (Byte × Fin 16))

def ArrayState.tileView (a : ArrayState) : TileView := ⟨a.tq, a.cohorts, a.ls⟩

section
variable {a b : ArrayState} (same : b.tileView = a.tileView)
include same

theorem ArrayState.tq_of_view : b.tq = a.tq := congrArg TileView.tq same

theorem ArrayState.cohortOf_of_view (c : Nat) : b.cohortOf c = a.cohortOf c :=
  congrArg (fun v : TileView => v.cohorts.find? (fun x : Cohort => decide (x.idx = c))) same

theorem ArrayState.lsRead_of_view (c off n : Nat) : b.lsRead c off n = a.lsRead c off n := by
  have ls : b.ls = a.ls := congrArg TileView.ls same
  unfold ArrayState.lsRead ArrayState.lsByte
  rw [ArrayState.cohortOf_of_view same, ls]

theorem ArrayState.codeAt_of_view (c : Nat) (pos : Int) (w : Nat) : b.codeAt c pos w = a.codeAt c pos w := by
  unfold ArrayState.codeAt
  rw [ArrayState.lsRead_of_view same]

end

theorem ArrayState.cohortOf_of_holds {a : ArrayState} {c off n : Nat} (holds : a.lsHolds c off n = true) : ∃ x, a.cohortOf c = some x := by
  unfold ArrayState.lsHolds at holds
  cases found : a.cohortOf c with
  | none => rw [found] at holds; cases holds
  | some x => exact ⟨x, rfl⟩

/-! ### The end of a tile operation (R97, R100) -/

/-- A group that parks leaves what tile operations meet. -/
theorem State.park_tileView (s : State) (la : Nat) (c : Cmd) (g : Group) (f : ParkFault) (src : ParkSrc) (rec : Option SentryRec) :
    ((s.park la c g f src rec).array la).tileView = (s.array la).tileView := by
  unfold State.park
  split
  · obtain ⟨t, pr, e⟩ := s.parkIn_array la c g _ f src rec
    rw [e]
    rfl
  · rw [State.putGroup_array, State.onArray, State.array_setArray]
    rfl

/-- A live group whose tokens have changed waits on, goes on, or parks for a fault that another token holds. -/
theorem State.wakeTokens_keeps {s : State} {r : GroupRef} {g : Group} (there : s.groupOf r = some g) (live : g.live ≠ []) (c : Cmd) :
    (∃ st, (s.wakeTokens r.la.val c g).groupOf r = some { g with st := st })
      ∧ ((s.wakeTokens r.la.val c g).array r.la.val).tileView = (s.array r.la.val).tileView := by
  unfold State.wakeTokens
  split
  case h_1 m twait waits =>
    rw [if_neg live]
    split
    case h_1 t f op rec _ =>
      obtain ⟨st, found, -⟩ := State.park_parks there rfl rfl c (tokenFault f op g.path.pc (if twait then 16 else 0)) (.token t twait) rec
      exact ⟨⟨st, found⟩, s.park_tileView _ c g _ _ rec⟩
    case h_2 =>
      split
      · exact ⟨⟨g.st, there⟩, rfl⟩
      · exact ⟨⟨_, State.groupOf_putGroup s r g _ there rfl rfl⟩, by rw [State.putGroup_array]; rfl⟩
  case h_2 => exact ⟨⟨g.st, there⟩, rfl⟩

/-- An array that its command may leave keeps its groups and what tile operations meet. -/
theorem State.tryLeave_keeps (s : State) (la : Nat) :
    ((s.tryLeave la).array la).groups = (s.array la).groups ∧ ((s.tryLeave la).array la).tileView = (s.array la).tileView := by
  have leaves (c : Cmd) : ((s.leaveArray la c).array la).groups = (s.array la).groups ∧ ((s.leaveArray la c).array la).tileView = (s.array la).tileView := by
    have e : (s.leaveArray la c).array la = { s.array la with occ := none, streams := [], counts := .zero } := State.array_setArray s la _
    rw [e]
    exact ⟨rfl, rfl⟩
  unfold State.tryLeave
  dsimp only
  split
  · exact ⟨rfl, rfl⟩
  · split
    · exact ⟨rfl, rfl⟩
    · split
      · exact leaves _
      · exact ⟨rfl, rfl⟩

/-- An operation is over: it has left the queue of its array, its token is clear, and its group has its registers (R97, R98). -/
def State.Frees (s : State) (la : Fin 384) (op : TileOp) (g : Group) (t : State) : Prop :=
  (t.array la.val).tileView = { (s.array la.val).tileView with tq := (s.array la.val).tq.filter (fun y => decide (y.seq ≠ op.seq)) }
    ∧ ∃ h, t.groupOf ⟨la, g.cohort, g.num⟩ = some h ∧ h.token op.token.val = .clear ∧ h.regs = g.regs

/-- The state in which an operation has left the queue of its array. -/
def State.dequeued (s : State) (la : Nat) (op : TileOp) : State := s.onArray la (fun a => { a with tq := a.tq.filter (fun o => decide (o.seq ≠ op.seq)) })

theorem State.dequeued_array (s : State) (la : Nat) (op : TileOp) :
    (s.dequeued la op).array la = { s.array la with tq := (s.array la).tq.filter (fun o => decide (o.seq ≠ op.seq)) } := State.array_setArray s la _

/-- An operation that holds no trap leaves the queue, and wakes its group with its token clear. -/
theorem State.tileDone_untrapped {s : State} {la : Nat} {op : TileOp} {g : Group} (there : (s.dequeued la op).groupFor la op = some g) (untrapped : op.held = none) (c : Cmd) :
    s.tileDone la c op = (((s.dequeued la op).putGroup la (g.setToken op.token .clear)).wakeTokens la c (g.setToken op.token .clear)).tryLeave la := by
  unfold State.tileDone State.endTile
  unfold State.dequeued at there ⊢
  simp only [untrapped, there]

/-- An operation that holds no trap ends. -/
theorem State.tileDone_frees {s : State} {la : Fin 384} {op : TileOp} {g : Group} (there : s.groupFor la.val op = some g) (live : g.live ≠ []) (untrapped : op.held = none) (c : Cmd) :
    s.Frees la op g (s.tileDone la.val c op) := by
  have named : g.cohort = op.cohort ∧ g.num = op.group := s.groupOf_names ⟨la, op.cohort, op.group⟩ g there
  have here : (s.dequeued la.val op).groupOf ⟨la, op.cohort, op.group⟩ = some g := (State.groupOf_of_groups (by rw [State.dequeued_array])).trans there
  obtain ⟨⟨st, woken⟩, view⟩ := State.wakeTokens_keeps (State.groupOf_putGroup _ ⟨la, op.cohort, op.group⟩ g (g.setToken op.token .clear) here rfl rfl) live c
  obtain ⟨groups, kept⟩ := State.tryLeave_keeps (((s.dequeued la.val op).putGroup la.val (g.setToken op.token .clear)).wakeTokens la.val c (g.setToken op.token .clear)) la.val
  unfold State.Frees
  rw [State.tileDone_untrapped here untrapped, named.1, named.2]
  refine ⟨kept.trans (view.trans ?_), _, (State.groupOf_of_groups groups).trans woken, g.token_setToken op.token .clear, rfl⟩
  rw [State.putGroup_array, State.dequeued_array]
  rfl

end Sys2Proof.Machine
end

section
/-! SUPPORT. What the tile loader asks and reads of global memory (03 R95, R100, R103; 07 R214): none of it touches the arrays, but what
waits and the streams. -/

namespace Sys2Proof.Machine

/-! ### Where an access goes (R67, R321) -/

@[simp] theorem State.hostDest_roster (s : State) (x : Ctx) (iova : Nat) : (s.hostDest x iova).2.roster = s.roster := by
  unfold State.hostDest
  dsimp only
  split
  · rfl
  · split
    · rfl
    · split <;> rfl

@[simp] theorem State.globalDest_roster (s : State) (c : Cmd) (va n : Nat) : (s.globalDest c .read va n).2.roster = s.roster := by
  have walked := s.translate_roster c.part va false
  unfold State.globalDest
  simp only [ne_eq, not_true_eq_false, decide_false, reduceCtorEq, not_false_eq_true, if_true]
  generalize s.translate c.part va false = found at walked
  obtain ⟨x, u⟩ := found
  cases x with
  | host iova =>
    dsimp only
    split
    · exact (u.hostDest_roster _ _).trans walked
    · exact walked
  | _ => exact walked

/-! ### What an operation lacks -/

/-- A part of a line that need not be waited for is asked for no more, and nothing of the arrays changes. -/
theorem State.tileNeed_roster {s : State} {x : Tl} {hint va n : Nat} (goes : (s.tileNeed x hint va n).1 ≠ .wait) : (s.tileNeed x hint va n).2.roster = s.roster := by
  have reached := s.globalDest_roster x.cmd va n
  unfold State.tileNeed at *
  cases found : bufBytes x.op.buf va n with
  | some l => rfl
  | none =>
    rw [found] at goes
    dsimp only at goes ⊢
    split at goes
    · exact absurd rfl goes
    · rename_i unasked
      rw [if_neg unasked]
      generalize s.globalDest x.cmd .read va n = found at reached goes
      obtain ⟨d, u⟩ := found
      cases d with
      | remote m off => exact absurd rfl goes
      | host iova => exact absurd rfl goes
      | guest off =>
        dsimp only at goes
        split at goes <;> exact absurd rfl goes
      | _ => exact reached

/-- Parts that are not waited for leave the arrays. -/
theorem State.tileNeeds_roster (hint : Nat) (l : List (Nat × Nat)) (s : State) (x : Tl) (goes : (s.tileNeeds x hint l).1 ≠ .wait) : (s.tileNeeds x hint l).2.roster = s.roster := by
  induction l generalizing s x with
  | nil => rfl
  | cons a l ih =>
    have one := s.tileNeed_roster (x := x) (hint := hint) (va := a.1) (n := a.2)
    unfold State.tileNeeds at goes ⊢
    generalize s.tileNeed x hint a.1 a.2 = need at one goes
    obtain ⟨k, u⟩ := need
    cases k with
    | stop => exact one nofun
    | wait =>
      dsimp only at goes
      split at goes
      · exact absurd rfl goes
      · rw [if_pos rfl] at goes
        exact absurd rfl goes
    | ready =>
      have here : u.roster = s.roster := one nofun
      dsimp only at goes ⊢
      cases found : (u.array x.la).tq.find? (fun o => decide (o.seq = x.op.seq)) with
      | none => exact here
      | some op =>
        rw [found] at goes
        exact (ih u { x with op := op } goes).trans here

/-! ### What an operation reads -/

@[simp] theorem State.tileCut_roster (s : State) (x : Tl) (hint va n : Nat) : (s.tileCut x hint va n).2.roster = s.roster := by
  have reached := s.globalDest_roster x.cmd va n
  unfold State.tileCut
  split
  · rfl
  · generalize s.globalDest x.cmd .read va n = found at reached
    obtain ⟨d, u⟩ := found
    cases d with
    | pool pa =>
      have read := (u.engRead_roster x.cmd.part (pa / 128) hint .array).trans reached
      dsimp only
      (repeat' split) <;> exact read
    | _ => exact reached

@[simp] theorem State.tileRow_roster (x : Tl) (hint : Nat) (l : List (Nat × Nat)) (s : State) : (s.tileRow x hint l).2.roster = s.roster := by
  induction l generalizing s with
  | nil => rfl
  | cons a l ih =>
    have cut := s.tileCut_roster x hint a.1 a.2
    unfold State.tileRow
    generalize s.tileCut x hint a.1 a.2 = got at cut
    obtain ⟨k, u⟩ := got
    cases k with
    | ok b =>
      have rest := (ih u).trans cut
      dsimp only
      generalize u.tileRow x hint l = more at rest
      obtain ⟨m, v⟩ := more
      cases m <;> exact rest
    | _ => exact cut

/-! ### The stream prefetcher (R103) -/

/-- The loader's prefetches go to the last-level cache alone. -/
theorem State.prefetchLine_roster (s : State) (la : Nat) (c : Cmd) (line hint : Nat) : (s.prefetchLine la c line hint false).roster = s.roster := by
  unfold State.prefetchLine
  simp

/-- A row's access touches nothing of the arrays but the streams of its own. -/
theorem State.rowStream_array (s : State) (x : Tl) (va hint : Nat) : ∃ l, (s.rowStream x va hint).array x.la = { s.array x.la with streams := l } := by
  have walked := s.translate_roster x.cmd.part va false
  unfold State.rowStream
  generalize s.translate x.cmd.part va false = found at walked
  obtain ⟨d, u⟩ := found
  have same : u.array x.la = s.array x.la := State.array_of_roster walked _
  cases d with
  | pool pa =>
    dsimp only
    split
    · exact ⟨_, same⟩
    · unfold State.streamAccess
      split
      · exact ⟨_, same⟩
      · dsimp only
        have noted (l : List Stream) : (u.onArray x.la (fun a => { a with streams := l })).array x.la = { s.array x.la with streams := l } := by
          rw [State.onArray, State.array_setArray, same]
        split
        · exact ⟨_, noted _⟩
        · refine ⟨_, (State.array_of_roster (foldl_roster _ (fun t k => ?_) _ _) _).trans (noted _)⟩
          split
          · exact t.prefetchLine_roster _ _ _ _
          · rfl
  | _ => exact ⟨_, same⟩

end Sys2Proof.Machine
end

section
/-! SUPPORT. The steps of the tile loader (03 R84, R95-R98, R100; 07 R213, R214): which of its operations takes one, and what a load, a store
and a discard come to in it. -/

namespace Sys2Proof.Machine

/-! ### The turn of an engine (R98) -/

/-- The state in which an engine of an array takes its turn: its events are charged to the command (R434). -/
def State.tileTurn (s : State) (c : Cmd) : State := (s.charge c.part (some c.ref) .tile 1).charge c.part (some c.ref) .sram 1

section
variable {s t : State} {p : Fin 16} (reach : ∀ line, t.reach p line false = s.reach p line false) (peek : ∀ line, t.peek line = s.peek line)
include reach peek

/-- A walk that only looks leaves the state, and finds what it finds in any state with the same lines in reach. -/
theorem State.walk_lookOnly (va page level : Nat) : State.walk lookOnly t p va page level = ((State.walk lookOnly s p va page level).1, t) := by
  induction level generalizing page with
  | zero =>
    unfold State.walk
    dsimp only [lookOnly]
    simp only [reach, peek]
    split_ifs <;> rfl
  | succ level ih =>
    unfold State.walk
    dsimp only [lookOnly]
    simp only [reach, peek]
    split_ifs
    exacts [rfl, rfl, rfl, rfl, rfl, ih _]

theorem State.locate_congr (tlb : t.mem.tlb = s.mem.tlb) (roots : t.mem.roots = s.mem.roots) (number : t.link.number = s.link.number) (va : Nat) (write : Bool) :
    t.locate p va write = s.locate p va write := by
  have walks (root : Nat) : State.walk lookOnly s p va root 4 = ((State.walk lookOnly s p va root 4).1, s) := State.walk_lookOnly (fun _ => rfl) (fun _ => rfl) va root 4
  unfold State.locate State.translateWith
  simp only [tlb, roots, number]
  split_ifs
  any_goals rfl
  · cases s.mem.tlb.find? (fun t => decide (t.part = p ∧ t.vpage = va / 4096)) with
    | some t => rfl
    | none =>
      cases Tbl.get none s.mem.roots p.val with
      | none => rfl
      | some root =>
        dsimp only
        rw [State.walk_lookOnly reach peek, walks]
        cases (State.walk lookOnly s p va root 4).1 <;> rfl

end

theorem State.moveBehind_tileTurn (s : State) (c : Cmd) (a : ArrayState) (p : Fin 16) (o : TileOp) : (s.tileTurn c).moveBehind a p o = s.moveBehind a p o := by
  have lines (o : TileOp) : (s.tileTurn c).moveLines p o = s.moveLines p o := by
    unfold State.moveLines
    exact List.map_congr_left (fun x _ => State.locate_congr (s := s) (t := s.tileTurn c) (fun _ => rfl) (fun _ => rfl) rfl rfl rfl _ false)
  unfold State.moveBehind
  simp only [lines]

section
variable {s : State} {la : Fin 384} {c : Cmd} (occupant : s.occupantCmd la.val = some c) (running : c.stage = .running)
include occupant running

theorem exec_loaderTurn (n : Fin 8) : exec (.tileOperationComplete la ⟨.loader, n⟩ .none .none) s = .next ((s.tileTurn c).stepLoader la.val c n.val) := by
  change execTileOperationComplete la ⟨.loader, n⟩ .none .none s = _
  unfold execTileOperationComplete
  simp only [occupant, running, ne_eq, not_true_eq_false, if_false]
  rfl

theorem exec_gridTurn (n : Fin 8) : exec (.tileOperationComplete la ⟨.grid, n⟩ .none .none) s = .next ((s.tileTurn c).stepGrid la.val c) := by
  change execTileOperationComplete la ⟨.grid, n⟩ .none .none s = _
  unfold execTileOperationComplete
  simp only [occupant, running, ne_eq, not_true_eq_false, if_false]
  rfl

end

/-! ### Which operation the loader takes a step on (R98, R214) -/

section
variable {s : State} {la n : Nat} {c : Cmd} {op : TileOp} {g : Group} (chosen : (((s.array la).inFlight[n]?).orElse (fun _ => (s.array la).inFlight.head?)) = some op)
  (there : s.groupFor la op = some g) (foremost : s.moveBehind (s.array la) c.part op = false)
include chosen there foremost

theorem State.stepLoader_load {ls gaddr rowElems rows gstride : Word} {fm fl rnd : Nat} {sat : Bool} {hint scope order : Nat} {lsStride : Word}
    (kind : op.kind = .load ls gaddr rowElems rows gstride fm fl rnd sat hint scope order lsStride) :
    s.stepLoader la c n = s.stepLoad ⟨la, c, op, g⟩ ls gaddr rowElems rows gstride fm fl rnd sat hint scope order lsStride := by
  unfold State.stepLoader
  simp only [chosen, there, foremost, kind, Bool.false_eq_true, if_false]

theorem State.stepLoader_store {ls gaddr rowElems rows gstride : Word} {fm fl rnd : Nat} {sat : Bool} {hint scope order : Nat} {srcAcc : Bool} {acc : Nat} {destLs : Bool}
    {lsStride : Word} (kind : op.kind = .store ls gaddr rowElems rows gstride fm fl rnd sat hint scope order srcAcc acc destLs lsStride) :
    s.stepLoader la c n = s.stepStore ⟨la, c, op, g⟩
      ⟨ls, gaddr, rowElems.toNat, gstride, fm, fl, rnd, sat, hint, scope, decide (order = 2 ∧ scope ≠ 0), srcAcc && destLs, lsStride⟩ rows.toNat order := by
  unfold State.stepLoader
  simp only [chosen, there, foremost, kind, Bool.false_eq_true, if_false]

theorem State.stepLoader_discard {addr len : Word} (kind : op.kind = .discard addr len) :
    s.stepLoader la c n = s.stepDiscard ⟨la, c, op, g⟩ addr.toNat len.toNat := by
  unfold State.stepLoader
  simp only [chosen, there, foremost, kind, Bool.false_eq_true, if_false]

end

/-! ### What its step comes to -/

/-- A store whose writes are all handled ends (R99). -/
theorem State.stepStore_sent {s : State} {x : Tl} (sent : x.op.sent = true) {o : StoreOp} (handled : s.tileSent x.la x.op o.scope = false) (rows order : Nat) :
    s.stepStore x o rows order = s.tileDone x.la x.cmd x.op := by
  unfold State.stepStore
  rw [if_pos sent, handled, if_neg Bool.false_ne_true]

/-- A discard whose requests are all handled ends (R96). -/
theorem State.stepDiscard_sent {s : State} {x : Tl} (sent : x.op.sent = true) (handled : s.tileSent x.la x.op 4 = false) (addr len : Nat) :
    s.stepDiscard x addr len = s.tileDone x.la x.cmd x.op := by
  unfold State.stepDiscard
  rw [if_pos sent, handled, if_neg Bool.false_ne_true]

section
variable {s : State} {x : Tl} {ls gaddr rowElems gstride : Word} {fm rnd : Nat} {sat : Bool} {hint scope order : Nat} {lsStride : Word}

/-- A load whose acquire comes first makes it: its array keeps no line of data, and the operation is marked (R214). -/
theorem State.stepLoad_acquires {rows : Word} {fl : Nat} (acquires : order = 1) (wide : scope ≠ 0) (unsent : x.op.sent = false) :
    ∃ k, (s.stepLoad x ls gaddr rowElems rows gstride fm fl rnd sat hint scope order lsStride).array x.la
      = { s.array x.la with
          tq := (s.array x.la).tq.map (fun y => if y.seq = x.op.seq then { x.op with sent := true } else y)
          l1 := (s.array x.la).l1.filter (·.instr)
          groups := k } := by
  unfold State.stepLoad
  rw [if_pos ⟨acquires, wide, unsent⟩]
  unfold State.wakeAcquired State.putTile
  rw [State.onArray, State.array_setArray, State.onArray, State.array_setArray, State.acquire_array, if_neg wide]
  exact ⟨_, rfl⟩

theorem rowVa_zero (base stride : Word) : rowVa base stride 0 = base.toNat := by
  unfold rowVa
  simp

theorem unpackRow_length (fmt n : Nat) (b : List Byte) : (unpackRow fmt n b).length = n := by
  unfold unpackRow
  simp

theorem packRow_length (fmt : Nat) (codes : List Nat) (old : List Byte) : (packRow fmt codes old).length = rowBytes fmt codes.length := by
  unfold packRow
  exact leBytes_length _ _

/-- A row that is moved without a conversion has no NaN of its own to trap for (R469). -/
theorem State.convRow_same (s : State) (la : Nat) (c : Cmd) (fmt : Nat) (codes : List Nat) : s.convRow la c fmt fmt rnd sat codes = ((codes, []), s) := if_pos rfl

/-- The state in which a row that has been read lies in local store, between equal formats. -/
def State.rowMoved (w : State) (x : Tl) (ls gaddr : Word) (n fm hint : Nat) (b : List Byte) : State :=
  (w.rowStream x gaddr.toNat hint).onArray x.la (fun a => a.lsWrite x.cmd.part x.op.cohort ls.toNat
    (packRow fm (unpackRow fm n b) (((w.rowStream x gaddr.toNat hint).array x.la).lsRead x.op.cohort ls.toNat (rowBytes fm n))))

theorem State.rowMoved_array (w : State) (x : Tl) (ls gaddr : Word) (n fm hint : Nat) (b : List Byte) :
    ∃ l, (w.rowMoved x ls gaddr n fm hint b).array x.la = ArrayState.lsWrite { w.array x.la with streams := l } x.cmd.part x.op.cohort ls.toNat
      (packRow fm (unpackRow fm n b) ((w.array x.la).lsRead x.op.cohort ls.toNat (rowBytes fm n))) := by
  obtain ⟨l, streamed⟩ := w.rowStream_array x gaddr.toNat hint
  rw [State.rowMoved, State.onArray, State.array_setArray, streamed]
  exact ⟨l, rfl⟩

section
variable {v w : State} {b : List Byte} (holds : (v.array x.la).lsHolds x.op.cohort ls.toNat (rowBytes fm rowElems.toNat) = true)
  (row : v.tileRow x hint (lineCuts gaddr.toNat (rowBytes fm rowElems.toNat)) = (.ok b, w))
include holds row

theorem State.loadRows_one :
    v.loadRows x ls gaddr gstride lsStride rowElems.toNat fm fm rnd sat hint [0] = .done x.op (w.rowMoved x ls gaddr rowElems.toNat fm hint b) := by
  unfold State.loadRows
  simp only [Nat.zero_mul, Nat.add_zero, rowVa_zero, holds, row, State.convRow_same]
  rfl

/-- A load of one row between equal formats, nothing of which is waited for, ends once its row is written (R84, R95). -/
theorem State.stepLoad_row {k : Need} (acquired : order ≠ 1 ∨ scope = 0 ∨ x.op.sent = true)
    (needs : s.tileNeeds x hint (moveCuts gaddr gstride 1 (rowBytes fm rowElems.toNat)) = (k, v)) (goes : k ≠ .wait) :
    s.stepLoad x ls gaddr rowElems 1 gstride fm fm rnd sat hint scope order lsStride = (w.rowMoved x ls gaddr rowElems.toNat fm hint b).tileDone x.la x.cmd x.op := by
  unfold State.stepLoad
  rw [if_neg (by rintro ⟨acquires, wide, unsent⟩; simp [acquires, wide, unsent] at acquired)]
  simp only [show (1 : Word).toNat = 1 from rfl, needs]
  cases k with
  | wait => exact absurd rfl goes
  | _ => exact congrArg (State.endRows x.la x.cmd) (State.loadRows_one holds row)

end

end

end Sys2Proof.Machine
end

section
/-! SUPPORT. The steps of the grid engine (03 R84, R89, R94, R95, R98, R100; 04 R123): the accumulators it reads for a store, the commands it
ends, and sums of integers, which come out alike in any order. -/

namespace Sys2Proof.Machine

/-! ### Sums of integers (R123) -/

/-- A code and its integer agree modulo two to the width. -/
theorem intValue_emod (fmt raw : Nat) : intValue fmt raw % 2 ^ fmtBits fmt = (raw : Int) % 2 ^ fmtBits fmt := by
  have low : ((raw % 2 ^ fmtBits fmt : Nat) : Int) % 2 ^ fmtBits fmt = (raw : Int) % 2 ^ fmtBits fmt := by
    push_cast
    exact Int.emod_emod_of_dvd _ (dvd_refl _)
  unfold intValue
  dsimp only
  split
  · rw [← low]
    exact Int.sub_emod_right _ _
  · exact low

theorem intRaw_congr {fmt : Nat} {a b : Int} (same : a % 2 ^ fmtBits fmt = b % 2 ^ fmtBits fmt) : intRaw fmt a = intRaw fmt b := congrArg Int.toNat same

theorem intRaw_cast (fmt : Nat) (a : Int) : ((intRaw fmt a : Nat) : Int) = a % 2 ^ fmtBits fmt :=
  Int.toNat_of_nonneg (Int.emod_nonneg _ (by positivity))

theorem intRaw_lt (fmt : Nat) (a : Int) : intRaw fmt a < 2 ^ fmtBits fmt := by
  have bound := Int.emod_lt_of_pos a (b := 2 ^ fmtBits fmt) (by positivity)
  rw [← intRaw_cast] at bound
  exact_mod_cast bound

theorem intValue_intRaw_emod (fmt : Nat) (a : Int) : intValue fmt (intRaw fmt a) % 2 ^ fmtBits fmt = a % 2 ^ fmtBits fmt := by
  rw [intValue_emod, intRaw_cast]
  exact Int.emod_emod_of_dvd _ (dvd_refl _)

/-- A code of its width is the code of its integer. -/
theorem intRaw_intValue {fmt raw : Nat} (fits : raw < 2 ^ fmtBits fmt) : intRaw fmt (intValue fmt raw) = raw := by
  unfold intRaw
  rw [intValue_emod]
  norm_cast
  exact Nat.mod_eq_of_lt fits

/-- The sum of a format's integers, as a code. -/
def intSum (fmt : Nat) (l : List Nat) : Nat := intRaw fmt (l.map (intValue fmt)).sum

/-- The sums of two lists add up to the sum of both. -/
theorem reduceOp_intSum {fmt : Nat} (int : fmtIsInt fmt = true) (k l : List Nat) : reduceOp 0 fmt (intSum fmt k) (intSum fmt l) = intSum fmt (k ++ l) := by
  unfold reduceOp
  rw [if_pos int]
  refine intRaw_congr ?_
  rw [List.map_append, List.sum_append, Int.add_emod, intSum, intSum, intValue_intRaw_emod, intValue_intRaw_emod, ← Int.add_emod]

/-- How many of n values a tree takes to its left. -/
def treeCut (key lo n : Nat) : Nat := 1 + Config.treeSplit (Nat.pair key (Nat.pair lo n)) % (n - 1)

theorem treeCut_bounds (key lo : Nat) {n : Nat} (two : 2 ≤ n) : 0 < treeCut key lo n ∧ treeCut key lo n < n := by
  have := Nat.mod_lt (Config.treeSplit (Nat.pair key (Nat.pair lo n))) (show 0 < n - 1 by omega)
  unfold treeCut
  omega

theorem reduceTree_cut (op fmt key fuel lo : Nat) {l : List Nat} (two : 2 ≤ l.length) :
    reduceTree op fmt key (fuel + 1) lo l = reduceOp op fmt (reduceTree op fmt key fuel lo (l.take (treeCut key lo l.length)))
      (reduceTree op fmt key fuel (lo + treeCut key lo l.length) (l.drop (treeCut key lo l.length))) := by
  match l with
  | _ :: _ :: _ => rfl

/-- A tree of additions gives the sum, however it splits its values. -/
theorem reduceTree_sum {fmt : Nat} (int : fmtIsInt fmt = true) (key fuel lo : Nat) {l : List Nat} (some' : l ≠ []) (fuelled : l.length ≤ fuel)
    (fits : ∀ a ∈ l, a < 2 ^ fmtBits fmt) : reduceTree 0 fmt key fuel lo l = intSum fmt l := by
  induction fuel generalizing lo l with
  | zero => exact absurd (List.length_eq_zero_iff.mp (Nat.le_zero.mp fuelled)) some'
  | succ fuel ih =>
    have long := List.length_pos_iff.mpr some'
    by_cases two : 2 ≤ l.length
    · obtain ⟨low, high⟩ := treeCut_bounds key lo two
      have left := ih lo (l := l.take (treeCut key lo l.length)) (List.ne_nil_of_length_pos (by rw [List.length_take]; omega)) (by rw [List.length_take]; omega)
        (fun x hx => fits x (List.mem_of_mem_take hx))
      have right := ih (lo + treeCut key lo l.length) (l := l.drop (treeCut key lo l.length)) (List.ne_nil_of_length_pos (by rw [List.length_drop]; omega))
        (by rw [List.length_drop]; omega) (fun x hx => fits x (List.mem_of_mem_drop hx))
      rw [reduceTree_cut _ _ _ _ _ two, left, right, reduceOp_intSum int, List.take_append_drop]
    · obtain ⟨a, rfl⟩ := List.length_eq_one_iff.mp (show l.length = 1 by omega)
      unfold reduceTree
      dsimp only
      rw [if_pos int, intSum, List.map_singleton, List.sum_singleton, intRaw_intValue (fits a List.mem_cons_self)]

/-- One segment holds all of what is not longer than it. -/
theorem segmentsOf_one {n len : Nat} (some' : 0 < n) (fits : n ≤ len) (starts : Nat → Bool) : segmentsOf n len starts = [(0, n)] := by
  have one : ceilDiv n len = 1 := Nat.div_eq_of_lt_le (by omega) (by omega)
  unfold segmentsOf
  rw [if_pos (by omega), one]
  simp [Nat.min_eq_right fits]

/-! ### What the engine takes (R89, R95, R98) -/

section
variable {s : State} {la : Nat} {c : Cmd} {op : TileOp}

/-- Accumulators that no contraction has written read zero (R90). -/
theorem State.readAcc_unwritten {acc : Nat} (unwritten : Tbl.get 0 (s.array la).accFmt acc = 0) (range : accRange c acc 1 = true) (n rows fl : Nat) :
    s.readAcc la c op n rows fl acc
      = State.putTile { s with freeCount := s.freeCount + rows * n } la { op with accRead := some (1, n, (pairsBelow rows n).map (fun _ => (0 : Word))) } := by
  unfold State.readAcc
  simp [unwritten, range]

variable (taken : (s.array la).inGrid = some op)
include taken

theorem State.stepGrid_store {ls gaddr rowElems rows gstride : Word} {fm fl rnd : Nat} {sat : Bool} {hint scope order : Nat} {srcAcc : Bool} {acc : Nat} {destLs : Bool}
    {lsStride : Word} (kind : op.kind = .store ls gaddr rowElems rows gstride fm fl rnd sat hint scope order srcAcc acc destLs lsStride) :
    s.stepGrid la c = s.readAcc la c op rowElems.toNat rows.toNat fl acc := by
  unfold State.stepGrid
  simp only [taken, kind]

variable {code : Nat} {p q e : Word} {slot : Fin 4} {acc : Nat} {init : Bool} {cc d sa sb : Word} (kind : op.kind = .grid code p q e slot acc init cc d sa sb)
include kind

theorem State.stepGrid_grid : s.stepGrid la c = s.startGrid la c op code p q e slot acc init cc d sa sb := by
  unfold State.stepGrid
  simp only [taken, kind]

/-- A slot without a pattern ends the command with PATTERN_ABSENT (R89). -/
theorem State.stepGrid_absent (empty : Tbl.get none (s.array la).slots slot.val = none) : s.stepGrid la c = s.endCmd c 0x15 (BitVec.ofNat 32 la) := by
  rw [State.stepGrid_grid taken kind]
  unfold State.startGrid
  rw [empty]

variable {v : PatSlot} (loaded : Tbl.get none (s.array la).slots slot.val = some v)
include loaded

/-- So does one with a pattern of another partition. -/
theorem State.stepGrid_foreign (foreign : v.part ≠ c.part.val) : s.stepGrid la c = s.endCmd c 0x15 (BitVec.ofNat 32 la) := by
  rw [State.stepGrid_grid taken kind]
  unfold State.startGrid
  rw [loaded]
  exact if_pos foreign

/-- A pattern of a KIND that the instruction does not use ends the command with PATTERN_MISMATCH (R89). -/
theorem State.stepGrid_mismatch (own : v.part = c.part.val) (unserved : gridServes code v.pat.kind = false) : s.stepGrid la c = s.endCmd c 0x16 (BitVec.ofNat 32 la) := by
  rw [State.stepGrid_grid taken kind]
  unfold State.startGrid
  rw [loaded]
  dsimp only
  rw [if_neg (not_not.mpr own), unserved]
  rfl

/-- A reduction whose ranges are held is performed. -/
theorem State.stepGrid_reduce (own : v.part = c.part.val) (reduces : code = 5) (kind6 : v.pat.kind = 6) {x : GridRun}
    (is : x = ⟨la, c, op, v.pat, slot, v.id, code, p.toNat, q.toNat, cc.toNat, d.toNat, sa.toNat, sb.toNat, e, acc, init⟩)
    (reads : firstBad (x.checks (s.array la)) = none) (writes : firstBad (x.outChecks (s.array la)) = none) : s.stepGrid la c = s.runReduce x := by
  have serves : gridServes code 6 = true := by rw [reduces]; rfl
  rw [State.stepGrid_grid taken kind]
  subst is
  unfold State.startGrid State.runGrid
  simp only [loaded, own, serves, kind6, reads, writes]
  simp

end

/-! ### A reduction of integers (R94, R123) -/

theorem GridRun.elem_lt (x : GridRun) (ar : ArrayState) (r : Route) (base plane : Nat) (i j : Int) : x.elem ar r base plane i j < 2 ^ fmtBits r.fmt :=
  Nat.mod_lt _ (by positivity)

section
variable {s : State} {x : GridRun} {k : Nat} (kind : x.pat.kind = 6) (adds : x.pat.operation = 0) (int : fmtIsInt x.pat.a.fmt = true) (same : x.pat.d.fmt = x.pat.a.fmt)
  (count : x.extent.toNat % 2 ^ 32 = k) (some' : 0 < k) (fits : k ≤ x.pat.segment)

/-- The elements of a reduction, as their codes. -/
def GridRun.elems (x : GridRun) (ar : ArrayState) (k : Nat) : List Nat := (List.range k).map (fun i => x.elem ar x.pat.a x.a 0 0 (i : Nat))

include some' in
theorem GridRun.elems_sum (x : GridRun) (ar : ArrayState) (int : fmtIsInt x.pat.a.fmt = true) (key : Nat) :
    reduceTree 0 x.pat.a.fmt key k 0 (x.elems ar k) = intSum x.pat.a.fmt (x.elems ar k) := by
  have length : (x.elems ar k).length = k := by rw [GridRun.elems, List.length_map, List.length_range]
  refine reduceTree_sum int key k 0 (List.ne_nil_of_length_pos (by rw [length]; exact some')) (Nat.le_of_eq length) (fun a ha => ?_)
  obtain ⟨i, -, rfl⟩ := List.mem_map.mp ha
  exact x.elem_lt ar _ _ _ _ _

include count some' fits in
theorem GridRun.segments_one (ar : ArrayState) : x.segments ar = [(0, k)] := by
  unfold GridRun.segments
  rw [count]
  exact segmentsOf_one some' fits _

include kind int same in
/-- A result of the format that the operation adds in is written as it is. -/
theorem State.putResults_same (t : State) (v : Nat) : t.putResults x [(0, 0, 0, v)] = t.gridPut x x.pat.d x.d 0 0 0 v := by
  have accFmt : x.pat.accFmt = x.pat.d.fmt := (if_pos ⟨.inl kind, int⟩ : x.pat.accFmt = x.pat.a.fmt).trans same.symm
  unfold State.putResults State.gridOut
  simp only [accFmt, if_true, List.foldl_cons, List.foldl_nil]

include kind adds int same count some' fits in
/-- A sum of integers over one segment writes the sum of the elements, whatever tree its array makes, and ends. -/
theorem State.runReduce_sum :
    s.runReduce x = ((State.gridPut { s with freeCount := s.freeCount + 1 } x x.pat.d x.d 0 0 0 (intSum x.pat.a.fmt (x.elems (s.array x.la) k))).tileDone x.la x.cmd x.op) := by
  have accFmt : x.pat.accFmt = x.pat.a.fmt := if_pos ⟨.inl kind, int⟩
  unfold State.runReduce
  simp only [accFmt, GridRun.segments_one count some' fits, kind, adds, if_true, reduceCause, int, true_or, Nat.zero_add, List.zipIdx_cons, List.zipIdx_nil, List.map_cons,
    List.map_nil, Nat.cast_zero, List.length_singleton]
  rw [State.putResults_same kind int same]
  change State.tileDone (State.gridPut _ x x.pat.d x.d 0 0 0 (reduceTree 0 x.pat.a.fmt _ k 0 (x.elems (s.array x.la) k))) x.la x.cmd x.op = _
  rw [x.elems_sum some' (s.array x.la) int]

end

/-! ### A code in local store (R81) -/

/-- What a reduction of one segment writes lies in the allocation of a cohort that is resident. -/
theorem GridRun.cohortOf_of_outChecks {x : GridRun} {ar : ArrayState} (kind : x.pat.kind = 6) {k : Nat} (segments : x.segments ar = [(0, k)])
    (writes : firstBad (x.outChecks ar) = none) : ∃ co, ar.cohortOf x.op.cohort = some co := by
  have held : x.held ar x.pat.d x.d 0 0 0 = true := by
    have checks : x.outChecks ar = [(x.d, x.held ar x.pat.d x.d 0 0 0)] := by
      unfold GridRun.outChecks
      simp [kind, segments]
    rw [checks] at writes
    cases found : x.held ar x.pat.d x.d 0 0 0 with
    | true => rfl
    | false => rw [found] at writes; cases writes
  unfold GridRun.held ArrayState.bitsHeld at held
  exact ArrayState.cohortOf_of_holds (Bool.and_eq_true _ _ ▸ held).2

theorem Route.pos_zero (r : Route) (base bits : Nat) : r.pos base 0 bits 0 0 = 8 * base := by
  unfold Route.pos
  cases r.transposed <;> simp

theorem State.gridPut_array (s : State) (x : GridRun) (r : Route) (base v : Nat) :
    (s.gridPut x r base 0 0 0 v).array x.la = (s.array x.la).putCode x.cmd.part x.op.cohort (8 * base) (fmtBits r.fmt) v := by
  rw [State.gridPut, State.onArray, State.array_setArray, Route.pos_zero]

/-- A code of whole bytes that an operation writes at a byte is read back. -/
theorem ArrayState.codeAt_putCode {a : ArrayState} {c : Nat} {x : Cohort} (there : a.cohortOf c = some x) (p : Fin 16) (base n : Nat) {v : Nat} (fits : v < 2 ^ (8 * n)) :
    (a.putCode p c (8 * base) (8 * n) v).codeAt c (8 * base) (8 * n) = v := by
  have byte : ((8 * base : Int) / 8).toNat = base := by omega
  have bit : ((8 * base : Int) % 8).toNat = 0 := by omega
  have bytes : ceilDiv (8 * n) 8 = n := by unfold ceilDiv; omega
  have read := ArrayState.lsRead_lsWrite there p base (leBytes n v)
  rw [leBytes_length] at read
  unfold ArrayState.codeAt ArrayState.putCode
  rw [byte, bit, Nat.zero_add, bytes, Nat.mul_div_cancel_left n (by decide), read, leNat_leBytes, show 256 = 2 ^ 8 from rfl, ← pow_mul, pow_zero, Nat.div_one, Nat.mod_mod,
    Nat.mod_eq_of_lt fits]

end Sys2Proof.Machine
end

section
/-! SUPPORT. Tile operations that complete (03 R84, R89, R94-R98, R100, R123; 07 R213, R214): what a turn of an engine leaves, with the
statement about them. -/

namespace Sys2Proof.Machine

/-! ### Operations that end -/

section
variable {s t : State} {la : Fin 384} {op : TileOp} {g : Group} (done : s.Frees la op g t)
include done

theorem State.Frees.lsRead (c off n : Nat) : (t.array la.val).lsRead c off n = (s.array la.val).lsRead c off n :=
  ArrayState.lsRead_of_view (a := { s.array la.val with tq := (s.array la.val).tq.filter (fun y => decide (y.seq ≠ op.seq)) }) done.1 c off n

theorem State.Frees.codeAt (c : Nat) (pos : Int) (w : Nat) : (t.array la.val).codeAt c pos w = (s.array la.val).codeAt c pos w :=
  ArrayState.codeAt_of_view (a := { s.array la.val with tq := (s.array la.val).tq.filter (fun y => decide (y.seq ≠ op.seq)) }) done.1 c pos w

end

theorem ArrayState.lsWrite_keeps (a : ArrayState) (p : Fin 16) (c off : Nat) (b : List Byte) : (a.lsWrite p c off b).groups = a.groups ∧ (a.lsWrite p c off b).tq = a.tq := by
  unfold ArrayState.lsWrite
  split <;> exact ⟨rfl, rfl⟩

/-- The turn of an engine of an array takes an operation from the queue, and its group goes on with the token clear. -/
def TurnFrees (s : State) (la : Fin 384) (e : TileEngine) (n : Fin 8) (op : TileOp) (g : Group) (f : State → Prop) : Prop :=
  ∃ t h, exec (.tileOperationComplete la ⟨e, n⟩ .none .none) s = .next t ∧ (t.array la.val).tq = (s.array la.val).tq.filter (fun y => decide (y.seq ≠ op.seq))
    ∧ t.groupOf ⟨la, g.cohort, g.num⟩ = some h ∧ h.token op.token.val = .clear ∧ h.regs = g.regs ∧ f t

section
variable {s : State} {la : Fin 384} {c : Cmd} {op : TileOp} {g : Group} {n : Fin 8} (occupant : s.occupantCmd la.val = some c) (running : c.stage = .running)
  (there : s.groupFor la.val op = some g) (live : g.live ≠ []) (untrapped : op.held = none)

include there live untrapped in
/-- An operation ends in a state that has the groups and the queue of the first. -/
theorem turnFrees_of_done {e : TileEngine} {u : State} {f : State → Prop} (run : exec (.tileOperationComplete la ⟨e, n⟩ .none .none) s = .next (u.tileDone la.val c op))
    (groups : (u.array la.val).groups = (s.array la.val).groups) (queue : (u.array la.val).tq = (s.array la.val).tq) (leaves : ∀ t, u.Frees la op g t → f t) :
    TurnFrees s la e n op g f := by
  have here : u.groupFor la.val op = some g := (State.groupOf_of_groups (r := ⟨la, op.cohort, op.group⟩) groups).trans there
  have done := State.tileDone_frees here live untrapped c
  obtain ⟨view, h, found, token, regs⟩ := id done
  exact ⟨_, h, run, (congrArg TileView.tq view).trans (by rw [queue]), found, token, regs, leaves _ done⟩

/-! ### The loader -/

section
variable (chosen : (((s.array la.val).inFlight[n.val]?).orElse (fun _ => (s.array la.val).inFlight.head?)) = some op) (foremost : s.moveBehind (s.array la.val) c.part op = false)
include occupant running there chosen foremost

section
variable {ls gaddr rowElems rows gstride : Word} {fm fl rnd : Nat} {sat : Bool} {hint scope order : Nat} {lsStride : Word}

theorem exec_load (kind : op.kind = .load ls gaddr rowElems rows gstride fm fl rnd sat hint scope order lsStride) :
    exec (.tileOperationComplete la ⟨.loader, n⟩ .none .none) s
      = .next ((s.tileTurn c).stepLoad ⟨la.val, c, op, g⟩ ls gaddr rowElems rows gstride fm fl rnd sat hint scope order lsStride) :=
  (exec_loaderTurn occupant running n).trans
    (congrArg _ (State.stepLoader_load (s := s.tileTurn c) chosen there ((s.moveBehind_tileTurn c _ c.part op).trans foremost) kind))

/-- A load with its acquire still to make makes it (R214). -/
theorem load_acquires (kind : op.kind = .load ls gaddr rowElems rows gstride fm fl rnd sat hint scope order lsStride) (acquires : order = 1) (wide : scope ≠ 0)
    (unsent : op.sent = false) :
    ∃ t, exec (.tileOperationComplete la ⟨.loader, n⟩ .none .none) s = .next t
      ∧ (t.array la.val).tq = (s.array la.val).tq.map (fun y => if y.seq = op.seq then { op with sent := true } else y) ∧ ∀ l ∈ (t.array la.val).l1, l.instr = true := by
  obtain ⟨k, array⟩ := State.stepLoad_acquires (s := s.tileTurn c) (x := ⟨la.val, c, op, g⟩) (ls := ls) (gaddr := gaddr) (rowElems := rowElems) (rows := rows) (gstride := gstride)
    (fm := fm) (fl := fl) (rnd := rnd) (sat := sat) (hint := hint) (lsStride := lsStride) acquires wide unsent
  refine ⟨_, exec_load occupant running there chosen foremost kind, ?_, ?_⟩ <;> rw [array]
  · rfl
  · exact fun l hl => (List.mem_filter.mp hl).2

include live untrapped

/-- A load of one row between equal formats leaves the row's elements packed in local store (R84, R95). -/
theorem load_row (kind : op.kind = .load ls gaddr rowElems 1 gstride fm fm rnd sat hint scope order lsStride) (acquired : order ≠ 1 ∨ scope = 0 ∨ op.sent = true)
    {k : Need} {v w : State} {b : List Byte}
    (needs : (s.tileTurn c).tileNeeds ⟨la.val, c, op, g⟩ hint (moveCuts gaddr gstride 1 (rowBytes fm rowElems.toNat)) = (k, v)) (goes : k ≠ .wait)
    (holds : (v.array la.val).lsHolds op.cohort ls.toNat (rowBytes fm rowElems.toNat) = true)
    (row : v.tileRow ⟨la.val, c, op, g⟩ hint (lineCuts gaddr.toNat (rowBytes fm rowElems.toNat)) = (.ok b, w)) :
    TurnFrees s la .loader n op g (fun t => (t.array la.val).lsRead op.cohort ls.toNat (rowBytes fm rowElems.toNat)
      = packRow fm (unpackRow fm rowElems.toNat b) ((s.array la.val).lsRead op.cohort ls.toNat (rowBytes fm rowElems.toNat))) := by
  have asked : v.roster = s.roster := by
    have kept := State.tileNeeds_roster hint (moveCuts gaddr gstride 1 (rowBytes fm rowElems.toNat)) (s.tileTurn c) ⟨la.val, c, op, g⟩ (by rw [needs]; exact goes)
    rwa [needs] at kept
  have read : w.roster = s.roster := by
    have kept := State.tileRow_roster ⟨la.val, c, op, g⟩ hint (lineCuts gaddr.toNat (rowBytes fm rowElems.toNat)) v
    rw [row] at kept
    exact kept.trans asked
  obtain ⟨co, resident⟩ := ArrayState.cohortOf_of_holds holds
  rw [State.array_of_roster asked] at resident
  obtain ⟨l, moved⟩ := w.rowMoved_array ⟨la.val, c, op, g⟩ ls gaddr rowElems.toNat fm hint b
  rw [State.array_of_roster read] at moved
  have run := exec_load occupant running there chosen foremost kind
  rw [State.stepLoad_row holds row acquired needs goes] at run
  have bytes := ArrayState.lsRead_lsWrite (a := { s.array la.val with streams := l }) resident c.part ls.toNat
    (packRow fm (unpackRow fm rowElems.toNat b) ((s.array la.val).lsRead op.cohort ls.toNat (rowBytes fm rowElems.toNat)))
  rw [packRow_length, unpackRow_length] at bytes
  obtain ⟨groups, queue⟩ := ArrayState.lsWrite_keeps { s.array la.val with streams := l } c.part op.cohort ls.toNat
    (packRow fm (unpackRow fm rowElems.toNat b) ((s.array la.val).lsRead op.cohort ls.toNat (rowBytes fm rowElems.toNat)))
  refine turnFrees_of_done there live untrapped run ?_ ?_ (fun t done => ?_)
  · exact (congrArg ArrayState.groups moved).trans groups
  · exact (congrArg ArrayState.tq moved).trans queue
  · exact (done.lsRead _ _ _).trans ((congrArg (fun a : ArrayState => a.lsRead op.cohort ls.toNat (rowBytes fm rowElems.toNat)) moved).trans bytes)

end

include live untrapped

/-- A store whose writes are all handled ends (R99). -/
theorem store_sent {ls gaddr rowElems rows gstride : Word} {fm fl rnd : Nat} {sat : Bool} {hint scope order : Nat} {srcAcc : Bool} {acc : Nat} {destLs : Bool} {lsStride : Word}
    (kind : op.kind = .store ls gaddr rowElems rows gstride fm fl rnd sat hint scope order srcAcc acc destLs lsStride) (sent : op.sent = true)
    (handled : s.tileSent la.val op scope = false) : TurnFrees s la .loader n op g (fun _ => True) := by
  have run := (exec_loaderTurn occupant running n).trans
    (congrArg _ (State.stepLoader_store (s := s.tileTurn c) chosen there ((s.moveBehind_tileTurn c _ c.part op).trans foremost) kind))
  rw [State.stepStore_sent sent handled] at run
  exact turnFrees_of_done there live untrapped run rfl rfl (fun _ _ => trivial)

/-- A discard whose requests are all handled ends (R96). -/
theorem discard_sent {addr len : Word} (kind : op.kind = .discard addr len) (sent : op.sent = true) (handled : s.tileSent la.val op 4 = false) :
    TurnFrees s la .loader n op g (fun _ => True) := by
  have run := (exec_loaderTurn occupant running n).trans
    (congrArg _ (State.stepLoader_discard (s := s.tileTurn c) chosen there ((s.moveBehind_tileTurn c _ c.part op).trans foremost) kind))
  rw [State.stepDiscard_sent sent handled] at run
  exact turnFrees_of_done there live untrapped run rfl rfl (fun _ _ => trivial)

end

/-! ### The grid engine -/

section
variable (taken : (s.array la.val).inGrid = some op)
include occupant running

include taken in
/-- A store of accumulators that no contraction has written is handed zeros (R90, R95). -/
theorem store_readsZero {ls gaddr rowElems rows gstride : Word} {fm fl rnd : Nat} {sat : Bool} {hint scope order : Nat} {srcAcc : Bool} {acc : Nat} {destLs : Bool} {lsStride : Word}
    (kind : op.kind = .store ls gaddr rowElems rows gstride fm fl rnd sat hint scope order srcAcc acc destLs lsStride)
    (unwritten : Tbl.get 0 (s.array la.val).accFmt acc = 0) (range : accRange c acc 1 = true) :
    ∃ t r, exec (.tileOperationComplete la ⟨.grid, n⟩ .none .none) s = .next t
      ∧ (t.array la.val).tq = (s.array la.val).tq.map (fun y => if y.seq = op.seq then { op with accRead := some r } else y)
      ∧ r.2.1 = rowElems.toNat ∧ ∀ w ∈ r.2.2, w = 0 := by
  have run := (exec_gridTurn occupant running n).trans (congrArg _ (State.stepGrid_store (s := s.tileTurn c) taken kind))
  rw [State.readAcc_unwritten (s := s.tileTurn c) unwritten range] at run
  refine ⟨_, (1, rowElems.toNat, (pairsBelow rows.toNat rowElems.toNat).map (fun _ => (0 : Word))), run, ?_, rfl, fun w hw => ?_⟩
  · exact congrArg ArrayState.tq (State.array_setArray _ _ _)
  · obtain ⟨-, -, rfl⟩ := List.mem_map.mp hw
    rfl

include there live untrapped in
/-- A sum of INT32 elements over one segment leaves the sum modulo 2^32 at D (R94, R123). -/
theorem reduce_sums {x : GridRun} {k : Nat} (step : (s.tileTurn c).stepGrid la.val c = (s.tileTurn c).runReduce x) (array : x.la = la.val) (command : x.cmd = c) (operation : x.op = op)
    (kind : x.pat.kind = 6) (adds : x.pat.operation = 0) (elements : x.pat.a.fmt = 10) (results : x.pat.d.fmt = 10) (count : x.extent.toNat % 2 ^ 32 = k) (some' : 0 < k)
    (fits : k ≤ x.pat.segment) (writes : firstBad (x.outChecks (s.array la.val)) = none) :
    TurnFrees s la .grid n op g (fun t => (t.array la.val).codeAt op.cohort (x.pat.d.pos x.d 0 32 0 0) 32
      = intRaw 10 ((List.range k).map (fun i => intValue 10 (x.elem (s.array la.val) x.pat.a x.a 0 0 (i : Nat)))).sum) := by
  subst command operation
  obtain ⟨co, resident⟩ := GridRun.cohortOf_of_outChecks kind (GridRun.segments_one count some' fits _) writes
  have int : fmtIsInt x.pat.a.fmt = true := by rw [elements]; rfl
  have run := (exec_gridTurn occupant running n).trans (congrArg _ (step.trans (State.runReduce_sum kind adds int (results.trans elements.symm) count some' fits)))
  have put := State.gridPut_array { s.tileTurn x.cmd with freeCount := s.freeCount + 1 } x x.pat.d x.d (intSum x.pat.a.fmt (x.elems ((s.tileTurn x.cmd).array x.la) k))
  rw [array, results, elements] at put
  rw [array, elements] at run
  obtain ⟨groups, queue⟩ := (s.array la.val).lsWrite_keeps x.cmd.part x.op.cohort ((8 * x.d : Int) / 8).toNat (leBytes 4 (intSum 10 (x.elems (s.array la.val) k)))
  refine turnFrees_of_done there live untrapped run ?_ ?_ (fun t done => ?_)
  · exact (congrArg ArrayState.groups put).trans groups
  · exact (congrArg ArrayState.tq put).trans queue
  · have sum : intSum 10 (x.elems (s.array la.val) k) = intRaw 10 ((List.range k).map (fun i => intValue 10 (x.elem (s.array la.val) x.pat.a x.a 0 0 (i : Nat)))).sum := by
      rw [intSum, GridRun.elems, List.map_map]
      rfl
    rw [Route.pos_zero, done.codeAt, ← sum]
    exact (congrArg (fun a : ArrayState => a.codeAt x.op.cohort (8 * x.d) 32) put).trans (ArrayState.codeAt_putCode resident x.cmd.part x.d 4 (intRaw_lt 10 _))

end

end

/-- Settles O15: each operation that an engine takes a step on has all that it asks for, and what the step leaves is read off its own rule. -/
theorem tileOperationsComplete : Obligations.TileOperationsComplete := by
  unfold Obligations.TileOperationsComplete
  intro s la c op g n occupant running there live untrapped u x a free
  refine ⟨fun chosen foremost => ⟨fun ls gaddr gstride lsStride rowElems rows fm rnd sat hint scope order kind => ⟨?acquire, ?row⟩, ?discard, ?store⟩,
    fun taken => ⟨?accumulators, fun code p q e slot acc init cc d sa sb kind => ⟨fun empty => ?absent, fun v loaded => ⟨fun foreign => ?foreign, fun own unserved => ?mismatch, ?reduce⟩⟩⟩⟩
  case acquire => exact load_acquires occupant running there chosen foremost kind
  case row =>
    rintro acquired rfl k v b w needs goes holds row
    exact load_row occupant running there live untrapped chosen foremost kind acquired needs goes holds row
  case discard => exact fun addr len => discard_sent occupant running there live untrapped chosen foremost
  case store => exact fun ls gaddr gstride lsStride rowElems rows fm fl rnd sat hint scope order acc toAcc toLs => store_sent occupant running there live untrapped chosen foremost
  case accumulators => exact fun ls gaddr gstride lsStride rowElems rows fm fl rnd sat hint scope order acc toLs => store_readsZero occupant running taken
  case absent => exact (exec_gridTurn occupant running n).trans (congrArg _ (State.stepGrid_absent (s := s.tileTurn c) taken kind empty))
  case foreign => exact (exec_gridTurn occupant running n).trans (congrArg _ (State.stepGrid_foreign (s := s.tileTurn c) taken kind loaded foreign))
  case mismatch => exact (exec_gridTurn occupant running n).trans (congrArg _ (State.stepGrid_mismatch (s := s.tileTurn c) taken kind loaded own unserved))
  case reduce =>
    intro r k own reduces kind6 adds elements results fits some' reads writes
    exact reduce_sums occupant running there live untrapped (State.stepGrid_reduce (s := s.tileTurn c) taken kind loaded own reduces kind6 rfl reads writes) rfl rfl rfl
      kind6 adds elements results rfl some' fits writes

end Sys2Proof.Machine
end

section
/-! SUPPORT. Elements of a block under its scale code (04 R125). -/

namespace Sys2Proof.Machine

theorem scaledNum_nanScale (c raw : Nat) : scaledNum c raw 255 = .nan := rfl

theorem scaledNum_nan {c raw : Nat} (nan : numOf c raw = .nan) (e : Nat) : scaledNum c raw e = .nan := by
  unfold scaledNum
  split
  · rfl
  · rw [nan]

theorem scaledNum_fin {c raw e : Nat} (lt : e < 255) {n : Bool} {m : Nat} {k : Int} (fin : numOf c raw = .fin n m k) :
    scaledNum c raw e = .fin n m (k + ((e : Int) - 127)) := by
  have mod : e % 256 = e := Nat.mod_eq_of_lt (by omega)
  rw [scaledNum, mod, if_neg (by omega), fin]

/-- Settles O53, by the value of the scale code: 255 is NaN, and below it the element's own decoding decides. -/
theorem blockElementsDecode : Obligations.BlockElementsDecode := by
  unfold Obligations.BlockElementsDecode
  refine fun c raw e lt => ⟨?_, fun n m k proper fin => scaledNum_fin (by omega) fin, fun nan => scaledNum_nan nan e⟩
  rintro rfl
  exact scaledNum_nanScale c raw

end Sys2Proof.Machine
end

section
/-! SUPPORT. Requests of the pool, translations, writes to host memory and records of rings leave the collector and the controllers, but for the
reports that units raise. -/

namespace Sys2Proof.Machine

/-- What the controllers and the collector hold: the error state without the reports that units have raised. -/
def State.collector (s : State) : ErrState := { s.err with raised := [] }

/-! ### How a function of the state passes through folds and branches -/

@[simp] theorem foldl_collector {α : Type} (F : State → α → State) (h : ∀ s a, (F s a).collector = s.collector) (l : List α) (s : State) :
    (l.foldl F s).collector = s.collector := foldl_keeps _ F h l s

@[simp] theorem foldl_collector_fst {α β : Type} (F : State × β → α → State × β) (h : ∀ x a, (F x a).1.collector = x.1.collector) (l : List α) (x : State × β) :
    (l.foldl F x).1.collector = x.1.collector := foldl_keeps (fun x => x.1.collector) F h l x

@[simp] theorem collector_ite (c : Prop) [Decidable c] (a b : State) : (if c then a else b).collector = if c then a.collector else b.collector := apply_ite _ _ _ _

/-- A state written out: its collector is read off. -/
@[simp] theorem State.collector_mk (a b c d e f g h i j k l m) : (State.mk a b c d e f g h i j k l m).collector = { g with raised := [] } := rfl

@[simp] theorem State.collector_fold (s : State) : { s.err with raised := [] } = s.collector := rfl

/-! ### Channels (R154-R161) -/

@[simp] theorem State.report_collector (s : State) (r : Report) : (s.report r).collector = s.collector := rfl
@[simp] theorem State.emit_collector (s : State) (o : Out) : (s.emit o).collector = s.collector := rfl
@[simp] theorem State.freeVal_collector (s : State) (w : Nat) : (s.freeVal w).2.collector = s.collector := rfl
@[simp] theorem State.charge_collector (s : State) (p : Fin 16) (c : Option CmdRef) (e : EnergyEvent) (n : Nat) : (s.charge p c e n).collector = s.collector := rfl
@[simp] theorem State.setPoison_collector (s : State) (g : Nat) (b : Bool) : (s.setPoison g b).collector = s.collector := rfl

@[simp] theorem State.writeMem_collector (s : State) (line : Nat) (d : Line) (m : BitVec 128) (p : BitVec 2) : (s.writeMem line d m p).collector = s.collector := by
  unfold State.writeMem; split <;> rfl

@[simp] theorem State.enterReq_collector (s : State) (r : MemReq) : (s.enterReq r).collector = s.collector := by
  unfold State.enterReq; dsimp only; (repeat' split) <;> rfl

@[simp] theorem State.chanAsk_collector (s : State) (line : Nat) (p : Fin 16) (cls : ReqClass) (bytes : Nat) (target : FillFor) :
    (s.chanAsk line p cls bytes target).collector = s.collector := by
  simp [State.chanAsk]

/-! ### The home and the dies (R177-R194) -/

@[simp] theorem State.llcPut_collector (s : State) (l : LlcLine) : (s.llcPut l).collector = s.collector := rfl
@[simp] theorem State.llcDrop_collector (s : State) (l : LlcLine) : (s.llcDrop l).collector = s.collector := rfl
@[simp] theorem State.countDemoted_collector (s : State) (p : Fin 16) : (s.countDemoted p).collector = s.collector := rfl
@[simp] theorem State.wakeLine_collector (s : State) (line : Nat) : (s.wakeLine line).collector = s.collector := rfl

@[simp] theorem State.shadowNote_collector (s : State) (p : Fin 16) (slice set tag hint : Nat) (hit : Bool) : (s.shadowNote p slice set tag hint hit).collector = s.collector := by
  unfold State.shadowNote; split <;> rfl

@[simp] theorem State.llcHit_collector (s : State) (p : Fin 16) (l : LlcLine) (hint : Nat) : (s.llcHit p l hint).collector = s.collector := by
  simp [State.llcHit]

@[simp] theorem State.dieAnswer_collector (s : State) (d : Fin 2) (line : Nat) (q : Snoop) (w : Option Line) : (s.dieAnswer d line q w).2.collector = s.collector := by
  unfold State.dieAnswer; dsimp only; (repeat' split) <;> rfl

@[simp] theorem State.takeRsp_collector (s : State) (d : Fin 2) (line : Nat) (r : Rsp) : (s.takeRsp d line r).collector = s.collector := by
  unfold State.takeRsp; split
  · rfl
  · cases r <;> rfl

@[simp] theorem State.snoopNow_collector (s : State) (d : Fin 2) (line : Nat) (q : Snoop) : (s.snoopNow d line q).collector = s.collector := by
  simp [State.snoopNow]

@[simp] theorem State.snoopAll_collector (s : State) (line : Nat) (q : Snoop) : (s.snoopAll line q).collector = s.collector := by
  simp [State.snoopAll]

@[simp] theorem State.evictLine_collector (s : State) (l : LlcLine) : (s.evictLine l).collector = s.collector := by
  unfold State.evictLine; split
  · rfl
  · dsimp only; split <;> simp

@[simp] theorem State.llcAlloc_collector (s : State) (p : Fin 16) (line hint : Nat) (remote dieReq : Bool) (hd : HomeData) (d : Line) (po : BitVec 2) :
    (s.llcAlloc p line hint remote dieReq hd d po).2.collector = s.collector := by
  unfold State.llcAlloc; dsimp only; split
  · simp
  · split
    · simp
    · change State.collector (if _ then _ else _) = _
      (repeat' split) <;> simp

/-! ### Error correction (R149-R153, R403-R405) -/

@[simp] theorem State.retirePage_collector (s : State) (u pg : Nat) : (s.retirePage u pg).collector = s.collector := by
  unfold State.retirePage; dsimp only; split
  · rfl
  · split <;> rfl

@[simp] theorem State.countCorrection_collector (s : State) (u pg : Nat) : (s.countCorrection u pg).collector = s.collector := by
  simp [State.countCorrection]

@[simp] theorem State.refillRead_collector (s : State) (r : RefillPage) : (s.refillRead r).collector = s.collector := by
  unfold State.refillRead; split
  · dsimp only; split <;> rfl
  · rfl
  · rfl

@[simp] theorem State.poisonFound_collector (s : State) (u pg : Nat) (granule : Option Nat) : (s.poisonFound u pg granule).collector = s.collector := by
  unfold State.poisonFound; split
  · simp
  · dsimp only; split
    · rfl
    · split
      · exact State.refillRead_collector _ _
      · simp

@[simp] theorem State.eccTake_collector (s : State) (u pg : Nat) (granule : Option Nat) (good : BitVec 512) (e : EccEvent) :
    (s.eccTake u pg granule good e).2.2.collector = s.collector := by
  cases e <;> simp [State.eccTake]

@[simp] theorem State.eccFree_collector (s : State) : s.eccFree.2.collector = s.collector := rfl

@[simp] theorem State.readGranule_collector (s : State) (line g : Nat) (e : EccEvent) : (s.readGranule line g e).2.2.collector = s.collector := by
  simp [State.readGranule]

@[simp] theorem State.churnOne_collector (s : State) (o : ChurnOp) (e : EccEvent) : (s.churnOne o e).2.collector = s.collector := by
  unfold State.churnOne
  split
  · rfl
  · dsimp only
    split <;> simp

@[simp] theorem State.flushChurn_collector (s : State) (line : Nat) : (s.flushChurn line).collector = s.collector := by
  simp [State.flushChurn]

@[simp] theorem State.readLine_collector (s : State) (line : Nat) (e : EccPair) : (s.readLine line e).2.collector = s.collector := by
  simp [State.readLine]

@[simp] theorem State.readFree_collector (s : State) (line : Nat) : (s.readFree line).2.collector = s.collector := by
  simp [State.readFree]

@[simp] theorem State.writeBehind_collector (s : State) (line : Nat) (d : Line) (m : BitVec 128) (p : BitVec 2) : (s.writeBehind line d m p).collector = s.collector := by
  simp [State.writeBehind]

/-! ### Requests of engines (R185, R190, R196) -/

@[simp] theorem State.engRead_collector (s : State) (p : Fin 16) (line hint : Nat) (cls : ReqClass) : (s.engRead p line hint cls).2.collector = s.collector := by
  unfold State.engRead; split
  · dsimp only; split <;> simp
  · simp

@[simp] theorem State.engWrite_collector (s : State) (p : Fin 16) (line : Nat) (d : Line) (m : BitVec 128) (po : BitVec 2) (hint : Nat) (cls : ReqClass) :
    (s.engWrite p line d m po hint cls).collector = s.collector := by
  unfold State.engWrite; dsimp only; split
  · split <;> simp
  · split
    · simp
    · split <;> simp

/-! ### Translation (R157, R257, R375) -/

@[simp] theorem State.walk_collector (rd : LineRead) (h : ∀ s line, (rd s line).2.collector = s.collector) (s : State) (p : Fin 16) (va page level : Nat) :
    (State.walk rd s p va page level).2.collector = s.collector := by
  induction level generalizing s page with
  | zero => unfold State.walk; dsimp only; (repeat' split) <;> simp [h]
  | succ l ih => unfold State.walk; dsimp only; (repeat' split) <;> simp [h, ih]

@[simp] theorem State.translateWith_collector (rd : LineRead) (h : ∀ s line, (rd s line).2.collector = s.collector) (s : State) (p : Fin 16) (va : Nat) (write : Bool) :
    (s.translateWith rd p va write).2.collector = s.collector := by
  unfold State.translateWith
  dsimp only
  split
  · rfl
  split
  · rfl
  split
  · rfl
  split
  · rfl
  split
  · rfl
  · rename_i root _
    have walked := State.walk_collector rd h s p va root 4
    generalize State.walk rd s p va root 4 = found at walked
    obtain ⟨_ | _, _⟩ := found <;> exact walked

theorem walkRead_collector (p : Fin 16) (s : State) (line : Nat) : (walkRead p s line).2.collector = s.collector := by
  unfold walkRead; split <;> simp

@[simp] theorem State.translate_collector (s : State) (p : Fin 16) (va : Nat) (write : Bool) : (s.translate p va write).2.collector = s.collector :=
  State.translateWith_collector _ (walkRead_collector p) s p va write

/-! ### Host memory (R217, R315, R335, R336) -/

@[simp] theorem State.sendTag_collector (s : State) (r : HostTag) (x : HostSend) : (s.sendTag r x).collector = s.collector := by
  cases x <;> rfl

@[simp] theorem State.askTag_collector (s : State) (port : Fin 2) (fn : Fin 128) (a : Word) (n : Nat) (use : HostFor) (x : HostSend) :
    (s.askTag port fn a n use x).collector = s.collector := by
  simp [State.askTag]

@[simp] theorem State.hostAsk_collector (s : State) (c : Ctx) (iova n : Nat) : (s.hostAsk c iova n).collector = s.collector := rfl

@[simp] theorem State.setFn_collector (s : State) (p : Fin 2) (f : Fin 128) (x : FnState) : (s.setFn p f x).collector = s.collector := rfl

@[simp] theorem State.writeBackWord_collector (s : State) (x : Fin 2 × Word × BitVec 64) : (s.writeBackWord x).collector = s.collector := rfl

@[simp] theorem State.mergeBits_collector (s : State) (port : Fin 2) (a : Word) (b : BitVec 64) : (s.mergeBits port a b).collector = s.collector := by
  unfold State.mergeBits; split
  · rfl
  · split <;> simp [State.askAside]

@[simp] theorem State.logPage_collector (s : State) (port : Fin 2) (fn : Fin 128) (page : Nat) : (s.logPage port fn page).collector = s.collector := by
  simp [State.logPage]

@[simp] theorem State.hostWrite_collector (s : State) (c : Ctx) (iova : Nat) (b : List Byte) (release : Bool) : (s.hostWrite c iova b release).collector = s.collector := by
  simp [State.hostWrite]

/-! ### Byte strings and rings (R257, R286-R288) -/

@[simp] theorem State.readCut_collector (s : State) (c : Ctx) (buf : Tbl (Option BufByte)) (hint va n : Nat) (atlas : Nat → Byte) (cls : ReqClass) :
    (s.readCut c buf hint va n atlas cls).2.collector = s.collector := by
  unfold State.readCut; dsimp only; (repeat' split) <;> simp

@[simp] theorem State.readCuts_collector (s : State) (c : Ctx) (buf : Tbl (Option BufByte)) (hint : Nat) (atlas : Nat → Byte) (cls : ReqClass) (l : List (Nat × Nat)) :
    (s.readCuts c buf hint atlas cls l).2.collector = s.collector := by
  induction l generalizing s with
  | nil => rfl
  | cons a l ih =>
    have cut := s.readCut_collector c buf hint a.1 a.2 atlas cls
    unfold State.readCuts
    generalize s.readCut c buf hint a.1 a.2 atlas cls = got at cut
    obtain ⟨g, t⟩ := got
    cases g with
    | ok b =>
      have rest := ih t
      dsimp only
      generalize State.readCuts t c buf hint atlas cls l = more at rest
      obtain ⟨m, u⟩ := more
      cases m <;> exact rest.trans cut
    | _ => exact cut

@[simp] theorem State.vaRead_collector (s : State) (c : Ctx) (buf : Tbl (Option BufByte)) (hint va n : Nat) (atlas : Nat → Byte) (cls : ReqClass) :
    (s.vaRead c buf hint va n atlas cls).2.collector = s.collector := by
  simp [State.vaRead]

@[simp] theorem State.writeCut_collector (s : State) (c : Ctx) (hint va : Nat) (b : List Byte) (po : BitVec 2) (release : Bool) (cls : ReqClass) :
    (s.writeCut c hint va b po release cls).2.collector = s.collector := by
  unfold State.writeCut; dsimp only; (repeat' split) <;> simp

@[simp] theorem State.writeCuts_collector (s : State) (c : Ctx) (hint : Nat) (release : Bool) (cls : ReqClass) (l : List (Nat × Nat)) (b : List Byte) :
    (s.writeCuts c hint release cls l b).2.collector = s.collector := by
  induction l generalizing s b with
  | nil => rfl
  | cons a l ih =>
    have cut := s.writeCut_collector c hint a.1 (b.take a.2) 0 release cls
    unfold State.writeCuts
    generalize s.writeCut c hint a.1 (b.take a.2) 0 release cls = put at cut
    obtain ⟨g, t⟩ := put
    cases g with
    | ok => exact (ih t _).trans cut
    | _ => exact cut

@[simp] theorem State.vaWrite_collector (s : State) (c : Ctx) (hint va : Nat) (b : List Byte) (release : Bool) (cls : ReqClass) :
    (s.vaWrite c hint va b release cls).2.collector = s.collector := by
  simp [State.vaWrite]

@[simp] theorem State.ringPut_collector (s : State) (c : Ctx) (host : Bool) (a : Nat) (b : List Byte) (release : Bool) : (s.ringPut c host a b release).2.collector = s.collector := by
  unfold State.ringPut
  split
  · split <;> simp
  · have put := s.vaWrite_collector c 0 a b release .array
    generalize s.vaWrite c 0 a b release = x at put
    obtain ⟨g, t⟩ := x
    cases g <;> exact put

@[simp] theorem State.ringConsumer_collector (s : State) (c : Ctx) (r : RingReg) : (s.ringConsumer c r).2.collector = s.collector := by
  unfold State.ringConsumer
  dsimp only
  split
  · split <;> simp
  · have read := s.vaRead_collector c [] 0 ((r.block.toNat + 28) % 2 ^ 64) 4 (fun _ => 0) .array
    generalize s.vaRead c [] 0 ((r.block.toNat + 28) % 2 ^ 64) 4 (fun _ => 0) = x at read
    obtain ⟨g, t⟩ := x
    cases g <;> exact read

@[simp] theorem State.ringRecord_collector (s : State) (c : Ctx) (r : RingReg) (record : List Byte) (kind : Option Byte) (cons : Option (BitVec 32)) :
    (s.ringRecord c r record kind cons).2.2.collector = s.collector := by
  unfold State.ringRecord; cases cons <;> cases kind <;> simp

end Sys2Proof.Machine
end

section
/-! SUPPORT. The chip collector and its rings (04 R134; 14 R391, R396-R398): a record is numbered and raises the alert, and leaves the entries;
with this the statement about the collector. -/

namespace Sys2Proof.Machine

/-! ### Interrupts and events leave the collector (R277, R288, R397, R399) -/

@[simp] theorem State.setPartition_collector (s : State) (p : Fin 16) (x : Partition) : (s.setPartition p x).collector = s.collector := rfl

@[simp] theorem State.setPort_collector (s : State) (n : Fin 2) (x : PortState) : (s.setPort n x).collector = s.collector := by
  unfold State.setPort; split <;> rfl

@[simp] theorem State.sendMsix_collector (s : State) (port : Fin 2) (fn : Fin 128) (v : Nat) : (s.sendMsix port fn v).collector = s.collector := by
  simp [State.sendMsix]

@[simp] theorem State.coreInterrupt_collector (s : State) (p : Fin 16) (index n : Nat) : (s.coreInterrupt p index n).collector = s.collector := by
  unfold State.coreInterrupt; split <;> simp

@[simp] theorem State.postEvent_collector (s : State) (p : Fin 16) (event : Nat) (body : List Byte) : (s.postEvent p event body).collector = s.collector := by
  unfold State.postEvent; dsimp only; split
  · rfl
  · split <;> simp

@[simp] theorem State.errIrq_collector (s : State) (port : Fin 2) : (s.errIrq port).collector = s.collector := by
  unfold State.errIrq; dsimp only; (repeat' split) <;> simp

@[simp] theorem State.hostRing_collector (s : State) (port : Fin 2) (sev : Nat) (record : List Byte) (cons : Option (BitVec 32)) :
    (s.hostRing port sev record cons).collector = s.collector := by
  unfold State.hostRing; dsimp only; (repeat' split) <;> simp

@[simp] theorem State.notice_collector (s : State) (m : Merged) (final : Bool) (serial : BitVec 32) (p : Fin 16) : (s.notice m final serial p).collector = s.collector := by
  unfold State.notice; dsimp only; split <;> simp

@[simp] theorem State.noticeAll_collector (s : State) (m : Merged) (final : Bool) (serial : BitVec 32) : (s.noticeAll m final serial).collector = s.collector := by
  simp [State.noticeAll]

/-! ### A record (R391, R441) -/

/-- A record takes the next serial number, and is an unread alert when it is contained or more severe. -/
theorem State.makeRecord_collector (s : State) (m : Merged) (final : Bool) (cons : Option (BitVec 64)) :
    (s.makeRecord m final cons).collector
      = { s.collector with serial := s.err.serial + 1, alertUnread := s.err.alertUnread || decide (2 ≤ m.sev), alertPin := s.err.alertPin || decide (2 ≤ m.sev) } := by
  unfold State.makeRecord
  dsimp only
  generalize sent : (if m.injected = true then _ else _ : State) = u
  have kept : u.collector = s.collector := by
    rw [← sent]
    split <;> simp
  have unread : u.err.alertUnread = s.err.alertUnread := (congrArg ErrState.alertUnread kept :)
  have pin : u.err.alertPin = s.err.alertPin := (congrArg ErrState.alertPin kept :)
  rw [State.collector_mk, unread, pin, ← kept]
  rfl

section
variable (s : State) (m : Merged) (final : Bool) (cons : Option (BitVec 64))

@[simp] theorem State.makeRecord_serial : (s.makeRecord m final cons).err.serial = s.err.serial + 1 := (congrArg ErrState.serial (s.makeRecord_collector m final cons) :)
@[simp] theorem State.makeRecord_entries : (s.makeRecord m final cons).err.entries = s.err.entries := (congrArg ErrState.entries (s.makeRecord_collector m final cons) :)
@[simp] theorem State.makeRecord_inbox : (s.makeRecord m final cons).err.inbox = s.err.inbox := (congrArg ErrState.inbox (s.makeRecord_collector m final cons) :)
@[simp] theorem State.makeRecord_full : (s.makeRecord m final cons).err.full = s.err.full := (congrArg ErrState.full (s.makeRecord_collector m final cons) :)
@[simp] theorem State.makeRecord_alertUnread : (s.makeRecord m final cons).err.alertUnread = (s.err.alertUnread || decide (2 ≤ m.sev)) :=
  (congrArg ErrState.alertUnread (s.makeRecord_collector m final cons) :)

end

/-! ### The collector takes a report (R396) -/

theorem Merged.join_sev (a b : Merged) : (a.join b).sev = max a.sev b.sev := by
  unfold Merged.join
  dsimp only
  split <;> omega

/-- The entry of a suspect after one more report: its window opens again when the report is more severe than what was written. -/
def CollectorEntry.joined (e : CollectorEntry) (m : Merged) : CollectorEntry :=
  { e with m := e.m.join m, window := e.window || e.written.any (fun w => decide (w < m.sev)), newer := true }

theorem CollectorEntry.joined_window (e : CollectorEntry) (m : Merged) :
    (e.joined m).window = true ↔ e.window = true ∨ ∃ w, e.written = some w ∧ w < m.sev := by
  unfold CollectorEntry.joined
  simp [Option.any_eq_true]

section
variable {s : State} {m : Merged}

theorem State.collect_joins {e : CollectorEntry} (found : s.err.entries.find? (fun e => decide (e.m.unit = m.unit)) = some e) :
    s.collect m = { s with err := { s.err with entries := s.err.entries.map (fun x => if x.m.unit = m.unit then e.joined m else x) } } := by
  unfold State.collect
  rw [found]
  rfl

theorem State.collect_opens (absent : s.err.entries.find? (fun e => decide (e.m.unit = m.unit)) = none) (room : s.err.entries.length < 1024) :
    s.collect m = { s with err := { s.err with entries := s.err.entries ++ [⟨m, none, true, true⟩] } } := by
  unfold State.collect
  rw [absent]
  exact if_pos room

/-- A report refused: its record names one reporter, and it is counted. -/
theorem State.collect_refused (absent : s.err.entries.find? (fun e => decide (e.m.unit = m.unit)) = none) (taken : 1024 ≤ s.err.entries.length) :
    s.collect m = (let u := s.makeRecord { m with reporters := m.reporters.take 1 } false none
      { u with err := { u.err with full := u.err.full + 1 } }) := by
  unfold State.collect
  rw [absent]
  exact if_neg (by omega)

end

theorem State.collect_inbox (s : State) (m : Merged) : (s.collect m).err.inbox = s.err.inbox := by
  unfold State.collect
  split
  · rfl
  · split
    · rfl
    · exact State.makeRecord_inbox ..

theorem exec_collectorReport {s : State} {m : Merged} {rest : List Merged} (inbox : s.err.inbox = m :: rest) :
    exec .collectorReport s = .next (({ s with err := { s.err with inbox := rest } } : State).collect m) := by
  change execCollectorReport s = _
  unfold execCollectorReport
  rw [inbox]

/-- The report that a write of ERR_INJECT makes (R398). -/
def injectedReport (v stamp : Word) : Merged := Merged.of (mkReport (field v 0 16) (bits v 16 16) 0) (regionOf (bits v 16 16)).val stamp true

theorem injectedReport_ty (v stamp : Word) : (injectedReport v stamp).ty = bits v 0 16 := (BitVec.ofNat_toNat 16 _).trans (BitVec.setWidth_eq _)

theorem injectedReport_sev (v stamp : Word) : (injectedReport v stamp).sev = ((errType (field v 0 16)).getD (0, 0)).1 := by
  have ty : (injectedReport v stamp).ty.toNat = field v 0 16 := congrArg BitVec.toNat (injectedReport_ty v stamp)
  rw [← ty]
  rfl

theorem exec_errInject {s : State} {port : Fin 2} (serves : s.barServes port 0 = true) (v : Word) : exec (.errInject port v) s = .next (s.inject v) :=
  congrArg _ (if_pos serves)

theorem State.inject_idle {v : Word} (idle : v.getLsbD 32 = false ∨ errType (field v 0 16) = none) (s : State) : s.inject v = s :=
  if_pos (by simpa using idle)

theorem State.inject_go {v : Word} (go : v.getLsbD 32 = true) (known : (errType (field v 0 16)).isSome = true) (s : State) :
    s.inject v = (s.freeVal 64).2.collect (injectedReport v (s.freeVal 64).1) :=
  if_neg (by rw [go, Option.isNone_eq_false_iff.mpr known]; decide)

/-! ### Records of an entry at the end of its window and as it retires (R396) -/

section
variable {s : State} {unit : BitVec 16} (cons : BitVec 64)

theorem exec_collectorWindowEnd {e : CollectorEntry} (found : s.err.entries.find? (fun e => decide (e.m.unit = unit) && e.window) = some e) :
    exec (.collectorWindowEnd unit cons) s = .next (let u := s.makeRecord e.m false (some cons)
      { u with err := { u.err with entries := u.err.entries.map (fun x => if x.m.unit = unit then { x with written := some e.m.sev, window := false, newer := false } else x) } }) := by
  change execCollectorWindowEnd unit cons s = _
  unfold execCollectorWindowEnd
  rw [found]

/-- The entry of the reports refused writes its record, with the reports so far. -/
theorem exec_collectorWindowEnd_full (absent : s.err.entries.find? (fun e => decide (e.m.unit = unitId 2 22) && e.window) = none) (refused : 0 < s.err.full)
    (new : s.err.fullAt = none) :
    exec (.collectorWindowEnd (unitId 2 22) cons) s = .next (let u := (s.freeVal 64).2.makeRecord (fullMerged s.err.full (s.freeVal 64).1) false (some cons)
      { u with err := { u.err with fullAt := some (u.err.full, (s.freeVal 64).1) } }) := by
  change execCollectorWindowEnd _ cons s = _
  unfold execCollectorWindowEnd
  rw [absent]
  exact if_pos ⟨rfl, refused, new⟩

/-- The final record of an entry that holds reports newer than its last one. -/
def State.finalRecord (s : State) (newer : Bool) (m : Merged) (cons : BitVec 64) : State := if newer then s.makeRecord m true (some cons) else s

theorem State.finalRecord_entries (newer : Bool) (m : Merged) : (s.finalRecord newer m cons).err.entries = s.err.entries := by
  cases newer
  · rfl
  · exact State.makeRecord_entries s m true (some cons)

theorem State.finalRecord_serial (newer : Bool) (m : Merged) : (s.finalRecord newer m cons).err.serial = s.err.serial + (if newer then 1 else 0) := by
  cases newer
  · exact (BitVec.add_zero _).symm
  · exact State.makeRecord_serial s m true (some cons)

theorem exec_collectorEntryRetire {e : CollectorEntry} (found : s.err.entries.find? (fun e => decide (e.m.unit = unit) && e.written.isSome) = some e) :
    exec (.collectorEntryRetire unit cons) s = .next (let u := s.finalRecord e.newer e.m cons
      { u with err := { u.err with entries := u.err.entries.filter (fun x => decide (x.m.unit ≠ unit)) } }) := by
  change execCollectorEntryRetire unit cons s = _
  unfold execCollectorEntryRetire
  rw [found]
  rfl

theorem exec_collectorEntryRetire_full {n : Nat} {stamp : Word} (absent : s.err.entries.find? (fun e => decide (e.m.unit = unitId 2 22) && e.written.isSome) = none)
    (wrote : s.err.fullAt = some (n, stamp)) :
    exec (.collectorEntryRetire (unitId 2 22) cons) s = .next (let u := s.finalRecord (decide (n < s.err.full)) (fullMerged s.err.full stamp) cons
      { u with err := { u.err with full := 0, fullAt := none } }) := by
  change execCollectorEntryRetire _ cons s = _
  unfold execCollectorEntryRetire
  rw [absent]
  dsimp only
  rw [if_pos rfl]
  unfold State.retireFull State.finalRecord
  simp [wrote]

end

/-! ### Sentry records (R134) -/

section
variable {s : State} {p : Fin 16} {r : SentryRec} {rest : List (Fin 16 × SentryRec)}

theorem exec_sentryRecord_filled (next : s.err.sentry = (p, r) :: rest) (filled : (Tbl.get none s.err.sentryFull p.val).isSome = true) :
    exec .sentryRecord s = .next { s with err := { s.err with
      sentry := rest
      sentryDropped := Tbl.set 0 s.err.sentryDropped p.val (Tbl.get 0 s.err.sentryDropped p.val + 1) } } := by
  change execSentryRecord s = _
  unfold execSentryRecord
  rw [next]
  exact if_pos filled

theorem exec_sentryRecord_empty (next : s.err.sentry = (p, r) :: rest) (empty : Tbl.get none s.err.sentryFull p.val = none) :
    exec .sentryRecord s = .next (State.postFault { s with err := { s.err with
      sentry := rest
      sentryFull := Tbl.set none s.err.sentryFull p.val (if s.ticketStands r.ticket = true then some r.ticket else none)
      sentryDropped := Tbl.set 0 s.err.sentryDropped p.val 0 } } p 2 (r.bytes (Tbl.get 0 s.err.sentryDropped p.val))) := by
  change execSentryRecord s = _
  unfold execSentryRecord
  rw [next]
  exact if_neg (by simp [empty])

end

/-! ### The registers of the error ring (R397, R398) -/

theorem State.sendMsix_port (s : State) (port : Fin 2) (fn : Fin 128) (v : Nat) (p : Fin 2) : (s.sendMsix port fn v).port p = s.port p := by
  unfold State.sendMsix
  dsimp only
  (repeat' split) <;> rfl

/-- An interrupt outside a holdoff is sent at once: none is due later. -/
theorem State.errIrq_ringDue {s : State} {port : Fin 2} (free : (s.port port).ringHolding = false) (idle : (s.port port).ringDue = false) :
    ((s.errIrq port).port port).ringDue = false := by
  unfold State.errIrq
  simp only [free, Bool.false_eq_true, if_false]
  split
  · exact idle
  · split
    · exact (congrArg PortState.ringDue (State.sendMsix_port ..)).trans idle
    · rw [State.port_setPort]

/-- The error ring of a port with its holdoff over, and no interrupt due. -/
def State.ringReleased (s : State) (port : Fin 2) : State := s.setPort port { s.port port with ringHolding := false, ringDue := false }

theorem exec_errorRingHoldoffExpired {s : State} {port : Fin 2} (holding : (s.port port).ringHolding = true) :
    exec (.errorRingHoldoffExpired port) s = .next (if (s.port port).ringDue = true then (s.ringReleased port).errIrq port else s.ringReleased port) := by
  change execErrorRingHoldoffExpired port s = _
  unfold execErrorRingHoldoffExpired
  simp only [holding]
  rfl

/-! ### The statement -/

/-- Settles O47: each clause is the case of the collector's operation that its hypotheses name, and a record leaves what the collector holds but for
the serial number and the alert. -/
theorem collectorCommandsComplete : Obligations.CollectorCommandsComplete := by
  unfold Obligations.CollectorCommandsComplete
  refine ⟨fun s m rest inbox => ?report, fun s unit cons e found => ?window, fun s unit cons e found => ?retire, fun s port v serves => ?inject,
    fun s port v host serves => ?enable, fun s port holding => ?holdoff, fun s cons absent refused new => ?fullWindow,
    fun s cons n stamp absent wrote => ?fullRetire, fun s p r rest sentry => ?sentry⟩
  case report =>
    have run := exec_collectorReport inbox
    refine ⟨_, run, State.collect_inbox .., fun e found => ?joins, fun absent room => ?opens, fun absent taken => ?refused⟩
    case joins =>
      have suspect : e.m.unit = m.unit := by simpa using List.find?_some found
      have joins := State.collect_joins (s := { s with err := { s.err with inbox := rest } }) found
      rw [joins]
      exact ⟨List.length_map _, e.joined m, List.mem_map.mpr ⟨e, List.mem_of_find?_eq_some found, if_pos suspect⟩, suspect, rfl, rfl, Merged.join_sev .., rfl, e.joined_window m⟩
    case opens =>
      rw [State.collect_opens (s := { s with err := { s.err with inbox := rest } }) absent room]
      exact ⟨rfl, rfl⟩
    case refused =>
      rw [State.collect_refused (s := { s with err := { s.err with inbox := rest } }) absent taken]
      simp
  case window =>
    refine ⟨_, exec_collectorWindowEnd cons found, State.makeRecord_serial s e.m false (some cons), ?_, fun severe => ?_⟩
    · simp only [State.makeRecord_entries]
    · simp [severe]
  case retire =>
    refine ⟨_, exec_collectorEntryRetire cons found, State.finalRecord_serial cons e.newer e.m, ?_⟩
    simp only [State.finalRecord_entries]
  case inject =>
    rw [exec_errInject serves]
    refine ⟨fun idle => congrArg _ (State.inject_idle idle s), fun go known => ?_⟩
    exact ⟨_, _, congrArg _ (State.inject_go go known s), rfl, rfl, rfl, injectedReport_ty .., rfl, injectedReport_sev ..⟩
  case enable =>
    refine ⟨s.writeRing port v host, congrArg _ (if_pos serves), ?_⟩
    unfold State.writeRing
    simp only [State.port_setPort, State.setPort_err, State.setPort_mem, State.setPort_chan, true_and, and_true]
    exact fun q other => State.port_setPort_ne _ _ _ _ other
  case holdoff =>
    refine ⟨_, exec_errorRingHoldoffExpired holding, ?_, rfl⟩
    have ended : (s.ringReleased port).port port = { s.port port with ringHolding := false, ringDue := false } := State.port_setPort ..
    split
    · exact State.errIrq_ringDue (congrArg PortState.ringHolding ended) (congrArg PortState.ringDue ended)
    · exact congrArg PortState.ringDue ended
  case fullWindow =>
    refine ⟨_, exec_collectorWindowEnd_full cons absent refused new, ?_, ?_, ?_⟩ <;> simp
  case fullRetire =>
    refine ⟨_, exec_collectorEntryRetire_full cons absent wrote, rfl, rfl, State.finalRecord_entries .., ?_⟩
    simp [State.finalRecord_serial]
  case sentry =>
    refine ⟨fun filled => ⟨_, exec_sentryRecord_filled sentry filled, rfl, Tbl.get_set_same 0 s.err.sentryDropped p.val (Tbl.get 0 s.err.sentryDropped p.val + 1), rfl, rfl⟩, fun empty => ?_⟩
    exact ⟨_, exec_sentryRecord_empty sentry empty, rfl, Tbl.get_set_same 0 s.err.sentryDropped p.val 0, Tbl.get_set_same none s.err.sentryFull p.val _⟩

end Sys2Proof.Machine
end

section
/-! SUPPORT. The pool below the caches (05 R149, R150, R154): the bytes and the poison of a line as its channel reads them, and what a write leaves of
them; with these the statement about lines that read back. -/

namespace Sys2Proof.Machine

/-! ### The bytes of memory as a number -/

theorem memNat_div (t : Tbl Byte) (a n i : Nat) (hi : i < n) : memNat t a n / 256 ^ i % 256 = (Tbl.get 0 t (a + i)).toNat := by
  induction n generalizing a i with
  | zero => omega
  | succ n ih =>
    have low : (Tbl.get 0 t a).toNat < 256 := (Tbl.get 0 t a).isLt
    rw [memNat]
    cases i with
    | zero => rw [pow_zero, Nat.div_one, Nat.add_mul_mod_self_left, Nat.mod_eq_of_lt low, Nat.add_zero]
    | succ i =>
      rw [pow_succ', ← Nat.div_div_eq_div_mul, Nat.add_mul_div_left _ _ (by decide), Nat.div_eq_of_lt low, Nat.zero_add, ih (a + 1) i (by omega), Nat.add_right_comm, Nat.add_assoc]

theorem memNat_congr {t u : Tbl Byte} {a n : Nat} (same : ∀ i, i < n → Tbl.get 0 t (a + i) = Tbl.get 0 u (a + i)) : memNat t a n = memNat u a n := by
  induction n generalizing a with
  | zero => rfl
  | succ n ih =>
    rw [memNat, memNat, show Tbl.get 0 t a = Tbl.get 0 u a from same 0 (by omega), ih (fun i hi => ?_)]
    simpa only [Nat.add_assoc, Nat.add_comm 1 i] using same (i + 1) (by omega)

theorem lineByte_ofNat (v : Nat) {i : Nat} (hi : i < 128) : lineByte (BitVec.ofNat 1024 v) i = BitVec.ofNat 8 (v / 256 ^ i % 256) := by
  refine BitVec.eq_of_getLsbD_eq fun j hj => ?_
  have split : v / 256 ^ i % 256 = v / 2 ^ (8 * i) % 2 ^ 8 := by rw [pow_mul]; rfl
  simp only [lineByte, BitVec.getLsbD_extractLsb', BitVec.getLsbD_ofNat, split, Nat.testBit_mod_two_pow, Nat.testBit_div_two_pow]
  simp only [hj, decide_true, Bool.true_and, Nat.add_comm, show j + 8 * i < 1024 by omega]

/-- Two lines whose bytes agree are one. -/
theorem line_ext {d e : Line} (same : ∀ i, i < 128 → lineByte d i = lineByte e i) : d = e := by
  refine BitVec.eq_of_getLsbD_eq fun j hj => ?_
  have byte := congrArg (fun b : Byte => b.getLsbD (j % 8)) (same (j / 8) (by omega))
  simpa [lineByte, Nat.mod_lt, Nat.div_add_mod] using byte

/-! ### What a channel holds of a line -/

theorem State.memLine_down {s : State} {line : Nat} (down : s.unitUp (s.unitOf line) = false) : s.memLine line = (0, 3) := if_neg (by simp [down])

theorem State.memLine_up {s : State} {line : Nat} (up : s.unitUp (s.unitOf line) = true) : s.memLine line =
    (BitVec.ofNat 1024 (memNat s.mem.bytes (128 * line) 128),
     BitVec.ofBool (Tbl.get false s.mem.poison (2 * line + 1)) ++ BitVec.ofBool (Tbl.get false s.mem.poison (2 * line))) := if_pos up

theorem State.lineByte_memLine {s : State} {line i : Nat} (up : s.unitUp (s.unitOf line) = true) (hi : i < 128) :
    lineByte (s.memLine line).1 i = Tbl.get 0 s.mem.bytes (128 * line + i) := by
  rw [State.memLine_up up, lineByte_ofNat _ hi, memNat_div _ _ _ _ hi, BitVec.ofNat_toNat, BitVec.setWidth_eq]

theorem State.poison_memLine {s : State} {line g : Nat} (up : s.unitUp (s.unitOf line) = true) (hg : g < 2) :
    (s.memLine line).2.getLsbD g = Tbl.get false s.mem.poison (2 * line + g) := by
  rw [State.memLine_up up]
  obtain rfl | rfl : g = 0 ∨ g = 1 := by omega
  · cases Tbl.get false s.mem.poison (2 * line + 1) <;> cases Tbl.get false s.mem.poison (2 * line) <;> simp
  · cases Tbl.get false s.mem.poison (2 * line + 1) <;> cases Tbl.get false s.mem.poison (2 * line) <;> simp

/-- A line reads alike in two states of which its channel is in service in both or in neither, and its bytes and poison are the same. -/
theorem State.memLine_congr {s t : State} {line : Nat} (place : t.unitOf line = s.unitOf line) (units : t.mem.unitsUp = s.mem.unitsUp)
    (bytes : ∀ i, i < 128 → Tbl.get 0 t.mem.bytes (128 * line + i) = Tbl.get 0 s.mem.bytes (128 * line + i))
    (poison : ∀ g, g < 2 → Tbl.get false t.mem.poison (2 * line + g) = Tbl.get false s.mem.poison (2 * line + g)) : t.memLine line = s.memLine line := by
  unfold State.memLine State.unitUp
  rw [place, units, memNat_congr bytes, poison 1 (by omega), show Tbl.get false t.mem.poison (2 * line) = _ from poison 0 (by omega)]
  rfl

/-! ### A write at a channel -/

theorem State.writeMem_down {s : State} {line : Nat} (down : s.unitUp (s.unitOf line) = false) (d : Line) (m : BitVec 128) (p : BitVec 2) :
    s.writeMem line d m p = s := if_neg (by simp [down])

/-- The poison of a granule of the line after a write of some bytes (R150). -/
def State.poisonWritten (s : State) (line : Nat) (m : BitVec 128) (p : BitVec 2) (g : Nat) : Bool :=
  p.getLsbD g || (Tbl.get false s.mem.poison (2 * line + g) && !covers m g)

theorem State.writeMem_up {s : State} {line : Nat} (up : s.unitUp (s.unitOf line) = true) (d : Line) (m : BitVec 128) (p : BitVec 2) :
    s.writeMem line d m p = { s with mem := { s.mem with
      bytes := memPut d m (128 * line) 0 128 s.mem.bytes
      poison := Tbl.set false (Tbl.set false s.mem.poison (2 * line) (s.poisonWritten line m p 0)) (2 * line + 1) (s.poisonWritten line m p 1) } } := if_pos up

@[simp] theorem State.writeMem_unitOf (s : State) (line : Nat) (d : Line) (m : BitVec 128) (p : BitVec 2) (k : Nat) : (s.writeMem line d m p).unitOf k = s.unitOf k := by
  unfold State.writeMem; split <;> rfl

@[simp] theorem State.writeMem_unitsUp (s : State) (line : Nat) (d : Line) (m : BitVec 128) (p : BitVec 2) : (s.writeMem line d m p).mem.unitsUp = s.mem.unitsUp := by
  unfold State.writeMem; split <;> rfl

@[simp] theorem State.writeMem_unitUp (s : State) (line : Nat) (d : Line) (m : BitVec 128) (p : BitVec 2) (u : Nat) : (s.writeMem line d m p).unitUp u = s.unitUp u :=
  congrArg (fun x : BitVec 384 => x.getLsbD u) (s.writeMem_unitsUp line d m p)

theorem State.writeMem_byte {s : State} {line : Nat} (up : s.unitUp (s.unitOf line) = true) (d : Line) (m : BitVec 128) (p : BitVec 2) {i : Nat} (hi : i < 128) :
    Tbl.get 0 (s.writeMem line d m p).mem.bytes (128 * line + i) = if m.getLsbD i then lineByte d i else Tbl.get 0 s.mem.bytes (128 * line + i) := by
  rw [State.writeMem_up up]
  exact (memPut_get ..).trans (by simp only [Nat.add_sub_cancel_left, Nat.add_zero, Nat.le_add_right, Nat.add_lt_add_iff_left, hi, true_and])

theorem State.writeMem_poison {s : State} {line : Nat} (up : s.unitUp (s.unitOf line) = true) (d : Line) (m : BitVec 128) (p : BitVec 2) {g : Nat} (hg : g < 2) :
    Tbl.get false (s.writeMem line d m p).mem.poison (2 * line + g) = s.poisonWritten line m p g := by
  rw [State.writeMem_up up]
  obtain rfl | rfl : g = 0 ∨ g = 1 := by omega
  · exact (Tbl.get_set_ne _ _ _ _ _ (by omega)).trans (Tbl.get_set_same _ _ _ _)
  · exact Tbl.get_set_same _ _ _ _

/-- A write leaves the bytes and the poison of every other line. -/
theorem State.writeMem_other {s : State} {line k : Nat} (other : k ≠ line) (d : Line) (m : BitVec 128) (p : BitVec 2) :
    (s.writeMem line d m p).memLine k = s.memLine k := by
  cases up : s.unitUp (s.unitOf line) with
  | false => rw [State.writeMem_down up]
  | true =>
    refine State.memLine_congr (s.writeMem_unitOf ..) (s.writeMem_unitsUp ..) (fun i hi => ?_) (fun g hg => ?_)
    · rw [State.writeMem_up up]
      exact (memPut_get ..).trans (if_neg (by omega))
    · rw [State.writeMem_up up]
      exact (Tbl.get_set_ne _ _ _ _ _ (by omega)).trans (Tbl.get_set_ne _ _ _ _ _ (by omega))

/-- Settles O54: each byte and each granule of the line is read off the two tables after the write. -/
theorem memoryLinesReadBack : Obligations.MemoryLinesReadBack := by
  unfold Obligations.MemoryLinesReadBack
  refine fun s line d m p => ⟨fun up => ?_, fun k other => State.writeMem_other other d m p, fun down => ?_⟩
  · have up' : (s.writeMem line d m p).unitUp ((s.writeMem line d m p).unitOf line) = true := by simpa using up
    refine ⟨fun i hi => ?_, fun g hg => ?_⟩
    · rw [State.lineByte_memLine up' hi, State.lineByte_memLine up hi, State.writeMem_byte up d m p hi]
    · rw [State.poison_memLine up' hg, State.poison_memLine up hg, State.writeMem_poison up d m p hg]
      rfl
  · rw [State.memLine_down down]
    exact ⟨State.writeMem_down down d m p, rfl⟩

end Sys2Proof.Machine
end

section
/-! SUPPORT. Requests of the pool, translations, writes to host memory, records of rings, events and updates of the Atlas leave the holdings of
partitions (01 R33, 05 R144-R148, 10 R280-R288): the plots and their bands, the keys, the ways, the channel entries, the actions in progress and the
registers of the ports; and the transactions of lines. -/

namespace Sys2Proof.Machine

/-- What partitions hold and what their actions wait for. -/
structure Tenure where
  plots : Tbl PlotHold
  bandMode : BitVec 47
  keys : Tbl (Option Nat)
  roots : Tbl (Option Nat)
  ways : Tbl PartWays
  txns : Tbl (Option Txn)
  entries : Tbl (BitVec 512)
  lent : Tbl Bool
  acts : List PendAction
  port0 : PortState
  port1 : PortState

def State.tenure (s : State) : Tenure :=
  ⟨s.mem.plots, s.mem.bandMode, s.mem.keys, s.mem.roots, s.mem.ways, s.mem.txns, s.chan.entries, s.chan.lent, s.chan.acts, s.host.port0, s.host.port1⟩

/-! ### How a function of the state passes through folds and branches -/

@[simp] theorem foldl_tenure {α : Type} (F : State → α → State) (h : ∀ s a, (F s a).tenure = s.tenure) (l : List α) (s : State) :
    (l.foldl F s).tenure = s.tenure := foldl_keeps _ F h l s

@[simp] theorem foldl_tenure_fst {α β : Type} (F : State × β → α → State × β) (h : ∀ x a, (F x a).1.tenure = x.1.tenure) (l : List α) (x : State × β) :
    (l.foldl F x).1.tenure = x.1.tenure := foldl_keeps (fun x => x.1.tenure) F h l x

@[simp] theorem tenure_ite (c : Prop) [Decidable c] (a b : State) : (if c then a else b).tenure = if c then a.tenure else b.tenure := apply_ite _ _ _ _

/-- A state written out: its tenure is read off. -/
@[simp] theorem State.tenure_mk (a b c d e f g h i j k l m) : (State.mk a b c d e f g h i j k l m).tenure =
    ⟨b.plots, b.bandMode, b.keys, b.roots, b.ways, b.txns, c.entries, c.lent, c.acts, d.port0, d.port1⟩ := rfl

@[simp] theorem State.tenure_fold (s : State) :
    (⟨s.mem.plots, s.mem.bandMode, s.mem.keys, s.mem.roots, s.mem.ways, s.mem.txns, s.chan.entries, s.chan.lent, s.chan.acts, s.host.port0, s.host.port1⟩ : Tenure) = s.tenure := rfl

/-! ### Channels (R154-R161) -/

@[simp] theorem State.report_tenure (s : State) (r : Report) : (s.report r).tenure = s.tenure := rfl
@[simp] theorem State.emit_tenure (s : State) (o : Out) : (s.emit o).tenure = s.tenure := rfl
@[simp] theorem State.freeVal_tenure (s : State) (w : Nat) : (s.freeVal w).2.tenure = s.tenure := rfl
@[simp] theorem State.charge_tenure (s : State) (p : Fin 16) (c : Option CmdRef) (e : EnergyEvent) (n : Nat) : (s.charge p c e n).tenure = s.tenure := rfl
@[simp] theorem State.setPoison_tenure (s : State) (g : Nat) (b : Bool) : (s.setPoison g b).tenure = s.tenure := rfl

@[simp] theorem State.writeMem_tenure (s : State) (line : Nat) (d : Line) (m : BitVec 128) (p : BitVec 2) : (s.writeMem line d m p).tenure = s.tenure := by
  unfold State.writeMem; split <;> rfl

@[simp] theorem State.enterReq_tenure (s : State) (r : MemReq) : (s.enterReq r).tenure = s.tenure := by
  unfold State.enterReq; dsimp only; (repeat' split) <;> rfl

@[simp] theorem State.chanAsk_tenure (s : State) (line : Nat) (p : Fin 16) (cls : ReqClass) (bytes : Nat) (target : FillFor) :
    (s.chanAsk line p cls bytes target).tenure = s.tenure := by
  simp [State.chanAsk]

/-! ### The home and the dies (R177-R194) -/

@[simp] theorem State.llcPut_tenure (s : State) (l : LlcLine) : (s.llcPut l).tenure = s.tenure := rfl
@[simp] theorem State.llcDrop_tenure (s : State) (l : LlcLine) : (s.llcDrop l).tenure = s.tenure := rfl
@[simp] theorem State.countDemoted_tenure (s : State) (p : Fin 16) : (s.countDemoted p).tenure = s.tenure := rfl
@[simp] theorem State.wakeLine_tenure (s : State) (line : Nat) : (s.wakeLine line).tenure = s.tenure := rfl

@[simp] theorem State.shadowNote_tenure (s : State) (p : Fin 16) (slice set tag hint : Nat) (hit : Bool) : (s.shadowNote p slice set tag hint hit).tenure = s.tenure := by
  unfold State.shadowNote; split <;> rfl

@[simp] theorem State.llcHit_tenure (s : State) (p : Fin 16) (l : LlcLine) (hint : Nat) : (s.llcHit p l hint).tenure = s.tenure := by
  unfold State.llcHit; split
  · exact s.shadowNote_tenure p l.slice l.set l.line hint true
  · change State.tenure (if _ then _ else _) = _
    split <;> simp

@[simp] theorem State.dieAnswer_tenure (s : State) (d : Fin 2) (line : Nat) (q : Snoop) (w : Option Line) : (s.dieAnswer d line q w).2.tenure = s.tenure := by
  unfold State.dieAnswer; dsimp only; (repeat' split) <;> rfl

@[simp] theorem State.takeRsp_tenure (s : State) (d : Fin 2) (line : Nat) (r : Rsp) : (s.takeRsp d line r).tenure = s.tenure := by
  unfold State.takeRsp; split
  · rfl
  · cases r <;> rfl

@[simp] theorem State.snoopNow_tenure (s : State) (d : Fin 2) (line : Nat) (q : Snoop) : (s.snoopNow d line q).tenure = s.tenure := by
  simp [State.snoopNow]

@[simp] theorem State.snoopAll_tenure (s : State) (line : Nat) (q : Snoop) : (s.snoopAll line q).tenure = s.tenure := by
  simp [State.snoopAll]

@[simp] theorem State.evictLine_tenure (s : State) (l : LlcLine) : (s.evictLine l).tenure = s.tenure := by
  unfold State.evictLine; split
  · rfl
  · dsimp only; split <;> simp

@[simp] theorem State.llcAlloc_tenure (s : State) (p : Fin 16) (line hint : Nat) (remote dieReq : Bool) (hd : HomeData) (d : Line) (po : BitVec 2) :
    (s.llcAlloc p line hint remote dieReq hd d po).2.tenure = s.tenure := by
  unfold State.llcAlloc; dsimp only; split
  · simp
  · split
    · simp
    · change State.tenure (if _ then _ else _) = _
      (repeat' split) <;> simp

/-! ### Error correction (R149-R153, R403-R405) -/

@[simp] theorem State.retirePage_tenure (s : State) (u pg : Nat) : (s.retirePage u pg).tenure = s.tenure := by
  unfold State.retirePage; dsimp only; split
  · rfl
  · split <;> rfl

@[simp] theorem State.countCorrection_tenure (s : State) (u pg : Nat) : (s.countCorrection u pg).tenure = s.tenure := by
  simp [State.countCorrection]

@[simp] theorem State.refillRead_tenure (s : State) (r : RefillPage) : (s.refillRead r).tenure = s.tenure := by
  unfold State.refillRead; split
  · dsimp only; split <;> rfl
  · rfl
  · rfl

@[simp] theorem State.poisonFound_tenure (s : State) (u pg : Nat) (granule : Option Nat) : (s.poisonFound u pg granule).tenure = s.tenure := by
  unfold State.poisonFound; split
  · simp
  · dsimp only; split
    · rfl
    · split
      · exact State.refillRead_tenure _ _
      · simp

@[simp] theorem State.eccTake_tenure (s : State) (u pg : Nat) (granule : Option Nat) (good : BitVec 512) (e : EccEvent) :
    (s.eccTake u pg granule good e).2.2.tenure = s.tenure := by
  cases e <;> simp [State.eccTake]

@[simp] theorem State.eccFree_tenure (s : State) : s.eccFree.2.tenure = s.tenure := rfl

@[simp] theorem State.readGranule_tenure (s : State) (line g : Nat) (e : EccEvent) : (s.readGranule line g e).2.2.tenure = s.tenure := by
  simp [State.readGranule]

@[simp] theorem State.churnOne_tenure (s : State) (o : ChurnOp) (e : EccEvent) : (s.churnOne o e).2.tenure = s.tenure := by
  unfold State.churnOne
  split
  · rfl
  · dsimp only
    split <;> simp

@[simp] theorem State.flushChurn_tenure (s : State) (line : Nat) : (s.flushChurn line).tenure = s.tenure := by
  unfold State.flushChurn
  refine (foldl_tenure_fst _ (fun x o => ?_) _ _ : State.tenure (Prod.fst _) = _)
  dsimp only; split <;> simp

@[simp] theorem State.readLine_tenure (s : State) (line : Nat) (e : EccPair) : (s.readLine line e).2.tenure = s.tenure := by
  simp [State.readLine]

@[simp] theorem State.readFree_tenure (s : State) (line : Nat) : (s.readFree line).2.tenure = s.tenure := by
  simp [State.readFree]

@[simp] theorem State.writeBehind_tenure (s : State) (line : Nat) (d : Line) (m : BitVec 128) (p : BitVec 2) : (s.writeBehind line d m p).tenure = s.tenure := by
  simp [State.writeBehind]

/-! ### Requests of engines (R185, R190, R196) -/

@[simp] theorem State.engRead_tenure (s : State) (p : Fin 16) (line hint : Nat) (cls : ReqClass) : (s.engRead p line hint cls).2.tenure = s.tenure := by
  unfold State.engRead; split
  · dsimp only; split <;> simp
  · simp

@[simp] theorem State.engWrite_tenure (s : State) (p : Fin 16) (line : Nat) (d : Line) (m : BitVec 128) (po : BitVec 2) (hint : Nat) (cls : ReqClass) :
    (s.engWrite p line d m po hint cls).tenure = s.tenure := by
  unfold State.engWrite; dsimp only; split
  · split <;> simp
  · split
    · simp
    · split <;> simp

/-! ### Translation (R157, R257, R375) -/

@[simp] theorem State.walk_tenure (rd : LineRead) (h : ∀ s line, (rd s line).2.tenure = s.tenure) (s : State) (p : Fin 16) (va page level : Nat) :
    (State.walk rd s p va page level).2.tenure = s.tenure := by
  induction level generalizing s page with
  | zero => unfold State.walk; dsimp only; (repeat' split) <;> simp [h]
  | succ l ih => unfold State.walk; dsimp only; (repeat' split) <;> simp [h, ih]

@[simp] theorem State.translateWith_tenure (rd : LineRead) (h : ∀ s line, (rd s line).2.tenure = s.tenure) (s : State) (p : Fin 16) (va : Nat) (write : Bool) :
    (s.translateWith rd p va write).2.tenure = s.tenure := by
  unfold State.translateWith
  dsimp only
  split
  · rfl
  split
  · rfl
  split
  · rfl
  split
  · rfl
  split
  · rfl
  · rename_i root _
    have walked := State.walk_tenure rd h s p va root 4
    generalize State.walk rd s p va root 4 = found at walked
    obtain ⟨_ | _, _⟩ := found <;> exact walked

theorem walkRead_tenure (p : Fin 16) (s : State) (line : Nat) : (walkRead p s line).2.tenure = s.tenure := by
  unfold walkRead; split <;> simp

@[simp] theorem State.translate_tenure (s : State) (p : Fin 16) (va : Nat) (write : Bool) : (s.translate p va write).2.tenure = s.tenure :=
  State.translateWith_tenure _ (walkRead_tenure p) s p va write

/-! ### Host memory (R217, R315, R335, R336) -/

@[simp] theorem State.sendTag_tenure (s : State) (r : HostTag) (x : HostSend) : (s.sendTag r x).tenure = s.tenure := by
  cases x <;> rfl

@[simp] theorem State.askTag_tenure (s : State) (port : Fin 2) (fn : Fin 128) (a : Word) (n : Nat) (use : HostFor) (x : HostSend) :
    (s.askTag port fn a n use x).tenure = s.tenure := by
  simp [State.askTag]

@[simp] theorem State.hostAsk_tenure (s : State) (c : Ctx) (iova n : Nat) : (s.hostAsk c iova n).tenure = s.tenure := rfl

@[simp] theorem State.setFn_tenure (s : State) (p : Fin 2) (f : Fin 128) (x : FnState) : (s.setFn p f x).tenure = s.tenure := rfl

@[simp] theorem State.writeBackWord_tenure (s : State) (x : Fin 2 × Word × BitVec 64) : (s.writeBackWord x).tenure = s.tenure := rfl

@[simp] theorem State.mergeBits_tenure (s : State) (port : Fin 2) (a : Word) (b : BitVec 64) : (s.mergeBits port a b).tenure = s.tenure := by
  unfold State.mergeBits; split
  · rfl
  · split <;> simp [State.askAside]

@[simp] theorem State.logPage_tenure (s : State) (port : Fin 2) (fn : Fin 128) (page : Nat) : (s.logPage port fn page).tenure = s.tenure := by
  simp [State.logPage]

@[simp] theorem State.hostWrite_tenure (s : State) (c : Ctx) (iova : Nat) (b : List Byte) (release : Bool) : (s.hostWrite c iova b release).tenure = s.tenure := by
  simp [State.hostWrite]

/-! ### Byte strings and rings (R257, R286-R288) -/

@[simp] theorem State.readCut_tenure (s : State) (c : Ctx) (buf : Tbl (Option BufByte)) (hint va n : Nat) (atlas : Nat → Byte) (cls : ReqClass) :
    (s.readCut c buf hint va n atlas cls).2.tenure = s.tenure := by
  unfold State.readCut; dsimp only; (repeat' split) <;> simp

@[simp] theorem State.readCuts_tenure (s : State) (c : Ctx) (buf : Tbl (Option BufByte)) (hint : Nat) (atlas : Nat → Byte) (cls : ReqClass) (l : List (Nat × Nat)) :
    (s.readCuts c buf hint atlas cls l).2.tenure = s.tenure := by
  induction l generalizing s with
  | nil => rfl
  | cons a l ih =>
    have cut := s.readCut_tenure c buf hint a.1 a.2 atlas cls
    unfold State.readCuts
    generalize s.readCut c buf hint a.1 a.2 atlas cls = got at cut
    obtain ⟨g, t⟩ := got
    cases g with
    | ok b =>
      have rest := ih t
      dsimp only
      generalize State.readCuts t c buf hint atlas cls l = more at rest
      obtain ⟨m, u⟩ := more
      cases m <;> exact rest.trans cut
    | _ => exact cut

@[simp] theorem State.vaRead_tenure (s : State) (c : Ctx) (buf : Tbl (Option BufByte)) (hint va n : Nat) (atlas : Nat → Byte) (cls : ReqClass) :
    (s.vaRead c buf hint va n atlas cls).2.tenure = s.tenure := by
  simp [State.vaRead]

@[simp] theorem State.writeCut_tenure (s : State) (c : Ctx) (hint va : Nat) (b : List Byte) (po : BitVec 2) (release : Bool) (cls : ReqClass) :
    (s.writeCut c hint va b po release cls).2.tenure = s.tenure := by
  unfold State.writeCut; dsimp only; (repeat' split) <;> simp

@[simp] theorem State.writeCuts_tenure (s : State) (c : Ctx) (hint : Nat) (release : Bool) (cls : ReqClass) (l : List (Nat × Nat)) (b : List Byte) :
    (s.writeCuts c hint release cls l b).2.tenure = s.tenure := by
  induction l generalizing s b with
  | nil => rfl
  | cons a l ih =>
    have cut := s.writeCut_tenure c hint a.1 (b.take a.2) 0 release cls
    unfold State.writeCuts
    generalize s.writeCut c hint a.1 (b.take a.2) 0 release cls = put at cut
    obtain ⟨g, t⟩ := put
    cases g with
    | ok => exact (ih t _).trans cut
    | _ => exact cut

@[simp] theorem State.vaWrite_tenure (s : State) (c : Ctx) (hint va : Nat) (b : List Byte) (release : Bool) (cls : ReqClass) :
    (s.vaWrite c hint va b release cls).2.tenure = s.tenure := by
  simp [State.vaWrite]

@[simp] theorem State.ringPut_tenure (s : State) (c : Ctx) (host : Bool) (a : Nat) (b : List Byte) (release : Bool) : (s.ringPut c host a b release).2.tenure = s.tenure := by
  unfold State.ringPut
  split
  · split <;> simp
  · have put := s.vaWrite_tenure c 0 a b release .array
    generalize s.vaWrite c 0 a b release = x at put
    obtain ⟨g, t⟩ := x
    cases g <;> exact put

@[simp] theorem State.ringConsumer_tenure (s : State) (c : Ctx) (r : RingReg) : (s.ringConsumer c r).2.tenure = s.tenure := by
  unfold State.ringConsumer
  dsimp only
  split
  · split <;> simp
  · have read := s.vaRead_tenure c [] 0 ((r.block.toNat + 28) % 2 ^ 64) 4 (fun _ => 0) .array
    generalize s.vaRead c [] 0 ((r.block.toNat + 28) % 2 ^ 64) 4 (fun _ => 0) = x at read
    obtain ⟨g, t⟩ := x
    cases g <;> exact read

@[simp] theorem State.ringRecord_tenure (s : State) (c : Ctx) (r : RingReg) (record : List Byte) (kind : Option Byte) (cons : Option (BitVec 32)) :
    (s.ringRecord c r record kind cons).2.2.tenure = s.tenure := by
  unfold State.ringRecord; cases cons <;> cases kind <;> simp


@[simp] theorem State.setPartition_tenure (s : State) (p : Fin 16) (x : Partition) : (s.setPartition p x).tenure = s.tenure := rfl

@[simp] theorem State.postEvent_tenure (s : State) (p : Fin 16) (event : Nat) (body : List Byte) : (s.postEvent p event body).tenure = s.tenure := by
  unfold State.postEvent; dsimp only; split
  · rfl
  · split <;> simp

@[simp] theorem State.postAll_tenure (s : State) (parts : BitVec 16) (event : Nat) (body : List Byte) : (s.postAll parts event body).tenure = s.tenure := by
  simp [State.postAll]

/-! ### Updates of the Atlas (R26, R33) -/

@[simp] theorem State.mirrorWrite_tenure (s : State) : s.mirrorWrite.tenure = s.tenure := by
  simp [State.mirrorWrite]

@[simp] theorem State.atlasBegin_tenure (s : State) : s.atlasBegin.tenure = s.tenure := by
  unfold State.atlasBegin; split <;> rfl

@[simp] theorem State.atlasNote_tenure (s : State) (kind : Nat) (parts : BitVec 16) : (s.atlasNote kind parts).tenure = s.tenure := rfl

@[simp] theorem State.atlasEnd_tenure (s : State) : s.atlasEnd.tenure = s.tenure := by
  unfold State.atlasEnd; split
  · rfl
  · simp

@[simp] theorem State.atlasUpdate_tenure (s : State) (kind : Nat) (parts : BitVec 16) : (s.atlasUpdate kind parts).tenure = s.tenure := by
  simp [State.atlasUpdate]

/-! ### What the holdings give -/

theorem State.plot_of_tenure {s t : State} (h : t.tenure = s.tenure) (q : Nat) : t.plot q = s.plot q := congrArg (fun x : Tenure => Tbl.get PlotHold.free x.plots q) h

theorem State.acts_of_tenure {s t : State} (h : t.tenure = s.tenure) : t.chan.acts = s.chan.acts := congrArg Tenure.acts h

end Sys2Proof.Machine
end

section
/-! SUPPORT. Partition actions of host software (10 R280-R285, R452, R453): an action that passes the checks ends at once or is in progress, and its port's
registers say which; with these the statements about settings and about grants. -/

namespace Sys2Proof.Machine

/-! ### The registers of a port -/

@[simp] theorem State.port_setRegs (s : State) (n : Fin 2) (r : ActionRegs) : (s.setRegs n r).port n = { s.port n with regs := r } := State.port_setPort ..
@[simp] theorem State.setRegs_arr (s : State) (n : Fin 2) (r : ActionRegs) : (s.setRegs n r).arr = s.arr := State.setPort_arr ..
@[simp] theorem State.setRegs_mem (s : State) (n : Fin 2) (r : ActionRegs) : (s.setRegs n r).mem = s.mem := State.setPort_mem ..
@[simp] theorem State.setRegs_chan (s : State) (n : Fin 2) (r : ActionRegs) : (s.setRegs n r).chan = s.chan := State.setPort_chan ..
@[simp] theorem State.setRegs_atlas (s : State) (n : Fin 2) (r : ActionRegs) : (s.setRegs n r).atlas = s.atlas := State.setPort_atlas ..

section
variable (t : State) (n : Fin 2) (code r : Nat)

theorem State.answers_partOut : (t.partOut (.host n) code r).Answers n r := by
  simp [State.partOut, State.Answers]

@[simp] theorem State.partOut_mem : (t.partOut (.host n) code r).mem = t.mem := State.setRegs_mem ..
@[simp] theorem State.partOut_chan : (t.partOut (.host n) code r).chan = t.chan := State.setRegs_chan ..
@[simp] theorem State.partOut_atlas : (t.partOut (.host n) code r).atlas = t.atlas := State.setRegs_atlas ..

theorem State.partition_partOut (p : Fin 16) : (t.partOut (.host n) code r).partition p = t.partition p :=
  congrArg (fun x : ChanState => Tbl.get Partition.absent x.parts p.val) (t.partOut_chan n code r)

end

/-! ### Actions in their turn (R452) -/

theorem State.finishFuel_idle {s : State} (idle : s.chan.acts = []) (k : Nat) : s.finishFuel k = s := by
  cases k with
  | zero => rfl
  | succ k => rw [State.finishFuel, idle]

theorem State.finishActions_idle {s : State} (idle : s.chan.acts = []) : s.finishActions = s := State.finishFuel_idle idle _

/-- A partition action of host software that is now in progress: BUSY is 1, and the action is at the head (R282). -/
def State.pends (t : State) (n : Fin 2) (p : Fin 16) (k : PendKind) : State :=
  let u := t.setRegs n { (t.port n).regs with partBusy := true }
  { u with chan := { u.chan with acts := ⟨some n, p, k, false⟩ :: u.chan.acts } }

theorem State.pends_chan (t : State) (n : Fin 2) (p : Fin 16) (k : PendKind) :
    (t.pends n p k).chan = { t.chan with acts := ⟨some n, p, k, false⟩ :: t.chan.acts } := by
  simp only [State.pends, State.setRegs_chan]

theorem State.pends_busy (t : State) (n : Fin 2) (p : Fin 16) (k : PendKind) : ((t.pends n p k).port n).regs.partBusy = true :=
  congrArg (fun x : PortState => x.regs.partBusy) (t.port_setRegs n _)

theorem State.partition_pends (t : State) (n : Fin 2) (p : Fin 16) (k : PendKind) (q : Fin 16) : (t.pends n p k).partition q = t.partition q := by
  rw [State.partition, State.pends_chan]
  rfl

theorem State.array_pends (t : State) (n : Fin 2) (p : Fin 16) (k : PendKind) (la : Nat) : (t.pends n p k).array la = t.array la :=
  congrArg (fun x => Tbl.get ArrayState.idle x la) (t.setRegs_arr n _)

/-- An action that host software writes to a port that serves, with none in progress, is performed on the port's arguments (R280, R452). -/
theorem State.act_host {s : State} {n : Fin 2} {p : Fin 16} (up : s.up = true) (serves : s.barServes n 0 = true) (free : (s.port n).regs.partBusy = false)
    (idle : s.chan.acts = []) (addressed : s.actPart (.host n) = p) (code : Nat) (b : Option RingBlock × Option RingBlock) :
    s.act false code (.host n) b = (s.performOn false code (.host n) b 0 (s.port n).regs.partArg p false).finishActions := by
  have live : ¬ (!(s.up && s.barServes n 0)) = true := by simp [up, serves]
  have unbusy : ¬ s.isBusy false (.host n) = true := by simp [State.isBusy, free]
  unfold State.act State.perform
  dsimp only
  rw [if_neg live, if_neg unbusy, if_pos idle, addressed]
  rfl

/-- The state of a partition that an action of a code asks for (R281). -/
def stateFor (code : Nat) : PartMode := if code = 1 then .absent else .live

section
variable {s : State} {n : Fin 2} {code : Nat} {p : Fin 16} (asks : s.Asks n code p (stateFor code)) {b : Option RingBlock × Option RingBlock}
include asks

theorem State.Asks.acts : s.chan.acts = [] := asks.2.2.2.1

theorem State.Asks.act : s.act false code (.host n) b = (s.performOn false code (.host n) b 0 (s.port n).regs.partArg p false).finishActions :=
  have ⟨up, serves, free, idle, addressed, _⟩ := asks
  State.act_host up serves free idle addressed code b

theorem State.Asks.checked : s.partChecked true code p (s.port n).regs.partArg b = s.partCode code p (s.port n).regs.partArg b := by
  obtain ⟨-, -, -, -, -, other, mode, ok⟩ := asks
  have allowed : ¬ (!partAllowed true code p) = true := by simp [partAllowed, other]
  have state : ¬ (code = 1 ∧ (s.partition p).mode ≠ .absent ∨ code ≠ 1 ∧ code ≠ 16 ∧ (s.partition p).mode ≠ .live) := by
    rw [mode, stateFor]
    split <;> simp [*]
  rw [State.partChecked, if_neg allowed, if_neg state, if_neg (by simp [ok])]

variable {r : Nat} {k : PendKind} {t : State}

/-- An action that ends at once answers with its result. -/
theorem State.Asks.act_done (run : s.partCode code p (s.port n).regs.partArg b = (.done r, t)) :
    s.act false code (.host n) b = (t.partOut (.host n) code r).finishActions := by
  rw [asks.act, State.performOn]
  simp only [Bool.false_eq_true, if_false, callerIsHost, asks.checked, run]

/-- One that ends at once with no other in progress. -/
theorem State.Asks.act_ends (run : s.partCode code p (s.port n).regs.partArg b = (.done r, t)) (idle : t.chan.acts = []) :
    s.act false code (.host n) b = t.partOut (.host n) code r :=
  (asks.act_done run).trans (State.finishActions_idle ((congrArg ChanState.acts (t.partOut_chan n code r)).trans idle))

/-- An action that waits is in progress, and completes as soon as its condition holds. -/
theorem State.Asks.act_waits (run : s.partCode code p (s.port n).regs.partArg b = (.wait k, t)) :
    s.act false code (.host n) b = (t.pends n p k).finishActions := by
  rw [asks.act, State.performOn]
  simp only [Bool.false_eq_true, if_false, callerIsHost, asks.checked, run]
  rfl

end

/-- A partition action that does not stir the scheduler (R296). -/
theorem exec_of_act {s t : State} {c : Instr} {code : Nat} {who : Caller} {b : Option RingBlock × Option RingBlock}
    (run : exec c s = .next (s.take false code who b)) (calm : stirs false code = false) (act : s.act false code who b = t) : exec c s = .next t := by
  rw [run, State.take, calm, act]
  rfl

/-- One after which the scheduler decides anew (R296). -/
theorem exec_of_stirring {s t : State} {c : Instr} {code : Nat} {who : Caller} {b : Option RingBlock × Option RingBlock}
    (run : exec c s = .next (s.take false code who b)) (stirring : stirs false code = true) (act : s.act false code who b = t) : exec c s = .next t.scheduleAll := by
  rw [run, State.take, stirring, act]
  rfl

/-- A fold whose steps on a state do nothing. -/
theorem foldl_still {α : Type} {F : State → α → State} {s : State} {l : List α} (still : ∀ a ∈ l, F s a = s) : l.foldl F s = s :=
  List.foldlRecOn (motive := fun t => t = s) l F rfl (fun _ ht a ha => ht ▸ still a ha)

end Sys2Proof.Machine
end

section
/-! SUPPORT. Settings of partitions (10 R281, R287, R292, R299, R302, R307): what each action gives on arguments in their ranges; with these the statement
about settings. -/

namespace Sys2Proof.Machine

/-! ### Each action on arguments in their ranges -/

section
variable (s : State) (p : Fin 16)

theorem State.actSetBandwidth_ok {g c : Nat} (le : g ≤ c) (fits : 100 * c ≤ s.healthy) (less : g ≤ (s.partition p).guarantee) :
    s.actSetBandwidth p g c = (.done 0, (s.setPartition p { s.partition p with guarantee := g, ceiling := c }).refactor.boundRegs p) := by
  unfold State.actSetBandwidth
  dsimp only
  rw [if_neg (by omega), if_neg (by omega)]

theorem State.actSetLimits_ok {sl pl dl ri : Nat} (hs : 1 ≤ sl) (hs' : sl ≤ 1000) (hp : 1 ≤ pl) (hp' : pl ≤ 10000) (hd : 1 ≤ dl) (hd' : dl ≤ 10000)
    (hr : 1 ≤ ri) (hr' : ri ≤ 1000) :
    s.actSetLimits p sl pl dl ri = (.done 0, s.setPartition p { s.partition p with sealLimit := sl, parkLimit := pl, donationLimit := dl, reportInterval := ri }) :=
  if_neg (by omega)

/-- A queue whose fetched commands are sealed loses none when it is suspended (R299). -/
theorem State.actSetQueue_ok {q : Fin 64} {slice : Nat} (lo : 100 ≤ slice) (hi : slice ≤ 1000000)
    (kept : ∀ c ∈ s.chan.cmds, c.part = p → c.queue = q → c.isSealed = true) (suspend : Bool) :
    s.actSetQueue p q suspend slice = (.done 0, s.setQueueState p q { (s.partition p).queue q with suspended := suspend, slice := slice }) := by
  unfold State.actSetQueue
  rw [if_neg (by omega)]
  dsimp only
  split
  · rfl
  · refine congrArg (Prod.mk _) (foldl_still fun c listed => if_neg ?_)
    rintro ⟨part, queue, unsealed⟩
    simp [kept c listed part queue] at unsealed

theorem State.endLoan_none (none : (s.partition p).loan = none) : s.endLoan p = s := by
  rw [State.endLoan, none]

theorem State.actSetLoan_ok (none : (s.partition p).loan = none) {f k i : Nat} {b : Fin 16}
    (ok : k = 0 ∨ (f + k ≤ 384 ∧ 10 ≤ i ∧ b ≠ p ∧ (s.partition b).mode = .live ∧ ∀ la, f ≤ la → la < f + k → la ∈ (s.partition p).floor)) :
    ∃ t, s.actSetLoan p f k b i = (.done 0, t) ∧ t.chan.acts = s.chan.acts ∧ t.partition p = { s.partition p with loan := if k = 0 then Option.none else some ⟨f, k, b, i⟩ } := by
  unfold State.actSetLoan
  simp only [State.endLoan_none s p none]
  by_cases zero : k = 0
  · rw [if_pos zero, if_pos zero]
    exact ⟨s, rfl, rfl, by rw [← none]⟩
  · obtain ⟨fits, idle, other, live, inFloor⟩ := ok.resolve_left zero
    have held : ¬ ((laRange f k).any (fun la => !(s.partition p).floor.contains la)) = true := by
      simp only [laRange, List.any_map, List.any_eq_true, List.mem_range, Function.comp_apply]
      rintro ⟨i, lt, missing⟩
      simp [inFloor (f + i) (by omega) (by omega)] at missing
    rw [if_neg zero, if_neg zero, if_neg (by simp only [live, ne_eq, not_true_eq_false, or_false, other]; omega), if_neg held]
    exact ⟨_, rfl, rfl, State.partition_setPartition ..⟩

theorem State.actSetCredits_ok {f : List Nat}
    (fits : ∀ v, v < 4 → (allParts.map (fun q => if q = p then f.getD v 0 else (s.partition q).credits.getD v 0)).foldl (· + ·) 0 ≤ 192) :
    s.actSetCredits p f = (.done 0, s.setPartition p { s.partition p with credits := f }) := by
  refine if_neg ?_
  simp only [List.any_eq_true, List.mem_range, decide_eq_true_eq]
  rintro ⟨v, lt, more⟩
  exact absurd (fits v lt) (Nat.not_le.mpr more)

theorem State.actSetRings_ok {a : List Word} {b : Option RingBlock × Option RingBlock} {f t : Option RingReg} {u v : State} (clear : bits (a.getD 2 0) 16 8 = 0)
    (fault : s.ringRead ⟨p, (fnOf (bits (a.getD 2 0) 8 16)).1, (fnOf (bits (a.getD 2 0) 8 16)).2, some (bits (a.getD 3 0) 0 20)⟩ (a.getD 0 0).toNat false b.1 = (some f, u))
    (telemetry : u.ringRead ⟨p, (fnOf (bits (a.getD 2 0) 8 16)).1, (fnOf (bits (a.getD 2 0) 8 16)).2, some (bits (a.getD 3 0) 0 20)⟩ (a.getD 1 0).toNat
      ((a.getD 2 0).getLsbD 0) b.2 = (some t, v)) :
    s.actSetRings p a b = (.done 0, v.setPartition p { v.partition p with
      fault := f, telemetry := t, ringFn := bits (a.getD 2 0) 8 16, ringPasid := bits (a.getD 3 0) 0 20 }) := by
  have high : (bits (a.getD 2 0) 8 16).toNat / 256 = 0 := by
    have low := congrArg BitVec.toNat clear
    simp only [BitVec.extractLsb'_toNat, Nat.shiftRight_eq_div_pow] at low ⊢
    change _ = 0 at low
    omega
  unfold State.actSetRings
  dsimp only
  rw [if_neg (by simpa using high), fault]
  dsimp only
  rw [telemetry]

theorem State.actSetServing_ok {a : List Word} (serves : arg a 0 0 6 = 0) (few : arg a 1 0 16 ≤ 32768) (lo : 16 ≤ arg a 3 0 16) (hi : arg a 3 0 16 ≤ 4096)
    (room : (allParts.map (fun q => if q = p then arg a 1 0 16 else (s.partition q).seqCount)).foldl (· + ·) 0 ≤ 32768) :
    s.actSetServing p a = (.done 0, s.setPartition p { s.partition p with
      seqBase := a.getD 0 0, seqCount := arg a 1 0 16, pool := a.getD 2 0, pageTokens := arg a 3 0 16, serving := true }) := by
  unfold State.actSetServing
  dsimp only
  rw [if_neg (by omega), if_neg (by omega)]

end

/-- What an action set is what its partition then holds. -/
theorem State.partition_set (s : State) (p : Fin 16) (x : Partition) (n : Fin 2) (code r : Nat) : (((s.setPartition p x).partOut (.host n) code r).partition p) = x :=
  (State.partition_partOut ..).trans (State.partition_setPartition ..)

/-! ### Calls of partition services (R282) -/

/-- A call whose block is read, of an action that services may take on their own live partition, is the action on the block's words. -/
theorem State.act_services {s v : State} {p : Fin 16} {va : Word} {h : HostRead} {w : List Word} {code r : Nat} {t : State} (up : s.up = true)
    (live : (s.partition p).mode = .live) (idle : s.chan.acts = []) (allowed : partAllowed false code p = true) (read : s.callBlock p va h = (some w, v))
    (run : v.partChecked false code p (w.take 4) (none, none) = (.done r, t)) (code16 : code ≠ 16) (idle' : t.chan.acts = []) :
    s.act false code (.services p va h) (none, none) = t.callReturn r := by
  have serves : ¬ (!(s.up && decide ((s.partition p).mode ≠ .absent))) = true := by simp [up, live]
  have performed : s.perform false code (.services p va h) (none, none) (0, []) p false = t.callReturn r := by
    unfold State.perform
    dsimp only
    rw [if_neg (by simp [allowed]), read]
    dsimp only [State.performOn]
    rw [if_neg (by simp)]
    simp only [Bool.false_eq_true, if_false, callerIsHost]
    rw [run]
    simp only [State.partOut, code16, false_and, if_false]
  unfold State.act
  dsimp only
  rw [if_neg serves, if_neg (by simp [State.isBusy]), if_pos idle]
  exact (congrArg State.finishActions performed).trans (State.finishActions_idle idle')

theorem State.partChecked_setLimits {v : State} {p : Fin 16} {w : List Word} (live : (v.partition p).mode = .live) (clear : w.getD 1 0 = 0 ∧ w.getD 2 0 = 0 ∧ w.getD 3 0 = 0)
    (b : Option RingBlock × Option RingBlock) :
    v.partChecked false 10 p (w.take 4) b = v.actSetLimits p (arg w 0 0 16) (arg w 0 16 16) (arg w 0 32 16) (arg w 0 48 16) := by
  have word (i : Nat) (lt : i < 4) : (w.take 4).getD i 0 = w.getD i 0 := by simp [List.getD, lt]
  have ok : argsOk 10 (w.take 4) = true := by
    obtain ⟨one, two, three⟩ := clear
    simp only [argsOk, List.all_eq_true, List.mem_range, decide_eq_true_eq]
    intro i lt
    rw [word i lt]
    interval_cases i
    · exact BitVec.and_zero
    · rw [one]; exact BitVec.zero_and
    · rw [two]; exact BitVec.zero_and
    · rw [three]; exact BitVec.zero_and
  unfold State.partChecked
  rw [if_neg (by simp [partAllowed]), if_neg (by simp [live]), if_neg (by simp [ok])]
  simp only [State.partCode, arg, word 0 (by decide)]

/-! ### READ (R281, R282) -/

theorem State.partChecked_read (s : State) (p : Fin 16) (w : List Word) (b : Option RingBlock × Option RingBlock) :
    s.partChecked true 16 p w b = (.done 0, s) := by
  have ok : argsOk 16 w = true := by
    simp only [argsOk, List.all_eq_true, List.mem_range, decide_eq_true_eq]
    intro i lt
    interval_cases i <;> exact BitVec.and_zero
  unfold State.partChecked
  rw [if_neg (by simp [partAllowed]), if_neg (by simp), if_neg (by simp [ok])]
  rfl

theorem State.act_read {s : State} {n : Fin 2} {p : Fin 16} (up : s.up = true) (serves : s.barServes n 0 = true) (free : (s.port n).regs.partBusy = false)
    (idle : s.chan.acts = []) (addressed : s.actPart (.host n) = p) (b : Option RingBlock × Option RingBlock) :
    s.act false 16 (.host n) b = s.setRegs n { (s.port n).regs with partBusy := false, partResult := 0, partArg := s.partWords p } := by
  have done : s.performOn false 16 (.host n) b 0 (s.port n).regs.partArg p false = s.partOut (.host n) 16 0 := by
    rw [State.performOn]
    simp only [Bool.false_eq_true, if_false, callerIsHost, State.partChecked_read]
  rw [State.act_host up serves free idle addressed, done, State.finishActions_idle ((congrArg ChanState.acts (s.partOut_chan n 16 0)).trans idle)]
  simp only [State.partOut, addressed, and_self, if_true]

/-- Settles O25: each action passes its checks, and what it sets is read back. -/
theorem partitionSettingsComplete : Obligations.PartitionSettingsComplete := by
  unfold Obligations.PartitionSettingsComplete
  intro s n p a x
  refine ⟨fun asks g c hg hc le fits less => ?bandwidth, fun asks hs hs' hp hp' hd hd' hr hr' => ?limits, fun asks q hq lo hi kept => ?queue,
    fun asks none f k b i hf hk hb hi ok => ?loan, fun asks fits => ?credits, fun asks b b' f t u v clear fault telemetry => ?rings,
    fun asks serves few lo hi room => ?serving, fun va h w v up live idle read idle' live' hs hs' hp hp' hd hd' hr hr' c1 c2 c3 => ?services,
    fun up serves free idle addressed => ?read⟩
  case bandwidth =>
    subst hg hc
    exact ⟨s.setPartition p _, State.partition_setPartition .., rfl, exec_of_act rfl rfl (asks.act_done (State.actSetBandwidth_ok s p le fits less))⟩
  case limits =>
    exact ⟨_, exec_of_act rfl rfl (asks.act_ends (State.actSetLimits_ok s p hs hs' hp hp' hd hd' hr hr') asks.acts), State.answers_partOut .., State.partition_set ..⟩
  case queue =>
    have named : (⟨arg a 0 0 6 % 64, Nat.mod_lt _ (by decide)⟩ : Fin 64) = q := Fin.ext (by rw [← hq]; exact Nat.mod_eq_of_lt q.isLt)
    have run := State.actSetQueue_ok s p lo hi kept ((a.getD 0 0).getLsbD 8)
    rw [← named] at run ⊢
    refine ⟨_, exec_of_stirring rfl rfl (asks.act_ends run asks.acts), State.answers_partOut .., by rw [State.partOut_chan]; rfl, ?_⟩
    rw [State.partition_partOut]
    exact (congrArg (fun x : Partition => x.queue _) (State.partition_setPartition ..)).trans (Tbl.get_set_same ..)
  case loan =>
    subst hf hk hb hi
    obtain ⟨t, run, idle, set⟩ := State.actSetLoan_ok s p none ok
    exact ⟨_, exec_of_stirring rfl rfl (asks.act_ends run (idle.trans asks.acts)), State.answers_partOut .., (State.partition_partOut ..).trans set⟩
  case credits =>
    refine ⟨_, exec_of_act rfl rfl (asks.act_ends (State.actSetCredits_ok s p fun v lt => ?_) asks.acts), State.answers_partOut .., State.partition_set ..⟩
    have fit := fits v lt
    interval_cases v <;> exact fit
  case rings =>
    exact exec_of_act rfl rfl (asks.act_done (State.actSetRings_ok s p clear fault telemetry))
  case serving =>
    exact ⟨_, exec_of_act rfl rfl (asks.act_ends (State.actSetServing_ok s p serves few lo hi room) asks.acts), State.answers_partOut .., State.partition_set ..⟩
  case services =>
    refine exec_of_act rfl rfl (State.act_services up live idle rfl read (r := 0) ((State.partChecked_setLimits live' ⟨c1, c2, c3⟩ _).trans ?_) (by decide) idle')
    exact State.actSetLimits_ok v p hs hs' hp hp' hd hd' hr hr'
  case read =>
    exact exec_of_act rfl rfl (State.act_read up serves free idle addressed (none, none))

end Sys2Proof.Machine
end

section
/-! SUPPORT. Grants of partitions (10 R144, R147, R148, R281-R285): what each action makes of the arrays, plots and cores it names; with these the statement
about actions that give and take resources. -/

namespace Sys2Proof.Machine

/-! ### Folds over the units that an action names -/

/-- Steps that each change what stands under one key, as a function of what stood there that a second time changes nothing: a fold changes what stands under
the keys that it visits. -/
theorem foldl_at {σ α β : Type} {get : σ → β → α} {key : β → Nat} {f : Nat → α → α} {F : σ → Nat → σ} {Inv : σ → Prop} (keeps : ∀ x k, Inv x → Inv (F x k))
    (step : ∀ x k j, Inv x → get (F x k) j = if key j = k then f k (get x j) else get x j) (idem : ∀ k v, f k (f k v) = f k v) (l : List Nat) {x : σ} (inv : Inv x)
    (j : β) : get (l.foldl F x) j = if key j ∈ l then f (key j) (get x j) else get x j := by
  induction l generalizing x with
  | nil => rfl
  | cons k t ih =>
    rw [List.foldl_cons, ih (keeps x k inv), step x k j inv]
    by_cases here : key j = k
    · simp [here, idem]
    · simp [here]

theorem mem_laRange {f k q : Nat} : q ∈ laRange f k ↔ f ≤ q ∧ q < f + k := by
  simp only [laRange, List.mem_map, List.mem_range]
  exact ⟨fun ⟨i, lt, eq⟩ => by omega, fun h => ⟨q - f, by omega, by omega⟩⟩

theorem laRange_any_false {f k : Nat} {P : Nat → Bool} (none : ∀ q, f ≤ q → q < f + k → P q = false) : ¬ (laRange f k).any P = true := by
  rw [List.any_eq_true]
  rintro ⟨q, mem, holds⟩
  obtain ⟨lo, hi⟩ := mem_laRange.mp mem
  simp [none q lo hi] at holds

theorem Tbl.get_filter_key {α : Type} (d : α) (P : Nat → Bool) (t : Tbl α) (i : Nat) :
    Tbl.get d (t.filter (fun e => P e.1)) i = if P i = true then Tbl.get d t i else d := by
  induction t with
  | nil => simp [Tbl.get]
  | cons e t ih =>
    obtain ⟨k, v⟩ := e
    by_cases here : k = i
    · subst here
      by_cases kept : P k = true <;> simp_all [Tbl.get]
    · by_cases kept : P k = true <;> simp_all [Tbl.get]

/-! ### CREATE (R283) -/

theorem State.makeRegs_plots (s : State) (p : Fin 16) : (s.makeRegs p).mem.plots = s.mem.plots := by
  refine foldl_keeps (fun t : State => t.mem.plots) _ (fun t h => ?_) _ s
  dsimp only
  split <;> rfl

theorem State.makeRegs_keys (s : State) (p : Fin 16) : (s.makeRegs p).mem.keys = s.mem.keys := by
  refine foldl_keeps (fun t : State => t.mem.keys) _ (fun t h => ?_) _ s
  dsimp only
  split <;> rfl

theorem State.newRoot_chan (s : State) (p : Fin 16) : (s.newRoot p).chan = s.chan := rfl
theorem State.newRoot_plots (s : State) (p : Fin 16) : (s.newRoot p).mem.plots = s.mem.plots := rfl
theorem State.newRoot_keys (s : State) (p : Fin 16) : (s.newRoot p).mem.keys = s.mem.keys := rfl

/-- A created partition is LIVE with no resources and the next memory key. -/
theorem State.actCreate_ok (s : State) (p : Fin 16) (a : List Word) : ∃ t, s.actCreate p a = (.done 0, t) ∧ t.chan.acts = s.chan.acts
    ∧ t.partition p = { Partition.absent with mode := .live, confined := (a.getD 0 0).getLsbD 0, hub := ⟨arg a 0 1 2 % 4, Nat.mod_lt _ (by decide)⟩, ceiling := s.healthy / 100 }
    ∧ Tbl.get none t.mem.keys p.val = some s.sec.nextKey ∧ t.mem.plots = s.mem.plots := by
  refine ⟨_, rfl, ?_, ?_, ?_, ?_⟩
  · rw [State.newRoot_chan, State.makeRegs_chan]; rfl
  · exact (State.partition_of_chan ((State.newRoot_chan ..).trans (State.makeRegs_chan ..)) p).trans (State.partition_setPartition s p _)
  · rw [State.newRoot_keys, State.makeRegs_keys]
    exact Tbl.get_set_same none s.mem.keys p.val (some s.sec.nextKey)
  · rw [State.newRoot_plots, State.makeRegs_plots]; rfl

/-! ### DESTROY (R283) -/

theorem State.chansOf_congr {s t : State} (entries : t.chan.entries = s.chan.entries) (dyn : t.chan.dyn = s.chan.dyn) (p : Fin 16) : t.chansOf p = s.chansOf p := by
  have entry : t.entry = s.entry := funext fun ch => congrArg (Tbl.get 0 · ch.val) entries
  have dyn : t.dyn = s.dyn := funext fun ch => congrArg (Tbl.get ChanDyn.reset · ch.val) dyn
  rw [State.chansOf, State.chansOf, entry, dyn]

/-- The partition is CLOSING (R283). -/
def State.closing (s : State) (p : Fin 16) : State := s.setPartition p { s.partition p with mode := .closing }

theorem State.acts_closing (s : State) (p : Fin 16) : (s.closing p).chan.acts = s.chan.acts := rfl

/-- With no channel running there is none to stop. -/
theorem State.actDestroy_still {s : State} {p : Fin 16} (still : ∀ ch ∈ s.chansOf p, entState (s.entry ch) ≠ 1) :
    s.actDestroy p = (.wait .destroy, s.closing p) :=
  congrArg (Prod.mk _) (foldl_still fun ch named => if_neg (still ch named))

theorem State.finishDestroy_eq (s : State) (p : Fin 16) :
    ∃ u : State, s.finishDestroy p = ((((u.forgetMem p).dropRegs p).closeStreamsOf p).setPartition p Partition.absent).refactor := ⟨_, rfl⟩

/-- Of the partition that DESTROY ends nothing is left when the bandwidth is shared out anew: no key and no root. -/
theorem State.finishDestroy_gone (s : State) (p : Fin 16) : ∃ w : State, s.finishDestroy p = w.refactor ∧ w.partition p = Partition.absent
    ∧ Tbl.get none w.mem.keys p.val = none ∧ Tbl.get none w.mem.roots p.val = none := by
  obtain ⟨u, done⟩ := s.finishDestroy_eq p
  exact ⟨_, done, State.partition_setPartition .., Tbl.get_set_same none u.mem.keys p.val none, Tbl.get_set_same none u.mem.roots p.val none⟩

/-- The head of the queue completes when its condition holds. -/
theorem State.finishFuel_ready {s : State} {x : PendAction} {l : List PendAction} (acts : s.chan.acts = x :: l) (ready : s.actReady x = true) (k : Nat) :
    s.finishFuel (k + 1) = ({ s with chan := { s.chan with acts := l } }.actFinish x).finishFuel k := by
  rw [State.finishFuel, acts]
  exact if_pos ready

/-- And waits while it does not. -/
theorem State.finishFuel_waits {s : State} {x : PendAction} {l : List PendAction} (acts : s.chan.acts = x :: l) (waits : s.actReady x = false) (k : Nat) :
    s.finishFuel k = s := by
  cases k with
  | zero => rfl
  | succ k =>
    rw [State.finishFuel, acts]
    exact if_neg (by simp [waits])

theorem State.pends_acts {t : State} (idle : t.chan.acts = []) (n : Fin 2) (p : Fin 16) (k : PendKind) : (t.pends n p k).chan.acts = [⟨some n, p, k, false⟩] := by
  rw [State.pends_chan, idle]

theorem State.chansOf_pends (t : State) (n : Fin 2) (p : Fin 16) (k : PendKind) (q : Fin 16) : (t.pends n p k).chansOf q = t.chansOf q :=
  State.chansOf_congr (by rw [State.pends_chan]) (by rw [State.pends_chan]) q

/-- The state in which an action that has just begun completes: it is no longer in progress. -/
def State.taken (t : State) (n : Fin 2) (p : Fin 16) (k : PendKind) : State :=
  { t.pends n p k with chan := { (t.pends n p k).chan with acts := [] } }

theorem State.chan_taken {t : State} (idle : t.chan.acts = []) (n : Fin 2) (p : Fin 16) (k : PendKind) : (t.taken n p k).chan = t.chan := by
  simp only [State.taken, State.pends_chan]
  rw [← idle]

/-- An action whose condition holds as it begins completes. -/
theorem State.finishActions_ready {t : State} (idle : t.chan.acts = []) {n : Fin 2} {p : Fin 16} {k : PendKind}
    (ready : (t.pends n p k).actReady ⟨some n, p, k, false⟩ = true) :
    (t.pends n p k).finishActions = ((t.taken n p k).actFinish ⟨some n, p, k, false⟩).finishFuel 3 := by
  have acts := State.pends_acts idle n p k
  rw [State.finishActions, acts]
  exact State.finishFuel_ready acts ready 3

/-- Partition p has no channels: DESTROY completes at once. -/
theorem State.destroy_completes {t : State} {p : Fin 16} (idle : t.chan.acts = []) (free : t.chansOf p = []) (n : Fin 2) :
    ∃ w : State, w.partition p = Partition.absent ∧ Tbl.get none w.mem.keys p.val = none ∧ Tbl.get none w.mem.roots p.val = none
      ∧ (t.pends n p .destroy).finishActions = (w.refactor.actDone ⟨some n, p, .destroy, false⟩ false).finishFuel 3 := by
  have ready : (t.pends n p .destroy).actReady ⟨some n, p, .destroy, false⟩ = true := by
    simp only [State.actReady, State.chansOf_pends, free, List.all_nil]
  obtain ⟨w, done, gone, keys, roots⟩ := State.finishDestroy_gone (t.taken n p .destroy) p
  refine ⟨w, gone, keys, roots, (State.finishActions_ready idle ready).trans ?_⟩
  exact congrArg (fun u : State => (u.actDone ⟨some n, p, .destroy, false⟩ false).finishFuel 3) done

/-- Channels that have not stopped: DESTROY waits. -/
theorem State.destroy_waits {t : State} {p : Fin 16} (idle : t.chan.acts = []) {ch : Fin 3072} (named : ch ∈ t.chansOf p) (stopping : entState (t.entry ch) = 2) (n : Fin 2) :
    (t.pends n p .destroy).finishActions = t.pends n p .destroy := by
  refine State.finishFuel_waits (State.pends_acts idle n p _) ?_ _
  have entry : (t.pends n p .destroy).entry ch = t.entry ch := by rw [State.entry, State.pends_chan]; rfl
  simp only [State.actReady, State.chansOf_pends]
  exact List.all_eq_false.mpr ⟨ch, named, by simp [entry, stopping]⟩

/-! ### Arrays (R284) -/

theorem ArrayState.pass_pass (a : ArrayState) : a.pass.pass = a.pass := by
  cases h : a.occ <;> simp [ArrayState.pass, ArrayState.vacate, h]

/-- A fold of arrays that are passed on. -/
theorem State.array_passed (s : State) (l : List Nat) (la : Nat) :
    (l.foldl (fun s la => s.setArray la (s.array la).pass) s).array la = if la ∈ l then (s.array la).pass else s.array la :=
  foldl_at (get := State.array) (key := id) (f := fun _ => ArrayState.pass) (Inv := fun _ => True) (fun _ _ h => h)
    (fun s k j _ => by
      by_cases here : j = k
      · rw [here]; simp
      · simp [here, State.array_setArray_ne]) (fun _ => ArrayState.pass_pass) l trivial la

theorem State.chan_passed (s : State) (l : List Nat) : (l.foldl (fun s la => s.setArray la (s.array la).pass) s).chan = s.chan :=
  foldl_keeps State.chan (fun s la => s.setArray la (s.array la).pass) (fun _ _ => rfl) l s

theorem State.chan_wanted (s : State) (l : List Nat) : (l.foldl (fun s k => if (s.slot k).st = 3 then s else s.wantDomain k) s).chan = s.chan := by
  refine foldl_keeps State.chan _ (fun t k => ?_) l s
  unfold State.wantDomain
  split
  · rfl
  · split <;> rfl

theorem State.arr_wanted (s : State) (l : List Nat) : (l.foldl (fun s k => if (s.slot k).st = 3 then s else s.wantDomain k) s).arr = s.arr := by
  refine foldl_keeps State.arr _ (fun t k => ?_) l s
  unfold State.wantDomain
  split
  · rfl
  · split <;> rfl

/-- Arrays that no other floor holds join the floor, the new ones passed on. -/
theorem State.actGrantArrays_ok {s : State} {p : Fin 16} {f k : Nat} (pos : 1 ≤ k) (fits : f + k ≤ 384)
    (own : ∀ la q, f ≤ la → la < f + k → s.floorOf la = some q → q = p) :
    ∃ t, s.actGrantArrays p f k = (.wait (.grantArrays f k), t) ∧ t.chan.acts = s.chan.acts
      ∧ (∀ la, la ∈ (t.partition p).floor ↔ la ∈ (s.partition p).floor ∨ (f ≤ la ∧ la < f + k))
      ∧ ∀ la, t.array la = if f ≤ la ∧ la < f + k ∧ la ∉ (s.partition p).floor then (s.array la).pass else s.array la := by
  have others : ¬ (laRange f k).any (fun la => (s.floorOf la).any (fun q => decide (q ≠ p))) = true := laRange_any_false fun la lo hi => by
    cases held : s.floorOf la with
    | none => rfl
    | some q => simp [own la q lo hi held]
  have new (la : Nat) : la ∈ (laRange f k).filter (fun la => !(s.partition p).floor.contains la) ↔ f ≤ la ∧ la < f + k ∧ la ∉ (s.partition p).floor := by
    simp only [List.mem_filter, mem_laRange, Bool.not_eq_true', List.contains_eq_mem, decide_eq_false_iff_not, and_assoc]
  unfold State.actGrantArrays
  rw [if_neg (by omega)]
  dsimp only
  rw [if_neg others]
  refine ⟨_, rfl, ?_, fun la => ?_, fun la => ?_⟩
  · rw [State.chan_wanted, State.chan_passed]; rfl
  · rw [State.partition_of_chan ((State.chan_wanted ..).trans (State.chan_passed ..)), State.partition_setPartition, List.mem_append, new]
    by_cases held : la ∈ (s.partition p).floor <;> simp [held]
  · rw [State.array, State.arr_wanted]
    refine (State.array_passed _ _ la).trans ?_
    simp only [new, State.array_setPartition']

theorem State.chan_leaveFloor (s : State) (p : Fin 16) (l : List Nat) :
    (s.leaveFloor p l).chan = (s.setPartition p { s.partition p with floor := (s.partition p).floor.filter (fun la => !l.contains la) }).chan :=
  State.chan_passed ..

theorem State.acts_leaveFloor (s : State) (p : Fin 16) (l : List Nat) : (s.leaveFloor p l).chan.acts = s.chan.acts :=
  (congrArg ChanState.acts (s.chan_leaveFloor p l)).trans rfl

theorem State.floor_leaveFloor (s : State) (p : Fin 16) (l : List Nat) :
    ((s.leaveFloor p l).partition p).floor = (s.partition p).floor.filter (fun la => !l.contains la) := by
  rw [State.partition_of_chan (State.chan_leaveFloor ..), State.partition_setPartition]

/-- Arrays that are in the floor, are not lent and run nothing can leave it. -/
theorem State.actReleaseArrays_ok {s : State} {p : Fin 16} {f k : Nat} (pos : 1 ≤ k) (fits : f + k ≤ 384) (unlent : (s.partition p).loan = none)
    (held : ∀ la, f ≤ la → la < f + k → la ∈ (s.partition p).floor ∧ (s.array la).occ = none) : s.actReleaseArrays p f k = (.wait (.releaseArrays f k), s) := by
  have inFloor : ¬ (laRange f k).any (fun la => !(s.partition p).floor.contains la) = true := laRange_any_false fun la lo hi => by
    simp [(held la lo hi).1]
  have vacant : ∀ la ∈ laRange f k, s.killUnsealed p la = s := fun la mem => by
    obtain ⟨lo, hi⟩ := mem_laRange.mp mem
    rw [State.killUnsealed, (held la lo hi).2]
  unfold State.actReleaseArrays
  rw [if_neg (by omega)]
  dsimp only
  rw [if_neg inFloor, unlent]
  exact congrArg (Prod.mk _) (foldl_still vacant)

/-- RELEASE_ARRAYS of arrays that run nothing completes at once. -/
theorem State.releaseArrays_completes {s : State} {p : Fin 16} {f k : Nat} (idle : s.chan.acts = []) (vacant : ∀ la, f ≤ la → la < f + k → (s.array la).occ = none) (n : Fin 2) :
    ∃ t, (s.pends n p (.releaseArrays f k)).finishActions = t ∧ t.Answers n 0
      ∧ ∀ la, la ∈ (t.partition p).floor ↔ la ∈ (s.partition p).floor ∧ ¬ (f ≤ la ∧ la < f + k) := by
  have ready : (s.pends n p (.releaseArrays f k)).actReady ⟨some n, p, .releaseArrays f k, false⟩ = true := by
    simp only [State.actReady, List.all_eq_true, State.occupiedBy, State.array_pends]
    intro la mem
    obtain ⟨lo, hi⟩ := mem_laRange.mp mem
    simp [vacant la lo hi]
  refine ⟨_, State.finishActions_ready idle ready, ?_⟩
  simp only [State.actFinish, State.actDone, Bool.false_eq_true, if_false]
  rw [State.finishFuel_idle (by rw [State.setRegs_chan, State.acts_leaveFloor, State.chan_taken idle, idle])]
  refine ⟨by simp [State.Answers], fun la => ?_⟩
  rw [State.partition_of_chan (State.setRegs_chan ..), State.floor_leaveFloor, State.partition_of_chan (State.chan_taken idle ..)]
  simp only [List.mem_filter, Bool.not_eq_true', List.contains_eq_mem, decide_eq_false_iff_not, mem_laRange]

/-! ### Plots (R146-R148) -/

theorem State.plot_grantPlot (s : State) (p : Fin 16) (k q : Nat) : (s.grantPlot p k).plot q = if q = k then .granted p 0 else s.plot q := by
  by_cases here : q = k
  · rw [if_pos here, here]
    exact State.plot_setPlot ..
  · rw [if_neg here]
    exact State.plot_setPlot_ne _ _ _ _ here

theorem State.bytes_grantPlot (s : State) (p : Fin 16) (k x : Nat) :
    Tbl.get 0 (s.grantPlot p k).mem.bytes x = if x / 2 ^ 30 = k then 0 else Tbl.get 0 s.mem.bytes x := by
  refine (Tbl.get_filter_key 0 (fun x => decide (x / 2 ^ 30 ≠ k)) s.mem.bytes x).trans ?_
  simp

/-- Free plots of the right mode and hub, with room for what is admitted, are granted. -/
theorem State.actGrantPlots_ok {s : State} {p : Fin 16} {f k : Nat} (pos : 1 ≤ k) (fits : f + k ≤ 1128) (admits : s.admits = true)
    (free : ∀ q, f ≤ q → q < f + k → s.confinedBand (q / 24) = (s.partition p).confined ∧ ((s.partition p).confined = true → hubOfPlot q = (s.partition p).hub.val)
      ∧ s.plotAbsent q = false ∧ s.plot q = .free) :
    s.actGrantPlots p f k = (.done 0, (laRange f k).foldl (fun s q => s.grantPlot p q) s) := by
  have mode : ¬ (laRange f k).any (fun q => decide (s.confinedBand (q / 24) ≠ (s.partition p).confined) || ((s.partition p).confined && decide (hubOfPlot q ≠ (s.partition p).hub.val))) = true :=
    laRange_any_false fun q lo hi => by
      obtain ⟨band, hub, -, -⟩ := free q lo hi
      cases confined : (s.partition p).confined <;> simp_all
  have unheld : ¬ (laRange f k).any (fun q => s.plotAbsent q || decide (s.plot q ≠ .free)) = true := laRange_any_false fun q lo hi => by
    obtain ⟨-, -, present, free⟩ := free q lo hi
    simp [present, free]
  unfold State.actGrantPlots
  rw [if_neg (by omega)]
  dsimp only
  rw [if_neg mode, if_neg unheld, if_neg (by simp [admits])]

theorem State.plot_granted (s : State) (p : Fin 16) (l : List Nat) (q : Nat) :
    (l.foldl (fun s q => s.grantPlot p q) s).plot q = if q ∈ l then .granted p 0 else s.plot q :=
  foldl_at (get := State.plot) (key := id) (f := fun _ _ => .granted p 0) (Inv := fun _ => True) (fun _ _ h => h) (fun s k q _ => s.plot_grantPlot p k q)
    (fun _ _ => rfl) l trivial q

theorem State.bytes_granted (s : State) (p : Fin 16) (l : List Nat) (x : Nat) :
    Tbl.get 0 (l.foldl (fun s q => s.grantPlot p q) s).mem.bytes x = if x / 2 ^ 30 ∈ l then 0 else Tbl.get 0 s.mem.bytes x :=
  foldl_at (get := fun (t : State) x => Tbl.get 0 t.mem.bytes x) (key := fun x => x / 2 ^ 30) (f := fun _ _ => 0) (Inv := fun _ => True) (fun _ _ h => h)
    (fun s k x _ => s.bytes_grantPlot p k x) (fun _ _ => rfl) l trivial x

theorem State.chan_granted (s : State) (p : Fin 16) (l : List Nat) : (l.foldl (fun s q => s.grantPlot p q) s).chan = s.chan :=
  foldl_keeps State.chan (fun s q => s.grantPlot p q) (fun _ _ => rfl) l s

/-- A plot that is quarantined at its release (R148). -/
def State.plotBad (s : State) (q : Nat) : Bool := s.plotStuck q || s.plotDark q

/-- What a released plot becomes. -/
def State.plotAfter (s : State) (q : Nat) : PlotHold := if s.plotBad q then .quarantined else .free

theorem State.releasePlot_snd (s : State) (k : Nat) : (s.releasePlot k).2 =
    if s.plotBad k then { (s.dropPlotLines k).setPlot k .quarantined with atlas := { s.atlas with quarantined := s.atlas.quarantined + 1 } }
    else (s.dropPlotLines k).setPlot k .free := by
  have same : ((s.dropPlotLines k).plotStuck k || (s.dropPlotLines k).plotDark k) = s.plotBad k := rfl
  unfold State.releasePlot
  dsimp only
  rw [same]
  split <;> rfl

theorem State.plot_releasePlot (s : State) (k q : Nat) : (s.releasePlot k).2.plot q = if q = k then s.plotAfter k else s.plot q := by
  have set (h : PlotHold) : ((s.dropPlotLines k).setPlot k h).plot q = if q = k then h else s.plot q := Tbl.get_set ..
  rw [State.releasePlot_snd, State.plotAfter]
  cases s.plotBad k
  · exact set .free
  · exact set .quarantined

theorem State.plotBad_releasePlot (s : State) (k q : Nat) : (s.releasePlot k).2.plotBad q = s.plotBad q := by
  rw [State.releasePlot_snd]
  split <;> rfl

theorem State.chan_releasePlot (s : State) (k : Nat) : (s.releasePlot k).2.chan = s.chan := by
  rw [State.releasePlot_snd]
  split <;> rfl

theorem State.plot_releasePlots (s : State) (p : Fin 16) (l : List Nat) (q : Nat) : (s.releasePlots p l).plot q = if q ∈ l then s.plotAfter q else s.plot q := by
  have released := foldl_at (get := fun (x : Bool × State) q => x.2.plot q) (key := id) (f := fun k _ => s.plotAfter k) (Inv := fun x => ∀ q, x.2.plotBad q = s.plotBad q)
    (F := fun x q => let (b, t) := x.2.releasePlot q; (x.1 || b, t)) (fun x k h q => (State.plotBad_releasePlot ..).trans (h q))
    (fun x k j h => (x.2.plot_releasePlot k j).trans (by rw [State.plotAfter, State.plotAfter, h k]; rfl)) (fun _ _ => rfl) l (x := (false, s)) (fun _ => rfl) q
  unfold State.releasePlots
  dsimp only
  split
  · exact (State.plot_of_tenure (State.atlasUpdate_tenure ..) q).trans released
  · exact released

theorem State.acts_releasePlots (s : State) (p : Fin 16) (l : List Nat) : (s.releasePlots p l).chan.acts = s.chan.acts := by
  have released := foldl_keeps (fun x : Bool × State => x.2.chan.acts) (fun x q => let (b, t) := x.2.releasePlot q; (x.1 || b, t))
    (fun x k => congrArg ChanState.acts (x.2.chan_releasePlot k)) l (false, s)
  unfold State.releasePlots
  dsimp only
  split
  · exact (State.acts_of_tenure (State.atlasUpdate_tenure ..)).trans released
  · exact released

/-- Plots of the partition are released. -/
theorem State.actReleasePlots_ok {s : State} {p : Fin 16} {f k : Nat} (pos : 1 ≤ k) (fits : f + k ≤ 1128) (held : ∀ q, f ≤ q → q < f + k → q ∈ s.plotsOf p) :
    s.actReleasePlots p f k = (.done 0, s.releasePlots p (laRange f k)) := by
  have own : ¬ (laRange f k).any (fun q => !(s.plotsOf p).contains q) = true := laRange_any_false fun q lo hi => by
    simp [held q lo hi]
  unfold State.actReleasePlots
  rw [if_neg (by omega)]
  dsimp only
  rw [if_neg own]

/-! ### Cores (R285) -/

theorem State.actGrantCores_ok {s : State} {p : Fin 16} {k : Nat} (pos : 1 ≤ k) (few : k ≤ 144) (ways : 2 ≤ pop (s.ways p).mask) {l m : List Nat}
    (hl : l = if (s.partition p).confined = true ∧ (s.partition p).hub.val / 2 = 1 then [] else s.freeCores 0)
    (hm : m = if (s.partition p).confined = true ∧ (s.partition p).hub.val / 2 = 0 then [] else s.freeCores 1) (enough : k ≤ l.length + m.length) :
    s.actGrantCores p k = (.done 0, s.setPartition p { s.partition p with cores := (s.partition p).cores ++ takeCores k l m }) := by
  unfold State.actGrantCores
  dsimp only
  rw [if_neg (by omega), ← hl, ← hm, if_neg (by omega)]

theorem State.actReleaseCores_ok {s : State} {p : Fin 16} {k : Nat} (pos : 1 ≤ k) (few : k ≤ 144) (held : k ≤ (s.partition p).cores.length) :
    s.actReleaseCores p k = (.done 0, (s.resetCores ((s.partition p).cores.drop ((s.partition p).cores.length - k))).setPartition p
      { s.partition p with cores := (s.partition p).cores.take ((s.partition p).cores.length - k) }) := by
  unfold State.actReleaseCores
  dsimp only
  rw [if_neg (by omega), if_neg (by omega)]

/-- Cores that are reset are stopped at address 0; the others stay. -/
theorem State.core_resetCores (s : State) (l : List Nat) (c : Nat) :
    (s.resetCores l).core c = if c ∈ l then { s.core c with running := false, pc := 0 } else s.core c :=
  foldl_at (get := State.core) (key := id) (f := fun _ x => { x with running := false, pc := 0 }) (Inv := fun _ => True) (fun _ _ h => h)
    (fun s k j _ => by
      by_cases here : j = k
      · rw [here, id, if_pos rfl]
        exact State.core_setCore ..
      · rw [id, if_neg here]
        exact State.core_setCore_ne _ _ _ _ here) (fun _ _ => rfl) l trivial c

theorem State.chan_resetCores (s : State) (l : List Nat) : (s.resetCores l).chan = s.chan := by
  unfold State.resetCores
  exact foldl_keeps State.chan _ (fun _ _ => by rw [State.setCore_chan]) l s

/-- Settles O24: each action passes its checks; CREATE, the grants and releases end at once, GRANT_ARRAYS and DESTROY of running channels are in progress. -/
theorem partitionGrantsComplete : Obligations.PartitionGrantsComplete := by
  unfold Obligations.PartitionGrantsComplete
  intro s n p a
  refine ⟨fun asks => ?create, fun asks => ⟨fun free => ?destroy, fun stopping running => ?closing⟩, fun asks f k hf hk pos fits own => ?grantArrays,
    fun asks f k hf hk pos fits unlent held => ?releaseArrays, fun asks f k hf hk pos fits admits free => ?grantPlots,
    fun asks f k hf hk pos fits held => ?releasePlots, fun asks k hk pos few ways l m hl hm enough => ?grantCores, fun asks k hk pos few held => ?releaseCores⟩
  case create =>
    obtain ⟨t, run, idle, made, key, plots⟩ := State.actCreate_ok s p a
    refine ⟨_, exec_of_act rfl rfl (State.Asks.act_ends asks run (idle.trans (State.Asks.acts (code := 1) asks))), State.answers_partOut .., ?_⟩
    rw [State.partition_partOut, made, State.partOut_mem]
    exact ⟨rfl, rfl, rfl, rfl, Nat.mod_eq_of_lt (BitVec.isLt _), rfl, rfl, key, plots⟩
  case destroy =>
    obtain ⟨w, gone, keys, roots, done⟩ := State.destroy_completes ((s.acts_closing p).trans asks.acts) free n
    have run := State.actDestroy_still (s := s) (p := p) (by simp [free])
    exact ⟨w, gone, keys, roots, exec_of_stirring rfl rfl ((asks.act_waits run).trans done)⟩
  case closing =>
    have idle := (s.acts_closing p).trans asks.acts
    have run := State.actDestroy_still (s := s) (p := p) (fun ch named => by simp [stopping ch named])
    obtain ⟨ch, named⟩ := List.exists_mem_of_ne_nil _ running
    have waits := State.destroy_waits idle named (stopping ch named) n
    refine ⟨_, exec_of_stirring rfl rfl ((asks.act_waits run).trans waits), State.pends_busy .., ?_, State.pends_acts idle ..⟩
    rw [State.partition_pends, State.closing, State.partition_setPartition]
  case grantArrays =>
    subst hf hk
    obtain ⟨t, run, idle, floor, passed⟩ := State.actGrantArrays_ok pos fits own
    refine ⟨_, exec_of_act rfl rfl (asks.act_waits run), State.pends_acts (idle.trans asks.acts) .., State.pends_busy .., ?_⟩
    simp only [State.partition_pends, State.array_pends]
    exact ⟨floor, passed⟩
  case releaseArrays =>
    subst hf hk
    obtain ⟨t, done, answers, floor⟩ := State.releaseArrays_completes (p := p) asks.acts (fun la lo hi => (held la lo hi).2) n
    exact ⟨t, exec_of_stirring rfl rfl ((asks.act_waits (State.actReleaseArrays_ok pos fits unlent held)).trans done), answers, floor⟩
  case grantPlots =>
    subst hf hk
    have run := State.actGrantPlots_ok pos fits admits free
    refine ⟨_, exec_of_act rfl rfl (asks.act_ends run ((congrArg ChanState.acts (s.chan_granted ..)).trans asks.acts)), State.answers_partOut .., ?_⟩
    simp only [State.plot, State.partOut_mem]
    refine ⟨fun q lo hi => ?_, fun q out => ?_, fun x => ?_⟩
    · exact (s.plot_granted p _ q).trans (if_pos (mem_laRange.mpr ⟨lo, hi⟩))
    · exact (s.plot_granted p _ q).trans (if_neg (mt mem_laRange.mp out))
    · exact (s.bytes_granted p _ x).trans (by simp only [mem_laRange])
  case releasePlots =>
    subst hf hk
    have run := State.actReleasePlots_ok pos fits held
    refine ⟨_, exec_of_act rfl rfl (asks.act_ends run ((s.acts_releasePlots ..).trans asks.acts)), State.answers_partOut .., ?_⟩
    simp only [State.plot, State.partOut_mem]
    refine ⟨fun q lo hi => ?_, fun q out => ?_⟩
    · exact (s.plot_releasePlots p _ q).trans (if_pos (mem_laRange.mpr ⟨lo, hi⟩))
    · exact (s.plot_releasePlots p _ q).trans (if_neg (mt mem_laRange.mp out))
  case grantCores =>
    subst hk
    exact ⟨_, exec_of_act rfl rfl (asks.act_ends (State.actGrantCores_ok pos few ways hl hm enough) asks.acts), State.answers_partOut .., State.partition_set ..⟩
  case releaseCores =>
    subst hk
    have run := State.actReleaseCores_ok pos few held
    refine ⟨_, exec_of_act rfl rfl (asks.act_ends run ((congrArg ChanState.acts (s.chan_resetCores _)).trans asks.acts)), State.answers_partOut .., State.partition_set .., fun c dropped => ?_⟩
    rw [State.core, State.partOut_atlas]
    have reset := (s.core_resetCores _ c).trans (if_pos dropped)
    exact ⟨congrArg CoreState.running reset, congrArg CoreState.pc reset⟩

end Sys2Proof.Machine
end

section
/-! SUPPORT. The memory controllers, the sweep and the partition registers of the pool (05 R144, R149-R169, 06 R177, R183, 02 R459): what each step makes of
the state; with these the statement about controllers. -/

namespace Sys2Proof.Machine

/-! ### Regulators and urgency (R158, R160) -/

section
variable (r : Regulator) (g c : Int) {fill : Nat}

theorem Regulator.epoch_slow (busy : 48 ≤ fill) (above : g < r.rate) : (r.epoch g c fill).rate = r.rate - (r.rate - g).tdiv 4 := by
  simp only [Regulator.epoch, busy, above, if_true]

theorem Regulator.epoch_bound (busy : 48 ≤ fill) (within : r.rate ≤ g) : (r.epoch g c fill).rate = r.rate := by
  simp only [Regulator.epoch, busy, Int.not_lt.mpr within, if_true, if_false]

theorem Regulator.epoch_fast (calm : fill < 32) : (r.epoch g c fill).rate = min c (r.rate + c.tdiv 64) := by
  have slack : ¬ 48 ≤ fill := by omega
  simp only [Regulator.epoch, slack, calm, if_true, if_false]

theorem Regulator.epoch_steady (lo : 32 ≤ fill) (hi : fill < 48) : (r.epoch g c fill).rate = r.rate := by
  have slack : ¬ 48 ≤ fill := by omega
  have loaded : ¬ fill < 32 := by omega
  simp only [Regulator.epoch, slack, loaded, if_false]

end

theorem execRegulatorEpoch_eq {s : State} {h : Fin 4} {p : Fin 16} {r : Regulator} (stands : Tbl.get none s.mem.regs (16 * h.val + p.val) = some r) (fill : Nat) :
    execRegulatorEpoch h p fill s = .next (({ s with mem := { s.mem with
      regs := Tbl.set none s.mem.regs (16 * h.val + p.val) (some (r.epoch (s.regG h.val p) (s.regC h.val p) fill)) } } : State).enterAll h.val) := by
  unfold execRegulatorEpoch
  dsimp only
  rw [stands]

/-- The level of a master once URGENCY_LEVEL_CHANGE has set it: a level of 0 is kept as none. -/
theorem find_urgency (l : List (RtMaster × Nat)) (m k : RtMaster) (n : Nat) :
    (((if n = 0 then l.filter (fun x => decide (x.1 ≠ m)) else (m, n) :: l.filter (fun x => decide (x.1 ≠ m))).find? (fun x => decide (x.1 = k))).map (·.2)).getD 0 =
      if k = m then n else ((l.find? (fun x => decide (x.1 = k))).map (·.2)).getD 0 := by
  have rest : (l.filter (fun x => decide (x.1 ≠ m))).find? (fun x => decide (x.1 = k)) = if k = m then none else l.find? (fun x => decide (x.1 = k)) := by
    rw [List.find?_filter]
    split
    · next own =>
      subst own
      exact List.find?_eq_none.mpr (by simp)
    · next other =>
      refine congrArg (List.find? · l) (funext fun x => ?_)
      by_cases named : x.1 = k
      · simp [named, other]
      · simp [named]
  by_cases own : k = m
  · by_cases zero : n = 0
    · rw [if_pos zero, rest, if_pos own, if_pos own, zero]
      rfl
    · rw [if_neg zero, own, if_pos rfl]
      simp
  · by_cases zero : n = 0
    · rw [if_pos zero, rest, if_neg own, if_neg own]
    · rw [if_neg zero, List.find?_cons_of_neg (by simpa using fun e => own e.symm), rest, if_neg own, if_neg own]

/-! ### Reads of a channel (R149, R154, R166) -/

/-- No operation of a churn waits for the line: there is nothing to apply before it is read or written. -/
theorem State.flushChurn_idle {s : State} {line : Nat} (idle : ∀ o ∈ s.mem.churn, o.line ≠ line) : s.flushChurn line = s := by
  have none : s.mem.churn.filter (fun o => decide (o.line = line)) = [] := List.filter_eq_nil_iff.mpr fun o mem => by simp [idle o mem]
  have all : s.mem.churn.filter (fun o => !decide (o.line = line)) = s.mem.churn := List.filter_eq_self.mpr fun o mem => by simp [idle o mem]
  unfold State.flushChurn
  simp [none, all]

/-- A clean read of a granule delivers it as it is held. -/
theorem State.readGranule_clean (s : State) (line g : Nat) :
    s.readGranule line g .clean = (bits (s.memLine line).1 (512 * g) 512, (s.memLine line).2.getLsbD g, s) := by
  unfold State.readGranule
  dsimp only
  cases poisoned : (s.memLine line).2.getLsbD g <;> rfl

/-- Two granules are the line. -/
theorem granules_append (d : Line) : (bits d (512 * 1) 512 ++ bits d (512 * 0) 512 : Line) = d := by
  refine BitVec.eq_of_getLsbD_eq fun i lt => ?_
  rw [BitVec.getLsbD_append]
  by_cases low : i < 512
  · simp [low]
  · have high : i - 512 < 512 := by omega
    simp only [low, decide_false, BitVec.getLsbD_extractLsb', high, decide_true, Bool.true_and]
    exact congrArg d.getLsbD (by omega)

theorem poison_append (p : BitVec 2) : (BitVec.ofBool (p.getLsbD 1) ++ BitVec.ofBool (p.getLsbD 0) : BitVec 2) = p := by
  revert p; decide

/-- A clean read delivers the line as memory holds it. -/
theorem State.readLine_clean {s : State} {line : Nat} (idle : ∀ o ∈ s.mem.churn, o.line ≠ line) : s.readLine line ⟨.clean, .clean⟩ = (s.memLine line, s) := by
  unfold State.readLine
  rw [State.flushChurn_idle idle]
  dsimp only
  split
  · rfl
  · simp only [State.readGranule_clean]
    rw [granules_append, poison_append]

section
variable {s : State} {u : Fin 384} {row : Option Nat} {r : MemReq} {k : Nat} (picked : (s.enterAll (u.val / 96)).pickReq u.val row = some (r, k))
  (can : (s.enterAll (u.val / 96)).canServe r = true) (e : EccPair)
include picked can

theorem execChannelRequestServed_taken (gone : r.target = .churn ∨ r.target = .moved) :
    execChannelRequestServed u e row s = .next ((s.enterAll (u.val / 96)).takeReq u.val r k) := by
  unfold execChannelRequestServed
  dsimp only
  rw [picked]
  dsimp only
  rw [if_neg (by simp [can]), if_pos gone]

theorem execChannelRequestServed_filled (waits : r.target ≠ .churn) (waits' : r.target ≠ .moved) {d : Line} {po : BitVec 2} {w : State}
    (read : ((s.enterAll (u.val / 96)).takeReq u.val r k).readLine r.line e = ((d, po), w)) : execChannelRequestServed u e row s = .next (w.txnFilled r d po).goOn := by
  unfold execChannelRequestServed
  dsimp only
  rw [picked]
  dsimp only
  rw [if_neg (by simp [can]), if_neg (by simp [waits, waits']), read]

end

/-! ### Scrubs (R151) -/

theorem execScrubRead_eq {s : State} {u : Fin 384} {g : BitVec 26} {q : Nat} (powered : s.powered = true) (up : s.unitUp u.val = true) (inside : g.toNat / 64 < 786432)
    (page : s.devicePage u.val (g.toNat / 64) = some q) (clean : Tbl.get false s.mem.poison (64 * q + g.toNat % 64) = false) {e : EccEvent}
    (trueRead : e = .clean ∨ e = .one ∨ e = .two) : ∃ d : BitVec 512,
    execScrubRead u g e s = .next (s.eccTake u.val (g.toNat / 64) (some (64 * q + g.toNat % 64)) d e).2.2 := by
  refine ⟨bits (s.memLine ((64 * q + g.toNat % 64) / 2)).1 (512 * ((64 * q + g.toNat % 64) % 2)) 512, ?_⟩
  unfold execScrubRead
  dsimp only
  rw [if_neg (by simp [powered, up]; omega), page]
  dsimp only
  rw [if_neg (by simp [clean])]
  rcases trueRead with rfl | rfl | rfl <;> rfl

/-! ### Channels out of service (R154) -/

theorem getLsbD_unit (u : Nat) {i : Nat} (hi : i < 384) : (BitVec.ofNat 384 (2 ^ u)).getLsbD i = decide (u = i) := by
  rw [BitVec.getLsbD_ofNat, Nat.testBit_two_pow, decide_eq_true hi, Bool.true_and]

/-- What stands when channel u leaves service, before the Atlas says so. -/
def State.withoutUnit (s : State) (u : Fin 384) : State :=
  ({ s with mem := { s.mem with
    unitsUp := s.mem.unitsUp &&& ~~~(BitVec.ofNat 384 (2 ^ u.val))
    unitsLost := s.mem.unitsLost ||| BitVec.ofNat 384 (2 ^ u.val) } } : State).report (mkReport 0x0025 (unitId 4 u.val) 0)

theorem State.unitUp_withoutUnit (s : State) (u : Fin 384) (v : Nat) : (s.withoutUnit u).unitUp v = (s.unitUp v && decide (v ≠ u.val)) := by
  change (s.mem.unitsUp &&& ~~~(BitVec.ofNat 384 (2 ^ u.val))).getLsbD v = (s.mem.unitsUp.getLsbD v && decide (v ≠ u.val))
  rw [BitVec.getLsbD_and, BitVec.getLsbD_not]
  by_cases hv : v < 384
  · rw [getLsbD_unit _ hv]
    simp [hv, eq_comm]
  · simp [BitVec.getLsbD_of_ge _ _ (Nat.le_of_not_lt hv)]

theorem State.unitsLost_withoutUnit (s : State) (u : Fin 384) : (s.withoutUnit u).mem.unitsLost.getLsbD u.val = true := by
  refine (getLsbD_or_unit s.mem.unitsLost u.val u.isLt).trans ?_
  simp

theorem execChannelOutOfService_eq {s : State} {u : Fin 384} (up : s.up = true) (serves : s.unitUp u.val = true) :
    execChannelOutOfService u s = .next (((s.withoutUnit u).atlasUpdate 7 ((s.withoutUnit u).partsWhere (fun x => x.sharesHub (u.val / 96)))).refactor) := by
  unfold execChannelOutOfService
  rw [if_neg (by simp [up, serves])]
  rfl

/-! ### Churn operations (R167-R169) -/

/-- A churn applies an operation that is not refused to its granule, where that reads clean. -/
theorem State.churnOne_clean {s : State} {o : ChurnOp} (taken : o.refused = false) (clean : (s.memLine o.line).2.getLsbD (o.off / 64) = false) :
    s.churnOne o .clean = (true, (s.charge o.part (some o.cmd) .churn 1).writeMem o.line
      (o.apply (putField 0 (512 * (o.off / 64)) 512 (bits (s.memLine o.line).1 (512 * (o.off / 64)) 512 : BitVec 512).toNat)) (byteMask o.off o.what.bytes) 0) := by
  have line : (s.charge o.part (some o.cmd) .churn 1).memLine o.line = s.memLine o.line := rfl
  unfold State.churnOne
  rw [if_neg (by simp [taken])]
  dsimp only
  rw [State.readGranule_clean, line, clean]
  rfl

theorem State.churnOne_refused {s : State} {o : ChurnOp} (refused : o.refused = true) (e : EccEvent) : s.churnOne o e = (false, s) := by
  unfold State.churnOne
  rw [if_pos refused]

theorem State.unitOf_of_mem {s t : State} (mem : t.mem = s.mem) (line : Nat) : t.unitOf line = s.unitOf line := by
  obtain ⟨_, m, _⟩ := s
  obtain ⟨_, m', _⟩ := t
  change m' = m at mem
  subst mem
  rfl

/-- What a write at a channel leaves in memory is what it makes of memory. -/
theorem State.writeMem_mem {s t : State} (mem : t.mem = s.mem) (line : Nat) (d : Line) (m : BitVec 128) (p : BitVec 2) :
    (t.writeMem line d m p).mem = (s.writeMem line d m p).mem := by
  have place : t.unitUp (t.unitOf line) = s.unitUp (s.unitOf line) := by
    rw [State.unitOf_of_mem mem, State.unitUp, State.unitUp, mem]
  unfold State.writeMem
  rw [place]
  split
  · simp only [mem]
  · exact mem

theorem State.writeMem_churn (s : State) (line : Nat) (d : Line) (m : BitVec 128) (p : BitVec 2) : (s.writeMem line d m p).mem.churn = s.mem.churn := by
  unfold State.writeMem
  split <;> rfl

section
variable {s : State} {u : Fin 384} {o : ChurnOp}
  (due : s.mem.churn.find? (fun o => decide (o.unit = u.val) && !s.mem.reqs.any (fun r => decide (r.seq = o.seq))) = some o)
include due

theorem execChurnOperation_clean (taken : o.refused = false) (clean : (s.memLine o.line).2.getLsbD (o.off / 64) = false) :
    ∃ t : State, execChurnOperation ⟨u, .clean⟩ s = .next t ∧ t.mem.churn = s.mem.churn.erase o
      ∧ t.mem.bytes = (s.writeMem o.line (o.apply (putField 0 (512 * (o.off / 64)) 512 (bits (s.memLine o.line).1 (512 * (o.off / 64)) 512 : BitVec 512).toNat))
        (byteMask o.off o.what.bytes) 0).mem.bytes := by
  unfold execChurnOperation
  rw [due]
  dsimp only
  rw [State.churnOne_clean taken clean]
  refine ⟨_, rfl, ?_, ?_⟩
  · exact congrArg (List.erase · o) (State.writeMem_churn ..)
  · change ((s.charge o.part (some o.cmd) .churn 1).writeMem o.line _ _ _).mem.bytes = _
    rw [State.writeMem_mem (s := s) (t := s.charge o.part (some o.cmd) .churn 1) rfl]

/-- The state in which an operation that was refused no longer waits. -/
def State.churnGone (s : State) (o : ChurnOp) : State := { s with mem := { s.mem with churn := s.mem.churn.erase o } }

theorem execChurnOperation_refused (refused : o.refused = true) (e : EccEvent) : execChurnOperation ⟨u, e⟩ s = (match s.cmd o.cmd with
    | some c => .next ((((s.churnGone o).setCmd c.unfinished).consumePoison c.unfinished (2 * o.line + o.off / 64) (unitId 4 u.val)).settleErrors c.ch)
    | none => .next ((s.churnGone o).poisonRead o.part (2 * o.line + o.off / 64) (unitId 4 u.val))) := by
  unfold execChurnOperation
  rw [due]
  dsimp only
  rw [State.churnOne_refused refused]
  rfl

end

/-! ### The sweep (R183) -/

/-- What a sweep of a set makes of a line (R183). -/
def State.ages (s : State) (slice set : Nat) (l : LlcLine) : LlcLine :=
  if l.slice = slice ∧ l.set = set ∧ l.cls = .keep then
    (if (s.ways l.owner).keepLease ≤ l.idle then { l with cls := .normal, idle := 0 } else { l with idle := l.idle + 1 }) else l

/-- The sweep's own order of the cases. -/
theorem State.ages_eq (s : State) (slice set : Nat) (l : LlcLine) : s.ages slice set l =
    if l.slice ≠ slice ∨ l.set ≠ set ∨ l.cls ≠ .keep then l
    else if (s.ways l.owner).keepLease + 1 ≤ l.idle + 1 then { l with cls := .normal, idle := 0 } else { l with idle := l.idle + 1 } := by
  by_cases swept : l.slice = slice ∧ l.set = set ∧ l.cls = .keep
  · obtain ⟨slice, set, cls⟩ := swept
    simp [State.ages, slice, set, cls]
  · rw [State.ages, if_neg swept, if_pos (by tauto)]

theorem execKeepSweep_eq {s : State} {slice : Fin 96} (powered : s.powered = true) (up : s.hubUp (slice.val / 24) = true) :
    execKeepSweep slice s = .next { s with mem := { s.mem with
      llc := s.mem.llc.map (s.ages slice.val (Tbl.get 0 s.mem.sweep slice.val))
      sweep := Tbl.set 0 s.mem.sweep slice.val ((Tbl.get 0 s.mem.sweep slice.val + 1) % 32768) } } := by
  unfold execKeepSweep
  rw [if_neg (by simp [powered, up])]
  simp only [← State.ages_eq]

/-! ### Ways of partitions (R177) -/

/-- The mask of a write shares a way with another partition's, or has too few ways for a holder of cores (R177). -/
def State.waysBad (s : State) (p : Fin 16) (m : BitVec 16) : Bool :=
  allParts.any (fun q => decide (q ≠ p) && decide ((s.ways q).mask &&& m ≠ 0)) || (decide (pop m < 2) && decide ((s.partition p).cores ≠ []))

theorem mem_allParts (p : Fin 16) : p ∈ allParts := by
  revert p; decide

theorem State.waysBad_false {s : State} {p : Fin 16} {m : BitVec 16} (apart : ∀ q : Fin 16, q ≠ p → (s.ways q).mask &&& m = 0)
    (enough : 2 ≤ pop m ∨ (s.partition p).cores = []) : s.waysBad p m = false := by
  have shares : allParts.any (fun q => decide (q ≠ p) && decide ((s.ways q).mask &&& m ≠ 0)) = false := List.any_eq_false.mpr fun q _ => by
    by_cases own : q = p
    · simp [own]
    · simp [own, apart q own]
  rcases enough with many | free
  · rw [State.waysBad, shares, decide_eq_false (Nat.not_lt.mpr many)]
    rfl
  · rw [State.waysBad, shares, decide_eq_false (not_not.mpr free), Bool.and_false]
    rfl

theorem State.waysBad_true {s : State} {p : Fin 16} {m : BitVec 16}
    (bad : (∃ q : Fin 16, q ≠ p ∧ (s.ways q).mask &&& m ≠ 0) ∨ (pop m < 2 ∧ (s.partition p).cores ≠ [])) : s.waysBad p m = true := by
  rcases bad with ⟨q, other, shares⟩ | ⟨few, holds⟩
  · have any : allParts.any (fun q => decide (q ≠ p) && decide ((s.ways q).mask &&& m ≠ 0)) = true :=
      List.any_eq_true.mpr ⟨q, mem_allParts q, Bool.and_eq_true_iff.mpr ⟨decide_eq_true other, decide_eq_true shares⟩⟩
    rw [State.waysBad, any, Bool.true_or]
  · simp [State.waysBad, few, holds]

/-- The new ways of the partition that LLC_PART_SELECT names. -/
theorem State.ways_writeWays (s : State) (n : Fin 2) (v : Word) (q : Fin 16) : (s.writeWays n v).ways q =
    if q = toPart (s.port n).llcSelect.toNat then
      ⟨if s.waysBad q (bits v 0 16) then (s.ways q).mask else bits v 0 16, if field v 16 4 ≤ 12 then field v 16 4 else (s.ways q).keepCap, field v 20 2,
        s.waysBad q (bits v 0 16) || ((s.ways q).refused && !v.getLsbD 22)⟩
    else s.ways q := by
  split
  · next own =>
    subst own
    exact Tbl.get_set_same ..
  · next other => exact Tbl.get_set_ne _ _ _ _ _ (fun same => other (Fin.ext same))

/-! ### Band modes (R144, R459) -/

theorem getLsbD_foldl_unless {w : Nat} (free : Nat → Bool) (l : List Nat) (m : BitVec w) {i : Nat} (hi : i < w) :
    (l.foldl (fun m b => if free b then m else m ||| BitVec.ofNat w (2 ^ b)) m).getLsbD i = (m.getLsbD i || (decide (i ∈ l) && !free i)) := by
  induction l generalizing m with
  | nil => simp
  | cons b l ih =>
    have first : (if free b then m else m ||| BitVec.ofNat w (2 ^ b)).getLsbD i = (m.getLsbD i || (decide (b = i) && !free b)) := by
      cases free b
      · rw [if_neg Bool.false_ne_true, BitVec.getLsbD_or, BitVec.getLsbD_ofNat, Nat.testBit_two_pow, decide_eq_true hi, Bool.true_and, Bool.not_false, Bool.and_true]
      · simp
    rw [List.foldl_cons, ih, first]
    by_cases here : b = i
    · subst here
      cases free b <;> simp
    · simp [here, Ne.symm here]

/-- The bands that keep their mode (R144). -/
def State.bandsHeld (s : State) : BitVec 47 := (List.range 47).foldl (fun m b => if s.bandFree b then m else m ||| BitVec.ofNat 47 (2 ^ b)) 0

theorem State.getLsbD_bandsHeld (s : State) {b : Nat} (hb : b < 47) : s.bandsHeld.getLsbD b = !s.bandFree b := by
  rw [State.bandsHeld, getLsbD_foldl_unless _ _ _ hb]
  simp [hb]

theorem State.bandMode_writeBands (s : State) (v : Word) {b : Nat} (hb : b < 47) :
    (s.writeBands v).mem.bandMode.getLsbD b = if s.bandFree b then v.getLsbD b else s.mem.bandMode.getLsbD b := by
  change (((bits v 0 47 : BitVec 47) &&& ~~~s.bandsHeld) ||| (s.mem.bandMode &&& s.bandsHeld)).getLsbD b = _
  simp only [BitVec.getLsbD_or, BitVec.getLsbD_and, BitVec.getLsbD_not, s.getLsbD_bandsHeld hb, BitVec.getLsbD_extractLsb', hb]
  cases s.bandFree b <;> simp

theorem State.bandRefused_writeBands (s : State) (v : Word) {b : Nat} (hb : b < 47) (held : s.bandFree b = false) (change : v.getLsbD b ≠ s.mem.bandMode.getLsbD b) :
    (s.writeBands v).mem.bandRefused = true := by
  have refused : ((bits v 0 47 : BitVec 47) ^^^ s.mem.bandMode) &&& s.bandsHeld ≠ 0 := fun zero => by
    have bit := congrArg (BitVec.getLsbD · b) zero
    simp only [BitVec.getLsbD_and, BitVec.getLsbD_xor, s.getLsbD_bandsHeld hb, held, BitVec.getLsbD_extractLsb', hb] at bit
    simp [change] at bit
  change (decide (((bits v 0 47 : BitVec 47) ^^^ s.mem.bandMode) &&& s.bandsHeld ≠ 0) || _) = true
  rw [decide_eq_true refused, Bool.true_or]

/-- Settles O36: each step of a controller on a request, a scrub, an operation or a register that meets its condition. -/
theorem controllersComplete : Obligations.ControllersComplete := by
  unfold Obligations.ControllersComplete
  intro s
  refine ⟨fun h p fill r stands => ?regulator, fun m percent powered => ?urgency, fun u e row r k picked can v taken => ?served,
    fun u g q powered up inside page clean => ?scrub, fun u up serves => ?lost, fun u o due => ⟨fun taken clean => ?churned, fun refused e t gone => ?refused⟩,
    fun slice powered up => ?sweep, fun n v p serves named => ?ways, fun n v serves => ?bands⟩
  case regulator =>
    have set := Tbl.get_set_same none s.mem.regs (16 * h.val + p.val) (some (r.epoch (s.regG h.val p) (s.regC h.val p) fill))
    exact ⟨_, _, execRegulatorEpoch_eq stands fill, set, rfl, Regulator.epoch_slow r _ _, Regulator.epoch_bound r _ _, Regulator.epoch_fast r _ _,
      Regulator.epoch_steady r _ _, rfl, rfl⟩
  case urgency =>
    refine ⟨_, if_neg (by simp [powered]), ?_, fun k other => ?_⟩
    · exact (find_urgency s.mem.urgency m m _).trans (if_pos rfl)
    · exact (find_urgency s.mem.urgency m k _).trans (if_neg other)
  case served =>
    subst taken
    refine ⟨execChannelRequestServed_taken picked can e, fun waits waits' => ⟨fun d po w read => execChannelRequestServed_filled picked can e waits waits' read, ?_⟩⟩
    rintro rfl idle
    exact execChannelRequestServed_filled picked can _ waits waits' (State.readLine_clean idle)
  case scrub =>
    obtain ⟨_, held⟩ := execScrubRead_eq powered up inside page clean (.inl rfl)
    obtain ⟨_, one⟩ := execScrubRead_eq powered up inside page clean (.inr (.inl rfl))
    obtain ⟨_, two⟩ := execScrubRead_eq powered up inside page clean (.inr (.inr rfl))
    exact ⟨held, _, one, rfl, _, two, rfl⟩
  case lost =>
    refine ⟨s.withoutUnit u, ?_, s.unitsLost_withoutUnit u, fun v other => ?_, execChannelOutOfService_eq up serves⟩
    · simp [State.unitUp_withoutUnit]
    · simp [State.unitUp_withoutUnit, other]
  case churned => exact execChurnOperation_clean due taken clean
  case refused =>
    subst gone
    have run := execChurnOperation_refused due refused e
    refine ⟨fun c stands => run.trans ?_, fun none => run.trans ?_⟩
    · rw [stands]; rfl
    · rw [none]; rfl
  case sweep => exact ⟨_, _, execKeepSweep_eq powered up, rfl, Tbl.get_set_same .., fun l => rfl⟩
  case ways =>
    have run : exec (.llcPartWays n v) s = .next (s.writeWays n v) := congrArg Host.Outcome.next (if_pos serves)
    refine ⟨fun apart enough cap => ⟨_, run, ?_⟩, fun bad => ⟨_, run, ?_⟩⟩
    · have own := (s.ways_writeWays n v p).trans (if_pos named)
      rw [State.waysBad_false apart enough] at own
      refine ⟨by rw [own]; rfl, by rw [own, if_pos cap], by rw [own], fun q other => ?_⟩
      exact (s.ways_writeWays n v q).trans (if_neg (named ▸ other))
    · have own := (s.ways_writeWays n v p).trans (if_pos named)
      rw [State.waysBad_true bad] at own
      exact ⟨by rw [own]; rfl, by rw [own]; rfl⟩
  case bands =>
    exact ⟨_, congrArg Host.Outcome.next (if_pos serves), fun b hb => ⟨s.bandMode_writeBands v hb, s.bandRefused_writeBands v hb⟩⟩

end Sys2Proof.Machine
end

section
/-! SUPPORT. Lines present in the slices (06 R175, R181, R186-R189): a line that is replaced by its way is found as it was put, and what a hit notes. -/

namespace Sys2Proof.Machine

/-! ### Lines by their ways -/

theorem State.llcFind_spec {s : State} {n : Nat} {l : LlcLine} (found : s.llcFind n = some l) : l.remote = none ∧ l.line = n := by
  simpa using List.find?_some found

/-- An entry that takes the way of the line found is found in its place. -/
theorem find_replaced {t : List LlcLine} {n : Nat} {l x : LlcLine} (found : t.find? (fun l => l.remote.isNone && decide (l.line = n)) = some l) (way : l.sameWay x = true)
    (home : x.remote = none) (line : x.line = n) :
    (t.map (fun y => if y.sameWay x then x else y)).find? (fun l => l.remote.isNone && decide (l.line = n)) = some x := by
  have names : (x.remote.isNone && decide (x.line = n)) = true := by simp [home, line]
  induction t with
  | nil => simp at found
  | cons y t ih =>
    rw [List.map_cons]
    by_cases same : y.sameWay x = true
    · rw [if_pos same]
      exact List.find?_cons_of_pos (p := fun l : LlcLine => l.remote.isNone && decide (l.line = n)) names
    · rw [if_neg same]
      by_cases first : (y.remote.isNone && decide (y.line = n)) = true
      · rw [List.find?_cons_of_pos (p := fun l : LlcLine => l.remote.isNone && decide (l.line = n)) first] at found
        exact absurd (Option.some.inj found ▸ way) same
      · rw [List.find?_cons_of_neg (p := fun l : LlcLine => l.remote.isNone && decide (l.line = n)) first] at found ⊢
        exact ih found

/-- An entry of the same way, line and home. -/
def LlcLine.inPlace (l x : LlcLine) : Prop := x.slice = l.slice ∧ x.set = l.set ∧ x.way = l.way ∧ x.remote = l.remote ∧ x.line = l.line

theorem LlcLine.sameWay_of_inPlace {l x : LlcLine} (place : l.inPlace x) : l.sameWay x = true := by
  obtain ⟨slice, set, way, -, -⟩ := place
  simp [LlcLine.sameWay, slice, set, way]

theorem LlcLine.inPlace_setRec (l : LlcLine) (d : Fin 2) (r : DieRec) : l.inPlace (l.setRec d r) := by
  unfold LlcLine.setRec
  split <;> exact ⟨rfl, rfl, rfl, rfl, rfl⟩

/-- A line that is put in its own place is found as it was put. -/
theorem State.llcFind_llcPut {s : State} {n : Nat} {l x : LlcLine} (found : s.llcFind n = some l) (place : l.inPlace x) : (s.llcPut x).llcFind n = some x := by
  obtain ⟨home, line⟩ := State.llcFind_spec found
  obtain ⟨-, -, -, home', line'⟩ := id place
  exact find_replaced found (LlcLine.sameWay_of_inPlace place) (home'.trans home) (line'.trans line)

theorem State.llcFind_congr {s t : State} (llc : t.mem.llc = s.mem.llc) (n : Nat) : t.llcFind n = s.llcFind n := by
  rw [State.llcFind, State.llcFind, llc]

/-! ### Records (R188) -/

section
variable (l : LlcLine) (d : Fin 2) (r : DieRec)

@[simp] theorem LlcLine.recOf_setRec : (l.setRec d r).recOf d = r := by
  unfold LlcLine.setRec LlcLine.recOf
  split <;> rfl

end

/-! ### What a hit notes (R181, R183, R305) -/

/-- What a hit writes beside the line: its class, age and idle count, the shadow directory and the counts. -/
structure HitNotes where
  cls : LineClass
  idle : Nat
  stamp : Nat
  shadow : Tbl (List (Nat × LineClass))
  shadowLost : Tbl Nat
  keepDemoted : Tbl Nat
  llcClock : Nat

def LlcLine.noted (l : LlcLine) (x : HitNotes) : LlcLine := { l with cls := x.cls, idle := x.idle, stamp := x.stamp }

def State.noted (s : State) (l : LlcLine) (x : HitNotes) : State :=
  { s with mem := { s.mem with
    llc := s.mem.llc.map (fun y => if y.sameWay (l.noted x) then l.noted x else y)
    shadow := x.shadow, shadowLost := x.shadowLost, keepDemoted := x.keepDemoted, llcClock := x.llcClock } }

/-- A request leaves the shadow directory and its count of losses changed at most. -/
theorem State.shadowNote_eq (s : State) (p : Fin 16) (slice set tag hint : Nat) (hit : Bool) :
    ∃ sh lost, s.shadowNote p slice set tag hint hit = { s with mem := { s.mem with shadow := sh, shadowLost := lost } } := by
  unfold State.shadowNote
  split
  · exact ⟨s.mem.shadow, s.mem.shadowLost, rfl⟩
  · exact ⟨_, _, rfl⟩

/-- What a hit writes stands in the stead of what an earlier note wrote. -/
theorem State.noted_of_shadow {s u : State} {sh : Tbl (List (Nat × LineClass))} {lost : Tbl Nat} (note : u = { s with mem := { s.mem with shadow := sh, shadowLost := lost } })
    (l : LlcLine) (x : HitNotes) : u.noted l x = s.noted l x := by
  subst note
  rfl

/-- A line that is put under its new class and age, the clock moving on, notes. -/
theorem State.put_noted {s t : State} {l : LlcLine} (noted : ∀ x, t.noted l x = s.noted l x) (c : LineClass) (stamp clock : Nat) :
    ∃ x, { (t.llcPut { l with cls := c, idle := 0, stamp := stamp }) with
      mem := { (t.llcPut { l with cls := c, idle := 0, stamp := stamp }).mem with llcClock := clock } } = s.noted l x := by
  refine ⟨⟨c, 0, stamp, t.mem.shadow, t.mem.shadowLost, t.mem.keepDemoted, clock⟩, ?_⟩
  rw [← noted]
  rfl

/-- A hit notes, and changes nothing else. -/
theorem State.llcHit_noted (s : State) (p : Fin 16) (l : LlcLine) (hint : Nat) : ∃ x, s.llcHit p l hint = s.noted l x := by
  obtain ⟨sh, lost, shadowed⟩ := s.shadowNote_eq p l.slice l.set l.line hint true
  refine Exists.imp (fun x => (Eq.trans · (State.noted_of_shadow shadowed l x))) ?_
  unfold State.llcHit
  generalize s.shadowNote p l.slice l.set l.line hint true = u
  dsimp only
  split
  · exact ⟨⟨l.cls, 0, l.stamp, u.mem.shadow, u.mem.shadowLost, u.mem.keepDemoted, u.mem.llcClock⟩, rfl⟩
  · split
    · exact State.put_noted (t := u.countDemoted p) (fun _ => rfl) _ _ _
    · exact State.put_noted (t := u) (fun _ => rfl) _ _ _

theorem State.llcFind_noted {s : State} {n : Nat} {l : LlcLine} (found : s.llcFind n = some l) (x : HitNotes) : (s.noted l x).llcFind n = some (l.noted x) :=
  State.llcFind_llcPut (x := l.noted x) found ⟨rfl, rfl, rfl, rfl, rfl⟩

end Sys2Proof.Machine
end

section
/-! SUPPORT. Requests and evictions of the dies, and pushes (06 R175, R186-R189, R192-R195, R199): what the home makes of each; with these the statement about
the dies' requests. -/

namespace Sys2Proof.Machine

/-! ### Copies of a die -/

@[simp] theorem State.dieLine_setDieLine (s : State) (n : Nat) (d : Fin 2) (x : Option DieLine) : (s.setDieLine n d x).dieLine n d = x := Tbl.get_set_same ..
@[simp] theorem State.evEntry_setEvEntry (s : State) (n : Nat) (d : Fin 2) (x : Option EvEntry) : (s.setEvEntry n d x).evEntry n d = x := Tbl.get_set_same ..

section
variable {s : State} {n : Nat} {d : Fin 2} {c : DieLine} (p : Fin 16) (who : CoreAsk)

/-- The die's copy once a core has taken it. -/
def DieLine.taken (c : DieLine) (who : CoreAsk) : DieLine := { c with l2 := c.l2 ||| coreBit who.core, l1 := c.l1 ||| coreBit who.core }

theorem State.coreTake_clean (held : s.dieLine n d = some c) (clean : c.poison.getLsbD who.granule.val = false) :
    s.coreTake d n p who = s.setDieLine n d (some (c.taken who)) := by
  unfold State.coreTake
  rw [held]
  exact if_neg (by simp [clean])

/-- Poison faults the core; the copy and the slice are as without it. -/
theorem State.coreTake_mem (held : s.dieLine n d = some c) : (s.coreTake d n p who).mem = (s.setDieLine n d (some (c.taken who))).mem := by
  unfold State.coreTake
  rw [held]
  dsimp only
  split
  · unfold State.poisonRead
    split <;> rfl
  · rfl

theorem State.dieLine_coreTake (held : s.dieLine n d = some c) : (s.coreTake d n p who).dieLine n d = some (c.taken who) := by
  rw [State.dieLine, State.coreTake_mem p who held]
  exact State.dieLine_setDieLine ..

end

/-! ### Grants (R189) -/

section
variable {s : State} {n : Nat} {l : LlcLine} (found : s.llcFind n = some l) (d : Fin 2) (p : Fin 16) (who : CoreAsk)
include found

theorem State.grantDie_eq (unique : Bool) {ex : Bool} (excl : (unique || decide (l.recOf (otherDie d) = .i)) = ex) :
    s.grantDie d n unique = (s.llcPut (l.setRec d (if ex then .x else .s))).setDieLine n d (some ⟨if ex then .e else .s, l.data, l.poison, 0, 0⟩) := by
  unfold State.grantDie
  rw [found]
  dsimp only
  rw [excl]

/-- A line present is supplied to a die, and its core takes it. -/
theorem State.dieLine_granted (unique : Bool) {ex : Bool} (excl : (unique || decide (l.recOf (otherDie d) = .i)) = ex) :
    ((s.grantDie d n unique).coreTake d n p who).dieLine n d = some ⟨if ex then .e else .s, l.data, l.poison, coreBit who.core, coreBit who.core⟩ := by
  rw [State.grantDie_eq found d unique excl]
  refine (State.dieLine_coreTake p who (State.dieLine_setDieLine ..)).trans ?_
  simp [DieLine.taken]

theorem State.llcFind_granted (unique : Bool) {ex : Bool} (excl : (unique || decide (l.recOf (otherDie d) = .i)) = ex) :
    ((s.grantDie d n unique).coreTake d n p who).llcFind n = some (l.setRec d (if ex then .x else .s)) := by
  rw [State.grantDie_eq found d unique excl]
  refine (State.llcFind_congr (congrArg MemState.llc (State.coreTake_mem p who (State.dieLine_setDieLine ..))) n).trans ?_
  exact State.llcFind_llcPut found (l.inPlace_setRec d _)

/-- An upgrade of a die that still holds its copy: the core writes, and the home's copy is stale. -/
theorem State.endUpg_held {c : DieLine} (held : s.dieLine n d = some c) (holds : l.recOf d ≠ .i) (w : Line) (m : BitVec 128) :
    s.endUpg d n p who w m = (s.llcPut { l.setRec d .x with hd := .stale }).setDieLine n d
      (some ⟨.m, mergeLine c.data w m, poisonAfter c.poison m 0, coreBit who.core, coreBit who.core⟩) := by
  have held' : (s.llcPut { l.setRec d .x with hd := .stale }).dieLine n d = some c := held
  unfold State.endUpg
  rw [found, if_pos (by simp [holds])]
  unfold State.grantM State.coreWrite
  rw [found]
  dsimp only
  rw [held']

theorem State.endUpg_lost (lost : l.recOf d = .i) (w : Line) (m : BitVec 128) : s.endUpg d n p who w m = (s.grantDie d n true).coreTake d n p who := by
  unfold State.endUpg
  rw [found]
  exact if_neg (by simp [lost])

end

/-! ### Requests to a channel and to the other die -/

/-- A request that a channel's queue takes is the request it was. -/
def MemReq.Same (x y : MemReq) : Prop := y.line = x.line ∧ y.part = x.part ∧ y.cls = x.cls ∧ y.target = x.target

/-- A request that enters its queue writes the queue and the regulators alone. -/
theorem State.enterReq_eq (s : State) (r : MemReq) : ∃ (f : MemReq → MemReq) (regs : Tbl (Option Regulator)),
    s.enterReq r = { s with mem := { s.mem with reqs := s.mem.reqs.map f, regs := regs } } ∧ ∀ x : MemReq, x.Same (f x) := by
  have stays : ∃ (f : MemReq → MemReq) (regs : Tbl (Option Regulator)), s = { s with mem := { s.mem with reqs := s.mem.reqs.map f, regs := regs } } ∧ ∀ x : MemReq, x.Same (f x) :=
    ⟨id, s.mem.regs, by rw [List.map_id], fun x => ⟨rfl, rfl, rfl, rfl⟩⟩
  have same (x : MemReq) : x.Same (if x.seq = r.seq then { x with entered := true } else x) := by
    split <;> exact ⟨rfl, rfl, rfl, rfl⟩
  unfold State.enterReq
  dsimp only
  cases Tbl.get none s.mem.regs (16 * (r.unit / 96) + r.part.val) with
  | none =>
    dsimp only
    split
    · exact stays
    · exact ⟨_, _, rfl, same⟩
  | some g =>
    dsimp only
    split
    · exact stays
    · exact ⟨_, _, rfl, same⟩

/-- A request to a channel stands in its queue, and nothing changes beside the queue, its numbers and the regulators. -/
theorem State.chanAsk_eq (s : State) (n : Nat) (p : Fin 16) (cls : ReqClass) (bytes : Nat) (target : FillFor) : ∃ reqs seq regs,
    s.chanAsk n p cls bytes target = { s with mem := { s.mem with reqs := reqs, reqSeq := seq, regs := regs } }
      ∧ reqs.length = s.mem.reqs.length + 1 ∧ ∃ r ∈ reqs, r.line = n ∧ r.part = p ∧ r.cls = cls ∧ r.target = target := by
  unfold State.chanAsk
  dsimp only
  obtain ⟨f, regs, entered, same⟩ := State.enterReq_eq ({ s with mem := { s.mem with
    reqs := s.mem.reqs ++ [⟨s.mem.reqSeq, s.unitOf n, n, bytes, p, cls, false, 0, target⟩], reqSeq := s.mem.reqSeq + 1 } }) ⟨s.mem.reqSeq, s.unitOf n, n, bytes, p, cls, false, 0, target⟩
  refine ⟨_, _, regs, entered, ?_, _, List.mem_map_of_mem (List.mem_append_right _ (List.mem_singleton_self _)), same _⟩
  rw [List.length_map, List.length_append]
  rfl

theorem State.chanAsk_reqs (s : State) (n : Nat) (p : Fin 16) (cls : ReqClass) (bytes : Nat) (target : FillFor) :
    (s.chanAsk n p cls bytes target).mem.reqs.length = s.mem.reqs.length + 1
      ∧ ∃ r ∈ (s.chanAsk n p cls bytes target).mem.reqs, r.line = n ∧ r.part = p ∧ r.cls = cls ∧ r.target = target := by
  obtain ⟨reqs, seq, regs, asked, one, there⟩ := s.chanAsk_eq n p cls bytes target
  rw [asked]
  exact ⟨one, there⟩

theorem State.chanAsk_txns (s : State) (n : Nat) (p : Fin 16) (cls : ReqClass) (bytes : Nat) (target : FillFor) :
    (s.chanAsk n p cls bytes target).mem.txns = s.mem.txns := congrArg Tenure.txns (s.chanAsk_tenure n p cls bytes target)

theorem State.txns_setTxn (s : State) (n : Nat) (t : Option Txn) : Tbl.get none (s.setTxn n t).mem.txns n = t := Tbl.get_set_same ..

theorem State.snoops_sendSnoop (s : State) (n : Nat) (d : Fin 2) (q : Snoop) : Tbl.get none (s.sendSnoop n d q).mem.snoops (dieKey n d) = some q :=
  Tbl.get_set_same none s.mem.snoops (dieKey n d) (some q)

theorem State.txns_openTxn (s : State) (n : Nat) (k : TxnKind) (q : Snoop) (w : Bool × Bool) :
    Tbl.get none (s.openTxn n k q w).mem.txns n = some ⟨k, w.1, w.2, false⟩ := State.txns_setTxn ..

/-- A request of a die that found no line: it waits for memory under a transaction of its own. -/
theorem State.asked (s : State) (n : Nat) (p : Fin 16) (k : TxnKind) (target : FillFor) :
    let t := (s.setTxn n (some ⟨k, false, false, true⟩)).chanAsk n p .core 128 target
    Tbl.get none t.mem.txns n = some ⟨k, false, false, true⟩ ∧ t.mem.reqs.length = s.mem.reqs.length + 1
      ∧ ∃ r ∈ t.mem.reqs, r.line = n ∧ r.part = p ∧ r.cls = .core ∧ r.target = target := by
  refine ⟨?_, State.chanAsk_reqs ..⟩
  rw [State.chanAsk_txns]
  exact State.txns_setTxn ..

/-- The other die is snooped for a die's request, under a transaction that awaits its response. -/
theorem State.snooped (s : State) (n : Nat) (k : TxnKind) (q : Snoop) (d : Fin 2) :
    let t := s.openTxn n k q (decide (d = 1), decide (d = 0))
    Tbl.get none t.mem.snoops (dieKey n (otherDie d)) = some q ∧ Tbl.get none t.mem.txns n = some ⟨k, decide (d = 1), decide (d = 0), false⟩ := by
  match d with
  | 0 => exact ⟨s.snoops_sendSnoop n 1 q, State.txns_openTxn ..⟩
  | 1 => exact ⟨s.snoops_sendSnoop n 0 q, State.txns_openTxn ..⟩

/-! ### RDS, RDU and UPG (R186, R187, R193) -/

theorem State.tagEvent_none (s : State) (n : Nat) : s.tagEvent n .none = s := by
  unfold State.tagEvent
  cases s.llcFind n <;> rfl

/-- The energy of a die's read of a line is charged (R434). -/
def State.charged (s : State) (p : Fin 16) : State := s.charge p none .memory 128

theorem State.llcFind_charged (s : State) (p : Fin 16) (n : Nat) : (s.charged p).llcFind n = s.llcFind n := rfl

section
variable {s : State} {d : Fin 2} {line : LineNo} {p : Fin 16} {who : CoreAsk} (asks : s.coreAsks d line.toNat p who = true)
include asks

theorem execRds_far (far : s.reach p line.toNat false = false) : execRds d line ⟨p, who⟩ .none s = .next (s.coreFault d line.toNat who) := by
  unfold execRds
  dsimp only
  rw [if_neg (by simp [asks]), if_pos (by simp [far])]

theorem execRdu_far (far : s.reach p line.toNat true = false) : execRdu d line ⟨p, who⟩ .none s = .next (s.coreFault d line.toNat who) := by
  unfold execRdu
  dsimp only
  rw [if_neg (by simp [asks]), if_pos (by simp [far])]

theorem execUpg_far (far : s.reach p line.toNat true = false) (w : CoreStore) : execUpg d line ⟨p, who⟩ w s = .next (s.coreFault d line.toNat who) := by
  unfold execUpg
  dsimp only
  rw [if_neg (by simp [asks]), if_pos (by simp [far])]

section
variable (reach : s.reach p line.toNat false = true)
include reach

theorem execRds_copy {c : DieLine} (held : s.dieLine line.toNat d = some c) : execRds d line ⟨p, who⟩ .none s = .next (s.coreTake d line.toNat p who) := by
  unfold execRds
  dsimp only
  rw [if_neg (by simp [asks]), if_neg (by simp [reach]), if_pos (by simp [held])]

variable (absent : s.dieLine line.toNat d = none) (may : s.dieMay d line.toNat = true)
include absent may

theorem execRds_miss (miss : s.llcFind line.toNat = none) : execRds d line ⟨p, who⟩ .none s =
    .next (((s.charged p).setTxn line.toNat (some ⟨.rds d p who, false, false, true⟩)).chanAsk line.toNat p .core 128 (.die d false who)) := by
  unfold execRds
  dsimp only
  rw [if_neg (by simp [asks]), if_neg (by simp [reach]), if_neg (by simp [absent]), if_neg (by simp [may]), State.tagEvent_none, ← State.charged, State.llcFind_charged, miss]

theorem execRds_hit {l : LlcLine} (found : s.llcFind line.toNat = some l) : execRds d line ⟨p, who⟩ .none s =
    if l.recOf (otherDie d) = .o ∨ l.recOf (otherDie d) = .x then
      .next (((s.charged p).llcHit p l 0).openTxn line.toNat (.rds d p who) .snpS (decide (d = 1), decide (d = 0)))
    else .next ((((s.charged p).llcHit p l 0).grantDie d line.toNat false).coreTake d line.toNat p who) := by
  unfold execRds
  dsimp only
  rw [if_neg (by simp [asks]), if_neg (by simp [reach]), if_neg (by simp [absent]), if_neg (by simp [may]), State.tagEvent_none, ← State.charged, State.llcFind_charged, found]

end

section
variable (reach : s.reach p line.toNat true = true)
include reach

theorem execRdu_copy {c : DieLine} (held : s.dieLine line.toNat d = some c) (own : c.st = .m ∨ c.st = .e) : execRdu d line ⟨p, who⟩ .none s =
    .next ((s.setDieLine line.toNat d (some { c with l2 := 0, l1 := 0 })).coreTake d line.toNat p who) := by
  unfold execRdu
  dsimp only
  rw [if_neg (by simp [asks]), if_neg (by simp [reach]), held]
  exact if_pos own

theorem execUpg_own {c : DieLine} (held : s.dieLine line.toNat d = some c) (own : c.st = .m ∨ c.st = .e) (w : CoreStore) : execUpg d line ⟨p, who⟩ w s =
    .next (s.setDieLine line.toNat d (some ⟨.m, mergeLine c.data w.data w.mask, poisonAfter c.poison w.mask 0, coreBit who.core, coreBit who.core⟩)) := by
  unfold execUpg State.coreWrite
  dsimp only
  rw [if_neg (by simp [asks]), if_neg (by simp [reach]), held, if_pos (by simp [own])]

variable (may : s.dieMay d line.toNat = true)
include may

section
variable (absent : s.dieLine line.toNat d = none)
include absent

theorem execRdu_miss (miss : s.llcFind line.toNat = none) : execRdu d line ⟨p, who⟩ .none s =
    .next (((s.charged p).setTxn line.toNat (some ⟨.rdu d p who, false, false, true⟩)).chanAsk line.toNat p .core 128 (.die d true who)) := by
  unfold execRdu
  dsimp only
  rw [if_neg (by simp [asks]), if_neg (by simp [reach]), absent]
  dsimp only
  rw [if_neg (by simp [may]), State.tagEvent_none, ← State.charged, State.llcFind_charged, miss]

theorem execRdu_hit {l : LlcLine} (found : s.llcFind line.toNat = some l) : execRdu d line ⟨p, who⟩ .none s =
    if l.recOf (otherDie d) = .i then .next ((((s.charged p).llcHit p l 0).grantDie d line.toNat true).coreTake d line.toNat p who)
    else .next (((s.charged p).llcHit p l 0).openTxn line.toNat (.rdu d p who) .snpI (decide (d = 1), decide (d = 0))) := by
  unfold execRdu
  dsimp only
  rw [if_neg (by simp [asks]), if_neg (by simp [reach]), absent]
  dsimp only
  rw [if_neg (by simp [may]), State.tagEvent_none, ← State.charged, State.llcFind_charged, found]

end

variable {c : DieLine} (held : s.dieLine line.toNat d = some c) (shared : c.st = .s ∨ c.st = .o) (w : CoreStore)
include held shared

theorem execUpg_miss (miss : s.llcFind line.toNat = none) : execUpg d line ⟨p, who⟩ w s =
    .next ((s.setTxn line.toNat (some ⟨.rdu d p who, false, false, true⟩)).chanAsk line.toNat p .core 128 (.die d true who)) := by
  unfold execUpg
  dsimp only
  rw [if_neg (by simp [asks]), if_neg (by simp [reach]), held, if_neg (by rcases shared with h | h <;> simp [h]), if_neg (by simp [may]), miss]

theorem execUpg_hit {l : LlcLine} (found : s.llcFind line.toNat = some l) : execUpg d line ⟨p, who⟩ w s =
    if l.recOf (otherDie d) = .i then .next ((s.llcHit p l 0).endUpg d line.toNat p who w.data w.mask)
    else .next ((s.llcHit p l 0).openTxn line.toNat (.upg d p who w.data w.mask) .snpI (decide (d = 1), decide (d = 0))) := by
  unfold execUpg
  dsimp only
  rw [if_neg (by simp [asks]), if_neg (by simp [reach]), held, if_neg (by rcases shared with h | h <;> simp [h]), if_neg (by simp [may]), found]

end

end

/-! ### Evictions (R189, R192, R194, R195) -/

theorem State.dieLine_evSend (s : State) (d : Fin 2) (n : Nat) (k : DieLine) : (s.evSend d n k).dieLine n d = none := State.dieLine_setDieLine s n d none

theorem State.evEntry_evSend (s : State) (d : Fin 2) (n : Nat) (k : DieLine) : (s.evSend d n k).evEntry n d = some ⟨k, false, false⟩ := State.evEntry_setEvEntry ..

section
variable {s : State} {d : Fin 2} {line : LineNo} {c : DieLine} (held : s.dieLine line.toNat d = some c) (unsent : s.evEntry line.toNat d = none)
  (free : s.evFree d = true)
include held unsent free

theorem execEvc_send (clean : c.st = .s ∨ c.st = .e) : execEvc d line .send s = .next (s.evSend d line.toNat c) := by
  unfold execEvc
  dsimp only
  rw [held]
  exact congrArg Host.Outcome.next (if_pos ⟨clean, by simp [unsent], free⟩)

theorem execEvd_send (dirty : c.st = .m ∨ c.st = .o) : execEvd d line .send none s = .next (s.evSend d line.toNat c) := by
  unfold execEvd
  dsimp only
  rw [held]
  dsimp only
  rw [if_neg (by simp [unsent, free])]
  obtain ⟨st, data, poison, l2, l1⟩ := c
  rcases dirty with rfl | rfl <;> rfl

theorem execEvd_written (own : c.st = .m ∨ c.st = .e) (w : Line) : execEvd d line .send (some w) s = .next (s.evSend d line.toNat { c with st := .m, data := w }) := by
  unfold execEvd
  dsimp only
  rw [held]
  dsimp only
  rw [if_neg (by simp [unsent, free])]
  obtain ⟨st, data, poison, l2, l1⟩ := c
  rcases own with rfl | rfl <;> rfl

end

/-- The eviction is at the home, and its EvAck is sent (R194, R195). -/
def State.evTaken (s : State) (d : Fin 2) (n : Nat) (e : EvEntry) : State :=
  { s with mem := { s.mem with
    evict := Tbl.set none s.mem.evict (dieKey n d) (some { e with atHome := true })
    evAcks := Tbl.set false s.mem.evAcks (dieKey n d) true } }

section
variable {s : State} {d : Fin 2} {n : Nat} {e : EvEntry} {l : LlcLine}

theorem State.acks_evTaken (s : State) (d : Fin 2) (n : Nat) (e : EvEntry) : Tbl.get false (s.evTaken d n e).mem.evAcks (dieKey n d) = true :=
  Tbl.get_set_same false s.mem.evAcks (dieKey n d) true

/-- A die that is recorded as a holder is recorded I; a dirty eviction brings its data. -/
theorem State.evHome_eq (found : s.llcFind n = some l) (holds : l.recOf d ≠ .i) : s.evHome d n e = (match e.kept.st with
    | .s => (s.evTaken d n e).llcPut (l.setRec d .i)
    | .e => (s.evTaken d n e).llcPut (l.setRec d .i)
    | _ => ((s.evTaken d n e).llcPut { l.setRec d .i with data := e.kept.data, poison := e.kept.poison, hd := .dirty }).wakeLine n) := by
  unfold State.evHome
  dsimp only
  split
  · next absent => exact absurd (found.symm.trans absent) nofun
  · next l' found' =>
    obtain rfl := Option.some.inj (found.symm.trans found')
    exact if_neg holds

theorem State.evHome_clean (found : s.llcFind n = some l) (holds : l.recOf d ≠ .i) (clean : e.kept.st = .s ∨ e.kept.st = .e) :
    s.evHome d n e = (s.evTaken d n e).llcPut (l.setRec d .i) := by
  rw [State.evHome_eq found holds]
  rcases clean with st | st <;> rw [st]

theorem State.evHome_dirty (found : s.llcFind n = some l) (holds : l.recOf d ≠ .i) (dirty : e.kept.st = .m ∨ e.kept.st = .o) :
    s.evHome d n e = ((s.evTaken d n e).llcPut { l.setRec d .i with data := e.kept.data, poison := e.kept.poison, hd := .dirty }).wakeLine n := by
  rw [State.evHome_eq found holds]
  rcases dirty with st | st <;> rw [st]

end

section
variable {s : State} {d : Fin 2} {line : LineNo} {e : EvEntry} (waits : s.evEntry line.toNat d = some e) (fresh : e.atHome = false)
  (idle : s.txnBusy line.toNat = false)
include waits fresh idle

theorem execEvc_home (clean : e.kept.st = .s ∨ e.kept.st = .e) : execEvc d line .home s = .next (s.evHome d line.toNat e) := by
  unfold execEvc
  dsimp only
  rw [waits]
  exact congrArg Host.Outcome.next (if_pos ⟨clean, by simp [fresh], by simp [idle]⟩)

theorem execEvd_home (dirty : e.kept.st = .m ∨ e.kept.st = .o) : execEvd d line .home none s = .next (s.evHome d line.toNat e) := by
  unfold execEvd
  dsimp only
  rw [waits]
  exact congrArg Host.Outcome.next (if_pos ⟨dirty, by simp [fresh], by simp [idle]⟩)

end

/-! ### Pushes (R199) -/

/-- A push that its die has taken, or declined, no longer waits. -/
def State.pushGone (s : State) (n : Nat) (d : Fin 2) : State := { s with mem := { s.mem with pushes := Tbl.set none s.mem.pushes (2 * n + d.val) none } }

section
variable {s : State} {d : Fin 2} {line : LineNo} {q : Fin 16} {c : Nat} (waits : Tbl.get none s.mem.pushes (2 * line.toNat + d.val) = some (q, c))
  (idle : s.txnBusy line.toNat = false)
include waits idle

theorem execStashPush_declined : execStashPush d line false s = .next ((s.pushGone line.toNat d).countDeclined q) := by
  unfold execStashPush
  dsimp only
  rw [waits]
  dsimp only
  rw [if_neg (by simp [idle])]
  rfl

theorem execStashPush_taken {l : LlcLine} (found : s.llcFind line.toNat = some l) (free0 : l.rec0 = .i) (free1 : l.rec1 = .i) (absent : s.dieLine line.toNat d = none)
    (left : s.evEntry line.toNat d = none) : execStashPush d line true s = .next (((s.pushGone line.toNat d).grantDie d line.toNat true).setDieLine line.toNat d
      (some ⟨.e, l.data, l.poison, BitVec.ofNat 80 (2 ^ (c % 80)), 0⟩)) := by
  have found' : (s.pushGone line.toNat d).llcFind line.toNat = some l := found
  have granted : ((s.pushGone line.toNat d).grantDie d line.toNat true).dieLine line.toNat d = some ⟨.e, l.data, l.poison, 0, 0⟩ := by
    rw [State.grantDie_eq found' d true (Bool.true_or _)]
    exact State.dieLine_setDieLine ..
  unfold execStashPush
  dsimp only
  rw [waits]
  dsimp only
  rw [if_neg (by simp [idle]), ← State.pushGone]
  refine congrArg Host.Outcome.next ((if_pos ?_).trans ?_)
  · change (true && ((s.llcFind line.toNat).any _ && (s.dieLine line.toNat d).isNone && (s.evEntry line.toNat d).isNone)) = true
    simp [found, free0, free1, absent, left]
  · rw [granted]
    rfl

end

theorem State.declined_grantDie (s : State) (d : Fin 2) (n : Nat) (unique : Bool) : (s.grantDie d n unique).mem.stashDeclined = s.mem.stashDeclined := by
  unfold State.grantDie
  split <;> rfl

theorem DieRec.shared_or_invalid {r : DieRec} (quiet : r = .i ∨ r = .s) : ¬ (r = .o ∨ r = .x) := by
  rcases quiet with rfl | rfl <;> decide

/-- Settles O32: each request, eviction and push by the case that its die and its home stand in. -/
theorem dieRequestsComplete : Obligations.DieRequestsComplete := by
  unfold Obligations.DieRequestsComplete
  intro s d line p who n o b asked snooped
  refine ⟨fun asks => ⟨fun far => execRds_far asks far, fun far => ⟨execRdu_far asks far, fun w m => execUpg_far asks far ⟨w, m⟩⟩,
    fun reach => ⟨fun c held clean => ?readCopy, fun absent may => ⟨fun miss => ?readMiss, fun l found quiet => ?readHit, fun l found holds => ?readSnoop⟩⟩,
    fun reach => ⟨fun c held own => ⟨fun clean => ?ownCopy, fun w m => ?ownWrite⟩,
      fun absent may => ⟨fun miss => ?ownMiss, fun l found alone => ?ownHit, fun l found holds => ?ownSnoop⟩,
      fun w m c held shared may => ⟨fun miss => ?upgMiss, fun l found => ⟨fun alone holds => ?upgHeld, fun alone lost => ?upgLost, fun holds => ?upgSnoop⟩⟩⟩⟩,
    fun c held unsent free => ⟨fun clean => ?sendClean, fun dirty => ?sendDirty, fun w own => ?sendWritten⟩,
    fun e l waits fresh idle found holds => ⟨fun clean => ?homeClean, fun dirty => ?homeDirty⟩, fun acked => ?acked,
    fun q c waits idle => ⟨fun l found free0 free1 absent left => ?pushTaken, ?pushDeclined⟩⟩
  case readCopy => exact (execRds_copy asks reach held).trans (congrArg Host.Outcome.next (State.coreTake_clean p who held clean))
  case readMiss => exact ⟨_, execRds_miss asks reach absent may miss, (s.charged p).asked n p _ _⟩
  case readHit =>
    obtain ⟨x, hit⟩ := (s.charged p).llcHit_noted p l 0
    have run := (execRds_hit asks reach absent may found).trans (if_neg (DieRec.shared_or_invalid quiet))
    rw [hit] at run
    refine ⟨_, run, (State.dieLine_granted (State.llcFind_noted (s := s.charged p) found x) d p who false (Bool.false_or _)).trans ?_⟩
    simp only [decide_eq_true_eq]
    rfl
  case readSnoop => exact ⟨_, (execRds_hit asks reach absent may found).trans (if_pos holds), State.snooped ..⟩
  case ownCopy =>
    refine (execRdu_copy asks reach held own).trans (congrArg Host.Outcome.next ?_)
    refine (State.coreTake_clean (c := { c with l2 := 0, l1 := 0 }) p who (State.dieLine_setDieLine ..) clean).trans ?_
    simp [DieLine.taken, n, b]
  case ownWrite => exact execUpg_own asks reach held own ⟨w, m⟩
  case ownMiss => exact ⟨_, execRdu_miss asks reach may absent miss, (s.charged p).asked n p _ _⟩
  case ownHit =>
    obtain ⟨x, hit⟩ := (s.charged p).llcHit_noted p l 0
    have run := (execRdu_hit asks reach may absent found).trans (if_pos alone)
    rw [hit] at run
    have found' := State.llcFind_noted (s := s.charged p) found x
    exact ⟨_, _, run, State.dieLine_granted found' d p who true rfl, State.llcFind_granted found' d p who true rfl, LlcLine.recOf_setRec ..⟩
  case ownSnoop => exact ⟨_, (execRdu_hit asks reach may absent found).trans (if_neg holds), State.snooped ..⟩
  case upgMiss => exact ⟨_, execUpg_miss asks reach may held shared ⟨w, m⟩ miss, s.asked n p _ _⟩
  case upgHeld =>
    obtain ⟨x, hit⟩ := s.llcHit_noted p l 0
    have run := (execUpg_hit asks reach may held shared ⟨w, m⟩ found).trans (if_pos alone)
    have found' := State.llcFind_noted found x
    have held' : (s.noted l x).dieLine n d = some c := held
    rw [hit, State.endUpg_held found' d p who held' holds] at run
    refine ⟨_, { (l.noted x).setRec d .x with hd := .stale }, run, State.dieLine_setDieLine .., ?_, LlcLine.recOf_setRec (l.noted x) d .x, rfl⟩
    exact State.llcFind_llcPut found' ((l.noted x).inPlace_setRec d .x)
  case upgLost =>
    obtain ⟨x, hit⟩ := s.llcHit_noted p l 0
    have run := (execUpg_hit asks reach may held shared ⟨w, m⟩ found).trans (if_pos alone)
    have found' := State.llcFind_noted found x
    rw [hit, State.endUpg_lost found' d p who lost] at run
    exact ⟨_, run, State.dieLine_granted found' d p who true rfl⟩
  case upgSnoop => exact ⟨_, (execUpg_hit asks reach may held shared ⟨w, m⟩ found).trans (if_neg holds), State.snooped ..⟩
  case sendClean => exact ⟨_, execEvc_send held unsent free clean, State.dieLine_evSend .., State.evEntry_evSend ..⟩
  case sendDirty => exact ⟨_, execEvd_send held unsent free dirty, State.dieLine_evSend .., State.evEntry_evSend ..⟩
  case sendWritten => exact ⟨_, execEvd_written held unsent free own w, State.dieLine_evSend .., State.evEntry_evSend ..⟩
  case homeClean =>
    refine ⟨_, execEvc_home waits fresh idle clean, ?_⟩
    rw [State.evHome_clean found holds clean]
    exact ⟨State.llcFind_llcPut (s := s.evTaken d n e) found (l.inPlace_setRec d .i), s.acks_evTaken d n e⟩
  case homeDirty =>
    refine ⟨_, execEvd_home waits fresh idle dirty, ?_⟩
    rw [State.evHome_dirty found holds dirty]
    exact ⟨State.llcFind_llcPut (s := s.evTaken d n e) found (l.inPlace_setRec d .i), s.acks_evTaken d n e⟩
  case acked => exact ⟨_, if_neg (by simp [acked, n]), Tbl.get_set_same none s.mem.evict (dieKey n d) none, rfl, rfl⟩
  case pushTaken =>
    refine ⟨_, execStashPush_taken waits idle found free0 free1 absent left, State.dieLine_setDieLine .., ?_⟩
    exact State.declined_grantDie (s.pushGone n d) d n true
  case pushDeclined => exact ⟨_, execStashPush_declined waits idle, Tbl.get_set_same none s.mem.pushes (2 * n + d.val) none, Tbl.get_set_same .., rfl⟩

end Sys2Proof.Machine
end

section
/-! SUPPORT. Non-caching requests at their home (05 R137, R166, R375; 06 R175, R185, R190, R196, R198, R199): what the home does with a request whose turn has
come, on a line that is present, held by a die or absent; with these the statement about home requests. -/

namespace Sys2Proof.Machine

/-! ### A full line in memory (R150) -/

/-- A full clean line that is written is what memory then holds. -/
theorem State.memLine_writeMem_full {s : State} {n : Nat} (up : s.unitUp (s.unitOf n) = true) (d : Line) : (s.writeMem n d (BitVec.allOnes 128) 0).memLine n = (d, 0) := by
  have up' : (s.writeMem n d (BitVec.allOnes 128) 0).unitUp ((s.writeMem n d (BitVec.allOnes 128) 0).unitOf n) = true := by simpa using up
  refine Prod.ext (line_ext fun i hi => ?_) (BitVec.eq_of_getLsbD_eq fun g hg => ?_)
  · rw [State.lineByte_memLine up' hi, State.writeMem_byte up d _ 0 hi, BitVec.getLsbD_allOnes, decide_eq_true hi]
    rfl
  · have covered : covers (BitVec.allOnes 128) g = true := by
      interval_cases g <;> decide
    rw [State.poison_memLine up' hg, State.writeMem_poison up d _ 0 hg, State.poisonWritten, covered]
    simp

/-! ### Requests whose turn has come (R175) -/

@[simp] theorem State.deliver_mem (s : State) (r : HomeReq) (v : LoadResult) : (s.deliver r v).mem = s.mem := by
  unfold State.deliver
  dsimp only
  split
  · rfl
  · split <;> rfl
  · rfl
  · rfl

theorem State.homeReq_of_mem {s t : State} (mem : t.mem.homeReqs = s.mem.homeReqs) (id : Nat) : t.homeReq id = s.homeReq id := by
  rw [State.homeReq, State.homeReq, mem]

section
variable {s : State} {r : HomeReq}

theorem State.takeHome_pool (up : s.up = true) (known : s.homeReq r.id = some r) (turn : s.behind r = false) (place : r.place = .pool) {kind : HomeOp → Bool}
    (right : kind r.op = true) : s.takeHome r.id kind = s.takeReq' r := by
  unfold State.takeHome
  rw [known]
  dsimp only
  rw [if_neg (by simp [up, right, turn]), place]

variable (stage : r.stage = .sent) (idle : s.txnBusy r.line = false)
include stage idle

theorem State.takeReq'_refused (far : s.reach r.part r.line r.op.writes = false) : s.takeReq' r = s.refuseReq r := by
  unfold State.takeReq'
  rw [if_neg (by simp [stage, idle]), if_pos (by simp [far])]

variable (reach : s.reach r.part r.line r.op.writes = true)
include reach

/-- No die is snooped: the request goes on at once. -/
theorem State.takeReq'_quiet (quiet : s.snoopSet r.line (reqSnoop r.op).2 = (false, false)) : s.takeReq' r = s.stepReq r := by
  unfold State.takeReq'
  rw [if_neg (by simp [stage, idle]), if_neg (by simp [reach])]
  dsimp only
  rw [quiet]
  rfl

theorem State.takeReq'_snoops {w : Bool × Bool} (snoops : s.snoopSet r.line (reqSnoop r.op).2 = w) (one : (w.1 || w.2) = true) :
    s.takeReq' r = (s.setReq { r with stage := .handling }).openTxn r.line (.req r.id) (reqSnoop r.op).1 w := by
  unfold State.takeReq'
  rw [if_neg (by simp [stage, idle]), if_neg (by simp [reach])]
  dsimp only
  rw [snoops, if_pos one]

end

/-- The state in which a request is performed: its line has no transaction, and the request is no longer kept. -/
def State.begun (s : State) (r : HomeReq) : State := (s.setTxn r.line none).dropReq r.id

theorem State.homeReq_begun (s : State) (r : HomeReq) : (s.begun r).homeReq r.id = none := by
  rw [State.homeReq, List.find?_eq_none]
  intro x kept
  simpa using (List.mem_filter.mp kept).2

theorem State.gone_of_begun {s t : State} {r : HomeReq} (reqs : t.mem.homeReqs = (s.begun r).mem.homeReqs) : t.homeReq r.id = none :=
  (State.homeReq_of_mem reqs r.id).trans (s.homeReq_begun r)

theorem State.bytes_begun (s : State) (r : HomeReq) : (s.begun r).mem.bytes = s.mem.bytes := rfl
theorem State.bytes_noted (s : State) (l : LlcLine) (x : HitNotes) : (s.noted l x).mem.bytes = s.mem.bytes := rfl
theorem State.bytes_put (s : State) (l : LlcLine) (n : Nat) : ((s.llcPut l).wakeLine n).mem.bytes = s.mem.bytes := rfl
theorem State.homeReqs_noted (s : State) (l : LlcLine) (x : HitNotes) : (s.noted l x).mem.homeReqs = s.mem.homeReqs := rfl

section
variable {s : State} {r : HomeReq}

theorem State.snoopSet_absent (absent : s.llcFind r.line = none) (f : DieRec → Bool) : s.snoopSet r.line f = (false, false) := by
  unfold State.snoopSet
  rw [absent]

theorem State.snoopSet_present {l : LlcLine} (found : s.llcFind r.line = some l) (f : DieRec → Bool) : s.snoopSet r.line f = (f l.rec0, f l.rec1) := by
  unfold State.snoopSet
  rw [found]

theorem State.needsMem_present {l : LlcLine} (found : s.llcFind r.line = some l) : s.needsMem r = false := by
  rw [State.needsMem, found]
  rfl

/-- A line absent, which the request needs: it is asked of memory under a transaction. -/
theorem State.stepReq_asks (needs : s.needsMem r = true) :
    Tbl.get none (s.stepReq r).mem.txns r.line = some ⟨.req r.id, false, false, true⟩ ∧ (s.stepReq r).mem.reqs.length = s.mem.reqs.length + 1 := by
  unfold State.stepReq
  rw [if_pos needs]
  exact ⟨(congrArg (Tbl.get none · r.line) (State.chanAsk_txns ..)).trans (State.txns_setTxn ..), (State.chanAsk_reqs ..).1⟩

theorem State.stepReq_performs (needs : s.needsMem r = false) : s.stepReq r = (s.setTxn r.line none).performReq r (s.memLine r.line) := by
  unfold State.stepReq
  exact if_neg (by simp [needs])

/-- A line present is hit for a request. -/
theorem State.bringIn_present {l : LlcLine} (found : s.llcFind r.line = some l) (fill : Line × BitVec 2) : ∃ x, s.bringIn r fill = (true, s.noted l x) := by
  obtain ⟨x, hit⟩ := s.llcHit_noted r.part l r.hint
  refine ⟨x, ?_⟩
  unfold State.bringIn State.reqHit
  rw [found]
  exact congrArg (Prod.mk true) hit

end

/-! ### A line present (R190, R196) -/

/-- The line once a write's bytes, or the value of an atomic or a reduction, stand in it. -/
def LlcLine.dirtied (l : LlcLine) (d : Line) (po : BitVec 2) : LlcLine := { l with data := d, poison := po, hd := .dirty }

section
variable (l : LlcLine) (d : Line) (po : BitVec 2)

theorem LlcLine.dirtied_data : (l.dirtied d po).data = d := rfl
theorem LlcLine.dirtied_poison : (l.dirtied d po).poison = po := rfl
theorem LlcLine.dirtied_hd : (l.dirtied d po).hd = .dirty := rfl

end

/-- Its line put back dirty and its doorbell's channel woken, a request is over. -/
theorem State.over_of_put {s t : State} {r : HomeReq} {k : LlcLine} (there : t.llcFind r.line = some k) (reqs : t.mem.homeReqs = (s.begun r).mem.homeReqs) (d : Line) (po : BitVec 2) :
    ((t.llcPut (k.dirtied d po)).wakeLine r.line).homeReq r.id = none ∧ ((t.llcPut (k.dirtied d po)).wakeLine r.line).llcFind r.line = some (k.dirtied d po) :=
  ⟨State.gone_of_begun reqs,
    (State.llcFind_congr (s := t.llcPut (k.dirtied d po)) rfl r.line).trans (State.llcFind_llcPut there ⟨rfl, rfl, rfl, rfl, rfl⟩)⟩

section
variable {s : State} {r : HomeReq} {l : LlcLine} (found : s.llcFind r.line = some l) (fill : Line × BitVec 2)
include found

theorem State.performReq_read (op : r.op = .rdOnce) : ∃ x, (s.setTxn r.line none).performReq r fill = ((s.begun r).noted l x).deliverLine r l.data l.poison := by
  have found' : (s.begun r).llcFind r.line = some l := found
  obtain ⟨x, hit⟩ := State.bringIn_present found' fill
  refine ⟨x, ?_⟩
  unfold State.performReq
  rw [op, ← State.begun]
  dsimp only
  rw [hit, State.llcFind_noted found' x]
  rfl

theorem State.performReq_write {d : Line} {m : BitVec 128} (op : r.op = .write d m) : ∃ (t : State) (x : LlcLine), (s.setTxn r.line none).performReq r fill = t
    ∧ t.homeReq r.id = none ∧ t.llcFind r.line = some x ∧ x.data = mergeLine l.data d m ∧ x.poison = poisonAfter l.poison m 0 ∧ x.hd = .dirty ∧ t.mem.bytes = s.mem.bytes := by
  have found' : (s.begun r).llcFind r.line = some l := found
  obtain ⟨x, hit⟩ := State.bringIn_present found' fill
  have noted := State.llcFind_noted found' x
  obtain ⟨gone, there⟩ := State.over_of_put (s := s) (r := r) noted (State.homeReqs_noted ..) (mergeLine l.data d m) (poisonAfter l.poison m 0)
  refine ⟨_, _, ?_, gone, there, LlcLine.dirtied_data .., LlcLine.dirtied_poison .., LlcLine.dirtied_hd ..,
    (State.bytes_put ..).trans ((State.bytes_noted ..).trans (s.bytes_begun r))⟩
  unfold State.performReq
  rw [op, ← State.begun]
  dsimp only
  rw [if_pos (by simp [found']), hit, State.mergePresent, noted]
  rfl

theorem State.performReq_atomic {op : AtomicOp} {size : Nat} {lanes : List (Nat × Nat × Word × Word)} (is : r.op = .atomic op size lanes)
    (clean : l.poison &&& granulesOf (lanes.map (fun x => x.2.1)) = 0) : ∃ (t : State) (x : LlcLine), (s.setTxn r.line none).performReq r fill = t
    ∧ t.homeReq r.id = none ∧ t.llcFind r.line = some x ∧ x.data = (atomicLine op size lanes l.data).1 ∧ x.hd = .dirty := by
  have found' : (s.begun r).llcFind r.line = some l := found
  obtain ⟨x, hit⟩ := State.bringIn_present found' fill
  have noted := State.llcFind_noted found' x
  have done : ((s.begun r).noted l x).homeAtomicOn r (l.noted x).data (l.noted x).poison op size lanes =
      (some (atomicLine op size lanes l.data).1, ((s.begun r).noted l x).deliver r (.olds (atomicLine op size lanes l.data).2)) := if_neg (not_not.mpr clean)
  have delivered := State.deliver_mem ((s.begun r).noted l x) r (.olds (atomicLine op size lanes l.data).2)
  have kept := (State.llcFind_congr (congrArg MemState.llc delivered) r.line).trans noted
  obtain ⟨gone, there⟩ := State.over_of_put (s := s) (r := r) kept ((congrArg MemState.homeReqs delivered).trans (State.homeReqs_noted ..)) (atomicLine op size lanes l.data).1 l.poison
  refine ⟨_, _, ?_, gone, there, LlcLine.dirtied_data .., LlcLine.dirtied_hd ..⟩
  unfold State.performReq
  rw [is, ← State.begun]
  dsimp only
  rw [hit, noted]
  dsimp only
  rw [done]
  dsimp only
  rw [State.putBack, kept]
  rfl

theorem State.performReq_red {op : RedOp} {size : Nat} {lanes : List (Nat × Nat × Word)} (is : r.op = .red op size lanes)
    (clean : l.poison &&& granulesOf (lanes.map (fun x => x.2.1)) = 0) : ∃ (t : State) (x : LlcLine), (s.setTxn r.line none).performReq r fill = t
    ∧ t.homeReq r.id = none ∧ t.llcFind r.line = some x ∧ x.data = lanes.foldl (fun d x => redLine op size x.2.1 x.2.2 d) l.data ∧ x.hd = .dirty := by
  have found' : (s.begun r).llcFind r.line = some l := found
  obtain ⟨x, hit⟩ := State.bringIn_present found' fill
  have noted := State.llcFind_noted found' x
  have done : ((s.begun r).noted l x).homeRedOn r l.data l.poison op size lanes = (some (lanes.foldl (fun d x => redLine op size x.2.1 x.2.2 d) l.data), (s.begun r).noted l x) :=
    if_neg (not_not.mpr clean)
  obtain ⟨gone, there⟩ := State.over_of_put (s := s) (r := r) noted (State.homeReqs_noted ..) (lanes.foldl (fun d x => redLine op size x.2.1 x.2.2 d) l.data) l.poison
  have delivered := State.deliver_mem ((((s.begun r).noted l x).llcPut ((l.noted x).dirtied (lanes.foldl (fun d x => redLine op size x.2.1 x.2.2 d) l.data) l.poison)).wakeLine r.line)
    r (.olds [])
  refine ⟨_, _, ?_, (State.homeReq_of_mem (congrArg MemState.homeReqs delivered) r.id).trans gone, (State.llcFind_congr (congrArg MemState.llc delivered) r.line).trans there, LlcLine.dirtied_data ..,
    LlcLine.dirtied_hd ..⟩
  unfold State.performReq
  rw [is, ← State.begun]
  dsimp only
  rw [found']
  dsimp only
  rw [hit]
  dsimp only
  rw [done]
  dsimp only
  rw [State.putBack, noted]
  rfl

theorem State.performReq_discard (op : r.op = .discard) : (s.setTxn r.line none).performReq r fill = (s.begun r).llcDrop l := by
  have found' : (s.begun r).llcFind r.line = some l := found
  unfold State.performReq
  rw [op, ← State.begun]
  dsimp only
  rw [found']

end

/-! ### A line absent (R166, R181, R190) -/

/-- Two states with the same requests at the homes and the same places of lines, in the same service. -/
structure State.Beside (s t : State) : Prop where
  reqs : t.mem.homeReqs = s.mem.homeReqs
  place : ∀ n, t.unitOf n = s.unitOf n
  service : t.mem.unitsUp = s.mem.unitsUp

theorem State.Beside.trans {s t u : State} (first : s.Beside t) (next : t.Beside u) : s.Beside u :=
  ⟨next.reqs.trans first.reqs, fun n => (next.place n).trans (first.place n), next.service.trans first.service⟩

theorem State.Beside.unitUp {s t : State} (beside : s.Beside t) (n : Nat) : t.unitUp (t.unitOf n) = s.unitUp (s.unitOf n) := by
  rw [State.unitUp, State.unitUp, beside.place, beside.service]

theorem State.Beside.homeReq {s t : State} (beside : s.Beside t) (id : Nat) : t.homeReq id = s.homeReq id := State.homeReq_of_mem beside.reqs id

theorem State.beside_begun (s : State) (r : HomeReq) (t : State) (beside : (s.begun r).Beside t) : t.homeReq r.id = none ∧ t.unitUp (t.unitOf r.line) = s.unitUp (s.unitOf r.line) :=
  ⟨(beside.homeReq r.id).trans (s.homeReq_begun r), beside.unitUp r.line⟩

theorem State.chanAsk_beside (s : State) (n : Nat) (p : Fin 16) (cls : ReqClass) (bytes : Nat) (target : FillFor) :
    s.Beside (s.chanAsk n p cls bytes target) ∧ (s.chanAsk n p cls bytes target).mem.churn = s.mem.churn := by
  obtain ⟨reqs, seq, regs, asked, -⟩ := s.chanAsk_eq n p cls bytes target
  rw [asked]
  exact ⟨⟨rfl, fun _ => rfl, rfl⟩, rfl⟩

/-- Without allocation a line stays absent. -/
theorem State.llcAlloc_never (s : State) (p : Fin 16) (n : Nat) (remote dieReq : Bool) (hd : HomeData) (d : Line) (po : BitVec 2) :
    ∃ t, s.llcAlloc p n 3 remote dieReq hd d po = (false, t) ∧ s.Beside t ∧ t.mem.churn = s.mem.churn := by
  obtain ⟨sh, lost, shadowed⟩ := s.shadowNote_eq p (s.placeOf p n remote).1 (s.placeOf p n remote).2 n 3 false
  refine ⟨{ s with mem := { s.mem with shadow := sh, shadowLost := lost } }, ?_, ⟨rfl, fun _ => rfl, rfl⟩, rfl⟩
  unfold State.llcAlloc
  dsimp only
  rw [if_pos rfl, shadowed]

theorem State.writeMem_homeReqs (s : State) (n : Nat) (d : Line) (m : BitVec 128) (p : BitVec 2) : (s.writeMem n d m p).mem.homeReqs = s.mem.homeReqs := by
  unfold State.writeMem
  split <;> rfl

section
variable {s : State} {r : HomeReq} (absent : s.llcFind r.line = none) (fill : Line × BitVec 2)
include absent

/-- A full line without allocation goes to memory. -/
theorem State.performReq_writeThrough {d : Line} (op : r.op = .write d (BitVec.allOnes 128)) (hint : r.hint = 3) (idle : ∀ o ∈ s.mem.churn, o.line ≠ r.line) :
    ∃ t, (s.setTxn r.line none).performReq r fill = (t.writeMem r.line d (BitVec.allOnes 128) 0).wakeLine r.line ∧ (s.begun r).Beside t := by
  have absent' : (s.begun r).llcFind r.line = none := absent
  obtain ⟨u, unallocated, beside, churn⟩ := (s.begun r).llcAlloc_never r.part r.line false false .dirty d 0
  obtain ⟨beside', churn'⟩ := u.chanAsk_beside r.line r.part .array 128 .moved
  have idle' : ∀ o ∈ (u.chanAsk r.line r.part .array 128 .moved).mem.churn, o.line ≠ r.line := by
    rw [churn', churn]
    exact idle
  refine ⟨u.chanAsk r.line r.part .array 128 .moved, ?_, beside.trans beside'⟩
  unfold State.performReq
  rw [op, ← State.begun]
  dsimp only
  rw [if_neg (by simp [absent']), if_pos rfl, hint, unallocated]
  dsimp only
  rw [if_neg Bool.false_ne_true, State.writeBehind, State.flushChurn_idle idle']

end

/-- An operation is of a reduction of a request (R165, R166). -/
def ChurnOp.IsOf (x : ChurnOp) (s : State) (n : Nat) (p : Fin 16) (c : CmdRef) (w : ChurnDo) : Prop :=
  x.line = n ∧ x.unit = s.unitOf n ∧ x.part = p ∧ x.cmd = c ∧ x.what = w ∧ x.refused = !s.unitUp (s.unitOf n)

theorem ChurnOp.IsOf.of_beside {x : ChurnOp} {s t : State} {n : Nat} {p : Fin 16} {c : CmdRef} {w : ChurnDo} (beside : s.Beside t) (of : x.IsOf t n p c w) : x.IsOf s n p c w := by
  obtain ⟨line, unit, part, cmd, what, refused⟩ := of
  exact ⟨line, unit.trans (beside.place n), part, cmd, what, refused.trans (congrArg _ (beside.unitUp n))⟩

/-- An operation waits at its churn. -/
def State.churned (s : State) (o : ChurnOp) : State := { s with mem := { s.mem with churn := s.mem.churn ++ [o] } }

theorem State.beside_churned (s : State) (o : ChurnOp) : s.Beside (s.churned o) := ⟨rfl, fun _ => rfl, rfl⟩

theorem State.sendChurn_sends (s : State) (n : Nat) (p : Fin 16) (c : CmdRef) (w : ChurnDo) (off : Nat) (v : Word) :
    s.Beside (s.sendChurn n p c w off v) ∧ ∃ x : ChurnOp, (s.sendChurn n p c w off v).mem.churn = s.mem.churn ++ [x] ∧ (x.off, x.v) = (off, v) ∧ x.IsOf s n p c w := by
  have sends : s.sendChurn n p c w off v = (s.churned ⟨s.mem.reqSeq, s.unitOf n, n, p, c, w, off, v, !s.unitUp (s.unitOf n)⟩).chanAsk n p .array 64 .churn := rfl
  obtain ⟨beside, churn⟩ := State.chanAsk_beside (s.churned ⟨s.mem.reqSeq, s.unitOf n, n, p, c, w, off, v, !s.unitUp (s.unitOf n)⟩) n p .array 64 .churn
  rw [sends]
  exact ⟨(s.beside_churned _).trans beside, _, churn, rfl, rfl, rfl, rfl, rfl, rfl, rfl⟩

/-- The lanes of a reduction go to the churn in their order. -/
theorem State.lanes_sent {op : RedOp} {size : Nat} (n : Nat) (p : Fin 16) (c : CmdRef) (lanes : List (Nat × Nat × Word)) (s : State) :
    let t := lanes.foldl (fun s x => s.sendChurn n p c (.red op size) x.2.1 x.2.2) s
    s.Beside t ∧ ∃ l : List ChurnOp, t.mem.churn = s.mem.churn ++ l ∧ l.map (fun x => (x.off, x.v)) = lanes.map (fun y => (y.2.1, y.2.2))
      ∧ ∀ x ∈ l, x.IsOf s n p c (.red op size) := by
  induction lanes generalizing s with
  | nil => exact ⟨⟨rfl, fun _ => rfl, rfl⟩, [], (List.append_nil _).symm, rfl, nofun⟩
  | cons y t ih =>
    obtain ⟨beside, x, churn, lane, of⟩ := s.sendChurn_sends n p c (.red op size) y.2.1 y.2.2
    obtain ⟨beside', l, churn', lanes, of'⟩ := ih (s.sendChurn n p c (.red op size) y.2.1 y.2.2)
    refine ⟨beside.trans beside', x :: l, ?_, ?_, ?_⟩
    · rw [List.foldl_cons, churn', churn, List.append_assoc]
      rfl
    · rw [List.map_cons, List.map_cons, lanes, lane]
    · exact List.forall_mem_cons.mpr ⟨of, fun z mem => (of' z mem).of_beside beside⟩

theorem State.performReq_redAbsent {s : State} {r : HomeReq} (absent : s.llcFind r.line = none) (fill : Line × BitVec 2) {op : RedOp} {size : Nat} {lanes : List (Nat × Nat × Word)}
    (is : r.op = .red op size lanes) : (s.setTxn r.line none).performReq r fill =
      (lanes.foldl (fun s x => s.sendChurn r.line r.part r.cmd (.red op size) x.2.1 x.2.2) (s.begun r)).deliver r (.olds []) := by
  have absent' : (s.begun r).llcFind r.line = none := absent
  unfold State.performReq
  rw [is, ← State.begun]
  dsimp only
  rw [absent']

/-! ### STASH (R198, R199) -/

section
variable {s : State} {p : Fin 16} {pa : BitVec 41} {b : List Byte} {target : BitVec 16} (up : s.up = true) (given : b ≠ []) (inLine : pa.toNat % 128 + b.length ≤ 128)
  (idle : s.txnBusy (pa.toNat / 128) = false) (reach : s.reach p (pa.toNat / 128) true = true)
include up given inLine idle reach

theorem execStash_eq : execStash p pa b target s = .next (s.stashWrite p pa.toNat b target) := by
  unfold execStash
  dsimp only
  rw [if_neg]
  simp only [up, idle, reach, given, Bool.not_true, Bool.false_eq_true, or_false, false_or]
  omega

end

section
variable {s u : State} {p : Fin 16} {pa : Nat} {b : List Byte} {target : BitVec 16}
  (written : u = s.engWrite p (pa / 128) (placeBytes (pa % 128) b) (byteMask (pa % 128) b.length) 0
    (if field target 14 2 = 1 ∨ field target 14 2 = 2 then field target 8 2 else 0))
include written

theorem State.stashWrite_plain (plain : field target 14 2 ≠ 2) : s.stashWrite p pa b target = u := by
  unfold State.stashWrite
  dsimp only
  rw [if_pos plain, written]

theorem State.stashWrite_declined (aimed : field target 14 2 = 2) (cannot : u.stashCore p target = none ∨ b.length ≠ 128 ∨ u.llcFind (pa / 128) = none) :
    s.stashWrite p pa b target = u.countDeclined p := by
  unfold State.stashWrite
  dsimp only
  rw [if_neg (not_not.mpr aimed), ← written]
  cases core : u.stashCore p target with
  | none => rfl
  | some c =>
    rcases cannot with none | short | gone
    · simp [core] at none
    · exact if_pos (.inl short)
    · exact if_pos (.inr (.inr (by simp [gone])))

theorem State.stashWrite_pushed (aimed : field target 14 2 = 2) {c : Nat} (core : u.stashCore p target = some c) (full : b.length = 128) (whole : pa % 128 = 0)
    (present : (u.llcFind (pa / 128)).isSome = true) :
    s.stashWrite p pa b target = { u with mem := { u.mem with pushes := Tbl.set none u.mem.pushes (2 * (pa / 128) + c / 80) (some (p, c)) } } := by
  have here : (u.llcFind (pa / 128)).isNone = false := by
    rw [Option.isNone_eq_false_iff]
    exact present
  unfold State.stashWrite
  dsimp only
  rw [if_neg (not_not.mpr aimed), ← written, core]
  exact if_neg (by simp [full, whole, here])

end

/-! ### The commands of requests -/

theorem State.remoteEcc_none (s : State) (p : Fin 16) (n : Nat) : s.remoteEcc p n .none = s := by
  unfold State.remoteEcc
  cases s.remoteFind p n <;> rfl

/-- Without an ECC event RD_ONCE takes its request. -/
theorem execRdOnce_eq (s : State) (id : Nat) : execRdOnce id .none s = .next (s.takeHome id (fun o => decide (o = HomeOp.rdOnce))) := by
  unfold execRdOnce
  cases s.homeReq id with
  | none => rfl
  | some r => cases place : r.place with
    | pool => simp only [place, State.tagEvent_none, ite_self]
    | remote m => simp only [place, State.remoteEcc_none, ite_self]

/-- The first die is snooped for a request, whether the second is or not. -/
theorem State.snoops_openTxn (s : State) (n : Nat) (k : TxnKind) (q : Snoop) (b : Bool) : Tbl.get none (s.openTxn n k q (true, b)).mem.snoops (dieKey n 0) = some q := by
  cases b with
  | false => exact s.snoops_sendSnoop n 0 q
  | true => exact (Tbl.get_set_ne none (s.sendSnoop n 0 q).mem.snoops (dieKey n 1) (dieKey n 0) (some q) (by simp [dieKey])).trans (s.snoops_sendSnoop n 0 q)

theorem DieRec.quiet_read {r : DieRec} (quiet : r = .i ∨ r = .s) : decide (r = .x ∨ r = .o) = false := by
  rcases quiet with rfl | rfl <;> rfl

theorem DieRec.held_read {r : DieRec} (held : r = .x ∨ r = .o) : decide (r = .x ∨ r = .o) = true := decide_eq_true held

/-- No request is snooped for at a die that is recorded I. -/
theorem reqSnoop_invalid (op : HomeOp) : (reqSnoop op).2 .i = false := by
  cases op <;> rfl

section
variable {s : State} {r : HomeReq}

theorem State.snoopSet_free {l : LlcLine} (found : s.llcFind r.line = some l) (free0 : l.rec0 = .i) (free1 : l.rec1 = .i) :
    s.snoopSet r.line (reqSnoop r.op).2 = (false, false) := by
  rw [State.snoopSet_present found, free0, free1, reqSnoop_invalid]

/-- A request of the pool in its turn, of which no die is snooped and which needs nothing of memory, is performed. -/
theorem State.takeHome_performs (up : s.up = true) (known : s.homeReq r.id = some r) (turn : s.behind r = false) (place : r.place = .pool) (stage : r.stage = .sent)
    (idle : s.txnBusy r.line = false) (reach : s.reach r.part r.line r.op.writes = true) (quiet : s.snoopSet r.line (reqSnoop r.op).2 = (false, false))
    (needs : s.needsMem r = false) {kind : HomeOp → Bool} (right : kind r.op = true) :
    s.takeHome r.id kind = (s.setTxn r.line none).performReq r (s.memLine r.line) :=
  (State.takeHome_pool up known turn place right).trans ((State.takeReq'_quiet stage idle reach quiet).trans (State.stepReq_performs needs))

end

/-- The command of a write takes its request, a full line or a part of one. -/
theorem exec_write {s t : State} {r : HomeReq} {d : Line} {m : BitVec 128} (op : r.op = .write d m)
    (performs : ∀ kind : HomeOp → Bool, kind r.op = true → s.takeHome r.id kind = t) :
    exec (if m = BitVec.allOnes 128 then .wrFull r.id else .wrPart r.id) s = .next t := by
  split
  · next full => exact congrArg Host.Outcome.next (performs _ (by simp [op, full]))
  · next part => exact congrArg Host.Outcome.next (performs _ (by rw [op]; exact decide_eq_true part))

/-- Settles O35: the request's turn has come, so its home refuses it, snoops for it, asks memory for its line or performs it. -/
theorem homeRequestsComplete : Obligations.HomeRequestsComplete := by
  unfold Obligations.HomeRequestsComplete
  refine ⟨fun s r up known turn place stage idle => ⟨fun far => ⟨fun op => ?readFar, fun op => ?discardFar⟩, fun reach => ⟨fun op => ⟨fun l found quiet0 quiet1 => ?readHit,
      fun l found held => ?readSnoop, fun absent => ?readMiss⟩,
      fun l found free0 free1 => ⟨fun d m op => ?write, fun op size lanes is clean => ?atomic, fun op size lanes is clean => ?red, fun op => ?discard⟩,
      fun absent => ⟨fun d op hint service still => ?writeThrough, fun op size lanes is => ?redAbsent⟩⟩⟩,
    fun s p pa b target up given inLine idle reach u written => ⟨fun plain => ?plain, fun aimed => ⟨fun cannot => ?declined, fun c core full present => ?pushed⟩⟩⟩
  case readFar =>
    refine (execRdOnce_eq s r.id).trans (congrArg Host.Outcome.next ?_)
    exact (State.takeHome_pool up known turn place (by simp [op])).trans (State.takeReq'_refused stage idle far)
  case discardFar => exact congrArg Host.Outcome.next ((State.takeHome_pool up known turn place (by simp [op])).trans (State.takeReq'_refused stage idle far))
  case readHit =>
    have quiet : s.snoopSet r.line (reqSnoop r.op).2 = (false, false) := by
      rw [State.snoopSet_present found, op]
      exact Prod.ext (DieRec.quiet_read quiet0) (DieRec.quiet_read quiet1)
    obtain ⟨x, done⟩ := State.performReq_read found (s.memLine r.line) op
    have performs := (State.takeHome_performs up known turn place stage idle reach quiet (State.needsMem_present found) (kind := fun o => decide (o = HomeOp.rdOnce))
      (by simp [op])).trans done
    exact ⟨(s.begun r).noted l x, (execRdOnce_eq s r.id).trans (congrArg Host.Outcome.next performs), State.gone_of_begun (s := s) (State.homeReqs_noted ..),
      (State.bytes_noted ..).trans (s.bytes_begun r)⟩
  case readSnoop =>
    have snoops : s.snoopSet r.line (reqSnoop r.op).2 = (true, decide (l.rec1 = .x ∨ l.rec1 = .o)) := by
      rw [State.snoopSet_present found, op]
      exact Prod.ext (DieRec.held_read held) rfl
    have snooped := (State.takeHome_pool up known turn place (kind := fun o => decide (o = HomeOp.rdOnce)) (by simp [op])).trans
      (State.takeReq'_snoops stage idle reach snoops rfl)
    refine ⟨_, (execRdOnce_eq s r.id).trans (congrArg Host.Outcome.next snooped), ?_, _, State.txns_openTxn ..⟩
    rw [op]
    exact State.snoops_openTxn ..
  case readMiss =>
    have needs : s.needsMem r = true := by simp [State.needsMem, absent, op]
    refine ⟨_, (execRdOnce_eq s r.id).trans (congrArg Host.Outcome.next ?_), State.stepReq_asks needs⟩
    exact (State.takeHome_pool up known turn place (by simp [op])).trans (State.takeReq'_quiet stage idle reach (State.snoopSet_absent absent _))
  case write =>
    obtain ⟨t, x, done, facts⟩ := State.performReq_write found (s.memLine r.line) op
    refine ⟨t, x, exec_write op fun kind right => ?_, facts⟩
    exact (State.takeHome_performs up known turn place stage idle reach (State.snoopSet_free found free0 free1) (State.needsMem_present found) right).trans done
  case atomic =>
    obtain ⟨t, x, done, facts⟩ := State.performReq_atomic found (s.memLine r.line) is clean
    refine ⟨t, x, congrArg Host.Outcome.next (Eq.trans ?_ done), facts⟩
    exact State.takeHome_performs up known turn place stage idle reach (State.snoopSet_free found free0 free1) (State.needsMem_present found) (by rw [is])
  case red =>
    obtain ⟨t, x, done, facts⟩ := State.performReq_red found (s.memLine r.line) is clean
    refine ⟨t, x, congrArg Host.Outcome.next (Eq.trans ?_ done), facts⟩
    exact State.takeHome_performs up known turn place stage idle reach (State.snoopSet_free found free0 free1) (State.needsMem_present found) (by rw [is])
  case discard =>
    have performs := (State.takeHome_performs up known turn place stage idle reach (State.snoopSet_free found free0 free1) (State.needsMem_present found)
      (kind := fun o => decide (o = HomeOp.discard)) (by simp [op])).trans (State.performReq_discard found (s.memLine r.line) op)
    refine ⟨_, congrArg Host.Outcome.next performs, State.gone_of_begun (s := s) rfl, fun x kept => ?_, rfl⟩
    simpa using (List.mem_filter.mp kept).2
  case writeThrough =>
    obtain ⟨t, done, beside⟩ := State.performReq_writeThrough absent (s.memLine r.line) op hint still
    obtain ⟨gone, service'⟩ := s.beside_begun r t beside
    have needs : s.needsMem r = false := by simp [State.needsMem, op]
    refine ⟨_, congrArg Host.Outcome.next ((State.takeHome_performs up known turn place stage idle reach (State.snoopSet_absent absent _) needs (by simp [op])).trans done), ?_, ?_⟩
    · exact (State.homeReq_of_mem (State.writeMem_homeReqs t r.line d (BitVec.allOnes 128) 0) r.id).trans gone
    · exact State.memLine_writeMem_full (service'.trans service) d
  case redAbsent =>
    obtain ⟨beside, l, churn, lanes', of⟩ := State.lanes_sent (op := op) (size := size) r.line r.part r.cmd lanes (s.begun r)
    have needs : s.needsMem r = false := by simp [State.needsMem, is]
    have performs := (State.takeHome_performs up known turn place stage idle reach (State.snoopSet_absent absent _) needs
      (kind := fun o => match o with | .red _ _ _ => true | _ => false) (by rw [is])).trans (State.performReq_redAbsent absent (s.memLine r.line) is)
    refine ⟨_, l, congrArg Host.Outcome.next performs, ?_, ?_, lanes', fun x mem => ?_⟩
    · rw [State.homeReq_of_mem (congrArg MemState.homeReqs (State.deliver_mem ..))]
      exact (s.beside_begun r _ beside).1
    · rw [State.deliver_mem]
      exact churn
    · obtain ⟨line, unit, part, cmd, what, refused⟩ := of x mem
      exact ⟨line, unit, part, cmd, what, refused⟩
  case plain => exact (execStash_eq up given inLine idle reach).trans (congrArg Host.Outcome.next (State.stashWrite_plain written plain))
  case declined => exact (execStash_eq up given inLine idle reach).trans (congrArg Host.Outcome.next (State.stashWrite_declined written aimed cannot))
  case pushed =>
    have run := State.stashWrite_pushed written aimed core full (by omega) present
    exact ⟨_, (execStash_eq up given inLine idle reach).trans (congrArg Host.Outcome.next run), Tbl.get_set_same none u.mem.pushes (2 * (pa.toNat / 128) + c / 80) (some (p, c)), rfl⟩

end Sys2Proof.Machine
end

section
/-! SUPPORT. Snoops and their responses (06 R187, R191, R194): what a die answers, and what the home makes of the answer; with these the statement about snoops. -/

namespace Sys2Proof.Machine

/-! ### A die's answer to a snoop (R187, R191, R194) -/

/-- A die's copy with what a core has written in silence: a copy in E or M is then M (R187). -/
def DieLine.written (c : DieLine) : Option Line → DieLine
  | none => c
  | some x => if c.st = .e ∨ c.st = .m then { c with st := .m, data := x } else c

/-- The table of R191: a die's response to a snoop of a line, and its copy afterwards. -/
def DieLine.row (c : DieLine) : Snoop → Rsp × Option DieLine
  | .snpS => match c.st with
    | .m | .o => (.fwd c.data c.poison, some { c with st := .o })
    | .e | .s => (.s, some { c with st := .s })
  | .snpCur => match c.st with
    | .m | .o => (.sData c.data c.poison, some { c with st := .s })
    | .e => (.e, some c)
    | .s => (.s, some c)
  | .snpI => match c.st with
    | .m | .o => (.iData c.data c.poison, none)
    | .e | .s => (.i, none)
  | .snpInd => (.i, none)

/-- The response out of the eviction buffer, whatever the snoop (R194). -/
def EvEntry.response (e : EvEntry) : Rsp := if e.kept.st = .m ∨ e.kept.st = .o then .iData e.kept.data e.kept.poison else .i

section
variable {s : State} {d : Fin 2} {n : Nat} (q : Snoop) (w : Option Line)

/-- The table of R191 for a die with a copy or without one. -/
def snoopRow (q : Snoop) (w : Option Line) : Option DieLine → Rsp × Option DieLine
  | none => (.i, none)
  | some c => (c.written w).row q

/-- A die without a buffered copy answers by the row of what it holds. -/
theorem State.dieAnswer_row (unsent : s.evEntry n d = none) :
    (s.dieAnswer d n q w).1 = (snoopRow q w (s.dieLine n d)).1 ∧ (s.dieAnswer d n q w).2.dieLine n d = (snoopRow q w (s.dieLine n d)).2 := by
  unfold State.dieAnswer
  rw [unsent]
  dsimp only
  cases held : s.dieLine n d with
  | none => exact ⟨rfl, held⟩
  | some c =>
    obtain ⟨st, data, poison, l2, l1⟩ := c
    cases st <;> cases w <;> cases q <;> simp [snoopRow, DieLine.written, DieLine.row, held]

/-- A copy in the eviction buffer answers as it was buffered, and is gone for later snoops. -/
theorem State.dieAnswer_buffered {e : EvEntry} (buffered : s.evEntry n d = some e) (unsnooped : e.snooped = false) :
    s.dieAnswer d n q w = (e.response, s.setEvEntry n d (some { e with snooped := true })) := by
  unfold State.dieAnswer EvEntry.response
  rw [buffered]
  dsimp only
  rw [if_neg (by simp [unsnooped])]
  cases e.kept.st <;> rfl

theorem State.dieAnswer_llc : (s.dieAnswer d n q w).2.mem.llc = s.mem.llc := by
  unfold State.dieAnswer
  dsimp only
  (repeat' split) <;> rfl

end

/-- The die's response is on its way to the home, and the snoop is gone. -/
def State.responded (s : State) (d : Fin 2) (n : Nat) (r : Rsp) : State :=
  { s with mem := { s.mem with snoops := Tbl.set none s.mem.snoops (dieKey n d) none, rsps := Tbl.set none s.mem.rsps (dieKey n d) (some r) } }

theorem State.rsps_responded (s : State) (d : Fin 2) (n : Nat) (r : Rsp) : Tbl.get none (s.responded d n r).mem.rsps (dieKey n d) = some r :=
  Tbl.get_set_same none s.mem.rsps (dieKey n d) (some r)

theorem State.snoops_responded (s : State) (d : Fin 2) (n : Nat) (r : Rsp) : Tbl.get none (s.responded d n r).mem.snoops (dieKey n d) = none :=
  Tbl.get_set_same none s.mem.snoops (dieKey n d) none

theorem State.answer_sent {s : State} {d : Fin 2} {n : Nat} {q : Snoop} (sent : Tbl.get none s.mem.snoops (dieKey n d) = some q) (w : Option Line) :
    s.answer d n q w = (s.dieAnswer d n q w).2.responded d n (s.dieAnswer d n q w).1 := by
  unfold State.answer
  exact if_neg (not_not_intro sent)

/-- Each snoop is its die's answer. -/
theorem exec_snoop (s : State) (d : Fin 2) (line : LineNo) (w : Option Line) {q : Snoop} {i : Instr}
    (snoop : (q, i) ∈ [(Snoop.snpS, Instr.snpS d line w), (.snpCur, .snpCur d line w), (.snpI, .snpI d line w), (.snpInd, .snpInd d line w)]) :
    exec i s = .next (s.answer d line.toNat q w) := by
  simp only [List.mem_cons, Prod.mk.injEq, List.not_mem_nil, or_false] at snoop
  obtain ⟨rfl, rfl⟩ | ⟨rfl, rfl⟩ | ⟨rfl, rfl⟩ | ⟨rfl, rfl⟩ := snoop <;> rfl

/-! ### The home takes a response (R191) -/

/-- The home's line once a die has answered: its record of the dies, and the data that it received. -/
def LlcLine.taken (l : LlcLine) (d : Fin 2) : Rsp → LlcLine
  | .fwd _ _ => { (l.setRec d .o).setRec (otherDie d) .s with hd := .stale }
  | .sData x p => { l.setRec d .s with hd := .dirty, data := x, poison := p }
  | .iData x p => { l.setRec d .i with hd := .dirty, data := x, poison := p }
  | .s => l.setRec d .s
  | .e => l
  | .i => l.setRec d .i

section
variable {s : State} {d : Fin 2} {n : Nat} {r : Rsp}

theorem State.llcFind_takeRsp {l : LlcLine} (found : s.llcFind n = some l) : (s.takeRsp d n r).llcFind n = some (l.taken d r) := by
  have put (x : LlcLine) (place : l.inPlace x) : (s.llcPut x).llcFind n = some x := State.llcFind_llcPut found place
  have one (k : DieRec) : l.inPlace (l.setRec d k) := l.inPlace_setRec d k
  unfold State.takeRsp
  rw [found]
  cases r with
  | fwd x p =>
    obtain ⟨slice, set, way, remote, line⟩ := (l.setRec d .o).inPlace_setRec (otherDie d) .s
    obtain ⟨slice', set', way', remote', line'⟩ := one .o
    exact put _ ⟨slice.trans slice', set.trans set', way.trans way', remote.trans remote', line.trans line'⟩
  | sData x p => exact put _ (one .s)
  | iData x p => exact put _ (one .i)
  | s => exact put _ (one .s)
  | e => exact found
  | i => exact put _ (one .i)

theorem State.rsps_takeRsp (s : State) (d : Fin 2) (n : Nat) (r : Rsp) : (s.takeRsp d n r).mem.rsps = s.mem.rsps := by
  unfold State.takeRsp
  split
  · rfl
  · cases r <;> rfl

/-- A response that the home takes no longer waits. -/
def State.rspGone (s : State) (d : Fin 2) (n : Nat) : State := { s with mem := { s.mem with rsps := Tbl.set none s.mem.rsps (dieKey n d) none } }

/-- The home has taken a response, and a line that was forwarded is S at the other die. -/
def State.rspTaken (s : State) (d : Fin 2) (n : Nat) (r : Rsp) : State :=
  match r with
  | .fwd x p => ((s.rspGone d n).takeRsp d n r).setDieLine n (otherDie d) (some ⟨.s, x, p, 0, 0⟩)
  | _ => (s.rspGone d n).takeRsp d n r

theorem State.rspTaken_mem (s : State) (d : Fin 2) (n : Nat) (r : Rsp) :
    (s.rspTaken d n r).mem.llc = ((s.rspGone d n).takeRsp d n r).mem.llc ∧ (s.rspTaken d n r).mem.rsps = ((s.rspGone d n).takeRsp d n r).mem.rsps := by
  unfold State.rspTaken
  split <;> exact ⟨rfl, rfl⟩

theorem State.rsps_rspTaken (s : State) (d : Fin 2) (n : Nat) (r : Rsp) : Tbl.get none (s.rspTaken d n r).mem.rsps (dieKey n d) = none := by
  rw [(s.rspTaken_mem d n r).2, State.rsps_takeRsp]
  exact Tbl.get_set_same none s.mem.rsps (dieKey n d) none

theorem State.llcFind_rspTaken {l : LlcLine} (found : s.llcFind n = some l) (r : Rsp) : (s.rspTaken d n r).llcFind n = some (l.taken d r) :=
  (State.llcFind_congr (s.rspTaken_mem d n r).1 n).trans (State.llcFind_takeRsp (s := s.rspGone d n) found)

/-- A response that has arrived is taken by the command of its kind, and the transaction has its answer. -/
theorem State.takeArrived_eq (arrived : Tbl.get none s.mem.rsps (dieKey n d) = some r) {kind : Rsp → Bool} (right : kind r = true) :
    s.takeArrived d n kind = (s.rspTaken d n r).txnAnswered n d := by
  unfold State.takeArrived
  dsimp only
  rw [arrived]
  dsimp only
  rw [if_neg (by simp [right])]
  cases r <;> rfl

end

/-- Settles O33: a die answers by the row of its copy or out of its eviction buffer, and the home takes each response by its kind. -/
theorem snoopsAndResponsesComplete : Obligations.SnoopsAndResponsesComplete := by
  unfold Obligations.SnoopsAndResponsesComplete
  intro s d line n k
  refine ⟨fun w x snoop sent => ?snoop, fun l r found arrived => ⟨s.rspTaken d n r, s.rsps_rspTaken d n r, ?response⟩⟩
  case snoop =>
    have run : exec x.2 s = .next ((s.dieAnswer d n x.1 w).2.responded d n (s.dieAnswer d n x.1 w).1) :=
      (exec_snoop s d line w snoop).trans (congrArg Host.Outcome.next (State.answer_sent sent w))
    generalize x.1 = q at run
    refine ⟨fun unsent => ?copy, fun e buffered unsnooped => ?buffered⟩
    case copy =>
      intro y
      have row : snoopRow q w (s.dieLine n d) = y := by
        unfold y
        cases s.dieLine n d with
        | none => rfl
        | some c =>
          obtain ⟨st, data, poison, l2, l1⟩ := c
          cases st <;> cases w <;> cases q <;> rfl
      obtain ⟨response, copy⟩ := State.dieAnswer_row q w unsent
      rw [row] at response copy
      exact ⟨_, run, (State.rsps_responded ..).trans (congrArg some response), copy, State.snoops_responded .., State.dieAnswer_llc q w⟩
    case buffered =>
      rw [State.dieAnswer_buffered q w buffered unsnooped] at run
      exact ⟨_, run, s.evEntry_setEvEntry n d (some { e with snooped := true }), rfl, State.rsps_responded ..⟩
  case response =>
    have home : (s.rspTaken d n r).llcFind n = some (l.taken d r) := State.llcFind_rspTaken found r
    have run {kind : Rsp → Bool} (right : kind r = true) :
        (Host.Outcome.next (s.takeArrived d n kind).goOn : Host.Outcome State Fault Refusal) = .next ((s.rspTaken d n r).txnAnswered n d).goOn := by
      rw [State.takeArrived_eq arrived right]
    cases r with
    | fwd x p => exact ⟨run rfl, home, State.dieLine_setDieLine ..⟩
    | sData x p => exact ⟨run rfl, home⟩
    | iData x p => exact ⟨run rfl, home⟩
    | s => exact ⟨run rfl, home⟩
    | e => exact ⟨run rfl, home⟩
    | i => exact ⟨run rfl, home⟩

end Sys2Proof.Machine
end

section
/-! SUPPORT. Evictions at their home (06 R195): one that stands behind a transaction, and a stale one; with these the statement about stale evictions. -/

namespace Sys2Proof.Machine

section
variable {s : State} {d : Fin 2} {line : LineNo} {e : EvEntry} (waits : s.evEntry line.toNat d = some e) (fresh : e.atHome = false)
include waits fresh

/-- An eviction is examined by the command of its kind, but not while a transaction of its line is in progress. -/
theorem exec_evictionAtHome (w : Option Line) :
    exec (if e.kept.st = .s ∨ e.kept.st = .e then .evc d line .home else .evd d line .home w) s = .next (if s.txnBusy line.toNat = true then s else s.evHome d line.toNat e) := by
  have examined {kind : Prop} [Decidable kind] (right : kind) : (if kind ∧ (!e.atHome) = true ∧ (!s.txnBusy line.toNat) = true then s.evHome d line.toNat e else s)
      = if s.txnBusy line.toNat = true then s else s.evHome d line.toNat e := by
    cases s.txnBusy line.toNat <;> simp [right, fresh]
  by_cases clean : e.kept.st = .s ∨ e.kept.st = .e
  · rw [if_pos clean]
    change execEvc d line .home s = _
    unfold execEvc
    dsimp only
    rw [waits]
    exact congrArg Host.Outcome.next (examined clean)
  · have dirty : e.kept.st = .m ∨ e.kept.st = .o := by
      cases st : e.kept.st <;> simp [st] at clean ⊢
    rw [if_neg clean]
    change execEvd d line .home w s = _
    unfold execEvd
    dsimp only
    rw [waits]
    exact congrArg Host.Outcome.next (examined dirty)

end

/-- A stale eviction is acknowledged, and nothing else comes of it. -/
theorem State.evHome_stale {s : State} {d : Fin 2} {n : Nat} (stale : ∀ l, s.llcFind n = some l → l.recOf d = .i) (e : EvEntry) : s.evHome d n e = s.evTaken d n e := by
  unfold State.evHome
  dsimp only
  split
  · rfl
  · next l found => exact if_pos (stale l found)

/-- Settles O34: the eviction waits for the transaction of its line, and a stale one writes its entry and its acknowledgement alone. -/
theorem staleEvictionsAreAcknowledged : Obligations.StaleEvictionsAreAcknowledged := by
  unfold Obligations.StaleEvictionsAreAcknowledged
  rintro s d line e w x waits fresh rfl
  have run := exec_evictionAtHome waits fresh w
  refine ⟨fun busy => ?_, fun idle stale => ⟨s.evTaken d line.toNat e, ?_, rfl, s.acks_evTaken d line.toNat e, ?_, fun k other => ⟨?_, ?_⟩⟩⟩
  · rw [run, if_pos busy]
  · rw [run, if_neg (by simp [idle]), State.evHome_stale stale]
  · exact Tbl.get_set_same none s.mem.evict (dieKey line.toNat d) (some { e with atHome := true })
  · exact Tbl.get_set_ne none s.mem.evict (dieKey line.toNat d) k (some { e with atHome := true }) other
  · exact Tbl.get_set_ne false s.mem.evAcks (dieKey line.toNat d) k true other

end Sys2Proof.Machine
end

section
/-! SUPPORT. The statement about what reset leaves (06 R177; 13 R364; 14 R398; 15 R426, R427, R437; 16 R445). -/

namespace Sys2Proof.Machine

/-- At reset PT0 alone has ways. -/
theorem ways_reset_other {p : Nat} (other : p ≠ 0) : Tbl.get PartWays.reset State.reset.mem.ways p = PartWays.reset := if_neg (Ne.symm other)

/-- Settles O57: each table is empty, and each register stands at its reset value. -/
theorem resetLeaves : Obligations.ResetLeaves := by
  unfold Obligations.ResetLeaves
  refine ⟨rfl, rfl, rfl, rfl, rfl, rfl, rfl, rfl, fun p => rfl, fun p => rfl, rfl, fun p other => ?ways, rfl, rfl, rfl, ?rings, rfl, rfl⟩
  case ways => rw [ways_reset_other other]; rfl
  case rings => decide

end Sys2Proof.Machine
end

section
/-! SUPPORT. Commits (04 R129; 07 R216; 09 R242, R252, R264, R265, R269, R274, R277): signals, claims and interrupts leave the channel entries, a completion record
advances COMPLETED, and a command that commits is dropped. -/

namespace Sys2Proof.Machine

/-! ### A field of a word after a field of it is written -/

theorem getLsbD_putField {n : Nat} (x : BitVec n) (lo w v : Nat) {k : Nat} (hk : k < n) :
    (putField x lo w v).getLsbD k = if lo ≤ k ∧ k < lo + w then v.testBit (k - lo) else x.getLsbD k := by
  unfold putField
  simp only [BitVec.getLsbD_or, BitVec.getLsbD_and, BitVec.getLsbD_not, BitVec.getLsbD_ofNat, Nat.testBit_shiftLeft, Nat.testBit_mod_two_pow, Nat.testBit_two_pow_sub_one, hk]
  by_cases below : lo ≤ k
  · by_cases inside : k - lo < w
    · simp [below, inside, show k < lo + w by omega]
    · simp [below, inside, show ¬ k < lo + w by omega]
  · simp [below]

theorem bits_putField_same {n : Nat} (x : BitVec n) {lo w : Nat} (fits : lo + w ≤ n) (v : Nat) : bits (putField x lo w v) lo w = BitVec.ofNat w v := by
  refine BitVec.eq_of_getLsbD_eq (fun i hi => ?_)
  rw [BitVec.getLsbD_extractLsb', getLsbD_putField x lo w v (by omega), if_pos (by omega), BitVec.getLsbD_ofNat, Nat.add_sub_cancel_left]

theorem bits_putField_apart {n : Nat} (x : BitVec n) {lo w a b : Nat} (fits : a + b ≤ n) (apart : a + b ≤ lo ∨ lo + w ≤ a) (v : Nat) :
    bits (putField x lo w v) a b = bits x a b := by
  refine BitVec.eq_of_getLsbD_eq (fun i hi => ?_)
  rw [BitVec.getLsbD_extractLsb', BitVec.getLsbD_extractLsb', getLsbD_putField x lo w v (by omega), if_neg (by omega)]

/-! ### Semaphores, claims and interrupts leave the holdings of partitions (R264, R265, R277) -/

theorem State.entry_of_tenure {s t : State} (h : t.tenure = s.tenure) (ch : Fin 3072) : t.entry ch = s.entry ch :=
  congrArg (fun x : Tenure => Tbl.get 0 x.entries ch.val) h

@[simp] theorem State.setDyn_tenure (s : State) (ch : Fin 3072) (d : ChanDyn) : (s.setDyn ch d).tenure = s.tenure := rfl

@[simp] theorem State.engUpdate_tenure (s : State) (p : Fin 16) (line hint : Nat) (touch : BitVec 2) (f : Line → Line) (cls : ReqClass) :
    (s.engUpdate p line hint touch f cls).2.tenure = s.tenure := by
  unfold State.engUpdate
  dsimp only
  split
  · split
    · simp
    · split <;> simp
  · split <;> simp

@[simp] theorem State.semRead_tenure (s : State) (p : Fin 16) (va : Nat) : (s.semRead p va).2.tenure = s.tenure := by
  unfold State.semRead
  have went := s.translate_tenure p va false
  generalize s.translate p va false = found at went
  obtain ⟨x, t⟩ := found
  cases x with
  | pool pa =>
    dsimp only at went ⊢
    split
    · exact went
    · split <;> simp [went]
  | _ => exact went

@[simp] theorem State.semWrite_tenure (s : State) (p : Fin 16) (line off : Nat) (value : Word) (owner : Nat) : (s.semWrite p line off value owner).2.tenure = s.tenure :=
  s.engUpdate_tenure _ _ _ _ _ _

@[simp] theorem State.poisonRead_tenure (s : State) (p : Fin 16) (granule : Nat) (reporter : BitVec 16) : (s.poisonRead p granule reporter).tenure = s.tenure := by
  unfold State.poisonRead
  split <;> rfl

@[simp] theorem State.signal_tenure (s : State) (c : Cmd) (va op : Nat) (v : Word) : (s.signal c va op v).2.tenure = s.tenure := by
  unfold State.signal
  have read := s.semRead_tenure c.part va
  generalize s.semRead c.part va = found at read
  obtain ⟨x, t⟩ := found
  cases x <;> simpa using read

theorem State.signals_tenure (s : State) (c : Cmd) : (s.signals c).2.tenure = s.tenure := by
  unfold State.signals
  refine foldl_keeps (fun x : Option Nat × State => x.2.tenure) _ (fun x e => ?_) _ _
  dsimp only
  split
  · exact x.2.signal_tenure c _ _ _
  · rfl

theorem State.endDonation_tenure (s : State) (c : Cmd) : (s.endDonation c).tenure = s.tenure := by
  unfold State.endDonation
  split
  · rfl
  · dsimp only
    split <;> rfl

theorem State.releaseClaims_tenure (s : State) (c : Cmd) : (s.releaseClaims c).2.tenure = s.tenure := by
  unfold State.releaseClaims
  refine (foldl_keeps (fun x : Option Nat × State => x.2.tenure) _ (fun x i => ?_) _ _).trans (s.endDonation_tenure c)
  cases (semEntries c.slots)[i]? with
  | none => rfl
  | some e =>
    obtain ⟨va, op, v⟩ := e
    dsimp only
    have read := x.2.semRead_tenure c.part va
    generalize x.2.semRead c.part va = found at read
    obtain ⟨m, t⟩ := found
    cases m <;> simpa using read

theorem State.afterRelease_tenure (s : State) (c : Cmd) (scope : Nat) : (s.afterRelease c scope).tenure = s.tenure := by
  unfold State.afterRelease
  split <;> rfl

@[simp] theorem State.sendMsix_tenure (s : State) (port : Fin 2) (fn : Fin 128) (v : Nat) : (s.sendMsix port fn v).tenure = s.tenure := by
  simp [State.sendMsix]

@[simp] theorem State.coreInterrupt_tenure (s : State) (p : Fin 16) (index n : Nat) : (s.coreInterrupt p index n).tenure = s.tenure := by
  unfold State.coreInterrupt
  split
  · rfl
  · split <;> rfl

@[simp] theorem State.sendChanIrq_tenure (s : State) (ch : Fin 3072) : (s.sendChanIrq ch).tenure = s.tenure := by
  unfold State.sendChanIrq
  dsimp only
  split <;> simp

theorem State.chanIrq_tenure (s : State) (ch : Fin 3072) : (s.chanIrq ch).tenure = s.tenure := by
  unfold State.chanIrq
  split
  · rfl
  · split
    · rfl
    · dsimp only
      split <;> simp

/-! ### COMPLETED (R252, R274) -/

/-- An error of the channel leaves COMPLETED. -/
theorem State.noteError_completed (s : State) (ch : Fin 3072) (cause : Nat) : entCompleted ((s.noteError ch cause).entry ch) = entCompleted (s.entry ch) := by
  have caused (e : BitVec 512) : entCompleted (setEntCause e cause) = entCompleted e := bits_putField_apart e (by decide) (by decide) cause
  have stopping (e : BitVec 512) : entCompleted (setEntState e 2) = entCompleted e := bits_putField_apart e (by decide) (by decide) 2
  unfold State.noteError
  dsimp only
  split
  · split
    · change entCompleted ((s.setEntry ch _).entry ch) = _
      rw [State.entry_setEntry, caused]
    · rfl
  · split
    · change entCompleted ((s.setEntry ch _).entry ch) = _
      rw [State.entry_setEntry, stopping, caused]
    · rfl

/-- A completion record advances COMPLETED by one, whether or not it could be written. -/
theorem State.putRecord_completed (s : State) (c : Cmd) (status : Nat) (poisoned report : Bool) (detail : BitVec 32) :
    entCompleted ((s.putRecord c status poisoned report detail).entry c.ch) = entCompleted (s.entry c.ch) + 1 := by
  have counted (t : State) : entCompleted ((t.setEntry c.ch (putField (t.entry c.ch) 416 32 ((entCompleted (s.entry c.ch)).toNat + 1))).entry c.ch) = entCompleted (s.entry c.ch) + 1 := by
    rw [State.entry_setEntry]
    exact (bits_putField_same _ (by decide) _).trans (by rw [BitVec.ofNat_add, BitVec.ofNat_toNat, BitVec.setWidth_eq]; rfl)
  unfold State.putRecord
  generalize s.recordEnergy c.ref = energy
  dsimp only
  generalize (if (entHost (s.entry c.ch) 2 && decide ((energy.2.fn (fnOf (entFn (s.entry c.ch))).1 (fnOf (entFn (s.entry c.ch))).2).mode = .resetting)) = true
    then (true, State.setFn _ _ _ _) else _) = put
  split
  · exact counted _
  · exact (State.noteError_completed _ _ _).trans (counted _)

/-! ### The tail of a commit (R216) -/

theorem State.cmd_dropCmd (s : State) (c : CmdRef) : (s.dropCmd c).cmd c = none := by
  unfold State.cmd State.dropCmd
  refine List.find?_eq_none.mpr (fun x hx => ?_)
  simpa only [Bool.not_eq_true', decide_eq_false_iff_not, decide_eq_true_eq] using (List.mem_filter.mp hx).2

/-- The release, the signals, the claims and the record of a commit. -/
def State.commitRecord (s : State) (c : Cmd) : State :=
  let t := if c.wrote then s.afterRelease c 4 else s
  let r := (t.signals c).2.releaseClaims c
  match firstOf (t.signals c).1 r.1 with
  | none => r.2.putRecord c 0 false (decide (c.report = some true)) 0
  | some i => r.2.putRecord c 0x50 false (decide (c.report = some true)) (BitVec.ofNat 32 (256 + i))

theorem State.commitRecord_completed (s : State) (c : Cmd) : entCompleted ((s.commitRecord c).entry c.ch) = entCompleted (s.entry c.ch) + 1 := by
  have released : (if c.wrote = true then s.afterRelease c 4 else s).tenure = s.tenure := by
    split
    · exact s.afterRelease_tenure c 4
    · rfl
  have before := ((State.releaseClaims_tenure _ c).trans ((State.signals_tenure _ c).trans released))
  unfold State.commitRecord
  dsimp only
  split
  · rw [State.putRecord_completed, State.entry_of_tenure before]
  · rw [State.putRecord_completed, State.entry_of_tenure before]

theorem State.commitTail_eq (s : State) (c : Cmd) : s.commitTail c =
    ((fun t : State => { t with chan := { t.chan with reserved := t.chan.reserved.filter (fun x => !decide (x.2 = c.ref)) } })
      ((if blk c.head 1 0 1 = 1 then (s.commitRecord c).chanIrq c.ch else s.commitRecord c).dropCmd c.ref)).afterEnd c := rfl

/-- A command that commits is counted in COMPLETED and gone before its channel and the scheduler go on. -/
theorem State.commitTail_ends (s : State) (c : Cmd) :
    ∃ w : State, s.commitTail c = w.afterEnd c ∧ w.cmd c.ref = none ∧ entCompleted (w.entry c.ch) = entCompleted (s.entry c.ch) + 1 := by
  refine ⟨_, s.commitTail_eq c, State.cmd_dropCmd _ c.ref, ?_⟩
  have signalled : (if blk c.head 1 0 1 = 1 then (s.commitRecord c).chanIrq c.ch else s.commitRecord c).tenure = (s.commitRecord c).tenure := by
    split
    · exact State.chanIrq_tenure _ _
    · rfl
  exact (congrArg entCompleted (State.entry_of_tenure signalled c.ch)).trans (s.commitRecord_completed c)

end Sys2Proof.Machine
end

section
/-! SUPPORT. The ends of commands (02 R74; 09 R269, R272, R273, R278; 10 R311-R313): what bindings that change leave of killed commands, how a STEP and a REPLAY end,
and the holdoff of interrupts; with these the statement about them. -/

namespace Sys2Proof.Machine

/-! ### Updates of the Atlas leave the arrays and the commands (R26, R33) -/

@[simp] theorem State.postEvent_roster (s : State) (p : Fin 16) (event : Nat) (body : List Byte) : (s.postEvent p event body).roster = s.roster := by
  unfold State.postEvent
  dsimp only
  split
  · rfl
  · split <;> simp

@[simp] theorem State.postAll_roster (s : State) (parts : BitVec 16) (event : Nat) (body : List Byte) : (s.postAll parts event body).roster = s.roster := by
  simp [State.postAll]

@[simp] theorem State.atlasBegin_roster (s : State) : s.atlasBegin.roster = s.roster := by
  unfold State.atlasBegin
  split <;> rfl

@[simp] theorem State.atlasEnd_roster (s : State) : s.atlasEnd.roster = s.roster := by
  unfold State.atlasEnd
  split
  · rfl
  · simp [State.mirrorWrite]

@[simp] theorem State.endSwap_roster (s : State) : s.endSwap.roster = s.roster := by
  simp [State.endSwap]

@[simp] theorem State.endSwap_tenure (s : State) : s.endSwap.tenure = s.tenure := by
  simp [State.endSwap]

/-! ### Bindings that change (R19, R406) -/

/-- What a change of bindings leaves: the channel entries, the commands, and the arrays that no command occupies. -/
structure Rebinds (s t : State) : Prop where
  entries : t.tenure = s.tenure
  cmds : t.chan.cmds = s.chan.cmds
  idle : ∀ la, (s.array la).occ = none → (t.array la).occ = none

theorem Rebinds.refl (s : State) : Rebinds s s := ⟨rfl, rfl, fun _ h => h⟩

theorem Rebinds.trans {s t u : State} (h : Rebinds s t) (k : Rebinds t u) : Rebinds s u :=
  ⟨k.entries.trans h.entries, k.cmds.trans h.cmds, fun la free => k.idle la (h.idle la free)⟩

theorem Rebinds.of_frames {s t : State} (tenure : t.tenure = s.tenure) (roster : t.roster = s.roster) : Rebinds s t :=
  ⟨tenure, congrArg Roster.cmds roster, fun la free => by rwa [State.array_of_roster roster]⟩

theorem Rebinds.foldl {α : Type} {F : State → α → State} (step : ∀ s a, Rebinds s (F s a)) (l : List α) (s : State) : Rebinds s (l.foldl F s) :=
  List.foldlRecOn (motive := Rebinds s) l F (Rebinds.refl s) (fun t h a _ => h.trans (step t a))

/-- A logical array bound to another slot keeps no occupant that it had not. -/
theorem State.setArray_rebound_rebinds (s : State) (la : Nat) : Rebinds s (s.setArray la (s.array la).rebound) := by
  refine ⟨rfl, rfl, fun k free => ?_⟩
  by_cases here : k = la
  · subst here
    rw [State.array_setArray]
    unfold ArrayState.rebound ArrayState.pass ArrayState.vacate
    dsimp only
    rw [free]
    rfl
  · rwa [State.array_setArray_ne _ _ _ _ here]

theorem State.bindSwap_rebinds (s : State) (w : Swap) : Rebinds s (s.bindSwap w) := by
  unfold State.bindSwap
  dsimp only
  refine Rebinds.trans (Rebinds.of_frames rfl rfl) ((State.setArray_rebound_rebinds _ w.la).trans (Rebinds.of_frames ?_ ?_))
  · simp only [State.postRecovery, State.postAll_tenure, State.endSwap_tenure, State.atlasNote_tenure]
    rfl
  · simp only [State.postRecovery, State.postAll_roster, State.endSwap_roster]
    rfl

theorem State.settleBindings_rebinds (s : State) : Rebinds s s.settleBindings := by
  have ends (t : State) : Rebinds t t.endSwaps := by
    unfold State.endSwaps
    split
    · exact Rebinds.of_frames t.atlasEnd_tenure t.atlasEnd_roster
    · exact Rebinds.refl t
  unfold State.settleBindings
  dsimp only
  refine (Rebinds.foldl (fun t la => ?_) _ s).trans ((Rebinds.foldl (fun t w => ?_) _ _).trans (ends _))
  · split
    · exact Rebinds.of_frames rfl rfl
    · exact Rebinds.refl t
  · split
    · exact t.bindSwap_rebinds w
    · exact Rebinds.refl t

/-! ### Arrays that a command leaves (R273) -/

theorem State.freeArrays_chan (s : State) (c : Cmd) : (s.freeArrays c).chan = s.chan := by
  unfold State.freeArrays
  refine foldl_keeps State.chan _ (fun t la => ?_) _ s
  split <;> rfl

theorem State.freeArrays_occ (s : State) (c : Cmd) (la : Nat) : ((s.freeArrays c).array la).occ =
    if la ∈ c.arrays then (if (s.array la).occ.any (fun o => decide (o.cmd = c.ref)) = true then none else (s.array la).occ) else (s.array la).occ := by
  unfold State.freeArrays
  refine foldl_at (get := fun (t : State) (j : Nat) => (t.array j).occ) (key := id) (Inv := fun _ => True)
    (f := fun _ o => if o.any (fun o => decide (o.cmd = c.ref)) = true then none else o) (fun _ _ _ => trivial) (fun t k j _ => ?_) (fun k o => ?_) c.arrays trivial la
  · by_cases here : j = k
    · subst here
      by_cases mine : (t.array j).occ.any (fun o => decide (o.cmd = c.ref)) = true <;> simp [mine]
    · rw [id, if_neg here]
      split
      · rw [State.array_setArray_ne _ _ _ _ here]
      · rfl
  · by_cases mine : o.any (fun o => decide (o.cmd = c.ref)) = true <;> simp [mine]

/-- A killed command that may re-run stands fetched again, one re-run more, and holds no array. -/
theorem State.drained_reruns {s : State} {ref : CmdRef} {c : Cmd} (there : s.cmd ref = some c) (room : c.reruns < rerunLimit (s.entry c.ch)) :
    ∃ d, (s.drained c none).cmd ref = some d ∧ d.stage = .fetched ∧ d.reruns = c.reruns + 1 ∧ d.arrays = []
      ∧ ∀ la ∈ c.arrays, (s.array la).occ.any (fun o => decide (o.cmd = ref)) = true → ((s.drained c none).array la).occ = none := by
  obtain ⟨entries, cmds, idle⟩ := (s.freeArrays c).settleBindings_rebinds
  have entry : (s.freeArrays c).settleBindings.entry c.ch = s.entry c.ch := by
    rw [State.entry_of_tenure entries]
    unfold State.entry
    rw [State.freeArrays_chan]
  have listed : (s.freeArrays c).settleBindings.cmd ref = some c := by
    rw [State.cmd_of_cmds cmds, State.cmd_of_cmds (congrArg _ (s.freeArrays_chan c)), there]
  unfold State.drained
  dsimp only
  rw [if_neg (by rw [entry]; omega)]
  have name := State.cmd_name there
  refine ⟨_, State.cmd_setCmd_same listed name, rfl, rfl, rfl, fun la mem mine => idle la ?_⟩
  rw [State.freeArrays_occ, if_pos mem, if_pos (by rw [name]; exact mine)]

/-- KILL_DRAIN_COMPLETE of a command that has left its arrays. -/
theorem exec_killDrainComplete {s : State} {ref : CmdRef} {c : Cmd} (there : s.cmd ref = some c) {fin : Option (Nat × BitVec 32)} (drains : c.stage = .draining fin)
    (left : ∀ la ∈ c.arrays, (s.array la).cohorts = [] ∧ (s.array la).tq = []) : exec (.killDrainComplete ref) s = .next (s.drained c fin).finishActions.scheduleAll := by
  change execKillDrainComplete ref s = _
  unfold execKillDrainComplete
  simp only [there, drains]
  exact if_pos (List.all_eq_true.mpr (fun la mem => decide_eq_true (left la mem)))

/-! ### STEP (R311, R312) -/

section
variable {s u : State} {ref : CmdRef} {c : Cmd} (there : s.cmd ref = some c) (up : s.up = true) (kind : c.kind = 2) (ready : s.ready c = true) (unbuilt : c.build = none)
  (free : s.stepHeld c = false)
include there up kind ready unbuilt free

theorem exec_step_fails {x : StepEnd} (fails : s.stepBuild c = (.error x, u)) : exec (.step ref) s = .next (u.stepEnds c x) := by
  change execStep ref s = _
  unfold execStep
  simp [there, up, kind, ready, unbuilt, free, fails]

theorem exec_step_builds {v : State} {b : Built} (built : s.stepBuild c = (.ok b, u)) (quiet : (stepWrites c b).any (fun x => u.rangeBusy c.part x.1 x.2.length) = false)
    (put : u.putAll c 0 (stepWrites c b) = (.ok, v)) (still : v.cmd ref = some c) :
    exec (.step ref) s = .next ((v.setCmd { c with
      build := some b.walk.build, launch := some b.template, buf := [], stage := if b.walk.items = [] then .finished else c.stage }).schedule c.part) := by
  change execStep ref s = _
  unfold execStep
  simp [there, up, kind, ready, unbuilt, free, built, quiet, put, still]

end

/-! ### REPLAY (R74) -/

section
variable {s : State} {part : Fin 16} {ticket : BitVec 32} {action : Nat}

/-- A group that goes past an instruction has the live paths that it had. -/
theorem Group.live_advance (g : Group) (n : Nat) (live : g.live ≠ []) : (g.advance n).live ≠ [] := by
  unfold Group.advance Group.setPc Group.live at *
  cases paths : g.paths with
  | nil => simp [paths] at live
  | cons p t => by_cases on : p.mask = 0 <;> simp_all

theorem State.resumePark_instr (s : State) (la : Nat) (c : Cmd) (k : Fin 16) {p : Park} (instr : p.src = .instr) {g : Group} (live : g.live ≠ []) :
    s.resumePark la c k p g = (s.freePark la k).putGroup la g.resumed := by
  unfold State.resumePark
  rw [instr]
  exact if_neg live

theorem State.skipPark_instr (s : State) (la : Nat) (c : Cmd) (k : Fin 16) {p : Park} (instr : p.src = .instr) {g : Group} (live : g.live ≠ []) :
    s.skipPark la c k p g = (s.freePark la k).putGroup la (if p.fault.cls = .nanSentry then g else g.advance 8).resumed := by
  unfold State.skipPark
  rw [instr]
  by_cases sentry : p.fault.cls = .nanSentry
  · simp only [sentry, true_or, if_true]
    exact if_neg live
  · simp only [sentry, live, or_self, if_false]
    exact if_neg (g.live_advance 8 live)

/-- The park slot that a ticket names. -/
def ticketSlot (ticket : BitVec 32) : Fin 16 := ⟨field ticket 9 4 % 16, Nat.mod_lt _ (by decide)⟩

theorem State.replayOne_free (free : Tbl.get none (s.array (field ticket 0 9)).parks (ticketSlot ticket).val = none) : s.replayOne part ticket action = (1, s) := by
  change Tbl.get none (s.array (field ticket 0 9)).parks (field ticket 9 4 % 16) = none at free
  unfold State.replayOne
  dsimp only
  rw [free]
  split
  · next found => cases found
  · rfl

variable {y : Cmd} {p : Park} (occupant : s.occupantCmd (field ticket 0 9) = some y)
  (parked : Tbl.get none (s.array (field ticket 0 9)).parks (ticketSlot ticket).val = some p)
include occupant parked

theorem State.replayOne_stale (stale : y.part ≠ part ∨ p.ticket ≠ ticket) : s.replayOne part ticket action = (1, s) := by
  change Tbl.get none (s.array (field ticket 0 9)).parks (field ticket 9 4 % 16) = some p at parked
  unfold State.replayOne
  simp only [occupant, parked]
  exact if_pos stale

variable (mine : y.part = part) (names : p.ticket = ticket)
include mine names

theorem State.replayOne_unknown (unknown : 3 ≤ action) : s.replayOne part ticket action = (2, s) := by
  change Tbl.get none (s.array (field ticket 0 9)).parks (field ticket 9 4 % 16) = some p at parked
  unfold State.replayOne
  simp only [occupant, parked]
  rw [if_neg (by simp [mine, names]), if_pos (.inl unknown)]

/-- RESUME and SKIP of a group that is parked. -/
theorem State.replayOne_goes {g : Group} (whole : p.fault.cls ≠ .barrierDiverged) (goes : action < 2)
    (group : (s.array (field ticket 0 9)).groups.find? (fun g => decide (p.group = some g.num ∧ g.cohort = p.cohort)) = some g) :
    s.replayOne part ticket action =
      (0, if action = 0 then s.resumePark (field ticket 0 9) y (ticketSlot ticket) p g else s.skipPark (field ticket 0 9) y (ticketSlot ticket) p g) := by
  change Tbl.get none (s.array (field ticket 0 9)).parks (field ticket 9 4 % 16) = some p at parked
  have found : p.group.bind (fun n => (s.array (field ticket 0 9)).groups.find? (fun g => decide (g.cohort = p.cohort ∧ g.num = n))) = some g := by
    obtain ⟨number, -⟩ : p.group = some g.num ∧ g.cohort = p.cohort := by simpa using List.find?_some group
    rw [number] at group ⊢
    simpa [eq_comm, and_comm] using group
  unfold State.replayOne
  simp only [occupant, parked]
  rw [if_neg (by simp [mine, names]), if_neg (by simp [whole]; omega), if_neg (by omega)]
  simp only [found]
  rfl

end

/-- A REPLAY whose tickets leave it listed completes with their outcomes. -/
theorem exec_replay {s u : State} {ref : CmdRef} {c x : Cmd} (there : s.cmd ref = some c) (up : s.up = true) (kind : c.kind = 6) (fetched : c.stage = .fetched) {d : Nat}
    (all : s.replayAll c 0 (blk c.head 16 0 8) = (d, u)) (still : u.cmd ref = some x) :
    exec (.replay ref) s = .next ((u.finishCmd x 0 (BitVec.ofNat 32 d)).schedule x.part) := by
  change execReplay ref s = _
  unfold execReplay
  simp only [there]
  rw [if_neg (by simp [up, kind, fetched])]
  simp only [all, still]

/-- A REPLAY of one ticket. -/
theorem exec_replay_one {s u : State} {ref : CmdRef} {c : Cmd} (there : s.cmd ref = some c) (up : s.up = true) (kind : c.kind = 6) (fetched : c.stage = .fetched)
    (one : blk c.head 16 0 8 = 1) {o : Nat} (outcome : s.replayOne c.part (bits c.head 192 32) (blk c.head 56 0 8) = (o, u)) (same : u.chan.cmds = s.chan.cmds) :
    exec (.replay ref) s = .next ((u.finishCmd c 0 (BitVec.ofNat 32 o)).schedule c.part) := by
  refine exec_replay there up kind fetched ?_ ((State.cmd_of_cmds same ref).trans there)
  rw [one]
  unfold State.replayAll
  dsimp only
  rw [Nat.mul_zero, Nat.add_zero, Nat.add_zero, outcome]
  exact congrArg (fun d => (d, u)) (Nat.mul_one o)

/-! ### Interrupts (R278) -/

theorem exec_interruptHoldoffExpired {s : State} {ch : Fin 3072} (holding : (s.dyn ch).holding = true) :
    exec (.interruptHoldoffExpired ch) s = .next (if (s.dyn ch).irqDue = true
      then (s.sendChanIrq ch).setDyn ch { (s.sendChanIrq ch).dyn ch with holding := decide (blk ((s.sendChanIrq ch).entry ch) 39 0 8 ≠ 0), irqDue := false }
      else s.setDyn ch { s.dyn ch with holding := false }) := by
  change execInterruptHoldoffExpired ch s = _
  unfold execInterruptHoldoffExpired
  dsimp only
  rw [if_neg (by simp [holding])]
  split <;> rfl

/-! ### COMMIT_POINT (R216, R269) -/

theorem exec_commitPoint {s u v : State} {ref : CmdRef} {c d : Cmd} (there : s.cmd ref = some c) (up : s.up = true) (finished : c.stage = .finished)
    (applied : s.applyStep c = (true, u)) (reported : u.writeReport ((u.cmd ref).getD c) = (true, v)) (still : v.cmd ref = some d) (performed : v.performed ref = true)
    (quiet : (semEntries d.slots).any (fun e => v.rangeBusy d.part e.1 16) = false) : exec (.commitPoint ref) s = .next (v.commitTail d) := by
  change execCommitPoint ref s = _
  unfold execCommitPoint
  simp [there, up, finished, applied, reported, still, performed, quiet]

/-! ### The statement -/

/-- Settles O22: a command that commits is dropped once its record has advanced COMPLETED, a killed one is fetched anew, and of a REPLAY's one ticket the park says
what comes. -/
theorem commandsEnd : Obligations.CommandsEnd := by
  unfold Obligations.CommandsEnd
  intro s ref c there
  refine ⟨?commit, ?drain, ?builds, ?fails, ?replays, ?ticket, ?holdoff⟩
  case commit =>
    intro u v d up finished applied reported still performed quiet
    obtain ⟨w, tail, gone, counted⟩ := v.commitTail_ends d
    refine ⟨w, ?_, ?_, counted⟩
    · rw [exec_commitPoint there up finished applied reported still performed quiet, tail]
    · rwa [State.cmd_name still] at gone
  case drain =>
    intro drains left room
    obtain ⟨d, listed, stage, reruns, arrays, freed⟩ := State.drained_reruns there room
    exact ⟨_, d, exec_killDrainComplete there drains left, listed, stage, reruns, arrays, freed⟩
  case builds =>
    intro b u v up kind ready unbuilt free built quiet put still
    have name := State.cmd_name there
    exact ⟨_, _, exec_step_builds there up kind ready unbuilt free built quiet put still, State.cmd_setCmd_same still name, rfl, rfl, fun none => if_pos none⟩
  case fails =>
    intro x u up kind ready unbuilt free fails
    exact exec_step_fails there up kind ready unbuilt free fails
  case replays =>
    intro d u x up kind fetched all still
    exact exec_replay there up kind fetched all still
  case ticket =>
    intro up kind fetched one n k ends
    have run {o : Nat} {u : State} := exec_replay_one (o := o) (u := u) there up kind fetched one
    refine ⟨fun free => run (State.replayOne_free free) rfl, fun y p occupant parked => ⟨fun stale => run (State.replayOne_stale occupant parked stale) rfl, fun mine names =>
      ⟨fun unknown => run (State.replayOne_unknown occupant parked mine names unknown) rfl, fun g whole group live instr => ⟨fun resume => ?_, fun skip => ?_⟩⟩⟩⟩
    · refine run ?_ (s.freePark_cmds (field n 0 9) k)
      rw [resume, State.replayOne_goes occupant parked mine names whole (by decide) group, if_pos rfl, State.resumePark_instr _ _ _ _ instr live]
      rfl
    · refine run ?_ (s.freePark_cmds (field n 0 9) k)
      rw [skip, State.replayOne_goes occupant parked mine names whole (by decide) group, if_neg (by decide), State.skipPark_instr _ _ _ _ instr live]
      rfl
  case holdoff =>
    intro ch holding
    have run := exec_interruptHoldoffExpired holding
    refine ⟨fun idle => by rw [run, if_neg (by simp [idle])], fun due => ⟨_, run.trans (congrArg _ (if_pos due)), ?_, ?_, ?_⟩⟩
    · rw [State.dyn_setDyn]
    · rw [State.dyn_setDyn, State.entry_of_tenure (s.sendChanIrq_tenure ch)]
    · exact State.entry_of_tenure (s.sendChanIrq_tenure ch) ch

end Sys2Proof.Machine
end

section
/-! SUPPORT. Requests of the host on the inbound path (07 R217, R218; 11 R315, R318, R323, R331, R333, R378): configuration, apertures and completions, by the
function and the partition that serve them. -/

namespace Sys2Proof.Machine

/-! ### Configuration (R331, R333) -/

section
variable {s : State} {port : Fin 2} {fn : Fin 128} (powered : s.powered = true) (released : (s.port port).released = true) (linked : (s.port port).linkUp = true)
  (published : s.pow.stage = .published) (there : s.fnExists port fn = true)
include powered released linked published there

theorem exec_configRequest_resetting (virtual : fn ≠ 0) (resetting : (s.fn port fn).mode = .resetting) (op : CfgOp) :
    exec (.configRequest port fn op) s = .next (s.emit (.configRetry port fn)) := by
  change execConfigRequest port fn op s = _
  unfold execConfigRequest
  simp [powered, released, linked, published, there, virtual, resetting]

theorem exec_configRequest_answers (answers : fn = 0 ∨ (s.fn port fn).mode ≠ .resetting) :
    exec (.configRequest port fn .read) s = .next (s.emit (.configDone port fn))
    ∧ ∀ b v, exec (.configRequest port fn (.write b v)) s = .next ((s.configWrite port fn b v).emit (.configDone port fn)) := by
  have serves : ¬ (fn ≠ 0 ∧ (s.fn port fn).mode = .resetting) := fun h => answers.elim h.1 (fun k => k h.2)
  refine ⟨?_, fun b v => ?_⟩
  · change execConfigRequest port fn .read s = _
    unfold execConfigRequest
    rw [if_neg (by simp [powered, released, linked]), if_neg (by simp [published]), if_neg (by simp [there]), if_neg serves]
  · change execConfigRequest port fn (.write b v) s = _
    unfold execConfigRequest
    rw [if_neg (by simp [powered, released, linked]), if_neg (by simp [published]), if_neg (by simp [there]), if_neg serves]

end

/-! ### Apertures (R218, R318, R331) -/

/-- The state in which an inbound request stands alone, its bytes charged. -/
def State.arrives (s : State) (x : InReq) : State :=
  { s.charge x.part none .memory x.len with host := { (s.charge x.part none .memory x.len).host with inbound := [x] } }

theorem State.rangeBusy_arrives (s : State) (x : InReq) (p : Fin 16) (va n : Nat) : (s.arrives x).rangeBusy p va n = s.rangeBusy p va n := by
  have same (va : Nat) : (s.arrives x).locate p va false = s.locate p va false :=
    State.locate_congr (s := s) (t := s.arrives x) (fun _ => rfl) (fun _ => rfl) rfl rfl rfl va false
  unfold State.rangeBusy
  simp only [same]
  rfl

theorem State.inServe_read {s u : State} {port : Fin 2} {fn : Fin 128} {p : Fin 16} {va n : Nat} {tlp : TlpHints} {b : List Byte} {q : Bool}
    (loads : s.apertureLoads port p (lineCuts va n) = (b, q, u)) : s.inServe ⟨port, fn, p, va, n, none, tlp⟩ =
      if q = true then (u.emit (.poisonedCompletion port fn b)).emit (.aer port fn) else u.emit (.completion port fn 0 b) := by
  unfold State.inServe
  dsimp only
  rw [loads]

/-- An inbound request that is alone waits while a line of it has a transaction, and is served at once otherwise. -/
theorem State.inbound_alone {s : State} (alone : s.host.inbound = []) (x : InReq) :
    (s.rangeBusy x.part x.va x.len = true → s.inbound x = s.arrives x)
    ∧ (s.rangeBusy x.part x.va x.len = false → s.inbound x = { (s.arrives x).inServe x with host := { ((s.arrives x).inServe x).host with inbound := [] } }) := by
  have joins : s.inbound x = (s.arrives x).drainIn := by
    unfold State.inbound
    rw [alone]
    rfl
  have one : (s.arrives x).host.inbound = [x] := rfl
  rw [joins]
  unfold State.drainIn
  rw [one]
  simp only [List.foldl_cons, List.foldl_nil, List.any_nil, Bool.false_or, State.rangeBusy_arrives]
  refine ⟨fun busy => ?_, fun quiet => ?_⟩
  · rw [if_pos busy]
    rfl
  · rw [if_neg (by simp [quiet])]

section
variable {s : State} {port : Fin 2} {fn : Fin 128} (port_serves : s.portServes port = true) (kept : s.tlpDropped port fn = false) (off : BitVec 36)
include port_serves kept

theorem exec_apertureWrite (d : List Byte) (tlp : TlpHints) : exec (.apertureWrite port fn off d tlp) s = .next
    (if s.fnServes port fn = true then (s.aperturePart port fn).elim s (fun p => s.inbound ⟨port, fn, p, apertureBase + off.toNat, d.length, some d, tlp⟩) else s) := by
  change execApertureWrite port fn off d tlp s = _
  unfold execApertureWrite
  by_cases serves : s.fnServes port fn = true
  · rw [if_neg (by simp [port_serves, serves, kept]), if_pos serves]
    cases s.aperturePart port fn <;> rfl
  · rw [if_pos (.inr (.inl (by simpa using serves))), if_neg serves]

theorem exec_apertureRead (n : Nat) : exec (.apertureRead port fn off n) s = .next
    (if s.fnServes port fn = true then (s.aperturePart port fn).elim (s.emit (.completion port fn 0 (List.replicate n 0xFF)))
      (fun p => s.inbound ⟨port, fn, p, apertureBase + off.toNat, n, none, ⟨false, none, false⟩⟩) else s.emit (.completion port fn 1 [])) := by
  change execApertureRead port fn off n s = _
  unfold execApertureRead
  rw [if_neg (by simp [port_serves, kept])]
  by_cases serves : s.fnServes port fn = true
  · rw [if_neg (by simp [serves]), if_pos serves]
    cases s.aperturePart port fn <;> rfl
  · rw [if_pos (by simpa using serves), if_neg serves]

end

/-! ### Completions (R217, R315, R331) -/

theorem exec_pcieCompletion {s : State} {tag : Nat} {st : CplStatus} {d : List Byte} {r : HostTag}
    (found : s.host.reads.find? (fun r => decide (r.tag = tag) && r.held.isNone) = some r) (powered : s.powered = true) (whole : st = .success → d.length = r.len)
    (kept : s.tlpDropped r.port r.fn = false) :
    let t := if (s.fn r.port r.fn).mode = .resetting then s else s.hostData r st d
    exec (.pcieCompletion tag st d) s = .next { t with host := { t.host with reads := t.host.reads.filter (fun x => decide (x.tag ≠ tag)) } }.settleInvals := by
  change execPcieCompletion tag st d s = _
  unfold execPcieCompletion
  simp only [found]
  rw [if_neg (by simp [powered, kept]; exact whole)]

end Sys2Proof.Machine
end

section
/-! SUPPORT. Page requests, bindings and bitmaps of the functions (11 R317, R324, R325, R337, R338): what is left of the list of page requests, and what a write of
PCIE_FN_BIND makes of a function; with these the statement about requests of the host. -/

namespace Sys2Proof.Machine

/-! ### Page requests (R325) -/

theorem State.sendPage_pages (s : State) (port : Fin 2) (fn : Fin 128) {tag : Nat} (gone : ∀ y ∈ s.host.pages, y.tag ≠ tag) :
    ∀ y ∈ (s.sendPage port fn).host.pages, y.tag ≠ tag := by
  unfold State.sendPage
  dsimp only
  split
  · exact gone
  · split
    · exact gone
    · intro y mem
      obtain ⟨q, listed, rfl⟩ := List.mem_map.mp mem
      split <;> exact gone q listed

theorem State.sendPage_chan (s : State) (port : Fin 2) (fn : Fin 128) : (s.sendPage port fn).chan = s.chan := by
  unfold State.sendPage
  dsimp only
  split
  · rfl
  · split <;> rfl

/-- The state in which a page request that was answered is no longer listed. -/
def State.pageTaken (s : State) (tag : Nat) : State := { s with host := { s.host with pages := s.host.pages.filter (fun y => decide (y.tag ≠ tag)) } }

theorem State.pageTaken_pages (s : State) (tag : Nat) : ∀ y ∈ (s.pageTaken tag).host.pages, y.tag ≠ tag := fun _ mem => of_decide_eq_true (List.mem_filter.mp mem).2

/-- A page request of the same function that was not sent. -/
def PageReq.withholds (x r : PageReq) : Bool := decide (r.port = x.port ∧ r.fn = x.fn) && !r.sent

/-- The state in which a function's page requests have failed, and those not sent are dropped. -/
def State.pageFails (s : State) (x : PageReq) : State :=
  let t := s.setFn x.port x.fn { s.fn x.port x.fn with pageFail := true }
  { t with host := { t.host with pages := t.host.pages.filter (fun r => !x.withholds r) } }

theorem State.pageFailed_eq (s : State) (x : PageReq) :
    s.pageFailed x = (x :: s.host.pages.filter x.withholds).foldl (fun s r => s.pageRefused r) (s.pageFails x) := rfl

/-- A Response Failure refuses the page request and those of its function that were not sent. -/
theorem State.pageTaken_failed (s : State) (tag : Nat) (x : PageReq) : ∃ w : State,
    (s.pageTaken tag).pageFailed x =
      (x :: s.host.pages.filter (fun r => decide (r.port = x.port ∧ r.fn = x.fn ∧ r.sent = false ∧ r.tag ≠ tag))).foldl (fun s r => s.pageRefused r) w
    ∧ w.arr = s.arr ∧ w.chan = s.chan ∧ w.out = s.out ∧ (w.fn x.port x.fn).pageFail = true
    ∧ ∀ y ∈ w.host.pages, y.tag ≠ tag ∧ ¬ (y.port = x.port ∧ y.fn = x.fn ∧ y.sent = false) := by
  have gone : (s.pageTaken tag).host.pages.filter x.withholds =
      s.host.pages.filter (fun r => decide (r.port = x.port ∧ r.fn = x.fn ∧ r.sent = false ∧ r.tag ≠ tag)) := by
    refine List.filter_filter.trans (List.filter_congr (fun r _ => ?_))
    cases sent : r.sent <;> simp [PageReq.withholds, sent, Bool.and_assoc]
  refine ⟨(s.pageTaken tag).pageFails x, ?_, rfl, rfl, rfl, ?_, fun y mem => ?_⟩
  · rw [State.pageFailed_eq, gone]
  · exact congrArg FnState.pageFail (State.fn_setFn _ _ _ _)
  · obtain ⟨listed, other⟩ := List.mem_filter.mp mem
    exact ⟨s.pageTaken_pages tag y listed, fun ⟨port, fn, sent⟩ => by simp [PageReq.withholds, port, fn, sent] at other⟩

theorem exec_pageRequestResponse {s : State} {tag : Nat} {x : PageReq} (up : s.up = true) (found : s.host.pages.find? (fun x => decide (x.tag = tag) && x.sent) = some x)
    (serves : (s.fn x.port x.fn).mode ≠ .resetting) :
    exec (.pageRequestResponse tag .success) s = .next (((s.pageTaken tag).sendPage x.port x.fn).pageGranted x)
    ∧ exec (.pageRequestResponse tag .invalid) s = .next (((s.pageTaken tag).sendPage x.port x.fn).pageRefused x)
    ∧ exec (.pageRequestResponse tag .failure) s = .next ((s.pageTaken tag).pageFailed x) := by
  have run (r : PrgResult) : execPageRequestResponse tag r s = match r with
      | .success => .next (((s.pageTaken tag).sendPage x.port x.fn).pageGranted x)
      | .invalid => .next (((s.pageTaken tag).sendPage x.port x.fn).pageRefused x)
      | .failure => .next ((s.pageTaken tag).pageFailed x) := by
    unfold execPageRequestResponse
    simp only [found]
    rw [if_neg (by simp [up, serves])]
    cases r <;> rfl
  exact ⟨run .success, run .invalid, run .failure⟩

/-! ### Bindings (R317, R338) -/

/-- What of a function its loss of the core default leaves. -/
theorem State.clearDefaults_fn (s : State) (p : Fin 16) (port : Fin 2) (fn : Fin 128) :
    ((s.clearDefaults p).fn port fn).bound = (s.fn port fn).bound ∧ ((s.clearDefaults p).fn port fn).bindRefused = (s.fn port fn).bindRefused := by
  unfold State.clearDefaults State.fn
  dsimp only
  refine List.foldlRecOn (motive := fun t : Tbl FnState => (Tbl.get FnState.reset t (fnKey port fn)).bound = (Tbl.get FnState.reset s.host.fns (fnKey port fn)).bound
    ∧ (Tbl.get FnState.reset t (fnKey port fn)).bindRefused = (Tbl.get FnState.reset s.host.fns (fnKey port fn)).bindRefused) _ _ ⟨rfl, rfl⟩ (fun t ht k _ => ?_)
  split
  · by_cases here : fnKey port fn = k.val
    · rw [here, Tbl.get_set_same]
      rw [here] at ht
      exact ht
    · rw [Tbl.get_set_ne _ _ _ _ _ here]
      exact ht
  · exact ht

/-- The core default of a function is as its register asks, and its binding stays. -/
theorem State.setDefault_fn (s : State) (port : Fin 2) (fn : Fin 128) (p : Option (Fin 16)) (on : Bool) (pasid : BitVec 20) :
    ∃ f : FnState, (s.setDefault port fn p on pasid).fn port fn = { f with coreDefault := on && p.isSome, corePasid := pasid }
      ∧ f.bound = (s.fn port fn).bound ∧ f.bindRefused = (s.fn port fn).bindRefused := by
  have parts : (allParts.foldl (fun s q => if ((s.partition q).coreDefault.map (·.1)) = some (fnWord port fn)
      then s.setPartition q { s.partition q with coreDefault := none } else s) s).fn port fn = s.fn port fn :=
    foldl_keeps (fun s => s.fn port fn) _ (fun t q => by dsimp only; split <;> rfl) _ s
  unfold State.setDefault
  dsimp only
  generalize allParts.foldl _ s = t at parts ⊢
  refine ⟨_, State.fn_setFn _ _ _ _, ?_⟩
  rw [← parts]
  cases p with
  | none => exact ⟨rfl, rfl⟩
  | some p =>
    dsimp only
    split
    · simp only [State.fn_setPartition']
      exact t.clearDefaults_fn p port fn
    · exact ⟨rfl, rfl⟩

/-- What PCIE_FN_BIND asks a virtual function to be bound to. -/
def bindWant (v : Word) : Option (Fin 16) := if v.getLsbD 4 then some (toPart (field v 0 4)) else none

/-- A function is locked whose partition accepted it. -/
def State.fnLocked (s : State) (port : Fin 2) (fn : Fin 128) : Bool :=
  (s.fn port fn).bound.any (fun p => (s.partition p).lock.any (fun l => l.accepted.contains (fnWord port fn)))

/-- A function is busy whose channels are not all DISABLED. -/
def State.fnBusy (s : State) (port : Fin 2) (fn : Fin 128) : Bool := (s.fnChans port fn).any (fun ch => decide (entState (s.entry ch) ≠ 0))

/-- A write of PCIE_FN_BIND to a virtual function: refused while it is locked; else its binding follows unless a channel is busy, and its core default follows. -/
theorem State.bindFn_eq (s : State) (port : Fin 2) {fn : Fin 128} (virtual : fn ≠ 0) (v : Word) : ∃ g : FnState, g.bound = (s.fn port fn).bound ∧ s.bindFn port fn v =
    if s.fnLocked port fn = true
    then s.setFn port fn { g with bindRefused := g.bindRefused || decide (bindWant v ≠ g.bound ∨ v.getLsbD 5 ≠ g.coreDefault ∨ bits v 8 20 ≠ g.corePasid) }
    else
      let refused := decide (bindWant v ≠ g.bound) && s.fnBusy port fn
      let now := if refused = true then g.bound else bindWant v
      (s.setFn port fn { g with bound := now, bindRefused := g.bindRefused || refused }).setDefault port fn now (v.getLsbD 5) (bits v 8 20) := by
  have kept : (if v.getLsbD 32 then { s.fn port fn with bindRefused := false } else s.fn port fn).bound = (s.fn port fn).bound := by split <;> rfl
  refine ⟨_, kept, ?_⟩
  unfold State.bindFn State.fnLocked State.fnBusy bindWant
  dsimp only
  rw [if_neg virtual, if_neg virtual, kept]

theorem State.bindFn_locked (s : State) (port : Fin 2) {fn : Fin 128} (virtual : fn ≠ 0) (v : Word) (locked : s.fnLocked port fn = true) :
    ((s.bindFn port fn v).fn port fn).bound = (s.fn port fn).bound ∧ (bindWant v ≠ (s.fn port fn).bound → ((s.bindFn port fn v).fn port fn).bindRefused = true) := by
  obtain ⟨g, bound, run⟩ := s.bindFn_eq port virtual v
  rw [run, if_pos locked, State.fn_setFn]
  exact ⟨bound, fun other => by simp [bound, other]⟩

theorem State.bindFn_unlocked (s : State) (port : Fin 2) {fn : Fin 128} (virtual : fn ≠ 0) (v : Word) (unlocked : s.fnLocked port fn = false) :
    let refused := decide (bindWant v ≠ (s.fn port fn).bound) && s.fnBusy port fn
    let now := if refused = true then (s.fn port fn).bound else bindWant v
    let f := (s.bindFn port fn v).fn port fn
    f.bound = now ∧ (refused = true → f.bindRefused = true) ∧ f.corePasid = bits v 8 20 ∧ f.coreDefault = (v.getLsbD 5 && now.isSome) := by
  obtain ⟨g, bound, run⟩ := s.bindFn_eq port virtual v
  rw [if_neg (by simp [unlocked]), bound] at run
  obtain ⟨f, default, follows, refused⟩ := State.setDefault_fn _ port fn _ (v.getLsbD 5) (bits v 8 20)
  dsimp only at run ⊢
  rw [run, default]
  rw [State.fn_setFn] at follows refused
  exact ⟨follows, fun busy => refused.trans (by dsimp only; rw [busy, Bool.or_true]), rfl, rfl⟩

/-- A port's registers name a function: the write of PCIE_FN_BIND is one for it. -/
theorem exec_pcieFnBind {s : State} {port : Fin 2} {fn : Fin 128} (serves : s.barServes port 0 = true) (selected : (s.port port).fnSelect.toNat = fn.val) (v : Word) :
    exec (.pcieFnBind port v) s = .next (s.bindFn port fn v) := by
  have named : (⟨(s.port port).fnSelect.toNat, (s.port port).fnSelect.isLt⟩ : Fin 128) = fn := Fin.ext selected
  change execPcieFnBind port v s = _
  unfold execPcieFnBind
  rw [if_pos serves]
  exact congrArg (fun k => Host.Outcome.next (s.bindFn port k v)) named

/-! ### Dirty-page logging (R337) -/

theorem exec_flip {s : State} {port : Fin 2} {fn : Fin 128} (serves : s.barServes port 0 = true) (selected : (s.port port).fnSelect.toNat = fn.val) :
    exec (.flip port) s = .next (s.flipFn port fn) := by
  have named : (⟨(s.port port).fnSelect.toNat, (s.port port).fnSelect.isLt⟩ : Fin 128) = fn := Fin.ext selected
  change execFlip port s = _
  unfold execFlip
  rw [if_pos serves]
  exact congrArg (fun k => Host.Outcome.next (s.flipFn port k)) named

theorem State.askTag_reads (s : State) (port : Fin 2) (fn : Fin 128) (a : Word) (n : Nat) (use : HostFor) (x : HostSend) :
    ∃ r ∈ (s.askTag port fn a n use x).host.reads, r.port = port ∧ r.fn = fn ∧ r.len = n := by
  unfold State.askTag
  dsimp only
  have sent (t : State) (r : HostTag) : (t.sendTag r x).host = t.host := by cases x <;> rfl
  split
  · rw [sent]
    exact ⟨_, List.mem_append_right _ (List.mem_singleton_self _), rfl, rfl, rfl⟩
  · exact ⟨_, List.mem_append_right _ (List.mem_singleton_self _), rfl, rfl, rfl⟩

/-- FLIP_COMPLETE ends the flip, and a zero-length read of the physical function is on its way. -/
theorem flipComplete_ends {s : State} {port : Fin 2} {fn : Fin 128} (up : s.up = true) (busy : (s.fn port fn).flipBusy = true) :
    ∃ t : State, exec (.flipComplete port fn) s = .next t ∧ (t.fn port fn).flipDone = true ∧ (t.fn port fn).flipBusy = false
      ∧ ∃ r ∈ t.host.reads, r.port = port ∧ r.fn = 0 ∧ r.len = 0 := by
  change ∃ t, execFlipComplete port fn s = _ ∧ _
  unfold execFlipComplete
  dsimp only
  rw [if_neg (by simp [up, busy])]
  refine ⟨_, rfl, by rw [State.fn_setFn], by rw [State.fn_setFn], ?_⟩
  have kept (l : List (Fin 2 × Word × BitVec 64)) (t : State) : (l.foldl State.writeBackWord t).host.reads = t.host.reads :=
    foldl_keeps (fun t : State => t.host.reads) State.writeBackWord (fun _ _ => rfl) l t
  change ∃ r ∈ (List.foldl State.writeBackWord _ _).host.reads, _
  rw [kept]
  exact s.askTag_reads port 0 _ 0 _ _

/-! ### The statement -/

/-- Settles O42: each request acts on what it names, once the port, the function and the partition serve it. -/
theorem hostRequestsComplete : Obligations.HostRequestsComplete := by
  unfold Obligations.HostRequestsComplete
  intro s port fn f
  refine ⟨?config, ?aperture, ?atomic, ?completion, ?invalidate, ?pages, ?bind, ?flip, fun up busy => flipComplete_ends up busy⟩
  case config =>
    intro powered released linked published there
    refine ⟨fun answers => ?_, fun virtual resetting op => exec_configRequest_resetting powered released linked published there virtual resetting op⟩
    obtain ⟨reads, writes⟩ := exec_configRequest_answers powered released linked published there answers
    exact ⟨reads, fun v => writes .relaxedOrdering v, writes⟩
  case aperture =>
    intro serves kept off
    have write (d : List Byte) (tlp : TlpHints) := exec_apertureWrite serves kept off d tlp
    have read (n : Nat) := exec_apertureRead serves kept off n
    refine ⟨?bound, fun on unbound => ⟨fun d tlp => ?_, fun n => ?_⟩, fun away => ⟨fun d tlp => ?_, fun n => ?_⟩⟩
    case bound =>
      intro on p bound va arrived served alone
      refine ⟨fun d tlp => ?_, fun n v arrives => ?_⟩
      · obtain ⟨waits, goes⟩ := State.inbound_alone alone ⟨port, fn, p, va, d.length, some d, tlp⟩
        rw [write, if_pos on, bound]
        exact ⟨fun busy => congrArg _ (waits busy), fun quiet => congrArg _ (goes quiet)⟩
      · obtain ⟨waits, goes⟩ := State.inbound_alone alone ⟨port, fn, p, va, n, none, ⟨false, none, false⟩⟩
        rw [read, if_pos on, bound]
        refine ⟨fun busy => (congrArg _ (waits busy)).trans (congrArg _ arrives.symm), fun quiet b q u loads => ?_⟩
        refine congrArg _ ((goes quiet).trans ?_)
        rw [State.inServe_read (arrives ▸ loads)]
    · rw [write, if_pos on, unbound]
      rfl
    · rw [read, if_pos on, unbound]
      rfl
    · rw [write, if_neg (by simp [away])]
    · rw [read, if_neg (by simp [away])]
  case atomic => exact fun serves => if_pos serves
  case completion =>
    intro tag st d r found powered whole kept
    refine ⟨_, exec_pcieCompletion found powered whole kept, fun x mem => of_decide_eq_true (List.mem_filter.mp mem).2, fun resetting => ?_, fun serves => ?_⟩
    · rw [if_pos resetting]
      exact ⟨rfl, rfl⟩
    · rw [if_neg serves]
      exact ⟨rfl, rfl⟩
  case invalidate =>
    intro pasid first count serves there
    refine ⟨_, if_neg (by simp [serves, there]), rfl, fun e => ?_⟩
    simp only [List.mem_filter, Bool.not_eq_true', decide_eq_false_iff_not]
  case pages =>
    intro tag x up found serves
    obtain ⟨success, invalid, failure⟩ := exec_pageRequestResponse up found serves
    refine ⟨_, State.sendPage_pages _ _ _ (s.pageTaken_pages tag), congrArg Roster.arr (State.sendPage_roster (s.pageTaken tag) _ _), State.sendPage_chan _ _ _, success, invalid, ?_⟩
    obtain ⟨w, fails, rest⟩ := s.pageTaken_failed tag x
    exact ⟨w, failure.trans (congrArg _ fails), rest⟩
  case bind =>
    intro serves selected v want locked busy
    have run := exec_pcieFnBind serves selected v
    refine ⟨fun virtual open' idle => ?_, fun virtual refuses => ?_⟩
    · obtain ⟨bound, -, pasid, default⟩ := s.bindFn_unlocked port virtual v open'
      have taken : ¬ (decide (bindWant v ≠ (s.fn port fn).bound) && s.fnBusy port fn) = true := by
        rw [show s.fnBusy port fn = false from idle, Bool.and_false]
        exact Bool.false_ne_true
      rw [if_neg taken] at bound default
      exact ⟨_, run, bound, pasid, default⟩
    · refine ⟨_, run, ?_⟩
      by_cases lock : s.fnLocked port fn = true
      · exact s.bindFn_locked port virtual v lock
      · obtain ⟨occupied, other⟩ := refuses.resolve_left lock
        obtain ⟨bound, refused, -⟩ := s.bindFn_unlocked port virtual v (by simpa using lock)
        have kept : (decide (bindWant v ≠ (s.fn port fn).bound) && s.fnBusy port fn) = true :=
          Bool.and_eq_true_iff.mpr ⟨decide_eq_true other, occupied⟩
        exact ⟨bound.trans (if_pos kept), fun _ => refused kept⟩
  case flip =>
    intro serves selected
    have run := exec_flip serves selected
    unfold State.flipFn at run
    exact ⟨fun idle => run.trans (congrArg _ (if_neg (ne_true_of_eq_false idle))), fun busy => run.trans (congrArg _ (if_pos busy))⟩

end Sys2Proof.Machine
end

section
/-! SUPPORT. Internal links (08 R226-R231): what is read of a link and of a lane group after each of their updates; with these the statement
about pass masks. -/

namespace Sys2Proof.Machine

/-! ### Links and lane groups -/

@[simp] theorem State.d2d_setD2d (s : State) (l : Nat) (x : DieLink) : (s.setD2d l x).d2d l = x := Tbl.get_set_same _ _ _ _
theorem State.d2d_setD2d_ne (s : State) (l k : Nat) (x : DieLink) (h : k ≠ l) : (s.setD2d l x).d2d k = s.d2d k := Tbl.get_set_ne _ _ _ _ _ h

@[simp] theorem State.laneGroup_setLaneGroup (s : State) (l : Nat) (dir : Fin 2) (g : Fin 80) (x : LaneGroup) : (s.setLaneGroup l dir g x).laneGroup l dir g = x :=
  Tbl.get_set_same _ _ _ _

theorem otherDie_ne (dir : Fin 2) : otherDie dir ≠ dir := by
  fin_cases dir <;> decide

theorem groupKey_ne (l : Nat) {d e : Fin 2} (g : Fin 80) (h : d ≠ e) : groupKey l d g ≠ groupKey l e g := by
  unfold groupKey
  have := Fin.val_ne_of_ne h
  omega

/-- The two directions of a lane group are apart. -/
theorem State.laneGroup_setLaneGroup_ne (s : State) (l : Nat) {d e : Fin 2} (g : Fin 80) (x : LaneGroup) (h : d ≠ e) :
    (s.setLaneGroup l e g x).laneGroup l d g = s.laneGroup l d g := Tbl.get_set_ne _ _ _ _ _ (groupKey_ne l g h)

theorem State.laneGroup_freshGroups (s : State) (l : Nat) (dir : Fin 2) (g : Fin 80) : (s.freshGroups l).laneGroup l dir g = LaneGroup.reset := by
  have link : groupKey l dir g / 160 = l := by
    unfold groupKey
    omega
  exact (Tbl.get_filter_key _ (fun k => decide (k / 160 ≠ l)) _ _).trans (if_neg (by simp [link]))

/-! ### Routes and training (R229-R231) -/

/-- A path is chosen anew: each link keeps all but the hub of its path. -/
theorem State.d2d_reroute (s : State) (l : Nat) : ∃ via, s.reroute.d2d l = { s.d2d l with via := via } := by
  unfold State.reroute
  refine List.foldlRecOn (motive := fun t : State => ∃ via, t.d2d l = { s.d2d l with via := via }) _ _ ⟨_, rfl⟩ (fun t ⟨via, ht⟩ k _ => ?_)
  by_cases here : l = k
  · subst here
    exact ⟨_, (State.d2d_setD2d _ _ _).trans (by rw [ht])⟩
  · exact ⟨via, (State.d2d_setD2d_ne _ _ _ _ here).trans ht⟩

theorem State.laneGroup_reroute (s : State) (l : Nat) (dir : Fin 2) (g : Fin 80) : s.reroute.laneGroup l dir g = s.laneGroup l dir g := by
  unfold State.reroute
  refine foldl_keeps (fun t : State => t.laneGroup l dir g) _ (fun t k => ?_) _ s
  rfl

/-- A link in training from T1, with its retraining unspent (R230). -/
def DieLink.afresh (l : Nat) (x : DieLink) : DieLink := { x with mode := .training 0 (allGroups l) (allGroups l), retrained := false }

theorem State.d2d_trainAfresh (ls : List Nat) (s : State) (l : Nat) :
    (s.trainAfresh ls).d2d l = if l ∈ ls then if (s.d2d l).barred then s.d2d l else (s.d2d l).afresh l else s.d2d l := by
  unfold State.trainAfresh
  refine foldl_at (get := State.d2d) (key := id) (f := fun k x => if x.barred then x else x.afresh k) (Inv := fun _ => True) (fun _ _ => id) (fun t k j _ => ?step)
    (fun k x => ?again) ls trivial l
  case step =>
    by_cases here : j = k
    · subst here
      by_cases barred : (t.d2d j).barred = true
      · simp [barred]
      · rw [if_neg barred, State.d2d_setD2d]
        simp [barred, DieLink.afresh]
    · refine Eq.trans ?_ (if_neg here).symm
      split
      · rfl
      · exact State.d2d_setD2d_ne _ _ _ _ here
  case again =>
    by_cases barred : x.barred = true <;> simp [barred, DieLink.afresh]

theorem State.dieState_trainAfresh (ls : List Nat) (s : State) (d : Nat) : (s.trainAfresh ls).dieState d = s.dieState d := by
  unfold State.trainAfresh
  refine foldl_keeps (fun t : State => t.dieState d) _ (fun t l => ?_) ls s
  split <;> rfl

/-- Domains that are asked for leave the links. -/
theorem foldl_wantDomain_link (l : List Nat) (s : State) : (l.foldl (fun s k => s.wantDomain k) s).link = s.link := by
  refine foldl_keeps State.link _ (fun t k => ?_) l s
  unfold State.wantDomain
  split <;> rfl

/-! ### The outcome of T6 (R230) -/

theorem exec_passMaskCompare {s : State} {l : Fin 22} {m0 m1 : BitVec 80} (compares : (s.d2d l.val).mode = .compare m0 m1) :
    exec (.passMaskCompare l) s =
      let d := (linkEnds l.val).1
      let u := s.compareMasks l.val m0 m1
      .next (if (s.dieState d).mode = .selfTest ∧ (u.dieState d).mode ≠ .selfTest then u.postRecovery (s.dieParts d) (unitId 3 d) (if d < 8 then 2 else 3) (some 1) else u) := by
  change execPassMaskCompare l s = _
  unfold execPassMaskCompare
  simp only [compares]
  exact (apply_ite Host.Outcome.next _ _ _).symm

theorem State.compareMasks_up (s : State) (l : Nat) :
    let u := s.compareMasks l (allGroups l) (allGroups l)
    (u.d2d l).mode = .up ∧ (u.d2d l).retrained = (s.d2d l).retrained ∧ (u.d2d l).barred = (s.d2d l).barred ∧ ∀ dir g, u.laneGroup l dir g = LaneGroup.reset := by
  unfold State.compareMasks
  dsimp only
  rw [if_pos rfl, if_pos rfl]
  obtain ⟨via, kept⟩ := State.d2d_reroute ((s.freshGroups l).setD2d l { s.d2d l with mode := .up }) l
  rw [kept, State.d2d_setD2d]
  exact ⟨rfl, rfl, rfl, fun dir g => (State.laneGroup_reroute _ l dir g).trans (s.laneGroup_freshGroups l dir g)⟩

/-! ### Partial resets (R230, R408) -/

theorem exec_partialReset_die {s : State} {d : Fin 10} (up : s.up = true)
    (due : (s.dieState (dieOf d)).mode = .lost ∨ ((s.dieState (dieOf d)).mode = .selfTest ∧ ∃ l ∈ linksOf (dieOf d), (s.d2d l).mode ≠ .up)) :
    ∃ t : State, exec (.partialReset (.die d)) s = .next (t.trainAfresh (linksOf (dieOf d))) ∧ (t.dieState (dieOf d)).mode = .selfTest ∧ ∀ l, t.d2d l = s.d2d l := by
  change ∃ t, execPartialReset (.die d) s = _ ∧ _
  unfold execPartialReset
  rw [if_neg (by simp [up])]
  rcases due with lost | ⟨testing, l, mem, trains⟩
  · let r := (unitDomains (dieOf d)).foldl (fun s k => s.wantDomain k) (s.setDie (dieOf d) { s.dieState (dieOf d) with mode := .selfTest })
    have link : r.link = (s.setDie (dieOf d) { s.dieState (dieOf d) with mode := .selfTest }).link := foldl_wantDomain_link _ _
    refine ⟨r, by simp [lost, r], ?_, fun l => ?_⟩
    · unfold State.dieState
      rw [link]
      exact congrArg DieState.mode (State.dieState_setDie s _ _)
    · unfold State.d2d
      rw [link]
      rfl
  · have some : (linksOf (dieOf d)).any (fun l => decide ((s.d2d l).mode ≠ .up)) = true := List.any_eq_true.mpr ⟨l, mem, decide_eq_true trains⟩
    refine ⟨s, ?_, testing, fun _ => rfl⟩
    dsimp only
    rw [if_pos testing, if_pos some]

theorem exec_partialReset_link {s : State} {l : Fin 22} {k : Fin 4} {m0 m1 : BitVec 80} (up : s.up = true) (trains : (s.d2d l.val).mode = .training k m0 m1) (free : (s.d2d l.val).barred = false)
    (ends : ∀ d, d = (linkEnds l.val).1 ∨ d = (linkEnds l.val).2 → (s.dieState d).mode = .present ∨ (s.dieState d).mode = .selfTest) :
    exec (.partialReset (.link l)) s = .next (s.setD2d l.val ((s.d2d l.val).afresh l.val)) := by
  change execPartialReset (.link l) s = _
  unfold execPartialReset
  rw [if_neg (by simp [up])]
  dsimp only
  rw [if_neg (by simp [trains, ends _ (.inl rfl), ends _ (.inr rfl)])]
  exact congrArg _ (if_neg (by simp [free]))

/-- Settles O37: the comparison is `State.compareMasks`, and a partial reset is `State.trainAfresh` of the links that it names. -/
theorem passMasksDecideTheLink : Obligations.PassMasksDecideTheLink := by
  unfold Obligations.PassMasksDecideTheLink
  refine ⟨fun s l m0 m1 compares => ?masks, fun s d up due => ?die, fun s l k m0 m1 up trains free ends => exec_partialReset_link up trains free ends⟩
  case masks =>
    refine ⟨s.compareMasks l.val m0 m1, exec_passMaskCompare compares, fun same all => ?_, fun same some => ?_, fun differ first => ?_, fun differ again => ?_⟩
    · subst same all
      exact s.compareMasks_up l.val
    · rw [State.compareMasks, if_pos same, if_neg some]
    · rw [State.compareMasks, if_neg differ, if_neg (by simp [first]), State.d2d_setD2d]
    · rw [State.compareMasks, if_neg differ, if_pos again]
  case die =>
    obtain ⟨t, run, testing, links⟩ := exec_partialReset_die up due
    refine ⟨_, run, by rw [State.dieState_trainAfresh]; exact testing, fun l mem free => ?_, fun l stays => ?_⟩ <;> rw [State.d2d_trainAfresh, links]
    · rw [if_pos mem, if_neg (by simp [free])]
      rfl
    · rcases stays with apart | barred
      · exact if_neg apart
      · rw [barred, if_pos rfl, ite_self]

end Sys2Proof.Machine
end

section
/-! SUPPORT. The guest site (08 R236-R241): training from its first step and its outcome, and requests that leave the input buffer; with these the statements about
the guest. -/

namespace Sys2Proof.Machine

/-! ### Training starts (R236, R238, R241) -/

theorem State.guestDrop_idle {s : State} (idle : s.link.guest.reads = []) :
    s.guestDrop = s.setGuest { s.link.guest with reads := [], waiting := [], credits := 0, dataCredits := 0 } := by
  unfold State.guestDrop
  rw [idle]
  rfl

/-- The partition's root stands, and nothing of the links and of power has changed. -/
theorem State.guestRoot_stands (s : State) (p : Fin 16) :
    (Tbl.get none (s.guestRoot p).mem.guestRoots p.val).isSome = true ∧ (s.guestRoot p).link = s.link ∧ (s.guestRoot p).pow = s.pow := by
  unfold State.guestRoot
  split
  · exact ⟨‹_›, rfl, rfl⟩
  · refine ⟨?_, rfl, rfl⟩
    dsimp only
    rw [Tbl.get_set_same]
    rfl

/-- Training starts from step 1 with what GST_CONTROL names (R241). -/
theorem State.guestTrain_starts {s : State} (idle : s.link.guest.reads = []) :
    ∃ w : State, s.guestTrain = w.atlasUpdate 8 0 ∧ w.link.guest.st = 1 ∧ w.link.guest.modules = 0 ∧ w.link.guest.retried = false
      ∧ w.link.guest.owner = toPart (field s.link.guest.control 8 4) ∧ w.link.guest.control = s.link.guest.control ∧ w.link.guest.maxRate = field s.link.guest.control 1 2
      ∧ (Tbl.get none w.mem.guestRoots (toPart (field s.link.guest.control 8 4)).val).isSome = true ∧ w.pow = s.pow := by
  unfold State.guestTrain
  rw [State.guestDrop_idle idle]
  refine ⟨_, rfl, ?_⟩
  obtain ⟨root, link, pow⟩ := State.guestRoot_stands _ _
  rw [link, pow]
  exact ⟨rfl, rfl, rfl, rfl, rfl, rfl, root, rfl⟩

/-- GST_CONTROL as a write leaves it (R241): ENABLE, MAX_RATE, MAX_MODULES and OWNER, a reserved MAX_MODULES keeping its value. -/
def GuestState.written (x : GuestState) (v : Word) : Word :=
  BitVec.ofNat 64 ((if v.getLsbD 0 then 1 else 0) + 2 * field v 1 2 + 8 * (if 1 ≤ field v 3 3 ∧ field v 3 3 ≤ 4 then field v 3 3 else field x.control 3 3) + 256 * field v 8 4)

theorem GuestState.written_fields (x : GuestState) (v : Word) :
    (x.written v).getLsbD 0 = v.getLsbD 0 ∧ field (x.written v) 1 2 = field v 1 2 ∧ field (x.written v) 8 4 = field v 8 4 := by
  have rate : field v 1 2 < 4 := BitVec.isLt _
  have owner : field v 8 4 < 16 := BitVec.isLt _
  have count : (if 1 ≤ field v 3 3 ∧ field v 3 3 ≤ 4 then field v 3 3 else field x.control 3 3) < 8 := by
    split <;> exact BitVec.isLt _
  unfold GuestState.written
  generalize (if 1 ≤ field v 3 3 ∧ field v 3 3 ≤ 4 then field v 3 3 else field x.control 3 3) = c at count
  generalize field v 1 2 = r at rate
  generalize field v 8 4 = o at owner
  cases v.getLsbD 0 <;>
    simp only [field, BitVec.extractLsb'_toNat, BitVec.getLsbD_ofNat, BitVec.toNat_ofNat, Nat.testBit_zero, Nat.shiftRight_eq_div_pow, if_true, if_false, Bool.false_eq_true,
      Bool.and_eq_true, Bool.and_eq_false_iff, decide_eq_true_eq, decide_eq_false_iff_not] <;>
    omega

/-- GST_CONTROL is written. -/
def State.gstWritten (s : State) (v : Word) : State := s.setGuest { s.link.guest with control := s.link.guest.written v }

theorem State.guestControl_eq (s : State) (v : Word) :
    s.guestControl v =
      let was := s.link.guest.control.getLsbD 0
      if !v.getLsbD 0 then
        if !was then s.gstWritten v else
        let t := (s.gstWritten v).guestDrop
        ((t.setGuest { t.link.guest with st := if t.link.guest.st = 3 then 3 else 0, modules := 0, rate := 0 }).dropDomain 506).atlasUpdate 8 0
      else
        let t := if was then s.gstWritten v else (s.gstWritten v).wantDomain 506
        if v.getLsbD 6 then t.guestAgain else if !was ∧ s.link.guest.st ≠ 3 ∧ t.guestHub then t.guestTrain else t := rfl

theorem exec_gstEnable {s : State} {n : Fin 2} (serves : s.barServes n 0 = true) (v : Word) : exec (.gstEnable n v) s = .next (s.guestControl v) :=
  if_pos serves

theorem State.wantDomain_queue {s : State} {n : Nat} (off : s.domain n = .off) : n ∈ (s.wantDomain n).pow.queue := by
  unfold State.wantDomain
  by_cases waits : s.pow.queue.contains n = true
  · rw [if_neg (fun both => both.2 waits)]
    exact List.contains_iff_mem.mp waits
  · rw [if_pos ⟨off, waits⟩]
    exact List.mem_append_right _ (List.mem_singleton_self n)

theorem State.wantDomain_link (s : State) (n : Nat) : (s.wantDomain n).link = s.link := foldl_wantDomain_link [n] s

/-- A write with ENABLE of a site that is off and down starts the training with what it writes. -/
theorem gstEnable_trains {s : State} {n : Fin 2} {v : Word} (serves : s.barServes n 0 = true) (was : s.link.guest.control.getLsbD 0 = false) (down : s.link.guest.st = 0)
    (idle : s.link.guest.reads = []) (hub : s.guestHub = true) (on : v.getLsbD 0 = true) (plain : v.getLsbD 6 = false) :
    ∃ w : State, exec (.gstEnable n v) s = .next (w.atlasUpdate 8 0) ∧ w.link.guest.st = 1 ∧ w.link.guest.owner = toPart (field v 8 4) ∧ w.link.guest.control.getLsbD 0 = true
      ∧ w.link.guest.maxRate = field v 1 2 ∧ (Tbl.get none w.mem.guestRoots (toPart (field v 8 4)).val).isSome = true ∧ (s.domain 506 = .off → 506 ∈ w.pow.queue) := by
  have link : ((s.gstWritten v).wantDomain 506).link = (s.gstWritten v).link := State.wantDomain_link _ 506
  have present : ((s.gstWritten v).wantDomain 506).guestHub = true := by
    unfold State.guestHub State.hubUp State.dieState
    rw [link]
    exact hub
  obtain ⟨enabled, rate, owner⟩ := s.link.guest.written_fields v
  obtain ⟨w, trains, st, -, -, holds, control, limit, root, pow⟩ := State.guestTrain_starts (s := (s.gstWritten v).wantDomain 506) (by rw [link]; exact idle)
  rw [link, show (s.gstWritten v).link.guest.control = s.link.guest.written v from rfl] at holds control limit root
  have trained : s.guestControl v = ((s.gstWritten v).wantDomain 506).guestTrain := by
    rw [State.guestControl_eq]
    simp only [on, plain, was, Bool.not_true, Bool.not_false, Bool.false_eq_true, if_false]
    exact if_pos ⟨trivial, by rw [down]; decide, present⟩
  rw [exec_gstEnable serves, trained, trains]
  refine ⟨w, rfl, st, by rw [holds, owner], by rw [control, enabled, on], by rw [limit, rate], by rw [← owner]; exact root, fun off => ?_⟩
  rw [pow]
  exact State.wantDomain_queue (s := s.gstWritten v) off

/-- RETRAIN of host software trains an enabled site. -/
theorem guestRetrain_trains {s : State} (up : s.up = true) (enabled : s.link.guest.control.getLsbD 0 = true) (hub : s.guestHub = true) :
    exec (.guestRetrain .host) s = .next s.guestTrain := by
  change execGuestRetrain .host s = _
  unfold execGuestRetrain State.guestAgain
  rw [if_neg (by simp [up]), if_pos ⟨enabled, hub⟩]

/-! ### The outcome of training (R235-R237) -/

/-- A guest's highest rate is the highest of R235 that it does not exceed. -/
theorem guestRate_of_le {r : Fin 32} (least : 4 ≤ r.val) :
    (([16, 12, 8, 4] : List Nat).find? (fun k => decide (k ≤ r.val))).getD 0 = if 16 ≤ r.val then 16 else if 12 ≤ r.val then 12 else if 8 ≤ r.val then 8 else 4 := by
  simp only [List.find?_cons, least, decide_true]
  by_cases a : 16 ≤ r.val
  · simp [a]
  · by_cases b : 12 ≤ r.val
    · simp [a, b]
    · by_cases c : 8 ≤ r.val <;> simp [a, b, c]

section
variable {s : State} (up : s.up = true) (trains : s.link.guest.st = 1) (on : s.domain 506 = .on) (hub : s.guestHub = true)
  {a b m : Fin 8} {r : Fin 32} (v p : BitVec 16) (fast : 4 ≤ r.val) (some : m ≠ 0) (ours : a ≠ 0) (theirs : b ≠ 0)
include up trains on hub fast some ours theirs

/-- The guest's answers as they stand once its counts are compared. -/
theorem exec_guestTrainingComplete {offer rate : Nat} (offered : (if s.link.guest.retried then s.link.guest.offer else min s.link.guest.maxModules m.val) = offer)
    (rated : (if s.link.guest.retried then s.link.guest.offerRate
      else min (guestRates s.link.guest.maxRate) (if 16 ≤ r.val then 16 else if 12 ≤ r.val then 12 else if 8 ≤ r.val then 8 else 4)) = rate) (fits : a.val ≤ offer ∧ b.val ≤ offer) :
    let x := { s.link.guest with vendor := v, product := p, offer := offer, offerRate := rate }
    exec (.guestTrainingComplete a b m r v p) s =
      if a = b then .next ((s.setGuest { x with st := 2, modules := a.val, rate := rate }.grant).atlasUpdate 8 0)
      else if !x.retried then .next (s.setGuest { x with retried := true, offer := min a.val b.val })
      else .next (((s.setGuest { x with st := 3, mismatch := true }).report (mkReport 0x0044 (unitId 11 0) 0)).atlasUpdate 8 0) := by
  have known : ¬ (if 16 ≤ r.val then 16 else if 12 ≤ r.val then 12 else if 8 ≤ r.val then 8 else 4) = 0 := by
    split_ifs <;> decide
  change execGuestTrainingComplete a b m r v p s = _
  unfold execGuestTrainingComplete
  simp only [guestRate_of_le fast, offered, rated]
  rw [if_neg (by simp only [up, trains, on, hub, some, ours, theirs, known]; decide), if_neg (by omega)]

end

/-- Settles O39: the counts that differ retrain the site or disable it, and of a disabled one RETRAIN of host software is the only way back. -/
theorem guestCountsDisagree : Obligations.GuestCountsDisagree := by
  unfold Obligations.GuestCountsDisagree
  refine fun s up => ⟨fun a b m r v p offer trains on hub offered fast some ours theirs fitsA fitsB differ => ?trains, fun disabled idle => ⟨fun c other => ?again, fun n v serves plain => ?write⟩⟩
  case trains =>
    have run := exec_guestTrainingComplete up trains on hub v p fast some ours theirs offered.symm rfl ⟨fitsA, fitsB⟩
    dsimp only at run
    rw [if_neg differ] at run
    refine ⟨fun first => ?_, fun second => ?_⟩
    · rw [if_pos (by simp [first])] at run
      exact ⟨_, run, trains, rfl, rfl⟩
    · rw [if_neg (by simp [second])] at run
      exact ⟨_, run, rfl, rfl, rfl⟩
  case again => exact if_pos (.inr ⟨other, disabled⟩)
  case write =>
    have still (t : State) (link : t.link = (s.gstWritten v).link) : t.link.guest.st = 3 := by
      rw [link]
      exact disabled
    rw [exec_gstEnable serves, State.guestControl_eq]
    dsimp only
    split
    · split
      · exact ⟨_, still _ rfl, .inl rfl⟩
      · rw [State.guestDrop_idle (s := s.gstWritten v) idle]
        refine ⟨_, ?_, .inr rfl⟩
        exact if_pos disabled
    · rw [plain, if_neg (by decide), if_neg (fun all => all.2.1 disabled)]
      refine ⟨_, still _ ?_, .inl rfl⟩
      split
      · rfl
      · exact State.wantDomain_link _ 506

/-! ### Guest requests (R239, R240) -/

/-- The state in which a request alone in the input buffer is served: it is charged, and holds its credits. -/
def State.guestEnter (s : State) (m : BitVec 128) (d : Line) : State :=
  (s.charge s.link.guest.owner none .memory 128).setGuest
    { s.link.guest with waiting := [(m, d)], credits := s.link.guest.credits - 1, dataCredits := s.link.guest.dataCredits - guestUnits m }

/-- The last request leaves the input buffer, and its credits come back. -/
def State.guestLeave (t : State) (m : BitVec 128) : State :=
  t.setGuest { t.link.guest with waiting := [], credits := t.link.guest.credits + 1, dataCredits := t.link.guest.dataCredits + guestUnits m }

theorem State.guestTake_alone {s t : State} {m : BitVec 128} {d : Line} {done : Bool} (empty : s.link.guest.waiting = []) (credit : s.link.guest.credits ≠ 0)
    (units : guestUnits m ≤ s.link.guest.dataCredits) (served : (s.guestEnter m d).guestServe m d = (done, t)) : s.guestTake m d = if done then t.guestLeave m else t := by
  unfold State.guestTake
  dsimp only
  rw [if_neg (by omega), empty]
  change State.guestDrain 1 (s.guestEnter m d) = _
  unfold State.guestDrain
  change (match (s.guestEnter m d).guestServe m d with | (false, s) => s | (true, s) => _) = _
  rw [served]
  cases done <;> rfl

/-- A READ whose granules are clean is answered with its bytes. -/
theorem State.guestLoad_clean {u v : State} {p : Fin 16} {m : BitVec 128} {pa : Nat} {d : Line} {po : BitVec 2} (read : u.engRead p (pa / 128) (field m 85 2) = ((d, po), v))
    (clean : ∀ i, pa % 128 / 64 ≤ i → i ≤ (pa % 128 + (field m 16 7 + 1) - 1) / 64 → po.getLsbD i = false) :
    u.guestLoad p m pa = v.emit (.guest (guestAnswer m 0) (placeBytes 0 (lineBytes d (pa % 128) (field m 16 7 + 1)))) := by
  have none : ([0, 1] : List Nat).filter (fun g => po.getLsbD g && decide (pa % 128 / 64 ≤ g ∧ g ≤ (pa % 128 + (field m 16 7 + 1) - 1) / 64)) = [] := by
    refine List.filter_eq_nil_iff.mpr (fun g _ hit => ?_)
    obtain ⟨bad, low, high⟩ := by simpa only [Bool.and_eq_true, decide_eq_true_eq] using hit
    rw [clean g low high] at bad
    cases bad
  unfold State.guestLoad
  simp only [read, none]

section
variable {s u : State} {m : BitVec 128} {d : Line}

theorem State.guestServe_busy {write : Bool} {pa : Nat} (op : decide (field m 0 4 = 1) = write) (reaches : s.guestAt s.link.guest.owner (field m 28 57) write = (.pool pa, u))
    (busy : u.txnBusy (pa / 128) = true) : s.guestServe m d = (false, u) := by
  unfold State.guestServe
  simp only [op, reaches, busy, if_true]

section
variable (op : decide (field m 0 4 = 1) = true)
include op

theorem State.guestServe_write {pa : Nat} (reaches : s.guestAt s.link.guest.owner (field m 28 57) true = (.pool pa, u)) (quiet : u.txnBusy (pa / 128) = false) :
    s.guestServe m d =
      (true, u.engWrite s.link.guest.owner (pa / 128) (placeBytes (pa % 128) (lineBytes d 0 (field m 16 7 + 1))) (byteMask (pa % 128) (field m 16 7 + 1)) 0 (field m 85 2)) := by
  unfold State.guestServe
  simp only [op, reaches, quiet, Bool.false_eq_true, if_false, if_true]

theorem State.guestServe_write_fails {n : Nat} (meets : s.guestAt s.link.guest.owner (field m 28 57) true = (.status n, u)) :
    s.guestServe m d = (true, u.guestInvalid (partBit s.link.guest.owner) n (field m 28 57)) := by
  unfold State.guestServe
  simp only [op, meets, if_true]

end

section
variable (op : decide (field m 0 4 = 1) = false)
include op

theorem State.guestServe_read {pa : Nat} (reaches : s.guestAt s.link.guest.owner (field m 28 57) false = (.pool pa, u)) (quiet : u.txnBusy (pa / 128) = false) :
    s.guestServe m d = (true, u.guestLoad s.link.guest.owner m pa) := by
  unfold State.guestServe
  simp only [op, reaches, quiet, Bool.false_eq_true, if_false]

theorem State.guestServe_read_fails {n : Nat} (meets : s.guestAt s.link.guest.owner (field m 28 57) false = (.status n, u)) : s.guestServe m d = (true, u.guestFail m n) := by
  unfold State.guestServe
  simp only [op, meets, Bool.false_eq_true, if_false]

/-- A READ holds no data credits. -/
theorem State.guestLeave_read (t : State) : t.guestLeave m = t.setGuest { t.link.guest with waiting := [], credits := t.link.guest.credits + 1 } := by
  unfold State.guestLeave guestUnits
  rw [if_neg (of_decide_eq_false op)]
  rfl

end

end

/-- A guest READ or WRITE while the site is up: it enters the input buffer, or it uses a reserved encoding. -/
theorem exec_guestRequest {s : State} (up : s.up = true) (linked : s.link.guest.st = 2) (write : Bool) (m : BitVec 128) (data : Line) :
    exec (if write then .guestWrite m data else .guestRead m) s =
      .next (if guestMsgOk (if write then 1 else 0) m then s.guestTake m (if write then data else 0) else s.guestInvalid 0 0 0) := by
  have serves : ¬ ((!s.up) = true ∨ s.link.guest.st ≠ 2) := by simp [up, linked]
  cases write
  · change execGuestRead m s = _
    unfold execGuestRead
    dsimp only
    rw [if_neg serves]
    by_cases ok : guestMsgOk 0 m = true <;> simp [ok]
  · change execGuestWrite m data s = _
    unfold execGuestWrite
    dsimp only
    rw [if_neg serves]
    by_cases ok : guestMsgOk 1 m = true <;> simp [ok]

/-- An answer to a read of the window that is outstanding: what is left, and the data for its use. -/
theorem exec_guestReadResp {s : State} {m : BitVec 128} {data : Line} {t n : Nat} {use : HostFor} (up : s.up = true) (linked : s.link.guest.st = 2) (ok : guestMsgOk 2 m = true)
    (asked : s.link.guest.reads.find? (fun r => decide (r.1 = field m 4 12)) = some (t, n, use)) :
    let w := s.setGuest { s.link.guest with reads := s.link.guest.reads.filter (fun r => decide (r.1 ≠ t)) }
    (field m 24 4 = 0 → exec (.guestReadResp m data) s = .next (w.guestData n use .success (lineBytes data 0 n)))
      ∧ (field m 24 4 = 3 → exec (.guestReadResp m data) s = .next (w.guestData n use .poisonedTlp [])) := by
  change (_ → execGuestReadResp m data s = _) ∧ (_ → execGuestReadResp m data s = _)
  unfold execGuestReadResp
  simp only [asked, ok]
  rw [if_neg (by simp [up, linked]), if_neg (by decide)]
  refine ⟨fun good => if_pos good, fun poisoned => ?_⟩
  rw [if_neg (by rw [poisoned]; decide), if_pos poisoned]

/-- Settles O40: training starts with GST_CONTROL's limits and ends in the counts that agree, and a request alone in the buffer is served at once or waits for its line. -/
theorem guestSiteCompletes : Obligations.GuestSiteCompletes := by
  unfold Obligations.GuestSiteCompletes
  intro s up x
  refine ⟨fun n v serves was down idle hub on plain => gstEnable_trains serves was down idle hub on plain, fun enabled hub idle => ?retrain,
    fun a m r v p trains on hub first fits within some fast => ?complete, fun linked m data => ?messages⟩
  case retrain =>
    obtain ⟨w, trains, st, modules, retried, owner, -⟩ := State.guestTrain_starts idle
    exact ⟨w, (guestRetrain_trains up enabled hub).trans (congrArg _ trains), st, modules, retried, owner⟩
  case complete =>
    have counted : m ≠ 0 := by omega
    have run := exec_guestTrainingComplete up trains on hub v p fast counted some some (if_neg (ne_true_of_eq_false first)) (if_neg (ne_true_of_eq_false first))
      ⟨le_min fits within, le_min fits within⟩
    dsimp only at run
    rw [if_pos rfl] at run
    exact ⟨_, run, rfl, rfl, rfl, rfl, rfl, rfl, rfl⟩
  case messages =>
    intro va k write c entered left
    have op : decide (field m 0 4 = 1) = write := rfl
    clear_value write
    have run : exec c s = .next (if guestMsgOk (if write then 1 else 0) m then s.guestTake m (if write then data else 0) else s.guestInvalid 0 0 0) :=
      exec_guestRequest up linked write m data
    refine ⟨fun ok empty credit units g u reaches => ?request, fun ok t n use asked => ⟨_, rfl, exec_guestReadResp up linked ok asked⟩,
      fun bad => (exec_guestRequest up linked false m 0).trans (congrArg _ (if_neg (by simp [bad]))),
      fun bad => (exec_guestRequest up linked true m data).trans (congrArg _ (if_neg (by simp [bad])))⟩
    case request =>
      have take {done : Bool} {t : State} (served : (s.guestEnter m (if write then data else 0)).guestServe m (if write then data else 0) = (done, t)) :
          exec c s = .next (if done then t.guestLeave m else t) := by
        rw [run, if_pos ok, State.guestTake_alone empty credit units served]
      refine ⟨fun pa pool => ⟨fun busy => ?wait, fun quiet => ⟨fun writes => ?store, fun reads d po v loaded clean => ?load⟩⟩, fun n fails => ⟨fun reads => ?fail, fun writes => ?discard⟩⟩
      case wait =>
        subst pool
        exact take (State.guestServe_busy op reaches busy)
      case store =>
        subst pool writes
        exact take (State.guestServe_write op reaches quiet)
      case load =>
        subst pool reads
        refine (take (State.guestServe_read op reaches quiet)).trans (congrArg _ ((State.guestLeave_read op _).trans ?_))
        exact congrArg (left · 0) (State.guestLoad_clean loaded clean)
      case fail =>
        subst fails reads
        exact (take (State.guestServe_read_fails op reaches)).trans (congrArg _ (State.guestLeave_read op _))
      case discard =>
        subst fails writes
        exact take (State.guestServe_write_fails op reaches)

end Sys2Proof.Machine
end

section
/-! SUPPORT. Flits of the internal links (08 R226-R228): what the transmitter sends, what the receiver takes in its order and hands on, and what a replay sends again. -/

namespace Sys2Proof.Machine

/-! ### The two sides of a lane group (R227) -/

/-- The transmitter's side once it has sent a flit: a new one takes the next SEQ and is held, a replay changes nothing. -/
def LaneGroup.sent (x : LaneGroup) (f : Flit) : LaneGroup :=
  if f.seq = x.txSeq then { x with txSeq := x.txSeq + 1, held := x.held ++ [f], sentCount := x.sentCount + 1 } else x

theorem LaneGroup.sends_eq {x : LaneGroup} {f : Flit} (may : (f.seq = x.txSeq ∧ x.held.length < 128) ∨ (f.seq ≠ x.txSeq ∧ f ∈ x.held)) : x.sends f = some (x.sent f) := by
  unfold LaneGroup.sends LaneGroup.sent
  rcases may with ⟨new, room⟩ | ⟨old, mem⟩
  · rw [if_pos new, if_pos new, if_pos room]
  · rw [if_neg old, if_neg old, if_pos (List.contains_iff_mem.mpr mem)]

@[simp] theorem LaneGroup.sent_held (x : LaneGroup) (f : Flit) : (x.sent f).held = if f.seq = x.txSeq then x.held ++ [f] else x.held := apply_ite _ _ _ _
@[simp] theorem LaneGroup.sent_txSeq (x : LaneGroup) (f : Flit) : (x.sent f).txSeq = if f.seq = x.txSeq then x.txSeq + 1 else x.txSeq := apply_ite _ _ _ _

/-- Sending leaves the receiver's side. -/
theorem LaneGroup.sent_receiver (x : LaneGroup) (f : Flit) :
    (x.sent f).rxSeq = x.rxSeq ∧ (x.sent f).rxAck = x.rxAck ∧ (x.sent f).discarding = x.discarding ∧ (x.sent f).failSame = x.failSame ∧ (x.sent f).tookCount = x.tookCount := by
  unfold LaneGroup.sent
  split <;> exact ⟨rfl, rfl, rfl, rfl, rfl⟩

/-- A lane group that a flit was sent on, counted among its flits (R228). -/
def LaneGroup.carried (x : LaneGroup) (f : Flit) : LaneGroup := { x.sent f with flits := (x.sent f).flits + 1 }

/-! ### The receiver's order (R226) -/

/-- Two states that differ in what was sent out alone. -/
structure SameButOut (s t : State) : Prop where
  link : t.link = s.link
  chan : t.chan = s.chan
  mem : t.mem = s.mem

theorem SameButOut.refl (s : State) : SameButOut s s := ⟨rfl, rfl, rfl⟩

/-- Without rerouted flits under way, a flit that leaves a link in order is handed over by its class. -/
theorem State.handOn_message {s : State} (direct : s.link.transit = []) (l : Fin 22) (dir : Fin 2) (f : Flit) :
    s.handOn l dir f = (none, if f.cls.toNat ≤ 4 then s.emit (.message l dir f.cls.toNat f.payload) else s) := by
  unfold State.handOn
  rw [direct]
  rfl

/-- An intact flit out of sequence is dropped. -/
theorem State.intake_apart (n : Nat) {s : State} {l : Fin 22} {dir : Fin 2} {g : Fin 80} {f : Flit} (apart : f.seq ≠ (s.laneGroup l.val dir g).rxSeq) :
    State.intake (n + 1) l dir g f s = s := if_pos apart

/-- What is in order once a flit has joined those that came before it. -/
def LinkIn.joined (x : LinkIn) (k : Nat) (f : Flit) : List Flit × LinkIn := LinkIn.inOrder ⟨x.next, x.early ++ [(k, f)]⟩ (x.early ++ [(k, f)]).length

theorem State.laneGroup_of_link {s t : State} (same : t.link = s.link) (l : Nat) (dir : Fin 2) (g : Fin 80) : t.laneGroup l dir g = s.laneGroup l dir g :=
  congrArg (fun k : LinkState => Tbl.get LaneGroup.reset k.groups (groupKey l dir g)) same

/-- A flit alone among those that came, and next in the order dealt, goes on. -/
theorem LinkIn.joined_next {x : LinkIn} {k : Nat} (alone : x.early = []) (next : x.next = k) (f : Flit) : (x.joined k f).1 = [f] := by
  unfold LinkIn.joined
  rw [alone, next]
  simp [LinkIn.inOrder]

/-- The receiver with an intact flit in sequence, before the flits that are then in order go on. -/
def State.takes (s : State) (l : Fin 22) (dir : Fin 2) (g : Fin 80) (f : Flit) : State :=
  let x := s.laneGroup l.val dir g
  (s.setLaneGroup l.val dir g (x.accepted f)).setLinkIn l.val dir ((s.linkIn l.val dir).joined (x.tookCount * linkGroups l.val + g.val) f).2

theorem State.takes_frame (s : State) (l : Fin 22) (dir : Fin 2) (g : Fin 80) (f : Flit) : (s.takes l dir g f).chan = s.chan ∧ (s.takes l dir g f).mem = s.mem := ⟨rfl, rfl⟩

theorem State.takes_forward (s : State) (l : Fin 22) (dir : Fin 2) (g : Fin 80) (f : Flit) :
    (s.takes l dir g f).laneGroup l.val dir g = (s.laneGroup l.val dir g).accepted f := State.laneGroup_setLaneGroup _ _ _ _ _

theorem State.takes_back (s : State) (l : Fin 22) (dir : Fin 2) (g : Fin 80) (f : Flit) :
    (s.takes l dir g f).laneGroup l.val (otherDie dir) g = s.laneGroup l.val (otherDie dir) g := State.laneGroup_setLaneGroup_ne _ _ _ _ (otherDie_ne dir)

/-- An intact flit in sequence is accepted, and what is then in order is handed over. -/
theorem State.intake_takes (n : Nat) {s : State} {l : Fin 22} {dir : Fin 2} {g : Fin 80} {f : Flit} (direct : s.link.transit = [])
    (inSequence : f.seq = (s.laneGroup l.val dir g).rxSeq) :
    SameButOut (s.takes l dir g f) (State.intake (n + 1) l dir g f s)
      ∧ ((s.linkIn l.val dir).early = [] → (s.linkIn l.val dir).next = (s.laneGroup l.val dir g).tookCount * linkGroups l.val + g.val → f.cls.toNat ≤ 4 →
        (State.intake (n + 1) l dir g f s).out = .message l dir f.cls.toNat f.payload :: s.out) := by
  have transit : (s.takes l dir g f).link.transit = [] := direct
  unfold State.intake
  dsimp only
  rw [if_neg (not_not_intro inSequence)]
  refine ⟨?frame, fun alone next cls => ?out⟩
  case frame =>
    refine List.foldlRecOn (motive := SameButOut (s.takes l dir g f)) _ _ (SameButOut.refl _) (fun t ht f' _ => ?_)
    rw [State.handOn_message (by rw [ht.link]; exact transit)]
    dsimp only
    split
    · exact ⟨ht.link, ht.chan, ht.mem⟩
    · exact ht
  case out =>
    change (List.foldl _ (s.takes l dir g f) ((s.linkIn l.val dir).joined ((s.laneGroup l.val dir g).tookCount * linkGroups l.val + g.val) f).1).out = _
    rw [LinkIn.joined_next alone next, List.foldl_cons, List.foldl_nil, State.handOn_message transit, if_pos cls]
    rfl

/-! ### A flit arrives (R227) -/

section
variable {s : State} {l : Fin 22} {dir : Fin 2} {g : Fin 80} {f err : Flit} (up : (s.d2d l.val).mode = .up) (inside : g.val < linkGroups l.val) (ok : flitOk f = true)
  (direct : s.link.transit = [])
  (may : (f.seq = (s.laneGroup l.val dir g).txSeq ∧ (s.laneGroup l.val dir g).held.length < 128) ∨ (f.seq ≠ (s.laneGroup l.val dir g).txSeq ∧ f ∈ (s.laneGroup l.val dir g).held))

/-- The link with a flit sent, and the flits of the reverse direction freed that its ACK covers. -/
def State.crossing (s : State) (l : Fin 22) (dir : Fin 2) (g : Fin 80) (f : Flit) (ack : BitVec 16) : State :=
  let t := s.setLaneGroup l.val dir g ((s.laneGroup l.val dir g).carried f)
  t.setLaneGroup l.val (otherDie dir) g { t.laneGroup l.val (otherDie dir) g with held := ackHeld (t.laneGroup l.val (otherDie dir) g).held ack }

theorem State.crossing_frame (s : State) (l : Fin 22) (dir : Fin 2) (g : Fin 80) (f : Flit) (ack : BitVec 16) :
    (s.crossing l dir g f ack).chan = s.chan ∧ (s.crossing l dir g f ack).mem = s.mem := ⟨rfl, rfl⟩

theorem State.crossing_forward (s : State) (l : Fin 22) (dir : Fin 2) (g : Fin 80) (f : Flit) (ack : BitVec 16) :
    (s.crossing l dir g f ack).laneGroup l.val dir g = (s.laneGroup l.val dir g).carried f := by
  unfold State.crossing
  rw [State.laneGroup_setLaneGroup_ne _ _ _ _ (otherDie_ne dir).symm, State.laneGroup_setLaneGroup]

theorem State.crossing_back (s : State) (l : Fin 22) (dir : Fin 2) (g : Fin 80) (f : Flit) (ack : BitVec 16) :
    ((s.crossing l dir g f ack).laneGroup l.val (otherDie dir) g).held = ackHeld (s.laneGroup l.val (otherDie dir) g).held ack := by
  unfold State.crossing
  dsimp only
  rw [State.laneGroup_setLaneGroup, State.laneGroup_setLaneGroup_ne _ _ _ _ (otherDie_ne dir)]

include up inside ok direct may in
theorem exec_flitReceive :
    let x := s.laneGroup l.val dir g
    let r := Flit.flip f err
    exec (.flitReceive l dir g ⟨f, err⟩) s = .next (
      if flitOk r = true then
        if x.discarding = true ∧ f.seq = x.txSeq then s.crossing l dir g f r.ack else State.intake 3 l dir g r (s.crossing l dir g f r.ack)
      else s.setLaneGroup l.val dir g ((x.carried f).failed (decide (f.seq ≠ x.txSeq) && decide (f.seq = x.rxSeq)))) := by
  have next : (if decide (f.seq ≠ (s.laneGroup l.val dir g).txSeq) = true then some s else s.transitNext l dir f) = some s := by
    split
    · rfl
    · unfold State.transitNext
      rw [direct]
      rfl
  obtain ⟨rx, -, discarding, -⟩ := (s.laneGroup l.val dir g).sent_receiver f
  change execFlitReceive l dir g ⟨f, err⟩ s = _
  unfold execFlitReceive
  dsimp only
  rw [if_neg (by simp [up, ok, inside]), LaneGroup.sends_eq may, next]
  dsimp only
  by_cases good : flitOk (Flit.flip f err) = true
  · rw [if_neg (by simp [good]), if_pos good]
    exact congrArg _ (if_congr (by simp [discarding]) rfl rfl)
  · rw [if_pos (by simp [good]), if_neg good]
    exact congrArg (fun v => Host.Outcome.next (s.setLaneGroup l.val dir g (((s.laneGroup l.val dir g).carried f).failed (_ && decide (f.seq = v))))) rx

end

section
variable {s : State} {l : Fin 22} {dir : Fin 2} {g : Fin 80} {f err : Flit} (up : (s.d2d l.val).mode = .up) (inside : g.val < linkGroups l.val) (ok : flitOk f = true)
  (direct : s.link.transit = [])
  (may : (f.seq = (s.laneGroup l.val dir g).txSeq ∧ (s.laneGroup l.val dir g).held.length < 128) ∨ (f.seq ≠ (s.laneGroup l.val dir g).txSeq ∧ f ∈ (s.laneGroup l.val dir g).held))
include up inside ok direct may

/-- An intact flit with the next SEQ is accepted, by a receiver that discards only if it is replayed. -/
theorem flitReceive_accepts (good : flitOk (Flit.flip f err) = true) (inSequence : (Flit.flip f err).seq = (s.laneGroup l.val dir g).rxSeq)
    (listens : (s.laneGroup l.val dir g).discarding = false ∨ f.seq ≠ (s.laneGroup l.val dir g).txSeq) :
    ∃ t : State, exec (.flitReceive l dir g ⟨f, err⟩) s = .next t ∧ SameButOut ((s.crossing l dir g f (Flit.flip f err).ack).takes l dir g (Flit.flip f err)) t
      ∧ ((s.linkIn l.val dir).early = [] → (s.linkIn l.val dir).next = (s.laneGroup l.val dir g).tookCount * linkGroups l.val + g.val → (Flit.flip f err).cls.toNat ≤ 4 →
        t.out = .message l dir (Flit.flip f err).cls.toNat (Flit.flip f err).payload :: s.out) := by
  have forward := s.crossing_forward l dir g f (Flit.flip f err).ack
  obtain ⟨rx, -, -, -, took⟩ := (s.laneGroup l.val dir g).sent_receiver f
  obtain ⟨same, out⟩ := State.intake_takes 2 (s := s.crossing l dir g f (Flit.flip f err).ack) direct (by rw [forward]; exact inSequence.trans rx.symm)
  refine ⟨_, ?_, same, fun alone next cls => out alone ?_ cls⟩
  · rw [exec_flitReceive up inside ok direct may]
    rw [if_pos good, if_neg (fun deaf => listens.elim (fun hears => absurd deaf.1 (by rw [hears]; decide)) (fun old => old deaf.2))]
  · rw [forward]
    exact next.trans (congrArg (· * _ + _) took.symm)

/-- An intact flit that is not next, or a new one at a receiver that discards, changes nothing there. -/
theorem flitReceive_drops (good : flitOk (Flit.flip f err) = true)
    (drops : (Flit.flip f err).seq ≠ (s.laneGroup l.val dir g).rxSeq ∨ ((s.laneGroup l.val dir g).discarding = true ∧ f.seq = (s.laneGroup l.val dir g).txSeq)) :
    exec (.flitReceive l dir g ⟨f, err⟩) s = .next (s.crossing l dir g f (Flit.flip f err).ack) := by
  obtain ⟨rx, -⟩ := (s.laneGroup l.val dir g).sent_receiver f
  rw [exec_flitReceive up inside ok direct may]
  rw [if_pos good]
  split
  · rfl
  · rename_i hears
    rw [State.intake_apart _ (by rw [State.crossing_forward]; exact fun same => (drops.resolve_right hears) (same.trans rx))]

/-- A flit with a CRC error is discarded, and ACK stops. -/
theorem flitReceive_fails (bad : flitOk (Flit.flip f err) = false) :
    exec (.flitReceive l dir g ⟨f, err⟩) s = .next (s.setLaneGroup l.val dir g (((s.laneGroup l.val dir g).carried f).failed
      (decide (f.seq ≠ (s.laneGroup l.val dir g).txSeq) && decide (f.seq = (s.laneGroup l.val dir g).rxSeq)))) := by
  rw [exec_flitReceive up inside ok direct may]
  rw [if_neg (by simp [bad])]

end

/-- What a flit does to a lane group, by its arrival (R227): it is sent, and it is accepted, dropped or found in error. -/
theorem flitReceive_acts {s : State} {l : Fin 22} {dir : Fin 2} {g : Fin 80} {f err : Flit} (up : (s.d2d l.val).mode = .up) (inside : g.val < linkGroups l.val) (ok : flitOk f = true)
    (direct : s.link.transit = []) :
    let x := s.laneGroup l.val dir g
    let r := Flit.flip f err
    ((f.seq = x.txSeq ∧ x.held.length < 128) ∨ (f.seq ≠ x.txSeq ∧ f ∈ x.held)) →
      ∃ t : State, exec (.flitReceive l dir g ⟨f, err⟩) s = .next t ∧ t.chan = s.chan ∧ t.mem = s.mem
        ∧ (t.laneGroup l.val dir g).held = (if f.seq = x.txSeq then x.held ++ [f] else x.held)
        ∧ (t.laneGroup l.val dir g).txSeq = (if f.seq = x.txSeq then x.txSeq + 1 else x.txSeq)
        ∧ (flitOk r = true → r.seq = x.rxSeq → (x.discarding = false ∨ f.seq ≠ x.txSeq) →
          (t.laneGroup l.val dir g).rxSeq = x.rxSeq + 1 ∧ (t.laneGroup l.val dir g).rxAck = r.seq ∧ (t.laneGroup l.val dir g).discarding = false ∧ (t.laneGroup l.val dir g).failSame = 0
          ∧ ((s.linkIn l.val dir).early = [] → (s.linkIn l.val dir).next = x.tookCount * linkGroups l.val + g.val → r.cls.toNat ≤ 4 →
            t.out = .message l dir r.cls.toNat r.payload :: s.out))
        ∧ (flitOk r = true → (r.seq ≠ x.rxSeq ∨ (x.discarding = true ∧ f.seq = x.txSeq)) → (t.laneGroup l.val dir g).rxSeq = x.rxSeq ∧ (t.laneGroup l.val dir g).rxAck = x.rxAck)
        ∧ (flitOk r = false → (t.laneGroup l.val dir g).discarding = true ∧ (t.laneGroup l.val dir g).rxSeq = x.rxSeq ∧ (t.laneGroup l.val dir g).rxAck = x.rxAck
          ∧ (t.laneGroup l.val dir g).failSame = (if f.seq ≠ x.txSeq ∧ f.seq = x.rxSeq then x.failSame + 1 else x.failSame))
        ∧ (flitOk r = true → (t.laneGroup l.val (otherDie dir) g).held = ackHeld (s.laneGroup l.val (otherDie dir) g).held r.ack) := by
  intro x r may
  obtain ⟨rxSeq, rxAck, -, failSame, -⟩ := x.sent_receiver f
  have forward : (s.crossing l dir g f r.ack).laneGroup l.val dir g = x.carried f := s.crossing_forward l dir g f r.ack
  have back := s.crossing_back l dir g f r.ack
  obtain ⟨chan, mem⟩ := s.crossing_frame l dir g f r.ack
  by_cases good : flitOk r = true
  · by_cases drops : r.seq ≠ x.rxSeq ∨ (x.discarding = true ∧ f.seq = x.txSeq)
    · refine ⟨_, flitReceive_drops up inside ok direct may good drops, chan, mem, ?_, ?_, fun _ same listens => ?_, fun _ _ => ?_, fun bad => absurd (good.symm.trans bad) (by decide),
        fun _ => back⟩
      · rw [forward]
        exact x.sent_held f
      · rw [forward]
        exact x.sent_txSeq f
      · obtain ⟨deaf, new⟩ := drops.resolve_left (not_not_intro same)
        exact absurd new (listens.resolve_left (by rw [deaf]; decide))
      · rw [forward]
        exact ⟨rxSeq, rxAck⟩
    · obtain ⟨inSequence, listens⟩ := not_or.mp drops
      have hears : x.discarding = false ∨ f.seq ≠ x.txSeq := by
        by_cases new : f.seq = x.txSeq
        · exact .inl (eq_false_of_ne_true (fun deaf => listens ⟨deaf, new⟩))
        · exact .inr new
      obtain ⟨t, run, ⟨link, chanT, memT⟩, out⟩ := flitReceive_accepts up inside ok direct may good (not_not.mp inSequence) hears
      obtain ⟨chanTakes, memTakes⟩ := (s.crossing l dir g f r.ack).takes_frame l dir g r
      have after : t.laneGroup l.val dir g = (x.carried f).accepted r := by
        rw [State.laneGroup_of_link link, State.takes_forward]
        exact congrArg (·.accepted r) forward
      refine ⟨t, run, chanT.trans (chanTakes.trans chan), memT.trans (memTakes.trans mem), ?_, ?_, fun _ _ _ => ?_, fun _ ends => absurd ends drops, fun bad => absurd (good.symm.trans bad) (by decide), fun _ => ?_⟩
      · rw [after]
        exact x.sent_held f
      · rw [after]
        exact x.sent_txSeq f
      · rw [after]
        exact ⟨congrArg (· + 1) rxSeq, rfl, rfl, rfl, out⟩
      · rw [State.laneGroup_of_link link, State.takes_back]
        exact back
  · refine ⟨_, flitReceive_fails up inside ok direct may (eq_false_of_ne_true good), rfl, rfl, ?_, ?_, fun fine => absurd fine good, fun fine => absurd fine good, fun _ => ?_,
      fun fine => absurd fine good⟩ <;> rw [State.laneGroup_setLaneGroup]
    · exact x.sent_held f
    · exact x.sent_txSeq f
    · refine ⟨rfl, rxSeq, rxAck, ?_⟩
      exact if_congr (by simp [x]) (congrArg (· + 1) failSame) failSame

end Sys2Proof.Machine
end

section
/-! SUPPORT. The loss of dies (08 R231, R233; 14 R406-R410): kills of commands, changes of bindings and fences leave the recovery state of every die but the one that
they name. -/

namespace Sys2Proof.Machine

/-! ### The recovery state of the dies -/

/-- The recovery state of each die. -/
def State.dies (s : State) : Tbl DieState := s.link.dies

theorem dies_of_standing {s t : State} (h : t.standing = s.standing) : t.dies = s.dies := congrArg (fun x : Standing => x.link.dies) h
theorem dies_of_footing {s t : State} (h : t.footing = s.footing) : t.dies = s.dies := congrArg (fun x : Footing => x.plant.link.dies) h

theorem State.dieState_of_dies {s t : State} (h : t.dies = s.dies) (n : Nat) : t.dieState n = s.dieState n := congrArg (fun x => Tbl.get (⟨.present, false⟩ : DieState) x n) h

@[simp] theorem foldl_dies {α : Type} (F : State → α → State) (h : ∀ s a, (F s a).dies = s.dies) (l : List α) (s : State) : (l.foldl F s).dies = s.dies := foldl_keeps _ F h l s

@[simp] theorem foldl_dies_snd {α β : Type} (F : β × State → α → β × State) (h : ∀ x a, (F x a).2.dies = x.2.dies) (l : List α) (x : β × State) :
    (l.foldl F x).2.dies = x.2.dies := foldl_keeps (fun x => x.2.dies) F h l x

@[simp] theorem dies_ite (c : Prop) [Decidable c] (a b : State) : (if c then a else b).dies = if c then a.dies else b.dies := apply_ite _ _ _ _

/-- A state written out: its dies are read off. -/
@[simp] theorem State.dies_mk (a b c d e f g h i j k l m) : (State.mk a b c d e f g h i j k l m).dies = e.dies := rfl
@[simp] theorem State.dies_fold (s : State) : s.link.dies = s.dies := rfl

/-! ### Events, requests and updates of the Atlas -/

@[simp] theorem State.report_dies (s : State) (r : Report) : (s.report r).dies = s.dies := rfl
@[simp] theorem State.emit_dies (s : State) (o : Out) : (s.emit o).dies = s.dies := rfl
@[simp] theorem State.setFn_dies (s : State) (p : Fin 2) (f : Fin 128) (x : FnState) : (s.setFn p f x).dies = s.dies := rfl
@[simp] theorem State.setEntry_dies (s : State) (c : Fin 3072) (e : BitVec 512) : (s.setEntry c e).dies = s.dies := rfl
@[simp] theorem State.setDyn_dies (s : State) (c : Fin 3072) (e : ChanDyn) : (s.setDyn c e).dies = s.dies := rfl
@[simp] theorem State.setCmd_dies (s : State) (c : Cmd) : (s.setCmd c).dies = s.dies := rfl
@[simp] theorem State.dropCmd_dies (s : State) (c : CmdRef) : (s.dropCmd c).dies = s.dies := rfl
@[simp] theorem State.setPartition_dies (s : State) (p : Fin 16) (x : Partition) : (s.setPartition p x).dies = s.dies := rfl
@[simp] theorem State.setArray_dies (s : State) (n : Nat) (x : ArrayState) : (s.setArray n x).dies = s.dies := rfl
@[simp] theorem State.setSlot_dies (s : State) (n : Nat) (x : SlotState) : (s.setSlot n x).dies = s.dies := rfl
@[simp] theorem State.setCore_dies (s : State) (n : Nat) (x : CoreState) : (s.setCore n x).dies = s.dies := rfl
@[simp] theorem State.dropDomain_dies (s : State) (n : Nat) : (s.dropDomain n).dies = s.dies := rfl
@[simp] theorem State.atlasNote_dies (s : State) (kind : Nat) (parts : BitVec 16) : (s.atlasNote kind parts).dies = s.dies := rfl
@[simp] theorem State.wantDomain_dies (s : State) (n : Nat) : (s.wantDomain n).dies = s.dies := congrArg LinkState.dies (s.wantDomain_link n)

@[simp] theorem State.engWrite_dies (s : State) (p : Fin 16) (line : Nat) (d : Line) (m : BitVec 128) (po : BitVec 2) (hint : Nat) (cls : ReqClass) :
    (s.engWrite p line d m po hint cls).dies = s.dies := dies_of_standing (s.engWrite_standing p line d m po hint cls)
@[simp] theorem State.engRead_dies (s : State) (p : Fin 16) (line hint : Nat) (cls : ReqClass) : (s.engRead p line hint cls).2.dies = s.dies :=
  dies_of_standing (s.engRead_standing p line hint cls)
@[simp] theorem State.engUpdate_dies (s : State) (p : Fin 16) (line hint : Nat) (touch : BitVec 2) (f : Line → Line) (cls : ReqClass) :
    (s.engUpdate p line hint touch f cls).2.dies = s.dies := dies_of_standing (s.engUpdate_standing p line hint touch f cls)
@[simp] theorem State.translate_dies (s : State) (p : Fin 16) (va : Nat) (write : Bool) : (s.translate p va write).2.dies = s.dies :=
  dies_of_standing (s.translate_standing p va write)
@[simp] theorem State.ringPut_dies (s : State) (c : Ctx) (host : Bool) (a : Nat) (b : List Byte) (release : Bool) : (s.ringPut c host a b release).2.dies = s.dies :=
  dies_of_standing (s.ringPut_standing c host a b release)
@[simp] theorem State.sendTag_dies (s : State) (r : HostTag) (x : HostSend) : (s.sendTag r x).dies = s.dies := dies_of_standing (s.sendTag_standing r x)
@[simp] theorem State.postAll_dies (s : State) (parts : BitVec 16) (event : Nat) (body : List Byte) : (s.postAll parts event body).dies = s.dies :=
  dies_of_footing (s.postAll_footing parts event body)
@[simp] theorem State.postRecovery_dies (s : State) (parts unit : BitVec 16) (kind : Nat) (outcome : Option Nat) : (s.postRecovery parts unit kind outcome).dies = s.dies :=
  dies_of_footing (s.postRecovery_footing parts unit kind outcome)
@[simp] theorem State.atlasBegin_dies (s : State) : s.atlasBegin.dies = s.dies := dies_of_footing s.atlasBegin_footing
@[simp] theorem State.endSwaps_dies (s : State) : s.endSwaps.dies = s.dies := dies_of_footing s.endSwaps_footing
@[simp] theorem State.endSwap_dies (s : State) : s.endSwap.dies = s.dies := dies_of_footing s.endSwap_footing

/-! ### Kills of commands (R265-R273) -/

@[simp] theorem State.poisonRange_dies (s : State) (p : Fin 16) (a n : Nat) : (s.poisonRange p a n).dies = s.dies := by
  unfold State.poisonRange
  split
  · rfl
  · refine foldl_dies _ (fun t i => ?_) _ s
    have went := t.translate_dies p ((a / 64 + i) * 64) true
    dsimp only
    generalize t.translate p ((a / 64 + i) * 64) true = found at went
    obtain ⟨x, u⟩ := found
    cases x with
    | pool pa =>
      dsimp only at went ⊢
      split
      · exact (u.engWrite_dies _ _ _ _ _ _ _).trans went
      · exact went
    | _ => exact went

@[simp] theorem State.poisonRegions_dies (s : State) (c : Cmd) : (s.poisonRegions c).dies = s.dies := by
  simp [State.poisonRegions]

@[simp] theorem State.semRead_dies (s : State) (p : Fin 16) (va : Nat) : (s.semRead p va).2.dies = s.dies := by
  unfold State.semRead
  have went := s.translate_dies p va false
  generalize s.translate p va false = found at went
  obtain ⟨x, t⟩ := found
  cases x with
  | pool pa =>
    dsimp only at went ⊢
    split
    · exact went
    · split <;> simp [went]
  | _ => exact went

@[simp] theorem State.semWrite_dies (s : State) (p : Fin 16) (line off : Nat) (value : Word) (owner : Nat) : (s.semWrite p line off value owner).2.dies = s.dies := by
  simp [State.semWrite]

@[simp] theorem State.poisonRead_dies (s : State) (p : Fin 16) (granule : Nat) (reporter : BitVec 16) : (s.poisonRead p granule reporter).dies = s.dies := by
  simp [State.poisonRead]

@[simp] theorem State.endDonation_dies (s : State) (c : Cmd) : (s.endDonation c).dies = s.dies := by
  unfold State.endDonation
  split
  · rfl
  · dsimp only
    split <;> rfl

@[simp] theorem State.releaseClaims_dies (s : State) (c : Cmd) : (s.releaseClaims c).2.dies = s.dies := by
  unfold State.releaseClaims
  refine (foldl_dies_snd _ (fun x i => ?_) _ _).trans (s.endDonation_dies c)
  split
  · rfl
  · rename_i va _ _ _
    have read := x.2.semRead_dies c.part va
    generalize x.2.semRead c.part va = found at read
    obtain ⟨m, t⟩ := found
    cases m <;> simpa using read

@[simp] theorem State.sendMsix_dies (s : State) (port : Fin 2) (fn : Fin 128) (v : Nat) : (s.sendMsix port fn v).dies = s.dies := by
  simp [State.sendMsix]

@[simp] theorem State.coreInterrupt_dies (s : State) (p : Fin 16) (index n : Nat) : (s.coreInterrupt p index n).dies = s.dies := by
  unfold State.coreInterrupt
  split <;> simp

@[simp] theorem State.chanIrq_dies (s : State) (ch : Fin 3072) : (s.chanIrq ch).dies = s.dies := by
  have sent : (s.sendChanIrq ch).dies = s.dies := by
    unfold State.sendChanIrq
    dsimp only
    split <;> simp
  simp [State.chanIrq, sent]

@[simp] theorem State.vacateArrays_dies (s : State) (c : Cmd) : (s.vacateArrays c).dies = s.dies := by
  refine foldl_dies _ (fun s la => ?_) _ s
  split
  · refine foldl_dies State.sentryFree (fun _ _ => ?_) _ s
    rfl
  · rfl

@[simp] theorem State.dropReads_dies (s : State) (c : CmdRef) : (s.dropReads c).dies = s.dies := by
  have held (t : State) (port : Fin 2) : (t.sendHeld port).dies = t.dies := by
    unfold State.sendHeld
    refine foldl_dies _ (fun s r => ?_) _ _
    split <;> simp
  simp [State.dropReads, State.dropFrames, State.settleInvals, held]

@[simp] theorem State.killCmd_dies (s : State) (c : Cmd) (fin : Option (Nat × BitVec 32)) : (s.killCmd c fin).dies = s.dies := by
  simp [State.killCmd]

@[simp] theorem State.complete_dies (s : State) (c : Cmd) (status : Nat) (detail : BitVec 32) : (s.complete c status detail).dies = s.dies := by
  simp [State.complete, State.putRecord, State.recordEnergy, State.chanPut, State.noteError]

@[simp] theorem State.killRerun_dies (s : State) (c : Cmd) : (s.killRerun c).dies = s.dies := by
  unfold State.killRerun State.endCmd
  split
  · split
    · split <;> simp
    · simp
  · simp
  · rfl

@[simp] theorem State.killOn_dies (s : State) (la : Nat) : (s.killOn la).dies = s.dies := by
  unfold State.killOn
  split
  · rfl
  · split <;> simp

/-! ### Bindings and units that are lost (R18, R406, R409, R410) -/

@[simp] theorem State.takeSpare_dies (s : State) (la old : Nat) : (s.takeSpare la old).dies = s.dies := by
  unfold State.takeSpare
  split <;> simp

@[simp] theorem State.bindSwap_dies (s : State) (w : Swap) : (s.bindSwap w).dies = s.dies := by
  simp [State.bindSwap]

@[simp] theorem State.settleBindings_dies (s : State) : s.settleBindings.dies = s.dies := by
  simp [State.settleBindings, State.unbindLa]

@[simp] theorem State.dropLinks_dies (s : State) (d : Nat) : (s.dropLinks d).dies = s.dies := by
  refine foldl_dies _ (fun t l => ?_) _ s
  rfl

theorem State.loseDieUnits_dies (s : State) (d : Nat) : (s.loseDieUnits d).dies = s.dies := by
  unfold State.loseDieUnits
  split
  · unfold State.loseSlots
    dsimp only
    rw [State.settleBindings_dies]
    refine (foldl_dies _ (fun t la => ?_) _ _).trans ((foldl_dies _ (fun t i => ?_) _ _).trans ?_)
    · split
      · simp
      · split
        · rfl
        · split <;> simp
    · rfl
    · simp
  · refine (foldl_dies _ (fun t i => ?_) _ _).trans (foldl_dies _ (fun t c => ?_) _ _) <;> rfl

theorem State.failModule_dies (s : State) (cause : Nat) : (s.failModule cause).dies = s.dies := by
  unfold State.failModule
  split
  · rfl
  · split <;> rfl

/-- A fence leaves every other die. -/
theorem State.fenceDie_else (s : State) {d n : Nat} (mode : DieMode) (code detail : Nat) (apart : n ≠ d) : (s.fenceDie d mode code detail).dieState n = s.dieState n := by
  have ends (c : Prop) [Decidable c] (t : State) : (if c then t.failModule 0x0051 else t).dies = t.dies := by
    split
    · exact t.failModule_dies _
    · rfl
  unfold State.fenceDie
  split
  · rfl
  · refine (State.dieState_of_dies ((ends _ _).trans ((State.endSwaps_dies _).trans ((State.loseDieUnits_dies _ d).trans (State.dropLinks_dies _ d)))) n).trans ?_
    refine (State.dieState_setDie_ne _ _ _ _ apart).trans (State.dieState_of_dies ?_ n)
    simp

/-! ### Hubs that are lost (R410, R412) -/

theorem State.loseHubDomains_dies (s : State) (h : Nat) : (s.loseHubDomains h).dies = s.dies := by
  have dropped (l : List Nat) (k : Nat) (t : State) : (l.foldl (fun t i => t.dropDomain (k + i)) t).dies = t.dies := by
    refine foldl_dies _ (fun t i => ?_) l t
    rfl
  unfold State.loseHubDomains
  dsimp only
  split <;> simp [dropped]

theorem State.moveBuilders_dies (s : State) (h : Nat) : (s.moveBuilders h).dies = s.dies := by
  unfold State.moveBuilders
  dsimp only
  refine (foldl_dies _ (fun t p => ?_) _ _).trans (foldl_dies _ (fun t c => ?_) _ _)
  · split <;> simp
  · split
    · cases t.cmd c.ref <;> simp
    · rfl

theorem State.refactor_dies (s : State) : s.refactor.dies = s.dies := by
  simp [State.refactor]

/-- A failed module serves nothing (R412). -/
theorem State.failModule_up {s : State} (up : s.up = true) (cause : Nat) : (s.failModule cause).up = false := by
  unfold State.up at up
  obtain ⟨published, running⟩ := Bool.and_eq_true_iff.mp up
  have awaits : (if cause = 0x0051 ∨ cause = 0x0052 then s.pow.stage.awaits else none) = none := by
    rw [of_decide_eq_true published]
    exact ite_self _
  unfold State.failModule
  rw [if_neg (by rw [Option.isNone_iff_eq_none.mp running]; decide), awaits]
  exact Bool.and_false _

/-- A lost hub is taken out; a second one fails the module. -/
theorem State.loseHub_present {s : State} {h : Fin 4} (up : s.up = true) (present : s.hubUp h.val = true) :
    (s.loseHub h.val).hubUp h.val = false ∧ (s.hubsUp < 4 → (s.loseHub h.val).up = false) := by
  have fenced (t : State) : (t.setDie (8 + h.val) ⟨.fenced, true⟩).hubUp h.val = false := by
    unfold State.hubUp
    rw [State.dieState_setDie]
    rfl
  have hub {t u : State} (same : t.dieState (8 + h.val) = u.dieState (8 + h.val)) (out : u.hubUp h.val = false) : t.hubUp h.val = false := by
    unfold State.hubUp at *
    rw [same]
    exact out
  unfold State.loseHub
  dsimp only
  rw [if_neg (by simp [present])]
  by_cases second : s.hubsUp < 4
  · rw [if_pos (by simpa using second)]
    refine ⟨hub (State.dieState_of_dies ((State.failModule_dies _ _).trans (State.dropLinks_dies _ _)) _) (fenced _), fun _ => State.failModule_up ?_ _⟩
    unfold State.up at *
    rw [State.dropLinks_pow]
    exact up
  · rw [if_neg (by simpa using second)]
    refine ⟨hub (State.dieState_of_dies ((State.refactor_dies _).trans ((State.endSwaps_dies _).trans ((State.moveBuilders_dies _ _).trans (State.loseHubDomains_dies _ _)))) _) ?_,
      fun other => absurd other second⟩
    refine hub ((State.fenceDie_else _ _ _ _ (by omega)).trans ((State.fenceDie_else _ _ _ _ (by omega)).trans (State.dieState_of_dies ?_ _))) (fenced (s.report (mkReport 0x0052 (unitId 3 (8 + h.val)) 0)))
    have lost (t : State) (k : Nat) : (t.loseHubMem k).dies = t.dies := rfl
    simp [lost]

/-! ### The self-test of a die (R408, R409) -/

theorem State.rebindDie_dies (s : State) (d : Nat) (healthy : BitVec 80) : (s.rebindDie d healthy).dies = s.dies := by
  unfold State.rebindDie
  dsimp only
  refine (foldl_dies _ (fun t i => ?_) _ _).trans ((foldl_dies _ (fun t i => ?_) _ _).trans (foldl_dies _ (fun t i => ?_) _ s))
  · split <;> simp
  · split
    · rfl
    · split <;> rfl
  · split <;> rfl

theorem State.restCluster_dies (s : State) (k : Nat) : (s.restCluster k).dies = s.dies := by
  unfold State.restCluster
  dsimp only
  split
  · rfl
  · refine (foldl_dies _ (fun t n => ?_) _ _).trans (s.dropDomain_dies _)
    split <;> rfl

theorem State.returnCores_dies (s : State) (sd : Nat) (healthy : BitVec 80) : (s.returnCores sd healthy).dies = s.dies := by
  unfold State.returnCores
  refine (foldl_dies _ (fun t k => t.restCluster_dies _) _ _).trans (foldl_dies _ (fun t i => ?_) _ s)
  dsimp only
  split <;> rfl

end Sys2Proof.Machine
end

section
/-! SUPPORT. The return of a service die's cores (14 R408, R409), and the events of internal links and of lost units (08 R227-R231; 14 R407-R410); with these the statement about
them. -/

namespace Sys2Proof.Machine

/-! ### Cores that return in reset (R409) -/

/-- What the return of its die makes of a core that is healthy, whose cluster is on and whose place no spare has taken. -/
def CoreState.returned (i : Nat) (c : CoreState) : CoreState := { c with st := if decide (72 ≤ i) && c.replaced.isNone then 2 else 0, running := false, pc := 0 }

/-- A core returns with its die. -/
def State.coreReturns (s : State) (sd : Nat) (healthy : BitVec 80) (i : Nat) : Bool :=
  healthy.getLsbD i && !(List.range 80).any (fun k => decide ((s.core (80 * sd + k)).replaced = some i)) && decide (s.domain (448 + (80 * sd + i) / 8) = .on)

/-- The step of `State.returnCores` for one core. -/
def State.returnCore (sd : Nat) (healthy : BitVec 80) (s : State) (i : Nat) : State :=
  let n := 80 * sd + i
  let given := (List.range 80).any (fun k => decide ((s.core (80 * sd + k)).replaced = some i))
  if !healthy.getLsbD i ∨ given ∨ s.domain (448 + n / 8) ≠ .on then s else s.setCore n ((s.core n).returned i)

theorem State.returnCores_eq (s : State) (sd : Nat) (healthy : BitVec 80) :
    s.returnCores sd healthy = (List.range 10).foldl (fun s c => s.restCluster (10 * sd + c)) ((List.range 80).foldl (State.returnCore sd healthy) s) := rfl

/-- A step leaves the replacements and the domains, by which the other cores return. -/
structure SameReturns (s t : State) : Prop where
  replaced : ∀ n, (t.core n).replaced = (s.core n).replaced
  pow : t.pow = s.pow

theorem State.coreReturns_of_same {s t : State} (same : SameReturns s t) (sd : Nat) (healthy : BitVec 80) (i : Nat) : t.coreReturns sd healthy i = s.coreReturns sd healthy i := by
  have domain (n : Nat) : t.domain n = s.domain n := congrArg (fun p : PowState => Tbl.get Domain.off p.domains n) same.pow
  unfold State.coreReturns
  simp only [same.replaced, domain]

theorem State.returnCore_eq {s t : State} (same : SameReturns s t) (sd : Nat) (healthy : BitVec 80) (i : Nat) :
    t.returnCore sd healthy i = if s.coreReturns sd healthy i then t.setCore (80 * sd + i) ((t.core (80 * sd + i)).returned i) else t := by
  rw [← State.coreReturns_of_same same]
  unfold State.returnCore State.coreReturns
  cases healthy.getLsbD i <;> cases (List.range 80).any (fun k => decide ((t.core (80 * sd + k)).replaced = some i)) <;>
    by_cases on : t.domain (448 + (80 * sd + i) / 8) = .on <;> simp [on]

theorem State.returnCore_same {s t : State} (same : SameReturns s t) (sd : Nat) (healthy : BitVec 80) (i : Nat) : SameReturns s (t.returnCore sd healthy i) := by
  rw [State.returnCore_eq same]
  split
  · refine ⟨fun n => ?_, same.pow⟩
    by_cases here : n = 80 * sd + i
    · subst here
      rw [State.core_setCore]
      exact same.replaced _
    · rw [State.core_setCore_ne _ _ _ _ here]
      exact same.replaced _
  · exact same

/-- A cluster at rest leaves whether its cores run, and where. -/
theorem State.restCluster_runs (s : State) (k n : Nat) : ((s.restCluster k).core n).running = (s.core n).running ∧ ((s.restCluster k).core n).pc = (s.core n).pc := by
  unfold State.restCluster
  dsimp only
  split
  · exact ⟨rfl, rfl⟩
  · refine List.foldlRecOn (motive := fun t : State => (t.core n).running = (s.core n).running ∧ (t.core n).pc = (s.core n).pc) _ _ ⟨rfl, rfl⟩ (fun t ht m _ => ?_)
    split
    · by_cases here : n = m
      · subst here
        rw [State.core_setCore]
        exact ht
      · rw [State.core_setCore_ne _ _ _ _ here]
        exact ht
    · exact ht

theorem State.returnCores_reset {s : State} {sd : Nat} {healthy : BitVec 80} {i : Nat} (inside : i < 80) (returns : s.coreReturns sd healthy i = true) :
    ((s.returnCores sd healthy).core (80 * sd + i)).running = false ∧ ((s.returnCores sd healthy).core (80 * sd + i)).pc = 0 := by
  have core := foldl_at (get := fun (t : State) j => t.core (80 * sd + j)) (key := id) (f := fun k c => if s.coreReturns sd healthy k then c.returned k else c)
    (F := State.returnCore sd healthy) (Inv := SameReturns s) (fun t k same => State.returnCore_same same sd healthy k) (fun t k j same => ?step) (fun k c => ?again) (List.range 80)
    (⟨fun _ => rfl, rfl⟩ : SameReturns s s) i
  case step =>
    rw [State.returnCore_eq same]
    by_cases here : j = k
    · subst here
      split
      · exact (State.core_setCore _ _ _).trans (if_pos rfl).symm
      · exact (if_pos rfl).symm
    · refine Eq.trans ?_ (if_neg here).symm
      split
      · exact State.core_setCore_ne _ _ _ _ (by omega)
      · rfl
  case again => split <;> rfl
  rw [id, if_pos (List.mem_range.mpr inside), if_pos returns] at core
  rw [State.returnCores_eq]
  refine List.foldlRecOn (motive := fun t : State => (t.core (80 * sd + i)).running = false ∧ (t.core (80 * sd + i)).pc = 0) _ _ ?_ (fun t ht c _ => ?_)
  · rw [core]
    exact ⟨rfl, rfl⟩
  · obtain ⟨running, pc⟩ := t.restCluster_runs (10 * sd + c) (80 * sd + i)
    rw [running, pc]
    exact ht

theorem State.returnCores_healthy {s : State} {sd : Nat} {healthy : BitVec 80} {i : Nat} (inside : i < 80) (fit : healthy.getLsbD i = true)
    (own : ∀ k, k < 80 → (s.core (80 * sd + k)).replaced ≠ some i) (on : s.domain (448 + (80 * sd + i) / 8) = .on) :
    ((s.returnCores sd healthy).core (80 * sd + i)).running = false ∧ ((s.returnCores sd healthy).core (80 * sd + i)).pc = 0 := by
  refine State.returnCores_reset inside ?_
  unfold State.coreReturns
  rw [fit, on]
  simpa using own

/-! ### Events of a link (R227-R229, R231) -/

theorem foldl_emit (h : Flit → Out) (l : List Flit) (s : State) : l.foldl (fun s f => s.emit (h f)) s = { s with out := (l.map h).reverse ++ s.out } := by
  induction l generalizing s with
  | nil => rfl
  | cons f l ih =>
    rw [List.foldl_cons, ih]
    simp [State.emit]

/-- A replay sends each flit that is held, in order, and is reported. -/
theorem exec_d2dReplayTimeout {s : State} {l : Fin 22} {dir : Fin 2} {g : Fin 80} (up : (s.d2d l.val).mode = .up) (some : (s.laneGroup l.val dir g).held ≠ []) :
    ∃ w : State, exec (.d2dReplayTimeout l dir g) s = .next (w.report (mkReport 0x0040 (unitId 7 l.val) g.val))
      ∧ w.out = ((s.laneGroup l.val dir g).held.map (fun q => Out.flit l dir g q)).reverse ++ s.out
      ∧ w.laneGroup l.val dir g = { s.laneGroup l.val dir g with replays := (s.laneGroup l.val dir g).replays + 1 } := by
  change ∃ w, execD2dReplayTimeout l dir g s = _ ∧ _
  unfold execD2dReplayTimeout
  dsimp only
  rw [if_neg (by simp [up, some]), foldl_emit]
  exact ⟨_, rfl, rfl, State.laneGroup_setLaneGroup s l.val dir g _⟩

/-- A cause that holds takes the link down: a stopped wire, or what a direction has counted. -/
theorem exec_d2dWireFailed {s : State} {l : Fin 22} {g : Fin 80} {c : WireCause} (up : (s.d2d l.val).mode = .up)
    (holds : c = .trackStopped ∨ c = .clockStopped ∨ ∃ dir, (c = .eightReplays ∧ 8 ≤ (s.laneGroup l.val dir g).failSame) ∨ (c = .crcRate ∧ (s.laneGroup l.val dir g).crcRate = true)) :
    exec (.d2dWireFailed l g c) s = .next (s.linkDown l.val 0x0042 g.val) := by
  change execD2dWireFailed l g c s = _
  unfold execD2dWireFailed
  dsimp only
  rcases holds with rfl | rfl | ⟨dir, ⟨rfl, counts⟩ | ⟨rfl, counts⟩⟩ <;> refine if_neg ?_
  · simp [up]
  · simp [up]
  · have some := Fin.exists_fin_two.mp (⟨dir, counts⟩ : ∃ e, 8 ≤ (s.laneGroup l.val e g).failSame)
    rw [decide_eq_true some]
    simp [up]
  · have some := Fin.exists_fin_two.mp (⟨dir, counts⟩ : ∃ e, (s.laneGroup l.val e g).crcRate = true)
    rw [Bool.or_eq_true_iff.mpr some]
    simp [up]

/-- A step of T1-T4 strikes the groups that failed, and the fourth leads to the comparison. -/
theorem exec_linkTrainingStep {s : State} {l : Fin 22} {k : Fin 4} {m0 m1 : BitVec 80} (f0 f1 : BitVec 80) (trains : (s.d2d l.val).mode = .training k m0 m1) :
    exec (.linkTrainingStep l f0 f1) s = .next (s.setD2d l.val
      { s.d2d l.val with mode := if k = 3 then .compare (m0 &&& ~~~f0) (m1 &&& ~~~f1) else .training (k + 1) (m0 &&& ~~~f0) (m1 &&& ~~~f1) }) := by
  change execLinkTrainingStep l f0 f1 s = _
  unfold execLinkTrainingStep
  simp only [trains]

/-! ### Events of a die or a hub (R407-R410) -/

/-- A die that is lost is fenced; a second loss ends its recovery. -/
theorem exec_dieLost {s : State} {d : Fin 10} {a b : Bool} (up : s.up = true) (present : (s.dieState (dieOf d)).mode = .present) :
    exec (.dieLost d a b) s =
      let again := (s.dieState (dieOf d)).lostOnce
      let t := s.fenceDie (dieOf d) (if again then .fenced else .lost) (if dieOf d < 8 then 0x0050 else 0x0051) ((if a then 1 else 0) + (if b then 2 else 0))
      .next (if again then t.postRecovery (s.dieParts (dieOf d)) (unitId 3 (dieOf d)) (if dieOf d < 8 then 2 else 3) (some 1) else t) :=
  if_neg (by simp [up, present])

section
variable {s : State} {d : Fin 10} {healthy : BitVec 80} (up : s.up = true) (tests : (s.dieState (dieOf d)).mode = .selfTest) (links : ∀ k ∈ linksOf (dieOf d), (s.d2d k).mode = .up)
  (domains : ∀ k ∈ unitDomains (dieOf d), s.domain k ≠ .off ∧ s.domain k ≠ .comingUp)
include up tests links domains

theorem selfTest_ready (healthy : BitVec 80) :
    exec (.selfTestComplete d healthy) s =
      if healthy = 0 then
        .next ((((unitDomains (dieOf d)).foldl (fun s k => s.dropDomain k) s).setDie (dieOf d)
          { ((unitDomains (dieOf d)).foldl (fun s k => s.dropDomain k) s).dieState (dieOf d) with mode := .fenced }).postRecovery (s.dieParts (dieOf d)) (unitId 3 (dieOf d))
            (if dieOf d < 8 then 2 else 3) (some 1))
      else
        let t := s.setDie (dieOf d) { s.dieState (dieOf d) with mode := .present }
        let w := if dieOf d < 8 then t.rebindDie (dieOf d) healthy else t.returnCores (dieOf d - 12) healthy
        .next ((w.atlasUpdate 5 (w.dieParts (dieOf d))).postRecovery (w.dieParts (dieOf d)) (unitId 3 (dieOf d)) (if dieOf d < 8 then 2 else 3) (some 0)) := by
  have linked : ¬ (linksOf (dieOf d)).any (fun l => decide ((s.d2d l).mode ≠ .up)) = true := by
    simpa using links
  have powered : ¬ (unitDomains (dieOf d)).any (fun k => decide (s.domain k = .off) || decide (s.domain k = .comingUp)) = true := by
    simpa using domains
  refine if_neg ?_
  rintro (down | waits | open' | off)
  · simp [up] at down
  · exact waits tests
  · exact linked open'
  · exact powered off

/-- A self-test that finds no healthy unit fences the die. -/
theorem selfTest_fences :
    ∃ w : State, (w.dieState (dieOf d)).mode = .fenced ∧ exec (.selfTestComplete d 0) s =
      .next (w.postRecovery (s.dieParts (dieOf d)) (unitId 3 (dieOf d)) (if dieOf d < 8 then 2 else 3) (some 1)) := by
  refine ⟨_, ?_, (selfTest_ready up tests links domains 0).trans (if_pos rfl)⟩
  rw [State.dieState_setDie]

/-- A self-test that finds a healthy unit lifts the fence; a service die's healthy cores return in reset. -/
theorem selfTest_lifts (fit : healthy ≠ 0) :
    ∃ w : State, (w.dieState (dieOf d)).mode = .present ∧ exec (.selfTestComplete d healthy) s =
        .next ((w.atlasUpdate 5 (w.dieParts (dieOf d))).postRecovery (w.dieParts (dieOf d)) (unitId 3 (dieOf d)) (if dieOf d < 8 then 2 else 3) (some 0))
      ∧ (12 ≤ dieOf d → ∀ i, i < 80 → healthy.getLsbD i = true → (∀ k, k < 80 → (s.core (80 * (dieOf d - 12) + k)).replaced ≠ some i) →
        s.domain (448 + (80 * (dieOf d - 12) + i) / 8) = .on → (w.core (80 * (dieOf d - 12) + i)).running = false ∧ (w.core (80 * (dieOf d - 12) + i)).pc = 0) := by
  have present (t : State) (same : t.dies = (s.setDie (dieOf d) { s.dieState (dieOf d) with mode := .present }).dies) : (t.dieState (dieOf d)).mode = .present := by
    rw [State.dieState_of_dies same, State.dieState_setDie]
  have run := (selfTest_ready up tests links domains healthy).trans (if_neg fit)
  dsimp only at run
  by_cases compute : dieOf d < 8
  · rw [if_pos compute] at run
    exact ⟨_, present _ (State.rebindDie_dies _ _ _), run, fun service => by omega⟩
  · rw [if_neg compute] at run
    refine ⟨_, present _ (State.returnCores_dies _ _ _), run, fun _ i inside healed own on => ?_⟩
    exact State.returnCores_healthy (s := s.setDie (dieOf d) { s.dieState (dieOf d) with mode := .present }) inside healed own on

end

/-- Settles O38: each event of a link, of a die or of a hub whose condition holds takes effect. -/
theorem dieLinkEventsComplete : Obligations.DieLinkEventsComplete := by
  unfold Obligations.DieLinkEventsComplete
  refine fun s l => ⟨fun dir g f err up inside ok direct => flitReceive_acts up inside ok direct, fun dir g up some => exec_d2dReplayTimeout up some,
    fun g c up holds => exec_d2dWireFailed up holds, fun k m0 m1 f0 f1 trains => ⟨_, exec_linkTrainingStep f0 f1 trains, State.d2d_setD2d _ _ _⟩,
    fun d a b up present first => ?first, fun d a b up present again => ?second,
    fun d healthy up tests links domains => ⟨fun none => ?fences, fun fit => selfTest_lifts up tests links domains fit⟩, fun h up => ?hub⟩
  case first =>
    rw [exec_dieLost up present, first]
    rfl
  case second =>
    rw [exec_dieLost up present, again]
    rfl
  case fences =>
    subst none
    exact selfTest_fences up tests links domains
  case hub =>
    refine ⟨s.loseHub h.val, if_neg (by simp [up]), ?_⟩
    by_cases present : s.hubUp h.val = true
    · obtain ⟨out, fails⟩ := State.loseHub_present up present
      exact ⟨out, fun absent => absurd present (by simp [absent]), fun _ => fails⟩
    · have stays : s.loseHub h.val = s := if_pos (by simp [present])
      rw [stays]
      exact ⟨eq_false_of_ne_true present, fun _ => rfl, fun there => absurd there present⟩

end Sys2Proof.Machine
end

section
/-! SUPPORT. Reads of lines by engines, and translations, leave the channels, the commands and the partitions as they are, but that a channel
whose doorbell's line is written meanwhile becomes hot (R157, R190, R251, R375). -/

namespace Sys2Proof.Machine

/-- What the front end keeps of a channel, but for how hot it is (R251). -/
def ChanDyn.quiet (d : ChanDyn) : ChanDyn := { d with hot := false, backoff := 0 }

/-- The channels, but for how hot they are. -/
def ChanState.quiet (c : ChanState) : ChanState := { c with dyn := c.dyn.map (fun x => (x.1, x.2.quiet)) }

theorem get_map_quiet (l : Tbl ChanDyn) (i : Nat) : Tbl.get ChanDyn.reset (l.map (fun x => (x.1, x.2.quiet))) i = (Tbl.get ChanDyn.reset l i).quiet := by
  induction l with
  | nil => rfl
  | cons x l ih =>
    rw [List.map_cons, Tbl.get, Tbl.get, ih]
    split <;> rfl

theorem State.dyn_of_quiet {s t : State} (h : t.chan.quiet = s.chan.quiet) (ch : Fin 3072) : (t.dyn ch).quiet = (s.dyn ch).quiet := by
  have same := congrArg (fun c : ChanState => Tbl.get ChanDyn.reset c.dyn ch.val) h
  rwa [ChanState.quiet, ChanState.quiet, get_map_quiet, get_map_quiet] at same

@[simp] theorem quiet_ite (c : Prop) [Decidable c] (a b : State) :
    (if c then a else b).chan.quiet = if c then a.chan.quiet else b.chan.quiet := apply_ite (fun s : State => s.chan.quiet) _ _ _

/-! ### Channels (R154-R161) -/

@[simp] theorem State.charge_quiet (s : State) (p : Fin 16) (c : Option CmdRef) (e : EnergyEvent) (n : Nat) : (s.charge p c e n).chan.quiet = s.chan.quiet := rfl

@[simp] theorem State.writeMem_quiet (s : State) (line : Nat) (d : Line) (m : BitVec 128) (p : BitVec 2) : (s.writeMem line d m p).chan.quiet = s.chan.quiet := by
  unfold State.writeMem; split <;> rfl

@[simp] theorem State.enterReq_quiet (s : State) (r : MemReq) : (s.enterReq r).chan.quiet = s.chan.quiet := by
  unfold State.enterReq; dsimp only; (repeat' split) <;> rfl

@[simp] theorem State.chanAsk_quiet (s : State) (line : Nat) (p : Fin 16) (cls : ReqClass) (bytes : Nat) (target : FillFor) :
    (s.chanAsk line p cls bytes target).chan.quiet = s.chan.quiet := by
  simp [State.chanAsk]

/-! ### The home and the dies (R177-R194) -/

@[simp] theorem State.llcPut_quiet (s : State) (l : LlcLine) : (s.llcPut l).chan.quiet = s.chan.quiet := rfl
@[simp] theorem State.llcDrop_quiet (s : State) (l : LlcLine) : (s.llcDrop l).chan.quiet = s.chan.quiet := rfl
@[simp] theorem State.countDemoted_quiet (s : State) (p : Fin 16) : (s.countDemoted p).chan.quiet = s.chan.quiet := rfl

@[simp] theorem State.shadowNote_quiet (s : State) (p : Fin 16) (slice set tag hint : Nat) (hit : Bool) : (s.shadowNote p slice set tag hint hit).chan.quiet = s.chan.quiet := by
  unfold State.shadowNote; split <;> rfl

@[simp] theorem State.llcHit_quiet (s : State) (p : Fin 16) (l : LlcLine) (hint : Nat) : (s.llcHit p l hint).chan.quiet = s.chan.quiet := by
  unfold State.llcHit; split
  · exact s.shadowNote_quiet p l.slice l.set l.line hint true
  · change ChanState.quiet (State.chan (if _ then _ else _)) = _
    split <;> simp

@[simp] theorem State.dieAnswer_quiet (s : State) (d : Fin 2) (line : Nat) (q : Snoop) (w : Option Line) : (s.dieAnswer d line q w).2.chan.quiet = s.chan.quiet := by
  unfold State.dieAnswer; dsimp only; (repeat' split) <;> rfl

@[simp] theorem State.wakeLine_quiet (s : State) (line : Nat) : (s.wakeLine line).chan.quiet = s.chan.quiet := by
  unfold State.wakeLine ChanState.quiet
  simp only [List.map_map]
  refine congrArg (fun l => { s.chan with dyn := l }) (List.map_congr_left (fun x _ => ?_))
  by_cases door : x.2.doorLine = some line
  · simp only [Function.comp_apply, if_pos door]
    rfl
  · simp only [Function.comp_apply, if_neg door]

@[simp] theorem State.takeRsp_quiet (s : State) (d : Fin 2) (line : Nat) (r : Rsp) : (s.takeRsp d line r).chan.quiet = s.chan.quiet := by
  unfold State.takeRsp; split
  · rfl
  · cases r <;> simp

@[simp] theorem State.snoopNow_quiet (s : State) (d : Fin 2) (line : Nat) (q : Snoop) : (s.snoopNow d line q).chan.quiet = s.chan.quiet := by
  simp [State.snoopNow]

/-! ### Error correction (R149-R153, R403-R405) -/

@[simp] theorem State.retirePage_quiet (s : State) (u pg : Nat) : (s.retirePage u pg).chan.quiet = s.chan.quiet := by
  unfold State.retirePage; dsimp only; split
  · rfl
  · split <;> rfl

@[simp] theorem State.countCorrection_quiet (s : State) (u pg : Nat) : (s.countCorrection u pg).chan.quiet = s.chan.quiet := by
  simp [State.countCorrection]

@[simp] theorem State.refillRead_quiet (s : State) (r : RefillPage) : (s.refillRead r).chan.quiet = s.chan.quiet := by
  unfold State.refillRead; split
  · dsimp only; split <;> rfl
  · rfl
  · rfl

@[simp] theorem State.poisonFound_quiet (s : State) (u pg : Nat) (granule : Option Nat) : (s.poisonFound u pg granule).chan.quiet = s.chan.quiet := by
  unfold State.poisonFound; split
  · simp
  · dsimp only; split
    · rfl
    · split
      · exact State.refillRead_quiet _ _
      · simp

@[simp] theorem State.eccTake_quiet (s : State) (u pg : Nat) (granule : Option Nat) (good : BitVec 512) (e : EccEvent) :
    (s.eccTake u pg granule good e).2.2.chan.quiet = s.chan.quiet := by
  cases e <;> simp [State.eccTake]

@[simp] theorem State.eccFree_quiet (s : State) : s.eccFree.2.chan.quiet = s.chan.quiet := rfl

@[simp] theorem State.readGranule_quiet (s : State) (line g : Nat) (e : EccEvent) : (s.readGranule line g e).2.2.chan.quiet = s.chan.quiet := by
  simp [State.readGranule]

@[simp] theorem State.churnOne_quiet (s : State) (o : ChurnOp) (e : EccEvent) : (s.churnOne o e).2.chan.quiet = s.chan.quiet := by
  unfold State.churnOne
  split
  · rfl
  · dsimp only
    split <;> simp

@[simp] theorem State.flushChurn_quiet (s : State) (line : Nat) : (s.flushChurn line).chan.quiet = s.chan.quiet := by
  unfold State.flushChurn
  refine (foldl_keeps (fun x => ChanState.quiet (State.chan (Prod.fst x))) _ (fun x o => ?_) _ _ : ChanState.quiet (State.chan (Prod.fst _)) = _)
  dsimp only; split <;> simp

@[simp] theorem State.readFree_quiet (s : State) (line : Nat) : (s.readFree line).2.chan.quiet = s.chan.quiet := by
  simp [State.readFree, State.readLine]

/-! ### Reads of engines and translation (R157, R190, R257, R375) -/

@[simp] theorem State.evictLine_quiet (s : State) (l : LlcLine) : (s.evictLine l).chan.quiet = s.chan.quiet := by
  unfold State.evictLine; split
  · rfl
  · dsimp only; split <;> simp [State.snoopAll]

@[simp] theorem State.llcAlloc_quiet (s : State) (p : Fin 16) (line hint : Nat) (remote dieReq : Bool) (hd : HomeData) (d : Line) (po : BitVec 2) :
    (s.llcAlloc p line hint remote dieReq hd d po).2.chan.quiet = s.chan.quiet := by
  unfold State.llcAlloc; dsimp only; split
  · simp
  · split
    · simp
    · change ChanState.quiet (State.chan (if _ then _ else _)) = _
      (repeat' split) <;> simp

theorem State.engRead_quiet (s : State) (p : Fin 16) (line hint : Nat) (cls : ReqClass) : (s.engRead p line hint cls).2.chan.quiet = s.chan.quiet := by
  unfold State.engRead; split
  · dsimp only; split <;> simp
  · simp

theorem walkRead_quiet (p : Fin 16) (s : State) (line : Nat) : (walkRead p s line).2.chan.quiet = s.chan.quiet := by
  unfold walkRead; split
  · rfl
  · exact s.engRead_quiet p line 0 .core

theorem State.walk_quiet (p : Fin 16) (s : State) (va page level : Nat) : (State.walk (walkRead p) s p va page level).2.chan.quiet = s.chan.quiet := by
  induction level generalizing s page with
  | zero => unfold State.walk; dsimp only; (repeat' split) <;> simp [walkRead_quiet]
  | succ l ih => unfold State.walk; dsimp only; (repeat' split) <;> simp [walkRead_quiet, ih]

theorem State.translate_quiet (s : State) (p : Fin 16) (va : Nat) (write : Bool) : (s.translate p va write).2.chan.quiet = s.chan.quiet := by
  unfold State.translate State.translateWith
  dsimp only
  split
  · rfl
  split
  · rfl
  split
  · rfl
  split
  · rfl
  split
  · rfl
  · rename_i root _
    have walked := State.walk_quiet p s va root 4
    generalize State.walk (walkRead p) s p va root 4 = found at walked
    obtain ⟨_ | _, _⟩ := found <;> exact walked

end Sys2Proof.Machine
end

section
/-! SUPPORT. Channel actions of host software (09 R244-R246, R471; 10 R452, R453): what each does with the selected channel, and what its port's
registers then show; with these the statement about channel actions. -/

namespace Sys2Proof.Machine

/-! ### STATE of an entry (R242) -/

theorem entState_setEntState (e : BitVec 512) {v : Nat} (lt : v < 256) : entState (setEntState e v) = v := by
  have low : entState (setEntState e v) = v % 256 := congrArg BitVec.toNat (bits_putField_same e (by decide) v)
  rw [low, Nat.mod_eq_of_lt lt]

/-! ### The registers of the port (R453) -/

section
variable (t : State) (n : Fin 2) (code k r : Nat)

@[simp] theorem State.chanOut_chan : (t.chanOut (.host n) code k r).chan = t.chan := State.setRegs_chan ..

theorem State.chanOut_port : ((t.chanOut (.host n) code k r).port n).regs.chanBusy = false ∧ ((t.chanOut (.host n) code k r).port n).regs.chanResult = r := by
  unfold State.chanOut
  dsimp only
  rw [State.port_setRegs]
  exact ⟨rfl, rfl⟩

theorem State.entry_chanOut (ch : Fin 3072) : (t.chanOut (.host n) code k r).entry ch = t.entry ch :=
  congrArg (fun c : ChanState => Tbl.get 0 c.entries ch.val) (t.chanOut_chan n code k r)

theorem State.dyn_chanOut (ch : Fin 3072) : (t.chanOut (.host n) code k r).dyn ch = t.dyn ch :=
  congrArg (fun c : ChanState => Tbl.get ChanDyn.reset c.dyn ch.val) (t.chanOut_chan n code k r)

end

/-- A channel action of host software that is now in progress: BUSY is 1 (R245). -/
def State.chanPends (t : State) (n : Fin 2) (p : Fin 16) (k : PendKind) : State :=
  let u := t.setRegs n { (t.port n).regs with chanBusy := true }
  { u with chan := { u.chan with acts := ⟨some n, p, k, false⟩ :: u.chan.acts } }

theorem State.chanPends_chan (t : State) (n : Fin 2) (p : Fin 16) (k : PendKind) :
    (t.chanPends n p k).chan = { t.chan with acts := ⟨some n, p, k, false⟩ :: t.chan.acts } := by
  simp only [State.chanPends, State.setRegs_chan]

theorem State.chanPends_busy (t : State) (n : Fin 2) (p : Fin 16) (k : PendKind) : ((t.chanPends n p k).port n).regs.chanBusy = true :=
  congrArg (fun x : PortState => x.regs.chanBusy) (t.port_setRegs n _)

theorem State.entry_chanPends (t : State) (n : Fin 2) (p : Fin 16) (k : PendKind) (ch : Fin 3072) : (t.chanPends n p k).entry ch = t.entry ch := by
  rw [State.entry, State.chanPends_chan]
  rfl

/-- A STOP stays in progress while its channel is STOPPING (R246). -/
theorem State.chanPends_waits {t : State} {ch : Fin 3072} (stopping : entState (t.entry ch) = 2) (n : Fin 2) (p : Fin 16) :
    (t.chanPends n p (.chanStop ch)).finishActions = t.chanPends n p (.chanStop ch) := by
  refine State.finishFuel_waits (congrArg ChanState.acts (t.chanPends_chan n p _)) ?_ _
  exact decide_eq_false (by rw [State.entry_chanPends, stopping]; decide)

/-! ### The doorbell that a started channel watches (R251) -/

/-- Watching a doorbell notes its line; the translation that finds it keeps what channels and partitions hold. -/
theorem State.watchDoor_notes (s : State) (ch : Fin 3072) : ∃ (u : State) (door : Option Nat), s.watchDoor ch = u.setDyn ch { u.dyn ch with doorLine := door }
    ∧ u.tenure = s.tenure ∧ u.roster = s.roster ∧ u.chan.quiet = s.chan.quiet := by
  unfold State.watchDoor
  dsimp only
  split
  · exact ⟨s, none, rfl, rfl, rfl, rfl⟩
  · have tenure := s.translate_tenure (entPart (s.entry ch)) (blk (s.entry ch) 8 0 64) false
    have roster := s.translate_roster (entPart (s.entry ch)) (blk (s.entry ch) 8 0 64) false
    have quiet := s.translate_quiet (entPart (s.entry ch)) (blk (s.entry ch) 8 0 64) false
    generalize s.translate (entPart (s.entry ch)) (blk (s.entry ch) 8 0 64) false = found at tenure roster quiet
    obtain ⟨x, u⟩ := found
    cases x <;> exact ⟨u, _, rfl, tenure, roster, quiet⟩

theorem State.watchDoor_tenure (s : State) (ch : Fin 3072) : (s.watchDoor ch).tenure = s.tenure := by
  obtain ⟨u, door, run, tenure, -, -⟩ := s.watchDoor_notes ch
  rw [run, State.setDyn_tenure, tenure]

theorem State.watchDoor_roster (s : State) (ch : Fin 3072) : (s.watchDoor ch).roster = s.roster := by
  obtain ⟨u, door, run, -, roster, -⟩ := s.watchDoor_notes ch
  rw [run]
  exact roster

theorem State.watchDoor_dyn (s : State) (ch : Fin 3072) :
    ((s.watchDoor ch).dyn ch).producer = (s.dyn ch).producer ∧ ((s.watchDoor ch).dyn ch).assigned = (s.dyn ch).assigned := by
  obtain ⟨u, door, run, -, -, quiet⟩ := s.watchDoor_notes ch
  have same := State.dyn_of_quiet quiet ch
  have producer : (u.dyn ch).quiet.producer = (s.dyn ch).quiet.producer := congrArg ChanDyn.producer same
  have assigned : (u.dyn ch).quiet.assigned = (s.dyn ch).quiet.assigned := congrArg ChanDyn.assigned same
  rw [run, State.dyn_setDyn]
  exact ⟨producer, assigned⟩

/-! ### The stop of a channel (R246) -/

/-- A channel without commands begins to stop: none is ended. -/
theorem State.stopChannel_empty {s : State} {ch : Fin 3072} (empty : s.chanCmds ch = []) (why : StopWhy) (status : Nat) (detail : BitVec 32) :
    s.stopChannel ch why status detail = (s.setEntry ch (setEntState (s.entry ch) 2)).setDyn ch { s.dyn ch with stop := some why, hot := false } := by
  change List.foldl _ _ (s.chanCmds ch) = _
  rw [empty]
  rfl

theorem exec_channelStopped {s : State} {ch : Fin 3072} (stopping : entState (s.entry ch) = 2) (empty : s.chanCmds ch = []) (why : (s.dyn ch).stop = some .stop) :
    exec (.channelStopped ch) s = .next (((s.setDyn ch { s.dyn ch with stop := none }).setEntry ch (setEntState (s.entry ch) 3)).finishAll) := by
  have settled : s.settleErrors ch = s := if_neg (by simp [why])
  change execChannelStopped ch s = _
  unfold execChannelStopped
  rw [if_neg (by simp [stopping, why]), settled]
  unfold State.settleStop
  dsimp only
  rw [if_neg (by simp [stopping, empty]), why]

/-! ### An action that is taken (R245, R452, R471) -/

section
variable {s : State} {n : Fin 2} {ch : Fin 3072} (up : s.up = true) (serves : s.barServes n 0 = true) (free : (s.port n).regs.chanBusy = false) (idle : s.chan.acts = [])
  (selected : (s.port n).regs.chanSelect.toNat = ch.val)
include up serves free idle selected

/-- A channel action that host software writes to a port that serves, with none in progress, is performed on the selected channel (R244, R452). -/
theorem State.act_channel (code : Nat) : s.act true code (.host n) (none, none) =
    (s.performOn true code (.host n) (none, none) ch.val (s.port n).regs.chanData (s.actPart (.host n)) false).finishActions := by
  have live : ¬ (!(s.up && s.barServes n 0)) = true := by simp [up, serves]
  have unbusy : ¬ s.isBusy true (.host n) = true := by simp [State.isBusy, free]
  unfold State.act State.perform
  dsimp only
  rw [if_neg live, if_neg unbusy, if_pos idle, ← selected]
  rfl

variable {code : Nat} {t : State}

/-- One that ends at once shows its result in the port's registers. -/
theorem exec_channel_ends {r : Nat} {c : Instr} (row : exec c s = .next (s.take true code (.host n) (none, none))) (calm : stirs true code = false)
    (run : s.chanChecked (.host n) code ch.val (s.port n).regs.chanData = (.done r, t)) (still : t.chan.acts = []) :
    exec c s = .next (t.chanOut (.host n) code ch.val r) := by
  have acts : (t.chanOut (.host n) code ch.val r).chan.acts = [] := by rw [State.chanOut_chan, still]
  rw [row, State.take, State.act_channel up serves free idle selected, calm, State.performOn]
  simp only [if_true, run, Bool.false_eq_true, if_false]
  rw [State.finishActions_idle acts]

/-- One that waits is in progress, and completes as soon as its condition holds. -/
theorem State.act_channel_waits {k : PendKind} (run : s.chanChecked (.host n) code ch.val (s.port n).regs.chanData = (.wait k, t)) :
    s.act true code (.host n) (none, none) = (t.chanPends n (s.actPart (.host n)) k).finishActions := by
  rw [State.act_channel up serves free idle selected, State.performOn]
  simp only [if_true, run, Bool.false_eq_true, if_false]
  rfl

end

/-! ### What each action does with the selected channel (R245, R471) -/

/-- The channel as WRITE leaves it (R245). -/
def State.written (s : State) (ch : Fin 3072) (e : BitVec 512) : State :=
  (s.setEntry ch (setEntState e 0)).setDyn ch { ChanDyn.reset with assigned := true, holding := (s.dyn ch).holding, irqDue := (s.dyn ch).irqDue }

theorem State.chanWrite_ok {s : State} {n : Fin 2} {ch : Fin 3072} {e : BitVec 512} (own : (fnOf (entFn e)).1 = n) (ok : entryOk e = true) (fresh : s.nudgeTaken ch e = false)
    (live : (s.partition (entPart e)).mode = .live) (bound : s.fnOfPart (entPart e) n (fnOf (entFn e)).2 = true)
    (accepted : s.lockBars (entPart e) (entFn e) = false) : s.chanWrite true ch e = (0, s.written ch e) := by
  unfold State.chanWrite
  rw [if_neg (by simp [ok, fresh]), if_neg (by simp [live, own, bound]), if_neg (by simp [accepted])]
  rfl

/-- The channel as START leaves it, its doorbell not yet watched (R245). -/
def State.started (s : State) (ch : Fin 3072) : State :=
  let t := s.setEntry ch (setEntState (setEntCause (s.entry ch) 0) 1)
  t.setDyn ch { ChanDyn.reset with
    assigned := (s.dyn ch).assigned, holding := (s.dyn ch).holding, irqDue := (s.dyn ch).irqDue, producer := entConsumed (t.entry ch) }

section
variable {s : State} {n : Fin 2} {ch : Fin 3072} (mine : (s.dyn ch).assigned = true → (fnOf (entFn (s.entry ch))).1 = n)
include mine

/-- Host software may act on a channel that no other port's function has (R471). -/
theorem State.chanPermits_host {code : Nat} {e : BitVec 512} (own : code = 1 → (fnOf (entFn e)).1 = n) : ¬ (!s.chanPermits (.host n) code ch e) = true := by
  have old : (!(s.dyn ch).assigned || decide ((fnOf (entFn (s.entry ch))).1 = n)) = true := by
    cases on : (s.dyn ch).assigned with
    | false => rfl
    | true => simp [mine on]
  have new : (decide (code ≠ 1) || decide ((fnOf (entFn e)).1 = n)) = true := by
    by_cases write : code = 1 <;> simp [write, own]
  have both : s.chanPermits (.host n) code ch e = true := Bool.and_eq_true_iff.mpr ⟨old, new⟩
  simp [both]

/-- Any action but WRITE goes past the checks of R471. -/
theorem State.chanPermits_other {code : Nat} (other : code ≠ 1) (e : BitVec 512) : ¬ (!s.chanPermits (.host n) code ch e) = true :=
  State.chanPermits_host mine fun write => absurd write other

variable {data : List Word}

theorem State.chanChecked_write (settled : entState (s.entry ch) = 0 ∨ entState (s.entry ch) = 3 ∨ entState (s.entry ch) = 4)
    (own : (fnOf (entFn (wordsEntry data))).1 = n) {u : State} (write : s.chanWrite true ch (wordsEntry data) = (0, u)) :
    s.chanChecked (.host n) 1 ch.val data = (.done 0, u) := by
  refine (dif_pos ch.isLt).trans ((if_neg (State.chanPermits_host mine fun _ => own)).trans ((if_neg (by simp [settled])).trans ?_))
  dsimp only
  rw [write]

theorem State.chanChecked_read : s.chanChecked (.host n) 2 ch.val data = (.done 0, s) :=
  (dif_pos ch.isLt).trans (if_neg (State.chanPermits_other mine (by decide) _))

theorem State.chanChecked_stop (active : entState (s.entry ch) = 1) :
    s.chanChecked (.host n) 3 ch.val data = (.wait (.chanStop ch), s.stopChannel ch .stop 1 0) :=
  (dif_pos ch.isLt).trans ((if_neg (State.chanPermits_other mine (by decide) _)).trans (if_neg (by simp [active])))

theorem State.chanChecked_start (settled : entState (s.entry ch) = 0 ∨ entState (s.entry ch) = 3 ∨ entState (s.entry ch) = 4)
    (accepted : s.lockBars (entPart (s.entry ch)) (entFn (s.entry ch)) = false) : s.chanChecked (.host n) 4 ch.val data = (.done 0, (s.started ch).watchDoor ch) :=
  (dif_pos ch.isLt).trans ((if_neg (State.chanPermits_other mine (by decide) _)).trans ((if_neg (by simp [settled])).trans (if_neg (by simp [accepted]))))

theorem State.chanChecked_disable (stopped : entState (s.entry ch) = 3 ∨ entState (s.entry ch) = 4) :
    s.chanChecked (.host n) 5 ch.val data = (.done 0, s.setEntry ch (setEntState (s.entry ch) 0)) :=
  (dif_pos ch.isLt).trans ((if_neg (State.chanPermits_other mine (by decide) _)).trans (if_neg (fun moving => moving.1 (stopped.resolve_right moving.2))))

end

/-- Settles O27: each action passes the checks of R471 and takes effect on the selected channel alone; STOP is in progress while the channel is STOPPING. -/
theorem channelActionsComplete : Obligations.ChannelActionsComplete := by
  unfold Obligations.ChannelActionsComplete
  intro s n ch up serves free idle selected mine
  have ends {code : Nat} {t : State} {c : Instr} := exec_channel_ends up serves free idle selected (code := code) (t := t) (r := 0) (c := c)
  refine ⟨fun w words settled own ok fresh live bound accepted => ?write, ?read, fun active empty => ?stop, fun settled accepted => ?start, fun stopped => ?disable,
    fun stopping empty why => exec_channelStopped stopping empty why⟩
  case write =>
    subst words
    have checked := State.chanChecked_write mine settled own (State.chanWrite_ok own ok fresh live bound accepted)
    obtain ⟨busy, result⟩ := State.chanOut_port (s.written ch (wordsEntry (s.port n).regs.chanData)) n 1 ch.val 0
    refine ⟨_, ends rfl rfl checked idle, ?_, ?_, busy, result, fun d other => ?_⟩
    · rw [State.entry_chanOut, State.written, State.entry_setDyn', State.entry_setEntry]
    · rw [State.dyn_chanOut, State.written, State.dyn_setDyn]
    · rw [State.entry_chanOut, State.written, State.entry_setDyn', State.entry_setEntry_ne _ _ _ _ other]
  case read =>
    rw [ends rfl rfl (State.chanChecked_read mine) idle]
    rfl
  case stop =>
    have stopped := State.stopChannel_empty empty .stop 1 0
    have stopping : entState ((s.stopChannel ch .stop 1 0).entry ch) = 2 := by
      rw [stopped, State.entry_setDyn', State.entry_setEntry, entState_setEntState _ (by decide)]
    have acts : (s.stopChannel ch .stop 1 0).chan.acts = [] := by
      rw [stopped]
      exact idle
    refine ⟨(s.stopChannel ch .stop 1 0).chanPends n (s.actPart (.host n)) (.chanStop ch), ?_, ?_, State.chanPends_busy .., ?_⟩
    · change Host.Outcome.next (s.take true 3 (.host n) (none, none)) = _
      rw [State.take, State.act_channel_waits up serves free idle selected (State.chanChecked_stop mine active), State.chanPends_waits stopping]
      rfl
    · rw [State.entry_chanPends, stopping]
    · rw [State.chanPends_chan, acts]
  case start =>
    have tenure := (s.started ch).watchDoor_tenure ch
    obtain ⟨producer, assigned⟩ := (s.started ch).watchDoor_dyn ch
    obtain ⟨busy, result⟩ := State.chanOut_port ((s.started ch).watchDoor ch) n 4 ch.val 0
    have entry : ((s.started ch).watchDoor ch).entry ch = setEntState (setEntCause (s.entry ch) 0) 1 := by
      rw [State.entry_of_tenure tenure, State.started, State.entry_setDyn', State.entry_setEntry]
    refine ⟨_, ends rfl rfl (State.chanChecked_start mine settled accepted) ((State.acts_of_tenure tenure).trans idle), ?_, ?_, ?_, busy, result⟩
    · rw [State.entry_chanOut, entry]
    · rw [State.dyn_chanOut, State.entry_chanOut, producer, entry, State.started, State.dyn_setDyn, State.entry_setEntry]
    · rw [State.dyn_chanOut, assigned, State.started, State.dyn_setDyn]
  case disable =>
    obtain ⟨busy, result⟩ := State.chanOut_port (s.setEntry ch (setEntState (s.entry ch) 0)) n 5 ch.val 0
    refine ⟨_, ends rfl rfl (State.chanChecked_disable mine stopped) idle, ?_, busy, result⟩
    rw [State.entry_chanOut, State.entry_setEntry]

end Sys2Proof.Machine
end

section
/-! SUPPORT. Doorbells and nudges (09 R248-R252): what a read of a doorbell comes to, and which channel a nudge wakes; with these the statement
about doorbells. -/

namespace Sys2Proof.Machine

/-! ### Reads of the front end (R248) -/

@[simp] theorem State.frontRead_tenure (s : State) (ch : Fin 3072) (host : Bool) (a n : Nat) (h : HostRead) : (s.frontRead ch host a n h).2.tenure = s.tenure := by
  unfold State.frontRead
  dsimp only
  split
  · rfl
  · have read := s.vaRead_tenure (s.chanCtx ch) [] 0 a n (fun i => s.atlasBytes.getD i 0) .array
    generalize s.vaRead (s.chanCtx ch) [] 0 a n (fun i => s.atlasBytes.getD i 0) = got at read
    obtain ⟨g, u⟩ := got
    cases g <;> exact read

/-! ### A doorbell value arrives (R248, R250, R252) -/

/-- A value not more than the ring's slots ahead of CONSUMED becomes PRODUCER. -/
theorem State.takeDoorbell_near {s : State} {ch : Fin 3072} {v : BitVec 32} (near : (v - entConsumed (s.entry ch)).toNat ≤ 2 ^ blk (s.entry ch) 24 0 8) :
    ((s.takeDoorbell ch v).dyn ch).producer = v ∧ (s.takeDoorbell ch v).entry ch = s.entry ch := by
  unfold State.takeDoorbell
  dsimp only
  rw [if_neg (Nat.not_lt.mpr near), State.dyn_setDyn]
  exact ⟨rfl, rfl⟩

/-- One further ahead is an error of the channel. -/
theorem State.takeDoorbell_far {s : State} {ch : Fin 3072} {v : BitVec 32} (far : 2 ^ blk (s.entry ch) 24 0 8 < (v - entConsumed (s.entry ch)).toNat) :
    s.takeDoorbell ch v = s.chanError ch 1 := if_pos far

section
variable {s : State} {ch : Fin 3072} (up : s.up = true) (active : entState (s.entry ch) = 1)
include up active

theorem exec_doorbellPoll_host {i : Nat} (there : s.frontHost ch (entHost (s.entry ch) 1) (blk (s.entry ch) 8 0 64) = some i) :
    exec (.doorbellPoll ch) s = .next (if s.hostOk (s.chanCtx ch) i then s.hostAsk (s.chanCtx ch) i 8 else s.chanError ch 2) := by
  change execDoorbellPoll ch s = _
  unfold execDoorbellPoll
  dsimp only
  rw [if_neg (by simp [up, active]), there]
  dsimp only
  split
  · next ok => rw [State.frontAsk, if_pos ok]
  · rfl

theorem exec_doorbellPoll_device (device : s.frontHost ch (entHost (s.entry ch) 1) (blk (s.entry ch) 8 0 64) = none) :
    exec (.doorbellPoll ch) s = .next (s.doorbell ch (.data [])) := by
  change execDoorbellPoll ch s = _
  unfold execDoorbellPoll
  dsimp only
  rw [if_neg (by simp [up, active]), device]

section
variable {h : HostRead} {u : State} (quiet : s.frontBusy ch (entHost (s.entry ch) 1) (blk (s.entry ch) 8 0 64) 8 = false)
include quiet

theorem State.doorbell_reads {b : List Byte} (read : s.frontRead ch (entHost (s.entry ch) 1) (blk (s.entry ch) 8 0 64) 8 h = (.ok b, u)) :
    s.doorbell ch h = u.takeDoorbell ch (BitVec.ofNat 32 (leNat (b.take 4))) := by
  unfold State.doorbell
  dsimp only
  rw [if_neg (by simp [up, active, quiet]), read]

theorem State.doorbell_fails (read : s.frontRead ch (entHost (s.entry ch) 1) (blk (s.entry ch) 8 0 64) 8 h = (.failed, u)) : s.doorbell ch h = u.chanError ch 2 := by
  unfold State.doorbell
  dsimp only
  rw [if_neg (by simp [up, active, quiet]), read]

end

end

/-! ### Nudges (R251) -/

theorem exec_chanNudge {s : State} {port : Fin 2} {ch : Fin 3072} (serves : s.barServes port 0 = true) (active : entState (s.entry ch) = 1)
    (own : fnOf (entFn (s.entry ch)) = (port, 0)) : exec (.chanNudge port ch) s = .next (s.wakeChan ch) :=
  congrArg Host.Outcome.next (if_neg (by simp [serves, active, own]))

/-- The channel of a virtual function that a nudge slot names (R251). -/
def State.slotNames (s : State) (port : Fin 2) (fn : Fin 128) (slot : Fin 512) (ch : Fin 3072) : Bool :=
  (s.dyn ch).assigned && decide (entState (s.entry ch) = 1) && decide (fnOf (entFn (s.entry ch)) = (port, fn)) && decide (blk (s.entry ch) 36 0 16 = slot.val)

/-- A search that one element alone satisfies finds it. -/
theorem find?_finRange_of_unique {n : Nat} {p : Fin n → Bool} {a : Fin n} (holds : p a = true) (unique : ∀ b, p b = true → b = a) : (List.finRange n).find? p = some a := by
  obtain ⟨b, found⟩ := Option.isSome_iff_exists.mp (List.find?_isSome.mpr ⟨a, List.mem_finRange a, holds⟩)
  rw [found, unique b (List.find?_some found)]

theorem exec_vfNudge {s : State} {port : Fin 2} {fn : Fin 128} {slot : Fin 512} {ch : Fin 3072} (virtual : fn ≠ 0) (serves : s.barServes port fn = true)
    (named : s.slotNames port fn slot ch = true) (alone : ∀ d, s.slotNames port fn slot d = true → d = ch) : exec (.vfNudge port fn slot) s = .next (s.wakeChan ch) := by
  have found : (List.finRange 3072).find? (fun d => s.slotNames port fn slot d) = some ch := find?_finRange_of_unique named alone
  have woken : s.vfNudge port fn slot = s.wakeChan ch := by
    unfold State.slotNames at found
    unfold State.vfNudge
    rw [if_neg (by simp [serves, virtual]), found]
  exact congrArg Host.Outcome.next woken

/-- Settles O18: a poll asks host memory or reads the doorbell, a value that is read becomes PRODUCER or is error 1, and a nudge wakes the channel that its slot names. -/
theorem doorbellsReachTheChannel : Obligations.DoorbellsReachTheChannel := by
  unfold Obligations.DoorbellsReachTheChannel
  intro s ch up active
  refine ⟨fun i there => ?poll, fun h r u quiet read c taken => ?value, fun port serves own => exec_chanNudge serves active own,
    fun port fn slot virtual serves assigned own index alone => ?nudge⟩
  case poll =>
    rw [exec_doorbellPoll_host up active there]
    exact ⟨fun ok => ⟨s.hostAsk (s.chanCtx ch) i 8, by rw [if_pos ok], rfl, rfl, rfl⟩, fun barred => by rw [if_neg (by simp [barred])]⟩
  case value =>
    have run : exec c s = .next (s.doorbell ch h) := by
      obtain rfl | ⟨rfl, device, rfl⟩ := taken
      · rfl
      · exact exec_doorbellPoll_device up active device
    have same : u.entry ch = s.entry ch := State.entry_of_tenure (by simpa [read] using s.frontRead_tenure ch (entHost (s.entry ch) 1) (blk (s.entry ch) 8 0 64) 8 h) ch
    rw [run, ← same]
    refine ⟨?_, ?_⟩
    · rintro b rfl
      rw [State.doorbell_reads up active quiet read]
      refine ⟨fun near => ?_, fun far => congrArg Host.Outcome.next (State.takeDoorbell_far far)⟩
      obtain ⟨producer, entry⟩ := State.takeDoorbell_near near
      exact ⟨_, rfl, producer, entry⟩
    · rintro rfl
      rw [State.doorbell_fails up active quiet read]
  case nudge =>
    refine exec_vfNudge virtual serves (by simp [State.slotNames, assigned, active, own, index]) (fun d named => ?_)
    obtain ⟨⟨⟨assigned, active⟩, own⟩, index⟩ : (((s.dyn d).assigned = true ∧ entState (s.entry d) = 1) ∧ fnOf (entFn (s.entry d)) = (port, fn)) ∧ blk (s.entry d) 36 0 16 = slot.val := by
      simpa [State.slotNames] using named
    exact alone d assigned active own index

end Sys2Proof.Machine
end

section
/-! SUPPORT. The fetch of a descriptor (09 R247, R248, R252, R255): what each outcome of its reads leads to, and the command that joins its
channel; with these the statement about fetching. -/

namespace Sys2Proof.Machine

/-! ### A descriptor is taken (R248, R255) -/

/-- CONSUMED passes the slots of a descriptor that is taken. -/
theorem State.takeCmd_consumed (s : State) (c : Cmd) (n : Nat) : entConsumed ((s.takeCmd c n).entry c.ch) = c.idx + BitVec.ofNat 32 n := by
  have entry : (s.takeCmd c n).entry c.ch = putField ((s.charge c.part (some c.ref) .front n).entry c.ch) 384 32 (c.idx.toNat + n) := State.entry_setEntry ..
  rw [entry]
  exact (bits_putField_same _ (by decide) _).trans (by rw [BitVec.ofNat_add, BitVec.ofNat_toNat, BitVec.setWidth_eq])

/-- Its command joins the end of the commands. -/
theorem State.takeCmd_cmds (s : State) (c : Cmd) (n : Nat) : (s.takeCmd c n).chan.cmds = s.chan.cmds ++ [c] := rfl

/-! ### DESCRIPTOR_FETCH (R248, R252, R400) -/

/-- What a descriptor comes to when its extension slots are read as given, its first slot d having been read in s (R252, R255, R400, R401). -/
def State.fetchRest (s : State) (ch : Fin 3072) (d : BitVec 512) : Slots × State → Host.Outcome State Fault Refusal
  | (.short, _) => .next s
  | (.failed, v) => .next (v.chanError ch 3)
  | (.poison g, v) =>
    let c := Cmd.fresh (s.entry ch) ch (entConsumed (s.entry ch)) [d]
    .next (((v.poisonRead (entPart (s.entry ch)) g frontUnit).takeCmd c (1 + blk d 2 0 3)).finishCmd c 0x50 0)
  | (.ok l, v) =>
    let c := Cmd.fresh (s.entry ch) ch (entConsumed (s.entry ch)) (d :: l)
    .next (((v.takeCmd c (1 + blk d 2 0 3)).checkCmd c).schedule c.part)

section
variable {s u : State} {ch : Fin 3072} {h : HostRead} {d : BitVec 512} (up : s.up = true) (active : entState (s.entry ch) = 1) (room : s.heldSlots ch < 8)
  (quiet : s.slotsBusy ch = false) (some' : 0 < ((s.dyn ch).producer - entConsumed (s.entry ch)).toNat)
include up active room quiet some'

/-- Nothing holds the fetch back. -/
theorem State.fetch_goes : ¬ ((!s.up) = true ∨ entState (s.entry ch) ≠ 1 ∨ ((s.dyn ch).producer - entConsumed (s.entry ch)).toNat = 0 ∨ 8 ≤ s.heldSlots ch ∨ s.slotsBusy ch = true) := by
  simp only [up, active, quiet, Bool.not_true, ne_eq, not_true_eq_false, Bool.false_eq_true, false_or, or_false]
  omega

/-- A first slot that cannot be read is an error of the channel. -/
theorem exec_descriptorFetch_fails (read : s.slotsRead ch h 0 1 = (.failed, u)) : exec (.descriptorFetch ch h) s = .next (u.chanError ch 3) := by
  change execDescriptorFetch ch h s = _
  unfold execDescriptorFetch
  dsimp only
  rw [if_neg (State.fetch_goes up active room quiet some'), read]

/-- A first slot that is read, of a descriptor that the ring holds whole: the reads of the extension slots decide. -/
theorem exec_descriptorFetch_first (first : s.slotsRead ch h 0 1 = (.ok [d], u)) (whole : 1 + blk d 2 0 3 ≤ ((s.dyn ch).producer - entConsumed (s.entry ch)).toNat) :
    exec (.descriptorFetch ch h) s = s.fetchRest ch d (u.slotsRead ch h 1 (blk d 2 0 3)) := by
  change execDescriptorFetch ch h s = _
  unfold execDescriptorFetch
  dsimp only
  rw [if_neg (State.fetch_goes up active room quiet some'), first]
  refine (if_neg (Nat.not_lt.mpr whole)).trans ?_
  simp only [List.headD_cons, Nat.add_sub_cancel_left]
  obtain ⟨got, v⟩ := u.slotsRead ch h 1 (blk d 2 0 3)
  cases got <;> rfl

end

/-- Settles O19: the outcome of the reads of the slots decides; a descriptor that is read whole is taken, which advances CONSUMED. -/
theorem descriptorFetchTakesTheCommand : Obligations.DescriptorFetchTakesTheCommand := by
  unfold Obligations.DescriptorFetchTakesTheCommand
  intro s u v ch h d l up active room quiet some'
  refine ⟨fun read => exec_descriptorFetch_fails up active room quiet some' read, fun first whole => ?_⟩
  rw [exec_descriptorFetch_first up active room quiet some' first whole]
  refine ⟨fun read => ?failed, fun g read => ?poison, fun read => ?taken⟩ <;> rw [read]
  case failed => rfl
  case poison => rfl
  case taken => exact ⟨_, _, rfl, rfl, rfl, rfl, rfl, State.takeCmd_cmds v _ _, State.takeCmd_consumed v _ _⟩

end Sys2Proof.Machine
end

section
/-! SUPPORT. Commands that run on an engine (09 R258, R260, R261, R269; 12 R359; 14 R413): how an engine takes its command and finishes it, and
the steps of COPY, FILL, TABLE_INVALIDATE, REMOTE_COPY and CHECKPOINT; with these the statement about engine commands. -/

namespace Sys2Proof.Machine

/-! ### An engine takes its command, and finishes it (R269) -/

/-- An engine's command is listed as the engine took it; memory, links and host memory are as they were. -/
theorem State.begin_takes {s u : State} {ref : CmdRef} {kind : Nat} {c : Cmd} (takes : s.begin ref kind = (some c, u)) :
    u.cmd ref = some c ∧ u.mem = s.mem ∧ u.link = s.link ∧ u.host = s.host := by
  unfold State.begin at takes
  split at takes
  · cases takes
  · next x there =>
    split at takes
    · cases takes
    · split at takes
      · cases takes
        exact ⟨there, rfl, rfl, rfl⟩
      · split at takes
        · have name := State.cmd_name there
          cases takes
          exact ⟨State.cmd_setCmd_same there name, rfl, rfl, rfl⟩
        · cases takes

@[simp] theorem State.onCmd_mem (s : State) (ref : CmdRef) (f : Cmd → Cmd) : (s.onCmd ref f).mem = s.mem := by unfold State.onCmd; split <;> rfl
@[simp] theorem State.onCmd_link (s : State) (ref : CmdRef) (f : Cmd → Cmd) : (s.onCmd ref f).link = s.link := by unfold State.onCmd; split <;> rfl
@[simp] theorem State.onCmd_host (s : State) (ref : CmdRef) (f : Cmd → Cmd) : (s.onCmd ref f).host = s.host := by unfold State.onCmd; split <;> rfl
@[simp] theorem State.onCmd_out (s : State) (ref : CmdRef) (f : Cmd → Cmd) : (s.onCmd ref f).out = s.out := by unfold State.onCmd; split <;> rfl

theorem State.onCmd_there {s : State} {ref : CmdRef} {c : Cmd} (there : s.cmd ref = some c) (f : Cmd → Cmd) : s.onCmd ref f = s.setCmd (f c) := by
  rw [State.onCmd, there]

theorem State.onCmd_cmd {s : State} {ref : CmdRef} {c : Cmd} (there : s.cmd ref = some c) (f : Cmd → Cmd) (keeps : (f c).ref = c.ref) :
    (s.onCmd ref f).cmd ref = some (f c) := by
  rw [State.onCmd_there there]
  exact State.cmd_setCmd_same there (keeps.trans (State.cmd_name there))

/-- The last engine of a command that is listed finishes it. -/
theorem State.engDone_finishes {s : State} {ref : CmdRef} {c : Cmd} (there : s.cmd ref = some c) :
    ∃ d, (s.engDone ref).cmd ref = some d ∧ d.stage = .finished ∧ d.counts = c.counts :=
  ⟨_, State.onCmd_cmd there _ rfl, rfl, rfl⟩

/-! ### COPY (R258) -/

/-- The rows of a COPY's result, from the byte strings that it read: its scale bytes, its rows, and the bytes that it shares. -/
def Cmd.copyOuts (c : Cmd) (l : List (List Byte)) : List CopyOut :=
  let x := copyShape c.slots
  let k := (scaleReads c.slots).length
  c.copyHow.rows x.elements ((l.drop k).take x.reads.length) (l.take k).flatten (genSeed (bits c.head 384 64) 0x3FF 0)

/-- The writes of a COPY, or its reductions: whether all were made. -/
def State.copyOutput (v : State) (c : Cmd) (l : List (List Byte)) : Bool × State :=
  let x := copyShape c.slots
  let op := blk c.head 47 0 3
  if op = 0 then v.engPuts c (blk c.head 46 3 2) (copyWrites x x.elements (c.copyOuts l) (l.drop ((scaleReads c.slots).length + x.reads.length)).flatten (blk c.head 56 0 64))
  else v.copyReduces c x.dstFmt op (blk c.head 46 3 2) (copyElems x (c.copyOuts l))

/-- The ranges that a COPY reads. -/
def Cmd.copyGets (c : Cmd) : List (Nat × Nat) :=
  scaleReads c.slots ++ (copyShape c.slots).reads
    ++ if blk c.head 47 0 3 = 0 then ((copyShape c.slots).writes.map (fun r => lastByte (copyShape c.slots).dstFmt (copyShape c.slots).elements r.1)).flatten else []

section
variable {s u v : State} {ref : CmdRef} {c : Cmd}

/-- A COPY that reads its source and writes its destination finishes, with the counts of its conversions. -/
theorem exec_copy_finishes (takes : s.begin ref 3 = (some c, u))
    (quiet : ((copyShape c.slots).writes ++ scaleRange c.slots).any (fun r => u.rangeBusy c.part r.1 r.2) = false) {l : List (List Byte)}
    (read : u.engGets c 0 c.copyGets = (some l, v)) (written : (v.copyOutput c l).1 = true) :
    exec (.copy ref) s = .next (((v.copyOutput c l).2.onCmd ref (fun y => { y with counts := (c.copyOuts l).foldl (fun n o => n.plus o.counts) .zero })).engDone ref) := by
  change execCopy ref s = _
  unfold execCopy
  rw [takes]
  refine (if_neg (by rw [quiet]; decide)).trans ?_
  unfold Cmd.copyGets at read
  dsimp only
  rw [read]
  exact if_pos written

/-! ### FILL (R261) -/

theorem exec_fill_finishes (takes : s.begin ref 4 = (some c, u)) (quiet : u.rangeBusy c.part (blk c.head 16 0 64) (blk c.head 24 0 64) = false)
    (written : u.engPuts c (blk c.head 40 0 2) [(blk c.head 16 0 64, fillBytes (bits c.head 256 64) (blk c.head 24 0 64))] = (true, v)) :
    exec (.fill ref) s = .next (v.engDone ref) := by
  change execFill ref s = _
  unfold execFill
  rw [takes]
  dsimp only
  rw [quiet, written]
  rfl

/-! ### REMOTE_COPY and CHECKPOINT (R359, R413) -/

theorem exec_remoteCopy_empty (takes : s.begin ref 8 = (some c, u)) (empty : blk c.head 32 0 64 = 0) : exec (.remoteCopy ref) s = .next (u.engDone ref) := by
  change execRemoteCopy ref s = _
  unfold execRemoteCopy
  rw [takes]
  exact if_pos empty

theorem exec_remoteCopy_moves (takes : s.begin ref 8 = (some c, u)) (bytes : blk c.head 32 0 64 ≠ 0)
    (oneEnd : (u.remoteAt c.part (blk c.head 16 0 64) false).isSome ≠ (u.remoteAt c.part (blk c.head 24 0 64) true).isSome) :
    exec (.remoteCopy ref) s = .next (u.moveFrames ref (u.remoteAt c.part (blk c.head 24 0 64) true).isSome 1026) := by
  change execRemoteCopy ref s = _
  unfold execRemoteCopy
  rw [takes]
  exact (if_neg bytes).trans (if_neg oneEnd)

theorem exec_checkpoint_writes (takes : s.begin ref 7 = (some c, u)) (first : c.sent = 0) {d : Cmd} (built : u.ckBuild c = (some d, v)) :
    exec (.checkpoint ref) s = .next (v.ckWrite ref (d.buf.length + 2)) := by
  change execCheckpoint ref s = _
  unfold execCheckpoint
  rw [takes]
  dsimp only
  rw [if_neg (by omega), built]

/-! ### TABLE_INVALIDATE (R260) -/

/-- With no request outstanding no access rests on a translation that was dropped. -/
theorem State.settledFor_of_idle {t : State} (homes : t.mem.homeReqs = []) (links : t.link.reqs = []) (host : t.host.reads = []) (x : Cmd) : t.settledFor x = true := by
  simp [State.settledFor, homes, links, host]

theorem State.rewatch_roster (t : State) (p : Fin 16) (r : Nat × Nat) : (t.rewatch p r).roster = t.roster := by
  unfold State.rewatch
  refine foldl_roster _ (fun t ch => ?_) _ t
  dsimp only
  split
  · exact t.watchDoor_roster ch
  · rfl

/-- The range of a TABLE_INVALIDATE. -/
def Cmd.tableRange (c : Cmd) : Nat × Nat := (blk c.head 24 0 64, blk c.head 32 0 64)

/-- The translations of a TABLE_INVALIDATE's range are dropped; the next request takes a later number. -/
def State.dropsTlb (u : State) (c : Cmd) : State :=
  { u with mem := { u.mem with
    tlb := u.mem.tlb.filter (fun t => !(decide (t.part = c.part) && meet (4096 * t.vpage, 4096) c.tableRange)), nextReq := u.mem.nextReq + 1 } }

/-- The state in which a TABLE_INVALIDATE of SPACE 1 waits: its first step drops the translations, and notes what is outstanding. -/
def State.dropsPages (u : State) (ref : CmdRef) (c : Cmd) (fresh : Bool) : State :=
  if !fresh then u else (u.dropsTlb c).onCmd ref (fun x => { x with sent := u.mem.nextReq + 1, left := u.host.nextTag })

theorem State.dropsPages_keeps (there : u.cmd ref = some c) (fresh : Bool) : ∃ x, (u.dropsPages ref c fresh).cmd ref = some x
    ∧ (u.dropsPages ref c fresh).mem.homeReqs = u.mem.homeReqs ∧ (u.dropsPages ref c fresh).link = u.link ∧ (u.dropsPages ref c fresh).host = u.host := by
  cases fresh with
  | false => exact ⟨c, there, rfl, rfl, rfl⟩
  | true =>
    have listed : (u.dropsTlb c).cmd ref = some c := there
    have mem : (u.dropsPages ref c true).mem = (u.dropsTlb c).mem := State.onCmd_mem ..
    exact ⟨_, State.onCmd_cmd listed _ rfl, by rw [mem]; rfl, State.onCmd_link .., State.onCmd_host ..⟩

/-- What a TABLE_INVALIDATE of SPACE 3 leaves of a command: one that waits with a placement table in the range loses it (R260, R290). -/
def Cmd.forgets (c x : Cmd) : Cmd :=
  if x.part = c.part ∧ x.stage = CmdStage.fetched ∧ x.tableMeets c.tableRange then { x with placement := none, buf := [] } else x

theorem Cmd.forgets_name (c x : Cmd) : (c.forgets x).ch = x.ch ∧ (c.forgets x).idx = x.idx := by
  unfold Cmd.forgets
  split <;> exact ⟨rfl, rfl⟩

theorem Cmd.forgets_meets (c x : Cmd) (part : (c.forgets x).part = c.part) (waits : (c.forgets x).stage = .fetched) : (c.forgets x).tableMeets c.tableRange = false := by
  unfold Cmd.forgets at *
  split
  · rfl
  · next keeps =>
    rw [if_neg keeps] at part waits
    exact eq_false_of_ne_true fun met => keeps ⟨part, waits, met⟩

/-- The placement tables in the range of a TABLE_INVALIDATE are dropped. -/
def State.dropsTables (u : State) (c : Cmd) : State := { u with chan := { u.chan with cmds := u.chan.cmds.map c.forgets } }

theorem State.dropsTables_cmd (there : u.cmd ref = some c) (x : Cmd) : (u.dropsTables x).cmd ref = some (x.forgets c) := by
  have same : (fun y : Cmd => decide (y.ch = ref.ch ∧ y.idx = ref.idx)) ∘ x.forgets = fun y => decide (y.ch = ref.ch ∧ y.idx = ref.idx) := by
    funext y
    obtain ⟨ch, idx⟩ := x.forgets_name y
    simp only [Function.comp_apply, ch, idx]
  unfold State.cmd at *
  change (u.chan.cmds.map x.forgets).find? _ = _
  rw [List.find?_map, same, there]
  rfl

/-- What a TABLE_INVALIDATE that its engine has taken comes to, by SPACE. -/
def State.invalidates (u : State) (ref : CmdRef) (c : Cmd) (fresh : Bool) : Nat → State
  | 1 =>
    let t := u.dropsPages ref c fresh
    if (t.cmd ref).any (fun x => t.settledFor x) then (t.rewatch c.part c.tableRange).engDone ref else t
  | 2 => u.engDone ref
  | _ => (u.dropsTables c).engDone ref

theorem exec_tableInvalidate (takes : s.begin ref 9 = (some c, u)) :
    exec (.tableInvalidate ref) s = .next (u.invalidates ref c ((s.cmd ref).any (fun x => decide (x.stage = .fetched))) (blk c.head 16 0 8)) := by
  change execTableInvalidate ref s = _
  unfold execTableInvalidate
  dsimp only
  rw [takes]
  dsimp only
  generalize blk c.head 16 0 8 = space
  obtain _ | _ | _ | space := space <;> rfl

/-- With nothing outstanding the doorbells in the range are found again, and the command finishes (R251, R260). -/
theorem State.invalidates_pages (there : u.cmd ref = some c) (homes : u.mem.homeReqs = []) (links : u.link.reqs = []) (reads : u.host.reads = []) (fresh : Bool) :
    u.invalidates ref c fresh 1 = ((u.dropsPages ref c fresh).rewatch c.part c.tableRange).engDone ref := by
  obtain ⟨x, listed, homes', link', host'⟩ := State.dropsPages_keeps there fresh
  have settled := State.settledFor_of_idle (homes'.trans homes) (by rw [link', links]) (by rw [host', reads]) x
  exact if_pos (by rw [listed]; exact settled)

end

/-- After a TABLE_INVALIDATE of SPACE 3 no waiting command of the partition has a table in the range. -/
theorem State.dropsTables_clear {u : State} {ref : CmdRef} {c : Cmd} (there : u.cmd ref = some c) :
    ∀ y ∈ ((u.dropsTables c).engDone ref).chan.cmds, y.part = c.part → y.stage = .fetched → y.tableMeets c.tableRange = false := by
  rw [State.engDone, State.onCmd_there (State.dropsTables_cmd there c)]
  intro y listed part waits
  obtain ⟨x, mem, rfl⟩ := List.mem_map.mp listed
  obtain ⟨z, -, rfl⟩ := List.mem_map.mp mem
  split at waits
  · cases waits
  · next other =>
    rw [if_neg other] at part ⊢
    exact c.forgets_meets z part waits

/-- Settles O21: each engine takes its command, makes its reads and writes, and leaves the command finished. -/
theorem engineCommandsFinish : Obligations.EngineCommandsFinish := by
  unfold Obligations.EngineCommandsFinish
  intro s u ref c
  refine ⟨fun takes quiet l v read written kept => ?copy, fun v takes quiet written kept => ?fill, fun takes low high idle => ?invalidate,
    fun takes => ⟨fun empty => ?empty, fun bytes oneEnd => exec_remoteCopy_moves takes bytes oneEnd⟩, fun d v takes first built => exec_checkpoint_writes takes first built⟩
  case copy =>
    obtain ⟨x, there⟩ := Option.isSome_iff_exists.mp kept
    have run := exec_copy_finishes takes quiet read written
    obtain ⟨d, done, finished, counts⟩ := State.engDone_finishes
      (State.onCmd_cmd (s := (v.copyOutput c l).2) there (fun y => { y with counts := (c.copyOuts l).foldl (fun n o => n.plus o.counts) .zero }) rfl)
    exact ⟨_, d, run, done, finished, (State.onCmd_mem ..).trans (State.onCmd_mem ..), (State.onCmd_out ..).trans (State.onCmd_out ..), counts⟩
  case fill =>
    obtain ⟨x, there⟩ := Option.isSome_iff_exists.mp kept
    obtain ⟨d, done, finished, -⟩ := State.engDone_finishes there
    exact ⟨_, d, exec_fill_finishes takes quiet written, done, finished, State.onCmd_mem .., State.onCmd_out ..⟩
  case invalidate =>
    obtain ⟨there, mem, link, host⟩ := State.begin_takes takes
    rw [exec_tableInvalidate takes]
    generalize (s.cmd ref).any (fun x => decide (x.stage = .fetched)) = fresh
    obtain one | two | three : blk c.head 16 0 8 = 1 ∨ blk c.head 16 0 8 = 2 ∨ blk c.head 16 0 8 = 3 := by omega
    · obtain ⟨homes, links, reads⟩ := idle one
      obtain ⟨x, listed, -⟩ := State.dropsPages_keeps there fresh
      obtain ⟨d, done, finished, -⟩ := State.engDone_finishes ((State.cmd_of_roster (State.rewatch_roster _ c.part c.tableRange) ref).trans listed)
      rw [one, State.invalidates_pages there (by rw [mem, homes]) (by rw [link, links]) (by rw [host, reads])]
      exact ⟨_, d, rfl, done, finished, fun other => absurd other (by decide)⟩
    · obtain ⟨d, done, finished, -⟩ := State.engDone_finishes there
      rw [two]
      exact ⟨_, d, rfl, done, finished, fun other => absurd other (by decide)⟩
    · obtain ⟨d, done, finished, -⟩ := State.engDone_finishes (State.dropsTables_cmd there c)
      rw [three]
      exact ⟨_, d, rfl, done, finished, fun _ => State.dropsTables_clear there⟩
  case empty =>
    obtain ⟨there, -⟩ := State.begin_takes takes
    obtain ⟨d, done, finished, -⟩ := State.engDone_finishes there
    exact ⟨_, d, exec_remoteCopy_empty takes empty, done, finished⟩

end Sys2Proof.Machine
end

section
/-! SUPPORT. The checks before a partition action (10 R281, R282, R296): what an action that is refused leaves, whoever asks for it; with these the
statement about the checks. -/

namespace Sys2Proof.Machine

/-! ### The checks (R281, R282) -/

section
variable {s : State} {host : Bool} {code : Nat} {p : Fin 16} {a : List Word} {b : Option RingBlock × Option RingBlock}

theorem State.partChecked_forbidden (forbidden : partAllowed host code p = false) : s.partChecked host code p a b = (.done 6, s) :=
  if_pos (by simp [forbidden])

theorem State.partChecked_unready (allowed : partAllowed host code p = true) (noRead : code ≠ 16) (unready : (s.partition p).mode ≠ stateFor code) :
    s.partChecked host code p a b = (.done 1, s) := by
  have wrong : code = 1 ∧ (s.partition p).mode ≠ .absent ∨ code ≠ 1 ∧ code ≠ 16 ∧ (s.partition p).mode ≠ .live := by
    unfold stateFor at unready
    split at unready
    · next create => exact .inl ⟨create, unready⟩
    · next other => exact .inr ⟨other, noRead, unready⟩
  rw [State.partChecked, if_neg (by simp [allowed]), if_pos wrong]

theorem State.partChecked_reserved (allowed : partAllowed host code p = true) (ready : (s.partition p).mode = stateFor code) (reserved : argsOk code a = false) :
    s.partChecked host code p a b = (.done 2, s) := by
  have right : ¬ (code = 1 ∧ (s.partition p).mode ≠ .absent ∨ code ≠ 1 ∧ code ≠ 16 ∧ (s.partition p).mode ≠ .live) := by
    rw [ready, stateFor]
    split <;> simp [*]
  rw [State.partChecked, if_neg (by simp [allowed]), if_neg right, if_pos (by simp [reserved])]

end

/-! ### What is left of an action that is refused (R282) -/

section
variable {s : State} {code : Nat} {b : Option RingBlock × Option RingBlock} (up : s.up = true)
include up

/-- An action written while BUSY is 1 is discarded. -/
theorem State.act_busy {n : Fin 2} (serves : s.barServes n 0 = true) (busy : (s.port n).regs.partBusy = true) :
    s.act false code (.host n) b = s.setRegs n { (s.port n).regs with partResult := 5 } := by
  unfold State.act
  dsimp only
  rw [if_neg (by simp [up, serves]), if_pos (by simp [State.isBusy, busy])]
  rfl

/-- An action that the checks refuse answers the check's result, and nothing else changes. -/
theorem State.act_refused {n : Fin 2} {r : Nat} (serves : s.barServes n 0 = true) (free : (s.port n).regs.partBusy = false) (idle : s.chan.acts = []) (noRead : code ≠ 16)
    (refused : s.partChecked true code (s.actPart (.host n)) (s.port n).regs.partArg b = (.done r, s)) :
    s.act false code (.host n) b = s.setRegs n { (s.port n).regs with partBusy := false, partResult := r } := by
  have performed : s.performOn false code (.host n) b 0 (s.port n).regs.partArg (s.actPart (.host n)) false
      = s.setRegs n { (s.port n).regs with partBusy := false, partResult := r } := by
    rw [State.performOn]
    simp only [Bool.false_eq_true, if_false, callerIsHost, refused, State.partOut, noRead, false_and]
  rw [State.act_host up serves free idle rfl, performed, State.finishActions_idle (by rw [State.setRegs_chan, idle])]

/-- A call of partition services for an action that is not open to them reads no block (R282). -/
theorem State.act_closed {p : Fin 16} {va : Word} {h : HostRead} (mode : (s.partition p).mode ≠ .absent) (idle : s.chan.acts = []) (noRead : code ≠ 16)
    (closed : partAllowed false code p = false) : s.act false code (.services p va h) b = s.callReturn 6 := by
  have performed (x : Nat × List Word) (q : Fin 16) : s.perform false code (.services p va h) b x q false = s.callReturn 6 := by
    simp only [State.perform, closed, Bool.false_eq_true, Bool.not_false, and_self, if_true, State.partOut, noRead, false_and, if_false]
  unfold State.act
  dsimp only
  rw [if_neg (by simp [up, mode]), if_neg (by simp [State.isBusy]), if_pos idle, performed]
  exact State.finishActions_idle idle

end

/-! ### The actions that only host software takes -/

/-- The partition actions of which host software alone may ask, with their codes (R281, R282). -/
def hostActions : List (Nat × (Caller → Instr)) :=
  [(1, .create), (2, .destroy), (3, .grantArrays), (4, .releaseArrays), (5, .grantPlots), (6, .releasePlots), (7, .grantCores), (8, .releaseCores),
    (9, .setBandwidth), (12, .setLoan), (13, .setCredits)]

theorem exec_hostAction : ∀ x ∈ hostActions, ∀ (who : Caller) (s : State), exec (x.2 who) s = .next (s.take false x.1 who (none, none)) := by
  simp only [hostActions, List.forall_mem_cons]
  refine ⟨?_, ?_, ?_, ?_, ?_, ?_, ?_, ?_, ?_, ?_, ?_, List.forall_mem_nil _⟩ <;> exact fun _ _ => rfl

theorem hostActions_closed : ∀ x ∈ hostActions, x.1 ≠ 16 ∧ ∀ p, partAllowed false x.1 p = false := by
  simp only [hostActions, List.forall_mem_cons]
  refine ⟨?_, ?_, ?_, ?_, ?_, ?_, ?_, ?_, ?_, ?_, ?_, List.forall_mem_nil _⟩ <;> exact ⟨by decide, fun _ => rfl⟩

/-- Host software may take any action but on PT0, where READ alone is allowed (R282). -/
theorem partAllowed_host {code : Nat} (noRead : code ≠ 16) (p : Fin 16) : partAllowed true code p = decide (p ≠ 0) := by
  simp [partAllowed, noRead]

/-- Settles O26: BUSY, the permission, the partition's state and the reserved bits, in the order of the checks. -/
theorem partitionActionsAreChecked : Obligations.PartitionActionsAreChecked := by
  unfold Obligations.PartitionActionsAreChecked
  intro s x listed up ends
  have row (who : Caller) {t : State} (act : s.act false x.1 who (none, none) = t) : exec (x.2 who) s = ends t := by
    rw [exec_hostAction x listed, State.take, act]
  obtain ⟨noRead, closed⟩ := hostActions_closed x listed
  refine ⟨fun n serves => ⟨fun busy => ?busy, fun free idle => ⟨fun own => ?own, fun other unready => ?unready, fun other ready reserved => ?reserved⟩⟩,
    fun p va h mode idle => ?services⟩
  case busy => exact row _ (State.act_busy up serves busy)
  case own => exact row _ (State.act_refused up serves free idle noRead (State.partChecked_forbidden (by simpa [partAllowed_host noRead] using own)))
  case unready => exact row _ (State.act_refused up serves free idle noRead (State.partChecked_unready (by simpa [partAllowed_host noRead] using other) noRead unready))
  case reserved => exact row _ (State.act_refused up serves free idle noRead (State.partChecked_reserved (by simpa [partAllowed_host noRead] using other) ready reserved))
  case services => exact row _ (State.act_closed up mode idle noRead (closed p))

end Sys2Proof.Machine
end

section
/-! SUPPORT. Limits of the scheduler (10 R291, R292, R295, R298, R301): what each event makes of the command, the queue or the array whose limit it is; with
these the statement about them. -/

namespace Sys2Proof.Machine

/-! ### Limits of a command (R291, R298, R301) -/

section
variable {s : State} {ref : CmdRef} {x : Cmd} (there : s.cmd ref = some x)
include there

theorem exec_donationLimitExpired {k : Nat} (donates : x.donating = some k) (waits : x.stage = .fetched) :
    exec (.donationLimitExpired ref) s = .next (((s.undonate x.part k 4).finishCmd x 0x22 0).schedule x.part) := by
  change execDonationLimitExpired ref s = _
  unfold execDonationLimitExpired
  rw [there]
  dsimp only
  rw [donates]
  exact if_neg (not_not_intro waits)

theorem exec_placementUnbound (up : s.up = true) (placed : x.usesArrays = true) (ready : s.ready x = true) (unbound : x.names.any (fun la => s.unbound la) = true) :
    exec (.placementUnbound ref) s = .next ((s.finishCmd x 0x21 0).schedule x.part) := by
  change execPlacementUnbound ref s = _
  unfold execPlacementUnbound
  rw [there]
  exact if_neg (by simp [up, placed, ready, unbound])

theorem exec_sealLimitExpired (runs : x.stage = .running) (sealed : x.isSealed = true) (overrun : x.sealOverrun = true) :
    exec (.sealLimitExpired ref) s = .next (s.endCmd x 0x23 0) := by
  change execSealLimitExpired ref s = _
  unfold execSealLimitExpired
  rw [there]
  exact if_neg (by simp [runs, sealed, overrun])

/-- A running command that is ended on its arrays leaves them first, and completes with the status given (R272). -/
theorem State.endCmd_drains (runs : x.stage = .running) (onArrays : x.arrays ≠ []) (status : Nat) (detail : BitVec 32) :
    ∃ d, (s.endCmd x status detail).cmd ref = some d ∧ d.stage = .draining (some (status, detail)) := by
  have killed : s.endCmd x status detail = s.killCmd x (some (status, detail)) := by
    rw [State.endCmd, runs]
    exact if_neg onArrays
  rw [killed]
  exact ⟨_, State.killCmd_cmd there (State.cmd_name there) _, rfl⟩

end

/-! ### Slices and loans (R292, R295) -/

theorem State.queue_setQueueState (s : State) (p : Fin 16) (q : Fin 64) (v : QueueState) : ((s.setQueueState p q v).partition p).queue q = v :=
  (congrArg (fun x : Partition => x.queue q) (State.partition_setPartition ..)).trans (Tbl.get_set_same ..)

theorem exec_sliceEnd {s : State} {p : Fin 16} {q : Fin 64} (up : s.up = true) (inSlice : ((s.partition p).queue q).inSlice = true) (contends : s.contender p q = true) :
    exec (.sliceEnd p q) s = .next ((s.setQueueState p q { (s.partition p).queue q with inSlice := false, ended := true }).schedule p) := by
  change execSliceEnd p q s = _
  unfold execSliceEnd
  dsimp only
  rw [if_neg (by simp [up, inSlice]), if_neg (by simp [contends])]

/-- An array passes from its lender to the borrower of the offer (R292). -/
def State.lend (s : State) (la : Nat) : State :=
  let t := s.setArray la (s.array la).pass
  { t with chan := { t.chan with lent := Tbl.set false t.chan.lent la true } }

theorem State.lend_lent (s : State) (la : Nat) : Tbl.get false (s.lend la).chan.lent la = true := Tbl.get_set_same false s.chan.lent la true
theorem State.lend_array (s : State) (la : Nat) : (s.lend la).array la = (s.array la).pass := State.array_setArray ..

theorem exec_loanIdleExpired {s : State} {la : Fin 384} {lender : Fin 16} {l : Loan} (up : s.up = true) (offered : s.offerOf la.val = some (lender, l))
    (kept : Tbl.get false s.chan.lent la.val = false) (free : (s.array la.val).occ = none)
    (idle : ∀ c ∈ s.chan.cmds, ¬ (c.part = lender ∧ s.runnable c = true ∧ la.val ∈ c.names)) :
    exec (.loanIdleExpired la) s = .next (((s.lend la.val).postLoan 0x0005 la.val lender l.borrower).schedule l.borrower) := by
  have unnamed : s.chan.cmds.any (fun c => decide (c.part = lender) && s.runnable c && c.names.contains la.val) = false := by
    simpa [and_assoc] using idle
  change execLoanIdleExpired la s = _
  unfold execLoanIdleExpired
  rw [offered]
  exact if_neg (by simp only [up, kept, free, unnamed]; decide)

/-- Settles O23: what each event makes of its command, queue or array. -/
theorem schedulerLimitsTakeEffect : Obligations.SchedulerLimitsTakeEffect := by
  unfold Obligations.SchedulerLimitsTakeEffect
  intro s up
  refine ⟨fun ref x there => ⟨fun k donates waits => ?donation, fun placed ready unbound => ?unbound, fun runs sealed overrun onArrays => ?overrun⟩,
    fun p q inSlice contends => ?slice, fun la lender l offered kept free idle => ?loan⟩
  case donation => exact exec_donationLimitExpired there donates waits
  case unbound => exact exec_placementUnbound there up placed ready unbound
  case overrun =>
    obtain ⟨d, listed, drains⟩ := State.endCmd_drains there runs onArrays 0x23 0
    exact ⟨_, d, exec_sealLimitExpired there runs sealed overrun, listed, drains⟩
  case slice => exact ⟨_, exec_sliceEnd up inSlice contends, by rw [State.queue_setQueueState], by rw [State.queue_setQueueState]⟩
  case loan => exact ⟨_, exec_loanIdleExpired up offered kept free idle, s.lend_lent la.val, s.lend_array la.val⟩

end Sys2Proof.Machine
end

section
/-! SUPPORT. Reports to partitions (10 R303-R305, 15 R433, R435): the energy account of a partition at its report, and what INTERVAL_REPORT and POWER_STATE post
and leave; with these the statement about reports. -/

namespace Sys2Proof.Machine

/-! ### The energy account at a report (R435) -/

section
variable {α : Type} [DecidableEq α] (l : List (α × Nat)) (k : α) (n : Nat)

theorem figure_replaced_same : figure (l.filter (fun y => decide (y.1 ≠ k)) ++ [(k, n)]) k = n := by
  have gone : (l.filter (fun y => decide (y.1 ≠ k))).find? (fun x => decide (x.1 = k)) = none := by simp
  rw [figure, List.find?_append, gone]
  simp

theorem figure_replaced_ne {j : α} (other : j ≠ k) : figure (l.filter (fun y => decide (y.1 ≠ k)) ++ [(k, n)]) j = figure l j := by
  have kept : (l.filter (fun y => decide (y.1 ≠ k))).find? (fun x => decide (x.1 = j)) = l.find? (fun x => decide (x.1 = j)) := by
    rw [List.find?_filter]
    congr 1
    funext y
    by_cases hit : y.1 = j <;> simp [hit, other]
  rw [figure, List.find?_append, kept, figure]
  simp [other.symm]

end

/-! ### INTERVAL_REPORT (R304, R305) -/

/-- The body of a partition's INTERVAL_REPORT (R304). -/
def State.intervalBody (s : State) (p : Fin 16) (m : StallSample) : List Byte :=
  leBytes 4 m.intervalUs.toNat ++ leBytes 4 (attribution m (Tbl.get 0 s.mem.shadowLost p.val)).2 ++ leBytes 8 m.stall.toNat
    ++ leBytes 8 (attribution m (Tbl.get 0 s.mem.shadowLost p.val)).1 ++ leBytes 4 (Tbl.get 0 s.mem.keepDemoted p.val - (s.partition p).keepBase)
    ++ leBytes 4 (Tbl.get 0 s.mem.stashDeclined p.val - (s.partition p).stashBase) ++ leBytes 4 (s.partition p).kills
    ++ leBytes 4 ((s.intervalEnergy p).2.pausedEntries p) ++ leBytes 4 (min (figure s.energy.parts p / 10 ^ 12) (2 ^ 32 - 1))

theorem State.intervalBody_length (s : State) (p : Fin 16) (m : StallSample) : (s.intervalBody p m).length = 44 := by
  simp only [State.intervalBody, List.length_append, leBytes_length]

/-- A partition's counts start anew with its report (R303-R305, R435). -/
def State.countsAnew (s : State) (p : Fin 16) : State :=
  let t := (s.intervalEnergy p).2.setPartition p { s.partition p with
    keepBase := Tbl.get 0 s.mem.keepDemoted p.val, stashBase := Tbl.get 0 s.mem.stashDeclined p.val, kills := 0 }
  { t with mem := { t.mem with shadowLost := Tbl.set 0 t.mem.shadowLost p.val 0 } }

section
variable (s : State) (p : Fin 16)

theorem State.countsAnew_partition : (s.countsAnew p).partition p = { s.partition p with
    keepBase := Tbl.get 0 s.mem.keepDemoted p.val, stashBase := Tbl.get 0 s.mem.stashDeclined p.val, kills := 0 } :=
  State.partition_setPartition ..

theorem State.countsAnew_shadowLost : Tbl.get 0 (s.countsAnew p).mem.shadowLost p.val = 0 := Tbl.get_set_same 0 s.mem.shadowLost p.val 0

theorem State.countsAnew_energy_same : figure (s.countsAnew p).energy.parts p = figure s.energy.parts p % 10 ^ 12 := figure_replaced_same ..

theorem State.countsAnew_energy_ne {q : Fin 16} (other : q ≠ p) : figure (s.countsAnew p).energy.parts q = figure s.energy.parts q := figure_replaced_ne _ _ _ other

theorem exec_intervalReport {s : State} {p : Fin 16} (up : s.up = true) (mode : (s.partition p).mode ≠ .absent) (m : StallSample) :
    exec (.intervalReport p m) s = .next ((s.countsAnew p).postEvent p 0x0004 (s.intervalBody p m)) :=
  if_neg (by simp [up, mode])

end

/-! ### POWER_STATE (R433) -/

/-- A POWER_STATE that is due posts the throttle duty, flags, the thermal step and the cap in W, and is due no more. -/
theorem exec_powerState {s : State} {p : Fin 16} (up : s.up = true) (live : (s.partition p).mode = .live) (due : (s.partition p).powerDue = true) :
    ∃ flags : Byte, exec (.powerState p) s = .next ((s.setPartition p { s.partition p with powerDue := false }).postEvent p 0x0020
      ([BitVec.ofNat 8 s.pow.duty, flags, BitVec.ofNat 8 s.topStep] ++ leBytes 2 (1200 + 25 * s.pow.capStep))) :=
  ⟨_, if_neg (by simp [up, live, due])⟩

/-- Settles O29: what is posted, and what the partition's counts are then. -/
theorem partitionReportsArePosted : Obligations.PartitionReportsArePosted := by
  unfold Obligations.PartitionReportsArePosted
  intro s p up
  refine ⟨fun m mode => ?interval, fun live due => ?power⟩
  case interval =>
    exact ⟨s.countsAnew p, s.intervalBody p m, exec_intervalReport up mode m, s.intervalBody_length p m, rfl, s.countsAnew_energy_same p,
      fun q other => s.countsAnew_energy_ne p other, s.countsAnew_partition p, s.countsAnew_shadowLost p⟩
  case power =>
    obtain ⟨flags, run⟩ := exec_powerState up live due
    exact ⟨_, _, run, by simp only [List.length_append, List.length_cons, List.length_nil, leBytes_length], rfl, State.partition_setPartition .., rfl⟩

end Sys2Proof.Machine
end


section

/-! SUPPORT. Every step: the queue and the fuses under the operations of State (02 R136-R169, 04 R286-R288). What a state has of them is its ledger; with the notion of a
command that passes, and what each operation of the state, the walks, ECC, the pool and the rings leave of it. -/

namespace Sys2Proof.Machine

/-! ### The ledger of a state -/

/-- The queue of commands and the fuses, which hardly a command touches. -/
structure Ledger where
  queue : List Instr
  fuses : Fuses

/-- Of what leaves it alone, the lemmas below say so for `simp`; those true by definition are proved by `(rfl)`, not `rfl`, so that `simp` takes them as
rewrites, with a proof, and can use them on the steps of a fold. -/
def State.ledger (s : State) : Ledger := ⟨s.pending, s.sec.fuses⟩

/-- A command goes on to a next state, with the queue and the fuses as they were. -/
def Passes (s : State) (o : Host.Outcome State Fault Refusal) : Prop := ∃ t, o = .next t ∧ t.ledger = s.ledger

/-- The state in which an instruction's effect ends. -/
def Eff.state : Eff → State
  | .ok s _ _ => s
  | .wait s _ _ => s
  | .fault s _ _ _ => s
  | .hold s _ _ => s
  | .stop s => s

@[simp] theorem Eff.state_ok (s : State) (g : Group) (sw : Bool) : (Eff.ok s g sw).state = s := (rfl)
@[simp] theorem Eff.state_wait (s : State) (g : Group) (w : WaitReason) : (Eff.wait s g w).state = s := (rfl)
@[simp] theorem Eff.state_fault (s : State) (g : Group) (f : ParkFault) (r : Option SentryRec) : (Eff.fault s g f r).state = s := (rfl)
@[simp] theorem Eff.state_hold (s : State) (g : Group) (w : WaitReason) : (Eff.hold s g w).state = s := (rfl)
@[simp] theorem Eff.state_stop (s : State) : (Eff.stop s).state = s := (rfl)

@[simp] theorem Eff.state_ite (c : Prop) [Decidable c] (a b : Eff) : (if c then a else b).state = if c then a.state else b.state := apply_ite _ _ _ _

/-- The state in which the rows of a move end. -/
def RowEnd.state : RowEnd → State
  | .done _ s => s
  | .fault _ s _ _ _ => s
  | .gone s => s

@[simp] theorem RowEnd.state_done (op : TileOp) (s : State) : (RowEnd.done op s).state = s := (rfl)
@[simp] theorem RowEnd.state_fault (op : TileOp) (s : State) (c : ParkClass) (access : BitVec 8) (addr : Nat) : (RowEnd.fault op s c access addr).state = s := (rfl)
@[simp] theorem RowEnd.state_gone (s : State) : (RowEnd.gone s).state = s := (rfl)

@[simp] theorem passes_next (s t : State) : Passes s (.next t) ↔ t.ledger = s.ledger := by
  simp [Passes]

@[simp] theorem passes_ite (s : State) (c : Prop) [Decidable c] (a b : Host.Outcome State Fault Refusal) (ha : c → Passes s a) (hb : ¬ c → Passes s b) :
    Passes s (if c then a else b) := by
  split <;> simp_all

@[simp] theorem foldl_ledger {α : Type} (F : State → α → State) (h : ∀ s a, (F s a).ledger = s.ledger) (l : List α) (s : State) :
    (l.foldl F s).ledger = s.ledger := foldl_keeps _ F h l s

@[simp] theorem foldl_ledger_fst {α β : Type} (F : State × β → α → State × β) (h : ∀ x a, (F x a).1.ledger = x.1.ledger) (l : List α) (x : State × β) :
    (l.foldl F x).1.ledger = x.1.ledger := foldl_keeps (fun x => x.1.ledger) F h l x

@[simp] theorem foldl_ledger_snd {α β : Type} (F : β × State → α → β × State) (h : ∀ x a, (F x a).2.ledger = x.2.ledger) (l : List α) (x : β × State) :
    (l.foldl F x).2.ledger = x.2.ledger := foldl_keeps (fun x => x.2.ledger) F h l x

@[simp] theorem ledger_ite (c : Prop) [Decidable c] (a b : State) : (if c then a else b).ledger = if c then a.ledger else b.ledger := apply_ite _ _ _ _
@[simp] theorem snd_ledger_ite {α : Type} (c : Prop) [Decidable c] (a b : α × State) : (if c then a else b).2.ledger = if c then a.2.ledger else b.2.ledger :=
  apply_ite (fun x : α × State => x.2.ledger) _ _ _

@[simp] theorem State.ledger_mk (a b c d e f g h i j k l m) : (State.mk a b c d e f g h i j k l m).ledger = ⟨m, f.fuses⟩ := rfl
@[simp] theorem State.ledger_fold (s : State) : (⟨s.pending, s.sec.fuses⟩ : Ledger) = s.ledger := rfl

theorem ledger_of_snd {α : Type} {x : α × State} {a : α} {t : State} (h : x = (a, t)) : t.ledger = x.2.ledger := by rw [h]
theorem ledger_of_snd_snd {α β : Type} {x : α × β × State} {a : α} {b : β} {t : State} (h : x = (a, b, t)) : t.ledger = x.2.2.ledger := by rw [h]

theorem ledger_of_pow {s t : State} (h : t.ledger = s.ledger) (p : PowState) : ({ t with pow := p } : State).ledger = s.ledger := h

/-! ### Tables of State -/

@[simp] theorem State.setArray_ledger (s : State) (la : Nat) (a : ArrayState) : (s.setArray la a).ledger = s.ledger := (rfl)
@[simp] theorem State.setPartition_ledger (s : State) (p : Fin 16) (x : Partition) : (s.setPartition p x).ledger = s.ledger := (rfl)
@[simp] theorem State.setPort_ledger (s : State) (n : Fin 2) (x : PortState) : (s.setPort n x).ledger = s.ledger := by simp [State.setPort]
@[simp] theorem State.setFn_ledger (s : State) (port : Fin 2) (f : Fin 128) (x : FnState) : (s.setFn port f x).ledger = s.ledger := (rfl)
@[simp] theorem State.setDyn_ledger (s : State) (ch : Fin 3072) (d : ChanDyn) : (s.setDyn ch d).ledger = s.ledger := (rfl)
@[simp] theorem State.setLp_ledger (s : State) (n : Nat) (x : LinkPort) : (s.setLp n x).ledger = s.ledger := (rfl)
@[simp] theorem State.setSlot_ledger (s : State) (n : Nat) (x : SlotState) : (s.setSlot n x).ledger = s.ledger := (rfl)
@[simp] theorem State.setCore_ledger (s : State) (n : Nat) (x : CoreState) : (s.setCore n x).ledger = s.ledger := (rfl)
@[simp] theorem State.setDie_ledger (s : State) (n : Nat) (x : DieState) : (s.setDie n x).ledger = s.ledger := (rfl)
@[simp] theorem State.setDomain_ledger (s : State) (n : Nat) (x : Domain) : (s.setDomain n x).ledger = s.ledger := (rfl)
@[simp] theorem State.setCmd_ledger (s : State) (x : Cmd) : (s.setCmd x).ledger = s.ledger := (rfl)
@[simp] theorem State.dropCmd_ledger (s : State) (c : CmdRef) : (s.dropCmd c).ledger = s.ledger := (rfl)
@[simp] theorem State.emit_ledger (s : State) (o : Out) : (s.emit o).ledger = s.ledger := (rfl)
@[simp] theorem State.freeVal_ledger (s : State) (w : Nat) : (s.freeVal w).2.ledger = s.ledger := (rfl)
@[simp] theorem State.charge_ledger (s : State) (p : Fin 16) (c : Option CmdRef) (e : EnergyEvent) (n : Nat) : (s.charge p c e n).ledger = s.ledger := (rfl)
@[simp] theorem State.recordEnergy_ledger (s : State) (c : CmdRef) : (s.recordEnergy c).2.ledger = s.ledger := (rfl)
@[simp] theorem State.intervalEnergy_ledger (s : State) (p : Fin 16) : (s.intervalEnergy p).2.ledger = s.ledger := (rfl)

/-! ### Error reports (R391-R393, R436) -/

@[simp] theorem State.report_ledger (s : State) (r : Report) : (s.report r).ledger = s.ledger := (rfl)

/-! ### Pool addresses (R136-R143) -/

@[simp] theorem State.setPlot_ledger (s : State) (p : Nat) (h : PlotHold) : (s.setPlot p h).ledger = s.ledger := (rfl)

/-! ### Memory below the caches (R149-R154, R165-R169) -/

@[simp] theorem State.setPoison_ledger (s : State) (granule : Nat) (b : Bool) : (s.setPoison granule b).ledger = s.ledger := (rfl)

@[simp] theorem State.writeMem_ledger (s : State) (line : Nat) (d : Line) (m : BitVec 128) (p : BitVec 2) : (s.writeMem line d m p).ledger = s.ledger := by
  simp [State.writeMem]

/-! ### Regulators and trackers (R158-R161) -/

@[simp] theorem State.enterReq_ledger (s : State) (r : MemReq) : (s.enterReq r).ledger = s.ledger := by
  unfold State.enterReq; dsimp only; split <;> simp

@[simp] theorem State.chanAsk_ledger (s : State) (line : Nat) (p : Fin 16) (cls : ReqClass) (bytes : Nat) (target : FillFor) :
    (s.chanAsk line p cls bytes target).ledger = s.ledger := by
  simp [State.chanAsk]

@[simp] theorem State.llcPut_ledger (s : State) (l : LlcLine) : (s.llcPut l).ledger = s.ledger := (rfl)
@[simp] theorem State.llcDrop_ledger (s : State) (l : LlcLine) : (s.llcDrop l).ledger = s.ledger := (rfl)
@[simp] theorem State.countDemoted_ledger (s : State) (p : Fin 16) : (s.countDemoted p).ledger = s.ledger := (rfl)
@[simp] theorem State.countDeclined_ledger (s : State) (p : Fin 16) : (s.countDeclined p).ledger = s.ledger := (rfl)

@[simp] theorem State.shadowNote_ledger (s : State) (p : Fin 16) (slice set tag hint : Nat) (hit : Bool) : (s.shadowNote p slice set tag hint hit).ledger = s.ledger := by
  simp [State.shadowNote]

@[simp] theorem State.llcHit_ledger (s : State) (p : Fin 16) (l : LlcLine) (hint : Nat) : (s.llcHit p l hint).ledger = s.ledger := by simp [State.llcHit]
@[simp] theorem State.raiseEpoch_ledger (s : State) (p : Fin 16) : (s.raiseEpoch p).ledger = s.ledger := (rfl)

/-! ### Dies -/

@[simp] theorem State.setDieLine_ledger (s : State) (line : Nat) (d : Fin 2) (x : Option DieLine) : (s.setDieLine line d x).ledger = s.ledger := (rfl)
@[simp] theorem State.setEvEntry_ledger (s : State) (line : Nat) (d : Fin 2) (x : Option EvEntry) : (s.setEvEntry line d x).ledger = s.ledger := (rfl)

@[simp] theorem State.dieAnswer_ledger (s : State) (d : Fin 2) (line : Nat) (q : Snoop) (w : Option Line) : (s.dieAnswer d line q w).2.ledger = s.ledger := by
  unfold State.dieAnswer; dsimp only; (repeat' split) <;> simp

@[simp] theorem State.wakeLine_ledger (s : State) (line : Nat) : (s.wakeLine line).ledger = s.ledger := (rfl)

@[simp] theorem State.takeRsp_ledger (s : State) (d : Fin 2) (line : Nat) (r : Rsp) : (s.takeRsp d line r).ledger = s.ledger := by
  unfold State.takeRsp; (repeat' split) <;> simp

@[simp] theorem State.snoopNow_ledger (s : State) (d : Fin 2) (line : Nat) (q : Snoop) : (s.snoopNow d line q).ledger = s.ledger := by simp [State.snoopNow]
@[simp] theorem State.snoopAll_ledger (s : State) (line : Nat) (q : Snoop) : (s.snoopAll line q).ledger = s.ledger := by simp [State.snoopAll]

@[simp] theorem State.evictLine_ledger (s : State) (l : LlcLine) : (s.evictLine l).ledger = s.ledger := by
  unfold State.evictLine; dsimp only; (repeat' split) <;> simp

@[simp] theorem State.llcAlloc_ledger (s : State) (p : Fin 16) (line hint : Nat) (remote dieReq : Bool) (hd : HomeData) (d : Line) (po : BitVec 2) :
    (s.llcAlloc p line hint remote dieReq hd d po).2.ledger = s.ledger := by
  unfold State.llcAlloc; dsimp only; (repeat' split) <;> simp

@[simp] theorem State.walk_ledger (rd : LineRead) (h : ∀ s line, (rd s line).2.ledger = s.ledger) (s : State) (p : Fin 16) (va page level : Nat) :
    (State.walk rd s p va page level).2.ledger = s.ledger := by
  induction level generalizing s page with
  | zero => unfold State.walk; dsimp only; (repeat' split) <;> simp [h]
  | succ l ih => unfold State.walk; dsimp only; (repeat' split) <;> simp [h, ih]

@[simp] theorem State.translateWith_ledger (rd : LineRead) (h : ∀ s line, (rd s line).2.ledger = s.ledger) (s : State) (p : Fin 16) (va : Nat) (write : Bool) :
    (s.translateWith rd p va write).2.ledger = s.ledger := by
  unfold State.translateWith
  dsimp only
  split
  · rfl
  split
  · rfl
  split
  · rfl
  split
  · rfl
  split
  · rfl
  · split <;> next walked => exact (ledger_of_snd walked).trans (State.walk_ledger rd h s p va _ 4)

/-! ### Requests that return data (R217, R315, R322) -/

@[simp] theorem State.sendTag_ledger (s : State) (r : HostTag) (x : HostSend) : (s.sendTag r x).ledger = s.ledger := by
  unfold State.sendTag; split <;> simp

@[simp] theorem State.askTag_ledger (s : State) (port : Fin 2) (fn : Fin 128) (a : Word) (n : Nat) (use : HostFor) (x : HostSend) :
    (s.askTag port fn a n use x).ledger = s.ledger := by
  simp [State.askTag]

@[simp] theorem State.sendHeld_ledger (s : State) (port : Fin 2) : (s.sendHeld port).ledger = s.ledger := by
  unfold State.sendHeld
  refine foldl_ledger _ (fun t r => ?_) _ _
  split <;> simp

/-! ### Dirty-page logging (R335, R336) -/

@[simp] theorem State.hostAsk_ledger (s : State) (c : Ctx) (iova n : Nat) : (s.hostAsk c iova n).ledger = s.ledger := (rfl)
@[simp] theorem State.askAside_ledger (s : State) (port : Fin 2) (a : Word) (n : Nat) : (s.askAside port a n).ledger = s.ledger := by simp [State.askAside]
@[simp] theorem State.writeBackWord_ledger (s : State) (x : Fin 2 × Word × BitVec 64) : (s.writeBackWord x).ledger = s.ledger := (rfl)

@[simp] theorem State.mergeBits_ledger (s : State) (port : Fin 2) (a : Word) (b : BitVec 64) : (s.mergeBits port a b).ledger = s.ledger := by
  unfold State.mergeBits; (repeat' split) <;> simp

@[simp] theorem State.logPage_ledger (s : State) (port : Fin 2) (fn : Fin 128) (page : Nat) : (s.logPage port fn page).ledger = s.ledger := by simp [State.logPage]

@[simp] theorem State.hostWrite_ledger (s : State) (c : Ctx) (iova : Nat) (b : List Byte) (release : Bool) : (s.hostWrite c iova b release).ledger = s.ledger := by
  simp [State.hostWrite]

/-! ### Retirement (R152, R153, R468) -/

@[simp] theorem State.retirePage_ledger (s : State) (u pg : Nat) : (s.retirePage u pg).ledger = s.ledger := by
  unfold State.retirePage; (repeat' split) <;> simp

@[simp] theorem State.countCorrection_ledger (s : State) (u pg : Nat) : (s.countCorrection u pg).ledger = s.ledger := by simp [State.countCorrection]

/-! ### Poison and refill (R400-R405) -/

@[simp] theorem State.refillRead_ledger (s : State) (r : RefillPage) : (s.refillRead r).ledger = s.ledger := by
  unfold State.refillRead; split <;> simp

@[simp] theorem State.poisonFound_ledger (s : State) (u pg : Nat) (granule : Option Nat) : (s.poisonFound u pg granule).ledger = s.ledger := by
  unfold State.poisonFound; dsimp only; (repeat' split) <;> simp

@[simp] theorem State.eccTake_ledger (s : State) (u pg : Nat) (granule : Option Nat) (good : BitVec 512) (e : EccEvent) :
    (s.eccTake u pg granule good e).2.2.ledger = s.ledger := by
  unfold State.eccTake; split <;> simp

/-! ### Reads of a line (R149, R154, R166) -/

@[simp] theorem State.eccFree_ledger (s : State) : s.eccFree.2.ledger = s.ledger := (rfl)

@[simp] theorem State.readGranule_ledger (s : State) (line : Nat) (g : Nat) (e : EccEvent) : (s.readGranule line g e).2.2.ledger = s.ledger := by
  simp [State.readGranule]

@[simp] theorem State.churnOne_ledger (s : State) (o : ChurnOp) (e : EccEvent) : (s.churnOne o e).2.ledger = s.ledger := by simp [State.churnOne]
@[simp] theorem State.flushChurn_ledger (s : State) (line : Nat) : (s.flushChurn line).ledger = s.ledger := by simp [State.flushChurn]
@[simp] theorem State.readLine_ledger (s : State) (line : Nat) (e : EccPair) : (s.readLine line e).2.ledger = s.ledger := by simp [State.readLine]
@[simp] theorem State.readFree_ledger (s : State) (line : Nat) : (s.readFree line).2.ledger = s.ledger := by simp [State.readFree]

@[simp] theorem State.writeBehind_ledger (s : State) (line : Nat) (d : Line) (m : BitVec 128) (p : BitVec 2) : (s.writeBehind line d m p).ledger = s.ledger := by
  simp [State.writeBehind]

/-! ### Non-caching requests of engines (R190) -/

@[simp] theorem State.engRead_ledger (s : State) (p : Fin 16) (line hint : Nat) (cls : ReqClass := .array) : (s.engRead p line hint cls).2.ledger = s.ledger := by
  unfold State.engRead; dsimp only; (repeat' split) <;> simp

@[simp] theorem State.engWrite_ledger (s : State) (p : Fin 16) (line : Nat) (d : Line) (m : BitVec 128) (po : BitVec 2) (hint : Nat) (cls : ReqClass := .array) :
    (s.engWrite p line d m po hint cls).ledger = s.ledger := by
  unfold State.engWrite; dsimp only; (repeat' split) <;> simp

@[simp] theorem State.engUpdate_ledger (s : State) (p : Fin 16) (line : Nat) (hint : Nat) (touch : BitVec 2) (f : Line → Line) (cls : ReqClass := .array) :
    (s.engUpdate p line hint touch f cls).2.ledger = s.ledger := by
  unfold State.engUpdate; dsimp only; (repeat' split) <;> simp

@[simp] theorem State.setEntry_ledger (s : State) (ch : Fin 3072) (e : BitVec 512) : (s.setEntry ch e).ledger = s.ledger := (rfl)

@[simp] theorem State.engDiscard_ledger (s : State) (line : Nat) : (s.engDiscard line).ledger = s.ledger := by
  unfold State.engDiscard; dsimp only; split <;> simp

/-! ### Translation -/

theorem walkRead_ledger (p : Fin 16) (s : State) (line : Nat) : (walkRead p s line).2.ledger = s.ledger := by
  unfold walkRead; split <;> simp

@[simp] theorem State.translate_ledger (s : State) (p : Fin 16) (va : Nat) (write : Bool) : (s.translate p va write).2.ledger = s.ledger :=
  State.translateWith_ledger _ (walkRead_ledger p) s p va write

/-! ### Byte strings at virtual addresses -/

@[simp] theorem State.readCut_ledger (s : State) (c : Ctx) (buf : Tbl (Option BufByte)) (hint va n : Nat) (atlas : Nat → Byte) (cls : ReqClass := .array) :
    (s.readCut c buf hint va n atlas cls).2.ledger = s.ledger := by
  unfold State.readCut; dsimp only; (repeat' split) <;> simp

@[simp] theorem State.readCuts_ledger (s : State) (c : Ctx) (buf : Tbl (Option BufByte)) (hint : Nat) (atlas : Nat → Byte) (cls : ReqClass := .array) (x : List
    (Nat × Nat)) :
    (s.readCuts c buf hint atlas cls x).2.ledger = s.ledger := by
  induction x generalizing s with
  | nil => rfl
  | cons a l ih =>
    have cut := s.readCut_ledger c buf hint a.1 a.2 atlas cls
    unfold State.readCuts
    split
    · next b t first =>
      rw [first] at cut
      split
      · next more => exact (ledger_of_snd more).trans ((ih t).trans cut)
      · exact (ih t).trans cut
    · exact cut

@[simp] theorem State.vaRead_ledger (s : State) (c : Ctx) (buf : Tbl (Option BufByte)) (hint va n : Nat) (atlas : Nat → Byte) (cls : ReqClass := .array) :
    (s.vaRead c buf hint va n atlas cls).2.ledger = s.ledger := by
  simp [State.vaRead]

@[simp] theorem State.writeCut_ledger (s : State) (c : Ctx) (hint va : Nat) (b : List Byte) (po : BitVec 2) (release : Bool) (cls : ReqClass := .array) :
    (s.writeCut c hint va b po release cls).2.ledger = s.ledger := by
  unfold State.writeCut; dsimp only; split <;> simp

@[simp] theorem State.writeCuts_ledger (s : State) (c : Ctx) (hint : Nat) (release : Bool) (cls : ReqClass := .array) (x : List (Nat × Nat)) (y : List Byte) :
    (s.writeCuts c hint release cls x y).2.ledger = s.ledger := by
  induction x generalizing s y with
  | nil => rfl
  | cons a l ih =>
    have cut := s.writeCut_ledger c hint a.1 (y.take a.2) 0 release cls
    unfold State.writeCuts
    split
    · next t first =>
      rw [first] at cut
      exact (ih t _).trans cut
    · exact cut

@[simp] theorem State.vaWrite_ledger (s : State) (c : Ctx) (hint va : Nat) (b : List Byte) (release : Bool) (cls : ReqClass := .array) :
    (s.vaWrite c hint va b release cls).2.ledger = s.ledger := by
  simp [State.vaWrite]

/-! ### The Atlas -/

@[simp] theorem State.countRetired_ledger (s : State) : s.countRetired.ledger = s.ledger := (rfl)

/-! ### Rings (R286-R288) -/

@[simp] theorem State.ringPut_ledger (s : State) (c : Ctx) (host : Bool) (a : Nat) (b : List Byte) (release : Bool) :
    (s.ringPut c host a b release).2.ledger = s.ledger := by
  unfold State.ringPut
  repeat' split
  · simp
  · rfl
  · next h => simp [ledger_of_snd h]
  · next h => simp [ledger_of_snd h]

@[simp] theorem State.ringConsumer_ledger (s : State) (c : Ctx) (r : RingReg) : (s.ringConsumer c r).2.ledger = s.ledger := by
  unfold State.ringConsumer
  dsimp only
  repeat' split
  · rfl
  · rfl
  · next h => simp [ledger_of_snd h]
  · next h => simp [ledger_of_snd h]
  · next h => simp [ledger_of_snd h]

@[simp] theorem State.ringRecord_ledger (s : State) (c : Ctx) (r : RingReg) (record : List Byte) (kind : Option Byte) (cons : Option (BitVec 32)) :
    (s.ringRecord c r record kind cons).2.2.ledger = s.ledger := by
  unfold State.ringRecord; dsimp only; (repeat' split) <;> simp

@[simp] theorem State.coreInterrupt_ledger (s : State) (p : Fin 16) (index n : Nat) : (s.coreInterrupt p index n).ledger = s.ledger := by
  unfold State.coreInterrupt; split <;> simp

@[simp] theorem State.postEvent_ledger (s : State) (p : Fin 16) (event : Nat) (body : List Byte) : (s.postEvent p event body).ledger = s.ledger := by
  unfold State.postEvent; dsimp only; (repeat' split) <;> simp

@[simp] theorem State.postFault_ledger (s : State) (p : Fin 16) (kind : Byte) (record : List Byte) : (s.postFault p kind record).ledger = s.ledger := by
  unfold State.postFault; dsimp only; split <;> simp

@[simp] theorem State.postAll_ledger (s : State) (parts : BitVec 16) (event : Nat) (body : List Byte) : (s.postAll parts event body).ledger = s.ledger := by
  simp [State.postAll]

@[simp] theorem State.atlasBegin_ledger (s : State) : s.atlasBegin.ledger = s.ledger := by simp [State.atlasBegin]
@[simp] theorem State.atlasNote_ledger (s : State) (kind : Nat) (parts : BitVec 16) : (s.atlasNote kind parts).ledger = s.ledger := (rfl)
@[simp] theorem State.mirrorWrite_ledger (s : State) : s.mirrorWrite.ledger = s.ledger := by simp [State.mirrorWrite]
@[simp] theorem State.atlasEnd_ledger (s : State) : s.atlasEnd.ledger = s.ledger := by simp [State.atlasEnd]
@[simp] theorem State.atlasUpdate_ledger (s : State) (kind : Nat) (parts : BitVec 16) : (s.atlasUpdate kind parts).ledger = s.ledger := by simp [State.atlasUpdate]
@[simp] theorem State.noteRetired_ledger (s : State) (u : Nat) : (s.noteRetired u).ledger = s.ledger := by simp [State.noteRetired]
@[simp] theorem State.refactor_ledger (s : State) : s.refactor.ledger = s.ledger := by simp [State.refactor]

end Sys2Proof.Machine
end


section

/-! SUPPORT. Every step: commands, units that are lost and actions of firmware leave the queue and the fuses (09 R242-R279, 06 R231, 10 R281-R295). -/

namespace Sys2Proof.Machine

/-! ### Channel entries (R242, R243) -/

@[simp] theorem State.chanPut_ledger (s : State) (ch : Fin 3072) (host : Bool) (a : Nat) (b : List Byte) : (s.chanPut ch host a b).2.ledger = s.ledger := by
  simp [State.chanPut]

/-! ### Descriptors (R253-R261) -/

@[simp] theorem State.poisonRange_ledger (s : State) (p : Fin 16) (a n : Nat) : (s.poisonRange p a n).ledger = s.ledger := by
  unfold State.poisonRange
  split
  · rfl
  · refine foldl_ledger _ (fun t i => ?_) _ s
    dsimp only
    split <;> next h => simp [ledger_of_snd h]

@[simp] theorem State.poisonRegions_ledger (s : State) (c : Cmd) : (s.poisonRegions c).ledger = s.ledger := by simp [State.poisonRegions]

/-! ### Semaphores at the home (R263-R265, R470) -/

@[simp] theorem State.semRead_ledger (s : State) (p : Fin 16) (va : Nat) : (s.semRead p va).2.ledger = s.ledger := by
  unfold State.semRead
  split <;> next h => simp [ledger_of_snd h]

@[simp] theorem State.semWrite_ledger (s : State) (p : Fin 16) (line off : Nat) (value : Word) (owner : Nat) :
    (s.semWrite p line off value owner).2.ledger = s.ledger := by
  simp [State.semWrite]

@[simp] theorem State.poisonRead_ledger (s : State) (p : Fin 16) (granule : Nat) (reporter : BitVec 16) : (s.poisonRead p granule reporter).ledger = s.ledger := by
  simp [State.poisonRead]

@[simp] theorem State.endDonation_ledger (s : State) (c : Cmd) : (s.endDonation c).ledger = s.ledger := by simp [State.endDonation]

@[simp] theorem State.releaseClaims_ledger (s : State) (c : Cmd) : (s.releaseClaims c).2.ledger = s.ledger := by
  unfold State.releaseClaims
  refine (foldl_ledger_snd _ (fun x i => ?_) _ _).trans (s.endDonation_ledger c)
  split
  · rfl
  · split <;> next h => simp [ledger_of_snd h]

/-! ### Interrupts (R277, R278) -/

@[simp] theorem State.sendMsix_ledger (s : State) (port : Fin 2) (fn : Fin 128) (v : Nat) : (s.sendMsix port fn v).ledger = s.ledger := by simp [State.sendMsix]

@[simp] theorem State.sendChanIrq_ledger (s : State) (ch : Fin 3072) : (s.sendChanIrq ch).ledger = s.ledger := by
  unfold State.sendChanIrq; dsimp only; split <;> simp

@[simp] theorem State.chanIrq_ledger (s : State) (ch : Fin 3072) : (s.chanIrq ch).ledger = s.ledger := by simp [State.chanIrq]

/-! ### Kills and completion (R246, R252, R265-R275) -/

@[simp] theorem State.sentryFree_ledger (s : State) (t : BitVec 32) : (s.sentryFree t).ledger = s.ledger := (rfl)
@[simp] theorem State.vacateArrays_ledger (s : State) (c : Cmd) : (s.vacateArrays c).ledger = s.ledger := by simp [State.vacateArrays]
@[simp] theorem State.freeArrays_ledger (s : State) (c : Cmd) : (s.freeArrays c).ledger = s.ledger := by simp [State.freeArrays]
@[simp] theorem State.dropFrames_ledger (s : State) (c : CmdRef) : (s.dropFrames c).ledger = s.ledger := (rfl)
@[simp] theorem State.settleInvals_ledger (s : State) : s.settleInvals.ledger = s.ledger := by simp [State.settleInvals]
@[simp] theorem State.dropReads_ledger (s : State) (c : CmdRef) : (s.dropReads c).ledger = s.ledger := by simp [State.dropReads]
@[simp] theorem State.killCmd_ledger (s : State) (c : Cmd) (fin : Option (Nat × BitVec 32)) : (s.killCmd c fin).ledger = s.ledger := by simp [State.killCmd]
@[simp] theorem State.noteError_ledger (s : State) (ch : Fin 3072) (cause : Nat) : (s.noteError ch cause).ledger = s.ledger := by simp [State.noteError]

@[simp] theorem State.putRecord_ledger (s : State) (c : Cmd) (status : Nat) (poisoned report : Bool) (detail : BitVec 32) :
    (s.putRecord c status poisoned report detail).ledger = s.ledger := by
  simp [State.putRecord]

@[simp] theorem State.complete_ledger (s : State) (c : Cmd) (status : Nat) (detail : BitVec 32) : (s.complete c status detail).ledger = s.ledger := by
  simp [State.complete]

@[simp] theorem State.endCmd_ledger (s : State) (c : Cmd) (status : Nat) (detail : BitVec 32) : (s.endCmd c status detail).ledger = s.ledger := by
  unfold State.endCmd; split <;> simp

@[simp] theorem State.killRerun_ledger (s : State) (c : Cmd) : (s.killRerun c).ledger = s.ledger := by
  unfold State.killRerun; split <;> simp

@[simp] theorem State.killPoison_ledger (s : State) (c : Cmd) : (s.killPoison c).ledger = s.ledger := by
  unfold State.killPoison; split <;> simp

@[simp] theorem State.stopCmd_ledger (s : State) (c : Cmd) (status : Nat) (detail : BitVec 32) : (s.stopCmd c status detail).ledger = s.ledger := by
  unfold State.stopCmd; split <;> simp

@[simp] theorem State.stopChannel_ledger (s : State) (ch : Fin 3072) (why : StopWhy) (status : Nat) (detail : BitVec 32) :
    (s.stopChannel ch why status detail).ledger = s.ledger := by
  unfold State.stopChannel
  refine foldl_ledger _ (fun t a => ?_) _ _
  split <;> simp

@[simp] theorem State.chanError_ledger (s : State) (ch : Fin 3072) (cause : Nat) : (s.chanError ch cause).ledger = s.ledger := by simp [State.chanError]

@[simp] theorem State.settleErrors_ledger (s : State) (ch : Fin 3072) : (s.settleErrors ch).ledger = s.ledger := by
  unfold State.settleErrors
  split
  · refine foldl_ledger _ (fun t x => ?_) _ s
    split <;> simp
  · rfl

@[simp] theorem State.watchDoor_ledger (s : State) (ch : Fin 3072) : (s.watchDoor ch).ledger = s.ledger := by
  unfold State.watchDoor
  dsimp only
  repeat' split
  · rfl
  · next h => simp [ledger_of_snd h]
  · next h => simp [ledger_of_snd h]

@[simp] theorem State.wantDomain_ledger (s : State) (n : Nat) : (s.wantDomain n).ledger = s.ledger := by simp [State.wantDomain]
@[simp] theorem State.dropDomain_ledger (s : State) (n : Nat) : (s.dropDomain n).ledger = s.ledger := (rfl)

@[simp] theorem State.postRecovery_ledger (s : State) (parts : BitVec 16) (unit : BitVec 16) (kind : Nat) (outcome : Option Nat) :
    (s.postRecovery parts unit kind outcome).ledger = s.ledger := by
  simp [State.postRecovery]

@[simp] theorem State.killOn_ledger (s : State) (la : Nat) : (s.killOn la).ledger = s.ledger := by
  unfold State.killOn; (repeat' split) <;> simp

@[simp] theorem State.takeSpare_ledger (s : State) (la old : Nat) : (s.takeSpare la old).ledger = s.ledger := by
  unfold State.takeSpare; split <;> simp

@[simp] theorem State.endSwap_ledger (s : State) : s.endSwap.ledger = s.ledger := by simp [State.endSwap]
@[simp] theorem State.endSwaps_ledger (s : State) : s.endSwaps.ledger = s.ledger := by simp [State.endSwaps]
@[simp] theorem State.bindSwap_ledger (s : State) (w : Swap) : (s.bindSwap w).ledger = s.ledger := by simp [State.bindSwap]
@[simp] theorem State.unbindLa_ledger (s : State) (la : Nat) : (s.unbindLa la).ledger = s.ledger := (rfl)
@[simp] theorem State.settleBindings_ledger (s : State) : s.settleBindings.ledger = s.ledger := by simp [State.settleBindings]

@[simp] theorem State.fenceSlotQuiet_ledger (s : State) (n : Nat) : (s.fenceSlotQuiet n).ledger = s.ledger := by
  unfold State.fenceSlotQuiet; dsimp only; (repeat' split) <;> simp

@[simp] theorem State.fenceSlot_ledger (s : State) (n cause : Nat) : (s.fenceSlot n cause).ledger = s.ledger := by simp [State.fenceSlot]

@[simp] theorem State.failModule_ledger (s : State) (cause : Nat) : (s.failModule cause).ledger = s.ledger := by
  unfold State.failModule; (repeat' split) <;> simp

@[simp] theorem State.setD2d_ledger (s : State) (l : Nat) (x : DieLink) : (s.setD2d l x).ledger = s.ledger := (rfl)
@[simp] theorem State.freshGroups_ledger (s : State) (l : Nat) : (s.freshGroups l).ledger = s.ledger := (rfl)
@[simp] theorem State.dropLinks_ledger (s : State) (d : Nat) : (s.dropLinks d).ledger = s.ledger := by simp [State.dropLinks]

@[simp] theorem State.loseSlots_ledger (s : State) (d : Nat) : (s.loseSlots d).ledger = s.ledger := by
  unfold State.loseSlots
  dsimp only
  refine (State.settleBindings_ledger _).trans ((foldl_ledger _ (fun t la => ?_) _ _).trans (by simp))
  split
  · simp
  · split
    · rfl
    · split <;> simp

@[simp] theorem State.loseDieReqs_ledger (s : State) (sd : Fin 2) : (s.loseDieReqs sd).ledger = s.ledger := (rfl)
@[simp] theorem State.loseDieLines_ledger (s : State) (sd : Fin 2) : (s.loseDieLines sd).ledger = s.ledger := (rfl)

/-! ### Service cores (R22, R24, R25) -/

@[simp] theorem State.restCluster_ledger (s : State) (k : Nat) : (s.restCluster k).ledger = s.ledger := by simp [State.restCluster]
@[simp] theorem State.coreIn_ledger (s : State) (spare failed : Nat) : (s.coreIn spare failed).ledger = s.ledger := by simp [State.coreIn]
@[simp] theorem State.clusterUp_ledger (s : State) (dom : Nat) : (s.clusterUp dom).ledger = s.ledger := by simp [State.clusterUp]

@[simp] theorem State.fenceCore_ledger (s : State) (n : Nat) : (s.fenceCore n).ledger = s.ledger := by
  unfold State.fenceCore; dsimp only; (repeat' split) <;> simp

@[simp] theorem State.clusterFailed_ledger (s : State) (k : Nat) : (s.clusterFailed k).ledger = s.ledger := by simp [State.clusterFailed]

@[simp] theorem State.fenceDie_ledger (s : State) (d : Nat) (mode : DieMode) (code detail : Nat) : (s.fenceDie d mode code detail).ledger = s.ledger := by
  simp [State.fenceDie]

@[simp] theorem State.loseHubMem_ledger (s : State) (h : Nat) : (s.loseHubMem h).ledger = s.ledger := (rfl)
@[simp] theorem State.loseHubDomains_ledger (s : State) (h : Nat) : (s.loseHubDomains h).ledger = s.ledger := by simp [State.loseHubDomains]

@[simp] theorem State.moveBuilders_ledger (s : State) (h : Nat) : (s.moveBuilders h).ledger = s.ledger := by
  unfold State.moveBuilders
  dsimp only
  refine (foldl_ledger _ (fun t p => ?_) _ _).trans (foldl_ledger _ (fun t c => ?_) _ _)
  · split <;> simp
  · split
    · cases t.cmd c.ref <;> simp
    · rfl

@[simp] theorem State.loseHub_ledger (s : State) (h : Nat) : (s.loseHub h).ledger = s.ledger := by simp [State.loseHub]

/-! ### Links that go down (R231, R232) -/

@[simp] theorem State.reroute_ledger (s : State) : s.reroute.ledger = s.ledger := by simp [State.reroute]
@[simp] theorem State.setLaneGroup_ledger (s : State) (l : Nat) (dir : Fin 2) (g : Fin 80) (x : LaneGroup) : (s.setLaneGroup l dir g x).ledger = s.ledger := (rfl)

@[simp] theorem State.resend_ledger (s : State) (l : Nat) : (s.resend l).ledger = s.ledger := by
  unfold State.resend
  split
  · rfl
  · refine foldl_ledger _ (fun t dir => (foldl_ledger _ (fun u g => ?_) _ _).trans ?_) _ s <;> rfl

@[simp] theorem State.linkDown_ledger (s : State) (l code detail : Nat) : (s.linkDown l code detail).ledger = s.ledger := by
  unfold State.linkDown
  dsimp only
  split
  · rfl
  · split
    · split <;> simp
    · rw [State.resend_ledger, State.reroute_ledger]
      refine (foldl_ledger _ (fun t h => ?_) _ _).trans ?_
      · simp
      · split <;> simp

/-! ### Regulators (R159, R160) -/

@[simp] theorem State.makeRegs_ledger (s : State) (p : Fin 16) : (s.makeRegs p).ledger = s.ledger := by simp [State.makeRegs]
@[simp] theorem State.dropRegs_ledger (s : State) (p : Fin 16) : (s.dropRegs p).ledger = s.ledger := (rfl)

@[simp] theorem State.boundRegs_ledger (s : State) (p : Fin 16) : (s.boundRegs p).ledger = s.ledger := by
  unfold State.boundRegs
  refine foldl_ledger _ (fun t a => ?_) _ _
  split <;> simp

/-! ### Plots (R144-R148, R376) -/

@[simp] theorem State.zeroPlot_ledger (s : State) (plot : Nat) : (s.zeroPlot plot).ledger = s.ledger := (rfl)
@[simp] theorem State.dropPlotLines_ledger (s : State) (plot : Nat) : (s.dropPlotLines plot).ledger = s.ledger := (rfl)
@[simp] theorem State.grantPlot_ledger (s : State) (p : Fin 16) (plot : Nat) : (s.grantPlot p plot).ledger = s.ledger := (rfl)
@[simp] theorem State.releasePlot_ledger (s : State) (plot : Nat) : (s.releasePlot plot).2.ledger = s.ledger := by simp [State.releasePlot]
@[simp] theorem State.releasePlots_ledger (s : State) (p : Fin 16) (plots : List Nat) : (s.releasePlots p plots).ledger = s.ledger := by simp [State.releasePlots]

/-! ### Loans (R292, R293) -/

@[simp] theorem State.postLoan_ledger (s : State) (event la : Nat) (lender borrower : Fin 16) : (s.postLoan event la lender borrower).ledger = s.ledger := by
  simp [State.postLoan]

@[simp] theorem State.reclaim_ledger (s : State) (la : Nat) : (s.reclaim la).ledger = s.ledger := by
  unfold State.reclaim; (repeat' split) <;> simp

@[simp] theorem State.endLoan_ledger (s : State) (p : Fin 16) : (s.endLoan p).ledger = s.ledger := by
  unfold State.endLoan; split <;> simp

/-! ### Arrays and cores (R284, R285) -/

@[simp] theorem State.leaveFloor_ledger (s : State) (p : Fin 16) (las : List Nat) : (s.leaveFloor p las).ledger = s.ledger := by simp [State.leaveFloor]

@[simp] theorem State.killUnsealed_ledger (s : State) (p : Fin 16) (la : Nat) : (s.killUnsealed p la).ledger = s.ledger := by
  unfold State.killUnsealed; (repeat' split) <;> simp

@[simp] theorem State.resetCores_ledger (s : State) (l : List Nat) : (s.resetCores l).ledger = s.ledger := by simp [State.resetCores]

/-! ### Partition actions -/

@[simp] theorem State.newRoot_ledger (s : State) (p : Fin 16) : (s.newRoot p).ledger = s.ledger := (rfl)
@[simp] theorem State.actCreate_ledger (s : State) (p : Fin 16) (a : List Word) : (s.actCreate p a).2.ledger = s.ledger := by simp [State.actCreate]
@[simp] theorem State.actDestroy_ledger (s : State) (p : Fin 16) : (s.actDestroy p).2.ledger = s.ledger := by simp [State.actDestroy]
@[simp] theorem State.closeStreamsOf_ledger (s : State) (p : Fin 16) : (s.closeStreamsOf p).ledger = s.ledger := (rfl)
@[simp] theorem State.forgetMem_ledger (s : State) (p : Fin 16) : (s.forgetMem p).ledger = s.ledger := (rfl)
@[simp] theorem State.finishDestroy_ledger (s : State) (p : Fin 16) : (s.finishDestroy p).ledger = s.ledger := by simp [State.finishDestroy]

@[simp] theorem State.actGrantArrays_ledger (s : State) (p : Fin 16) (first n : Nat) : (s.actGrantArrays p first n).2.ledger = s.ledger := by
  unfold State.actGrantArrays; split <;> simp

@[simp] theorem State.actReleaseArrays_ledger (s : State) (p : Fin 16) (first n : Nat) : (s.actReleaseArrays p first n).2.ledger = s.ledger := by
  simp [State.actReleaseArrays]

@[simp] theorem State.actGrantPlots_ledger (s : State) (p : Fin 16) (first n : Nat) : (s.actGrantPlots p first n).2.ledger = s.ledger := by
  unfold State.actGrantPlots; split <;> simp

@[simp] theorem State.actReleasePlots_ledger (s : State) (p : Fin 16) (first n : Nat) : (s.actReleasePlots p first n).2.ledger = s.ledger := by
  simp [State.actReleasePlots]

@[simp] theorem State.actGrantCores_ledger (s : State) (p : Fin 16) (n : Nat) : (s.actGrantCores p n).2.ledger = s.ledger := by simp [State.actGrantCores]
@[simp] theorem State.actReleaseCores_ledger (s : State) (p : Fin 16) (n : Nat) : (s.actReleaseCores p n).2.ledger = s.ledger := by simp [State.actReleaseCores]
@[simp] theorem State.actSetBandwidth_ledger (s : State) (p : Fin 16) (g c : Nat) : (s.actSetBandwidth p g c).2.ledger = s.ledger := by simp [State.actSetBandwidth]

@[simp] theorem State.actSetLimits_ledger (s : State) (p : Fin 16) (sl pl dl ri : Nat) : (s.actSetLimits p sl pl dl ri).2.ledger = s.ledger := by
  simp [State.actSetLimits]

@[simp] theorem State.setQueueState_ledger (s : State) (p : Fin 16) (q : Fin 64) (v : QueueState) : (s.setQueueState p q v).ledger = s.ledger := (rfl)

@[simp] theorem State.actSetQueue_ledger (s : State) (p : Fin 16) (q : Fin 64) (suspend : Bool) (slice : Nat) :
    (s.actSetQueue p q suspend slice).2.ledger = s.ledger := by
  unfold State.actSetQueue
  dsimp only
  split
  · rfl
  · split
    · simp
    · refine (foldl_ledger _ (fun t c => ?_) _ _).trans (State.setQueueState_ledger ..)
      split
      · split <;> simp
      · rfl

@[simp] theorem State.actSetLoan_ledger (s : State) (p : Fin 16) (first n : Nat) (b : Fin 16) (idle : Nat) : (s.actSetLoan p first n b idle).2.ledger = s.ledger := by
  simp [State.actSetLoan]

@[simp] theorem State.actSetCredits_ledger (s : State) (p : Fin 16) (f : List Nat) : (s.actSetCredits p f).2.ledger = s.ledger := by simp [State.actSetCredits]

@[simp] theorem State.ringRead_ledger (s : State) (c : Ctx) (a : Nat) (host : Bool) (b : Option RingBlock) : (s.ringRead c a host b).2.ledger = s.ledger := by
  unfold State.ringRead
  repeat' split
  · rfl
  · rfl
  · rfl
  · next h => simp [ledger_of_snd h]
  · next h => simp [ledger_of_snd h]
  · next h => simp [ledger_of_snd h]

@[simp] theorem State.actSetRings_ledger (s : State) (p : Fin 16) (a : List Word) (b : Option RingBlock × Option RingBlock) :
    (s.actSetRings p a b).2.ledger = s.ledger := by
  unfold State.actSetRings; dsimp only; (repeat' split) <;> simp

@[simp] theorem State.actSetServing_ledger (s : State) (p : Fin 16) (a : List Word) : (s.actSetServing p a).2.ledger = s.ledger := by simp [State.actSetServing]

@[simp] theorem State.partCode_ledger (s : State) (code : Nat) (p : Fin 16) (a : List Word) (b : Option RingBlock × Option RingBlock) :
    (s.partCode code p a b).2.ledger = s.ledger := by
  unfold State.partCode; split <;> simp

@[simp] theorem State.partChecked_ledger (s : State) (host : Bool) (code : Nat) (p : Fin 16) (a : List Word) (b : Option RingBlock × Option RingBlock) :
    (s.partChecked host code p a b).2.ledger = s.ledger := by
  simp [State.partChecked]

/-! ### Channel actions (R245, R471) -/

@[simp] theorem State.chanWrite_ledger (s : State) (host : Bool) (ch : Fin 3072) (e : BitVec 512) : (s.chanWrite host ch e).2.ledger = s.ledger := by
  simp [State.chanWrite]

@[simp] theorem State.chanChecked_ledger (s : State) (who : Caller) (code : Nat) (chan : Nat) (data : List Word) :
    (s.chanChecked who code chan data).2.ledger = s.ledger := by
  unfold State.chanChecked; (repeat' split) <;> simp

/-! ### The order of actions (R282, R452-R454) -/

@[simp] theorem State.setRegs_ledger (s : State) (n : Fin 2) (r : ActionRegs) : (s.setRegs n r).ledger = s.ledger := by simp [State.setRegs]

@[simp] theorem State.svcRead_ledger (s : State) (p : Fin 16) (va n : Nat) : (s.svcRead p va n).2.ledger = s.ledger := by
  unfold State.svcRead
  dsimp only
  split <;> next h => simp [ledger_of_snd h]

@[simp] theorem State.svcWrite_ledger (s : State) (p : Fin 16) (va : Nat) (b : List Byte) : (s.svcWrite p va b).2.ledger = s.ledger := by
  unfold State.svcWrite
  split <;> next h => simp [ledger_of_snd h]

@[simp] theorem State.callBlock_ledger (s : State) (p : Fin 16) (va : Word) (there : HostRead) : (s.callBlock p va there).2.ledger = s.ledger := by
  unfold State.callBlock
  dsimp only
  split <;> next h => simp [ledger_of_snd h]

@[simp] theorem State.callWrite_ledger (s : State) (p : Fin 16) (va : Word) (l : List Word) : (s.callWrite p va l).ledger = s.ledger := by simp [State.callWrite]
@[simp] theorem State.callReturn_ledger (s : State) (r : Nat) : (s.callReturn r).ledger = s.ledger := (rfl)

@[simp] theorem State.partOut_ledger (s : State) (who : Caller) (code : Nat) (result : Nat) : (s.partOut who code result).ledger = s.ledger := by
  unfold State.partOut; split <;> simp

@[simp] theorem State.chanOut_ledger (s : State) (who : Caller) (code ch : Nat) (result : Nat) : (s.chanOut who code ch result).ledger = s.ledger := by
  unfold State.chanOut; split <;> simp

@[simp] theorem State.markBusy_ledger (s : State) (chan : Bool) (x : Caller) : (s.markBusy chan x).ledger = s.ledger := by
  unfold State.markBusy; split <;> simp

@[simp] theorem State.performOn_ledger (s : State) (chan : Bool) (code : Nat) (who : Caller) (b : Option RingBlock × Option RingBlock) (ch : Nat) (args : List Word)
    (p : Fin 16) (discard : Bool) :
    (s.performOn chan code who b ch args p discard).ledger = s.ledger := by
  unfold State.performOn; dsimp only; split <;> simp

@[simp] theorem State.perform_ledger (s : State) (chan : Bool) (code : Nat) (who : Caller) (b : Option RingBlock × Option RingBlock) (x : Nat × List Word)
    (q : Fin 16) (discard : Bool) :
    (s.perform chan code who b x q discard).ledger = s.ledger := by
  unfold State.perform
  dsimp only
  repeat' split
  · simp
  · simp
  · next h _ => simp [ledger_of_snd h]
  · next h _ => simp [ledger_of_snd h]
  · next h => simp [ledger_of_snd h]

@[simp] theorem State.actDone_ledger (s : State) (x : PendAction) (chan : Bool) : (s.actDone x chan).ledger = s.ledger := by
  unfold State.actDone; split <;> simp

@[simp] theorem State.actFinish_ledger (s : State) (x : PendAction) : (s.actFinish x).ledger = s.ledger := by
  unfold State.actFinish; split <;> simp

@[simp] theorem State.finishFuel_ledger (s : State) (x : Nat) : (s.finishFuel x).ledger = s.ledger := by
  induction x generalizing s with
  | zero => rfl
  | succ n ih =>
    unfold State.finishFuel
    split
    · rfl
    · split
      · rw [ih, State.actFinish_ledger]; rfl
      · rfl

@[simp] theorem State.finishActions_ledger (s : State) : s.finishActions.ledger = s.ledger := by simp [State.finishActions]

@[simp] theorem State.act_ledger (s : State) (chan : Bool) (code : Nat) (who : Caller) (b : Option RingBlock × Option RingBlock) :
    (s.act chan code who b).ledger = s.ledger := by
  unfold State.act; split <;> simp

@[simp] theorem State.settleStop_ledger (s : State) (ch : Fin 3072) : (s.settleStop ch).ledger = s.ledger := by
  unfold State.settleStop; dsimp only; (repeat' split) <;> simp

@[simp] theorem execDomainStable_passes (dom : Fin 507) (ok : Bool) (s : State) : Passes s (execDomainStable dom ok s) := by simp [execDomainStable]

end Sys2Proof.Machine
end


section

/-! SUPPORT. Every step: error controllers, links, power, bring-up and security services leave the queue and the fuses (14 R391-R399,
13 R365-R386, 15 R417-R446); the commands that burn fuses are treated with the statements. -/

namespace Sys2Proof.Machine

@[simp] theorem State.errIrq_ledger (s : State) (port : Fin 2) : (s.errIrq port).ledger = s.ledger := by simp [State.errIrq]

@[simp] theorem State.hostRing_ledger (s : State) (port : Fin 2) (sev : Nat) (record : List Byte) (cons : Option (BitVec 32)) :
    (s.hostRing port sev record cons).ledger = s.ledger := by
  unfold State.hostRing; dsimp only; (repeat' split) <;> simp

@[simp] theorem State.notice_ledger (s : State) (m : Merged) (final : Bool) (serial : BitVec 32) (p : Fin 16) : (s.notice m final serial p).ledger = s.ledger := by
  simp [State.notice]

@[simp] theorem State.noticeAll_ledger (s : State) (m : Merged) (final : Bool) (serial : BitVec 32) : (s.noticeAll m final serial).ledger = s.ledger := by
  simp [State.noticeAll]

@[simp] theorem State.makeRecord_ledger (s : State) (m : Merged) (final : Bool) (cons : Option (BitVec 64)) : (s.makeRecord m final cons).ledger = s.ledger := by
  simp [State.makeRecord]

@[simp] theorem execErrorReport_passes (region : Fin 23) (r : Report) (s : State) : Passes s (execErrorReport region r s) := by
  unfold execErrorReport; split <;> simp

@[simp] theorem execMergeWindowClose_passes (region : Fin 23) (ty unit : BitVec 16) (s : State) : Passes s (execMergeWindowClose region ty unit s) := by
  unfold execMergeWindowClose; dsimp only; split <;> simp

@[simp] theorem State.collect_ledger (s : State) (m : Merged) : (s.collect m).ledger = s.ledger := by
  unfold State.collect; split <;> simp

@[simp] theorem execCollectorReport_passes (s : State) : Passes s (execCollectorReport s) := by
  unfold execCollectorReport; split <;> simp

@[simp] theorem execCollectorWindowEnd_passes (unit : BitVec 16) (consumers : BitVec 64) (s : State) : Passes s (execCollectorWindowEnd unit consumers s) := by
  unfold execCollectorWindowEnd; split <;> simp

@[simp] theorem State.retireFull_ledger (s : State) (consumers : BitVec 64) : (s.retireFull consumers).ledger = s.ledger := by
  unfold State.retireFull; split <;> simp

@[simp] theorem execCollectorEntryRetire_passes (unit : BitVec 16) (consumers : BitVec 64) (s : State) : Passes s (execCollectorEntryRetire unit consumers s) := by
  unfold execCollectorEntryRetire; split <;> simp

@[simp] theorem State.inject_ledger (s : State) (v : Word) : (s.inject v).ledger = s.ledger := by simp [State.inject]
@[simp] theorem execErrInject_passes (port : Fin 2) (v : Word) (s : State) : Passes s (execErrInject port v s) := by simp [execErrInject]

@[simp] theorem State.writeRing_ledger (s : State) (port : Fin 2) (v : Word) (host : Option RingBlock) : (s.writeRing port v host).ledger = s.ledger := by
  simp [State.writeRing]

@[simp] theorem execErrRingEnable_passes (port : Fin 2) (v : Word) (host : Option RingBlock) (s : State) : Passes s (execErrRingEnable port v host s) := by
  simp [execErrRingEnable]

@[simp] theorem execErrorRingHoldoffExpired_passes (port : Fin 2) (s : State) : Passes s (execErrorRingHoldoffExpired port s) := by simp [execErrorRingHoldoffExpired]
@[simp] theorem execArrayFenced_passes (slot : Fin 416) (cause : Fin 5) (s : State) : Passes s (execArrayFenced slot cause s) := by simp [execArrayFenced]

@[simp] theorem execSpareSelfTestComplete_passes (slot : Fin 416) (pass : Bool) (s : State) : Passes s (execSpareSelfTestComplete slot pass s) := by
  unfold execSpareSelfTestComplete; (repeat' split) <;> simp

@[simp] theorem State.setLinkIn_ledger (s : State) (l : Nat) (dir : Fin 2) (x : LinkIn) : (s.setLinkIn l dir x).ledger = s.ledger := (rfl)

@[simp] theorem State.crossed_ledger (s : State) (t : Transit) : (s.crossed t).2.ledger = s.ledger := by
  unfold State.crossed; split <;> simp

@[simp] theorem State.handOn_ledger (s : State) (l : Fin 22) (dir : Fin 2) (f : Flit) : (s.handOn l dir f).2.ledger = s.ledger := by
  unfold State.handOn; split <;> simp

@[simp] theorem State.intake_ledger (x : Nat) (y : Fin 22) (z : Fin 2) (u : Fin 80) (v : Flit) (s : State) : (s.intake x y z u v).ledger = s.ledger := by
  induction x generalizing y z u v s with
  | zero => rfl
  | succ n ih =>
    unfold State.intake
    dsimp only
    split
    · rfl
    · refine (foldl_ledger _ (fun t f => ?_) _ _).trans ?_
      · have went := State.handOn_ledger t y z f
        split
        · next h => rw [ih, ← went, h]
        · next h => rw [← went, h]
      · simp

theorem State.transitNext_ledger {s t : State} {l : Fin 22} {dir : Fin 2} {f : Flit} (h : s.transitNext l dir f = some t) : t.ledger = s.ledger := by
  unfold State.transitNext at h
  split at h
  · split at h
    · cases h; rfl
    · cases h
  · cases h; rfl

@[simp] theorem execFlitReceive_passes (l : Fin 22) (dir : Fin 2) (g : Fin 80) (rx : FlitRx) (s : State) : Passes s (execFlitReceive l dir g rx s) := by
  unfold execFlitReceive
  dsimp only
  split
  · simp
  · split
    · next t _ h =>
      have sent : t.ledger = s.ledger := by
        split at h
        · cases h; rfl
        · exact State.transitNext_ledger h
      split <;> simp [sent]
    · simp

@[simp] theorem execD2dReplayTimeout_passes (l : Fin 22) (dir : Fin 2) (g : Fin 80) (s : State) : Passes s (execD2dReplayTimeout l dir g s) := by
  simp [execD2dReplayTimeout]

@[simp] theorem execD2dWireFailed_passes (l : Fin 22) (g : Fin 80) (cause : WireCause) (s : State) : Passes s (execD2dWireFailed l g cause s) := by
  simp [execD2dWireFailed]

@[simp] theorem execLinkTrainingStep_passes (l : Fin 22) (fail0 fail1 : BitVec 80) (s : State) : Passes s (execLinkTrainingStep l fail0 fail1 s) := by
  unfold execLinkTrainingStep; split <;> simp

@[simp] theorem State.compareMasks_ledger (s : State) (l : Nat) (m0 m1 : BitVec 80) : (s.compareMasks l m0 m1).ledger = s.ledger := by simp [State.compareMasks]

@[simp] theorem execPassMaskCompare_passes (l : Fin 22) (s : State) : Passes s (execPassMaskCompare l s) := by
  unfold execPassMaskCompare; split <;> simp

@[simp] theorem execDieLost_passes (d : Fin 10) (clockLost resetSeen : Bool) (s : State) : Passes s (execDieLost d clockLost resetSeen s) := by simp [execDieLost]
@[simp] theorem State.trainAfresh_ledger (s : State) (ls : List Nat) : (s.trainAfresh ls).ledger = s.ledger := by simp [State.trainAfresh]

@[simp] theorem execPartialReset_passes (what : ResetWhat) (s : State) : Passes s (execPartialReset what s) := by
  unfold execPartialReset; dsimp only; (repeat' split) <;> simp

@[simp] theorem State.rebindDie_ledger (s : State) (d : Nat) (healthy : BitVec 80) : (s.rebindDie d healthy).ledger = s.ledger := by
  unfold State.rebindDie
  dsimp only
  refine (foldl_ledger _ (fun t i => ?_) _ _).trans ((foldl_ledger _ (fun t i => ?_) _ _).trans (foldl_ledger _ (fun t i => ?_) _ _))
  · simp
  · split
    · rfl
    · split <;> simp
  · simp

@[simp] theorem State.returnCores_ledger (s : State) (sd : Nat) (healthy : BitVec 80) : (s.returnCores sd healthy).ledger = s.ledger := by simp [State.returnCores]

@[simp] theorem execSelfTestComplete_passes (d : Fin 10) (healthy : BitVec 80) (s : State) : Passes s (execSelfTestComplete d healthy s) := by
  unfold execSelfTestComplete; split <;> simp

@[simp] theorem execHubLost_passes (h : Fin 4) (s : State) : Passes s (execHubLost h s) := by simp [execHubLost]
@[simp] theorem State.powerOff_ledger (s : State) (st : Stage) : (s.powerOff st).ledger = s.ledger := (rfl)
@[simp] theorem State.startRails_ledger (s : State) : s.startRails.ledger = s.ledger := (rfl)
@[simp] theorem execInputPresent_passes (mv : BitVec 16) (s : State) : Passes s (execInputPresent mv s) := by simp [execInputPresent]
@[simp] theorem execSoftStartComplete_passes (s : State) : Passes s (execSoftStartComplete s) := by simp [execSoftStartComplete]
@[simp] theorem execInputOutOfRange_passes (mv : BitVec 16) (s : State) : Passes s (execInputOutOfRange mv s) := by simp [execInputOutOfRange]
@[simp] theorem execPowerInputFault_passes (mv : BitVec 16) (s : State) : Passes s (execPowerInputFault mv s) := by simp [execPowerInputFault]
@[simp] theorem execPwrEnAsserted_passes (s : State) : Passes s (execPwrEnAsserted s) := by simp [execPwrEnAsserted]

@[simp] theorem execPwrEnDeasserted_passes (s : State) : Passes s (execPwrEnDeasserted s) := by
  unfold execPwrEnDeasserted; dsimp only; split <;> simp

@[simp] theorem execRailStepComplete_passes (s : State) : Passes s (execRailStepComplete s) := by
  unfold execRailStepComplete; split <;> simp

@[simp] theorem execRailFault_passes (rail : Fin 9) (s : State) : Passes s (execRailFault rail s) := by simp [execRailFault]
@[simp] theorem execRailDescentComplete_passes (s : State) : Passes s (execRailDescentComplete s) := by simp [execRailDescentComplete]
@[simp] theorem execPhaseFailed_passes (rail : Fin 9) (phase : Fin 38) (s : State) : Passes s (execPhaseFailed rail phase s) := by simp [execPhaseFailed]
@[simp] theorem execPllUnlock_passes (s : State) : Passes s (execPllUnlock s) := by simp [execPllUnlock]
@[simp] theorem execDroopStretch_passes (_dom : DroopDomain) (s : State) : Passes s (execDroopStretch _dom s) := by simp [execDroopStretch]
@[simp] theorem State.powerDue_ledger (s : State) : s.powerDue.ledger = s.ledger := by simp [State.powerDue]
@[simp] theorem State.alertIf_ledger (s : State) (c : Bool) : (s.alertIf c).ledger = s.ledger := by simp [State.alertIf]
@[simp] theorem State.rateChanged_ledger (s : State) (before : Nat) : (s.rateChanged before).ledger = s.ledger := by simp [State.rateChanged]
@[simp] theorem execCapLoopPeriod_passes (watts mv tenMa : BitVec 16) (s : State) : Passes s (execCapLoopPeriod watts mv tenMa s) := by simp [execCapLoopPeriod]
@[simp] theorem execInputOverpower_passes (s : State) : Passes s (execInputOverpower s) := by simp [execInputOverpower]
@[simp] theorem State.moveStep_ledger (s : State) (g : Nat) : (s.moveStep g).ledger = s.ledger := by simp [State.moveStep]
@[simp] theorem State.takeReading_ledger (s : State) (r : Reading) : (s.takeReading r).ledger = s.ledger := by simp [State.takeReading]
@[simp] theorem execSensorRead_passes (readings : List Reading) (s : State) : Passes s (execSensorRead readings s) := by simp [execSensorRead]
@[simp] theorem execThermalTrip_passes (sensor : BitVec 12) (s : State) : Passes s (execThermalTrip sensor s) := by simp [execThermalTrip]
@[simp] theorem execPowerState_passes (p : Fin 16) (s : State) : Passes s (execPowerState p s) := by simp [execPowerState]

@[simp] theorem State.chargePeriod_ledger (s : State) (cores : List (Fin 160 × Nat)) (rest : Nat) : (s.chargePeriod cores rest).ledger = s.ledger := by
  unfold State.chargePeriod
  refine (State.charge_ledger ..).trans ((foldl_ledger _ (fun t x => ?_) _ _).trans (foldl_ledger _ (fun t la => ?_) _ _))
  · simp
  · split
    · rfl
    · split
      · simp
      · split <;> simp

@[simp] theorem execEnergyCalibration_passes (cores : List (Fin 160 × Nat)) (rest : Nat) (s : State) : Passes s (execEnergyCalibration cores rest s) := by
  simp [execEnergyCalibration]

@[simp] theorem execDomainSwitchOn_passes (s : State) : Passes s (execDomainSwitchOn s) := by
  unfold execDomainSwitchOn; split <;> simp

@[simp] theorem execIdleArrayPowerOff_passes (slot : Fin 416) (s : State) : Passes s (execIdleArrayPowerOff slot s) := by
  unfold execIdleArrayPowerOff; split <;> simp

@[simp] theorem execRootPllLock_passes (modid : BitVec 12) (s : State) : Passes s (execRootPllLock modid s) := by simp [execRootPllLock]

/-! ### Security boot (R365-R373) -/

@[simp] theorem State.bootFail_ledger (s : State) (ty : Nat) : (s.bootFail ty).ledger = s.ledger := (rfl)

/-! ### Events 6 to 9 of R445 -/

@[simp] theorem State.barDie_ledger (s : State) (d : Nat) : (s.barDie d).ledger = s.ledger := by simp [State.barDie]
@[simp] theorem State.holdCores_ledger (s : State) : s.holdCores.ledger = s.ledger := by simp [State.holdCores]
@[simp] theorem State.trainDieLinks_ledger (s : State) (ok mismatch : BitVec 22) : (s.trainDieLinks ok mismatch).ledger = s.ledger := by simp [State.trainDieLinks]
@[simp] theorem execDieLinkTraining_passes (ok mismatch : BitVec 22) (s : State) : Passes s (execDieLinkTraining ok mismatch s) := by simp [execDieLinkTraining]
@[simp] theorem State.trainChannels_ledger (s : State) (channels : BitVec 384) : (s.trainChannels channels).ledger = s.ledger := by simp [State.trainChannels]
@[simp] theorem State.testSlots_ledger (s : State) (slots : BitVec 416) : (s.testSlots slots).ledger = s.ledger := by simp [State.testSlots]

@[simp] theorem State.testCores_ledger (s : State) (cores : BitVec 160) : (s.testCores cores).ledger = s.ledger := by
  unfold State.testCores
  refine foldl_ledger _ (fun t n => ?_) _ s
  dsimp only
  split
  · rfl
  · split
    · simp
    · split <;> simp

@[simp] theorem State.bootDomains_ledger (s : State) : s.bootDomains.ledger = s.ledger := by simp [State.bootDomains]

@[simp] theorem execMemoryTraining_passes (channels : BitVec 384) (slots : BitVec 416) (cores : BitVec 160) (s : State) :
    Passes s (execMemoryTraining channels slots cores s) := by
  by_cases stop : s.pow.stage ≠ .linked ∨ !s.bringing
  · exact ⟨s, if_pos stop, rfl⟩
  · exact ⟨_, if_neg stop, ledger_of_pow ((State.bootDomains_ledger _).trans ((State.testCores_ledger _ cores).trans
      ((State.testSlots_ledger _ slots).trans (s.trainChannels_ledger channels)))) _⟩

@[simp] theorem State.bindRegion_ledger (s : State) (r : Nat) : (s.bindRegion r).ledger = s.ledger := by
  unfold State.bindRegion
  refine foldl_ledger _ (fun t a => ?_) _ _
  simp

@[simp] theorem State.bindSpare_ledger (s : State) (la : Nat) : (s.bindSpare la).ledger = s.ledger := by
  unfold State.bindSpare; (repeat' split) <;> simp

@[simp] theorem execSpareAssignment_passes (s : State) : Passes s (execSpareAssignment s) := by simp [execSpareAssignment]
@[simp] theorem State.bootPT0_ledger (s : State) : s.bootPT0.ledger = s.ledger := by simp [State.bootPT0]
@[simp] theorem State.readyPort_ledger (s : State) (n : Fin 2) : (s.readyPort n).ledger = s.ledger := by simp [State.readyPort]
@[simp] theorem execBringupStalled_passes (event : Fin 11) (s : State) : Passes s (execBringupStalled event s) := by simp [execBringupStalled]

/-! ### The management controller (R461) -/

@[simp] theorem execGetStatus_passes (bus : Fin 2) (cmd : Byte) (s : State) : Passes s (execGetStatus bus cmd s) := by simp [execGetStatus]

/-! ### Locked partitions (R377) -/

@[simp] theorem State.lockChannel_ledger (s : State) (ch : Fin 3072) : (s.lockChannel ch).ledger = s.ledger := by simp [State.lockChannel]
@[simp] theorem State.lockWith_ledger (s : State) (p : Fin 16) (r : LockRecord) : (s.lockWith p r).ledger = s.ledger := by simp [State.lockWith]
@[simp] theorem State.secResult_ledger (s : State) (r : Nat) : (s.secResult r).ledger = s.ledger := (rfl)
@[simp] theorem execExtend_passes (p : Fin 16) (d : BitVec 256) (s : State) : Passes s (execExtend p d s) := by simp [execExtend]
@[simp] theorem execLock_passes (p : Fin 16) (accepted : BitVec 256) (flags : Byte) (s : State) : Passes s (execLock p accepted flags s) := by simp [execLock]

/-! ### Reports (R380) -/

@[simp] theorem execReport_passes (p : Fin 16) (nonce : BitVec 256) (user : BitVec 512) (va : BitVec 57) (s : State) : Passes s (execReport p nonce user va s) := by
  unfold execReport; dsimp only; (repeat' split) <;> simp

/-! ### SHARE (R375, R376) -/

@[simp] theorem State.unshare_ledger (s : State) (plot : Nat) (lost : BitVec 16) : (s.unshare plot lost).ledger = s.ledger := (rfl)

@[simp] theorem State.share_ledger (s : State) (p : Fin 16) (first count : Nat) (mask : BitVec 16) : (s.share p first count mask).2.ledger = s.ledger := by
  unfold State.share
  dsimp only
  split
  · rfl
  · refine foldl_ledger _ (fun t q => ?_) _ s
    split <;> simp

/-! ### The mailbox (R383) -/

@[simp] theorem State.mboxDone_ledger (s : State) (n : Fin 2) (result : Nat) (resp : List Byte) : (s.mboxDone n result resp).ledger = s.ledger := by
  simp [State.mboxDone]

@[simp] theorem State.mboxLog_ledger (s : State) (n : Fin 2) (len : Fin 8192) : (s.mboxLog n len).ledger = s.ledger := by simp [State.mboxLog]
@[simp] theorem execGetEventLog_passes (n : Fin 2) (len : Fin 8192) (s : State) : Passes s (execGetEventLog n len s) := by simp [execGetEventLog]

@[simp] theorem State.mboxReport_ledger (s : State) (n : Fin 2) (len : Fin 8192) : (s.mboxReport n len).ledger = s.ledger := by
  unfold State.mboxReport; dsimp only; (repeat' split) <;> simp

@[simp] theorem execGetReport_passes (n : Fin 2) (len : Fin 8192) (s : State) : Passes s (execGetReport n len s) := by simp [execGetReport]
@[simp] theorem State.mboxCerts_ledger (s : State) (n : Fin 2) (len : Fin 8192) : (s.mboxCerts n len).ledger = s.ledger := by simp [State.mboxCerts]
@[simp] theorem execGetCerts_passes (n : Fin 2) (len : Fin 8192) (s : State) : Passes s (execGetCerts n len s) := by simp [execGetCerts]
@[simp] theorem State.shareMailbox_ledger (s : State) (n : Fin 2) (len : Nat) : (s.shareMailbox n len).ledger = s.ledger := by simp [State.shareMailbox]

@[simp] theorem execShare_passes (who : ShareCaller) (s : State) : Passes s (execShare who s) := by
  unfold execShare; split <;> simp

@[simp] theorem execLinkPolicy_passes (p : Fin 16) (va : BitVec 57) (count : Byte) (s : State) : Passes s (execLinkPolicy p va count s) := by
  unfold execLinkPolicy
  repeat' split
  · simp
  · simp
  · next h => simp [ledger_of_snd h]
  · next h => simp [ledger_of_snd h]

/-! ### Streams (R382) -/

@[simp] theorem State.openStreams_ledger (s : State) (o : OpenReq) (q : PeerOpen) : (s.openStreams o q).ledger = s.ledger := by
  unfold State.openStreams
  split <;> exact State.mboxDone_ledger _ _ _ _

@[simp] theorem State.tryOpens_ledger (s : State) : s.tryOpens.ledger = s.ledger := by
  unfold State.tryOpens
  refine foldl_ledger _ (fun t a => ?_) _ _
  split <;> simp

@[simp] theorem State.mboxOpen_ledger (s : State) (n : Fin 2) (len : Fin 8192) : (s.mboxOpen n len).ledger = s.ledger := by simp [State.mboxOpen]
@[simp] theorem execStreamOpen_passes (n : Fin 2) (len : Fin 8192) (s : State) : Passes s (execStreamOpen n len s) := by simp [execStreamOpen]

@[simp] theorem execStreamOpenTimeout_passes (n : Fin 2) (s : State) : Passes s (execStreamOpenTimeout n s) := by
  unfold execStreamOpenTimeout; split <;> simp

@[simp] theorem State.closePair_ledger (s : State) (m : BitVec 12) (p q : Fin 16) : (s.closePair m p q).ledger = s.ledger := (rfl)

@[simp] theorem State.mboxClose_ledger (s : State) (n : Fin 2) (len : Fin 8192) : (s.mboxClose n len).ledger = s.ledger := by
  unfold State.mboxClose; (repeat' split) <;> simp

@[simp] theorem execStreamClose_passes (n : Fin 2) (len : Fin 8192) (s : State) : Passes s (execStreamClose n len s) := by simp [execStreamClose]

@[simp] theorem execPeerStreamMessage_passes (m : PeerMessage) (s : State) : Passes s (execPeerStreamMessage m s) := by
  unfold execPeerStreamMessage; (repeat' split) <;> simp

/-! ### Debug (R385, R386) -/

@[simp] theorem State.putGroup_ledger (s : State) (la : Nat) (g : Group) : (s.putGroup la g).ledger = s.ledger := (rfl)

@[simp] theorem execDebugTransportAccess_passes (a : DebugAccess) (s : State) : Passes s (execDebugTransportAccess a s) := by
  unfold execDebugTransportAccess; dsimp only; (repeat' split) <;> simp

/-! ### Refill tables (R402, R403) -/

@[simp] theorem State.refillEntry_ledger (s : State) (p : Fin 16) (b : List Byte) : (s.refillEntry p b).2.ledger = s.ledger := by
  unfold State.refillEntry
  dsimp only
  split
  · rfl
  · refine foldl_ledger_snd _ (fun x i => ?_) _ _
    split
    · next h => split <;> simp [ledger_of_snd h]
    · next h => simp [ledger_of_snd h]

@[simp] theorem State.refillEntries_ledger (s : State) (p : Fin 16) (b : List Byte) (x : Nat) (y : Nat) : (s.refillEntries p b x y).2.ledger = s.ledger := by
  induction y generalizing s x with
  | zero => rfl
  | succ n ih => simp [State.refillEntries, ih]

@[simp] theorem State.refillRegister_ledger (s : State) (p : Fin 16) (va : Nat) : (s.refillRegister p va).2.ledger = s.ledger := by
  unfold State.refillRegister
  split
  · rfl
  · split
    · next first =>
      dsimp only
      split
      · simp [ledger_of_snd first]
      · split
        · next more => simp [ledger_of_snd more, ledger_of_snd first]
        · next more => simp [ledger_of_snd more, ledger_of_snd first]
    · next first => simp [ledger_of_snd first]

@[simp] theorem State.setRefillRefused_ledger (s : State) (p : Fin 16) (b : Bool) : (s.setRefillRefused p b).ledger = s.ledger := (rfl)
@[simp] theorem State.writeRefill_ledger (s : State) (n : Fin 2) (v : Word) : (s.writeRefill n v).ledger = s.ledger := by simp [State.writeRefill]

@[simp] theorem execRefillTableRegister_passes (who : RefillCaller) (s : State) : Passes s (execRefillTableRegister who s) := by
  unfold execRefillTableRegister; split <;> simp

end Sys2Proof.Machine
end


section

/-! SUPPORT. Every step: memory controllers, coherence and what comes in leave the queue and the fuses (03 R144-R183, 05 R189-R199, 14 R400-R405). -/

namespace Sys2Proof.Machine

/-! ### Refill (R400-R405) -/

@[simp] theorem State.refillKill_ledger (s : State) (c : Cmd) (page : Nat) : (s.refillKill c page).ledger = s.ledger := by
  unfold State.refillKill; split <;> simp

@[simp] theorem State.consumePoison_ledger (s : State) (c : Cmd) (granule : Nat) (reporter : BitVec 16) : (s.consumePoison c granule reporter).ledger = s.ledger := by
  simp [State.consumePoison]

@[simp] theorem State.refillEnd_ledger (s : State) (page : Nat) : (s.refillEnd page).ledger = s.ledger := (rfl)
@[simp] theorem State.refillWrite_ledger (s : State) (page : Nat) (b : List Byte) : (s.refillWrite page b).ledger = s.ledger := by simp [State.refillWrite]

@[simp] theorem execRefillSourceRead_passes (page : Nat) (data : Option (List Byte)) (s : State) : Passes s (execRefillSourceRead page data s) := by
  unfold execRefillSourceRead; split <;> simp

@[simp] theorem State.refillReport_ledger (s : State) (ty page : Nat) (r : Refilling) : (s.refillReport ty page r).ledger = s.ledger := (rfl)

@[simp] theorem execRefillComplete_passes (page : Nat) (s : State) : Passes s (execRefillComplete page s) := by
  unfold execRefillComplete; split <;> simp

@[simp] theorem execRefillFailed_passes (page : Nat) (s : State) : Passes s (execRefillFailed page s) := by
  unfold execRefillFailed; split <;> simp

/-! ### Scrub and channels (R151, R154) -/

@[simp] theorem execScrubRead_passes (u : Fin 384) (granule : BitVec 26) (e : EccEvent) (s : State) : Passes s (execScrubRead u granule e s) := by
  unfold execScrubRead; dsimp only; (repeat' split) <;> simp

@[simp] theorem execChannelOutOfService_passes (u : Fin 384) (s : State) : Passes s (execChannelOutOfService u s) := by simp [execChannelOutOfService]

@[simp] theorem execChurnOperation_passes (u : ChurnTurn) (s : State) : Passes s (execChurnOperation u s) := by
  unfold execChurnOperation; dsimp only; (repeat' split) <;> simp

/-! ### Arbitration and regulators (R156-R161) -/

@[simp] theorem execUrgencyLevelChange_passes (m : RtMaster) (percent : Nat) (s : State) : Passes s (execUrgencyLevelChange m percent s) := by
  simp [execUrgencyLevelChange]

@[simp] theorem State.enterAll_ledger (s : State) (h : Nat) : (s.enterAll h).ledger = s.ledger := by simp [State.enterAll]

@[simp] theorem execRegulatorEpoch_passes (hub : Fin 4) (p : Fin 16) (fill : Nat) (s : State) : Passes s (execRegulatorEpoch hub p fill s) := by
  unfold execRegulatorEpoch; dsimp only; split <;> simp

@[simp] theorem State.takeReq_ledger (s : State) (u : Nat) (r : MemReq) (k : Nat) : (s.takeReq u r k).ledger = s.ledger := (rfl)

/-! ### Sentry records (R134) -/

@[simp] theorem execSentryRecord_passes (s : State) : Passes s (execSentryRecord s) := by
  unfold execSentryRecord; split <;> simp

/-! ### Transactions (R175) -/

@[simp] theorem State.setTxn_ledger (s : State) (line : Nat) (t : Option Txn) : (s.setTxn line t).ledger = s.ledger := (rfl)
@[simp] theorem State.sendSnoop_ledger (s : State) (line : Nat) (d : Fin 2) (q : Snoop) : (s.sendSnoop line d q).ledger = s.ledger := (rfl)

@[simp] theorem State.openTxn_ledger (s : State) (line : Nat) (k : TxnKind) (q : Snoop) (w : Bool × Bool) : (s.openTxn line k q w).ledger = s.ledger := by
  simp [State.openTxn]

@[simp] theorem State.coreFault_ledger (s : State) (d : Fin 2) (line : Nat) (who : CoreAsk) : (s.coreFault d line who).ledger = s.ledger := (rfl)

@[simp] theorem State.coreTake_ledger (s : State) (d : Fin 2) (line : Nat) (p : Fin 16) (who : CoreAsk) : (s.coreTake d line p who).ledger = s.ledger := by
  unfold State.coreTake; split <;> simp

@[simp] theorem State.grantDie_ledger (s : State) (d : Fin 2) (line : Nat) (unique : Bool) : (s.grantDie d line unique).ledger = s.ledger := by
  unfold State.grantDie; split <;> simp

@[simp] theorem State.coreWrite_ledger (s : State) (d : Fin 2) (line : Nat) (who : CoreAsk) (w : Line) (m : BitVec 128) :
    (s.coreWrite d line who w m).ledger = s.ledger := by
  unfold State.coreWrite; split <;> simp

@[simp] theorem State.grantM_ledger (s : State) (d : Fin 2) (line : Nat) (who : CoreAsk) (w : Line) (m : BitVec 128) : (s.grantM d line who w m).ledger = s.ledger := by
  unfold State.grantM; split <;> simp

@[simp] theorem State.endUpg_ledger (s : State) (d : Fin 2) (line : Nat) (p : Fin 16) (who : CoreAsk) (w : Line) (m : BitVec 128) :
    (s.endUpg d line p who w m).ledger = s.ledger := by
  simp [State.endUpg]

/-! ### Non-caching requests of arrays (R190) -/

@[simp] theorem State.setReq_ledger (s : State) (r : HomeReq) : (s.setReq r).ledger = s.ledger := (rfl)
@[simp] theorem State.dropReq_ledger (s : State) (id : Nat) : (s.dropReq id).ledger = s.ledger := (rfl)

@[simp] theorem State.deliver_ledger (s : State) (r : HomeReq) (v : LoadResult) : (s.deliver r v).ledger = s.ledger := by
  unfold State.deliver; (repeat' split) <;> simp

@[simp] theorem State.deliverLine_ledger (s : State) (r : HomeReq) (d : Line) (po : BitVec 2) : (s.deliverLine r d po).ledger = s.ledger := by
  unfold State.deliverLine; (repeat' split) <;> simp

@[simp] theorem State.homePoison_ledger (s : State) (r : HomeReq) (touch : BitVec 2) (po : BitVec 2) : (s.homePoison r touch po).ledger = s.ledger := by
  unfold State.homePoison; dsimp only; split <;> simp

@[simp] theorem State.reqHit_ledger (s : State) (r : HomeReq) : (s.reqHit r).ledger = s.ledger := by
  unfold State.reqHit; split <;> simp

@[simp] theorem State.bringIn_ledger (s : State) (r : HomeReq) (fill : Line × BitVec 2) : (s.bringIn r fill).2.ledger = s.ledger := by simp [State.bringIn]

@[simp] theorem State.mergePresent_ledger (s : State) (line : Nat) (d : Line) (m : BitVec 128) : (s.mergePresent line d m).ledger = s.ledger := by
  unfold State.mergePresent; split <;> simp

@[simp] theorem State.homeAtomicOn_ledger (s : State) (r : HomeReq) (d : Line) (po : BitVec 2) (op : AtomicOp) (size : Nat) (lanes : List (Nat × Nat × Word × Word)) :
    (s.homeAtomicOn r d po op size lanes).2.ledger = s.ledger := by
  simp [State.homeAtomicOn]

@[simp] theorem State.homeRedOn_ledger (s : State) (r : HomeReq) (d : Line) (po : BitVec 2) (op : RedOp) (size : Nat) (lanes : List (Nat × Nat × Word)) :
    (s.homeRedOn r d po op size lanes).2.ledger = s.ledger := by
  simp [State.homeRedOn]

@[simp] theorem State.putBack_ledger (s : State) (r : HomeReq) (d : Line) (po : BitVec 2) : (s.putBack r d po).ledger = s.ledger := by
  unfold State.putBack; split <;> simp

@[simp] theorem State.sendChurn_ledger (s : State) (line : Nat) (p : Fin 16) (c : CmdRef) (w : ChurnDo) (off : Nat) (v : Word) :
    (s.sendChurn line p c w off v).ledger = s.ledger := by
  simp [State.sendChurn]

@[simp] theorem State.performReq_ledger (s : State) (r : HomeReq) (fill : Line × BitVec 2) : (s.performReq r fill).ledger = s.ledger := by
  unfold State.performReq
  dsimp only
  split
  · simp
  · simp only [ledger_ite]
    simp
  · split <;> next h => simp [ledger_of_snd h]
  · split
    · split <;> next h => simp [ledger_of_snd h]
    · simp
  · split <;> simp

@[simp] theorem State.stepReq_ledger (s : State) (r : HomeReq) : (s.stepReq r).ledger = s.ledger := by simp [State.stepReq]
@[simp] theorem State.refuseReq_ledger (s : State) (r : HomeReq) : (s.refuseReq r).ledger = s.ledger := by simp [State.refuseReq]
@[simp] theorem State.takeReq'_ledger (s : State) (r : HomeReq) : (s.takeReq' r).ledger = s.ledger := by simp [State.takeReq']

/-! ### What ends a transaction -/

@[simp] theorem State.txnStep_ledger (s : State) (line : Nat) : (s.txnStep line).ledger = s.ledger := by
  unfold State.txnStep; dsimp only; (repeat' split) <;> simp

@[simp] theorem State.txnAnswered_ledger (s : State) (line : Nat) (d : Fin 2) : (s.txnAnswered line d).ledger = s.ledger := by
  unfold State.txnAnswered; split <;> simp

@[simp] theorem State.txnFilled_ledger (s : State) (r : MemReq) (d : Line) (po : BitVec 2) : (s.txnFilled r d po).ledger = s.ledger := by
  unfold State.txnFilled; dsimp only; (repeat' split) <;> simp

/-! ### Requests of the dies (R189, R193-R195) -/

@[simp] theorem State.tagEvent_ledger (s : State) (line : Nat) (e : TagEcc) : (s.tagEvent line e).ledger = s.ledger := by
  unfold State.tagEvent; dsimp only; (repeat' split) <;> simp

@[simp] theorem execRds_passes (d : Fin 2) (line : LineNo) (a : CoreReq) (ecc : TagEcc) (s : State) : Passes s (execRds d line a ecc s) := by
  unfold execRds; dsimp only; (repeat' split) <;> simp

@[simp] theorem execRdu_passes (d : Fin 2) (line : LineNo) (a : CoreReq) (ecc : TagEcc) (s : State) : Passes s (execRdu d line a ecc s) := by
  unfold execRdu; dsimp only; (repeat' split) <;> simp

@[simp] theorem execUpg_passes (d : Fin 2) (line : LineNo) (a : CoreReq) (w : CoreStore) (s : State) : Passes s (execUpg d line a w s) := by
  unfold execUpg; dsimp only; (repeat' split) <;> simp

@[simp] theorem State.evSend_ledger (s : State) (d : Fin 2) (line : Nat) (k : DieLine) : (s.evSend d line k).ledger = s.ledger := (rfl)

@[simp] theorem State.evHome_ledger (s : State) (d : Fin 2) (line : Nat) (e : EvEntry) : (s.evHome d line e).ledger = s.ledger := by
  unfold State.evHome; dsimp only; (repeat' split) <;> simp

@[simp] theorem execEvc_passes (d : Fin 2) (line : LineNo) (st : EvStage) (s : State) : Passes s (execEvc d line st s) := by
  unfold execEvc; dsimp only; (repeat' split) <;> simp

@[simp] theorem execEvd_passes (d : Fin 2) (line : LineNo) (st : EvStage) (w : Option Line) (s : State) : Passes s (execEvd d line st w s) := by
  unfold execEvd; dsimp only; (repeat' split) <;> simp

@[simp] theorem execEvAck_passes (d : Fin 2) (line : LineNo) (s : State) : Passes s (execEvAck d line s) := by simp [execEvAck]

/-! ### Snoops and responses (R191) -/

@[simp] theorem State.answer_ledger (s : State) (d : Fin 2) (line : Nat) (q : Snoop) (w : Option Line) : (s.answer d line q w).ledger = s.ledger := by
  simp [State.answer]

@[simp] theorem execSnpS_passes (d : Fin 2) (line : LineNo) (w : Option Line) (s : State) : Passes s (execSnpS d line w s) := by simp [execSnpS]
@[simp] theorem execSnpCur_passes (d : Fin 2) (line : LineNo) (w : Option Line) (s : State) : Passes s (execSnpCur d line w s) := by simp [execSnpCur]
@[simp] theorem execSnpI_passes (d : Fin 2) (line : LineNo) (w : Option Line) (s : State) : Passes s (execSnpI d line w s) := by simp [execSnpI]
@[simp] theorem execSnpInd_passes (d : Fin 2) (line : LineNo) (w : Option Line) (s : State) : Passes s (execSnpInd d line w s) := by simp [execSnpInd]

@[simp] theorem State.takeArrived_ledger (s : State) (d : Fin 2) (line : Nat) (f : Rsp → Bool) : (s.takeArrived d line f).ledger = s.ledger := by
  unfold State.takeArrived; dsimp only; (repeat' split) <;> simp

/-! ### Stashing (R198, R199) -/

@[simp] theorem State.stashWrite_ledger (s : State) (p : Fin 16) (pa : Nat) (b : List Byte) (target : BitVec 16) (cls : ReqClass := .array) :
    (s.stashWrite p pa b target cls).ledger = s.ledger := by
  unfold State.stashWrite; dsimp only; (repeat' split) <;> simp

@[simp] theorem execStash_passes (p : Fin 16) (pa : BitVec 41) (data : List Byte) (target : BitVec 16) (s : State) : Passes s (execStash p pa data target s) := by
  simp [execStash]

@[simp] theorem execStashPush_passes (d : Fin 2) (line : LineNo) (accept : Bool) (s : State) : Passes s (execStashPush d line accept s) := by
  unfold execStashPush; dsimp only; (repeat' split) <;> simp

/-! ### Sweeps and registers (R144, R177, R183) -/

@[simp] theorem execKeepSweep_passes (slice : Fin 96) (s : State) : Passes s (execKeepSweep slice s) := by simp [execKeepSweep]
@[simp] theorem State.writeWays_ledger (s : State) (port : Fin 2) (v : Word) : (s.writeWays port v).ledger = s.ledger := (rfl)
@[simp] theorem execLlcPartWays_passes (port : Fin 2) (v : Word) (s : State) : Passes s (execLlcPartWays port v s) := by simp [execLlcPartWays]
@[simp] theorem State.writeBands_ledger (s : State) (v : Word) : (s.writeBands v).ledger = s.ledger := (rfl)
@[simp] theorem execMemBandMode_passes (port : Fin 2) (v : Word) (s : State) : Passes s (execMemBandMode port v s) := by simp [execMemBandMode]

/-! ### Apertures (R218, R318, R326, R378) -/

@[simp] theorem State.apertureAt_ledger (s : State) (p : Fin 16) (va : Nat) (write : Bool) : (s.apertureAt p va write).2.ledger = s.ledger := by
  unfold State.apertureAt
  split <;> next h => simp [ledger_of_snd h]

@[simp] theorem State.apertureStore_ledger (s : State) (port : Fin 2) (p : Fin 16) (tlp : TlpHints) (va : Nat) (b : List Byte) :
    (s.apertureStore port p tlp va b).ledger = s.ledger := by
  unfold State.apertureStore
  split <;> next h => simp [ledger_of_snd h]

@[simp] theorem State.apertureStores_ledger (s : State) (port : Fin 2) (p : Fin 16) (tlp : TlpHints) (x : List (Nat × Nat)) (y : List Byte) :
    (s.apertureStores port p tlp x y).ledger = s.ledger := by
  induction x generalizing s y with
  | nil => rfl
  | cons a l ih => simp [State.apertureStores, ih]

@[simp] theorem State.apertureLoad_ledger (s : State) (port : Fin 2) (p : Fin 16) (va n : Nat) : (s.apertureLoad port p va n).2.2.ledger = s.ledger := by
  unfold State.apertureLoad
  dsimp only
  split
  · next h => simp [ledger_of_snd h]
  · next h =>
    split
    · next k => simp [ledger_of_snd k, ledger_of_snd h]
    · next k => simp [ledger_of_snd k, ledger_of_snd h]

@[simp] theorem State.apertureLoads_ledger (s : State) (port : Fin 2) (p : Fin 16) (x : List (Nat × Nat)) : (s.apertureLoads port p x).2.2.ledger = s.ledger := by
  induction x generalizing s with
  | nil => rfl
  | cons a l ih => simp [State.apertureLoads, ih]

@[simp] theorem State.inServe_ledger (s : State) (x : InReq) : (s.inServe x).ledger = s.ledger := by
  unfold State.inServe; split <;> simp

@[simp] theorem State.drainIn_ledger (s : State) : s.drainIn.ledger = s.ledger := by simp [State.drainIn]
@[simp] theorem State.inbound_ledger (s : State) (x : InReq) : (s.inbound x).ledger = s.ledger := by simp [State.inbound]

/-! ### Guest requests (R239, R240) -/

@[simp] theorem State.setGuest_ledger (s : State) (x : GuestState) : (s.setGuest x).ledger = s.ledger := (rfl)
@[simp] theorem State.guestInvalid_ledger (s : State) (parts : BitVec 16) (detail addr : Nat) : (s.guestInvalid parts detail addr).ledger = s.ledger := (rfl)

@[simp] theorem State.guestAt_ledger (s : State) (p : Fin 16) (va : Nat) (write : Bool) : (s.guestAt p va write).2.ledger = s.ledger := by
  unfold State.guestAt
  split
  · rfl
  split
  · rfl
  · next root _ =>
    split
    · rfl
    have walked := State.walk_ledger (walkRead p) (walkRead_ledger p) s p va root 4
    split
    · next h => rwa [h] at walked
    · next h => rwa [h] at walked
    · next h => rwa [h] at walked
    · next h =>
      rw [h] at walked
      split
      · exact walked
      · split <;> exact walked

@[simp] theorem State.guestFail_ledger (s : State) (msg : BitVec 128) (status : Nat) : (s.guestFail msg status).ledger = s.ledger := (rfl)
@[simp] theorem State.guestPoison_ledger (s : State) (p : Fin 16) (g : Nat) : (s.guestPoison p g).ledger = s.ledger := by simp [State.guestPoison]

@[simp] theorem State.guestLoad_ledger (s : State) (p : Fin 16) (msg : BitVec 128) (pa : Nat) : (s.guestLoad p msg pa).ledger = s.ledger := by
  unfold State.guestLoad; dsimp only; split <;> simp

@[simp] theorem State.guestServe_ledger (s : State) (msg : BitVec 128) (data : Line) : (s.guestServe msg data).2.ledger = s.ledger := by
  unfold State.guestServe
  dsimp only
  split <;> next h => simp [ledger_of_snd h]

@[simp] theorem State.guestDrain_ledger (x : Nat) (s : State) : (s.guestDrain x).ledger = s.ledger := by
  induction x generalizing s with
  | zero => rfl
  | succ f ih =>
    unfold State.guestDrain
    split
    · rfl
    · split <;> next served => simp [ih, ledger_of_snd served]

@[simp] theorem State.guestTake_ledger (s : State) (msg : BitVec 128) (data : Line) : (s.guestTake msg data).ledger = s.ledger := by simp [State.guestTake]

/-! ### What ends a transaction (R175) -/

@[simp] theorem State.goOn_ledger (s : State) : s.goOn.ledger = s.ledger := by simp [State.goOn]

@[simp] theorem execChannelRequestServed_passes (u : Fin 384) (ecc : EccPair) (rowHit : Option Nat) (s : State) : Passes s (execChannelRequestServed u ecc rowHit s) := by
  unfold execChannelRequestServed; dsimp only; split <;> simp

@[simp] theorem execRspFwd_passes (d : Fin 2) (line : LineNo) (s : State) : Passes s (execRspFwd d line s) := by simp [execRspFwd]
@[simp] theorem execRspSData_passes (d : Fin 2) (line : LineNo) (s : State) : Passes s (execRspSData d line s) := by simp [execRspSData]
@[simp] theorem execRspIData_passes (d : Fin 2) (line : LineNo) (s : State) : Passes s (execRspIData d line s) := by simp [execRspIData]
@[simp] theorem execRspS_passes (d : Fin 2) (line : LineNo) (s : State) : Passes s (execRspS d line s) := by simp [execRspS]
@[simp] theorem execRspE_passes (d : Fin 2) (line : LineNo) (s : State) : Passes s (execRspE d line s) := by simp [execRspE]
@[simp] theorem execRspI_passes (d : Fin 2) (line : LineNo) (s : State) : Passes s (execRspI d line s) := by simp [execRspI]

end Sys2Proof.Machine
end


section

/-! SUPPORT. Every step: the instructions of an array leave the queue and the fuses (01 R39-R73, 04 R112-R133, 07 R170-R214). -/

namespace Sys2Proof.Machine

/-! ### The array L1 (R170-R172) -/

@[simp] theorem State.onArray_ledger (s : State) (la : Nat) (f : ArrayState → ArrayState) : (s.onArray la f).ledger = s.ledger := (rfl)

/-! ### Acquires and releases (R203-R207, R201) -/

@[simp] theorem State.acquire_ledger (s : State) (la : Nat) (p : Fin 16) (scope : Nat) : (s.acquire la p scope).ledger = s.ledger := by simp [State.acquire]
@[simp] theorem State.afterRelease_ledger (s : State) (c : Cmd) (scope : Nat) : (s.afterRelease c scope).ledger = s.ledger := by simp [State.afterRelease]

/-! ### Parking (R67-R73) -/

@[simp] theorem State.sendPage_ledger (s : State) (port : Fin 2) (fn : Fin 128) : (s.sendPage port fn).ledger = s.ledger := by
  unfold State.sendPage; dsimp only; (repeat' split) <;> simp

@[simp] theorem State.askPage_ledger (s : State) (x : Ctx) (iova : Nat) (write : Bool) (use : PageFor) : (s.askPage x iova write use).2.ledger = s.ledger := by
  simp [State.askPage]

@[simp] theorem State.parkIn_ledger (s : State) (la : Nat) (c : Cmd) (g : Group) (k : Fin 16) (f : ParkFault) (src : ParkSrc) (rec : Option SentryRec) :
    (s.parkIn la c g k f src rec).ledger = s.ledger := by
  unfold State.parkIn
  dsimp only
  repeat' split
  · next h => simp [ledger_of_snd h]
  · next h => simp [ledger_of_snd h]
  · simp
  · next h => simp [ledger_of_snd h]
  · next h => simp [ledger_of_snd h]
  · simp

@[simp] theorem State.park_ledger (s : State) (la : Nat) (c : Cmd) (g : Group) (f : ParkFault) (src : ParkSrc) (rec : Option SentryRec) :
    (s.park la c g f src rec).ledger = s.ledger := by
  unfold State.park; split <;> simp

/-! ### Barriers (R63, R64, R208) -/

@[simp] theorem State.barrierWake_ledger (s : State) (la cohort : Nat) (p : Fin 16) (b : Fin 16) (phase : Nat) :
    (s.barrierWake la cohort p b phase).ledger = s.ledger := by
  simp [State.barrierWake]

@[simp] theorem State.putBarrier_ledger (s : State) (la cohort : Nat) (p : Fin 16) (b : Fin 16) (x : Barrier) : (s.putBarrier la cohort p b x).ledger = s.ledger := by
  unfold State.putBarrier; split <;> simp

@[simp] theorem State.exitThreads_ledger (s : State) (la cohort n : Nat) (p : Fin 16) : (s.exitThreads la cohort n p).ledger = s.ledger := by
  unfold State.exitThreads; split <;> simp

/-! ### The end of a group, a cohort and an occupation (R39, R269) -/

@[simp] theorem State.leaveArray_ledger (s : State) (la : Nat) (c : Cmd) : (s.leaveArray la c).ledger = s.ledger := (rfl)

@[simp] theorem State.tryLeave_ledger (s : State) (la : Nat) : (s.tryLeave la).ledger = s.ledger := by
  unfold State.tryLeave; dsimp only; (repeat' split) <;> simp

@[simp] theorem State.groupDone_ledger (s : State) (la : Nat) (g : Group) : (s.groupDone la g).ledger = s.ledger := by simp [State.groupDone]

@[simp] theorem State.groupTail_ledger (s : State) (la : Nat) (c : Cmd) (g : Group) : (s.groupTail la c g).ledger = s.ledger := by
  unfold State.groupTail; split <;> simp

/-! ### The frame of an instruction -/

@[simp] theorem State.issued_ledger (s : State) (la : Nat) (c : Cmd) (g : Group) : (s.issued la c g).ledger = s.ledger := (rfl)

@[simp] theorem State.settle_ledger (la : Nat) (c : Cmd) (e : Eff) : (State.settle la c e).ledger = e.state.ledger := by
  cases e with
  | ok s g sw => unfold State.settle; dsimp only; split <;> simp
  | _ => simp [State.settle]

@[simp] theorem State.spareColumn_ledger (s : State) (la : Nat) (col : Fin 17) (c : Cmd) : (s.spareColumn la col c).ledger = s.ledger := by
  unfold State.spareColumn; dsimp only; split <;> simp

@[simp] theorem State.cellEvent_ledger (s : State) (la : Nat) (c : Cmd) (e : CellEvent) : (s.cellEvent la c e).2.ledger = s.ledger := by
  unfold State.cellEvent; split <;> simp

@[simp] theorem State.sramEvent_ledger (s : State) (la : Nat) (c : Cmd) (e : SramEvent) : (s.sramEvent la c e).2.ledger = s.ledger := by
  unfold State.sramEvent; (repeat' split) <;> simp

@[simp] theorem State.fetchLine_ledger (s : State) (la : Nat) (c : Cmd) (pc : Word) : (s.fetchLine la c pc).ledger = s.ledger := by
  unfold State.fetchLine
  split <;> next h => simp [ledger_of_snd h]

@[simp] theorem State.arrayPoison_ledger (s : State) (la : Nat) (c : Cmd) (granule : Nat) : (s.arrayPoison la c granule).2.ledger = s.ledger := by
  simp [State.arrayPoison]

@[simp] theorem State.fetchFault_ledger (s : State) (la : Nat) (c : Cmd) (g : Group) (k : ParkClass) : (s.fetchFault la c g k).ledger = s.ledger := by
  unfold State.fetchFault
  dsimp only
  repeat' split
  · simp
  · next h _ => simp [ledger_of_snd h]
  · next h _ => simp [ledger_of_snd h]
  · next h _ => simp [ledger_of_snd h]
  · next h _ => simp [ledger_of_snd h]
  · next h => simp [ledger_of_snd h]

@[simp] theorem State.issue_ledger (s : State) (i : Issue) (legal : Cmd → Bool) (regs : List Nat) (run : Run → State → Group → Eff)
    (keeps : ∀ r t g, (run r t g).state.ledger = t.ledger) : (s.issue i legal regs run).ledger = s.ledger := by
  unfold State.issue
  split
  · rfl
  · dsimp only
    split
    · simp
    split
    · simp
    split
    case h_5 => split <;> simp [keeps]
    all_goals simp

@[simp] theorem State.vector_ledger (s : State) (i : Issue) (legal : Cmd → Bool) (regs : List Nat) (f : Run → Group → Group) :
    (s.vector i legal regs f).ledger = s.ledger := by
  simp [State.vector]

/-! ### Results that the sentry watches (R130-R133) -/

@[simp] theorem State.sentryFired_ledger (s : State) (la : Nat) : (s.sentryFired la).ledger = s.ledger := (rfl)
@[simp] theorem State.countNum_ledger (s : State) (la : Nat) (n : NumCounts) : (s.countNum la n).ledger = s.ledger := (rfl)

@[simp] theorem State.watched_ledger (s : State) (r : Run) (g0 g : Group) (opClass fa fb fo : Nat) (causes : List (Nat × Nat)) :
    (s.watched r g0 g opClass fa fb fo causes).state.ledger = s.ledger := by
  unfold State.watched; dsimp only; split <;> simp

/-! ### Rows of the issue machinery -/

@[simp] theorem execPathQuantumSwitch_passes (r : GroupRef) (s : State) : Passes s (execPathQuantumSwitch r s) := by
  unfold execPathQuantumSwitch; split <;> simp

@[simp] theorem execParkSlotGranted_passes (la : Fin 384) (s : State) : Passes s (execParkSlotGranted la s) := by
  unfold execParkSlotGranted; dsimp only; (repeat' split) <;> simp

@[simp] theorem State.freePark_ledger (s : State) (la : Nat) (k : Fin 16) : (s.freePark la k).ledger = s.ledger := by
  unfold State.freePark; split <;> simp

@[simp] theorem State.parkExpire_ledger (s : State) (c : Cmd) (la : Nat) (cls : ParkClass) : (s.parkExpire c la cls).ledger = s.ledger := by
  unfold State.parkExpire; (repeat' split) <;> simp

@[simp] theorem execParkLimitExpired_passes (la : Fin 384) (w : ParkRef) (s : State) : Passes s (execParkLimitExpired la w s) := by
  unfold execParkLimitExpired; (repeat' split) <;> simp

@[simp] theorem execBarrierDiverged_passes (la : Fin 384) (cohort : Nat) (s : State) : Passes s (execBarrierDiverged la cohort s) := by
  unfold execBarrierDiverged; dsimp only; split <;> simp

/-! ### Integers (R472) -/

@[simp] theorem execIntegerOp_passes (i : Issue) (op : BitVec 8) (ops : BitVec 48) (s : State) : Passes s (execIntegerOp i op ops s) := by simp [execIntegerOp]

/-! ### Floating point (R114, R115) -/

@[simp] theorem State.skipFree_ledger (s : State) (n : Nat) : (s.skipFree n).ledger = s.ledger := (rfl)

@[simp] theorem State.fpIssue_ledger (s : State) (i : Issue) (table : List FpOp) (fmt : Nat) (op : Nat) (ops : BitVec 48) (named : Cmd → Nat → Bool) :
    (s.fpIssue i table fmt op ops named).ledger = s.ledger := by
  simp [State.fpIssue]

@[simp] theorem execFp32Op_passes (i : Issue) (op : BitVec 8) (ops : BitVec 48) (s : State) : Passes s (execFp32Op i op ops s) := by simp [execFp32Op]
@[simp] theorem execFp64Op_passes (i : Issue) (op : BitVec 8) (ops : BitVec 48) (s : State) : Passes s (execFp64Op i op ops s) := by simp [execFp64Op]
@[simp] theorem execPacked16Op_passes (i : Issue) (op : BitVec 8) (ops : BitVec 48) (s : State) : Passes s (execPacked16Op i op ops s) := by simp [execPacked16Op]

/-! ### Conversions (R112, R116-R127) -/

@[simp] theorem State.setGen_ledger (s : State) (la c : Nat) (x : Word) : (s.setGen la c x).ledger = s.ledger := (rfl)

@[simp] theorem State.cvtEach_ledger (s : State) (r : Run) (g : Group) (f : Nat → Word → Conv) (x : List Nat) : (s.cvtEach r g f x).2.ledger = s.ledger := by
  induction x generalizing s with
  | nil => rfl
  | cons a l ih => simp [State.cvtEach, ih]

@[simp] theorem State.quantise_ledger (s : State) (r : Run) (g : Group) (ops : BitVec 48) (first n : Nat) : (s.quantise r g ops first n).2.ledger = s.ledger := by
  simp [State.quantise]

@[simp] theorem State.quantiseAll_ledger (s : State) (r : Run) (g : Group) (ops : BitVec 48) : (s.quantiseAll r g ops).2.ledger = s.ledger := by simp [State.quantiseAll]
@[simp] theorem execCvt_passes (i : Issue) (ops : BitVec 48) (s : State) : Passes s (execCvt i ops s) := by simp [execCvt]
@[simp] theorem execUnpk12_passes (i : Issue) (ops : BitVec 48) (s : State) : Passes s (execUnpk12 i ops s) := by simp [execUnpk12]
@[simp] theorem execPk12_passes (i : Issue) (ops : BitVec 48) (s : State) : Passes s (execPk12 i ops s) := by simp [execPk12]

/-! ### Predicates and cross-lane moves (R472) -/

@[simp] theorem execSetp_passes (i : Issue) (ops : BitVec 48) (s : State) : Passes s (execSetp i ops s) := by simp [execSetp]
@[simp] theorem State.predIssue_ledger (s : State) (i : Issue) (op : Nat) (ops : BitVec 48) : (s.predIssue i op ops).ledger = s.ledger := by simp [State.predIssue]
@[simp] theorem execPand_passes (i : Issue) (ops : BitVec 48) (s : State) : Passes s (execPand i ops s) := by simp [execPand]
@[simp] theorem execPor_passes (i : Issue) (ops : BitVec 48) (s : State) : Passes s (execPor i ops s) := by simp [execPor]
@[simp] theorem execPxor_passes (i : Issue) (ops : BitVec 48) (s : State) : Passes s (execPxor i ops s) := by simp [execPxor]
@[simp] theorem execPnot_passes (i : Issue) (ops : BitVec 48) (s : State) : Passes s (execPnot i ops s) := by simp [execPnot]

@[simp] theorem State.moveIssue_ledger (s : State) (i : Issue) (ops : BitVec 48) (usesB : Bool) (src : Run → Group → Nat → Option Nat) :
    (s.moveIssue i ops usesB src).ledger = s.ledger := by
  simp [State.moveIssue]

@[simp] theorem execShfl_passes (i : Issue) (ops : BitVec 48) (s : State) : Passes s (execShfl i ops s) := by simp [execShfl]
@[simp] theorem execShflXor_passes (i : Issue) (ops : BitVec 48) (s : State) : Passes s (execShflXor i ops s) := by simp [execShflXor]
@[simp] theorem execBcast_passes (i : Issue) (ops : BitVec 48) (s : State) : Passes s (execBcast i ops s) := by simp [execBcast]
@[simp] theorem execBallot_passes (i : Issue) (ops : BitVec 48) (s : State) : Passes s (execBallot i ops s) := by simp [execBallot]
@[simp] theorem execVote_passes (i : Issue) (ops : BitVec 48) (s : State) : Passes s (execVote i ops s) := by simp [execVote]
@[simp] theorem execNbr_passes (i : Issue) (dir : Dir) (ops : BitVec 48) (s : State) : Passes s (execNbr i dir ops s) := by simp [execNbr]

/-! ### Control (R55, R59, R60, R64) -/

@[simp] theorem execBra_passes (i : Issue) (ops : BitVec 48) (s : State) : Passes s (execBra i ops s) := by simp [execBra]
@[simp] theorem State.indirectIssue_ledger (s : State) (i : Issue) (ops : BitVec 48) : (s.indirectIssue i ops).ledger = s.ledger := by simp [State.indirectIssue]
@[simp] theorem execBrx_passes (i : Issue) (ops : BitVec 48) (s : State) : Passes s (execBrx i ops s) := by simp [execBrx]
@[simp] theorem execCall_passes (i : Issue) (ops : BitVec 48) (s : State) : Passes s (execCall i ops s) := by simp [execCall]
@[simp] theorem execRet_passes (i : Issue) (ops : BitVec 48) (s : State) : Passes s (execRet i ops s) := by simp [execRet]

@[simp] theorem execExit_passes (i : Issue) (ops : BitVec 48) (s : State) : Passes s (execExit i ops s) := by
  refine (passes_next ..).mpr (State.issue_ledger _ _ _ _ _ (fun r t g => ?_))
  split
  · rfl
  · split
    · rfl
    · dsimp only
      split <;> simp

@[simp] theorem execYield_passes (i : Issue) (ops : BitVec 48) (s : State) : Passes s (execYield i ops s) := by simp [execYield]
@[simp] theorem execNop_passes (i : Issue) (ops : BitVec 48) (s : State) : Passes s (execNop i ops s) := by simp [execNop]

/-! ### Barriers and fences (R63, R64, R204-R208) -/

@[simp] theorem State.arriveAt_ledger (s : State) (r : Run) (g : Group) (b : Fin 16) (count : Nat) : (s.arriveAt r g b count).ledger = s.ledger := by
  unfold State.arriveAt; split <;> simp

@[simp] theorem State.barrierIssue_ledger (s : State) (i : Issue) (ops : BitVec 48) (orders : List Nat) (arrives waits : Bool) :
    (s.barrierIssue i ops orders arrives waits).ledger = s.ledger := by
  refine State.issue_ledger _ _ _ _ _ (fun r t g => ?_)
  dsimp only
  split
  · rfl
  · split
    · rfl
    · split <;> simp

@[simp] theorem execBarSync_passes (i : Issue) (ops : BitVec 48) (s : State) : Passes s (execBarSync i ops s) := by simp [execBarSync]
@[simp] theorem execBarArrive_passes (i : Issue) (ops : BitVec 48) (s : State) : Passes s (execBarArrive i ops s) := by simp [execBarArrive]
@[simp] theorem execBarWait_passes (i : Issue) (ops : BitVec 48) (s : State) : Passes s (execBarWait i ops s) := by simp [execBarWait]

@[simp] theorem execFence_passes (i : Issue) (ops : BitVec 48) (s : State) : Passes s (execFence i ops s) := by
  refine (passes_next ..).mpr (State.issue_ledger _ _ _ _ _ (fun r t g => ?_))
  dsimp only
  split
  · rfl
  · split
    · rfl
    · split
      · simp
      · split <;> simp

/-! ### Special registers (R58) -/

@[simp] theorem execS2v_passes (i : Issue) (ops : BitVec 48) (s : State) : Passes s (execS2v i ops s) := by simp [execS2v]

/-! ### Where an access goes -/

@[simp] theorem State.hostDest_ledger (s : State) (x : Ctx) (iova : Nat) : (s.hostDest x iova).2.ledger = s.ledger := by simp [State.hostDest]

@[simp] theorem State.globalDest_ledger (s : State) (c : Cmd) (k : AccessKind) (va n : Nat) : (s.globalDest c k va n).2.ledger = s.ledger := by
  unfold State.globalDest
  dsimp only
  grind [State.hostDest_ledger, State.translate_ledger]

@[simp] theorem State.laneDest_ledger (s : State) (r : Run) (g : Group) (ops : BitVec 48) (k : AccessKind) (addr : Word) :
    (s.laneDest r g ops k addr).2.ledger = s.ledger := by
  simp [State.laneDest]

@[simp] theorem State.laneDests_ledger (s : State) (r : Run) (g : Group) (ops : BitVec 48) (k : AccessKind) (at' : Nat → Word) (x : List Nat) :
    (s.laneDests r g ops k at' x).2.ledger = s.ledger := by
  induction x generalizing s with
  | nil => rfl
  | cons a l ih => simp [State.laneDests, ih]

@[simp] theorem State.poisonFault_ledger (s : State) (r : Run) (g : Group) (acc : BitVec 8) (ls : List (Nat × Nat)) (addr : Nat → Word) :
    (s.poisonFault r g acc ls addr).state.ledger = s.ledger := by
  unfold State.poisonFault; dsimp only; split <;> simp

@[simp] theorem State.checked_ledger (s : State) (r : Run) (g : Group) (ops : BitVec 48) (k : AccessKind) (at' : Nat → Word) (go : List (Nat × Dest) → State → Eff)
    (keeps : ∀ l t, (go l t).state.ledger = t.ledger) : (s.checked r g ops k at' go).state.ledger = s.ledger := by
  unfold State.checked
  dsimp only
  split
  · simp
  · split <;> simp [keeps]

/-! ### Requests -/

@[simp] theorem State.sendReq_ledger (s : State) (r : Run) (g : Group) (k : LineKind) (line : Nat) (op : HomeOp) (hint scope : Nat) (use : ReqFor) :
    (s.sendReq r g k line op hint scope use).2.ledger = s.ledger := (rfl)

@[simp] theorem State.takeNumber_ledger (s : State) : s.takeNumber.2.ledger = s.ledger := (rfl)

@[simp] theorem State.sendHostRead_ledger (s : State) (x : Ctx) (iova n : Nat) (use : HostFor) : (s.sendHostRead x iova n use).ledger = s.ledger := by
  simp [State.sendHostRead]

@[simp] theorem State.sendHostAtomic_ledger (s : State) (x : Ctx) (iova op size : Nat) (v w : Word) (use : HostFor) :
    (s.sendHostAtomic x iova op size v w use).ledger = s.ledger := by
  simp [State.sendHostAtomic]

@[simp] theorem State.guestReset_ledger (s : State) (p : Fin 16) (off : Nat) : (s.guestReset p off).ledger = s.ledger := (rfl)
@[simp] theorem State.sendGuestRead_ledger (s : State) (off n : Nat) (use : HostFor) : (s.sendGuestRead off n use).ledger = s.ledger := (rfl)
@[simp] theorem State.guestWrite_ledger (s : State) (p : Fin 16) (off : Nat) (b : List Byte) : (s.guestWrite p off b).ledger = s.ledger := by simp [State.guestWrite]

/-! ### Loads (R54, R170, R171, R181) -/

@[simp] theorem State.sendLoad_ledger (s : State) (r : Run) (g : Group) (ops : BitVec 48) (x : LineKind × Nat × List (Nat × Nat)) :
    (s.sendLoad r g ops x).2.ledger = s.ledger := by
  unfold State.sendLoad; dsimp only; split <;> simp

@[simp] theorem State.sendLoads_ledger (s : State) (r : Run) (g : Group) (ops : BitVec 48) (x : List (LineKind × Nat × List (Nat × Nat))) :
    (s.sendLoads r g ops x).2.ledger = s.ledger := by
  induction x generalizing s with
  | nil => rfl
  | cons a l ih => simp [State.sendLoads, ih]

@[simp] theorem State.fillParts_ledger (s : State) (la : Nat) (c : Cmd) (o : LoadOp) : (s.fillParts la c o).ledger = s.ledger := by simp [State.fillParts]
@[simp] theorem State.landLoad_ledger (s : State) (la : Nat) (c : Cmd) (g : Group) (o : LoadOp) : (s.landLoad la c g o).ledger = s.ledger := by simp [State.landLoad]

@[simp] theorem State.loadFault_ledger (s : State) (la : Nat) (c : Cmd) (g : Group) (o : LoadOp) : (s.loadFault la c g o).2.ledger = s.ledger := by
  unfold State.loadFault
  dsimp only
  split
  · rfl
  · have keeps := s.poisonFault_ledger
    split
    · next h => exact (congrArg (fun e : Eff => e.state.ledger) h).symm.trans (keeps _ _ _ _ _)
    · next h => exact (congrArg (fun e : Eff => e.state.ledger) h).symm.trans (keeps _ _ _ _ _)
    · rfl

@[simp] theorem State.startLoad_ledger (s : State) (r : Run) (g : Group) (o : LoadOp) : (s.startLoad r g o).state.ledger = s.ledger := by
  unfold State.startLoad; dsimp only; (repeat' split) <;> simp

@[simp] theorem State.takeLoad_ledger (s : State) (la : Nat) : (s.takeLoad la).2.ledger = s.ledger := (rfl)

/-! ### The stream prefetcher (R103) -/

@[simp] theorem State.prefetchLine_ledger (s : State) (la : Nat) (c : Cmd) (line hint : Nat) (intoL1 : Bool) :
    (s.prefetchLine la c line hint intoL1).ledger = s.ledger := by
  simp [State.prefetchLine]

@[simp] theorem State.streamAccess_ledger (s : State) (la : Nat) (c : Cmd) (who : Option (Nat × Fin 16)) (n line hint : Nat) :
    (s.streamAccess la c who n line hint).ledger = s.ledger := by
  unfold State.streamAccess
  dsimp only
  split
  · rfl
  · split
    · simp
    · refine (foldl_ledger _ (fun t k => ?_) _ _).trans (by simp)
      split <;> simp

@[simp] theorem State.sendLd_ledger (s : State) (r : Run) (g : Group) (o : LoadOp) (l : List (Nat × Dest)) : (s.sendLd r g o l).2.ledger = s.ledger := by
  simp [State.sendLd]

@[simp] theorem execLd_passes (i : Issue) (ops : BitVec 48) (s : State) : Passes s (execLd i ops s) := by simp [execLd]

/-! ### Stores (R171, R210, R211) -/

@[simp] theorem State.markWrote_ledger (s : State) (c : Cmd) : (s.markWrote c).ledger = s.ledger := by
  unfold State.markWrote; split <;> simp

@[simp] theorem State.sendStore_ledger (s : State) (r : Run) (g : Group) (ops : BitVec 48) (x : LineKind × Nat × List (Nat × Nat)) :
    (s.sendStore r g ops x).ledger = s.ledger := by
  unfold State.sendStore; dsimp only; split <;> simp

@[simp] theorem State.storeLocal_ledger (s : State) (r : Run) (g : Group) (ops : BitVec 48) (l : List (Nat × Dest)) : (s.storeLocal r g ops l).ledger = s.ledger := (rfl)

@[simp] theorem State.released_ledger (s : State) (r : Run) (g : Group) (order scope : Nat) (go : State → Eff) (keeps : ∀ t, (go t).state.ledger = t.ledger) :
    (s.released r g order scope go).state.ledger = s.ledger := by
  unfold State.released
  (repeat' split) <;> simp [keeps]

@[simp] theorem execSt_passes (i : Issue) (ops : BitVec 48) (s : State) : Passes s (execSt i ops s) := by
  refine (passes_next ..).mpr (State.issue_ledger _ _ _ _ _ (fun r t g => ?_))
  exact State.checked_ledger _ _ _ _ _ _ _ (fun l u => State.released_ledger _ _ _ _ _ _ (fun v => by simp))

@[simp] theorem execPrefetch_passes (i : Issue) (ops : BitVec 48) (s : State) : Passes s (execPrefetch i ops s) := by simp [execPrefetch]

/-! ### Atomics (R55, R56, R165, R171, R196, R322) -/

@[simp] theorem State.atomicLocal_ledger (s : State) (r : Run) (g : Group) (size : Nat) (op : AtomicOp) (vals : List (Nat × Word × Word)) (x : List (Nat × Dest)) :
    (s.atomicLocal r g size op vals x).2.ledger = s.ledger := by
  induction x generalizing s with
  | nil => rfl
  | cons a l ih =>
    unfold State.atomicLocal
    split
    · rfl
    · simp_all
    · simp_all

@[simp] theorem State.sendAtomic_ledger (s : State) (r : Run) (g : Group) (ops : BitVec 48) (op : AtomicOp) (vals : List (Nat × Word × Word))
    (x : LineKind × Nat × List (Nat × Nat)) :
    (s.sendAtomic r g ops op vals x).2.ledger = s.ledger := by
  unfold State.sendAtomic; dsimp only; split <;> simp

@[simp] theorem State.sendAtomics_ledger (s : State) (r : Run) (g : Group) (ops : BitVec 48) (op : AtomicOp) (vals : List (Nat × Word × Word)) (x : List
    (LineKind × Nat × List (Nat × Nat))) :
    (s.sendAtomics r g ops op vals x).2.ledger = s.ledger := by
  induction x generalizing s with
  | nil => rfl
  | cons a l ih => simp [State.sendAtomics, ih]

@[simp] theorem State.sendRed_ledger (s : State) (r : Run) (g : Group) (ops : BitVec 48) (op : RedOp) (vals : List (Nat × Word × Word)) (x : LineKind × Nat × List
    (Nat × Nat)) :
    (s.sendRed r g ops op vals x).2.ledger = s.ledger := by
  unfold State.sendRed; dsimp only; split <;> simp

@[simp] theorem State.sendReds_ledger (s : State) (r : Run) (g : Group) (ops : BitVec 48) (op : RedOp) (vals : List (Nat × Word × Word)) (x : List
    (LineKind × Nat × List (Nat × Nat))) :
    (s.sendReds r g ops op vals x).2.ledger = s.ledger := by
  induction x generalizing s with
  | nil => rfl
  | cons a l ih => simp [State.sendReds, ih]

@[simp] theorem State.atomicChecked_ledger (s : State) (r : Run) (g : Group) (ops : BitVec 48) (op : AtomicOp) (red : Bool) (at' : Nat → Word)
    (go : List (Nat × Dest) → State → Eff) (keeps : ∀ l t, (go l t).state.ledger = t.ledger) : (s.atomicChecked r g ops op red at' go).state.ledger = s.ledger := by
  unfold State.atomicChecked
  refine State.checked_ledger _ _ _ _ _ _ _ (fun l t => ?_)
  dsimp only
  split <;> simp [keeps]

@[simp] theorem State.sendAt_ledger (s : State) (r : Run) (g : Group) (o : LoadOp) (l : List (Nat × Dest)) : (s.sendAt r g o l).2.ledger = s.ledger := by
  unfold State.sendAt; split <;> simp

@[simp] theorem execAtomic_passes (i : Issue) (op : AtomicOp) (ops : BitVec 48) (s : State) : Passes s (execAtomic i op ops s) := by
  refine (passes_next ..).mpr (State.issue_ledger _ _ _ _ _ (fun r t g => ?_))
  split
  · rfl
  · exact State.atomicChecked_ledger _ _ _ _ _ _ _ _ (fun l u => State.released_ledger _ _ _ _ _ _ (fun v => by simp))

@[simp] theorem execRed_passes (i : Issue) (op : RedOp) (ops : BitVec 48) (s : State) : Passes s (execRed i op ops s) := by
  refine (passes_next ..).mpr (State.issue_ledger _ _ _ _ _ (fun r t g => ?_))
  exact State.atomicChecked_ledger _ _ _ _ _ _ _ _ (fun l u => State.released_ledger _ _ _ _ _ _ (fun v => by simp))

/-! ### The arrival of operands (R45) -/

@[simp] theorem State.landLoads_ledger (s : State) (la : Nat) (c : Cmd) (x : GroupRef) : (s.landLoads la c x).ledger = s.ledger := by
  unfold State.landLoads
  split
  · rfl
  · refine foldl_ledger _ (fun t o => ?_) _ s
    split
    · rfl
    · split <;> simp

@[simp] theorem State.wakeGroup_ledger (s : State) (la : Nat) (c : Cmd) (g : Group) : (s.wakeGroup la c g).ledger = s.ledger := by
  unfold State.wakeGroup
  repeat' split
  · next h => simp [ledger_of_snd h]
  · next h => simp [ledger_of_snd h]
  · rfl
  · rfl

@[simp] theorem execOperandArrival_passes (x : GroupRef) (s : State) : Passes s (execOperandArrival x s) := by
  unfold execOperandArrival; dsimp only; (repeat' split) <;> simp

@[simp] theorem State.resendLoad_ledger (s : State) (la : Nat) (c : Cmd) (g : Group) (o : LoadOp) : (s.resendLoad la c g o).ledger = s.ledger := by
  have ends : ∀ e : Eff, e.state.ledger = s.ledger → State.ledger (match e with
      | .ok t h _ => t.putGroup la h.resumed
      | .fault t h f rec => t.park la c h { f with pc := o.pc } (.load o.seq) rec
      | .stop t => t
      | _ => s) = s.ledger := by
    intro e kept
    cases e with
    | wait | hold => rfl
    | ok | fault | stop => simpa using kept
  unfold State.resendLoad
  refine ends _ ?_
  dsimp only
  split
  · exact State.checked_ledger _ _ _ _ _ _ _ (fun l t => by simp)
  · exact State.atomicChecked_ledger _ _ _ _ _ _ _ _ (fun l t => by simp)
  · exact State.atomicChecked_ledger _ _ _ _ _ _ _ _ (fun l t => by simp)

/-! ### Reads that a command makes for itself -/

@[simp] theorem State.askHost_ledger (s : State) (c : Cmd) (iova va n : Nat) : (s.askHost c iova va n).2.ledger = s.ledger := by
  unfold State.askHost
  dsimp only
  repeat' split
  · rfl
  · next h => simp [ledger_of_snd h]
  · next h => simp [ledger_of_snd h]
  · next h => simp [ledger_of_snd h]
  · next h => simp [ledger_of_snd h]

@[simp] theorem State.askRemote_ledger (s : State) (c : Cmd) (m off va hint : Nat) : (s.askRemote c m off va hint).ledger = s.ledger := by simp [State.askRemote]

@[simp] theorem State.engGet_ledger (s : State) (c : Cmd) (hint va n : Nat) : (s.engGet c hint va n).2.ledger = s.ledger := by
  unfold State.engGet
  dsimp only
  repeat' split
  · rfl
  · next h => simp [ledger_of_snd h]
  · next h => simp [ledger_of_snd h]
  · next h => simp [ledger_of_snd h]
  · next h => simp [ledger_of_snd h]
  · next h => simp [ledger_of_snd h]
  · next h _ => simp [ledger_of_snd h]
  · next h _ => simp [ledger_of_snd h]

end Sys2Proof.Machine
end


section

/-! SUPPORT. Every step: tile operations, patterns, residency and the scheduler leave the queue and the fuses (01 R81-R100, 02 R103-R105, 10 R289-R305). -/

namespace Sys2Proof.Machine

@[simp] theorem State.fetchPattern_ledger (s : State) (c : Cmd) (va : Nat) : (s.fetchPattern c va).2.ledger = s.ledger := by
  unfold State.fetchPattern
  split
  · next h =>
    dsimp only
    split
    · simp [ledger_of_snd h]
    · split
      · next k => split <;> simp [ledger_of_snd k, ledger_of_snd h]
      all_goals next k => simp [ledger_of_snd k, ledger_of_snd h]
  all_goals next h => simp [ledger_of_snd h]

@[simp] theorem State.putSlot_ledger (s : State) (la : Nat) (slot : Fin 4) (x : PatSlot) : (s.putSlot la slot x).ledger = s.ledger := (rfl)

/-! ### Tokens (R97, R100) -/

@[simp] theorem State.wakeTokens_ledger (s : State) (la : Nat) (c : Cmd) (g : Group) : (s.wakeTokens la c g).ledger = s.ledger := by
  unfold State.wakeTokens; (repeat' split) <;> simp

@[simp] theorem State.endTile_ledger (s : State) (la : Nat) (c : Cmd) (op : TileOp) (t : Token) : (s.endTile la c op t).ledger = s.ledger := by
  unfold State.endTile; dsimp only; split <;> simp

@[simp] theorem State.tileDone_ledger (s : State) (la : Nat) (c : Cmd) (op : TileOp) : (s.tileDone la c op).ledger = s.ledger := by simp [State.tileDone]
@[simp] theorem State.putTile_ledger (s : State) (la : Nat) (op : TileOp) : (s.putTile la op).ledger = s.ledger := (rfl)

@[simp] theorem State.tileFault_ledger (s : State) (la : Nat) (c : Cmd) (op : TileOp) (cls : ParkClass) (access : BitVec 8) (addr : Nat) :
    (s.tileFault la c op cls access addr).ledger = s.ledger := by
  simp [State.tileFault]

/-! ### Issue (R92, R97, R98) -/

@[simp] theorem State.issueTile_ledger (s : State) (i : Issue) (legal : Cmd → Bool) (regs : List Nat) (t : Fin 8) (kind : Group → Nat → TileKind) :
    (s.issueTile i legal regs t kind).ledger = s.ledger := by
  refine State.issue_ledger _ _ _ _ _ (fun r t g => ?_)
  split
  · rfl
  · split
    · rfl
    · simp
    · split <;> simp

@[simp] theorem execTload_passes (i : Issue) (ops : BitVec 48) (w2 : Word) (s : State) : Passes s (execTload i ops w2 s) := by simp [execTload]
@[simp] theorem execTstore_passes (i : Issue) (ops : BitVec 48) (w2 : Word) (s : State) : Passes s (execTstore i ops w2 s) := by simp [execTstore]
@[simp] theorem execTcontract_passes (i : Issue) (ops : BitVec 48) (w2 : Word) (s : State) : Passes s (execTcontract i ops w2 s) := by simp [execTcontract]
@[simp] theorem execTstencil_passes (i : Issue) (ops : BitVec 48) (w2 : Word) (s : State) : Passes s (execTstencil i ops w2 s) := by simp [execTstencil]
@[simp] theorem execTfft_passes (i : Issue) (ops : BitVec 48) (w2 : Word) (s : State) : Passes s (execTfft i ops w2 s) := by simp [execTfft]
@[simp] theorem execTreduce_passes (i : Issue) (ops : BitVec 48) (w2 : Word) (s : State) : Passes s (execTreduce i ops w2 s) := by simp [execTreduce]

@[simp] theorem execTwait_passes (i : Issue) (ops : BitVec 48) (w2 : Word) (s : State) : Passes s (execTwait i ops w2 s) := by
  refine (passes_next ..).mpr (State.issue_ledger _ _ _ _ _ (fun r t g => ?_))
  dsimp only
  split
  · rfl
  · split
    · simp
    · split <;> rfl

@[simp] theorem execTdiscard_passes (i : Issue) (ops : BitVec 48) (w2 : Word) (s : State) : Passes s (execTdiscard i ops w2 s) := by simp [execTdiscard]

@[simp] theorem execTileQueueSpaceFreed_passes (x : GroupRef) (s : State) : Passes s (execTileQueueSpaceFreed x s) := by
  unfold execTileQueueSpaceFreed; split <;> simp

/-! ### Rows (R81, R105, R111, R258) -/

@[simp] theorem State.convRow_ledger (s : State) (la : Nat) (c : Cmd) (fs fd rnd : Nat) (sat : Bool) (codes : List Nat) :
    (s.convRow la c fs fd rnd sat codes).2.ledger = s.ledger := by
  simp [State.convRow]

/-! ### The sentry on tile operations (R131-R133) -/

@[simp] theorem State.tileNan_ledger (s : State) (la : Nat) (c : Cmd) (op : TileOp) (n : TileNan) : (s.tileNan la c op n).2.ledger = s.ledger := by simp [State.tileNan]

@[simp] theorem State.rowNans_ledger (s : State) (la : Nat) (c : Cmd) (op : TileOp) (fa fo row : Nat) (l : List (Nat × Nat)) :
    (s.rowNans la c op fa fo row l).2.ledger = s.ledger := by
  unfold State.rowNans; split <;> simp

/-! ### Global memory by the loader -/

@[simp] theorem State.tileReq_ledger (s : State) (x : Tl) (k : LineKind) (line : Nat) (h : HomeOp) (hint scope va : Nat) :
    (s.tileReq x k line h hint scope va).ledger = s.ledger := (rfl)

@[simp] theorem State.tileNeed_ledger (s : State) (x : Tl) (hint va n : Nat) : (s.tileNeed x hint va n).2.ledger = s.ledger := by
  unfold State.tileNeed
  split
  · rfl
  · split
    · rfl
    · split
      · next h => simp [ledger_of_snd h]
      · next h => simp [ledger_of_snd h]
      · next h => simp [ledger_of_snd h]
      · next h => split <;> simp [ledger_of_snd h]
      · next h => simp [ledger_of_snd h]
      · next h => simp [ledger_of_snd h]
      · next h => simp [ledger_of_snd h]

@[simp] theorem State.tileNeeds_ledger (s : State) (x : Tl) (hint : Nat) (x' : List (Nat × Nat)) : (s.tileNeeds x hint x').2.ledger = s.ledger := by
  induction x' generalizing s x with
  | nil => rfl
  | cons a l ih =>
    unfold State.tileNeeds
    split
    · next h => simp [ledger_of_snd h]
    · next h =>
      split
      · simp [ledger_of_snd h]
      · simp [ih, ledger_of_snd h]

@[simp] theorem State.tileCut_ledger (s : State) (x : Tl) (hint va n : Nat) : (s.tileCut x hint va n).2.ledger = s.ledger := by
  unfold State.tileCut
  split
  · rfl
  · split
    · next h =>
      dsimp only
      split
      · simp [ledger_of_snd h]
      · split <;> simp [ledger_of_snd h]
    all_goals next h => simp [ledger_of_snd h]

@[simp] theorem State.tileRow_ledger (s : State) (x : Tl) (hint : Nat) (x' : List (Nat × Nat)) : (s.tileRow x hint x').2.ledger = s.ledger := by
  induction x' generalizing s with
  | nil => rfl
  | cons a l ih =>
    unfold State.tileRow
    have cut := s.tileCut_ledger x hint a.1 a.2
    split
    · next t first =>
      rw [first] at cut
      split
      · next more => exact (ledger_of_snd more).symm ▸ (ih t).trans cut
      · exact (ih t).trans cut
    · exact cut

@[simp] theorem State.rowStream_ledger (s : State) (x : Tl) (va hint : Nat) : (s.rowStream x va hint).ledger = s.ledger := by
  unfold State.rowStream
  split <;> next h => simp [ledger_of_snd h]

theorem State.readEnd_ledger (s : State) (x : Tl) (access : BitVec 8) (got : TileGot) : (s.readEnd x access got).state.ledger = s.ledger := by
  unfold State.readEnd
  split
  · rfl
  · rfl
  · rfl
  · dsimp only
    split <;> simp

theorem State.loadRows_ledger (s : State) (x : Tl) (ls gaddr gstride lsStride : Word) (n fm fl rnd : Nat) (sat : Bool) (hint : Nat) (l : List Nat) :
    (s.loadRows x ls gaddr gstride lsStride n fm fl rnd sat hint l).state.ledger = s.ledger := by
  induction l generalizing s x with
  | nil => rfl
  | cons r l ih =>
    unfold State.loadRows
    dsimp only
    split
    · rfl
    · split
      · next h => simp [ih, ledger_of_snd h]
      · next h => simp [State.readEnd_ledger, ledger_of_snd h]

@[simp] theorem State.endRows_ledger (la : Nat) (c : Cmd) (x : RowEnd) : (State.endRows la c x).ledger = x.state.ledger := by
  cases x <;> simp [State.endRows]

/-! ### Stores -/

@[simp] theorem State.storeNeed_ledger (s : State) (x : Tl) (va n : Nat) : (s.storeNeed x va n).2.ledger = s.ledger := by
  unfold State.storeNeed
  split <;> next h => simp [ledger_of_snd h]

@[simp] theorem State.storeNeeds_ledger (s : State) (x : Tl) (x' : List (Nat × Nat)) : (s.storeNeeds x x').2.ledger = s.ledger := by
  induction x' generalizing s with
  | nil => rfl
  | cons a l ih =>
    unfold State.storeNeeds
    split <;> next h => simp [ih, ledger_of_snd h]

@[simp] theorem State.storeFault_ledger (s : State) (x : Tl) (x' : List (Nat × Nat)) : (s.storeFault x x').2.ledger = s.ledger := by
  induction x' generalizing s with
  | nil => rfl
  | cons a l ih =>
    unfold State.storeFault
    split
    case h_5 => next h => simp [ih, ledger_of_snd h]
    all_goals next h => simp [ledger_of_snd h]

@[simp] theorem State.storeCut_ledger (s : State) (x : Tl) (hint scope : Nat) (release : Bool) (va : Nat) (b : List Byte) :
    (s.storeCut x hint scope release va b).ledger = s.ledger := by
  unfold State.storeCut
  split <;> next h => simp [ledger_of_snd h]

@[simp] theorem State.storeCuts_ledger (s : State) (x : Tl) (hint scope : Nat) (release : Bool) (x' : List (Nat × Nat)) (y : List Byte) :
    (s.storeCuts x hint scope release x' y).ledger = s.ledger := by
  induction x' generalizing s y with
  | nil => rfl
  | cons a l ih => simp [State.storeCuts, ih]

@[simp] theorem State.sharedNeeds_ledger (s : State) (x : Tl) (hint : Nat) (l : List Nat) : (s.sharedNeeds x hint l).2.ledger = s.ledger := by simp [State.sharedNeeds]

theorem State.storeCodes_ledger {s t : State} {x : Tl} {o : StoreOp} {r : Nat} {l : List Nat} {op : TileOp} (h : s.storeCodes x o r = .ok (l, op, t)) :
    t.ledger = s.ledger := by
  unfold State.storeCodes at h
  dsimp only at h
  split at h
  · cases h; simp
  · split at h
    · cases h
    · cases h; simp

/-! ### The loader (R98) -/

@[simp] theorem State.wakeAcquired_ledger (s : State) (la : Nat) : (s.wakeAcquired la).ledger = s.ledger := (rfl)

@[simp] theorem State.stepLoad_ledger (s : State) (x : Tl) (ls gaddr rowElems rows gstride : Word) (fm fl rnd : Nat) (sat : Bool) (hint scope order : Nat)
    (lsStride : Word) :
    (s.stepLoad x ls gaddr rowElems rows gstride fm fl rnd sat hint scope order lsStride).ledger = s.ledger := by
  unfold State.stepLoad
  dsimp only
  split
  · simp
  · split
    · next h => simp [ledger_of_snd h]
    · next h => simp [State.loadRows_ledger, ledger_of_snd h]

theorem State.storeRows_ledger (s : State) (x : Tl) (o : StoreOp) (l : List Nat) : (s.storeRows x o l).state.ledger = s.ledger := by
  induction l generalizing s x with
  | nil => rfl
  | cons r l ih =>
    unfold State.storeRows
    dsimp only
    split
    · split
      · rfl
      · split
        · rfl
        · next h => simp [ih, State.storeCodes_ledger h]
    · split
      · next k =>
        split
        · simp [ledger_of_snd k]
        · next h => simp [ih, State.storeCodes_ledger h, ledger_of_snd k]
      · next k => simp [State.readEnd_ledger, ledger_of_snd k]

@[simp] theorem State.stepStore_ledger (s : State) (x : Tl) (o : StoreOp) (rows order : Nat) : (s.stepStore x o rows order).ledger = s.ledger := by
  unfold State.stepStore
  split
  · split <;> simp
  · dsimp only
    split
    · rfl
    · split
      · next h => simp [ledger_of_snd h]
      · next t _ h =>
        split
        · next k => simp [ledger_of_snd k, ledger_of_snd h]
        · next u _ k =>
          have before : (if order = 2 ∧ o.scope ≠ 0 then u.afterRelease x.cmd o.scope else u).ledger = s.ledger := by
            simp [ledger_of_snd k, ledger_of_snd h]
          have rows := (State.storeRows_ledger (if order = 2 ∧ o.scope ≠ 0 then u.afterRelease x.cmd o.scope else u) x o (List.range rows)).trans before
          split
          · next stored =>
            rw [stored] at rows
            split <;> simpa using rows
          · simpa using rows

@[simp] theorem State.discardLine_ledger (s : State) (x : Tl) (va : Nat) : (s.discardLine x va).ledger = s.ledger := by
  unfold State.discardLine
  split <;> next h => simp [ledger_of_snd h]

@[simp] theorem State.stepDiscard_ledger (s : State) (x : Tl) (addr len : Nat) : (s.stepDiscard x addr len).ledger = s.ledger := by
  unfold State.stepDiscard
  split
  · split <;> simp
  · split
    · simp
    · split
      · next h => simp [ledger_of_snd h]
      · next h => simp [State.readEnd_ledger, ledger_of_snd h]

@[simp] theorem State.stepLoader_ledger (s : State) (la : Nat) (c : Cmd) (n : Nat) : (s.stepLoader la c n).ledger = s.ledger := by
  unfold State.stepLoader; dsimp only; (repeat' split) <;> simp

/-! ### A grid operation under way -/

@[simp] theorem State.gridOut_ledger (s : State) (x : GridRun) (dst code : Nat) : (s.gridOut x dst code).2.ledger = s.ledger := by simp [State.gridOut]

@[simp] theorem State.gridPut_ledger (s : State) (x : GridRun) (r : Route) (base plane : Nat) (i j : Int) (v : Nat) :
    (s.gridPut x r base plane i j v).ledger = s.ledger := (rfl)

@[simp] theorem State.gridEnd_ledger (s : State) (x : GridRun) (first : Option GridNan) : (s.gridEnd x first).ledger = s.ledger := by
  unfold State.gridEnd; split <;> simp

/-! ### Contractions -/

@[simp] theorem State.runStationary_ledger (s : State) (x : GridRun) : (s.runStationary x).ledger = s.ledger := by simp [State.runStationary]
@[simp] theorem State.putResults_ledger (s : State) (x : GridRun) (l : List (Nat × Int × Int × Nat)) : (s.putResults x l).ledger = s.ledger := by simp [State.putResults]
@[simp] theorem State.runWeight_ledger (s : State) (x : GridRun) : (s.runWeight x).ledger = s.ledger := by simp [State.runWeight]

/-! ### Stencils (R94, R123) -/

@[simp] theorem State.runStencil_ledger (s : State) (x : GridRun) : (s.runStencil x).ledger = s.ledger := by simp [State.runStencil]

/-! ### Transforms (R94, R123) -/

@[simp] theorem State.passOut_ledger (s : State) (x : GridRun) (l : List Num) : (s.passOut x l).2.ledger = s.ledger := by simp [State.passOut]

@[simp] theorem State.fftPasses_ledger (s : State) (x : GridRun) (batch : Nat) (x' : Nat) (y : Nat) (z : List (Num × Num)) :
    (s.fftPasses x batch x' y z).2.2.ledger = s.ledger := by
  induction x' generalizing s y z with
  | zero => rfl
  | succ n ih =>
    unfold State.fftPasses
    dsimp only
    split
    · simp
    · simp [ih]

@[simp] theorem State.runFft_ledger (s : State) (x : GridRun) : (s.runFft x).ledger = s.ledger := by simp [State.runFft]

/-! ### Reductions and scans (R94, R123) -/

@[simp] theorem State.runReduce_ledger (s : State) (x : GridRun) : (s.runReduce x).ledger = s.ledger := by simp [State.runReduce]

/-! ### The engine (R89, R98, R100) -/

@[simp] theorem State.runGrid_ledger (s : State) (x : GridRun) : (s.runGrid x).ledger = s.ledger := by
  unfold State.runGrid; split <;> simp

@[simp] theorem State.startGrid_ledger (s : State) (la : Nat) (c : Cmd) (op : TileOp) (code : Nat) (a b extent : Word) (slot : Fin 4) (acc : Nat) (init : Bool)
    (cc d sa sb : Word) :
    (s.startGrid la c op code a b extent slot acc init cc d sa sb).ledger = s.ledger := by
  unfold State.startGrid; dsimp only; (repeat' split) <;> simp

@[simp] theorem State.readAcc_ledger (s : State) (la : Nat) (c : Cmd) (op : TileOp) (n rows fl acc : Nat) : (s.readAcc la c op n rows fl acc).ledger = s.ledger := by
  simp [State.readAcc]

@[simp] theorem State.stepGrid_ledger (s : State) (la : Nat) (c : Cmd) : (s.stepGrid la c).ledger = s.ledger := by
  unfold State.stepGrid; (repeat' split) <;> simp

@[simp] theorem execTileOperationComplete_passes (la : Fin 384) (e : TileTurn) (cell : CellEvent) (sram : SramEvent) (s : State) :
    Passes s (execTileOperationComplete la e cell sram s) := by
  unfold execTileOperationComplete; dsimp only; (repeat' split) <;> simp

@[simp] theorem State.argRead_ledger (s : State) (c : Cmd) : (s.argRead c).2.ledger = s.ledger := by
  unfold State.argRead
  dsimp only
  repeat' split
  · rfl
  · rfl
  · next h _ => simp [ledger_of_snd h]
  · next h _ => simp [ledger_of_snd h]
  · simp

@[simp] theorem State.freeBytes_ledger (s : State) (n : Nat) : (s.freeBytes n).2.ledger = s.ledger := (rfl)

@[simp] theorem State.firstResidency_ledger (s : State) (la : Nat) (c : Cmd) (o : Occupant) (args : List Byte) : (s.firstResidency la c o args).ledger = s.ledger := by
  unfold State.firstResidency; dsimp only; split <;> simp

@[simp] theorem State.makeCohort_ledger (s : State) (la : Nat) (c : Cmd) (o : Occupant) (idx : Nat) : (s.makeCohort la c o idx).ledger = s.ledger := (rfl)

@[simp] theorem execCohortResident_passes (la : Fin 384) (s : State) : Passes s (execCohortResident la s) := by
  unfold execCohortResident
  split
  · split
    · simp
    · split
      · split <;> next h => simp [ledger_of_snd h]
      · split
        · simp
        · split
          · simp
          · split <;> simp
  · simp

@[simp] theorem execPatternFetchComplete_passes (la : Fin 384) (slot : Fin 4) (s : State) : Passes s (execPatternFetchComplete la slot s) := by
  unfold execPatternFetchComplete
  repeat' split
  · simp
  · simp
  · next h => simp [ledger_of_snd h]
  · next h => simp [ledger_of_snd h]
  · next h => simp [ledger_of_snd h]
  · next h => simp [ledger_of_snd h]
  · next h => simp [ledger_of_snd h]
  · simp

@[simp] theorem State.finishCmd_ledger (s : State) (c : Cmd) (status : Nat) (detail : BitVec 32) : (s.finishCmd c status detail).ledger = s.ledger := by
  simp [State.finishCmd]

/-! ### Placement (R289-R291) -/

@[simp] theorem State.readPlacement_ledger (s : State) (c : Cmd) : (s.readPlacement c).2.ledger = s.ledger := by
  unfold State.readPlacement
  dsimp only
  split
  · next h =>
    split
    · simp [ledger_of_snd h]
    · split <;> next k => simp [ledger_of_snd k, ledger_of_snd h]
  all_goals next h => simp [ledger_of_snd h]

@[simp] theorem State.placeFor_ledger (s : State) (c : Cmd) : (s.placeFor c).2.ledger = s.ledger := by
  unfold State.placeFor; dsimp only; (repeat' split) <;> simp

/-! ### The decision (R294-R299) -/

@[simp] theorem State.preempt_ledger (s : State) (c h : Cmd) : (s.preempt c h).2.ledger = s.ledger := by simp [State.preempt]

@[simp] theorem State.contest_ledger (c : Cmd) (x : Bool × State) (la : Nat) : (State.contest c x la).2.ledger = x.2.ledger := by
  unfold State.contest
  dsimp only
  (repeat' split) <;> simp

@[simp] theorem State.reserve_ledger (s : State) (c : Cmd) (las : List Nat) : (s.reserve c las).ledger = s.ledger := (rfl)
@[simp] theorem State.start_ledger (s : State) (c : Cmd) (las : List Nat) : (s.start c las).ledger = s.ledger := by simp [State.start]

@[simp] theorem State.decideOn_ledger (s : State) (ref : CmdRef) : (s.decideOn ref).ledger = s.ledger := by
  unfold State.decideOn
  split
  · rfl
  · split
    · rfl
    · split
      · next h => simp [ledger_of_snd h]
      · next h => simp [ledger_of_snd h]
      · next h => simp [ledger_of_snd h]
      · next h =>
        dsimp only
        split
        · simp [ledger_of_snd h]
        · split <;> simp [ledger_of_snd h]

@[simp] theorem State.schedule_ledger (s : State) (p : Fin 16) : (s.schedule p).ledger = s.ledger := by simp [State.schedule]
@[simp] theorem State.scheduleAll_ledger (s : State) : s.scheduleAll.ledger = s.ledger := by simp [State.scheduleAll]
@[simp] theorem State.finishAll_ledger (s : State) : s.finishAll.ledger = s.ledger := by simp [State.finishAll]

/-! ### Its commands and events -/

@[simp] theorem execLaunch_passes (c : CmdRef) (s : State) : Passes s (execLaunch c s) := by
  unfold execLaunch; split <;> simp

@[simp] theorem State.loadPattern_ledger (s : State) (c : Cmd) : (s.loadPattern c).ledger = s.ledger := by
  unfold State.loadPattern
  split <;> next h => simp [ledger_of_snd h]

@[simp] theorem execPatternLoad_passes (c : CmdRef) (s : State) : Passes s (execPatternLoad c s) := by
  unfold execPatternLoad; (repeat' split) <;> simp

@[simp] theorem execSliceEnd_passes (p : Fin 16) (q : Fin 64) (s : State) : Passes s (execSliceEnd p q s) := by simp [execSliceEnd]

@[simp] theorem execLoanIdleExpired_passes (la : Fin 384) (s : State) : Passes s (execLoanIdleExpired la s) := by
  unfold execLoanIdleExpired; split <;> simp

@[simp] theorem execSealLimitExpired_passes (c : CmdRef) (s : State) : Passes s (execSealLimitExpired c s) := by
  unfold execSealLimitExpired; split <;> simp

@[simp] theorem execPlacementUnbound_passes (c : CmdRef) (s : State) : Passes s (execPlacementUnbound c s) := by
  unfold execPlacementUnbound; split <;> simp

/-! ### The slow-down report (R304, R305) -/

@[simp] theorem execIntervalReport_passes (p : Fin 16) (m : StallSample) (s : State) : Passes s (execIntervalReport p m s) := by simp [execIntervalReport]

end Sys2Proof.Machine
end


section

/-! SUPPORT. Every step: the front end, the step builder, other modules and the engines leave the queue and the fuses (09 R247-R275,
10 R308-R314, 12 R346-R359, 14 R413). -/

namespace Sys2Proof.Machine

@[simp] theorem State.take_ledger (s : State) (chan : Bool) (code : Nat) (who : Caller) (b : Option RingBlock × Option RingBlock) :
    (s.take chan code who b).ledger = s.ledger := by
  simp [State.take]

@[simp] theorem execCreate_passes (who : Caller) (s : State) : Passes s (execCreate who s) := by simp [execCreate]
@[simp] theorem execDestroy_passes (who : Caller) (s : State) : Passes s (execDestroy who s) := by simp [execDestroy]
@[simp] theorem execGrantArrays_passes (who : Caller) (s : State) : Passes s (execGrantArrays who s) := by simp [execGrantArrays]
@[simp] theorem execReleaseArrays_passes (who : Caller) (s : State) : Passes s (execReleaseArrays who s) := by simp [execReleaseArrays]
@[simp] theorem execGrantPlots_passes (who : Caller) (s : State) : Passes s (execGrantPlots who s) := by simp [execGrantPlots]
@[simp] theorem execReleasePlots_passes (who : Caller) (s : State) : Passes s (execReleasePlots who s) := by simp [execReleasePlots]
@[simp] theorem execGrantCores_passes (who : Caller) (s : State) : Passes s (execGrantCores who s) := by simp [execGrantCores]
@[simp] theorem execReleaseCores_passes (who : Caller) (s : State) : Passes s (execReleaseCores who s) := by simp [execReleaseCores]
@[simp] theorem execSetBandwidth_passes (who : Caller) (s : State) : Passes s (execSetBandwidth who s) := by simp [execSetBandwidth]
@[simp] theorem execSetLimits_passes (who : Caller) (s : State) : Passes s (execSetLimits who s) := by simp [execSetLimits]
@[simp] theorem execSetQueue_passes (who : Caller) (s : State) : Passes s (execSetQueue who s) := by simp [execSetQueue]
@[simp] theorem execSetLoan_passes (who : Caller) (s : State) : Passes s (execSetLoan who s) := by simp [execSetLoan]
@[simp] theorem execSetCredits_passes (who : Caller) (s : State) : Passes s (execSetCredits who s) := by simp [execSetCredits]
@[simp] theorem execSetRings_passes (who : Caller) (host : RingBlocks) (s : State) : Passes s (execSetRings who host s) := by simp [execSetRings]
@[simp] theorem execSetServing_passes (who : Caller) (s : State) : Passes s (execSetServing who s) := by simp [execSetServing]
@[simp] theorem execPartRead_passes (who : Caller) (s : State) : Passes s (execPartRead who s) := by simp [execPartRead]
@[simp] theorem execChanWrite_passes (who : Caller) (s : State) : Passes s (execChanWrite who s) := by simp [execChanWrite]
@[simp] theorem execChanRead_passes (who : Caller) (s : State) : Passes s (execChanRead who s) := by simp [execChanRead]
@[simp] theorem execChanStop_passes (who : Caller) (s : State) : Passes s (execChanStop who s) := by simp [execChanStop]
@[simp] theorem execChanStart_passes (who : Caller) (s : State) : Passes s (execChanStart who s) := by simp [execChanStart]
@[simp] theorem execChanDisable_passes (who : Caller) (s : State) : Passes s (execChanDisable who s) := by simp [execChanDisable]
@[simp] theorem execChannelStopped_passes (ch : Fin 3072) (s : State) : Passes s (execChannelStopped ch s) := by simp [execChannelStopped]

/-! ### Reads of the front end (R248, R252, R400) -/

@[simp] theorem State.frontRead_ledger (s : State) (ch : Fin 3072) (host : Bool) (a n : Nat) (h : HostRead) : (s.frontRead ch host a n h).2.ledger = s.ledger := by
  unfold State.frontRead
  dsimp only
  repeat' split
  · rfl
  · rfl
  · next h => simp [ledger_of_snd h]
  · next h => simp [ledger_of_snd h]
  · next h => simp [ledger_of_snd h]
  · next h => simp [ledger_of_snd h]
  · next h => simp [ledger_of_snd h]

@[simp] theorem State.frontAsk_ledger (s : State) (ch : Fin 3072) (i n : Nat) : (s.frontAsk ch i n).ledger = s.ledger := by simp [State.frontAsk]

/-! ### Doorbells (R248-R252) -/

@[simp] theorem State.takeDoorbell_ledger (s : State) (ch : Fin 3072) (v : BitVec 32) : (s.takeDoorbell ch v).ledger = s.ledger := by simp [State.takeDoorbell]

@[simp] theorem State.doorbell_ledger (s : State) (ch : Fin 3072) (h : HostRead) : (s.doorbell ch h).ledger = s.ledger := by
  unfold State.doorbell
  dsimp only
  repeat' split
  · rfl
  · next h => simp [ledger_of_snd h]
  · next h => simp [ledger_of_snd h]
  · next h => simp [ledger_of_snd h]
  · rfl

@[simp] theorem execDoorbellPoll_passes (ch : Fin 3072) (s : State) : Passes s (execDoorbellPoll ch s) := by
  unfold execDoorbellPoll; dsimp only; (repeat' split) <;> simp

@[simp] theorem execDoorbellRead_passes (ch : Fin 3072) (host : HostRead) (s : State) : Passes s (execDoorbellRead ch host s) := by simp [execDoorbellRead]
@[simp] theorem State.wakeChan_ledger (s : State) (ch : Fin 3072) : (s.wakeChan ch).ledger = s.ledger := (rfl)
@[simp] theorem State.pfNudge_ledger (s : State) (port : Fin 2) (ch : Fin 3072) : (s.pfNudge port ch).ledger = s.ledger := by simp [State.pfNudge]
@[simp] theorem execChanNudge_passes (port : Fin 2) (ch : Fin 3072) (s : State) : Passes s (execChanNudge port ch s) := by simp [execChanNudge]

@[simp] theorem State.vfNudge_ledger (s : State) (port : Fin 2) (fn : Fin 128) (slot : Fin 512) : (s.vfNudge port fn slot).ledger = s.ledger := by
  unfold State.vfNudge; (repeat' split) <;> simp

@[simp] theorem execVfNudge_passes (port : Fin 2) (fn : Fin 128) (slot : Fin 512) (s : State) : Passes s (execVfNudge port fn slot s) := by simp [execVfNudge]

/-! ### Semaphores before the start (R263-R265, R300) -/

@[simp] theorem State.semEntry_ledger (s : State) (c : Cmd) (x : Nat × Nat × Word) : (s.semEntry c x).2.ledger = s.ledger := by
  unfold State.semEntry
  repeat' split
  · next h => simp [ledger_of_snd h]
  · next h => simp [ledger_of_snd h]
  · next h _ => simp [ledger_of_snd h]
  · next h _ _ => simp [ledger_of_snd h]
  · next h _ _ _ => simp [ledger_of_snd h]
  · next h _ _ _ => simp [ledger_of_snd h]

@[simp] theorem State.semEntriesTest_ledger (s : State) (c : Cmd) (x : List (Nat × Nat × Word)) : (s.semEntriesTest c x).2.ledger = s.ledger := by
  induction x generalizing s with
  | nil => rfl
  | cons a l ih =>
    unfold State.semEntriesTest
    split
    · next h => simp [ledger_of_snd h]
    · next h => simp [ledger_of_snd h]
    · next h => simp [ih, ledger_of_snd h]

@[simp] theorem State.claimFrom_ledger (s : State) (c : Cmd) (x : Nat) (y : List (Nat × Nat × Word)) (z : List Nat) : (s.claimFrom c x y z).2.ledger = s.ledger := by
  induction y generalizing s x z with
  | nil => rfl
  | cons a l ih =>
    unfold State.claimFrom
    split
    · exact ih _ _ _
    · split
      · next h =>
        dsimp only
        split
        · simp [ledger_of_snd h]
        · split <;> simp [ih, ledger_of_snd h]
      · next h => simp [ledger_of_snd h]

@[simp] theorem State.donate_ledger (s : State) (p : Fin 16) (prio k : Nat) (x : Nat) : (s.donate p prio k x).ledger = s.ledger := by
  induction x generalizing s k with
  | zero => rfl
  | succ n ih =>
    unfold State.donate
    split
    · rfl
    · dsimp only
      split
      · rfl
      · split
        · simp
        · split <;> simp [ih]

@[simp] theorem State.semTest_ledger (s : State) (c : Cmd) : (s.semTest c).ledger = s.ledger := by
  unfold State.semTest
  dsimp only
  split
  · rfl
  · split
    · next h => simp [ledger_of_snd h]
    · next h => simp [ledger_of_snd h]
    · next h =>
      split
      · simp [ledger_of_snd h]
      · split <;> simp [ledger_of_snd h]
    · next h =>
      split
      · split <;> simp [ledger_of_snd h]
      · simp [ledger_of_snd h]

@[simp] theorem execSemaphoreRetest_passes (c : CmdRef) (s : State) : Passes s (execSemaphoreRetest c s) := by
  unfold execSemaphoreRetest; split <;> simp

@[simp] theorem State.undonate_ledger (s : State) (p : Fin 16) (k : Nat) (x : Nat) : (s.undonate p k x).ledger = s.ledger := by
  induction x generalizing s k with
  | zero => rfl
  | succ n ih =>
    unfold State.undonate
    split
    · rfl
    · dsimp only
      split
      · simp
      · split <;> simp [ih]

@[simp] theorem execDonationLimitExpired_passes (c : CmdRef) (s : State) : Passes s (execDonationLimitExpired c s) := by
  unfold execDonationLimitExpired; (repeat' split) <;> simp

/-! ### Descriptors (R247-R249, R255, R262) -/

@[simp] theorem State.slotRead_ledger (s : State) (ch : Fin 3072) (i : Nat) (h : HostRead) : (s.slotRead ch i h).2.ledger = s.ledger := by
  unfold State.slotRead; dsimp only; split <;> simp

@[simp] theorem State.slotsRead_ledger (s : State) (ch : Fin 3072) (h : HostRead) (x : Nat) (y : Nat) : (s.slotsRead ch h x y).2.ledger = s.ledger := by
  induction y generalizing s x with
  | zero => rfl
  | succ n ih =>
    unfold State.slotsRead
    split
    · next t h =>
      split
      · next k => simp [ih, ledger_of_snd k, ledger_of_snd h]
      · simp [ih, ledger_of_snd h]
    all_goals next h => simp [ledger_of_snd h]

@[simp] theorem State.takeCmd_ledger (s : State) (c : Cmd) (n : Nat) : (s.takeCmd c n).ledger = s.ledger := (rfl)

@[simp] theorem State.checkCmd_ledger (s : State) (c : Cmd) : (s.checkCmd c).ledger = s.ledger := by
  unfold State.checkCmd; split <;> simp

@[simp] theorem execDescriptorFetch_passes (ch : Fin 3072) (host : HostRead) (s : State) : Passes s (execDescriptorFetch ch host s) := by
  unfold execDescriptorFetch
  dsimp only
  split
  · simp
  · split
    · simp
    · next h => simp [ledger_of_snd h]
    · next h => simp [ledger_of_snd h]
    · next h =>
      split
      · simp [ledger_of_snd h]
      · split
        · simp
        all_goals next k => simp [ledger_of_snd k, ledger_of_snd h]

/-! ### The fence, interrupts and the return of killed commands -/

@[simp] theorem execQueueFence_passes (c : CmdRef) (s : State) : Passes s (execQueueFence c s) := by
  unfold execQueueFence; split <;> simp

@[simp] theorem execInterruptHoldoffExpired_passes (ch : Fin 3072) (s : State) : Passes s (execInterruptHoldoffExpired ch s) := by simp [execInterruptHoldoffExpired]

@[simp] theorem State.drained_ledger (s : State) (c : Cmd) (fin : Option (Nat × BitVec 32)) : (s.drained c fin).ledger = s.ledger := by
  unfold State.drained; split <;> simp

@[simp] theorem execKillDrainComplete_passes (c : CmdRef) (s : State) : Passes s (execKillDrainComplete c s) := by
  unfold execKillDrainComplete; (repeat' split) <;> simp

/-! ### Writes of a command's engines -/

@[simp] theorem State.putRemote_ledger (s : State) (c : Cmd) (hint m off va : Nat) (b : List Byte) : (s.putRemote c hint m off va b).ledger = s.ledger := by
  simp [State.putRemote]

@[simp] theorem State.putCut_ledger (s : State) (c : Cmd) (hint va : Nat) (b : List Byte) (po : BitVec 2) : (s.putCut c hint va b po).2.ledger = s.ledger := by
  unfold State.putCut
  dsimp only
  split <;> next h => simp [ledger_of_snd h]

@[simp] theorem State.putCuts_ledger (s : State) (c : Cmd) (hint : Nat) (x : List (Nat × Nat)) (y : List Byte) : (s.putCuts c hint x y).2.ledger = s.ledger := by
  induction x generalizing s y with
  | nil => rfl
  | cons a l ih =>
    have cut := s.putCut_ledger c hint a.1 (y.take a.2) 0
    unfold State.putCuts
    split
    · next t first =>
      rw [first] at cut
      exact (ih t _).trans cut
    · exact cut

@[simp] theorem State.engPut_ledger (s : State) (c : Cmd) (hint va : Nat) (b : List Byte) : (s.engPut c hint va b).2.ledger = s.ledger := by simp [State.engPut]

/-! ### The builder's accesses -/

@[simp] theorem State.stepRead_ledger (s : State) (c : Cmd) (va n : Nat) : (s.stepRead c va n).2.ledger = s.ledger := by
  unfold State.stepRead
  split <;> next h => simp [ledger_of_snd h]

@[simp] theorem State.stepReads_ledger (s : State) (c : Cmd) (x : List (Nat × Nat)) : (s.stepReads c x).2.ledger = s.ledger := by
  induction x generalizing s with
  | nil => rfl
  | cons a l ih =>
    unfold State.stepReads
    split
    · next h => simp [ledger_of_snd h]
    · next h => split <;> next k => simp [ih, ledger_of_snd k, ledger_of_snd h]

@[simp] theorem State.stepTemplate_ledger (s : State) (c : Cmd) : (s.stepTemplate c).2.ledger = s.ledger := by
  unfold State.stepTemplate
  dsimp only
  split
  · next h => simp [ledger_of_snd h]
  · next h => split <;> next k => simp [ledger_of_snd k, ledger_of_snd h]

@[simp] theorem State.stepBuild_ledger (s : State) (c : Cmd) : (s.stepBuild c).2.ledger = s.ledger := by
  unfold State.stepBuild
  dsimp only
  split
  · simp
  · split
    · next h => simp [ledger_of_snd h]
    · next h =>
      split
      · simp [ledger_of_snd h]
      · split
        · next k => simp [ledger_of_snd k, ledger_of_snd h]
        · next k =>
          split
          · simp [ledger_of_snd k, ledger_of_snd h]
          · split <;> next m => simp [ledger_of_snd m, ledger_of_snd k, ledger_of_snd h]

@[simp] theorem State.putAll_ledger (s : State) (c : Cmd) (hint : Nat) (x : List (Nat × List Byte)) : (s.putAll c hint x).2.ledger = s.ledger := by
  induction x generalizing s with
  | nil => rfl
  | cons a l ih =>
    have put := s.engPut_ledger c hint a.1 a.2
    unfold State.putAll
    split
    · next t first =>
      rw [first] at put
      exact (ih t).trans put
    · exact put

@[simp] theorem State.stepEnds_ledger (s : State) (c : Cmd) (x : StepEnd) : (s.stepEnds c x).ledger = s.ledger := by
  unfold State.stepEnds; split <;> simp

@[simp] theorem execStep_passes (ref : CmdRef) (s : State) : Passes s (execStep ref s) := by
  unfold execStep
  split
  · simp
  · split
    · simp
    · split
      · simp
      · split
        · simp
        · split
          · next h => simp [ledger_of_snd h]
          · next h =>
            dsimp only
            split
            · simp [ledger_of_snd h]
            · split <;> next k => simp [ledger_of_snd k, ledger_of_snd h]

/-! ### Frames (R346, R347) -/

@[simp] theorem State.makeFrame_ledger (s : State) (p : Fin 16) (x : FrameSpec) (payload : List Byte) : (s.makeFrame p x payload).2.ledger = s.ledger := by
  unfold State.makeFrame; split <;> simp

/-! ### Credits (R302, R348) -/

@[simp] theorem State.putOn_ledger (s : State) (n : Fin 12) (o : Option (Fin 16)) (f : TxFrame) : (s.putOn n o f).ledger = s.ledger := (rfl)
@[simp] theorem State.giveCredit_ledger (s : State) (n : Fin 12) (vc : Nat) : (s.giveCredit n vc).ledger = s.ledger := by simp [State.giveCredit]

/-! ### Routing (R350, R352) -/

@[simp] theorem State.setRoute_ledger (s : State) (m : BitVec 12) (r : RouteEntry) : (s.setRoute m r).ledger = s.ledger := (rfl)

@[simp] theorem State.sendFrame_ledger (s : State) (n : Fin 12) (o : FrameOwner) (f : TxFrame) : (s.sendFrame n o f).ledger = s.ledger := by
  unfold State.sendFrame; (repeat' split) <;> simp

@[simp] theorem State.frameGone_ledger (s : State) (o : FrameOwner) (f : TxFrame) : (s.frameGone o f).2.ledger = s.ledger := by
  unfold State.frameGone; (repeat' split) <;> simp

@[simp] theorem State.drain_ledger (s : State) : s.drain.2.ledger = s.ledger := by
  unfold State.drain
  dsimp only
  refine (foldl_ledger_snd _ (fun x w => ?_) _ _).trans rfl
  split <;> simp

/-! ### Failure of remote requests (R357, R358) -/

@[simp] theorem State.dropRemote_ledger (s : State) (tag : Nat) : (s.dropRemote tag).ledger = s.ledger := (rfl)
@[simp] theorem State.settleHome_ledger (s : State) (id : Nat) : (s.settleHome id).ledger = s.ledger := by simp [State.settleHome]
@[simp] theorem State.dropCopies_ledger (s : State) (p : Fin 16) (m off n : Nat) : (s.dropCopies p m off n).ledger = s.ledger := (rfl)

@[simp] theorem State.remoteKill_ledger (s : State) (c : Cmd) (why : RemoteFail) : (s.remoteKill c why).ledger = s.ledger := by
  unfold State.remoteKill
  dsimp only
  generalize (if c.stage = .finished then { c with stage := .running } else c) = d
  split <;> simp

@[simp] theorem State.remotePoison_ledger (s : State) (q : RemoteReq) (lp : Option (Fin 12)) : (s.remotePoison q lp).ledger = s.ledger := (rfl)

@[simp] theorem State.failRemote_ledger (s : State) (q : RemoteReq) (why : RemoteFail) (lp : Option (Fin 12)) : (s.failRemote q why lp).ledger = s.ledger := by
  unfold State.failRemote; dsimp only; (repeat' split) <;> simp

@[simp] theorem State.settleRoutes_ledger (s : State) : s.settleRoutes.ledger = s.ledger := (rfl)

@[simp] theorem State.failGone_ledger (s : State) (l : List Nat) : (s.failGone l).ledger = s.ledger := by
  unfold State.failGone
  refine foldl_ledger _ (fun t a => ?_) _ _
  split <;> simp

@[simp] theorem State.pump_ledger (s : State) : s.pump.ledger = s.ledger := by simp [State.pump]
@[simp] theorem State.post_ledger (s : State) (o : FrameOwner) (f : TxFrame) : (s.post o f).ledger = s.ledger := by simp [State.post]

/-! ### Requests to other modules -/

theorem State.ask_ledger {s t : State} {q : RemoteReq} {x : FrameSpec} {payload : List Byte} (h : s.ask q x payload = some t) : t.ledger = s.ledger := by
  unfold State.ask at h
  split at h
  · cases h
  · split at h
    · cases h
    · next made =>
      cases h
      simp [ledger_of_snd made]

@[simp] theorem State.spoilReads_ledger (s : State) (p : Fin 16) (line : Nat) : (s.spoilReads p line).ledger = s.ledger := (rfl)
@[simp] theorem State.handOver_ledger (s : State) (r : HomeReq) : (s.handOver r).ledger = s.ledger := (rfl)

@[simp] theorem State.noStream_ledger (s : State) (r : HomeReq) : (s.noStream r).ledger = s.ledger := by
  unfold State.noStream; dsimp only; (repeat' split) <;> simp

@[simp] theorem State.sendFrames_ledger (s : State) (r : HomeReq) (m : Nat) : (s.sendFrames r m).ledger = s.ledger := by
  unfold State.sendFrames
  refine (State.settleHome_ledger _ _).trans (foldl_ledger _ (fun t x => ?_) _ _)
  dsimp only
  cases asked : t.ask _ _ _ with
  | none => rfl
  | some u => exact State.ask_ledger asked

@[simp] theorem State.takeRemote_ledger (s : State) (r : HomeReq) (m : Nat) : (s.takeRemote r m).ledger = s.ledger := by
  unfold State.takeRemote
  split
  · rfl
  split
  · simp
  split <;> split
  any_goals rfl
  all_goals
    by_cases full : 16384 < s.link.reqs.length + r.op.frames.length
    · rw [if_pos full]
    rw [if_neg full]
    have sends (t : State) (kept : t.ledger = s.ledger) : ((t.handOver r).sendFrames r m).ledger = s.ledger := by simp [kept]
    generalize r.op = op
    cases op with
    | rdOnce => dsimp only; split <;> simp
    | write d msk =>
      refine sends _ ((State.spoilReads_ledger ..).trans ?_)
      split <;> simp
    | discard => simp
    | atomic | red => exact sends _ (by simp)

/-! ### The rows of the home (R190, R196, R185) -/

@[simp] theorem State.takeHome_ledger (s : State) (id : Nat) (kind : HomeOp → Bool) : (s.takeHome id kind).ledger = s.ledger := by
  unfold State.takeHome; (repeat' split) <;> simp

@[simp] theorem State.remoteEcc_ledger (s : State) (p : Fin 16) (line : Nat) (e : TagEcc) : (s.remoteEcc p line e).ledger = s.ledger := by
  unfold State.remoteEcc; split <;> simp

@[simp] theorem execRdOnce_passes (req : Nat) (ecc : TagEcc) (s : State) : Passes s (execRdOnce req ecc s) := by
  unfold execRdOnce; (repeat' split) <;> simp

@[simp] theorem execWrFull_passes (req : Nat) (s : State) : Passes s (execWrFull req s) := by simp [execWrFull]
@[simp] theorem execWrPart_passes (req : Nat) (s : State) : Passes s (execWrPart req s) := by simp [execWrPart]
@[simp] theorem execHomeAtomic_passes (req : Nat) (s : State) : Passes s (execHomeAtomic req s) := by simp [execHomeAtomic]
@[simp] theorem execHomeRed_passes (req : Nat) (s : State) : Passes s (execHomeRed req s) := by simp [execHomeRed]
@[simp] theorem execDiscard_passes (req : Nat) (s : State) : Passes s (execDiscard req s) := by simp [execDiscard]

/-! ### Frames received (R346-R349, R351, R355) -/

theorem State.hopTake_ledger {s t : State} {n : Fin 12} {f : Frame} (h : s.hopTake n f = some t) : t.ledger = s.ledger := by
  unfold State.hopTake at h
  dsimp only at h
  split at h
  · cases h
  · cases h; rfl

@[simp] theorem State.hopLost_ledger (s : State) (n : Fin 12) (f : Frame) : (s.hopLost n f).ledger = s.ledger := by simp [State.hopLost]
@[simp] theorem State.frameInvalid_ledger (s : State) (n : Fin 12) : (s.frameInvalid n).ledger = s.ledger := (rfl)
@[simp] theorem State.streamClosed_ledger (s : State) (n : Fin 12) (k : Nat) (r : RxStream) : (s.streamClosed n k r).ledger = s.ledger := by simp [State.streamClosed]

@[simp] theorem State.authFailed_ledger (s : State) (n : Fin 12) (f : TxFrame) : (s.authFailed n f).ledger = s.ledger := by
  unfold State.authFailed; dsimp only; split <;> simp

@[simp] theorem State.checkFrame_ledger (s : State) (n : Fin 12) (f : Frame) : (s.checkFrame n f).2.ledger = s.ledger := by
  unfold State.checkFrame; dsimp only; (repeat' split) <;> simp

@[simp] theorem State.forward_ledger (s : State) (n : Fin 12) (f : TxFrame) : (s.forward n f).ledger = s.ledger := by simp [State.forward]

@[simp] theorem State.receive_ledger (s : State) (n : Fin 12) (op : Nat) (f : Frame) (ready : Bool) (go : RxStream → State → State)
    (keeps : ∀ r t, (go r t).ledger = t.ledger) : (s.receive n op f ready go).ledger = s.ledger := by
  unfold State.receive
  dsimp only
  split
  · rfl
  · split
    · simp
    · next t h =>
      have taken := State.hopTake_ledger h
      split
      · split <;> simp [taken]
      · split
        · simp [taken]
        · split
          · rfl
          · rw [State.pump_ledger, State.giveCredit_ledger]
            split <;> simp [keeps, taken]

/-! ### Responses (R357, R358) -/

@[simp] theorem State.addOld_ledger (s : State) (la cohort : Nat) (group : Fin 16) (id lane : Nat) (v : Word) :
    (s.addOld la cohort group id lane v).ledger = s.ledger := (rfl)

@[simp] theorem State.fillRemote_ledger (s : State) (q : RemoteReq) (line : Nat) (d : Line) : (s.fillRemote q line d).ledger = s.ledger := by simp [State.fillRemote]

@[simp] theorem State.pulled_ledger (s : State) (c : CmdRef) (va : Nat) (b : List Byte) : (s.pulled c va b).ledger = s.ledger := by
  unfold State.pulled
  repeat' split
  · rfl
  · rfl
  · next h => simp [ledger_of_snd h]
  · next h => simp [ledger_of_snd h]
  · next h => simp [ledger_of_snd h]

@[simp] theorem execReadData_passes (lp : Fin 12) (f : Frame) (s : State) : Passes s (execReadData lp f s) := by
  refine (passes_next ..).mpr (State.receive_ledger _ _ _ _ _ _ (fun r t => ?_))
  split
  · rfl
  · split
    · rfl
    · split
      · simp
      · dsimp only
        split
        · split <;> simp
        · simp

@[simp] theorem execWriteAck_passes (lp : Fin 12) (f : Frame) (s : State) : Passes s (execWriteAck lp f s) := by
  refine (passes_next ..).mpr (State.receive_ledger _ _ _ _ _ _ (fun r t => ?_))
  split
  · rfl
  · split
    · rfl
    · split
      · simp
      · split <;> simp

@[simp] theorem execAtomicData_passes (lp : Fin 12) (f : Frame) (s : State) : Passes s (execAtomicData lp f s) := by
  refine (passes_next ..).mpr (State.receive_ledger _ _ _ _ _ _ (fun r t => ?_))
  split
  · rfl
  · split
    · rfl
    · split
      · simp
      · split
        · dsimp only
          split
          · split <;> simp
          · simp
        · simp

@[simp] theorem execRemoteTimeout_passes (tag : Fin 16384) (s : State) : Passes s (execRemoteTimeout tag s) := by
  unfold execRemoteTimeout; split <;> simp

@[simp] theorem execCredit_passes (lp : Fin 12) (vc : Fin 4) (n : Byte) (s : State) : Passes s (execCredit lp vc n s) := by simp [execCredit]
@[simp] theorem execHopReplayTimeout_passes (lp : Fin 12) (s : State) : Passes s (execHopReplayTimeout lp s) := by simp [execHopReplayTimeout]
@[simp] theorem State.writeRoute_ledger (s : State) (port : Fin 2) (v : Word) : (s.writeRoute port v).ledger = s.ledger := by simp [State.writeRoute]
@[simp] theorem execLnkRouteEntry_passes (port : Fin 2) (v : Word) (s : State) : Passes s (execLnkRouteEntry port v s) := by simp [execLnkRouteEntry]

/-! ### How an engine runs -/

@[simp] theorem State.afterEnd_ledger (s : State) (c : Cmd) : (s.afterEnd c).ledger = s.ledger := by simp [State.afterEnd]

@[simp] theorem State.endEng_ledger (s : State) (c : CmdRef) (status : Nat) (detail : BitVec 32) : (s.endEng c status detail).ledger = s.ledger := by
  unfold State.endEng; split <;> simp

@[simp] theorem State.begin_ledger (s : State) (ref : CmdRef) (kind : Nat) : (s.begin ref kind).2.ledger = s.ledger := by
  unfold State.begin; split <;> simp

@[simp] theorem State.onCmd_ledger (s : State) (ref : CmdRef) (f : Cmd → Cmd) : (s.onCmd ref f).ledger = s.ledger := by
  unfold State.onCmd; split <;> simp

@[simp] theorem State.engDone_ledger (s : State) (c : CmdRef) : (s.engDone c).ledger = s.ledger := by simp [State.engDone]
@[simp] theorem State.engFault_ledger (s : State) (c : Cmd) (va : Nat) (write : Bool) : (s.engFault c va write).ledger = s.ledger := by simp [State.engFault]

@[simp] theorem State.engPoison_ledger (s : State) (c : Cmd) (g va : Nat) : (s.engPoison c g va).ledger = s.ledger := by
  unfold State.engPoison; (repeat' split) <;> simp

@[simp] theorem State.engGets_ledger (s : State) (c : Cmd) (hint : Nat) (x : List (Nat × Nat)) : (s.engGets c hint x).2.ledger = s.ledger := by
  induction x generalizing s with
  | nil => rfl
  | cons a l ih =>
    unfold State.engGets
    split
    · next h => simp [ledger_of_snd h]
    · next h => simp [ledger_of_snd h]
    · next h => simp [ledger_of_snd h]
    · next h =>
      split
      · next k => simp [ih, ledger_of_snd k, ledger_of_snd h]
      · simp [ih, ledger_of_snd h]

@[simp] theorem State.engPuts_ledger (s : State) (c : Cmd) (hint : Nat) (x : List (Nat × List Byte)) : (s.engPuts c hint x).2.ledger = s.ledger := by
  induction x generalizing s with
  | nil => rfl
  | cons a l ih =>
    unfold State.engPuts
    split <;> next h => simp [ih, ledger_of_snd h]

/-! ### COPY (R258) -/

@[simp] theorem State.copyReduce_ledger (s : State) (c : Cmd) (df op hint va v : Nat) : (s.copyReduce c df op hint va v).2.ledger = s.ledger := by
  unfold State.copyReduce
  split
  · next h =>
    dsimp only
    split
    · simp [ledger_of_snd h]
    · split
      · simp [ledger_of_snd h]
      · split <;> next k => simp [ledger_of_snd k, ledger_of_snd h]
  all_goals next h => simp [ledger_of_snd h]

@[simp] theorem State.copyReduces_ledger (s : State) (c : Cmd) (df op hint : Nat) (x : List (Nat × Nat)) : (s.copyReduces c df op hint x).2.ledger = s.ledger := by
  induction x generalizing s with
  | nil => rfl
  | cons a l ih =>
    have first := s.copyReduce_ledger c df op hint a.1 a.2
    unfold State.copyReduces
    split
    · next h =>
      rw [h] at first
      exact (ih _).trans first
    · exact first

@[simp] theorem execCopy_passes (ref : CmdRef) (s : State) : Passes s (execCopy ref s) := by
  unfold execCopy
  split
  · next h => simp [ledger_of_snd h]
  · next h =>
    dsimp only
    split
    · simp [ledger_of_snd h]
    · split
      · next k => simp [ledger_of_snd k, ledger_of_snd h]
      · next k => split <;> split <;> simp [ledger_of_snd k, ledger_of_snd h]

/-! ### FILL (R261) -/

@[simp] theorem execFill_passes (ref : CmdRef) (s : State) : Passes s (execFill ref s) := by
  unfold execFill
  split
  · next h => simp [ledger_of_snd h]
  · next h =>
    dsimp only
    split
    · simp [ledger_of_snd h]
    · split <;> next k => simp [ledger_of_snd k, ledger_of_snd h]

/-! ### Frames of copy engines (R359, R414) -/

@[simp] theorem State.mergeCopies_ledger (s : State) (p : Fin 16) (m off : Nat) (b : List Byte) : (s.mergeCopies p m off b).ledger = s.ledger := by
  unfold State.mergeCopies
  refine foldl_ledger _ (fun t a => ?_) _ _
  split <;> simp

theorem State.pushFrame_ledger {s t : State} {c : Cmd} {m off : Nat} {b : List Byte} {stash : Nat} (h : s.pushFrame c m off b stash = some t) : t.ledger = s.ledger := by
  unfold State.pushFrame at h
  split at h
  · cases h
  · dsimp only at h
    split at h
    · cases h
    · next asked =>
      cases h
      simp [State.ask_ledger asked]

theorem State.pullFrame_ledger {s t : State} {c : Cmd} {m off n va : Nat} (h : s.pullFrame c m off n va = some t) : t.ledger = s.ledger := by
  unfold State.pullFrame at h
  split at h
  · cases h
  · exact State.ask_ledger h

/-! ### REMOTE_COPY (R359) -/

/-- The state that a frame of a move leaves. -/
def Moved.state : Moved → State
  | .more s => s
  | .stop s => s

@[simp] theorem Moved.state_more (s : State) : (Moved.more s).state = s := (rfl)
@[simp] theorem Moved.state_stop (s : State) : (Moved.stop s).state = s := (rfl)

theorem State.moveFrame_ledger (s : State) (c : Cmd) (push : Bool) : (s.moveFrame c push).state.ledger = s.ledger := by
  unfold State.moveFrame
  dsimp only
  generalize (if blk c.head 42 0 12 = 0 then BitVec.allOnes 12 else BitVec.ofNat 12 (blk c.head 42 0 12)) = ports
  generalize (if push then blk c.head 24 0 64 + c.sent else blk c.head 16 0 64 + c.sent) = far
  split
  · next h =>
    split
    · simp [ledger_of_snd h]
    · split
      · simp [ledger_of_snd h]
      · split
        · split
          · next k => simp [ledger_of_snd k, ledger_of_snd h]
          · next k => simp [ledger_of_snd k, ledger_of_snd h]
          · next k => simp [ledger_of_snd k, ledger_of_snd h]
          · next k =>
            split
            · simp [ledger_of_snd k, ledger_of_snd h]
            · next pushed => simp [State.pushFrame_ledger pushed, ledger_of_snd k, ledger_of_snd h]
        · split
          · next k => simp [ledger_of_snd k, ledger_of_snd h]
          · next k => simp [ledger_of_snd k, ledger_of_snd h]
          · next k => simp [ledger_of_snd k, ledger_of_snd h]
          · next k =>
            split
            · simp [ledger_of_snd k, ledger_of_snd h]
            · next pulled => simp [State.pullFrame_ledger pulled, ledger_of_snd k, ledger_of_snd h]
  all_goals next h => simp [ledger_of_snd h]

@[simp] theorem State.moveFrames_ledger (ref : CmdRef) (push : Bool) (n : Nat) (s : State) : (State.moveFrames ref push n s).ledger = s.ledger := by
  induction n generalizing s with
  | zero => rfl
  | succ n ih =>
    unfold State.moveFrames
    split
    · rfl
    · next c _ =>
      split
      · rfl
      · split
        · split <;> simp
        · have moved := s.moveFrame_ledger c push
          split <;> next h => simpa [ih, h] using moved

@[simp] theorem execRemoteCopy_passes (ref : CmdRef) (s : State) : Passes s (execRemoteCopy ref s) := by
  unfold execRemoteCopy
  split
  · next h => simp [ledger_of_snd h]
  · next h =>
    split
    · simp [ledger_of_snd h]
    · dsimp only
      split
      · split <;> simp [ledger_of_snd h]
      · simp [ledger_of_snd h]

/-! ### CHECKPOINT (R413, R414) -/

@[simp] theorem State.ckRead_ledger (s : State) (c : Cmd) (index va : Nat) : (s.ckRead c index va).2.ledger = s.ledger := by
  unfold State.ckRead
  dsimp only
  split
  · next h => (repeat' split) <;> simp [ledger_of_snd h]
  · next h => simp [ledger_of_snd h]
  · next h => simp [ledger_of_snd h]
  · next h =>
    split
    · next k => simp [ledger_of_snd k, ledger_of_snd h]
    · next k => simp [ledger_of_snd k, ledger_of_snd h]
    · next k => simp [ledger_of_snd k, ledger_of_snd h]
    · next k => split <;> simp [ledger_of_snd k, ledger_of_snd h]

@[simp] theorem State.ckRegion_ledger (s : State) (c : Cmd) (index va : Nat) (x : Nat) : (s.ckRegion c index va x).2.ledger = s.ledger := by
  induction x generalizing s va with
  | zero => rfl
  | succ n ih =>
    unfold State.ckRegion
    split
    · next h => simp [ledger_of_snd h]
    · next h =>
      split
      · next k => simp [ih, ledger_of_snd k, ledger_of_snd h]
      · simp [ih, ledger_of_snd h]

@[simp] theorem State.ckRegions_ledger (s : State) (c : Cmd) (x : Nat) (y : List (Nat × Nat)) : (s.ckRegions c x y).2.ledger = s.ledger := by
  induction y generalizing s x with
  | nil => rfl
  | cons a l ih =>
    unfold State.ckRegions
    split
    · next h => simp [ledger_of_snd h]
    · next h =>
      split
      · next k => simp [ih, ledger_of_snd k, ledger_of_snd h]
      · simp [ih, ledger_of_snd h]

@[simp] theorem State.ckHeader_ledger (s : State) (c : Cmd) (count : Nat) (body : List CkLine) : (s.ckHeader c count body).2.ledger = s.ledger := (rfl)

@[simp] theorem State.ckBuild_ledger (s : State) (c : Cmd) : (s.ckBuild c).2.ledger = s.ledger := by
  unfold State.ckBuild
  dsimp only
  split
  · next h => simp [ledger_of_snd h]
  · next h => simp [ledger_of_snd h]
  · next h => simp [ledger_of_snd h]
  · next h =>
    split
    · simp [ledger_of_snd h]
    · split
      · simp [ledger_of_snd h]
      · split <;> next k => simp [ledger_of_snd k, ledger_of_snd h]

theorem State.ckPiece_ledger (s : State) (c : Cmd) (k n : Nat) : (s.ckPiece c k n).state.ledger = s.ledger := by
  unfold State.ckPiece
  dsimp only
  split
  · next h =>
    split
    · simp [ledger_of_snd h]
    · split
      · simp [ledger_of_snd h]
      · next pushed => simp [State.pushFrame_ledger pushed, ledger_of_snd h]
  · next h =>
    split
    · simp [ledger_of_snd h]
    · split <;> next put => simp [ledger_of_snd put, ledger_of_snd h]

@[simp] theorem State.ckWrite_ledger (ref : CmdRef) (n : Nat) (s : State) : (State.ckWrite ref n s).ledger = s.ledger := by
  induction n generalizing s with
  | zero => rfl
  | succ n ih =>
    unfold State.ckWrite
    split
    · rfl
    · next c _ =>
      dsimp only
      split
      · rfl
      · split
        · split <;> simp
        · split
          · split
            · rfl
            · have moved := s.ckPiece_ledger c 0 1
              split <;> next h => simpa [ih, h] using moved
          · have moved := s.ckPiece_ledger c c.sent (c.buf.length / 128 - c.sent)
            split <;> next h => simpa [ih, h] using moved

@[simp] theorem execCheckpoint_passes (ref : CmdRef) (s : State) : Passes s (execCheckpoint ref s) := by
  unfold execCheckpoint
  split
  · next h => simp [ledger_of_snd h]
  · next h =>
    split
    · simp [ledger_of_snd h]
    · split <;> next k => simp [ledger_of_snd k, ledger_of_snd h]

/-! ### TABLE_INVALIDATE (R260) -/

@[simp] theorem State.rewatch_ledger (s : State) (p : Fin 16) (r : Nat × Nat) : (s.rewatch p r).ledger = s.ledger := by simp [State.rewatch]

@[simp] theorem execTableInvalidate_passes (ref : CmdRef) (s : State) : Passes s (execTableInvalidate ref s) := by
  unfold execTableInvalidate
  repeat' split
  · next h => simp [ledger_of_snd h]
  · next h _ _ => simp [ledger_of_snd h]
  · next h _ _ => simp [ledger_of_snd h]
  · next h _ _ _ => simp [ledger_of_snd h]

/-! ### REPLAY (R74, R76, R259) -/

@[simp] theorem State.regain_ledger (s : State) (la : Nat) (c : Cmd) (g : Group) : (s.regain la c g).ledger = s.ledger := by simp [State.regain]

@[simp] theorem State.resumePark_ledger (s : State) (la : Nat) (c : Cmd) (k : Fin 16) (p : Park) (g : Group) : (s.resumePark la c k p g).ledger = s.ledger := by
  unfold State.resumePark; (repeat' split) <;> simp

@[simp] theorem State.skipPark_ledger (s : State) (la : Nat) (c : Cmd) (k : Fin 16) (p : Park) (g : Group) : (s.skipPark la c k p g).ledger = s.ledger := by
  unfold State.skipPark; split <;> simp

@[simp] theorem State.replayOne_ledger (s : State) (part : Fin 16) (ticket : BitVec 32) (action : Nat) : (s.replayOne part ticket action).2.ledger = s.ledger := by
  unfold State.replayOne; dsimp only; (repeat' split) <;> simp

@[simp] theorem State.replayAll_ledger (s : State) (c : Cmd) (x : Nat) (y : Nat) : (s.replayAll c x y).2.ledger = s.ledger := by
  induction y generalizing s x with
  | zero => rfl
  | succ n ih => simp [State.replayAll, ih]

@[simp] theorem execReplay_passes (ref : CmdRef) (s : State) : Passes s (execReplay ref s) := by
  unfold execReplay; dsimp only; (repeat' split) <;> simp

/-! ### The step builder's application (R313) -/

@[simp] theorem State.applyStep_ledger (s : State) (c : Cmd) : (s.applyStep c).2.ledger = s.ledger := by
  unfold State.applyStep
  split
  · rfl
  · split
    · rfl
    · dsimp only
      split
      · next h => split <;> simp [ledger_of_snd h]
      · next h =>
        split
        · simp [ledger_of_snd h]
        · split <;> next k => simp [ledger_of_snd k, ledger_of_snd h]

/-! ### The numeric report (R129) -/

@[simp] theorem State.writeReport_ledger (s : State) (c : Cmd) : (s.writeReport c).2.ledger = s.ledger := by
  unfold State.writeReport; dsimp only; (repeat' split) <;> simp

/-! ### Release and signals (R216, R264, R265, R470) -/

@[simp] theorem State.signal_ledger (s : State) (c : Cmd) (va op : Nat) (v : Word) : (s.signal c va op v).2.ledger = s.ledger := by
  unfold State.signal
  split <;> next h => simp [ledger_of_snd h]

@[simp] theorem State.signals_ledger (s : State) (c : Cmd) : (s.signals c).2.ledger = s.ledger := by simp [State.signals]

@[simp] theorem State.commitTail_ledger (s : State) (c : Cmd) : (s.commitTail c).ledger = s.ledger := by
  unfold State.commitTail; dsimp only; (repeat' split) <;> simp

@[simp] theorem execCommitPoint_passes (ref : CmdRef) (s : State) : Passes s (execCommitPoint ref s) := by
  unfold execCommitPoint
  repeat' split
  · simp
  · simp
  · next h => simp [ledger_of_snd h]
  · next h₁ _ _ h₂ => simp [ledger_of_snd h₁, ledger_of_snd h₂]
  · next h₁ _ _ h₂ => simp [ledger_of_snd h₁, ledger_of_snd h₂]

end Sys2Proof.Machine
end


section

/-! SUPPORT. Every step: host ports, DOE, Meridian ports, guests and registers leave the queue and the fuses (11 R315-R338, 12 R341-R358, 07 R239). -/

namespace Sys2Proof.Machine

/-! ### Functions -/

@[simp] theorem State.tdispError_ledger (s : State) (port : Fin 2) (fn : Fin 128) : (s.tdispError port fn).ledger = s.ledger := by
  unfold State.tdispError; dsimp only; (repeat' split) <;> simp

@[simp] theorem State.resetChannel_ledger (s : State) (ch : Fin 3072) (cause : Nat) : (s.resetChannel ch cause).ledger = s.ledger := by
  unfold State.resetChannel
  split
  · simp
  · split
    · refine (foldl_ledger _ (fun t c => ?_) _ _).trans (State.setDyn_ledger ..)
      split <;> simp
    · rfl

@[simp] theorem State.startReset_ledger (s : State) (port : Fin 2) (fn : Fin 128) (cause : Nat) (disable : Bool) :
    (s.startReset port fn cause disable).ledger = s.ledger := by
  simp [State.startReset]

@[simp] theorem State.afterReset_ledger (s : State) : s.afterReset.ledger = s.ledger := by simp [State.afterReset]

@[simp] theorem State.resetFns_ledger (s : State) (port : Fin 2) (l : List (Fin 128)) (cause : Nat) (disable : Bool) :
    (s.resetFns port l cause disable).ledger = s.ledger := by
  simp [State.resetFns]

@[simp] theorem State.resetPort_ledger (s : State) (port : Fin 2) (cause : Nat) : (s.resetPort port cause).ledger = s.ledger := by simp [State.resetPort]
@[simp] theorem execFlr_passes (port : Fin 2) (fn : Fin 128) (s : State) : Passes s (execFlr port fn s) := by simp [execFlr]
@[simp] theorem execVfEnableCleared_passes (port : Fin 2) (numVfs : Fin 128) (s : State) : Passes s (execVfEnableCleared port numVfs s) := by simp [execVfEnableCleared]

@[simp] theorem execBusMasterEnableCleared_passes (port : Fin 2) (fn : Fin 128) (d3hot : Bool) (s : State) : Passes s (execBusMasterEnableCleared port fn d3hot s) := by
  simp [execBusMasterEnableCleared]

@[simp] theorem execPfFlr_passes (port : Fin 2) (s : State) : Passes s (execPfFlr port s) := by simp [execPfFlr]
@[simp] theorem execPerstAsserted_passes (port : Fin 2) (how : PortReset) (s : State) : Passes s (execPerstAsserted port how s) := by simp [execPerstAsserted]
@[simp] theorem execPerstReleased_passes (port : Fin 2) (s : State) : Passes s (execPerstReleased port s) := by simp [execPerstReleased]

@[simp] theorem execPcieLinkUp_passes (port : Fin 2) (width : Fin 16) (rate : Fin 8) (flit : Bool) (s : State) : Passes s (execPcieLinkUp port width rate flit s) := by
  simp [execPcieLinkUp]

@[simp] theorem execFunctionEnable_passes (port : Fin 2) (fn : Fin 128) (how : EnableCause) (s : State) : Passes s (execFunctionEnable port fn how s) := by
  unfold execFunctionEnable; (repeat' split) <;> simp

/-! ### The end of a reset (R331 steps 3-8, R454) -/

@[simp] theorem State.cleanWays_ledger (s : State) (p : Fin 16) : (s.cleanWays p).ledger = s.ledger := by simp [State.cleanWays]
@[simp] theorem State.resetPortRegs_ledger (s : State) (port : Fin 2) : (s.resetPortRegs port).ledger = s.ledger := by simp [State.resetPortRegs]

@[simp] theorem execFunctionResetComplete_passes (port : Fin 2) (fn : Fin 128) (s : State) : Passes s (execFunctionResetComplete port fn s) := by
  simp [execFunctionResetComplete]

/-! ### Configuration (R217, R277, R322, R323, R325, R333) -/

@[simp] theorem State.configWrite_ledger (s : State) (port : Fin 2) (fn : Fin 128) (b : CfgBit) (v : Bool) : (s.configWrite port fn b v).ledger = s.ledger := by
  unfold State.configWrite; split <;> simp

@[simp] theorem execConfigRequest_passes (port : Fin 2) (fn : Fin 128) (op : CfgOp) (s : State) : Passes s (execConfigRequest port fn op s) := by
  unfold execConfigRequest; (repeat' split) <;> simp

/-! ### Apertures (R218, R318, R326, R378) -/

@[simp] theorem execApertureWrite_passes (port : Fin 2) (fn : Fin 128) (off : BitVec 36) (data : List Byte) (tlp : TlpHints) (s : State) :
    Passes s (execApertureWrite port fn off data tlp s) := by
  unfold execApertureWrite; (repeat' split) <;> simp

@[simp] theorem execApertureRead_passes (port : Fin 2) (fn : Fin 128) (off : BitVec 36) (len : Nat) (s : State) : Passes s (execApertureRead port fn off len s) := by
  unfold execApertureRead; (repeat' split) <;> simp

@[simp] theorem execInboundAtomicop_passes (port : Fin 2) (fn : Fin 128) (s : State) : Passes s (execInboundAtomicop port fn s) := by simp [execInboundAtomicop]

/-! ### Completions (R217, R321, R331 step 4) -/

@[simp] theorem State.partResult_ledger (s : State) (la cohort : Nat) (group : Fin 16) (id : Nat) (v : LoadResult) :
    (s.partResult la cohort group id v).ledger = s.ledger := (rfl)

@[simp] theorem State.hostData_ledger (s : State) (r : HostTag) (st : CplStatus) (data : List Byte) : (s.hostData r st data).ledger = s.ledger := by
  unfold State.hostData; (repeat' split) <;> simp

@[simp] theorem execPcieCompletion_passes (tag : Nat) (st : CplStatus) (data : List Byte) (s : State) : Passes s (execPcieCompletion tag st data s) := by
  unfold execPcieCompletion; split <;> simp

/-! ### ATS and PRI (R324, R325) -/

@[simp] theorem execAtsInvalidateRequest_passes (port : Fin 2) (fn : Fin 128) (pasid : Option (BitVec 20)) (first : BitVec 52) (count : Nat) (s : State) :
    Passes s (execAtsInvalidateRequest port fn pasid first count s) := by
  simp [execAtsInvalidateRequest]

@[simp] theorem State.pageGranted_ledger (s : State) (r : PageReq) : (s.pageGranted r).ledger = s.ledger := by
  unfold State.pageGranted; dsimp only; (repeat' split) <;> simp

@[simp] theorem State.pageRefused_ledger (s : State) (r : PageReq) : (s.pageRefused r).ledger = s.ledger := by
  unfold State.pageRefused; split <;> simp

@[simp] theorem State.pageFailed_ledger (s : State) (x : PageReq) : (s.pageFailed x).ledger = s.ledger := by simp [State.pageFailed]

@[simp] theorem execPageRequestResponse_passes (tag : Nat) (r : PrgResult) (s : State) : Passes s (execPageRequestResponse tag r s) := by
  unfold execPageRequestResponse; (repeat' split) <;> simp

/-! ### Bindings (R317, R338, R378) -/

@[simp] theorem State.clearDefaults_ledger (s : State) (p : Fin 16) : (s.clearDefaults p).ledger = s.ledger := by simp [State.clearDefaults]

@[simp] theorem State.setDefault_ledger (s : State) (port : Fin 2) (fn : Fin 128) (p : Option (Fin 16)) (on : Bool) (pasid : BitVec 20) :
    (s.setDefault port fn p on pasid).ledger = s.ledger := by
  unfold State.setDefault; split <;> simp

@[simp] theorem State.bindFn_ledger (s : State) (port : Fin 2) (fn : Fin 128) (v : Word) : (s.bindFn port fn v).ledger = s.ledger := by simp [State.bindFn]
@[simp] theorem execPcieFnBind_passes (port : Fin 2) (v : Word) (s : State) : Passes s (execPcieFnBind port v s) := by simp [execPcieFnBind]

/-! ### Dirty-page logging (R335-R337) -/

@[simp] theorem State.flipFn_ledger (s : State) (port : Fin 2) (fn : Fin 128) : (s.flipFn port fn).ledger = s.ledger := by simp [State.flipFn]
@[simp] theorem execFlip_passes (port : Fin 2) (s : State) : Passes s (execFlip port s) := by simp [execFlip]
@[simp] theorem execFlipComplete_passes (port : Fin 2) (fn : Fin 128) (s : State) : Passes s (execFlipComplete port fn s) := by simp [execFlipComplete]
@[simp] theorem State.doeAnswer_ledger (s : State) (port : Fin 2) (fn : Fin 128) (ty : Nat) (b : List Byte) : (s.doeAnswer port fn ty b).ledger = s.ledger := (rfl)

@[simp] theorem execDoeDiscovery_passes (port : Fin 2) (fn : Fin 128) (index : Byte) (s : State) : Passes s (execDoeDiscovery port fn index s) := by
  simp [execDoeDiscovery]

@[simp] theorem State.openAnswer_ledger (s : State) (port : Fin 2) (fn : Fin 128) (ty : Nat) (req : List Byte) : (s.openAnswer port fn ty req).ledger = s.ledger := (rfl)

@[simp] theorem execSpdmRequest_passes (port : Fin 2) (fn : Fin 128) (secured : Bool) (req : SpdmReq) (s : State) : Passes s (execSpdmRequest port fn secured req s) := by
  unfold execSpdmRequest; (repeat' split) <;> simp

@[simp] theorem State.setIde_ledger (s : State) (port : Fin 2) (i : Nat) (x : IdeStream) : (s.setIde port i x).ledger = s.ledger := by simp [State.setIde]

@[simp] theorem execIdeKm_passes (port : Fin 2) (fn : Fin 128) (secured : Bool) (stream : Fin 5) (op : IdeOp) (s : State) :
    Passes s (execIdeKm port fn secured stream op s) := by
  unfold execIdeKm; (repeat' split) <;> simp

@[simp] theorem execIdeIntegrityFailure_passes (port : Fin 2) (stream : Fin 5) (s : State) : Passes s (execIdeIntegrityFailure port stream s) := by
  unfold execIdeIntegrityFailure; split <;> simp

@[simp] theorem execLockInterfaceRequest_passes (port : Fin 2) (fn : Fin 128) (secured : Bool) (s : State) : Passes s (execLockInterfaceRequest port fn secured s) := by
  unfold execLockInterfaceRequest; dsimp only; (repeat' split) <;> simp

@[simp] theorem execStartInterfaceRequest_passes (port : Fin 2) (fn : Fin 128) (secured : Bool) (s : State) : Passes s (execStartInterfaceRequest port fn secured s) := by
  simp [execStartInterfaceRequest]

@[simp] theorem execAttestationReportRequest_passes (port : Fin 2) (fn : Fin 128) (secured : Bool) (nonce : BitVec 256) (user : BitVec 512) (part : Byte) (s : State) :
    Passes s (execAttestationReportRequest port fn secured nonce user part s) := by
  unfold execAttestationReportRequest; dsimp only; (repeat' split) <;> simp

@[simp] theorem execDoeAbort_passes (port : Fin 2) (fn : Fin 128) (s : State) : Passes s (execDoeAbort port fn s) := by simp [execDoeAbort]

/-! ### Ports (R343, R353) -/

@[simp] theorem State.handBack_ledger (s : State) (n : Fin 12) : (s.handBack n).ledger = s.ledger := (rfl)
@[simp] theorem State.sendHello_ledger (s : State) (n : Fin 12) : (s.sendHello n).ledger = s.ledger := (rfl)
@[simp] theorem State.portTo_ledger (s : State) (n : Fin 12) (m : LpMode) (byEnable : Bool) : (s.portTo n m byEnable).ledger = s.ledger := by simp [State.portTo]
@[simp] theorem State.portControl_ledger (s : State) (n : Fin 12) (v : Word) : (s.portControl n v).ledger = s.ledger := by simp [State.portControl]
@[simp] theorem State.linkControl_ledger (s : State) (port : Fin 2) (v : Word) : (s.linkControl port v).ledger = s.ledger := by simp [State.linkControl]
@[simp] theorem execLnkPortEnable_passes (port : Fin 2) (v : Word) (s : State) : Passes s (execLnkPortEnable port v s) := by simp [execLnkPortEnable]
@[simp] theorem execLnkPortRetrain_passes (port : Fin 2) (v : Word) (s : State) : Passes s (execLnkPortRetrain port v s) := by simp [execLnkPortRetrain]

@[simp] theorem execHello_passes (lp : Fin 12) (peer : BitVec 12) (peerPort : Fin 16) (sparePeer : Option (BitVec 12)) (mineHeard : Bool) (s : State) :
    Passes s (execHello lp peer peerPort sparePeer mineHeard s) := by
  unfold execHello; split <;> simp

@[simp] theorem execLinkLost_passes (lp : Fin 12) (s : State) : Passes s (execLinkLost lp s) := by simp [execLinkLost]
@[simp] theorem execPortTrainingFailed_passes (lp : Fin 12) (s : State) : Passes s (execPortTrainingFailed lp s) := by simp [execPortTrainingFailed]

/-! ### Lanes (R341, R342) -/

@[simp] theorem execLaneCorrectionThreshold_passes (lp : Fin 12) (lane : Fin 4) (s : State) : Passes s (execLaneCorrectionThreshold lp lane s) := by
  simp [execLaneCorrectionThreshold]

@[simp] theorem execLaneAbruptFailure_passes (lp : Fin 12) (lane : Fin 4) (s : State) : Passes s (execLaneAbruptFailure lp lane s) := by
  unfold execLaneAbruptFailure; dsimp only; (repeat' split) <;> simp

@[simp] theorem State.sendSubstitute_ledger (s : State) (n : Fin 12) (lane : Nat) : (s.sendSubstitute n lane).ledger = s.ledger := (rfl)

@[simp] theorem execSpareLaneTrained_passes (k : Fin 4) (s : State) : Passes s (execSpareLaneTrained k s) := by
  unfold execSpareLaneTrained; dsimp only; (repeat' split) <;> simp

@[simp] theorem execSubstitute_passes (lp : Fin 12) (lane : Fin 4) (spare : Fin 52) (s : State) : Passes s (execSubstitute lp lane spare s) := by simp [execSubstitute]

@[simp] theorem execLaneSwitch_passes (lp : Fin 12) (s : State) : Passes s (execLaneSwitch lp s) := by
  unfold execLaneSwitch; dsimp only; split <;> simp

/-! ### Requests of other modules (R355, R356) -/

@[simp] theorem State.notePoison_ledger (s : State) (p : Fin 16) (l : List Nat) : (s.notePoison p l).ledger = s.ledger := by simp [State.notePoison]

@[simp] theorem State.respond_ledger (s : State) (p : Fin 16) (f : TxFrame) (op len status : Nat) (payload : List Byte) :
    (s.respond p f op len status payload).ledger = s.ledger := by
  unfold State.respond
  split <;> next h => simp [ledger_of_snd h]

theorem foldl_ledger_snd_snd {α β γ : Type} (F : β × γ × State → α → β × γ × State) (h : ∀ x a, (F x a).2.2.ledger = x.2.2.ledger) (l : List α) (x : β × γ × State) :
    (l.foldl F x).2.2.ledger = x.2.2.ledger := foldl_keeps (fun x => x.2.2.ledger) F h l x

@[simp] theorem State.performRead_ledger (s : State) (n : Fin 12) (p : Fin 16) (f : TxFrame) : (s.performRead n p f).ledger = s.ledger := by
  unfold State.performRead
  dsimp only
  split
  · simp
  · split
    · simp
    · rw [State.respond_ledger, State.notePoison_ledger]
      refine (foldl_ledger_snd_snd _ (fun x a => ?_) _ _).trans (State.charge_ledger ..)
      simp

@[simp] theorem State.frameStore_ledger (s : State) (n : Fin 12) (p : Fin 16) (f : TxFrame) (a : Nat) (b : List Byte) : (s.frameStore n p f a b).ledger = s.ledger := by
  simp [State.frameStore]

@[simp] theorem State.frameStores_ledger (s : State) (n : Fin 12) (p : Fin 16) (f : TxFrame) (x : List (Nat × Nat)) (y : List Byte) :
    (s.frameStores n p f x y).ledger = s.ledger := by
  induction x generalizing s y with
  | nil => rfl
  | cons a l ih => simp [State.frameStores, ih]

@[simp] theorem State.performWrite_ledger (s : State) (n : Fin 12) (p : Fin 16) (f : TxFrame) : (s.performWrite n p f).ledger = s.ledger := by simp [State.performWrite]

@[simp] theorem State.performAtomic_ledger (s : State) (n : Fin 12) (p : Fin 16) (f : TxFrame) : (s.performAtomic n p f).ledger = s.ledger := by
  unfold State.performAtomic
  dsimp only
  split
  · simp
  · split
    · simp
    · split
      · simp
      · split
        · simp
        · split <;> next h => simp [ledger_of_snd h]

@[simp] theorem execMeridianRead_passes (lp : Fin 12) (f : Frame) (s : State) : Passes s (execMeridianRead lp f s) := by simp [execMeridianRead]
@[simp] theorem execMeridianWrite_passes (lp : Fin 12) (f : Frame) (s : State) : Passes s (execMeridianWrite lp f s) := by simp [execMeridianWrite]
@[simp] theorem execBulkWrite_passes (lp : Fin 12) (f : Frame) (s : State) : Passes s (execBulkWrite lp f s) := by simp [execBulkWrite]
@[simp] theorem execMeridianAtomic_passes (lp : Fin 12) (f : Frame) (s : State) : Passes s (execMeridianAtomic lp f s) := by simp [execMeridianAtomic]

@[simp] theorem State.guestData_ledger (s : State) (n : Nat) (use : HostFor) (st : CplStatus) (b : List Byte) : (s.guestData n use st b).ledger = s.ledger := by
  simp [State.guestData]

@[simp] theorem State.guestDrop_ledger (s : State) : s.guestDrop.ledger = s.ledger := by simp [State.guestDrop]
@[simp] theorem State.guestRoot_ledger (s : State) (p : Fin 16) : (s.guestRoot p).ledger = s.ledger := by simp [State.guestRoot]
@[simp] theorem State.guestTrain_ledger (s : State) : s.guestTrain.ledger = s.ledger := by simp [State.guestTrain]
@[simp] theorem State.guestAgain_ledger (s : State) : s.guestAgain.ledger = s.ledger := by simp [State.guestAgain]
@[simp] theorem State.guestControl_ledger (s : State) (v : Word) : (s.guestControl v).ledger = s.ledger := by simp [State.guestControl]
@[simp] theorem execGstEnable_passes (port : Fin 2) (v : Word) (s : State) : Passes s (execGstEnable port v s) := by simp [execGstEnable]

@[simp] theorem execGuestTrainingComplete_passes (hubCount guestCount guestMax : Fin 8) (guestRate : Fin 32) (vendor product : BitVec 16) (s : State) :
    Passes s (execGuestTrainingComplete hubCount guestCount guestMax guestRate vendor product s) := by
  unfold execGuestTrainingComplete; dsimp only; (repeat' split) <;> simp

@[simp] theorem execGuestRetrain_passes (cause : RetrainCause) (s : State) : Passes s (execGuestRetrain cause s) := by simp [execGuestRetrain]

/-! ### Guest messages (R239, R240) -/

@[simp] theorem execGuestRead_passes (msg : BitVec 128) (s : State) : Passes s (execGuestRead msg s) := by simp [execGuestRead]
@[simp] theorem execGuestWrite_passes (msg : BitVec 128) (data : Line) (s : State) : Passes s (execGuestWrite msg data s) := by simp [execGuestWrite]

@[simp] theorem execGuestReadResp_passes (msg : BitVec 128) (data : Line) (s : State) : Passes s (execGuestReadResp msg data s) := by
  unfold execGuestReadResp; dsimp only; (repeat' split) <;> simp

/-! ### The blocks -/

@[simp] theorem State.writePart_ledger (s : State) (port : Fin 2) (off : Nat) (v : Word) : (s.writePart port off v).ledger = s.ledger := by simp [State.writePart]
@[simp] theorem State.writeChan_ledger (s : State) (port : Fin 2) (off : Nat) (v : Word) : (s.writeChan port off v).ledger = s.ledger := by simp [State.writeChan]
@[simp] theorem State.writeMemLlc_ledger (s : State) (port : Fin 2) (off : Nat) (v : Word) : (s.writeMemLlc port off v).ledger = s.ledger := by simp [State.writeMemLlc]
@[simp] theorem State.writeLink_ledger (s : State) (port : Fin 2) (off : Nat) (v : Word) : (s.writeLink port off v).ledger = s.ledger := by simp [State.writeLink]
@[simp] theorem State.writeDirty_ledger (s : State) (port : Fin 2) (fn : Fin 128) (v : Word) : (s.writeDirty port fn v).ledger = s.ledger := by simp [State.writeDirty]
@[simp] theorem State.writePcie_ledger (s : State) (port : Fin 2) (off : Nat) (v : Word) : (s.writePcie port off v).ledger = s.ledger := by simp [State.writePcie]
@[simp] theorem State.writeErr_ledger (s : State) (port : Fin 2) (off : Nat) (v : Word) : (s.writeErr port off v).ledger = s.ledger := by simp [State.writeErr]
@[simp] theorem State.writeCommand_ledger (s : State) (port : Fin 2) (v : Word) : (s.writeCommand port v).ledger = s.ledger := by simp [State.writeCommand]
@[simp] theorem State.writeSec_ledger (s : State) (port : Fin 2) (off : Nat) (v : Word) : (s.writeSec port off v).ledger = s.ledger := by simp [State.writeSec]
@[simp] theorem State.writeReg_ledger (s : State) (port : Fin 2) (off : Nat) (v : Word) : (s.writeReg port off v).ledger = s.ledger := by simp [State.writeReg]

@[simp] theorem State.writeSized_ledger (s : State) (port : Fin 2) (off size : Nat) (v : Word) : (s.writeSized port off size v).ledger = s.ledger := by
  simp [State.writeSized]

@[simp] theorem execRegisterWrite_passes (a : RegAccess) (v : Word) (s : State) : Passes s (execRegisterWrite a v s) := by
  unfold execRegisterWrite; (repeat' split) <;> simp

@[simp] theorem execHartStart_passes (p : Fin 16) (index : Fin 256) (entry : Word) (s : State) : Passes s (execHartStart p index entry s) := by
  unfold execHartStart; split <;> simp

end Sys2Proof.Machine
end


section

/-! SUPPORT. Fuses (13 R364, R368, R372, R386): the commands that burn them, and every other command by its ledger; with these the statements about
fuses and about every step. -/

namespace Sys2Proof.Machine

/-! ### Fuses that burn (R364, R368, R372, R386) -/

/-- Fuses burn: ROOT_HASH stays, and a counter rises at most to its number of fuses. -/
structure Fuses.Burns (f g : Fuses) : Prop where
  rootHash : g.rootHash = f.rootHash
  ident : f.ident ≤ g.ident ∧ g.ident ≤ max f.ident 4096
  svnSp : f.svnSp ≤ g.svnSp ∧ g.svnSp ≤ max f.svnSp 64
  svnRes : f.svnRes ≤ g.svnRes ∧ g.svnRes ≤ max f.svnRes 64
  unlocks : f.debug ≤ g.debug ∧ g.debug ≤ max f.debug 32

theorem Fuses.Burns.refl (f : Fuses) : f.Burns f := by
  constructor <;> simp

theorem Fuses.Burns.bounded {f g : Fuses} (burns : f.Burns g) (h : f.bounded) : g.bounded := by
  obtain ⟨root, ident, sp, res, debug⟩ := h
  exact ⟨burns.rootHash.trans root, by have := burns.ident; omega, by have := burns.svnSp; omega, by have := burns.svnRes; omega, by have := burns.unlocks; omega⟩

/-- A command goes on to a next state, with the queue as it was and fuses that at most burned. -/
def Burned (s : State) (o : Host.Outcome State Fault Refusal) : Prop := ∃ t, o = .next t ∧ t.pending = s.pending ∧ s.sec.fuses.Burns t.sec.fuses

theorem Passes.burned {s : State} {o : Host.Outcome State Fault Refusal} (h : Passes s o) : Burned s o := by
  obtain ⟨t, next, kept⟩ := h
  have fuses : t.sec.fuses = s.sec.fuses := congrArg Ledger.fuses kept
  exact ⟨t, next, congrArg Ledger.queue kept, fuses ▸ Fuses.Burns.refl _⟩

theorem Burned.self (s : State) : Burned s (.next s) := ⟨s, rfl, rfl, Fuses.Burns.refl _⟩

theorem Fuses.Burns.of_ledger {f : Fuses} {t u : State} (burns : f.Burns t.sec.fuses) (kept : u.ledger = t.ledger) : f.Burns u.sec.fuses := by
  have fuses : u.sec.fuses = t.sec.fuses := congrArg Ledger.fuses kept
  exact fuses ▸ burns

/-- A certificate of the runtime key takes a fuse of IDENT_COUNT while one is left. -/
theorem SecState.certify_burns {x : SecState} {f : Fuses} (found : x.fuses = f) (ok : Bool) : f.Burns (x.certify ok).fuses := by
  subst found
  unfold SecState.certify
  dsimp only
  split
  · exact Fuses.Burns.refl _
  · split
    · next left => exact ⟨rfl, ⟨Nat.le_succ _, le_max_of_le_right left⟩, by simp, by simp, by simp⟩
    · exact Fuses.Burns.refl _

theorem State.bootRun_burned (s : State) (b : BootImages) : Burned s (.next (s.bootRun b)) := by
  refine ⟨_, rfl, ?_⟩
  unfold State.bootRun
  dsimp only
  split
  · exact ⟨rfl, Fuses.Burns.refl _⟩
  · split
    · exact ⟨rfl, Fuses.Burns.refl _⟩
    · refine ⟨rfl, ?_⟩
      change s.sec.fuses.Burns (SecState.certify _ b.certOk).fuses
      exact SecState.certify_burns (by rfl) _

theorem execSecurityBoot_burned (b : BootImages) (s : State) : Burned s (execSecurityBoot b s) := by
  unfold execSecurityBoot
  split
  · exact Burned.self s
  · exact s.bootRun_burned b

theorem execRecoveryImage_burned (img : FwImage) (s : State) : Burned s (execRecoveryImage img s) := by
  unfold execRecoveryImage
  split
  · split
    · exact Burned.self s
    · exact s.bootRun_burned _
  · exact Burned.self s

theorem execUnlock_burned (n : Fin 2) (sigOk : Bool) (keyHash nonce : BitVec 256) (s : State) : Burned s (execUnlock n sigOk keyHash nonce s) := by
  unfold execUnlock
  split
  · exact Burned.self s
  · split
    · next token =>
      obtain ⟨-, -, -, left⟩ := token
      exact ⟨_, rfl, rfl, rfl, by simp [State.debugReset], by simp [State.debugReset], by simp [State.debugReset], ⟨Nat.le_succ _, le_max_of_le_right left⟩⟩
    · exact ⟨_, rfl, rfl, Fuses.Burns.refl _⟩

/-- The security versions in use are burned as the log closes. -/
theorem State.closeLog_burns (s : State) : s.closeLog.pending = s.pending ∧ s.sec.fuses.Burns s.closeLog.sec.fuses := by
  unfold State.closeLog
  dsimp only
  split
  · exact ⟨rfl, Fuses.Burns.refl _⟩
  · refine ⟨rfl, rfl, by simp [SecState.addLog], ?_, ?_, by simp [SecState.addLog]⟩ <;>
      exact ⟨le_max_left _ _, max_le_max_left _ (min_le_left _ _)⟩

theorem State.postFactors_ledger (s : State) : s.postFactors.ledger = s.ledger := rfl
theorem State.drawNonce_ledger (s : State) : s.drawNonce.ledger = s.ledger := rfl

theorem State.publish_burns (s : State) : s.publish.pending = s.pending ∧ s.sec.fuses.Burns s.publish.sec.fuses := by
  have kept := s.bootPT0.postFactors_ledger.trans s.bootPT0_ledger
  unfold State.publish
  generalize s.bootPT0.postFactors = t at kept
  have drawn := t.closeLog.drawNonce_ledger
  generalize t.closeLog.drawNonce = u at drawn
  obtain ⟨queue, fuses⟩ := t.closeLog_burns
  rw [show u.pending = t.closeLog.pending from congrArg Ledger.queue drawn, show u.sec.fuses = t.closeLog.sec.fuses from congrArg Ledger.fuses drawn,
    ← show t.pending = s.pending from congrArg Ledger.queue kept, ← show t.sec.fuses = s.sec.fuses from congrArg Ledger.fuses kept]
  exact ⟨queue, fuses⟩

theorem execAtlasPublish_burned (s : State) : Burned s (exec .atlasPublish s) := by
  by_cases goes : s.pow.stage = .assigned ∧ s.bringing = true
  · have published := exec_atlasPublish goes.2 goes.1
    obtain ⟨queue, fuses⟩ := s.publish_burns
    generalize s.publish = t at published queue fuses
    have kept : (((t.mirrorWrite.postEvent 0 0x0001 (leBytes 8 0 ++ leBytes 4 0)).readyPort 0).readyPort 1).ledger = t.ledger := by simp
    exact ⟨_, published, (congrArg Ledger.queue kept).trans queue, fuses.of_ledger kept⟩
  · exact ⟨s, if_pos (by grind), rfl, Fuses.Burns.refl _⟩

/-- Every command goes on, leaves the queue as it is, and only burns fuses. -/
theorem exec_burned (i : Instr) (s : State) : Burned s (exec i s) := by
  cases i
  case securityBoot b => exact execSecurityBoot_burned b s
  case recoveryImage img => exact execRecoveryImage_burned img s
  case atlasPublish => exact execAtlasPublish_burned s
  case unlock n sigOk keyHash nonce => exact execUnlock_burned n sigOk keyHash nonce s
  all_goals exact Passes.burned (by simp [exec])

/-- A step takes the front of the queue, and its command only burns fuses. -/
theorem step_burned (s : State) : ∃ t, step s = .next t ∧ t.pending = s.pending.tail ∧ s.sec.fuses.Burns t.sec.fuses := by
  cases queue : s.pending with
  | nil => exact ⟨s, by simp [step, queue], queue, Fuses.Burns.refl _⟩
  | cons c rest =>
    obtain ⟨t, next, pending, fuses⟩ := exec_burned c { s with pending := rest }
    exact ⟨t, by simpa [step, queue] using next, pending, fuses⟩

/-! ### The statements -/

/-- Settles O58: the counters are 0. -/
theorem fusesBoundedAtReset : Obligations.FusesBoundedAtReset :=
  ⟨rfl, by decide, by decide, by decide, by decide⟩

/-- Settles O59: a step at most burns fuses that are left. -/
theorem fusesStayBounded : Obligations.FusesStayBounded := by
  unfold Obligations.FusesStayBounded
  intro s t bounded next
  obtain ⟨u, next', -, burns⟩ := step_burned s
  obtain rfl : t = u := by rw [next] at next'; injection next'
  exact burns.bounded bounded

/-- Settles O60: by what each command leaves of the queue and of the fuses. -/
theorem stepsGoOnAndFusesOnlyRise : Obligations.StepsGoOnAndFusesOnlyRise := by
  unfold Obligations.StepsGoOnAndFusesOnlyRise
  intro s
  obtain ⟨t, next, pending, burns⟩ := step_burned s
  exact ⟨t, next, pending, burns.rootHash, burns.ident.1, burns.svnSp.1, burns.svnRes.1, burns.unlocks.1⟩

/-- Settles O55: by the two cases of the queue. -/
theorem stepRunsTheFront : Obligations.StepRunsTheFront := by
  unfold Obligations.StepRunsTheFront
  constructor
  · intro s c rest queue
    rw [step, queue]
  · intro s queue
    rw [step, queue]

end Sys2Proof.Machine
end


section

/-! SUPPORT. Refills and spare swaps (14 R390, R404-R406): what leaves the swaps and the map of the arrays, how a refill ends, that a fenced slot stays fenced, and what a
self-test does; with these the statement about them. -/

namespace Sys2Proof.Machine

/-! ### The swaps and the map under operations (R406) -/

/-- The swaps in progress and the map of the logical arrays. -/
structure Swapping where
  swaps : List Swap
  arrayMap : Tbl (Option Nat)

def State.swapping (s : State) : Swapping := ⟨s.err.swaps, s.atlas.arrayMap⟩

@[simp] theorem foldl_swapping {α : Type} (F : State → α → State) (h : ∀ s a, (F s a).swapping = s.swapping) (l : List α) (s : State) :
    (l.foldl F s).swapping = s.swapping := foldl_keeps _ F h l s

@[simp] theorem foldl_swapping_snd {α β : Type} (F : β × State → α → β × State) (h : ∀ x a, (F x a).2.swapping = x.2.swapping) (l : List α) (x : β × State) :
    (l.foldl F x).2.swapping = x.2.swapping := foldl_keeps (fun x => x.2.swapping) F h l x

@[simp] theorem swapping_ite (c : Prop) [Decidable c] (a b : State) : (if c then a else b).swapping = if c then a.swapping else b.swapping := apply_ite _ _ _ _
@[simp] theorem State.swapping_mk (a b c d e f g h i j k l m) : (State.mk a b c d e f g h i j k l m).swapping = ⟨g.swaps, i.arrayMap⟩ := rfl
@[simp] theorem State.swapping_fold (s : State) : (⟨s.err.swaps, s.atlas.arrayMap⟩ : Swapping) = s.swapping := rfl

theorem swapping_of_snd {α : Type} {x : α × State} {a : α} {t : State} (h : x = (a, t)) : t.swapping = x.2.swapping := by rw [h]

/-- What leaves the Atlas and the controllers leaves the swaps and the map. -/
theorem swapping_of_frames {s t : State} (standing : t.standing = s.standing) (collector : t.collector = s.collector) : t.swapping = s.swapping := by
  have swaps : t.err.swaps = s.err.swaps := (congrArg ErrState.swaps collector :)
  have atlas : t.atlas = s.atlas := (congrArg Standing.atlas standing :)
  simp only [State.swapping, swaps, atlas]

@[simp] theorem State.translate_swapping (s : State) (p : Fin 16) (va : Nat) (write : Bool) : (s.translate p va write).2.swapping = s.swapping :=
  swapping_of_frames (s.translate_standing p va write) (s.translate_collector p va write)

@[simp] theorem State.engRead_swapping (s : State) (p : Fin 16) (line hint : Nat) (cls : ReqClass) : (s.engRead p line hint cls).2.swapping = s.swapping :=
  swapping_of_frames (s.engRead_standing p line hint cls) (s.engRead_collector p line hint cls)

theorem State.engUpdate_collector (s : State) (p : Fin 16) (line hint : Nat) (touch : BitVec 2) (f : Line → Line) (cls : ReqClass) :
    (s.engUpdate p line hint touch f cls).2.collector = s.collector := by
  unfold State.engUpdate; dsimp only; split
  · split
    · simp
    · split <;> simp
  · split
    · simp
    · simp

@[simp] theorem State.engUpdate_swapping (s : State) (p : Fin 16) (line hint : Nat) (touch : BitVec 2) (f : Line → Line) (cls : ReqClass) :
    (s.engUpdate p line hint touch f cls).2.swapping = s.swapping :=
  swapping_of_frames (s.engUpdate_standing p line hint touch f cls) (s.engUpdate_collector p line hint touch f cls)

@[simp] theorem State.engWrite_swapping (s : State) (p : Fin 16) (line : Nat) (d : Line) (m : BitVec 128) (po : BitVec 2) (hint : Nat) (cls : ReqClass) :
    (s.engWrite p line d m po hint cls).swapping = s.swapping :=
  swapping_of_frames (s.engWrite_standing p line d m po hint cls) (s.engWrite_collector p line d m po hint cls)

@[simp] theorem State.ringPut_swapping (s : State) (c : Ctx) (host : Bool) (a : Nat) (b : List Byte) (release : Bool) :
    (s.ringPut c host a b release).2.swapping = s.swapping :=
  swapping_of_frames (s.ringPut_standing c host a b release) (s.ringPut_collector c host a b release)

@[simp] theorem State.ringRecord_swapping (s : State) (c : Ctx) (r : RingReg) (record : List Byte) (kind : Option Byte) (cons : Option (BitVec 32)) :
    (s.ringRecord c r record kind cons).2.2.swapping = s.swapping :=
  swapping_of_frames (s.ringRecord_standing c r record kind cons) (s.ringRecord_collector c r record kind cons)

@[simp] theorem State.vaWrite_swapping (s : State) (c : Ctx) (hint va : Nat) (b : List Byte) (release : Bool) (cls : ReqClass) :
    (s.vaWrite c hint va b release cls).2.swapping = s.swapping :=
  swapping_of_frames (s.vaWrite_standing c hint va b release cls) (s.vaWrite_collector c hint va b release cls)

@[simp] theorem State.sendTag_swapping (s : State) (r : HostTag) (x : HostSend) : (s.sendTag r x).swapping = s.swapping :=
  swapping_of_frames (s.sendTag_standing r x) (s.sendTag_collector r x)

@[simp] theorem State.mirrorWrite_swapping (s : State) : s.mirrorWrite.swapping = s.swapping := by
  simp [State.mirrorWrite]

@[simp] theorem State.setArray_swapping (s : State) (la : Nat) (a : ArrayState) : (s.setArray la a).swapping = s.swapping := (rfl)
@[simp] theorem State.setPartition_swapping (s : State) (p : Fin 16) (x : Partition) : (s.setPartition p x).swapping = s.swapping := (rfl)
@[simp] theorem State.setPort_swapping (s : State) (n : Fin 2) (x : PortState) : (s.setPort n x).swapping = s.swapping := by simp [State.setPort]
@[simp] theorem State.setFn_swapping (s : State) (port : Fin 2) (f : Fin 128) (x : FnState) : (s.setFn port f x).swapping = s.swapping := (rfl)
@[simp] theorem State.setDyn_swapping (s : State) (ch : Fin 3072) (d : ChanDyn) : (s.setDyn ch d).swapping = s.swapping := (rfl)
@[simp] theorem State.setLp_swapping (s : State) (n : Nat) (x : LinkPort) : (s.setLp n x).swapping = s.swapping := (rfl)
@[simp] theorem State.setSlot_swapping (s : State) (n : Nat) (x : SlotState) : (s.setSlot n x).swapping = s.swapping := (rfl)
@[simp] theorem State.setCore_swapping (s : State) (n : Nat) (x : CoreState) : (s.setCore n x).swapping = s.swapping := (rfl)
@[simp] theorem State.setDomain_swapping (s : State) (n : Nat) (x : Domain) : (s.setDomain n x).swapping = s.swapping := (rfl)
@[simp] theorem State.setCmd_swapping (s : State) (x : Cmd) : (s.setCmd x).swapping = s.swapping := (rfl)
@[simp] theorem State.dropCmd_swapping (s : State) (c : CmdRef) : (s.dropCmd c).swapping = s.swapping := (rfl)
@[simp] theorem State.emit_swapping (s : State) (o : Out) : (s.emit o).swapping = s.swapping := (rfl)
@[simp] theorem State.freeVal_swapping (s : State) (w : Nat) : (s.freeVal w).2.swapping = s.swapping := (rfl)
@[simp] theorem State.recordEnergy_swapping (s : State) (c : CmdRef) : (s.recordEnergy c).2.swapping = s.swapping := (rfl)
@[simp] theorem State.report_swapping (s : State) (r : Report) : (s.report r).swapping = s.swapping := (rfl)

@[simp] theorem State.sendHeld_swapping (s : State) (port : Fin 2) : (s.sendHeld port).swapping = s.swapping := by
  unfold State.sendHeld
  refine foldl_swapping _ (fun t r => ?_) _ _
  split <;> simp

@[simp] theorem State.setEntry_swapping (s : State) (ch : Fin 3072) (e : BitVec 512) : (s.setEntry ch e).swapping = s.swapping := (rfl)

@[simp] theorem State.coreInterrupt_swapping (s : State) (p : Fin 16) (index n : Nat) : (s.coreInterrupt p index n).swapping = s.swapping := by
  unfold State.coreInterrupt; split <;> simp

@[simp] theorem State.postEvent_swapping (s : State) (p : Fin 16) (event : Nat) (body : List Byte) : (s.postEvent p event body).swapping = s.swapping := by
  unfold State.postEvent; dsimp only; (repeat' split) <;> simp

@[simp] theorem State.postAll_swapping (s : State) (parts : BitVec 16) (event : Nat) (body : List Byte) : (s.postAll parts event body).swapping = s.swapping := by
  simp [State.postAll]

@[simp] theorem State.atlasBegin_swapping (s : State) : s.atlasBegin.swapping = s.swapping := by simp [State.atlasBegin]
@[simp] theorem State.atlasNote_swapping (s : State) (kind : Nat) (parts : BitVec 16) : (s.atlasNote kind parts).swapping = s.swapping := (rfl)
@[simp] theorem State.atlasEnd_swapping (s : State) : s.atlasEnd.swapping = s.swapping := by simp [State.atlasEnd]

@[simp] theorem State.chanPut_swapping (s : State) (ch : Fin 3072) (host : Bool) (a : Nat) (b : List Byte) : (s.chanPut ch host a b).2.swapping = s.swapping := by
  simp [State.chanPut]

@[simp] theorem State.poisonRange_swapping (s : State) (p : Fin 16) (a n : Nat) : (s.poisonRange p a n).swapping = s.swapping := by
  unfold State.poisonRange
  split
  · rfl
  · refine foldl_swapping _ (fun t i => ?_) _ s
    dsimp only
    split <;> next h => simp [swapping_of_snd h]

@[simp] theorem State.poisonRegions_swapping (s : State) (c : Cmd) : (s.poisonRegions c).swapping = s.swapping := by simp [State.poisonRegions]

@[simp] theorem State.semRead_swapping (s : State) (p : Fin 16) (va : Nat) : (s.semRead p va).2.swapping = s.swapping := by
  unfold State.semRead
  split <;> next h => simp [swapping_of_snd h]

@[simp] theorem State.semWrite_swapping (s : State) (p : Fin 16) (line off : Nat) (value : Word) (owner : Nat) :
    (s.semWrite p line off value owner).2.swapping = s.swapping := by
  simp [State.semWrite]

@[simp] theorem State.poisonRead_swapping (s : State) (p : Fin 16) (granule : Nat) (reporter : BitVec 16) : (s.poisonRead p granule reporter).swapping = s.swapping := by
  simp [State.poisonRead]

@[simp] theorem State.endDonation_swapping (s : State) (c : Cmd) : (s.endDonation c).swapping = s.swapping := by simp [State.endDonation]

@[simp] theorem State.releaseClaims_swapping (s : State) (c : Cmd) : (s.releaseClaims c).2.swapping = s.swapping := by
  unfold State.releaseClaims
  refine (foldl_swapping_snd _ (fun x i => ?_) _ _).trans (s.endDonation_swapping c)
  split
  · rfl
  · split <;> next h => simp [swapping_of_snd h]

@[simp] theorem State.sendMsix_swapping (s : State) (port : Fin 2) (fn : Fin 128) (v : Nat) : (s.sendMsix port fn v).swapping = s.swapping := by simp [State.sendMsix]

@[simp] theorem State.sendChanIrq_swapping (s : State) (ch : Fin 3072) : (s.sendChanIrq ch).swapping = s.swapping := by
  unfold State.sendChanIrq; dsimp only; split <;> simp

@[simp] theorem State.chanIrq_swapping (s : State) (ch : Fin 3072) : (s.chanIrq ch).swapping = s.swapping := by simp [State.chanIrq]
@[simp] theorem State.sentryFree_swapping (s : State) (t : BitVec 32) : (s.sentryFree t).swapping = s.swapping := (rfl)
@[simp] theorem State.vacateArrays_swapping (s : State) (c : Cmd) : (s.vacateArrays c).swapping = s.swapping := by simp [State.vacateArrays]
@[simp] theorem State.dropFrames_swapping (s : State) (c : CmdRef) : (s.dropFrames c).swapping = s.swapping := (rfl)
@[simp] theorem State.settleInvals_swapping (s : State) : s.settleInvals.swapping = s.swapping := by simp [State.settleInvals]
@[simp] theorem State.dropReads_swapping (s : State) (c : CmdRef) : (s.dropReads c).swapping = s.swapping := by simp [State.dropReads]
@[simp] theorem State.killCmd_swapping (s : State) (c : Cmd) (fin : Option (Nat × BitVec 32)) : (s.killCmd c fin).swapping = s.swapping := by simp [State.killCmd]
@[simp] theorem State.noteError_swapping (s : State) (ch : Fin 3072) (cause : Nat) : (s.noteError ch cause).swapping = s.swapping := by simp [State.noteError]

@[simp] theorem State.putRecord_swapping (s : State) (c : Cmd) (status : Nat) (poisoned report : Bool) (detail : BitVec 32) :
    (s.putRecord c status poisoned report detail).swapping = s.swapping := by
  simp [State.putRecord]

@[simp] theorem State.complete_swapping (s : State) (c : Cmd) (status : Nat) (detail : BitVec 32) : (s.complete c status detail).swapping = s.swapping := by
  simp [State.complete]

@[simp] theorem State.endCmd_swapping (s : State) (c : Cmd) (status : Nat) (detail : BitVec 32) : (s.endCmd c status detail).swapping = s.swapping := by
  unfold State.endCmd; split <;> simp

@[simp] theorem State.killRerun_swapping (s : State) (c : Cmd) : (s.killRerun c).swapping = s.swapping := by
  unfold State.killRerun; split <;> simp

@[simp] theorem State.wantDomain_swapping (s : State) (n : Nat) : (s.wantDomain n).swapping = s.swapping := by simp [State.wantDomain]
@[simp] theorem State.dropDomain_swapping (s : State) (n : Nat) : (s.dropDomain n).swapping = s.swapping := (rfl)

@[simp] theorem State.postRecovery_swapping (s : State) (parts : BitVec 16) (unit : BitVec 16) (kind : Nat) (outcome : Option Nat) :
    (s.postRecovery parts unit kind outcome).swapping = s.swapping := by
  simp [State.postRecovery]

@[simp] theorem State.killOn_swapping (s : State) (la : Nat) : (s.killOn la).swapping = s.swapping := by
  unfold State.killOn; (repeat' split) <;> simp
/-! ### Refills (R404, R405) -/

/-- Once a refill has ended, its page holds no command. -/
theorem State.refillEnd_frees (s : State) (page : Nat) : Tbl.get none (s.refillEnd page).mem.refilling page = none
    ∧ (∀ c ∈ (s.refillEnd page).chan.cmds, c.refillHeld ≠ some page) ∧ (s.refillEnd page).mem.poison = s.mem.poison
    ∧ (s.refillEnd page).mem.bytes = s.mem.bytes := by
  refine ⟨Tbl.get_set_same none s.mem.refilling page none, fun c listed => ?_, rfl, rfl⟩
  obtain ⟨x, -, rfl⟩ := List.mem_map.mp listed
  by_cases held : x.refillHeld = some page
  · rw [if_pos held]; exact nofun
  · rwa [if_neg held]

section
variable {s : State} {page : Nat} {r : Refilling} (under : Tbl.get none s.mem.refilling page = some r)
include under

theorem exec_refillSourceRead {b : List Byte} (length : b.length = 4096) (waits : r.data = none) :
    exec (.refillSourceRead page (some b)) s = .next { s.refillWrite page b with mem :=
      { (s.refillWrite page b).mem with refilling := Tbl.set none (s.refillWrite page b).mem.refilling page (some { r with data := some b }) } } := by
  change execRefillSourceRead page (some b) s = _
  simp only [execRefillSourceRead, under]
  exact if_neg (by simp [length, waits])

theorem exec_refillSourceRead_none : exec (.refillSourceRead page none) s = .next s := by
  change execRefillSourceRead page none s = _
  simp only [execRefillSourceRead, under]

theorem exec_refillComplete (came : r.data.isSome = true) : exec (.refillComplete page) s = .next ((s.refillReport 0x0027 page r).refillEnd page) := by
  change execRefillComplete page s = _
  simp only [execRefillComplete, under]
  exact if_neg (by simpa using Option.isSome_iff_ne_none.mp came)

theorem exec_refillFailed : exec (.refillFailed page) s = .next ((s.refillReport 0x0028 page r).refillEnd page) := by
  change execRefillFailed page s = _
  simp only [execRefillFailed, under]

end

/-! ### A fenced slot stays at STATE 3 (R406) -/

/-- A slot at STATE 3 that no swap brings in. -/
def State.fencedOut (s : State) (n : Nat) : Prop := (s.slot n).st = 3 ∧ ∀ w ∈ s.err.swaps, w.spare ≠ n

theorem slot_of_footing {s t : State} (h : t.footing = s.footing) (n : Nat) : t.slot n = s.slot n := slot_of_plant (plant_of_footing h) n

theorem swaps_of_swapping {s t : State} (h : t.swapping = s.swapping) : t.err.swaps = s.err.swaps := (congrArg Swapping.swaps h :)

theorem State.fencedOut.of_frames {s t : State} {n : Nat} (out : s.fencedOut n) (footing : t.footing = s.footing) (swapping : t.swapping = s.swapping) : t.fencedOut n := by
  exact ⟨by rw [slot_of_footing footing]; exact out.1, by rw [swaps_of_swapping swapping]; exact out.2⟩

theorem State.endSwap_swapping (s : State) : s.endSwap.swapping = s.swapping := by
  simp [State.endSwap]

theorem State.endSwaps_swapping (s : State) : s.endSwaps.swapping = s.swapping := by
  simp [State.endSwaps]

theorem State.atlasUpdate_swapping (s : State) (kind : Nat) (parts : BitVec 16) : (s.atlasUpdate kind parts).swapping = s.swapping := by
  simp [State.atlasUpdate]

theorem State.atlasUpdate_footing (s : State) (kind : Nat) (parts : BitVec 16) : (s.atlasUpdate kind parts).footing = s.footing := by
  unfold State.atlasUpdate
  split
  · rfl
  · split
    · rfl
    · exact (State.atlasEnd_footing _).trans s.atlasBegin_footing

/-- The binding that a swap makes, before the Atlas update ends. -/
def State.swapBound (s : State) (w : Swap) : State :=
  let t := { s with
    err := { s.err with swaps := s.err.swaps.filter (fun x => decide (x.la ≠ w.la)), unbind := s.err.unbind.filter (fun x => decide (x ≠ w.la)) }
    atlas := { s.atlas with arrayMap := Tbl.set none s.atlas.arrayMap w.la (some w.spare) } }
  (t.setSlot w.spare { t.slot w.spare with st := 0 }).setArray w.la (t.array w.la).rebound

theorem State.bindSwap_eq (s : State) (w : Swap) : ∃ kind parts, s.bindSwap w =
    ((s.swapBound w).atlasNote kind parts).endSwap.postRecovery (((s.swapBound w).atlasNote kind parts).arrayParts w.la) (unitId 1 w.old) 1 (some 0) :=
  ⟨_, _, rfl⟩

/-- A swap that ends: its spare is at STATE 0 and the array's, and it is no swap any more. -/
theorem State.bindSwap_binds (s : State) (w : Swap) : (s.bindSwap w).slotOf w.la = some w.spare ∧ ((s.bindSwap w).slot w.spare).st = 0
    ∧ (∀ n, n ≠ w.spare → (s.bindSwap w).slot n = s.slot n) ∧ (s.bindSwap w).err.swaps = s.err.swaps.filter (fun x => decide (x.la ≠ w.la)) := by
  obtain ⟨kind, parts, ends⟩ := s.bindSwap_eq w
  have footing : (s.bindSwap w).footing = (s.swapBound w).footing := by rw [ends]; simp; rfl
  have swapping : (s.bindSwap w).swapping = (s.swapBound w).swapping := by rw [ends]; simp [State.endSwap_swapping]
  have map : (s.bindSwap w).atlas.arrayMap = (s.swapBound w).atlas.arrayMap := (congrArg Swapping.arrayMap swapping :)
  refine ⟨?_, ?_, fun n other => ?_, swaps_of_swapping swapping⟩
  · rw [State.slotOf, map]; exact Tbl.get_set_same none s.atlas.arrayMap w.la (some w.spare)
  · rw [slot_of_footing footing, State.swapBound, State.slot_setArray', State.slot_setSlot]
  · rw [slot_of_footing footing, State.swapBound, State.slot_setArray', State.slot_setSlot_ne _ _ _ _ other]; rfl

theorem State.bindSwap_fencedOut {s : State} {n : Nat} {w : Swap} (out : s.fencedOut n) (other : w.spare ≠ n) : (s.bindSwap w).fencedOut n := by
  obtain ⟨-, -, slots, swaps⟩ := s.bindSwap_binds w
  exact ⟨by rw [slots n other.symm]; exact out.1, fun x mem => out.2 x (List.mem_of_mem_filter (swaps ▸ mem))⟩

theorem State.settleBindings_fencedOut {s : State} {n : Nat} (out : s.fencedOut n) : s.settleBindings.fencedOut n := by
  unfold State.settleBindings
  extract_lets empty t u
  have unbound : t.fencedOut n := List.foldlRecOn (motive := fun t : State => t.fencedOut n) _ _ out (fun v kept la _ => by
    split
    · exact kept
    · exact kept)
  have bound : u.fencedOut n := List.foldlRecOn (motive := fun t : State => t.fencedOut n) _ _ unbound (fun v kept w mem => by
    split
    · exact State.bindSwap_fencedOut kept (unbound.2 w mem)
    · exact kept)
  exact bound.of_frames u.endSwaps_footing u.endSwaps_swapping

/-- A swap that is added for a spare that was ready. -/
def State.spareTaken (s : State) (w : Swap) : State :=
  let t := (s.setSlot w.spare { s.slot w.spare with st := 2 }).wantDomain w.spare
  { t with err := { t.err with swaps := t.err.swaps ++ [w] } }

theorem State.wantDomain_slot (s : State) (n k : Nat) : (s.wantDomain n).slot k = s.slot k := by
  unfold State.wantDomain; split <;> rfl

theorem State.spareTaken_fencedOut {s : State} {n : Nat} {w : Swap} (out : s.fencedOut n) (other : w.spare ≠ n) : (s.spareTaken w).fencedOut n := by
  refine ⟨?_, fun x mem => ?_⟩
  · change (((s.setSlot w.spare _).wantDomain w.spare).slot n).st = 3
    rw [State.wantDomain_slot, State.slot_setSlot_ne _ _ _ _ other.symm]
    exact out.1
  · have kept : ((s.setSlot w.spare { s.slot w.spare with st := 2 }).wantDomain w.spare).swapping = s.swapping := by simp
    rcases List.mem_append.mp mem with old | new
    · rw [swaps_of_swapping kept] at old
      exact out.2 x old
    · rwa [List.mem_singleton.mp new]

/-- A spare that is taken is no slot at STATE 3. -/
theorem State.takeSpare_fencedOut {s : State} {n : Nat} (out : s.fencedOut n) (la old : Nat) : (s.takeSpare la old).fencedOut n := by
  unfold State.takeSpare
  split
  · next m found =>
    have other : m ≠ n := fun same => by
      have ready := State.isSpare_of_findSpare found
      simp only [State.isSpare, same, out.1, Bool.and_eq_true, decide_eq_true_eq] at ready
      exact absurd ready.1 (by decide)
    exact State.spareTaken_fencedOut (w := ⟨la, m, old, false⟩) out other
  · exact State.fencedOut.of_frames (s := { s with err := { s.err with unbind := s.err.unbind ++ [la] } }) out (State.postRecovery_footing ..) (State.postRecovery_swapping ..)

/-- A slot goes to STATE 3, and its domain off. -/
def State.slotDown (s : State) (n : Nat) : State := (s.setSlot n { s.slot n with st := 3 }).dropDomain n

theorem State.slotDown_state (s : State) (n : Nat) : ((s.slotDown n).slot n).st = 3 := congrArg SlotState.st (State.slot_setSlot s n _)

theorem State.fenceSlotQuiet_state {s : State} {n : Nat} (on : (s.slot n).st ≠ 3) (bound : ∀ w ∈ s.err.swaps, w.spare = n → s.laOf n = none) :
    ((s.fenceSlotQuiet n).slot n).st = 3 := by
  unfold State.fenceSlotQuiet
  rw [if_neg on]
  split
  · change SlotState.st (State.slot (match (s.slotDown n).err.swaps.find? _ with | some w => _ | none => (s.slotDown n).atlasUpdate 1 0) n) = 3
    split
    · next w _ =>
      have out : State.fencedOut { s.slotDown n with err := { (s.slotDown n).err with swaps := (s.slotDown n).err.swaps.filter (fun x => decide (x.spare ≠ n)) } } n :=
        ⟨s.slotDown_state n, fun x mem => by simpa using (List.mem_filter.mp mem).2⟩
      exact (State.settleBindings_fencedOut (State.takeSpare_fencedOut out ..)).1
    · rw [slot_of_footing (State.atlasUpdate_footing ..)]
      exact s.slotDown_state n
  · next la here =>
    have swapping : ((((s.postRecovery (s.arrayParts la) (unitId 1 n) 1 none).killOn la).atlasBegin.atlasNote 1 (s.arrayParts la)).slotDown n).swapping = s.swapping := by
      simp [State.slotDown]
    have out : State.fencedOut ((((s.postRecovery (s.arrayParts la) (unitId 1 n) 1 none).killOn la).atlasBegin.atlasNote 1 (s.arrayParts la)).slotDown n) n := by
      refine ⟨State.slotDown_state _ n, fun x mem same => ?_⟩
      rw [swaps_of_swapping swapping] at mem
      rw [bound x mem same] at here
      cases here
    exact (State.settleBindings_fencedOut (State.takeSpare_fencedOut out la n)).1

/-! ### A spare's self-test (R19, R406) -/

section
variable {s : State} {slot : Fin 416} {w : Swap} (up : s.up = true) (on : s.domain slot.val = .on)
  (found : s.err.swaps.find? (fun x => decide (x.spare = slot.val)) = some w)
include up on found

theorem exec_spareSelfTestComplete (pass : Bool) : exec (.spareSelfTestComplete slot pass) s =
    if w.passed then .next s
    else if pass then
      if (s.array w.la).occ.isNone then .next (s.bindSwap w).finishActions
      else .next { s with err := { s.err with swaps := s.err.swaps.map (fun x => if x.spare = slot.val then { x with passed := true } else x) } }
    else .next (s.fenceSlot slot.val 4).finishActions := by
  change execSpareSelfTestComplete slot pass s = _
  unfold execSpareSelfTestComplete
  rw [if_neg (by simp [up, on]), found]

end

/-- Settles O48: refills by their ends, fences by the slot that no swap brings back, self-tests by the swap that is bound. -/
theorem refillsAndSwapsComplete : Obligations.RefillsAndSwapsComplete := by
  unfold Obligations.RefillsAndSwapsComplete
  refine ⟨fun s page r under => ⟨fun b length waits => ?arrives, exec_refillSourceRead_none under, fun came => ?completes, ?fails⟩,
    fun s slot cause up known bound => ?fences, fun s slot w up on found => ⟨fun fresh => ⟨fun idle => ?binds, fun busy => ?waits, ?fenced⟩, fun passed ok => ?passed⟩⟩
  case arrives => exact ⟨_, exec_refillSourceRead under length waits, rfl, Tbl.get_set_same none (s.refillWrite page b).mem.refilling page (some { r with data := some b })⟩
  case completes => exact ⟨_, exec_refillComplete under came, (s.refillReport 0x0027 page r).refillEnd_frees page⟩
  case fails => exact ⟨_, exec_refillFailed under, (s.refillReport 0x0028 page r).refillEnd_frees page⟩
  case fences =>
    refine ⟨if_neg (by simp [up, known]), fun down => if_pos down, fun standing => ?_⟩
    rw [State.fenceSlot, if_neg standing]
    exact State.fenceSlotQuiet_state (s := s.report _) standing bound
  case binds =>
    obtain ⟨map, ready, -, swaps⟩ := s.bindSwap_binds w
    have spare : w.spare = slot.val := of_decide_eq_true (List.find?_some found :)
    refine ⟨?_, spare ▸ map, spare ▸ ready, swaps⟩
    rw [exec_spareSelfTestComplete up on found, if_neg (by simp [fresh]), if_pos rfl, if_pos (by simp [idle])]
  case waits =>
    have run := exec_spareSelfTestComplete up on found true
    rw [if_neg (by simp [fresh]), if_pos rfl, if_neg (by simp [busy])] at run
    refine ⟨_, run, rfl, ?_, ?_⟩
    · intro x mem spare
      obtain ⟨y, -, rfl⟩ := List.mem_map.mp mem
      by_cases here : y.spare = slot.val
      · rw [if_pos here]
      · rw [if_neg here] at spare; exact absurd spare here
    · rw [List.map_map]
      refine List.map_congr_left fun x _ => ?_
      by_cases here : x.spare = slot.val <;> simp [here]
  case fenced => rw [exec_spareSelfTestComplete up on found, if_neg (by simp [fresh]), if_neg Bool.false_ne_true]
  case passed => rw [exec_spareSelfTestComplete up on found, if_pos passed]

end Sys2Proof.Machine
end


section

/-! SUPPORT. Power (15 R417-R420, R422, R424, R432, R443, R446): what a failing module keeps, how power comes and goes, and the domains; with these the statement about
these events. -/

namespace Sys2Proof.Machine

/-! ### A module that fails (R412) -/

/-- A module that stands fails for a cause other than the loss of a die: every command stops, and the cause is kept. -/
theorem State.failModule_fails {s : State} (stands : s.pow.moduleFailed = none) {cause : Nat} (noDie : ¬ (cause = 0x0051 ∨ cause = 0x0052)) :
    s.failModule cause = { s.report (mkReport 0x0053 (unitId 3 14) cause) with
      chan := { s.chan with cmds := [], acts := [], reserved := [] }
      arr := []
      pow := { s.pow with
        moduleFailed := some (BitVec.ofNat 16 cause)
        faultN := true
        report := .failed cause
        flash := s.pow.flash ++ [(0x0053, cause)] } } := by
  have running : s.pow.moduleFailed.isSome = false := by rw [stands]; rfl
  rw [State.failModule, running, if_neg noDie]
  rfl

/-- Rails that a fault can be of: while they come up those in regulation, and all of a powered module. -/
def State.railLive (s : State) (rail : Fin 9) : Bool :=
  match s.pow.stage with
  | .rails k => decide (rail.val ≤ k.val)
  | _ => s.powered

theorem exec_railFault {s : State} {rail : Fin 9} (live : s.railLive rail = true) (stands : s.pow.moduleFailed = none) :
    ∃ t : State, exec (.railFault rail) s = .next t ∧ t.pow.moduleFailed = some 0x0061 ∧ t.pow.stage = .descending ∧ t.pow.needCycle = true ∧ t.chan.cmds = []
      ∧ t.pow.faultN = (match s.pow.stage with | .rails k => decide (3 ≤ k.val) | _ => true) := by
  refine ⟨_, if_neg (show ¬ (!s.railLive rail) = true by simp [live]), ?_⟩
  rw [State.failModule_fails (show (s.report _).pow.moduleFailed = none from stands) (by decide)]
  exact ⟨rfl, rfl, rfl, rfl, Bool.true_and _⟩

theorem exec_powerInputFault {s : State} {mv : BitVec 16} (powered : s.powered = true) (stands : s.pow.moduleFailed = none)
    (band : (40000 ≤ mv.toNat ∧ mv.toNat < 44000) ∨ (58000 < mv.toNat ∧ mv.toNat ≤ 60000)) :
    ∃ t : State, exec (.powerInputFault mv) s = .next t ∧ t.pow.moduleFailed = some 0x0060 ∧ t.pow.faultN = true ∧ t.chan.cmds = [] ∧ t.pow.stage = s.pow.stage := by
  refine ⟨_, if_neg (by simp only [powered]; tauto), ?_⟩
  rw [State.failModule_fails (by exact stands) (by decide)]
  exact ⟨rfl, rfl, rfl, rfl⟩

theorem exec_pllUnlock {s : State} (powered : s.powered = true) (stands : s.pow.moduleFailed = none) (locked : s.pow.stage ≠ .railsUp) :
    ∃ t : State, exec .pllUnlock s = .next t ∧ t.pow.moduleFailed = some 0x0063 ∧ t.pow.stage = .descending ∧ t.pow.needCycle = true := by
  refine ⟨_, if_neg (by simp [powered, locked]), ?_⟩
  rw [State.failModule_fails (by exact stands) (by decide)]
  exact ⟨rfl, rfl, rfl⟩

theorem exec_thermalTrip {s : State} (powered : s.powered = true) (stands : s.pow.moduleFailed = none) (sensor : BitVec 12) :
    ∃ t : State, exec (.thermalTrip sensor) s = .next t ∧ t.pow.moduleFailed = some 0x0067 ∧ t.pow.tripN = true ∧ t.pow.stage = .descending := by
  refine ⟨_, if_neg (by simp [powered]), ?_⟩
  rw [State.failModule_fails (by exact stands) (by decide)]
  exact ⟨rfl, rfl, rfl⟩

/-! ### Power comes and goes (R417, R418, R446) -/

theorem exec_pwrEnDeasserted {s : State} (on : ∀ st ∈ [Stage.unpowered, .softStart, .descending], s.pow.stage ≠ st) :
    exec .pwrEnDeasserted s =
      .next (State.powerOff { s with pow := { s.pow with pwrEn := false, pwrPending := false, needCycle := false } } .descending) := by
  change execPwrEnDeasserted s = _
  unfold execPwrEnDeasserted
  dsimp only
  split
  · next off => exact absurd off (on _ (by simp))
  · next off => exact absurd off (on _ (by simp))
  · next off => exact absurd off (on _ (by simp))
  · rfl

/-- The state that the end of a descent leaves: power is off, and FAULT_N and THERMTRIP_N are released. -/
def State.descended (s : State) : State :=
  { s.powerOff .softStart with pow := { (s.powerOff .softStart).pow with faultN := false, tripN := false } }

theorem exec_railDescentComplete {s : State} (stage : s.pow.stage = .descending) :
    exec .railDescentComplete s = .next (if s.pow.pwrPending && s.pow.pwrEn && !s.pow.needCycle then s.descended.startRails else s.descended) :=
  if_neg (not_not_intro stage)

theorem exec_railStepComplete {s : State} {k : Fin 10} (stage : s.pow.stage = .rails k) :
    exec .railStepComplete s = .next { s with pow := { s.pow with stage := if h : k.val < 8 then .rails ⟨k.val + 1, by omega⟩ else .railsUp } } := by
  change execRailStepComplete s = _
  rw [execRailStepComplete, stage]

/-! ### Domains (R422) -/

theorem exec_domainSwitchOn {s : State} {n : Nat} {rest : List Nat} (queue : s.pow.queue = n :: rest) (powered : s.powered = true)
    (few : (s.pow.domains.filter (fun x => decide (x.2 = .comingUp))).length < 8) :
    exec .domainSwitchOn s = .next (({ s with pow := { s.pow with queue := rest } }).setDomain n .comingUp) := by
  change execDomainSwitchOn s = _
  rw [execDomainSwitchOn, queue]
  exact if_neg (by rw [powered]; simp [few])

theorem exec_idleArrayPowerOff {s : State} {slot : Fin 416} {la : Nat} (bound : s.laOf slot.val = some la) (up : s.up = true) (free : s.floorOf la = none)
    (kept : Tbl.get false s.chan.lent la = false) (on : s.domain slot.val = .on) :
    exec (.idleArrayPowerOff slot) s = .next ((s.dropDomain slot.val).setArray la (s.array la).pass) := by
  change execIdleArrayPowerOff slot s = _
  rw [execIdleArrayPowerOff, bound]
  exact if_neg (by simp [up, free, kept, on])

/-- Settles O49: each event by what its command does in the stage it is for. -/
theorem powerEventsComplete : Obligations.PowerEventsComplete := by
  unfold Obligations.PowerEventsComplete
  refine ⟨fun s mv stage low high => ?input, fun s stage cycled => ?softStart, fun s stage => ?pending, fun s k stage => ?railStep, fun s modid stage bringing => ?pll,
    fun s on => ?deasserted, fun s stage pending en cycled => ?descentOn, fun s rail k stage live stands => ?railUp, fun s stage idle => ?descent,
    fun s mv out => ?outOfRange, fun s powered stands => ⟨fun mv band => exec_powerInputFault powered stands band, fun rail => ?rail,
      fun locked => exec_pllUnlock powered stands locked, fun sensor => exec_thermalTrip powered stands sensor⟩, fun s rail phase powered listed => ?phase,
    fun s n rest queue powered few => ?switchOn, fun s dom coming => ?stable, fun s slot la bound up free kept on => ?idle⟩
  case input => exact if_neg (by simp [stage]; omega)
  case softStart =>
    refine ⟨(if_neg (not_not_intro stage)).trans ?_, fun charged => if_pos ⟨stage, charged, by simp [cycled]⟩⟩
    simp only [cycled, Bool.not_false, Bool.and_true, State.startRails]
    cases s.pow.pwrEn <;> simp [stage]
  case pending => exact (if_neg (by simp [stage])).trans (if_pos stage)
  case railStep =>
    refine ⟨_, exec_railStepComplete stage, rfl, fun last => dif_neg (by omega), fun j more next => ?_⟩
    exact (dif_pos more).trans (congrArg Stage.rails (Fin.ext next.symm))
  case pll => exact if_neg (by simp [stage, bringing])
  case deasserted => exact ⟨_, exec_pwrEnDeasserted on, rfl, rfl, rfl, rfl, rfl, rfl, rfl, rfl, rfl, rfl, rfl, rfl⟩
  case descentOn => exact ⟨_, (exec_railDescentComplete stage).trans (congrArg _ (if_pos (by simp [pending, en, cycled]))), rfl, rfl, rfl⟩
  case railUp =>
    obtain ⟨t, run, failed, descending, -, -, pin⟩ := exec_railFault (s := s) (rail := rail) (by rw [State.railLive, stage]; exact decide_eq_true live) stands
    exact ⟨t, run, failed, descending, by rw [pin, stage]⟩
  case descent => exact ⟨_, (exec_railDescentComplete stage).trans (congrArg _ (if_neg (by simp [idle]))), rfl, rfl, rfl, rfl, rfl⟩
  case outOfRange => exact ⟨_, if_neg (by omega), rfl, rfl, rfl, rfl, rfl, rfl⟩
  case rail =>
    have live : s.railLive rail = true := by
      unfold State.railLive
      split
      · next stage => simp [State.powered, stage] at powered
      · exact powered
    obtain ⟨t, run, failed, descending, cycle, stopped, -⟩ := exec_railFault live stands
    exact ⟨t, run, failed, descending, cycle, stopped⟩
  case phase =>
    by_cases known : s.pow.badPhases.contains (rail.val, phase.val) = true
    · exact ⟨s, if_pos (.inr (.inr known)), by rw [if_pos known]⟩
    · exact ⟨_, if_neg (by simp only [powered, known]; simpa using listed), by rw [if_neg known]; rfl⟩
  case switchOn =>
    exact ⟨_, exec_domainSwitchOn queue powered few, rfl, State.domain_setDomain .., fun k other => State.domain_setDomain_ne _ _ _ _ other⟩
  case stable =>
    refine ⟨(if_neg (not_not_intro coming)).trans (if_pos rfl), ?_⟩
    obtain ⟨t, run, -⟩ := exec_burned (.domainStable dom false) s
    exact ⟨t, run⟩
  case idle =>
    exact ⟨_, exec_idleArrayPowerOff bound up free kept on, State.domain_setDomain s slot.val .off, State.array_setArray .., rfl, rfl⟩

end Sys2Proof.Machine
end


section

/-! SUPPORT. The loops of power and temperature (15 R421, R425-R435): what a period of the cap loop decides, how readings move a step, and the charges of a period; with these
the statement about them. -/

namespace Sys2Proof.Machine

/-! ### What a period decides (R427) -/

/-- The periods counted at the start of a decision. -/
def PowState.counted (w : PowState) (p : Nat) : PowState :=
  { w with
    heldOver8 := if 1200 + 25 * w.capStep < p ∧ w.duty = 8 then w.heldOver8 + 1 else 0
    heldOver := if 1200 + 25 * w.capStep < p then w.heldOver + 1 else 0
    heldUnder100 := if p + 100 < 1200 + 25 * w.capStep then w.heldUnder100 + 1 else 0
    heldUnder200 := if p + 200 < 1200 + 25 * w.capStep then w.heldUnder200 + 1 else 0
    overCap := if 1200 + 25 * w.capStep < p ∧ w.overCap ≠ BitVec.allOnes 32 then w.overCap + 1 else w.overCap }

/-- Over the cap the duty falls, or stage B sets after `n` periods at 8. -/
def PowState.lower (w : PowState) (excess n : Nat) : PowState :=
  if 8 < w.duty then { w with duty := max 8 (w.duty - ceilDiv excess 50) } else if 10 ≤ n then { w with stageB := true } else w

/-- With stage B, 100 of `n` periods over the cap set stage C. -/
def PowState.raiseC (w : PowState) (n : Nat) : PowState := if w.stageB ∧ 100 ≤ n then { w with stageC := true } else w

/-- With stage C, 1,000 of `n` periods over the cap set UNREACHABLE. -/
def PowState.raiseUnreachable (w : PowState) (n : Nat) : PowState := if w.stageC ∧ 1000 ≤ n then { w with unreachable := true } else w

/-- Under the cap one stage clears, or the duty rises. -/
def PowState.ease (w : PowState) (under100 under200 : Nat) : PowState :=
  if w.stageC ∧ 1000 ≤ under200 then { w with stageC := false }
  else if w.stageB ∧ 100 ≤ under100 then { w with stageB := false }
  else if ¬ w.stageB then { w with duty := min 64 (w.duty + 1) } else w

theorem capLoop_eq (w : PowState) (p : Nat) : capLoop w p =
    if 1200 + 25 * w.capStep < p then
      ((((w.counted p).lower (p - (1200 + 25 * w.capStep)) (w.counted p).heldOver8).raiseC (w.counted p).heldOver).raiseUnreachable (w.counted p).heldOver)
    else if p + 50 < 1200 + 25 * w.capStep then { (w.counted p).ease (w.counted p).heldUnder100 (w.counted p).heldUnder200 with unreachable := false }
    else w.counted p := rfl

/-- What the decisions leave of the state: all but the duty, the stages and UNREACHABLE. -/
def PowState.measured (w : PowState) : PowState := { w with duty := 0, stageB := false, stageC := false, unreachable := false }

section
variable (w : PowState) (n m : Nat)

@[simp] theorem PowState.lower_measured : (w.lower n m).measured = w.measured := by
  unfold PowState.lower; (repeat' split) <;> rfl

@[simp] theorem PowState.raiseC_measured : (w.raiseC n).measured = w.measured := by
  unfold PowState.raiseC; split <;> rfl

@[simp] theorem PowState.raiseUnreachable_measured : (w.raiseUnreachable n).measured = w.measured := by
  unfold PowState.raiseUnreachable; split <;> rfl

@[simp] theorem PowState.ease_measured : (w.ease n m).measured = w.measured := by
  unfold PowState.ease; (repeat' split) <;> rfl

theorem capLoop_measured : (capLoop w n).measured = (w.counted n).measured := by
  rw [capLoop_eq]
  split
  · simp
  · split
    · exact PowState.ease_measured ..
    · rfl

theorem PowState.lower_steps : (w.lower n m).duty = (if 8 < w.duty then max 8 (w.duty - ceilDiv n 50) else w.duty)
    ∧ (w.lower n m).stageB = (w.stageB || decide (w.duty ≤ 8 ∧ 10 ≤ m)) ∧ (w.lower n m).stageC = w.stageC ∧ (w.lower n m).unreachable = w.unreachable := by
  unfold PowState.lower; (repeat' split) <;> simp_all

theorem PowState.raiseC_steps : (w.raiseC n).duty = w.duty ∧ (w.raiseC n).stageB = w.stageB
    ∧ (w.raiseC n).stageC = (w.stageC || (w.stageB && decide (100 ≤ n))) ∧ (w.raiseC n).unreachable = w.unreachable := by
  unfold PowState.raiseC; split <;> simp_all

theorem PowState.raiseUnreachable_steps : (w.raiseUnreachable n).duty = w.duty ∧ (w.raiseUnreachable n).stageB = w.stageB
    ∧ (w.raiseUnreachable n).stageC = w.stageC ∧ (w.raiseUnreachable n).unreachable = (w.unreachable || (w.stageC && decide (1000 ≤ n))) := by
  unfold PowState.raiseUnreachable; split <;> simp_all

end

section
variable {w : PowState} {p : Nat}

/-- The periods of a decision, as counted. -/
theorem capLoop_held : (capLoop w p).heldOver8 = (w.counted p).heldOver8 ∧ (capLoop w p).heldOver = (w.counted p).heldOver
    ∧ (capLoop w p).heldUnder100 = (w.counted p).heldUnder100 ∧ (capLoop w p).heldUnder200 = (w.counted p).heldUnder200 := by
  have over8 := congrArg PowState.heldOver8 (capLoop_measured w p)
  have held := congrArg PowState.heldOver (capLoop_measured w p)
  have under100 := congrArg PowState.heldUnder100 (capLoop_measured w p)
  have under200 := congrArg PowState.heldUnder200 (capLoop_measured w p)
  exact ⟨over8, held, under100, under200⟩

theorem capLoop_kept : (capLoop w p).capStep = w.capStep ∧ (capLoop w p).energy = w.energy := by
  have step := congrArg PowState.capStep (capLoop_measured w p)
  have energy := congrArg PowState.energy (capLoop_measured w p)
  exact ⟨step, energy⟩

theorem capLoop_over (above : 1200 + 25 * w.capStep < p) :
    let v := capLoop w p
    (8 < w.duty → v.duty = max 8 (w.duty - ceilDiv (p - (1200 + 25 * w.capStep)) 50) ∧ v.stageB = w.stageB)
      ∧ (w.duty ≤ 8 → v.duty = w.duty)
      ∧ (w.duty = 8 → v.stageB = (w.stageB || decide (10 ≤ w.heldOver8 + 1)) ∧ v.heldOver8 = w.heldOver8 + 1)
      ∧ v.stageC = (w.stageC || (v.stageB && decide (100 ≤ w.heldOver + 1)))
      ∧ v.unreachable = (w.unreachable || (v.stageC && decide (1000 ≤ w.heldOver + 1)))
      ∧ v.heldOver = w.heldOver + 1 ∧ v.heldUnder100 = 0 ∧ v.heldUnder200 = 0 := by
  have under100 : ¬ p + 100 < 1200 + 25 * w.capStep := by omega
  have under200 : ¬ p + 200 < 1200 + 25 * w.capStep := by omega
  obtain ⟨held8, held, held100, held200⟩ := capLoop_held (w := w) (p := p)
  have decided := capLoop_eq w p
  rw [if_pos above] at decided
  simp only [held8, held, held100, held200]
  simp only [decided, PowState.raiseUnreachable_steps, PowState.raiseC_steps, PowState.lower_steps, PowState.counted, above, under100, under200]
  grind

theorem capLoop_under (under : p + 50 < 1200 + 25 * w.capStep) :
    let v := capLoop w p
    let cap := 1200 + 25 * w.capStep
    v.unreachable = false ∧ v.heldOver = 0 ∧ v.heldOver8 = 0
      ∧ v.heldUnder100 = (if p + 100 < cap then w.heldUnder100 + 1 else 0) ∧ v.heldUnder200 = (if p + 200 < cap then w.heldUnder200 + 1 else 0)
      ∧ (v.stageC, v.stageB, v.duty) =
        (if w.stageC = true ∧ p + 200 < cap ∧ 1000 ≤ w.heldUnder200 + 1 then (false, w.stageB, w.duty)
         else if w.stageB = true ∧ p + 100 < cap ∧ 100 ≤ w.heldUnder100 + 1 then (w.stageC, false, w.duty)
         else if w.stageB = false then (w.stageC, false, min 64 (w.duty + 1)) else (w.stageC, true, w.duty)) := by
  have above : ¬ 1200 + 25 * w.capStep < p := by omega
  obtain ⟨held8, held, held100, held200⟩ := capLoop_held (w := w) (p := p)
  have decided := capLoop_eq w p
  rw [if_neg above, if_pos under] at decided
  simp only [held8, held, held100, held200]
  simp only [decided, PowState.ease, PowState.counted, above]
  grind

theorem capLoop_between (above : p ≤ 1200 + 25 * w.capStep) (under : 1200 + 25 * w.capStep ≤ p + 50) :
    let v := capLoop w p
    v.duty = w.duty ∧ v.stageB = w.stageB ∧ v.stageC = w.stageC ∧ v.unreachable = w.unreachable := by
  rw [capLoop_eq, if_neg (by omega), if_neg (by omega)]
  exact ⟨rfl, rfl, rfl, rfl⟩

end

/-! ### What follows from a change (R433, R155) -/

@[simp] theorem State.powerDue_pow (s : State) : s.powerDue.pow = s.pow :=
  foldl_keeps (fun t => t.pow) _ (fun t p => by dsimp only; split <;> simp) _ s

@[simp] theorem State.powerDue_mem (s : State) : s.powerDue.mem = s.mem :=
  foldl_keeps (fun t => t.mem) _ (fun t p => by dsimp only; split <;> simp) _ s

@[simp] theorem State.powerDue_out (s : State) : s.powerDue.out = s.out :=
  foldl_keeps (fun t => t.out) _ (fun t p => by dsimp only; split <;> simp) _ s

@[simp] theorem State.alertIf_pow (s : State) (c : Bool) : (s.alertIf c).pow = s.pow := by
  unfold State.alertIf; split <;> rfl

@[simp] theorem State.atlasUpdate_pow (s : State) (kind : Nat) (parts : BitVec 16) : (s.atlasUpdate kind parts).pow = s.pow := by
  unfold State.atlasUpdate
  split
  · rfl
  · split
    · rfl
    · exact (pow_of_footing (State.atlasEnd_footing _)).trans (s.atlasBegin_pow)

@[simp] theorem State.rateChanged_pow (s : State) (before : Nat) : (s.rateChanged before).pow = s.pow := by
  unfold State.rateChanged; split <;> simp

theorem exec_capLoopPeriod {s : State} (loops : s.loops = true) (p mv tenMa : BitVec 16) :
    ∃ t : State, exec (.capLoopPeriod p mv tenMa) s = .next t ∧ t.pow = (capLoop s.pow p.toNat).meter p mv tenMa := by
  have powered : s.powered = true := by simp_all [State.loops]
  refine ⟨_, (if_neg (by simp [powered])).trans (if_neg (by simp [loops])), ?_⟩
  rw [State.rateChanged_pow]
  split <;> split <;> simp

/-! ### Readings (R421, R430, R431) -/

/-- What a reading makes of its sensor. -/
def readAs (r : Reading) : Sensor :=
  match r.value with
  | some t => if -640 ≤ t ∧ t ≤ 2400 then .temp t else .bad
  | none => .bad

theorem readAs_temp {r : Reading} {t : Int} (value : r.value = some t) (low : -640 ≤ t) (high : t ≤ 2400) : readAs r = .temp t := by
  rw [readAs, value]; exact if_pos ⟨low, high⟩

theorem readAs_bad {r : Reading} (wrong : r.value = none ∨ ∃ t : Int, r.value = some t ∧ (t < -640 ∨ 2400 < t)) : readAs r = .bad := by
  rcases wrong with value | ⟨t, value, out⟩
  · rw [readAs, value]
  · rw [readAs, value]; exact if_neg (by omega)

theorem State.takeReading_pow (s : State) {r : Reading} (listed : (0x800 ≤ r.sensor.toNat ∧ r.sensor.toNat ≤ 0x8B7) ∨ (0x900 ≤ r.sensor.toNat ∧ r.sensor.toNat ≤ 0x917)) :
    (s.takeReading r).pow = { s.pow with sensors := Tbl.set .unread s.pow.sensors r.sensor.toNat (readAs r) } := by
  unfold State.takeReading
  rw [if_neg (not_not_intro listed)]
  change State.pow (if decide (readAs r = .bad) && decide (s.sensor r.sensor.toNat ≠ .bad) then _ else _) = _
  split <;> rfl

/-- A group's step moves by at most one, and nothing else of power does. -/
theorem State.moveStep_moves (s : State) (g : Nat) : ∃ next since, (s.moveStep g).pow = { s.pow with steps := Tbl.set (0, 10) s.pow.steps g (next, since) }
    ∧ next ≤ s.thermalStep g + 1 ∧ s.thermalStep g ≤ next + 1 := by
  unfold State.moveStep State.thermalStep
  dsimp only
  rw [apply_ite State.pow, State.report_pow, ite_self]
  exact ⟨_, _, rfl, by grind, by grind⟩

theorem State.moveStep_thermalStep (s : State) (g : Nat) :
    (s.moveStep g).thermalStep g ≤ s.thermalStep g + 1 ∧ s.thermalStep g ≤ (s.moveStep g).thermalStep g + 1 := by
  obtain ⟨next, since, pow, up, down⟩ := s.moveStep_moves g
  have moved : (s.moveStep g).thermalStep g = next := by rw [State.thermalStep, State.thermal, pow, Tbl.get_set_same]
  rw [moved]
  exact ⟨up, down⟩

theorem State.moveStep_thermalStep_ne (s : State) {g k : Nat} (other : k ≠ g) : (s.moveStep g).thermalStep k = s.thermalStep k := by
  obtain ⟨next, since, pow, -⟩ := s.moveStep_moves g
  rw [State.thermalStep, State.thermal, pow, Tbl.get_set_ne _ _ _ _ _ other]; rfl

theorem moveSteps_sensors (l : List Nat) (s : State) : (l.foldl (fun s g => s.moveStep g) s).pow.sensors = s.pow.sensors :=
  foldl_keeps (fun t => t.pow.sensors) _ (fun t g => by obtain ⟨_, _, pow, -⟩ := t.moveStep_moves g; rw [pow]) l s

/-- Every group's step after the groups of a list moved: one that is not listed stays, and one that is listed once moves at most by one. -/
theorem moveSteps_thermalStep (l : List Nat) (once : l.Nodup) (s : State) (k : Nat) :
    (k ∉ l → (l.foldl (fun s g => s.moveStep g) s).thermalStep k = s.thermalStep k)
      ∧ (l.foldl (fun s g => s.moveStep g) s).thermalStep k ≤ s.thermalStep k + 1 ∧ s.thermalStep k ≤ (l.foldl (fun s g => s.moveStep g) s).thermalStep k + 1 := by
  induction l generalizing s with
  | nil => simp
  | cons g l ih =>
    obtain ⟨fresh, once⟩ := List.nodup_cons.mp once
    obtain ⟨stays, up, down⟩ := ih once (s.moveStep g)
    rw [List.foldl_cons]
    by_cases same : k = g
    · subst same
      rw [stays fresh]
      exact ⟨fun out => absurd List.mem_cons_self out, s.moveStep_thermalStep k⟩
    · rw [s.moveStep_thermalStep_ne same] at stays up down
      exact ⟨fun out => stays fun inside => out (List.mem_cons_of_mem _ inside), up, down⟩

theorem exec_sensorRead {s : State} (loops : s.loops = true) (r : Reading) :
    ∃ t : State, exec (.sensorRead [r]) s = .next t ∧ t.pow = ((List.range 47).foldl (fun s g => s.moveStep g) (s.takeReading r)).pow := by
  refine ⟨_, if_neg (by simp [loops]), ?_⟩
  rw [State.rateChanged_pow, State.alertIf_pow, apply_ite State.pow, State.powerDue_pow, ite_self, List.foldl_cons, List.foldl_nil]

/-! ### The charges of a period (R434, R435) -/

/-- A state but for its energy accounts; the meter's total at the last calibration is no account. -/
def State.uncharged (s : State) : State := { s with energy := { EnergyState.reset with metered := s.energy.metered } }

/-- The charge of one array at the end of a period. -/
def State.chargeArray (s : State) (la : Nat) : State :=
  if !(s.slotOf la).any (fun n => decide (s.domain n = .on)) then s else
  match (s.array la).occ with
  | some o => s.charge o.part (some o.cmd) .busy 1
  | none => match s.floorOf la with
    | some p => s.charge p none .idle 1
    | none => s.charge 0 none .idle 1

theorem State.chargeArray_uncharged (s : State) (la : Nat) : (s.chargeArray la).uncharged = s.uncharged := by
  unfold State.chargeArray
  (repeat' split) <;> rfl

theorem State.chargePeriod_uncharged (s : State) (cores : List (Fin 160 × Nat)) (rest : Nat) : (s.chargePeriod cores rest).uncharged = s.uncharged := by
  have arrays : ((List.range 384).foldl State.chargeArray s).uncharged = s.uncharged := foldl_keeps State.uncharged _ State.chargeArray_uncharged _ s
  refine (foldl_keeps State.uncharged _ (fun t x => ?_) cores _).trans arrays
  split <;> rfl

theorem eq_of_uncharged {s t : State} (h : t.uncharged = s.uncharged) : t = { s with energy := t.energy } ∧ t.energy.metered = s.energy.metered := by
  obtain ⟨_, _, _, _, _, _, _, _, _, _, _, _, _⟩ := s
  obtain ⟨_, _, _, _, _, _, _, _, _, _, _, _, _⟩ := t
  simp_all [State.uncharged]

theorem exec_energyCalibration {s : State} (up : s.up = true) (cores : List (Fin 160 × Nat)) (rest : Nat) :
    let t := s.chargePeriod cores rest
    let k := max 800 (min 1250 (1000 * (t.pow.energy - t.energy.metered).toNat * 10 ^ 9 / t.energy.modelled))
    exec (.energyCalibration cores rest) s = .next { t with
      pow := { t.pow with calibK := if t.energy.modelled = 0 then t.pow.calibK else k },
      energy := { t.energy with modelled := 0, metered := t.pow.energy } } :=
  if_neg (by simp [up])

/-- Settles O50: a period by the decisions of the cap loop, readings by what they make of their sensors and steps, calibration by the charges. -/
theorem powerLoopsComplete : Obligations.PowerLoopsComplete := by
  unfold Obligations.PowerLoopsComplete
  intro s powered
  refine ⟨fun failed => ?failed, fun stands => ?loops, fun up cores rest => ?calibration⟩
  case failed =>
    have still : s.loops = false := by simp [State.loops, Option.isNone_eq_false_iff, Option.isSome_iff_ne_none.mpr failed]
    have still' : (!s.loops) = true := by simp [still]
    exact ⟨fun p mv tenMa => (if_neg (by simp [powered])).trans (if_pos still'), if_pos still', fun d => if_pos still', fun l => if_pos still'⟩
  case loops =>
    have loops : s.loops = true := by simp [State.loops, powered, stands]
    refine ⟨fun p mv tenMa => ?period, ?overpower, fun d => ?stretch, fun r listed => ?reading⟩
    case period =>
      obtain ⟨t, run, pow⟩ := exec_capLoopPeriod loops p mv tenMa
      obtain ⟨step, energy⟩ := capLoop_kept (w := s.pow) (p := p.toNat)
      refine ⟨t, run, ?_⟩
      rw [pow]
      exact ⟨rfl, rfl, rfl, step, congrArg (· + BitVec.ofNat 64 (100 * p.toNat)) energy, capLoop_over, capLoop_under, capLoop_between⟩
    case overpower =>
      by_cases low : s.pow.duty = 8
      · exact ⟨s, (if_neg (by simp [loops])).trans (if_pos low), by rw [← low], rfl, rfl⟩
      · exact ⟨_, (if_neg (by simp [loops])).trans (if_neg low), State.powerDue_pow _, State.powerDue_mem _, State.powerDue_out _⟩
    case stretch =>
      refine ⟨_, if_neg (by simp [loops]), rfl, ?_⟩
      dsimp only
      split
      · next full => rw [full]; decide
      · next left =>
        have bound : s.pow.stretches.toNat ≠ 2 ^ 32 - 1 := fun full => left (BitVec.eq_of_toNat_eq full)
        have := s.pow.stretches.isLt
        bv_omega
    case reading =>
      obtain ⟨t, run, pow⟩ := exec_sensorRead loops r
      have sensors : t.pow.sensors = Tbl.set .unread s.pow.sensors r.sensor.toNat (readAs r) := by
        rw [pow, moveSteps_sensors, s.takeReading_pow listed]
      have steps := moveSteps_thermalStep (List.range 47) List.nodup_range (s.takeReading r)
      have read : t.sensor r.sensor.toNat = readAs r := by rw [State.sensor, sensors, Tbl.get_set_same]
      refine ⟨t, run, fun x value low high => read.trans (readAs_temp value low high), fun wrong => read.trans (readAs_bad wrong),
        fun n other => ?_, fun g => ?_⟩
      · rw [State.sensor, sensors, Tbl.get_set_ne _ _ _ _ _ other]; rfl
      · obtain ⟨-, moved⟩ := steps g
        have before : (s.takeReading r).thermalStep g = s.thermalStep g := by
          rw [State.thermalStep, State.thermal, s.takeReading_pow listed]; rfl
        have after : t.thermalStep g = ((List.range 47).foldl (fun s g => s.moveStep g) (s.takeReading r)).thermalStep g := by
          rw [State.thermalStep, State.thermal, pow]; rfl
        rwa [before, ← after] at moved
  case calibration =>
    obtain ⟨charged, metered⟩ := eq_of_uncharged (s.chargePeriod_uncharged cores rest)
    have pow : (s.chargePeriod cores rest).pow = s.pow := by rw [charged]
    have run := exec_energyCalibration up cores rest
    refine ⟨_, run, ?_, fun some => ?_⟩
    · rw [pow]; rw [charged]
    · rw [if_neg some, pow, metered, Nat.mul_assoc]

end Sys2Proof.Machine
end


section

/-! SUPPORT. Meridian ports and lanes (12 R341-R343, R353, R362): what a write of LNK_PORT_CONTROL does, how a port trains, and what becomes of its lanes; with these the
statement about them. -/

namespace Sys2Proof.Machine

theorem lp_of_footing {s t : State} (h : t.footing = s.footing) (n : Nat) : t.lp n = s.lp n := by
  have link : t.link = s.link := (congrArg (fun f : Footing => f.plant.link) h :)
  simp only [State.lp, link]

/-! ### LNK_PORT_CONTROL (R343, R362) -/

/-- The port of a control write, with what the write enables. -/
def LinkPort.allowed (x : LinkPort) (v : Word) : LinkPort := { x with enable := v.getLsbD 0, spareEnable := v.getLsbD 1 }

section
variable {s : State} {n : Fin 12} {v : Word}

theorem State.portControl_off (off : v.getLsbD 0 = false) :
    s.portControl n v = ((s.setLp n.val ((s.lp n.val).allowed v)).portTo n .down true).dropDomain (492 + n.val) :=
  if_pos (by rw [off]; rfl)

theorem State.portControl_numberless (on : v.getLsbD 0 = true) (numberless : s.link.number = 0xFFF) :
    s.portControl n v = s.setLp n.val ((s.lp n.val).allowed v) :=
  (if_neg (by rw [on]; decide)).trans (if_pos numberless)

/-- ENABLE of a port that was not: it trains afresh, and its failures count from 0. -/
theorem State.portControl_enables (on : v.getLsbD 0 = true) (noRetrain : v.getLsbD 2 = false) (numbered : s.link.number ≠ 0xFFF) (was : (s.lp n.val).enable = false) :
    let t := s.setLp n.val ((s.lp n.val).allowed v)
    s.portControl n v = ((t.setLp n.val { t.lp n.val with fails := 0 }).wantDomain (492 + n.val)).portTo n .training false := by
  unfold State.portControl
  dsimp only
  rw [if_neg (by rw [on]; decide), if_neg (by exact numbered), if_pos (by simp [was]), if_neg (by rw [noRetrain]; decide)]
  rfl

theorem State.portControl_stays (on : v.getLsbD 0 = true) (noRetrain : v.getLsbD 2 = false) (was : (s.lp n.val).enable = true) :
    s.portControl n v = s.setLp n.val ((s.lp n.val).allowed v) := by
  by_cases numbered : s.link.number = 0xFFF
  · exact State.portControl_numberless on numbered
  · unfold State.portControl
    dsimp only
    rw [if_neg (by rw [on]; decide), if_neg (by exact numbered), if_neg (by simp [was]), if_neg (by rw [noRetrain]; exact fun both => absurd both.1 (by decide))]
    rfl

/-- RETRAIN of an enabled port tries its lanes afresh. -/
theorem State.portControl_retrains (on : v.getLsbD 0 = true) (retrain : v.getLsbD 2 = true) (numbered : s.link.number ≠ 0xFFF) (was : (s.lp n.val).enable = true)
    (mode : (s.lp n.val).mode ≠ .fenced) : ((s.portControl n v).lp n.val).failed = [] ∧ ((s.portControl n v).lp n.val).half = none
      ∧ ((s.portControl n v).lp n.val).spare = none ∧ ((s.portControl n v).lp n.val).fails = 0 := by
  unfold State.portControl
  dsimp only
  rw [if_neg (by rw [on]; decide), if_neg (by exact numbered), if_neg (by simp [was]), if_pos ⟨retrain, mode⟩]
  split
  · have kept (t : State) (x : LinkPort) : ((t.setLp n.val x).atlasUpdate 8 0).lp n.val = x :=
      (lp_of_footing (State.atlasUpdate_footing ..) _).trans (State.lp_setLp ..)
    rw [kept]
    exact ⟨rfl, rfl, rfl, rfl⟩
  · rw [State.lp_setLp]
    exact ⟨rfl, rfl, rfl, rfl⟩

end

/-! ### Training (R343) -/

/-- The port of a HELLO that was heard. -/
def LinkPort.heard (x : LinkPort) (peer : BitVec 12) (q : Fin 16) (sp : Option (BitVec 12)) : LinkPort :=
  { x with peer := peer, peerPort := BitVec.ofNat 4 q.val, sparePeer := sp }

section
variable {s : State} {n : Fin 12} (up : s.up = true) (mode : (s.lp n.val).mode = .training) (on : s.domain (492 + n.val) = .on)
include up mode on

theorem exec_hello (peer : BitVec 12) (q : Fin 16) (sp : Option (BitVec 12)) (heard : Bool) : exec (.hello n peer q sp heard) s =
    if peer = s.link.number then .next (s.portTo n .fenced false)
    else
      let t := (s.setLp n.val ((s.lp n.val).heard peer q sp)).sendHello n
      if !heard then .next t
      else .next ((((t.setLp n.val { t.lp n.val with mode := .up, fails := 0, txSeq := 1, rxSeq := 1 })).atlasUpdate 8 0).pump) :=
  if_neg (by simp [up, mode, on])

theorem exec_portTrainingFailed : exec (.portTrainingFailed n) s =
    let t := s.setLp n.val { s.lp n.val with fails := (s.lp n.val).fails + 1 }
    if (s.lp n.val).fails + 1 < 3 then .next t else .next (t.portTo n .fenced false) :=
  if_neg (by simp [up, mode, on])

end

/-! ### Lanes (R341, R342) -/

theorem foldl_emit_out {α : Type} (f : α → Out) (l : List α) (s : State) : (l.foldl (fun s y => s.emit (f y)) s).out = (l.map f).reverse ++ s.out := by
  induction l generalizing s with
  | nil => rfl
  | cons a l ih => rw [List.foldl_cons, ih]; simp [State.emit]

theorem foldl_emit_lp {α : Type} (f : α → Out) (l : List α) (s : State) (n : Nat) : (l.foldl (fun s y => s.emit (f y)) s).lp n = s.lp n :=
  foldl_keeps (fun t : State => t.lp n) (fun t y => t.emit (f y)) (fun _ _ => rfl) l s

/-- A port at half width on the pair `k`, after the failure of a lane. -/
def LinkPort.halved (x : LinkPort) (lane k : Nat) (free : Bool) : LinkPort :=
  { x with
    failed := x.failed ++ [lane]
    half := some k
    subst := if free then some (lane, false) else x.subst
    replays := if x.replays = BitVec.allOnes 16 then x.replays else x.replays + 1 }

/-- A port that runs a lane on a spare. -/
def LinkPort.switched (x : LinkPort) (lane spare : Nat) : LinkPort :=
  { x with
    spare := some (lane, spare)
    failed := x.failed.filter (fun l => decide (l ≠ lane))
    half := if x.failed.filter (fun l => decide (l ≠ lane)) = [] then none else x.half
    subst := none
    trained := false }

section
variable {s : State} {n : Fin 12} (up : s.up = true) (mode : (s.lp n.val).mode = .up)
include up mode

theorem exec_laneAbruptFailure_fences {lane : Fin 4} (fresh : (s.lp n.val).failed.contains lane.val = false)
    (pair : goodPair ((s.lp n.val).failed ++ [lane.val]) = none) :
    exec (.laneAbruptFailure n lane) s = .next ((s.setLp n.val { s.lp n.val with failed := (s.lp n.val).failed ++ [lane.val] }).portTo n .fenced false) := by
  change execLaneAbruptFailure n lane s = _
  unfold execLaneAbruptFailure
  dsimp only
  rw [if_neg (by simp only [up, mode, fresh]; decide), pair]

/-- A lane that fails with a good pair left: half width, and what is not acknowledged is sent again. -/
theorem exec_laneAbruptFailure_halves {lane : Fin 4} (fresh : (s.lp n.val).failed.contains lane.val = false) {k : Nat}
    (pair : goodPair ((s.lp n.val).failed ++ [lane.val]) = some k) :
    let w := (s.lp n.val).replay.foldl (fun t y => t.emit (.frame n y.2.2)) (s.setLp n.val ((s.lp n.val).halved lane.val k (s.spareFree n)))
    exec (.laneAbruptFailure n lane) s = .next (if (s.lp n.val).half.isSome then w else (w.report (mkReport 0x0071 (unitId 8 n.val) 0)).atlasUpdate 8 0) := by
  change execLaneAbruptFailure n lane s = _
  unfold execLaneAbruptFailure
  dsimp only
  rw [if_neg (by simp only [up, mode, fresh]; decide), pair]
  rfl

/-- The first port of the group with a substitution that its spare has not yet been trained for offers it. -/
theorem exec_spareLaneTrained {lane : Nat} {b : Bool} (wants : (s.lp n.val).subst = some (lane, b)) (untrained : (s.lp n.val).trained = false)
    (first : ∀ j, j < n.val % 3 → (s.lp (n.val / 3 * 3 + j)).subst = none) (credit : s.canSend n.val none 3 = true) :
    exec (.spareLaneTrained ⟨n.val / 3, by omega⟩) s = .next (s.sendSubstitute n lane) := by
  have place : 3 * (n.val / 3) + n.val % 3 = n.val := Nat.div_add_mod n.val 3
  have found : (List.range 3).find? (fun i => decide ((s.lp (3 * (n.val / 3) + i)).mode = .up) && (s.lp (3 * (n.val / 3) + i)).subst.isSome
      && !(s.lp (3 * (n.val / 3) + i)).trained) = some (n.val % 3) := by
    rw [List.find?_range_eq_some]
    refine ⟨by simp [place, mode, wants, untrained], List.mem_range.mpr (Nat.mod_lt _ (by decide)), fun j before => ?_⟩
    have none := first j before
    rw [Nat.mul_comm] at none
    simp [none]
  have same : toLp (3 * (n.val / 3) + n.val % 3) = n := by
    rw [place]; exact Fin.ext (Nat.mod_eq_of_lt n.isLt)
  change execSpareLaneTrained _ s = _
  unfold execSpareLaneTrained
  rw [if_neg (by simp [up])]
  dsimp only
  rw [found]
  dsimp only
  rw [same, wants]
  exact if_pos credit

/-- SUBSTITUTE for the lane that this end offers already: agreed, and nothing more is sent. -/
theorem exec_substitute_agrees {lane : Fin 4} {sp : Fin 52} {b : Bool} (spare : 48 ≤ sp.val) (wants : (s.lp n.val).subst = some (lane.val, b))
    (trained : (s.lp n.val).trained = true) : exec (.substitute n lane sp) s =
      .next ((s.setLp n.val { s.lp n.val with rxSeq := (s.lp n.val).rxSeq + 1, subst := some (lane.val, true) }).giveCredit n 3).pump := by
  change execSubstitute n lane sp s = _
  unfold execSubstitute
  dsimp only
  rw [if_neg (by simp [up, mode]), wants]
  simp [spare, trained]

theorem exec_laneSwitch {lane : Nat} (agreed : (s.lp n.val).subst = some (lane, true)) :
    let u := s.setLp n.val ((s.lp n.val).switched lane (48 + n.val / 3))
    exec (.laneSwitch n) s = .next (((if (s.lp n.val).half.isSome ∧ (s.lp n.val).failed.filter (fun l => decide (l ≠ lane)) = [] then
      u.atlasUpdate 8 0 else u).report (mkReport 0x0070 (unitId 8 n.val) 0)).atlasUpdate 4 0) := by
  change execLaneSwitch n s = _
  unfold execLaneSwitch
  dsimp only
  rw [agreed]
  exact if_neg (by simp [up, mode])

end

/-- Settles O44: control writes by ENABLE and RETRAIN, training by HELLO and its failures, lanes by each event. -/
theorem meridianPortsComplete : Obligations.MeridianPortsComplete := by
  unfold Obligations.MeridianPortsComplete
  intro s n up x
  refine ⟨fun port v serves select => ?control, fun peer q sp mode on => ?training, fun mode => ?lanes⟩
  case control =>
    have control (w : Word) : s.linkControl port w = s.portControl n w := by rw [State.linkControl, if_pos serves, select]
    have enable : exec (.lnkPortEnable port v) s = .next (s.portControl n v) := congrArg Host.Outcome.next (control v)
    have retrain : exec (.lnkPortRetrain port v) s = .next (s.portControl n (v ||| 4)) := congrArg Host.Outcome.next (control (v ||| 4))
    refine ⟨fun set noRetrain was numbered => ?_, fun set noRetrain was => ?_, fun off => ?_, fun set numberless => ?_, fun set was mode numbered => ?_⟩
    · refine ⟨_, enable.trans (congrArg _ (State.portControl_enables set noRetrain numbered was)), ?_⟩
      rw [State.lp_setLp, State.lp_setLp, LinkPort.allowed, set]
    · refine ⟨_, enable.trans (congrArg _ (State.portControl_stays set noRetrain was)), ?_⟩
      rw [State.lp_setLp, LinkPort.allowed, set]
    · refine ⟨_, enable.trans (congrArg _ (State.portControl_off off)), ?_⟩
      rw [State.lp_setLp, LinkPort.allowed, off]
    · rw [enable, State.portControl_numberless set numberless, LinkPort.allowed, set]
    · refine ⟨_, retrain, State.portControl_retrains ?_ ?_ numbered was mode⟩
      · rw [BitVec.getLsbD_or, set]; rfl
      · rw [BitVec.getLsbD_or, Bool.or_eq_true]; exact .inr (by decide)
  case training =>
    refine ⟨fun apart => ⟨?_, ?_⟩, fun heard => ?_, fun few => ?_, fun third => ?_⟩
    · refine ⟨_, (exec_hello up mode on peer q sp false).trans (if_neg apart), ?_⟩
      rw [State.sendHello, State.lp_emit', State.lp_setLp]
      exact ⟨mode, rfl, rfl⟩
    · refine ⟨_, (exec_hello up mode on peer q sp true).trans (if_neg apart), ?_⟩
      rw [State.lp_setLp, State.sendHello, State.lp_emit', State.lp_setLp]
      exact ⟨rfl, rfl, rfl, rfl, rfl⟩
    · exact (exec_hello up mode on _ q sp heard).trans (if_pos rfl)
    · exact ⟨_, (exec_portTrainingFailed up mode on).trans (if_pos few), State.lp_setLp ..⟩
    · exact ⟨_, (exec_portTrainingFailed up mode on).trans (if_neg (Nat.not_lt.mpr third)), State.lp_setLp ..⟩
  case lanes =>
    refine ⟨if_neg (by simp [up, x, mode]), fun lane fresh free => ?_, fun lane fresh => ⟨fun pair => ?_, fun k pair => ?_⟩,
      fun lane b wants untrained first credit => exec_spareLaneTrained up mode wants untrained first credit, fun lane spare b high wants trained => ?_, fun lane agreed => ?_⟩
    · exact if_neg (by simp only [up, mode, fresh, free, x]; decide)
    · exact ⟨_, exec_laneAbruptFailure_fences up mode fresh pair, State.lp_setLp ..⟩
    · have run := exec_laneAbruptFailure_halves up mode fresh pair
      refine ⟨_, ?_, ?_, foldl_emit_out (fun z : BitVec 16 × Option (Fin 16) × TxFrame => Out.frame n z.2.2) x.replay (s.setLp n.val (x.halved lane.val k (s.spareFree n))), run⟩
      · rw [foldl_emit_lp, State.lp_setLp]; rfl
      · rw [foldl_emit_lp, State.lp_setLp]; rfl
    · exact ⟨_, exec_substitute_agrees up mode high wants trained, State.lp_setLp ..⟩
    · refine ⟨_, ?_, ?_, ?_, exec_laneSwitch up mode agreed⟩ <;> rw [State.lp_setLp] <;> rfl

end Sys2Proof.Machine
end


section

/-! SUPPORT. Meridian frames (12 R346-R358): what becomes of a frame that is received, what responses do, and credits, replays, timeouts and routes; with these the statement
about frames. -/

namespace Sys2Proof.Machine

/-! ### What becomes of a received frame (R346, R349, R351, R355) -/

section
variable {s : State} {n : Fin 12} {f : Frame} (op : Nat) (ready : Bool) (go : RxStream → State → State)

/-- A frame that is heard, with what it touches free, is performed for its stream. -/
theorem State.receive_heard {t : State} {r : RxStream} {op : Nat} (hears : s.Hears n op f r t) {ready : Bool} (free : ready = true) :
    s.receive n op f ready go = ((go r t).giveCredit n (rxFrame f).vc).pump := by
  obtain ⟨up, opcode, dest, formed, u, taken, checked⟩ := hears
  unfold State.receive
  dsimp only
  rw [if_neg (by simp [up]), taken]
  dsimp only
  rw [if_neg (not_not_intro dest), if_neg (by simp [formed]), if_neg (by simp [opcode, free]), checked]

theorem State.receive_elsewhere {u : State} (up : s.up = true) (taken : s.hopTake n f = some u) (dest : (rxFrame f).dest ≠ s.link.number)
    (formed : (rxFrame f).wellFormed = true) : s.receive n op f ready go = (u.forward n (rxFrame f)).pump := by
  unfold State.receive
  dsimp only
  rw [if_neg (by simp [up]), taken]
  exact (if_pos dest).trans (by rw [if_pos formed])

theorem State.receive_lost (up : s.up = true) (untaken : s.hopTake n f = none) : s.receive n op f ready go = s.hopLost n f := by
  unfold State.receive
  dsimp only
  rw [if_neg (by simp [up]), untaken]

end

/-- A frame that is not the next of its port is at most counted. -/
theorem State.hopLost_counts (s : State) (n : Fin 12) (f : Frame) :
    (s.hopLost n f).mem = s.mem ∧ (s.hopLost n f).chan = s.chan ∧ (s.hopLost n f).arr = s.arr ∧ ((s.hopLost n f).lp n.val).rxSeq = (s.lp n.val).rxSeq := by
  unfold State.hopLost
  dsimp only
  split
  · exact ⟨rfl, rfl, rfl, rfl⟩
  · exact ⟨rfl, rfl, rfl, by rw [State.lp_setLp]⟩

/-- Every frame command receives its frame. -/
theorem exec_frame {s : State} {n : Fin 12} {f : Frame} {i : Instr}
    (mem : i ∈ [Instr.meridianRead n f, .meridianWrite n f, .bulkWrite n f, .meridianAtomic n f, .readData n f, .writeAck n f, .atomicData n f]) :
    ∃ op ready go, exec i s = .next (s.receive n op f ready go) := by
  simp only [List.mem_cons, List.not_mem_nil, or_false] at mem
  rcases mem with rfl | rfl | rfl | rfl | rfl | rfl | rfl <;> exact ⟨_, _, _, rfl⟩

/-! ### Responses (R357) -/

section
variable {s t : State} {n : Fin 12} {f : Frame} {r : RxStream} {q : RemoteReq} {id lane : Nat} (answers : t.answered r (rxFrame f) = some q)
  (good : (rxFrame f).status = 0) (use : q.use = .home id lane)
include answers good use

theorem exec_readData {h : HomeReq} (hears : s.Hears n 0x10 f r t) (free : s.pullReady (rxFrame f) = true) (read : q.write = false) (plain : q.atomic = false)
    (waits : t.homeReq id = some h) : exec (.readData n f) s =
      .next ((((((t.dropRemote q.tag).fillRemote q h.line (placeBytes 0 f.payload)).dropReq id).deliver h (.data (placeBytes 0 f.payload) 0)).giveCredit n (rxFrame f).vc).pump) := by
  have still : (t.dropRemote q.tag).homeReq id = some h := waits
  refine congrArg Host.Outcome.next ((State.receive_heard _ hears free).trans ?_)
  simp only [answers, read, plain, good, use, still, Bool.or_false, Bool.false_eq_true, if_false, ne_eq, not_true_eq_false]

theorem exec_writeAck (hears : s.Hears n 0x11 f r t) (write : q.write = true) :
    exec (.writeAck n f) s = .next ((((t.dropRemote q.tag).settleHome id).giveCredit n (rxFrame f).vc).pump) := by
  refine congrArg Host.Outcome.next ((State.receive_heard _ hears rfl).trans ?_)
  simp only [answers, write, good, use, Bool.not_true, Bool.false_eq_true, if_false, ne_eq, not_true_eq_false]

theorem exec_atomicData {h : HomeReq} {a : AtomicOp} {b : Nat} {c : List (Nat × Nat × Word × Word)} (hears : s.Hears n 0x12 f r t) (atomic : q.atomic = true)
    (waits : t.homeReq id = some h) (asked : h.op = .atomic a b c) : exec (.atomicData n f) s =
      .next (((((t.addOld h.la h.cohort h.group id lane (BitVec.ofNat 64 (leNat (f.payload.take q.len)))).dropRemote q.tag).settleHome id).giveCredit n (rxFrame f).vc).pump) := by
  refine congrArg Host.Outcome.next ((State.receive_heard _ hears rfl).trans ?_)
  simp only [answers, atomic, good, use, waits, asked, Bool.not_true, Bool.false_eq_true, if_false, ne_eq, not_true_eq_false]

end

/-! ### Credits, replays, timeouts and routes (R348, R349, R352, R358) -/

section
variable {s : State} {n : Fin 12} (up : s.up = true) (mode : (s.lp n.val).mode = .up)
include up mode

theorem exec_credit (vc : Fin 4) (k : Byte) : exec (.credit n vc k) s =
    .next (s.setLp n.val { s.lp n.val with rxSeq := (s.lp n.val).rxSeq + 1, spent := dropCredits vc.val k.toNat (s.lp n.val).spent }).pump :=
  if_neg (by simp [up, mode])

/-- A replay sends again, in order, what is not acknowledged. -/
theorem exec_hopReplayTimeout (left : (s.lp n.val).replay ≠ []) : ∃ t : State, exec (.hopReplayTimeout n) s = .next t
    ∧ t.out = ((s.lp n.val).replay.map (fun y => Out.frame n y.2.2)).reverse ++ s.out ∧ (t.lp n.val).replay = (s.lp n.val).replay ∧ t.mem = s.mem := by
  refine ⟨_, if_neg (by simp [up, mode, left]), foldl_emit_out (fun y : BitVec 16 × Option (Fin 16) × TxFrame => Out.frame n y.2.2) _ _, ?_, ?_⟩
  · rw [foldl_emit_lp, State.lp_setLp]
  · exact foldl_keeps State.mem (fun (t : State) (y : BitVec 16 × Option (Fin 16) × TxFrame) => t.emit (.frame n y.2.2)) (fun _ _ => rfl) _ _

end

theorem exec_remoteTimeout {s : State} {tag : Fin 16384} {q : RemoteReq} (up : s.up = true) (waits : s.link.reqs.find? (fun q => decide (q.tag = tag.val)) = some q)
    (sent : q.lp.isSome = true) : exec (.remoteTimeout tag) s = .next (s.failRemote q .timeout q.lp).pump := by
  change execRemoteTimeout tag s = _
  rw [execRemoteTimeout, waits]
  exact if_neg (by simpa [up] using Option.isSome_iff_ne_none.mp sent)

theorem State.route_setRoute (s : State) (m : BitVec 12) (r : RouteEntry) : (s.setRoute m r).route m = r := Tbl.get_set_same ..

theorem exec_lnkRouteEntry {s : State} {port : Fin 2} {v : Word} (serves : s.barServes port 0 = true) (low : 1 ≤ field v 16 3) (high : field v 16 3 ≤ 4) :
    exec (.lnkRouteEntry port v) s =
      .next (s.setRoute (s.port port).routeSelect { s.route (s.port port).routeSelect with pending := some (bits v 0 12, field v 16 3) }).pump := by
  change Host.Outcome.next (if s.barServes port 0 then s.writeRoute port v else s) = _
  rw [if_pos serves, State.writeRoute]
  dsimp only
  rw [if_pos ⟨low, high⟩]

/-- Settles O45: requests and responses as frames that are heard, other frames by the port that takes or loses them, and the rest by each command. -/
theorem meridianFramesComplete : Obligations.MeridianFramesComplete := by
  unfold Obligations.MeridianFramesComplete
  refine ⟨fun s t n f r op hears => ?heard, fun s n f i up mem => ?others, fun s n up mode => ?ports, fun s tag q up waits sent => exec_remoteTimeout up waits sent,
    fun s port v serves low high => ⟨_, exec_lnkRouteEntry serves low high, State.route_setRoute ..⟩⟩
  case heard =>
    refine ⟨fun kind free => ?_, fun kind free => ?_, fun kind free => ?_, fun kind free => ?_, fun q id lane h kind free answers read plain good use waits => ?_,
      fun q id lane kind answers write good use => ?_, fun q id lane h a b c kind answers atomic good use waits asked => ?_⟩ <;> subst kind
    · exact congrArg Host.Outcome.next (State.receive_heard _ hears free)
    · exact congrArg Host.Outcome.next (State.receive_heard _ hears free)
    · exact congrArg Host.Outcome.next (State.receive_heard _ hears free)
    · exact congrArg Host.Outcome.next (State.receive_heard _ hears free)
    · exact ⟨_, exec_readData answers good use hears free read plain waits, rfl⟩
    · exact exec_writeAck answers good use hears write
    · exact exec_atomicData answers good use hears atomic waits asked
  case others =>
    obtain ⟨op, ready, go, run⟩ := exec_frame (s := s) mem
    refine ⟨fun untaken => ⟨_, run.trans (congrArg _ (State.receive_lost op ready go up untaken)), s.hopLost_counts n f⟩, fun u taken dest formed => ?_⟩
    exact run.trans (congrArg _ (State.receive_elsewhere op ready go up taken dest formed))
  case ports => exact ⟨fun vc k => ⟨_, exec_credit up mode vc k, State.lp_setLp ..⟩, fun left => exec_hopReplayTimeout up mode left⟩

end Sys2Proof.Machine
end


section

/-! SUPPORT. Functions and host ports (11 R315, R329-R333, R338; 16 R447; 17 R454): how a reset begins and ends, how ports go down and come up, and what enables bring; with
these the statement about them. -/

namespace Sys2Proof.Machine

/-! ### The start of a reset (R329, R331, R332) -/

section
variable {s : State} {port : Fin 2} {fn : Fin 128}

theorem State.portServes_up (serves : s.portServes port = true) : s.up = true := (Bool.and_eq_true_iff.mp serves).1

theorem State.fnExists_zero (s : State) (port : Fin 2) : s.fnExists port 0 = true := rfl

/-- The function as a reset starts. -/
def FnState.resetting (f : FnState) (cause : Nat) (disable : Bool) : FnState :=
  { f with mode := .resetting, lastCause := cause, recordsLost := 0, toDisabled := disable || decide (f.mode = .disabled) }

theorem State.tdispError_chan (s : State) (port : Fin 2) (fn : Fin 128) :
    (s.tdispError port fn).chan.entries = s.chan.entries ∧ (s.tdispError port fn).chan.cmds = s.chan.cmds := by
  unfold State.tdispError
  dsimp only
  (repeat' split) <;> exact ⟨rfl, rfl⟩

/-- An interface that is locked enters ERROR, and the function is else as it was. -/
theorem State.tdispError_fn (s : State) (port : Fin 2) (fn : Fin 128) :
    (s.tdispError port fn).fn port fn = { s.fn port fn with tdisp := ((s.tdispError port fn).fn port fn).tdisp } := by
  have error (t : State) (kept : t.fn port fn = { s.fn port fn with tdisp := .error }) : t.fn port fn = { s.fn port fn with tdisp := (t.fn port fn).tdisp } := by
    rw [kept]
  unfold State.tdispError
  dsimp only
  split
  · rfl
  · (repeat' split) <;> exact error _ (State.fn_setFn ..)

theorem State.startReset_begins (mode : (s.fn port fn).mode ≠ .resetting) (cause : Nat) (disable : Bool) :
    let u := (s.setFn port fn ((s.fn port fn).resetting cause disable)).tdispError port fn
    s.startReset port fn cause disable = (u.fnChans port fn).foldl (fun s ch => s.resetChannel ch cause) u := by
  intro u
  have entries : u.chan.entries = s.chan.entries := (State.tdispError_chan ..).1
  have chans : u.fnChans port fn = (s.setFn port fn ((s.fn port fn).resetting cause disable)).fnChans port fn := by
    unfold State.fnChans State.entry
    rw [entries]
    rfl
  rw [chans]
  exact if_neg mode

theorem exec_flr (serves : s.portServes port = true) (there : s.fnExists port fn = true) (virtual : fn ≠ 0) :
    exec (.flr port fn) s = .next (s.startReset port fn 0 false).afterReset :=
  (if_neg (by simp [serves, there])).trans (if_neg virtual)

end

/-! ### Ports (R330, R447) -/

theorem State.setPort_up (s : State) (n : Fin 2) (x : PortState) : (s.setPort n x).up = s.up := by
  unfold State.up; rw [State.setPort_pow]

/-- A port that is taken down. -/
def PortState.down (x : PortState) (how : PortReset) : PortState :=
  { x with released := x.released && decide (how ≠ .perst), drs := x.drs && decide (how ≠ .perst), linkUp := false, width := 0, rate := 0, flit := false, ready := false }

theorem exec_perstAsserted (s : State) (port : Fin 2) (how : PortReset) :
    let w := s.setPort port ((s.port port).down how)
    exec (.perstAsserted port how) s = .next (if s.up = true then (w.resetPort port 4).atlasUpdate 8 0 else w) := by
  intro w
  have up : w.up = s.up := s.setPort_up port _
  rw [← up]
  exact (apply_ite Host.Outcome.next _ _ _).symm

/-! ### The end of a reset (R331) -/

/-- What is left of a function's requests when its reset ends. -/
def State.forgetFn (s : State) (port : Fin 2) (fn : Fin 128) : State :=
  { s with host := { s.host with
    reads := s.host.reads.filter (fun r => !decide (r.port = port ∧ r.fn = fn))
    ats := s.host.ats.filter (fun r => !decide (r.port = port ∧ r.fn = fn))
    pages := s.host.pages.filter (fun r => !decide (r.port = port ∧ r.fn = fn)) } }

/-- A channel whose reset ends is DISABLED. -/
def State.idleChan (s : State) (ch : Fin 3072) : State :=
  (s.setEntry ch (setEntState (s.entry ch) 0)).setDyn ch { s.dyn ch with stop := none, hot := false }

theorem State.idleChans_idle (l : List (Fin 3072)) (s : State) (ch : Fin 3072) (listed : ch ∈ l ∨ entState (s.entry ch) = 0) :
    entState ((l.foldl State.idleChan s).entry ch) = 0 := by
  induction l generalizing s with
  | nil => simpa using listed
  | cons a l ih =>
    rw [List.foldl_cons]
    refine ih _ ?_
    by_cases here : ch = a
    · subst here
      refine .inr ?_
      rw [State.idleChan, State.entry_setDyn', State.entry_setEntry, entState_setEntState _ (by decide)]
    · have kept : (s.idleChan a).entry ch = s.entry ch := by
        rw [State.idleChan, State.entry_setDyn', State.entry_setEntry_ne _ _ _ _ here]
      rw [kept]
      exact listed.imp_left (fun mem => (List.mem_cons.mp mem).resolve_left here)

/-- The channels, and of the host's side all but Invalidate Requests and the tags that requests wait for. -/
structure Doors where
  chan : ChanState
  port0 : PortState
  port1 : PortState
  fns : Tbl FnState
  pages : List PageReq
  outstanding : List (Fin 2 × Fin 128)

def State.doors (s : State) : Doors :=
  ⟨s.chan, s.host.port0, s.host.port1, s.host.fns, s.host.pages, s.host.reads.map (fun r => (r.port, r.fn))⟩

theorem State.sendTag_doors (s : State) (r : HostTag) (x : HostSend) : (s.sendTag r x).doors = s.doors := by
  cases x <;> rfl

theorem State.sendHeld_doors (s : State) (port : Fin 2) : (s.sendHeld port).doors = s.doors := by
  unfold State.sendHeld
  dsimp only
  generalize List.take _ _ = due
  refine (foldl_keeps State.doors _ (fun t r => ?_) due _).trans ?_
  · split
    · exact t.sendTag_doors r _
    · rfl
  · have kept : (s.host.reads.map (fun r => if due.contains r then { r with held := none } else r)).map (fun r => (r.port, r.fn))
        = s.host.reads.map (fun r => (r.port, r.fn)) := by
      rw [List.map_map]
      refine List.map_congr_left fun r _ => ?_
      by_cases out : due.contains r = true
      · simp only [Function.comp_apply, if_pos out]
      · simp only [Function.comp_apply, if_neg out]
    exact congrArg (Doors.mk s.chan s.host.port0 s.host.port1 s.host.fns s.host.pages) kept

theorem State.settleInvals_doors (s : State) : s.settleInvals.doors = s.doors := by
  unfold State.settleInvals
  dsimp only
  refine (State.sendHeld_doors _ 1).trans ((State.sendHeld_doors _ 0).trans (foldl_keeps (fun y : List AtsInval × State => y.2.doors) _ (fun y x => ?_) _ _))
  split <;> rfl

theorem State.writeMem_doors (s : State) (line : Nat) (d : Line) (m : BitVec 128) (p : BitVec 2) : (s.writeMem line d m p).doors = s.doors := by
  unfold State.writeMem; split <;> rfl

theorem State.cleanWays_doors (s : State) (p : Fin 16) : (s.cleanWays p).doors = s.doors := by
  unfold State.cleanWays
  dsimp only
  exact foldl_keeps State.doors _ (fun t l => t.writeMem_doors ..) _ s

theorem fn_of_doors {s t : State} (h : t.doors = s.doors) (port : Fin 2) (fn : Fin 128) : t.fn port fn = s.fn port fn := by
  unfold State.fn; rw [show t.host.fns = s.host.fns from congrArg Doors.fns h]

theorem entry_of_doors {s t : State} (h : t.doors = s.doors) (ch : Fin 3072) : t.entry ch = s.entry ch := by
  unfold State.entry; rw [show t.chan = s.chan from congrArg Doors.chan h]

/-- The function as a reset ends. -/
def FnState.leaves (f g : FnState) : FnState :=
  { g with
    mode := if f.toDisabled then .disabled else .enabled
    toDisabled := false
    doe := 0
    resets := if f.resets = BitVec.allOnes 16 then f.resets else f.resets + 1 }

section
variable {s : State} {port : Fin 2} {fn : Fin 128}

/-- Steps 5 to 8 of R331, before what waited goes on. -/
def State.resetEnds (s : State) (port : Fin 2) (fn : Fin 128) (parts : List (Fin 16)) : State :=
  let t := (((s.fnChans port fn).foldl (fun s ch => s.idleChan ch) (parts.foldl (fun s p => s.cleanWays p) s)).forgetFn port fn).settleInvals
  t.setFn port fn ((s.fn port fn).leaves (t.fn port fn))

/-- Steps 7 and 8 of R331: the port's registers, and the message. -/
def State.resetTold (t : State) (port : Fin 2) (fn : Fin 128) (cause : Nat) : State :=
  let u := if fn = 0 ∧ 3 ≤ cause then t.resetPortRegs port else t
  if cause = 0 ∨ cause = 3 then u.emit (.frs port fn) else u

theorem exec_functionResetComplete (up : s.up = true) (mode : (s.fn port fn).mode = .resetting) (drained : s.resetDrained (s.fnChans port fn) = true) :
    ∃ parts, exec (.functionResetComplete port fn) s = .next ((s.resetEnds port fn parts).resetTold port fn (s.fn port fn).lastCause).finishActions := by
  refine ⟨if fn = 0 then allParts.filter (fun p => (s.fnChans port fn).any (fun ch => decide (entPart (s.entry ch) = p))) else (s.fn port fn).bound.toList, ?_⟩
  change execFunctionResetComplete port fn s = _
  unfold execFunctionResetComplete
  dsimp only
  rw [if_neg (by simp [up, mode, drained])]
  unfold State.resetTold State.resetEnds State.idleChan
  dsimp only
  generalize List.foldl _ (List.foldl _ s _) (s.fnChans port fn) = t
  rfl

theorem State.setPort_beside (s : State) (n : Fin 2) (x : PortState) :
    (s.setPort n x).host.fns = s.host.fns ∧ (s.setPort n x).host.reads = s.host.reads ∧ (s.setPort n x).host.pages = s.host.pages := by
  unfold State.setPort; split <;> exact ⟨rfl, rfl, rfl⟩

/-- The port's registers and the message leave the functions, what is outstanding, and the channels. -/
theorem State.resetTold_beside (t : State) (port : Fin 2) (fn : Fin 128) (cause : Nat) :
    (t.resetTold port fn cause).host.fns = t.host.fns ∧ (t.resetTold port fn cause).host.reads = t.host.reads
      ∧ (t.resetTold port fn cause).host.pages = t.host.pages ∧ (t.resetTold port fn cause).chan.entries = t.chan.entries := by
  have chan (x : PortState) : (t.setPort port x).chan.entries = t.chan.entries := by rw [State.setPort_chan]
  have regs : (t.resetPortRegs port).host.fns = t.host.fns ∧ (t.resetPortRegs port).host.reads = t.host.reads ∧ (t.resetPortRegs port).host.pages = t.host.pages
      ∧ (t.resetPortRegs port).chan.entries = t.chan.entries := by
    obtain ⟨fns, reads, pages⟩ := State.setPort_beside t port { PortState.reset with
      linkUp := (t.port port).linkUp, width := (t.port port).width, rate := (t.port port).rate, flit := (t.port port).flit, released := (t.port port).released,
      ready := (t.port port).ready, drs := (t.port port).drs }
    exact ⟨fns, reads, pages, chan _⟩
  unfold State.resetTold
  dsimp only
  by_cases told : fn = 0 ∧ 3 ≤ cause
  · rw [if_pos told]; split <;> exact regs
  · rw [if_neg told]; split <;> exact ⟨rfl, rfl, rfl, rfl⟩

theorem State.resetEnds_doors (s : State) (port : Fin 2) (fn : Fin 128) (parts : List (Fin 16)) : ∃ t : State,
    (∀ ch ∈ s.fnChans port fn, entState (t.entry ch) = 0) ∧ (∀ r ∈ t.host.reads, ¬ (r.port = port ∧ r.fn = fn))
      ∧ (∀ r ∈ t.host.pages, ¬ (r.port = port ∧ r.fn = fn))
      ∧ ∃ v : State, v.doors = t.doors ∧ s.resetEnds port fn parts = v.setFn port fn ((s.fn port fn).leaves (v.fn port fn)) := by
  unfold State.resetEnds
  have idle (ch : Fin 3072) (mem : ch ∈ s.fnChans port fn) :
      entState (((s.fnChans port fn).foldl (fun s ch => s.idleChan ch) (parts.foldl (fun s p => s.cleanWays p) s)).entry ch) = 0 :=
    State.idleChans_idle _ _ ch (.inl mem)
  generalize (s.fnChans port fn).foldl (fun s ch => s.idleChan ch) (parts.foldl (fun s p => s.cleanWays p) s) = t at idle ⊢
  exact ⟨t.forgetFn port fn, idle, fun r mem => by simpa [imp_iff_not_or] using (List.mem_filter.mp mem).2, fun r mem => by simpa [imp_iff_not_or] using (List.mem_filter.mp mem).2,
    _, State.settleInvals_doors _, rfl⟩

/-- When a reset ends the function is enabled or disabled, one reset more is counted, its channels are DISABLED and nothing of it is outstanding. -/
theorem State.resetEnds_leaves (s : State) (port : Fin 2) (fn : Fin 128) (parts : List (Fin 16)) (cause : Nat) :
    let w := (s.resetEnds port fn parts).resetTold port fn cause
    (w.fn port fn).mode = (if (s.fn port fn).toDisabled then .disabled else .enabled)
      ∧ (w.fn port fn).resets = (if (s.fn port fn).resets = BitVec.allOnes 16 then (s.fn port fn).resets else (s.fn port fn).resets + 1)
      ∧ (∀ ch ∈ s.fnChans port fn, entState (w.entry ch) = 0) ∧ (∀ r ∈ w.host.reads, ¬ (r.port = port ∧ r.fn = fn)) ∧ (∀ r ∈ w.host.pages, ¬ (r.port = port ∧ r.fn = fn)) := by
  intro w
  obtain ⟨t, idle, unread, unpaged, v, doors, ends⟩ := s.resetEnds_doors port fn parts
  obtain ⟨fns, reads, pages, entries⟩ := (s.resetEnds port fn parts).resetTold_beside port fn cause
  have function : w.fn port fn = (s.fn port fn).leaves (v.fn port fn) := by
    change Tbl.get FnState.reset w.host.fns _ = _
    rw [fns, ends]
    exact State.fn_setFn ..
  have outstanding : w.host.reads.map (fun r => (r.port, r.fn)) = t.host.reads.map (fun r => (r.port, r.fn)) := by
    rw [reads, ends]
    exact (congrArg Doors.outstanding doors :)
  have asked : w.host.pages = t.host.pages := by
    rw [pages, ends]
    exact (congrArg Doors.pages doors :)
  refine ⟨by rw [function]; rfl, by rw [function]; rfl, fun ch mem => ?_, fun r mem => ?_, fun r mem => ?_⟩
  · have entry : w.entry ch = t.entry ch := by
      change Tbl.get 0 w.chan.entries _ = _
      rw [entries, ends]
      exact entry_of_doors doors ch
    rw [entry]
    exact idle ch mem
  · have pair : (r.port, r.fn) ∈ t.host.reads.map (fun r => (r.port, r.fn)) := outstanding ▸ List.mem_map_of_mem mem
    obtain ⟨x, there, same⟩ := List.mem_map.mp pair
    obtain ⟨port', fn'⟩ := Prod.mk.inj same
    rw [← port', ← fn']
    exact unread x there
  · exact unpaged r (asked ▸ mem)

end

/-! ### Enables and links (R315, R330, R338) -/

/-- A function that VF Enable brings. -/
def State.enableVf (s : State) (port : Fin 2) (v : Fin 128) : State :=
  let f := s.fn port v
  if f.mode = .resetting then s.setFn port v { f with toDisabled := false } else (s.setFn port v { f with mode := .enabled }).emit (.frs port v)

theorem State.enableVf_ne (s : State) (port : Fin 2) {v k : Fin 128} (other : k ≠ v) : (s.enableVf port v).fn port k = s.fn port k := by
  have apart : ¬ (port = port ∧ k = v) := fun both => other both.2
  unfold State.enableVf
  dsimp only
  split
  · exact State.fn_setFn_ne _ _ _ _ _ _ apart
  · exact State.fn_setFn_ne _ _ _ _ _ _ apart

theorem State.enableVf_enables {s : State} {port : Fin 2} {v : Fin 128} (mode : (s.fn port v).mode ≠ .resetting) : ((s.enableVf port v).fn port v).mode = .enabled := by
  unfold State.enableVf
  dsimp only
  rw [if_neg mode]
  exact congrArg FnState.mode (State.fn_setFn ..)

theorem State.enableVf_port (s : State) (port : Fin 2) (v : Fin 128) (n : Fin 2) : (s.enableVf port v).port n = s.port n := by
  unfold State.enableVf
  dsimp only
  split <;> rfl

theorem State.enableVfs_enables (l : List (Fin 128)) {s : State} {port : Fin 2} {v : Fin 128} (due : v ∈ l ∧ (s.fn port v).mode ≠ .resetting ∨ (s.fn port v).mode = .enabled) :
    ((l.foldl (fun s v => s.enableVf port v) s).fn port v).mode = .enabled := by
  induction l generalizing s with
  | nil => simpa using due
  | cons a l ih =>
    rw [List.foldl_cons]
    refine ih ?_
    by_cases here : v = a
    · subst here
      refine .inr (State.enableVf_enables ?_)
      rcases due with ⟨-, mode⟩ | mode
      · exact mode
      · rw [mode]; decide
    · rw [s.enableVf_ne port here]
      exact due.imp_left fun ⟨mem, mode⟩ => ⟨(List.mem_cons.mp mem).resolve_left here, mode⟩

section
variable {s : State} {port : Fin 2}

theorem exec_vfEnable {k : Fin 128} (serves : s.portServes port = true) (more : (s.port port).numVfs ≤ k.val) : ∃ l : List (Fin 128),
    exec (.functionEnable port 0 (.vfEnable k)) s = .next (l.foldl (fun s v => s.enableVf port v) (s.setPort port { s.port port with numVfs := k.val }))
      ∧ ∀ v : Fin 128, (s.port port).numVfs < v.val → v.val ≤ k.val → v ∈ l := by
  refine ⟨(List.finRange 128).filter (fun (v : Fin 128) => decide ((s.port port).numVfs < v.val ∧ v.val ≤ k.val)),
    (if_neg (by simp [serves])).trans (if_neg (by simpa using more)), fun v low high => ?_⟩
  exact List.mem_filter.mpr ⟨List.mem_finRange v, decide_eq_true ⟨low, high⟩⟩

theorem exec_busMasterEnable {fn : Fin 128} (serves : s.portServes port = true) (there : s.fnExists port fn = true) (mode : (s.fn port fn).mode ≠ .resetting)
    (d0 : (s.fn port fn).d3hot = false) :
    exec (.functionEnable port fn .busMaster) s = .next (s.setFn port fn { s.fn port fn with busMaster := true, mode := .enabled }) := by
  refine (if_neg (by simp [serves])).trans ((if_neg (by simp [there])).trans ?_)
  dsimp only
  rw [d0, if_neg (by decide)]
  cases m : (s.fn port fn).mode <;> simp_all

end

/-- A port that the link reaches. -/
def PortState.reached (x : PortState) (width : Fin 16) (rate : Fin 8) (flit : Bool) : PortState :=
  { x with linkUp := true, width := width.val, rate := rate.val, flit := flit }


theorem State.readyPort_serves {s : State} {port : Fin 2} (out : (s.port port).released = true) (link : (s.port port).linkUp = true) :
    (s.readyPort port).port port = { s.port port with ready := true, drs := false } ∧ (s.readyPort port).out = if (s.port port).drs = true then .drs port :: s.out else s.out := by
  unfold State.readyPort
  dsimp only
  rw [if_pos ⟨out, link⟩]
  split
  · exact ⟨State.port_setPort .., congrArg (List.cons _) (State.setPort_out ..)⟩
  · exact ⟨State.port_setPort .., State.setPort_out ..⟩

theorem exec_pcieLinkUp {s : State} {port : Fin 2} {width : Fin 16} {rate : Fin 8} {flit : Bool} (powered : s.powered = true) (out : (s.port port).released = true)
    (lanes : width.val = 1 ∨ width.val = 2 ∨ width.val = 4 ∨ width.val = 8) (listed : rate.val ≤ 5) (flits : rate.val = 5 → flit = true) :
    let t := s.setPort port ((s.port port).reached width rate flit)
    exec (.pcieLinkUp port width rate flit) s = .next (if s.up = true then (t.readyPort port).atlasUpdate 8 0 else t) := by
  intro t
  have up : t.up = s.up := s.setPort_up port _
  refine (if_neg ?_).trans ?_
  · rintro (h | h | h | h | ⟨h, k⟩)
    · simp [powered] at h
    · simp [out] at h
    · exact h lanes
    · omega
    · simp [flits h] at k
  · rw [← up]
    exact (apply_ite Host.Outcome.next _ _ _).symm

/-- Settles O41: a reset by its start and its end, ports and links by the port each makes, enables by the functions that they bring. -/
theorem functionResetsComplete : Obligations.FunctionResetsComplete := by
  unfold Obligations.FunctionResetsComplete
  intro s port fn f
  refine ⟨fun serves there virtual => ⟨fun mode => ?begins, fun mode => ?joins⟩, fun serves => ?port, fun k serves fewer => ?vfs, fun serves there => ⟨fun off => ?cleared, fun on => ?ends⟩,
    fun how => ?perst, fun held => ?released, fun up mode drained => ?complete, fun serves there mode d0 => exec_busMasterEnable serves there mode d0,
    fun k serves more => ?vfEnable, fun width rate flit powered out lanes listed flits => ?linkUp⟩
  case begins =>
    refine ⟨(s.setFn port fn (f.resetting 0 false)).tdispError port fn, ?_, ?_, ?_, ?_, (State.tdispError_chan ..).2, ?_⟩
    · rw [State.tdispError_fn, State.fn_setFn]; rfl
    · rw [State.tdispError_fn, State.fn_setFn]; rfl
    · rw [State.tdispError_fn, State.fn_setFn]; rfl
    · rw [State.tdispError_fn, State.fn_setFn]; exact Bool.false_or _
    · rw [exec_flr serves there virtual, State.startReset_begins mode]
  case joins =>
    rw [exec_flr serves there virtual, State.startReset]
    dsimp only
    rw [if_pos mode, Bool.or_false]
  case port => exact ⟨(if_neg (by simp [serves, State.fnExists_zero])).trans (if_pos rfl), if_pos serves⟩
  case vfs =>
    refine ⟨(List.finRange 128).filter (fun (v : Fin 128) => decide (k.val < v.val ∧ v.val ≤ (s.port port).numVfs)), if_neg ?_, fun v => ?_⟩
    · simp only [serves]; simpa using fewer
    · simp only [List.mem_filter, List.mem_finRange, decide_eq_true_eq, true_and]
  case cleared =>
    have open' : ¬ ((!s.portServes port) = true ∨ (!s.fnExists port fn) = true) := by simp [serves, there]
    exact ⟨(if_neg open').trans (if_pos off), (if_neg open').trans (if_pos off)⟩
  case ends => exact (if_neg (by simp [serves, there])).trans (if_neg on)
  case perst =>
    refine ⟨_, ?_, ?_, ?_, ?_, exec_perstAsserted s port how⟩ <;> rw [State.port_setPort] <;> rfl
  case released =>
    intro w
    have up : w.up = s.up := s.setPort_up port _
    rw [← up]
    exact (if_neg (by simp [held])).trans (apply_ite Host.Outcome.next _ _ _).symm
  case complete =>
    obtain ⟨parts, run⟩ := exec_functionResetComplete up mode drained
    exact ⟨_, run, s.resetEnds_leaves port fn parts f.lastCause⟩
  case vfEnable =>
    obtain ⟨l, run, listed⟩ := exec_vfEnable serves more
    refine ⟨_, run, ?_, fun v low high mode => State.enableVfs_enables l (.inl ⟨listed v low high, ?_⟩)⟩
    · rw [foldl_keeps (fun t : State => t.port port) _ (fun t v => t.enableVf_port port v port) l, State.port_setPort]
    · unfold State.fn
      rw [(State.setPort_beside ..).1]
      exact mode
  case linkUp =>
    have run := exec_pcieLinkUp powered out lanes listed flits
    dsimp only at run
    cases up : s.up with
    | false =>
      rw [up, if_neg Bool.false_ne_true] at run
      refine ⟨_, run.trans (by rw [if_neg Bool.false_ne_true]), ?_, ?_⟩
      · rw [State.port_setPort]; simp [PortState.reached]
      · simp
    | true =>
      rw [up, if_pos rfl] at run
      refine ⟨_, run.trans (by rw [if_pos rfl]), ?_⟩
      have port' : (s.setPort port ((s.port port).reached width rate flit)).port port = (s.port port).reached width rate flit := State.port_setPort ..
      obtain ⟨ready, told⟩ := State.readyPort_serves (s := s.setPort port ((s.port port).reached width rate flit)) (port := port) (by rw [port']; exact out) (by rw [port']; rfl)
      rw [ready, told, port', State.setPort_out]
      cases first : (s.port port).drs <;> simp [PortState.reached, first]

end Sys2Proof.Machine
end


section

/-! SUPPORT. The DOE mailboxes (11 R327, R328; 13 R371, R377, R380, R381): what each object that is taken is answered with, and what it changes; with these the statement
about them. -/

namespace Sys2Proof.Machine

/-! ### Answers of a mailbox (R328) -/

section
variable (s : State) (port : Fin 2) (fn : Fin 128) (ty : Nat)

theorem State.doeAnswer_out (b : List Byte) : (s.doeAnswer port fn ty b).out = .doe port fn ty b :: s.out := rfl

theorem State.doeAnswer_doe (b : List Byte) : ((s.doeAnswer port fn ty b).fn port fn).doe = b.length :=
  congrArg FnState.doe (State.fn_setFn ..)

theorem State.openAnswer_sec (req : List Byte) : (s.openAnswer port fn ty req).sec = s.sec := rfl

theorem State.openAnswer_port (req : List Byte) (n : Fin 2) : (s.openAnswer port fn ty req).port n = s.port n := rfl

theorem State.openAnswer_tdisp (req : List Byte) : ((s.openAnswer port fn ty req).fn port fn).tdisp = (s.fn port fn).tdisp :=
  (congrArg FnState.tdisp (State.fn_setFn { s with freeCount := s.freeCount + 1 } port fn _) :)

end

theorem discovery_length (index : Nat) : (discovery index).length = 4 := by
  unfold discovery
  split <;> rfl

theorem measurements_length (log : List LogEntry) : ∀ i, (measurements i log).length = 33 * log.length := by
  induction log with
  | nil => exact fun _ => rfl
  | cons e rest ih =>
    intro i
    have block : (measurement i e).length = 33 := rfl
    rw [measurements, List.length_append, block, ih, List.length_cons]
    omega

/-! ### Sessions and measurements (R381) -/

section
variable {s : State} {port : Fin 2} {fn : Fin 128} {sec : Bool}

theorem exec_getMeasurements_count (takes : s.spdmTakes port fn sec = true) :
    exec (.spdmRequest port fn sec (.getMeasurements 0)) s = .next (s.doeAnswer port fn (spdmType sec) [BitVec.ofNat 8 s.sec.log.length]) :=
  if_neg (by simp [takes])

theorem exec_getMeasurements_all (takes : s.spdmTakes port fn sec = true) :
    exec (.spdmRequest port fn sec (.getMeasurements 0xFF)) s = .next (s.doeAnswer port fn (spdmType sec) (measurements 0 s.sec.log)) :=
  if_neg (by simp [takes])

theorem exec_getMeasurements_entry (takes : s.spdmTakes port fn sec = true) {i : Byte} {e : LogEntry} (counts : i ≠ 0) (all : i ≠ 0xFF)
    (entry : s.sec.log[i.toNat - 1]? = some e) :
    exec (.spdmRequest port fn sec (.getMeasurements i)) s = .next (s.doeAnswer port fn (spdmType sec) (i :: digestBytes e.digest)) := by
  have index : BitVec.ofNat 8 (i.toNat - 1 + 1) = i := by
    have pos : i.toNat ≠ 0 := fun zero => counts (BitVec.eq_of_toNat_eq zero)
    rw [Nat.sub_add_cancel (Nat.pos_of_ne_zero pos), BitVec.ofNat_toNat, BitVec.setWidth_eq]
  refine (if_neg (by simp [takes])).trans ?_
  simp only [if_neg counts, if_neg all, entry, measurement, index]

theorem exec_getCertificate (takes : s.spdmTakes port fn sec = true) (off len : BitVec 16) :
    exec (.spdmRequest port fn sec (.getCertificate 0 off len)) s
      = .next (s.doeAnswer port fn (spdmType sec) (leBytes 2 ((s.certChain.drop off.toNat).take len.toNat).length
          ++ leBytes 2 ((s.certChain.drop off.toNat).length - ((s.certChain.drop off.toNat).take len.toNat).length) ++ (s.certChain.drop off.toNat).take len.toNat)) :=
  if_neg (by simp [takes])

theorem exec_challenge (takes : s.spdmTakes port fn sec = true) (n : BitVec 256) :
    exec (.spdmRequest port fn sec (.challenge n)) s = .next (s.openAnswer port fn (spdmType sec) (0x83 :: digestBytes n)) :=
  if_neg (by simp [takes])

theorem exec_keyExchange_opens (takes : s.spdmTakes port fn sec = true) (key : s.sec.aliasKey.isSome = true) :
    ∃ t : State, exec (.spdmRequest port fn sec .keyExchange) s = .next t ∧ t.sec.sessions = s.sec.sessions ++ [⟨port, fn⟩] := by
  have keyed : ¬ (s.openAnswer port fn (spdmType sec) [0xE4]).sec.aliasKey.isNone = true := by
    rw [State.openAnswer_sec, Option.isNone_iff_eq_none]
    exact Option.isSome_iff_ne_none.mp key
  exact ⟨_, (if_neg (by simp [takes])).trans (congrArg Host.Outcome.next (if_neg keyed)), rfl⟩

theorem exec_endSession_ends (takes : s.spdmTakes port fn true = true) :
    ∃ t : State, exec (.spdmRequest port fn true .endSession) s = .next t ∧ t.sec.sessions = s.sec.sessions.erase ⟨port, fn⟩ :=
  ⟨_, if_neg (by simp [takes]), rfl⟩

end

/-! ### Streams of the IDE (R327) -/

theorem State.setIde_ide (s : State) (port : Fin 2) (k : Fin 5) (x : IdeStream) : ((s.setIde port k.val x).port port).ide[k.val]? = some x := by
  unfold State.setIde
  dsimp only
  rw [State.port_setPort]
  simp

theorem exec_setKeys {s : State} {port : Fin 2} (takes : s.spdmTakes port 0 true = true) (k : Fin 5) (a b : Fin 128) (lo hi : Word) :
    ∃ t : State, exec (.ideKm port 0 true k (.setKeys a b lo hi)) s = .next t
      ∧ (t.port port).ide[k.val]? = some (if k = 0 then ⟨true, false, 0, 127, 0, BitVec.allOnes 64⟩ else ⟨true, false, a.val, b.val, lo, hi⟩) :=
  ⟨_, if_neg (by simp [takes]), State.setIde_ide ..⟩

theorem exec_ideIntegrityFailure {s : State} {port : Fin 2} {k : Fin 5} {x : IdeStream} (serves : s.portServes port = true)
    (stream : (s.port port).ide[k.val]? = some x) (keyed : x.keyed = true) (secure : x.insecure = false) :
    exec (.ideIntegrityFailure port k) s = .next ((s.setIde port k.val { x with insecure := true }).emit (.aer port 0)) := by
  change execIdeIntegrityFailure port k s = _
  simp [execIdeIntegrityFailure, stream, serves, keyed, secure]

/-! ### Interfaces (R328, R377) -/

theorem lockAdd_accepts {l : Option LockRecord} {f : BitVec 16} {r : LockRecord} (added : lockAdd l f = some r) : r.accepted.contains f = true := by
  unfold lockAdd at added
  dsimp only at added
  split at added
  case isTrue there => exact Option.some.inj added ▸ there
  case isFalse =>
    split at added
    · exact absurd added (by simp)
    · rw [← Option.some.inj added]; simp

section
variable {s : State} {port : Fin 2} {fn : Fin 128}

theorem exec_lockInterfaceRequest (takes : s.spdmTakes port fn true = true) (virtual : fn ≠ 0) {p : Fin 16} {r : LockRecord}
    (unlocked : (s.fn port fn).tdisp = .unlocked) (bound : (s.fn port fn).bound = some p) (there : (s.partition p).mode ≠ .absent)
    (added : lockAdd (s.partition p).lock (fnWord port fn) = some r) :
    exec (.lockInterfaceRequest port fn true) s
      = .next (((s.setFn port fn { s.fn port fn with tdisp := .locked }).lockWith p r).openAnswer port fn 2 [0x83]) := by
  refine (if_neg (by simp [takes, virtual])).trans ?_
  simp only [unlocked, bound, Option.bind_some, if_neg there, added, Option.map_some]

theorem exec_startInterfaceRequest (takes : s.spdmTakes port fn true = true) (virtual : fn ≠ 0) (locked : (s.fn port fn).tdisp = .locked) :
    ∃ t : State, exec (.startInterfaceRequest port fn true) s = .next t ∧ (t.fn port fn).tdisp = .run := by
  refine ⟨_, if_neg (by simp [takes, virtual]), ?_⟩
  rw [State.openAnswer_tdisp, if_pos locked, State.fn_setFn]

theorem reportBody_length (s : State) (p : Fin 16) (nonce : BitVec 256) (user : BitVec 512) (host : Bool) : (s.reportBody p nonce user host).length = 448 := by
  have accepted : (acceptedBytes (s.partition p).lock).length = 32 := by
    unfold acceptedBytes
    simp [List.length_flatten, Function.comp_def, leBytes_length]
  simp only [State.reportBody, List.length_append, digestBytes, leBytes_length, accepted, List.length_cons, List.length_nil, List.length_replicate]

/-- A report that is signed is the body and 64 bytes of signature (R380). -/
theorem signedReport_length {p : Fin 16} {nonce : BitVec 256} {user : BitVec 512} {host : Bool} {b : List Byte}
    (signed : s.signedReport p nonce user host = .ok b) : b.length = 512 := by
  unfold State.signedReport at signed
  split at signed
  · exact absurd signed (by simp)
  · split at signed
    · exact absurd signed (by simp)
    · split at signed
      · exact absurd signed (by simp)
      · rw [← Except.ok.inj signed, List.length_append, reportBody_length, List.length_take, List.length_append, List.length_replicate]
        omega

theorem exec_attestationReportRequest {sec : Bool} {nonce : BitVec 256} {user : BitVec 512} {part : Byte} {p : Fin 16} {b : List Byte}
    (takes : s.spdmTakes port fn sec = true) (named : fn = 0 → part.toNat = p.val) (bound : fn ≠ 0 → (s.fn port fn).bound = some p)
    (signed : s.signedReport p nonce user (!(sec && (s.partition p).lock.any (fun l => l.accepted.contains (fnWord port fn)))) = .ok b) :
    exec (.attestationReportRequest port fn sec nonce user part) s = .next (s.doeAnswer port fn 257 b) := by
  have inRange : ¬ (fn = 0 ∧ 16 ≤ part.toNat) := fun ⟨zero, high⟩ => by have := named zero; omega
  have subject : (if fn = 0 then some (toPart part.toNat) else (s.fn port fn).bound) = some p := by
    split
    case isTrue zero => exact congrArg some (Fin.ext (by rw [toPart, named zero]; exact Nat.mod_eq_of_lt p.isLt))
    case isFalse virtual => exact bound virtual
  change execAttestationReportRequest port fn sec nonce user part s = _
  unfold execAttestationReportRequest
  rw [if_neg (by simp [takes]), if_neg inRange, subject]
  simp only [signed]

end

/-- Settles O43: what each object that a mailbox takes is answered with. -/
theorem doeMailboxesComplete : Obligations.DoeMailboxesComplete := by
  intro s port fn f
  refine ⟨?discover, ?spdm, ?keys, ?interface, ?report, ?abort, ?integrity⟩
  case discover =>
    exact fun index takes => ⟨_, if_pos takes, rfl, (State.doeAnswer_doe ..).trans (discovery_length _)⟩
  case spdm =>
    refine fun sec takes => ⟨⟨_, exec_getMeasurements_count takes, rfl⟩, ⟨_, _, exec_getMeasurements_all takes, rfl, measurements_length _ _⟩, ?_, ?_,
      exec_challenge takes, exec_keyExchange_opens takes, ?_⟩
    · exact fun i e counts all entry => ⟨_, exec_getMeasurements_entry takes counts all entry, rfl⟩
    · exact fun off len => ⟨_, _, exec_getCertificate takes off len, rfl, List.drop_left' (by simp [leBytes_length]), rfl⟩
    · rintro rfl
      exact exec_endSession_ends takes
  case keys => exact fun takes k a b lo hi => exec_setKeys takes k a b lo hi
  case interface =>
    exact fun takes virtual => ⟨fun p r unlocked bound there added => ⟨lockAdd_accepts added, exec_lockInterfaceRequest takes virtual unlocked bound there added⟩,
      exec_startInterfaceRequest takes virtual⟩
  case report =>
    exact fun sec nonce user part p b takes named bound signed =>
      ⟨_, exec_attestationReportRequest takes named bound signed, rfl, signedReport_length signed⟩
  case abort => exact fun serves there => if_pos ⟨serves, there⟩
  case integrity =>
    exact fun k x serves stream keyed secure => ⟨_, exec_ideIntegrityFailure serves stream keyed secure, State.setIde_ide .., congrArg (_ :: ·) (State.setPort_out ..)⟩

end Sys2Proof.Machine
end


section

/-! SUPPORT. Calls of partition services (13 R375-R380, R383; 14 R402, R403, R409): measurements, locks, reports, SHARE, policies and refill
tables; with these the statement about them. -/

namespace Sys2Proof.Machine

/-! ### A table's entries -/

/-- A value that is not the default stands in the table. -/
theorem Tbl.mem_of_get {α : Type} {d v : α} {t : Tbl α} {i : Nat} (read : Tbl.get d t i = v) (apart : v ≠ d) : (i, v) ∈ t := by
  induction t with
  | nil => exact absurd read.symm apart
  | cons e t ih =>
    obtain ⟨k, w⟩ := e
    unfold Tbl.get at read
    split at read
    case isTrue here => rw [here, read]; exact List.mem_cons_self
    case isFalse => exact List.mem_cons_of_mem _ (ih read)

section
variable {s : State} {p : Fin 16}

theorem State.callable_there (calls : s.callable p = true) : (s.partition p).mode ≠ .absent :=
  of_decide_eq_true (Bool.and_eq_true_iff.mp calls).2

/-! ### Measurements and locks (R375, R377) -/

theorem exec_extend (calls : s.callable p = true) (d : BitVec 256) :
    exec (.extend p d) s = .next ((s.setPartition p { s.partition p with measurement := sha256 (digestBytes (s.partition p).measurement ++ digestBytes d) }).secResult 0) :=
  if_neg (by simp [calls])

/-- A lock that accepts the function of every channel stops none. -/
theorem State.lockWith_accepting {r : LockRecord} (accepts : ∀ ch ∈ s.chansOf p, r.accepted.contains (entFn (s.entry ch)) = true) :
    s.lockWith p r = s.setPartition p { s.partition p with lock := some r } := by
  have none (u : State) (same : u.chan.entries = s.chan.entries ∧ u.chan.dyn = s.chan.dyn) :
      (u.chansOf p).filter (fun ch => !r.accepted.contains (entFn (u.entry ch))) = [] := by
    have chans : u.chansOf p = s.chansOf p := State.chansOf_congr same.1 same.2 p
    have entry (ch : Fin 3072) : u.entry ch = s.entry ch := by simp only [State.entry, same]
    rw [chans]
    exact List.filter_eq_nil_iff.mpr fun ch mem => by simpa [entry] using accepts ch mem
  unfold State.lockWith
  dsimp only
  rw [none (s.setPartition p { s.partition p with lock := some r }) ⟨rfl, rfl⟩]
  rfl

theorem exec_lock (calls : s.callable p = true) (a : BitVec 256) {f : Byte} (flags : f.toNat < 4) :
    exec (.lock p a f) s = .next ((s.lockWith p ⟨acceptedList a, f.getLsbD 0, f.getLsbD 1⟩).secResult 0) :=
  (if_neg (by simp [calls])).trans (if_neg (Nat.not_le.mpr flags))

/-! ### Reports (R380) -/

theorem exec_report_refused (calls : s.callable p = true) {n : BitVec 256} {u : BitVec 512} (va : BitVec 57) {k : Nat}
    (refused : s.signedReport p n u false = .error k) : exec (.report p n u va) s = .next (s.secResult k) := by
  refine (if_neg (by simp [calls])).trans ?_
  simp only [refused]

theorem exec_report_signed (calls : s.callable p = true) {n : BitVec 256} {u : BitVec 512} {va : BitVec 57} {b : List Byte} {ok : Bool} {t : State}
    (signed : s.signedReport p n u false = .ok b) (write : s.svcWrite p va.toNat b = (ok, t)) :
    exec (.report p n u va) s = .next (t.secResult (if ok then 0 else 1)) := by
  refine (if_neg (by simp [calls])).trans ?_
  simp only [signed, write]

/-! ### SHARE (R375, R383) -/

/-- What SHARE does to one plot of its range. -/
def State.sharePlot (mask : BitVec 16) (s : State) (q : Nat) : State :=
  match s.plot q with
  | .granted o m => (s.setPlot q (.granted o mask)).unshare q (m &&& ~~~mask)
  | _ => s

theorem State.sharePlot_of_granted {q : Nat} {r : BitVec 16} (granted : s.plot q = .granted p r) (mask : BitVec 16) (j : Nat) :
    (s.sharePlot mask q).plot j = if j = q then .granted p mask else s.plot j := by
  unfold State.sharePlot
  rw [granted]
  exact Tbl.get_set (PlotHold.free) s.mem.plots q j (.granted p mask)

theorem State.plot_sharePlots (mask : BitVec 16) (j : Nat) (plots : List Nat) : ∀ s : State, (∀ q ∈ plots, ∃ r, s.plot q = .granted p r) →
    (plots.foldl (State.sharePlot mask) s).plot j = if j ∈ plots then .granted p mask else s.plot j := by
  induction plots with
  | nil => exact fun s _ => by simp
  | cons q rest ih =>
    intro s granted
    obtain ⟨r, here⟩ := granted q List.mem_cons_self
    have after (i : Nat) : (s.sharePlot mask q).plot i = if i = q then .granted p mask else s.plot i := s.sharePlot_of_granted here mask i
    have still : ∀ i ∈ rest, ∃ r, (s.sharePlot mask q).plot i = .granted p r := fun i mem => by
      rw [after]
      split
      · exact ⟨_, rfl⟩
      · exact granted i (List.mem_cons_of_mem _ mem)
    rw [List.foldl_cons, ih _ still, after]
    by_cases mem : j ∈ rest <;> by_cases first : j = q <;> simp [mem, first]

theorem State.plotsOf_of_granted {q : Nat} {r : BitVec 16} (granted : s.plot q = .granted p r) : q ∈ s.plotsOf p :=
  List.mem_map.mpr ⟨_, List.mem_filter.mpr ⟨Tbl.mem_of_get granted (by simp), by simp⟩, rfl⟩

variable {f k : Nat}

theorem State.share_granted (pos : 1 ≤ k) (fits : f + k ≤ 1128) (granted : ∀ q, f ≤ q → q < f + k → ∃ r, s.plot q = .granted p r) (mask : BitVec 16) :
    s.share p f k mask = (0, (laRange f k).foldl (State.sharePlot mask) s) := by
  have own : ¬ (laRange f k).any (fun q => !(s.plotsOf p).contains q) = true := laRange_any_false fun q lo hi => by
    obtain ⟨r, here⟩ := granted q lo hi
    simpa using State.plotsOf_of_granted here
  have inRange : ¬ (k = 0 ∨ 1128 < f + k ∨ (laRange f k).any (fun q => !(s.plotsOf p).contains q) = true) := by
    rintro (none | long | other)
    · omega
    · omega
    · exact own other
  exact if_neg inRange

theorem State.plot_shared (granted : ∀ q, f ≤ q → q < f + k → ∃ r, s.plot q = .granted p r) (mask : BitVec 16) (j : Nat) :
    ((laRange f k).foldl (State.sharePlot mask) s).plot j = if f ≤ j ∧ j < f + k then .granted p mask else s.plot j := by
  rw [State.plot_sharePlots mask j _ s fun q mem => granted q (mem_laRange.mp mem).1 (mem_laRange.mp mem).2]
  simp only [mem_laRange]

theorem exec_share_services (calls : s.callable p = true) {f k mask : BitVec 16} {u : State} (share : s.share p f.toNat k.toNat mask = (0, u)) :
    exec (.share (.services p f k mask)) s = .next (u.secResult 0) := by
  change execShare (.services p f k mask) s = _
  unfold execShare
  dsimp only
  rw [if_neg (by simp [calls]), share]

theorem exec_share_mailbox {n : Fin 2} {len : Fin 8192} (takes : s.mboxTakes n = true) (low : 8 ≤ len.val) (high : len.val ≤ 4096)
    (named : (s.port n).mboxNat 0 1 = p.val) (there : (s.partition p).mode ≠ .absent) (unlocked : (s.partition p).lock = none) {u : State}
    (share : s.share p ((s.port n).mboxNat 2 2) ((s.port n).mboxNat 4 2) (BitVec.ofNat 16 ((s.port n).mboxNat 6 2)) = (0, u)) :
    exec (.share (.mailbox n len)) s = .next (u.mboxDone n 0 []) := by
  have subject : toPart ((s.port n).mboxNat 0 1) = p := Fin.ext (by rw [toPart, named]; exact Nat.mod_eq_of_lt p.isLt)
  have wellFormed : ¬ (len.val < 8 ∨ 4096 < len.val ∨ 16 ≤ (s.port n).mboxNat 0 1 ∨ (s.partition p).mode = .absent) := by
    simp only [there, or_false]; omega
  have unbarred : ¬ (s.partition p).lock.isSome = true := by simp [unlocked]
  change Host.Outcome.next (s.shareMailbox n len.val) = _
  unfold State.shareMailbox
  dsimp only
  rw [if_neg (by simp [takes]), subject, if_neg wellFormed, if_neg unbarred, share]

theorem State.port_mboxDone (s : State) (n : Fin 2) (result : Nat) (resp : List Byte) : ((s.mboxDone n result resp).port n).mboxBusy = false
    ∧ ((s.mboxDone n result resp).port n).mboxResult = result ∧ ((s.mboxDone n result resp).port n).mboxLen = resp.length := by
  unfold State.mboxDone
  dsimp only
  rw [State.port_setPort]
  exact ⟨rfl, rfl, rfl⟩

theorem State.plot_mboxDone (s : State) (n : Fin 2) (result : Nat) (resp : List Byte) (q : Nat) : (s.mboxDone n result resp).plot q = s.plot q := by
  unfold State.mboxDone State.plot
  dsimp only
  rw [State.setPort_mem]

/-! ### LINK_POLICY (R379) -/

theorem exec_linkPolicy_long (calls : s.callable p = true) (va : BitVec 57) {k : Byte} (long : 16 < k.toNat) :
    exec (.linkPolicy p va k) s = .next (s.secResult 1) :=
  (if_neg (by simp [calls])).trans (if_pos long)

theorem exec_linkPolicy_unread (calls : s.callable p = true) {va : BitVec 57} {k : Byte} {u : State} (short : k.toNat ≤ 16)
    (read : s.svcRead p va.toNat (64 * k.toNat) = (none, u)) : exec (.linkPolicy p va k) s = .next (u.secResult 1) := by
  refine (if_neg (by simp [calls])).trans ((if_neg (Nat.not_lt.mpr short)).trans ?_)
  rw [read]

/-- Entry i of a policy list as it is read: DEVICE_ID and the measurement. -/
def policyEntry (b : List Byte) (i : Nat) : BitVec 256 × BitVec 256 :=
  (BitVec.ofNat 256 (leNat ((b.drop (64 * i)).take 32)), BitVec.ofNat 256 (leNat ((b.drop (64 * i + 32)).take 32)))

theorem exec_linkPolicy_read (calls : s.callable p = true) {va : BitVec 57} {k : Byte} {b : List Byte} {u : State} (short : k.toNat ≤ 16)
    (read : s.svcRead p va.toNat (64 * k.toNat) = (some b, u)) :
    exec (.linkPolicy p va k) s = .next ((u.setPartition p { u.partition p with policy := (List.range k.toNat).map (policyEntry b) }).secResult 0) := by
  refine (if_neg (by simp [calls])).trans ((if_neg (Nat.not_lt.mpr short)).trans ?_)
  rw [read]
  rfl

/-! ### Refill tables (R402, R403) -/

/-- The table at address 0: none. -/
def State.noRefill (s : State) (p : Fin 16) : State :=
  { s with mem := { s.mem with refillBase := Tbl.set 0 s.mem.refillBase p.val 0, refillPages := s.mem.refillPages.filter (fun r => decide (r.owner ≠ p)) } }

theorem State.refillRegister_zero (s : State) (p : Fin 16) : s.refillRegister p 0 = (true, s.noRefill p) := if_pos rfl

theorem State.noRefill_base (s : State) (p : Fin 16) : Tbl.get 0 (s.noRefill p).mem.refillBase p.val = 0 := Tbl.get_set_same (0 : Word) s.mem.refillBase p.val 0

theorem State.noRefill_pages (s : State) (p : Fin 16) : ∀ r ∈ (s.noRefill p).mem.refillPages, r.owner ≠ p :=
  fun _ mem => of_decide_eq_true (List.mem_filter.mp mem).2

theorem exec_refillTable_services (calls : s.callable p = true) : exec (.refillTableRegister (.services p 0)) s = .next ((s.noRefill p).secResult 0) := by
  change execRefillTableRegister (.services p 0) s = _
  unfold execRefillTableRegister
  dsimp only
  rw [if_neg (by simp [calls]), show (0 : BitVec 57).toNat = 0 from rfl, State.refillRegister_zero]
  rfl

theorem State.refused_setRefillRefused (s : State) (p : Fin 16) (b : Bool) : Tbl.get false (s.setRefillRefused p b).mem.refillRefused p.val = b := Tbl.get_set_same ..

variable {n : Fin 2}

theorem exec_refillTable_host (serves : s.barServes n 0 = true) (v : Word) : exec (.refillTableRegister (.host n v)) s = .next (s.writeRefill n v) :=
  congrArg Host.Outcome.next (if_pos serves)

theorem State.writeRefill_locked (there : (s.partition p).mode ≠ .absent) (selects : toPart (s.port n).refillSelect.toNat = p)
    (locked : (s.partition p).lock.isSome = true) (v : Word) :
    Tbl.get false (s.writeRefill n v).mem.refillRefused p.val = true ∧ (s.writeRefill n v).mem.refillPages = s.mem.refillPages := by
  unfold State.writeRefill
  rw [selects]
  dsimp only
  have taken (u : State) (same : u.partition p = s.partition p) : ¬ (u.partition p).mode = .absent ∧ (u.partition p).lock.isSome = true :=
    ⟨same ▸ there, same ▸ locked⟩
  by_cases clears : v.getLsbD 0 = true
  · rw [if_pos clears, if_neg (taken (s.setRefillRefused p false) rfl).1, if_pos (taken (s.setRefillRefused p false) rfl).2]
    exact ⟨State.refused_setRefillRefused .., rfl⟩
  · rw [if_neg clears, if_neg there, if_pos locked]
    exact ⟨State.refused_setRefillRefused .., rfl⟩

theorem State.writeRefill_open (there : (s.partition p).mode ≠ .absent) (selects : toPart (s.port n).refillSelect.toNat = p)
    (unlocked : (s.partition p).lock = none) : s.writeRefill n 1 = (s.setRefillRefused p false).noRefill p := by
  have lock : ¬ (s.partition p).lock.isSome = true := by simp [unlocked]
  unfold State.writeRefill
  rw [selects]
  exact (if_neg there).trans ((if_neg lock).trans (congrArg Prod.snd (State.refillRegister_zero ..)))

/-! ### HART_START (R409) -/

theorem exec_hartStart (calls : s.callable p = true) {i : Fin 256} {n : Nat} (va : Word) (listed : (s.partition p).cores[i.val]? = some n)
    (active : (s.core n).st = 0) (idle : (s.core n).running = false) :
    exec (.hartStart p i va) s = .next (s.setCore n { s.core n with running := true, pc := va }) := by
  change execHartStart p i va s = _
  simp [execHartStart, listed, calls, active, idle]

end

/-- Settles O28: each call that is taken, and SHARE and the refill tables of host software, by the effect of each. -/
theorem partitionCallsComplete : Obligations.PartitionCallsComplete := by
  intro s p calls x
  have there := State.callable_there calls
  refine ⟨?extend, ?lock, ?report, ?share, ?long, ?unread, ?policy, ?refill, ?host, ?hart⟩
  case extend =>
    exact fun d => ⟨_, exec_extend calls d, State.partition_setPartition .., rfl, fun q apart => State.partition_setPartition_ne _ _ _ _ apart⟩
  case lock =>
    intro a f flags accepts
    refine ⟨_, exec_lock calls a flags, ?_⟩
    rw [State.lockWith_accepting (r := ⟨acceptedList a, f.getLsbD 0, f.getLsbD 1⟩) accepts]
    exact ⟨State.partition_setPartition .., rfl, rfl⟩
  case report =>
    exact fun n u va => ⟨fun k => exec_report_refused calls va, fun b ok t signed write => ⟨signedReport_length signed, exec_report_signed calls signed write⟩⟩
  case share =>
    intro f k m pos fits granted
    have share := State.share_granted pos fits granted m
    refine ⟨⟨_, exec_share_services calls share, rfl, State.plot_shared granted m⟩, ?_⟩
    intro n len takes low high named unlocked first count mask
    have same : s.share p ((s.port n).mboxNat 2 2) ((s.port n).mboxNat 4 2) (BitVec.ofNat 16 ((s.port n).mboxNat 6 2))
        = (0, (laRange f.toNat k.toNat).foldl (State.sharePlot m) s) := by
      rw [first, count, mask, BitVec.ofNat_toNat, BitVec.setWidth_eq]
      exact share
    have done := State.port_mboxDone ((laRange f.toNat k.toNat).foldl (State.sharePlot m) s) n 0 []
    refine ⟨_, exec_share_mailbox takes low high named there unlocked same, done.1, done.2.1, done.2.2, fun q => ?_⟩
    rw [State.plot_mboxDone]
    exact State.plot_shared granted m q
  case long => exact fun va k => exec_linkPolicy_long calls va
  case unread => exact fun va k u => exec_linkPolicy_unread calls
  case policy =>
    intro va k b u short read
    refine ⟨_, exec_linkPolicy_read calls short read, rfl, ?_, fun i lt => ?_⟩
    · exact (congrArg (fun x => x.policy.length) (State.partition_setPartition ..) :).trans (by simp)
    · exact (congrArg (fun x => x.policy[i]?) (State.partition_setPartition ..) :).trans (by simp [lt, policyEntry])
  case refill => exact ⟨_, exec_refillTable_services calls, s.noRefill_base p, s.noRefill_pages p, rfl⟩
  case host =>
    intro n v serves selects
    refine ⟨fun locked => ⟨_, exec_refillTable_host serves v, State.writeRefill_locked there selects locked v⟩, ?_⟩
    rintro unlocked rfl
    refine ⟨_, exec_refillTable_host serves 1, ?_⟩
    rw [State.writeRefill_open there selects unlocked]
    exact ⟨s.refused_setRefillRefused p false, State.noRefill_base .., (s.setRefillRefused p false).noRefill_pages p⟩
  case hart =>
    intro i n va listed active idle
    refine ⟨_, exec_hartStart calls va listed active idle, ?_, ?_, fun m apart => State.core_setCore_ne _ _ _ _ apart⟩
    · rw [State.core_setCore]
    · rw [State.core_setCore]

end Sys2Proof.Machine
end


section

/-! SUPPORT. Mailbox commands (13 R380-R384): what the buffer of a port holds after a response, and how streams open and close; with these the statement about them. -/

namespace Sys2Proof.Machine

/-! ### The response in the mailbox (R383) -/

/-- Bytes written one after the other stand in their places, and the rest of the buffer is as it was. -/
theorem get_bytesPut (j : Nat) (resp : List Byte) : ∀ (i : Nat) (t : Tbl Byte),
    Tbl.get 0 (resp.foldl (fun (y : Nat × Tbl Byte) b => (y.1 + 1, Tbl.set 0 y.2 y.1 b)) (i, t)).2 j
      = if i ≤ j ∧ j < i + resp.length then resp.getD (j - i) 0 else Tbl.get 0 t j := by
  induction resp with
  | nil => exact fun i t => (if_neg (by simp)).symm
  | cons b rest ih =>
    intro i t
    rw [List.foldl_cons, ih, Tbl.get_set, List.length_cons]
    rcases Nat.lt_trichotomy j i with below | rfl | above
    · rw [if_neg (by omega), if_neg (by omega), if_neg (by omega)]
    · rw [if_neg (by omega), if_pos rfl, if_pos (by omega), Nat.sub_self]
      rfl
    · have place : j - i = j - (i + 1) + 1 := by omega
      rw [if_neg (show ¬ j = i by omega), place, List.getD_cons_succ]
      exact if_congr (by omega) rfl rfl

section
variable {s : State} {n : Fin 2} {len : Fin 8192}

theorem State.mboxBytes_mboxDone (s : State) (n : Fin 2) (result : Nat) (resp : List Byte) {k : Nat} (within : k ≤ resp.length) :
    ((s.mboxDone n result resp).port n).mboxBytes 0 k = resp.take k := by
  unfold State.mboxDone PortState.mboxBytes
  dsimp only
  rw [State.port_setPort]
  refine List.ext_getElem (by simp [within]) fun i low high => ?_
  have inside : i < resp.length := by simp at high; omega
  rw [List.getElem_map, List.getElem_range, get_bytesPut, if_pos (by omega), List.getElem_take, Nat.sub_zero, Nat.zero_add]
  exact List.getD_eq_getElem _ _ inside

theorem State.mboxDone_sec (s : State) (n : Fin 2) (result : Nat) (resp : List Byte) : (s.mboxDone n result resp).sec = s.sec := State.setPort_sec ..

theorem State.mboxDone_link (s : State) (n : Fin 2) (result : Nat) (resp : List Byte) : (s.mboxDone n result resp).link = s.link := State.setPort_link ..

/-! ### The log, reports and certificates (R380, R381) -/

theorem exec_getEventLog (takes : s.mboxTakes n = true) (low : 4 ≤ len.val) (high : len.val ≤ 4096) :
    exec (.getEventLog n len) s
      = .next (s.mboxDone n 0 (leBytes 4 (logAll 0 s.sec.log).length ++ ((logAll 0 s.sec.log).drop ((s.port n).mboxNat 0 4)).take 4088)) :=
  congrArg Host.Outcome.next ((if_neg (by simp [takes])).trans (if_neg (by omega)))

theorem exec_getReport (takes : s.mboxTakes n = true) (low : 104 ≤ len.val) (high : len.val ≤ 4096) (named : (s.port n).mboxNat 0 1 < 16) {b : List Byte}
    (signed : s.signedReport (toPart ((s.port n).mboxNat 0 1)) (BitVec.ofNat 256 ((s.port n).mboxNat 8 32)) (BitVec.ofNat 512 ((s.port n).mboxNat 40 64)) true = .ok b) :
    exec (.getReport n len) s = .next (s.mboxDone n 0 b) := by
  change Host.Outcome.next (s.mboxReport n len) = _
  unfold State.mboxReport
  dsimp only
  rw [if_neg (by simp [takes]), if_neg (by omega), signed]

theorem exec_getCerts (takes : s.mboxTakes n = true) (low : 2 ≤ len.val) (high : len.val ≤ 4096) :
    exec (.getCerts n len) s = .next (s.mboxDone n 0 ((s.certChain.drop ((s.port n).mboxNat 0 2)).take 4096)) :=
  congrArg Host.Outcome.next ((if_neg (by simp [takes])).trans (if_neg (by omega)))

/-! ### STREAM_OPEN (R382) -/

/-- A request that is kept and asked of the peer. -/
def State.streamAsked (s : State) (o : OpenReq) : State :=
  let u := (s.setPort o.port { s.port o.port with mboxBusy := true }).emit (.peer o.peer true o.part o.peerPart)
  { u with sec := { u.sec with opens := u.sec.opens ++ [o] } }

theorem exec_streamOpen (takes : s.mboxTakes n = true) (low : 5 ≤ len.val) (high : len.val ≤ 4096) (named : (s.port n).mboxNat 0 1 < 16)
    (peer : (s.port n).mboxNat 2 2 < 4096) (theirs : (s.port n).mboxNat 4 1 < 16) (locked : s.sec.debugOpen = false)
    {p q : Fin 16} {m : BitVec 12} (part : p = toPart ((s.port n).mboxNat 0 1)) (module : m = BitVec.ofNat 12 ((s.port n).mboxNat 2 2))
    (peerPart : q = toPart ((s.port n).mboxNat 4 1)) (live : (s.partition p).mode = .live) (fresh : s.hasStream p m = false)
    (tx : (lowestFree s.link.tx).isSome = true) (rx : (lowestFree s.link.rx).isSome = true) :
    exec (.streamOpen n len) s = .next (s.streamAsked ⟨n, p, m, q⟩).tryOpens := by
  have wellFormed : ¬ (len.val < 5 ∨ 4096 < len.val ∨ 16 ≤ (s.port n).mboxNat 0 1 ∨ 4096 ≤ (s.port n).mboxNat 2 2 ∨ 16 ≤ (s.port n).mboxNat 4 1
      ∨ (s.partition p).mode ≠ .live) := by
    simp only [live, ne_eq, not_true, or_false]; omega
  have streams : ¬ (s.hasStream p m = true ∨ (lowestFree s.link.tx).isNone = true ∨ (lowestFree s.link.rx).isNone = true) := by
    simp [fresh, Option.isSome_iff_ne_none.mp tx, Option.isSome_iff_ne_none.mp rx]
  change Host.Outcome.next (s.mboxOpen n len) = _
  unfold State.mboxOpen
  dsimp only
  rw [if_neg (by simp [takes]), ← part, ← module, ← peerPart, if_neg wellFormed, if_neg (by simp [locked]), if_neg streams]
  rfl

theorem State.streamAsked_opens (s : State) (o : OpenReq) : (s.streamAsked o).sec.opens = s.sec.opens ++ [o] :=
  (congrArg (fun x => x.opens ++ [o]) (State.setPort_sec s o.port _) :)

theorem State.streamAsked_peerOpens (s : State) (o : OpenReq) : (s.streamAsked o).sec.peerOpens = s.sec.peerOpens :=
  (congrArg SecState.peerOpens (State.setPort_sec s o.port _) :)

theorem State.streamAsked_link (s : State) (o : OpenReq) : (s.streamAsked o).link = s.link := State.setPort_link ..

theorem State.streamAsked_agrees (s : State) (o : OpenReq) (q : PeerOpen) : (s.streamAsked o).openAgrees o q = s.openAgrees o q := by
  have part : (s.streamAsked o).partition o.part = s.partition o.part := by
    unfold State.partition
    exact congrArg (fun c => Tbl.get _ c.parts _) (State.setPort_chan ..)
  unfold State.openAgrees
  rw [part]

theorem State.tryOpens_waits {o : OpenReq} (opens : s.sec.opens = [o]) (unasked : s.sec.peerOpens = []) : s.tryOpens = s := by
  unfold State.tryOpens
  rw [opens, List.foldl_cons, unasked]
  rfl

theorem State.tryOpens_matched {o : OpenReq} {q : PeerOpen} (opens : s.sec.opens = [o]) (asked : s.sec.peerOpens = [q]) (agrees : s.openAgrees o q = true) :
    s.tryOpens = s.openStreams o q := by
  have found : s.sec.peerOpens.find? (fun q => s.openAgrees o q) = some q := by rw [asked]; simp [agrees]
  unfold State.tryOpens
  rw [opens]
  simp only [List.foldl_cons, List.foldl_nil, found]

/-- The state with the pair of streams of a request at the numbers given. -/
def State.pairOpened (s : State) (o : OpenReq) (q : PeerOpen) (i j : Nat) : State :=
  { s with
    sec := { s.sec with
      nextKey := s.sec.nextKey + 2
      opens := s.sec.opens.filter (fun x => decide (x ≠ o))
      peerOpens := s.sec.peerOpens.filter (fun x => decide (x ≠ q)) }
    link := { s.link with
      tx := Tbl.set none s.link.tx i (some ⟨o.peer, o.part, o.peerPart, BitVec.ofNat 10 q.rx.val, 0, s.sec.nextKey⟩)
      rx := Tbl.set none s.link.rx j (some ⟨o.peer, o.part, o.peerPart, 0, 0, 0, 0, s.sec.nextKey + 1⟩) } }

/-- A pair of streams that is opened takes the lowest free numbers and answers them. -/
theorem State.openStreams_opens {o : OpenReq} (q : PeerOpen) {i j : Nat} (tx : lowestFree s.link.tx = some i) (rx : lowestFree s.link.rx = some j) :
    s.openStreams o q = (s.pairOpened o q i j).mboxDone o.port 0 (leBytes 2 i ++ leBytes 2 j) := by
  unfold State.openStreams
  rw [tx, rx]
  rfl

theorem State.pairOpened_tx (s : State) (o : OpenReq) (q : PeerOpen) (i j : Nat) :
    Tbl.get none (s.pairOpened o q i j).link.tx i = some ⟨o.peer, o.part, o.peerPart, BitVec.ofNat 10 q.rx.val, 0, s.sec.nextKey⟩ := by
  simp only [State.pairOpened, Tbl.get_set_same]

theorem State.pairOpened_rx (s : State) (o : OpenReq) (q : PeerOpen) (i j : Nat) :
    Tbl.get none (s.pairOpened o q i j).link.rx j = some ⟨o.peer, o.part, o.peerPart, 0, 0, 0, 0, s.sec.nextKey + 1⟩ := by
  simp only [State.pairOpened, Tbl.get_set_same]

/-! ### The end of a request and of streams (R382, R383) -/

/-- The state without a request that is out of time, nor the peer's. -/
def State.openExpired (s : State) (o : OpenReq) : State :=
  { s with sec := { s.sec with
    opens := s.sec.opens.filter (fun x => decide (x ≠ o))
    peerOpens := s.sec.peerOpens.filter (fun q => !decide (q.peer = o.peer ∧ q.theirPart = o.peerPart ∧ q.ourPart = o.part)) } }

theorem State.openExpired_gone (s : State) (o : OpenReq) : o ∉ (s.openExpired o).sec.opens :=
  fun mem => of_decide_eq_true (List.mem_filter.mp mem).2 rfl

theorem exec_streamOpenTimeout {o : OpenReq} (waits : s.sec.opens.find? (fun o => decide (o.port = n)) = some o) :
    exec (.streamOpenTimeout n) s = .next ((s.openExpired o).mboxDone n 4 []) := by
  change execStreamOpenTimeout n s = _
  unfold execStreamOpenTimeout
  rw [waits]
  rfl

/-- No stream of the pair that is closed is left. -/
theorem State.closePair_closed (s : State) (m : BitVec 12) (p q : Fin 16) :
    ∀ y ∈ (s.closePair m p q).link.tx, ∀ z, y.2 = some z → ¬ (z.peer = m ∧ z.part = p ∧ z.peerPart = q) := by
  intro y mem z is
  have kept := (List.mem_filter.mp mem).2
  simpa only [is, Option.all_some, Bool.not_eq_true', decide_eq_false_iff_not] using kept

theorem exec_streamClose (takes : s.mboxTakes n = true) (low : 2 ≤ len.val) (high : len.val ≤ 4096) {x : TxStream}
    (stream : Tbl.get none s.link.tx ((s.port n).mboxNat 0 2) = some x) :
    exec (.streamClose n len) s = .next (((s.closePair x.peer x.part x.peerPart).emit (.peer x.peer false x.part x.peerPart)).mboxDone n 0 []) := by
  change Host.Outcome.next (s.mboxClose n len) = _
  unfold State.mboxClose
  rw [if_neg (by simp [takes]), if_neg (by omega), stream]

theorem exec_peerCloses {m : BitVec 12} {rx : Fin 1024} {x : RxStream} (up : s.up = true) (locked : s.sec.debugOpen = false)
    (stream : Tbl.get none s.link.rx rx.val = some x) (peer : x.peer = m) :
    exec (.peerStreamMessage (.closes m rx)) s = .next (s.closePair m x.part x.peerPart) := by
  change execPeerStreamMessage (.closes m rx) s = _
  simp [execPeerStreamMessage, up, locked, stream, peer]

end

/-- Settles O30: each mailbox command that is taken, a request that is out of time, and the peer's close. -/
theorem mailboxCommandsComplete : Obligations.MailboxCommandsComplete := by
  intro s n len
  refine ⟨fun takes high => ⟨?log, ?report, ?certs, ?opens, ?closes⟩, ?timeout, ?peer⟩
  case log =>
    intro low
    refine ⟨_, exec_getEventLog takes low high, (State.port_mboxDone ..).1, (State.port_mboxDone ..).2.1, rfl, ?_, State.mboxDone_sec ..⟩
    have size := leBytes_length 4 (logAll 0 s.sec.log).length
    rw [State.mboxBytes_mboxDone _ _ _ _ (by rw [List.length_append, size]; omega)]
    exact List.take_left' size
  case report =>
    intro low named b signed
    have size := signedReport_length signed
    refine ⟨_, exec_getReport takes low high named signed, (State.port_mboxDone ..).2.1, (State.port_mboxDone ..).2.2.trans size, ?_⟩
    rw [State.mboxBytes_mboxDone _ _ _ _ size.ge]
    exact List.take_of_length_le size.le
  case certs =>
    intro low
    refine ⟨_, exec_getCerts takes low high, (State.port_mboxDone ..).1, (State.port_mboxDone ..).2.1, (State.port_mboxDone ..).2.2.trans ?_⟩
    rw [List.length_take, List.length_drop]
  case opens =>
    intro low named peer theirs locked p m q part module peerPart live fresh tx rx unasked
    have run := exec_streamOpen takes low high named peer theirs locked part module peerPart live fresh tx rx
    have opens : (s.streamAsked ⟨n, p, m, q⟩).sec.opens = [⟨n, p, m, q⟩] := by rw [State.streamAsked_opens, unasked]; rfl
    constructor
    · intro silent
      rw [State.tryOpens_waits opens (by rw [State.streamAsked_peerOpens, silent])] at run
      exact ⟨_, run, congrArg PortState.mboxBusy (State.port_setPort s n _), opens, congrArg (_ :: ·) (State.setPort_out ..)⟩
    · intro o asked agrees
      obtain ⟨i, lowTx⟩ := Option.isSome_iff_exists.mp tx
      obtain ⟨j, lowRx⟩ := Option.isSome_iff_exists.mp rx
      rw [State.tryOpens_matched opens (by rw [State.streamAsked_peerOpens, asked]) (by rw [State.streamAsked_agrees, agrees])] at run
      rw [State.openStreams_opens (i := i) (j := j) o (by rw [State.streamAsked_link, lowTx]) (by rw [State.streamAsked_link, lowRx])] at run
      refine ⟨_, i, j, run, (State.port_mboxDone ..).1, (State.port_mboxDone ..).2.1, lowTx, lowRx, ?_, ?_, ?_⟩
      · exact State.mboxBytes_mboxDone _ n 0 (leBytes 2 i ++ leBytes 2 j) (Nat.le_refl 4)
      · rw [State.mboxDone_link]; exact ⟨_, State.pairOpened_tx ..⟩
      · rw [State.mboxDone_link]; exact ⟨_, State.pairOpened_rx ..⟩
  case closes =>
    intro low x stream
    have link := State.mboxDone_link ((s.closePair x.peer x.part x.peerPart).emit (.peer x.peer false x.part x.peerPart)) n 0 []
    refine ⟨_, exec_streamClose takes low high stream, (State.port_mboxDone ..).1, (State.port_mboxDone ..).2.1, link, ?_⟩
    rw [link]
    exact s.closePair_closed x.peer x.part x.peerPart
  case timeout =>
    intro o waits
    refine ⟨_, exec_streamOpenTimeout waits, (State.port_mboxDone ..).1, (State.port_mboxDone ..).2.1, ?_⟩
    rw [State.mboxDone_sec]
    exact s.openExpired_gone o
  case peer => exact fun m rx x up locked stream peer => exec_peerCloses up locked stream peer

end Sys2Proof.Machine
end


section

/-! SUPPORT. Debug, recovery and status (13 R364, R367, R385, R386; 16 R441, R448; 17 R461): what a token does, what the debug transport reaches, and the answers of the
management controller; with these the statement about them. -/

namespace Sys2Proof.Machine

section
variable {s : State}

/-! ### UNLOCK (R386) -/

theorem exec_unlock_accepted {n : Fin 2} {ok : Bool} {h k : BitVec 256} (serves : s.barServes n 0 = true) (first : s.sec.debugBring = false)
    (accepted : ok = true ∧ h = s.sec.fuses.rootHash ∧ k = s.sec.nonce ∧ s.sec.fuses.debug < 32) : exec (.unlock n ok h k) s = .next s.debugReset :=
  (if_neg (by simp [serves, first])).trans (if_pos accepted)

/-- The state after a token that is refused: the flag, and a fresh nonce. -/
def State.unlockRefused (s : State) : State :=
  { (s.freeVal 256).2 with sec := { s.sec with debugRefused := true, nonce := (s.freeVal 256).1 } }

theorem exec_unlock_refused {n : Fin 2} {ok : Bool} {h k : BitVec 256} (serves : s.barServes n 0 = true) (first : s.sec.debugBring = false)
    (refused : ¬ (ok = true ∧ h = s.sec.fuses.rootHash ∧ k = s.sec.nonce ∧ s.sec.fuses.debug < 32)) : exec (.unlock n ok h k) s = .next s.unlockRefused :=
  (if_neg (by simp [serves, first])).trans (if_neg refused)

/-! ### The debug transport (R385, R441) -/

theorem exec_debugTransport_locked (powered : s.powered = true) (locked : s.sec.debugOpen = false) (a : DebugAccess) :
    exec (.debugTransportAccess a) s = .next (s.emit (.debug 0)) :=
  (if_neg (by simp [powered])).trans (if_pos (by simp [locked]))

section
variable {g : GroupRef} {x : Group} (powered : s.powered = true) (unlocked : s.sec.debugOpen = true)
include powered unlocked

theorem exec_debugTransport_readReg (there : s.groupOf g = some x) (lane : Fin 64) (reg : Fin 255) :
    exec (.debugTransportAccess ⟨.threadReg g lane reg, none⟩) s = .next (s.emit (.debug (x.reg lane.val reg.val))) := by
  have read : x.reg lane.val reg.val = Tbl.get 0 x.regs (64 * reg.val + lane.val) := if_neg (Nat.ne_of_lt reg.isLt)
  change execDebugTransportAccess ⟨.threadReg g lane reg, none⟩ s = _
  simp [execDebugTransportAccess, powered, unlocked, there, read]

theorem exec_debugTransport_writeReg (there : s.groupOf g = some x) (lane : Fin 64) (reg : Fin 255) (v : Word32) :
    exec (.debugTransportAccess ⟨.threadReg g lane reg, some v⟩) s = .next (s.putGroup g.la.val { x with regs := Tbl.set 0 x.regs (64 * reg.val + lane.val) v }) := by
  change execDebugTransportAccess ⟨.threadReg g lane reg, some v⟩ s = _
  simp [execDebugTransportAccess, powered, unlocked, there]

theorem exec_debugTransport_runCore (c : Fin 160) (v : Word32) : ∃ t : State, exec (.debugTransportAccess ⟨.coreRun c, some v⟩) s = .next t
    ∧ (t.core c.val).running = v.getLsbD 0 :=
  ⟨_, (if_neg (by simp [powered])).trans (if_neg (by simp [unlocked])), congrArg CoreState.running (State.core_setCore ..)⟩

theorem exec_debugTransport_link (l : Fin 22) :
    exec (.debugTransportAccess ⟨.linkState l, none⟩) s = .next (s.emit (.debug (BitVec.ofNat 32 (s.d2d l.val).mode.code))) :=
  (if_neg (by simp [powered])).trans (if_neg (by simp [unlocked]))

theorem exec_debugTransport_protected : exec (.debugTransportAccess ⟨.protectedUnit, none⟩) s = .next (s.emit (.debug 0)) :=
  (if_neg (by simp [powered])).trans (if_neg (by simp [unlocked]))

end

/-! ### Recovery and status (R367, R448, R461) -/

theorem exec_recoveryImage (img : FwImage) {ty : Nat} {b : BootImages} (failed : s.pow.report = .bootFailed ty) (boot : s.sec.boot = some b)
    (stage : s.pow.stage = .pllLocked) :
    exec (.recoveryImage img) s = .next (s.bootRun (if ty = 1 then { b with spA := img } else { b with resA := img })) := by
  change execRecoveryImage img s = _
  simp only [execRecoveryImage, failed, boot, stage, ne_eq, not_true, if_false]

theorem State.statusBytes_length (s : State) : s.statusBytes.length = 16 := by
  simp only [State.statusBytes, List.length_append, leBytes_length, List.length_cons, List.length_nil]

theorem exec_getStatus (managed : s.pow.stage.managed = true) (bus : Fin 2) :
    exec (.getStatus bus 1) s = .next ({ s with err := { s.err with alertUnread := false, alertPin := false } }.emit (.mctp bus s.statusBytes)) :=
  (if_neg (by simp [managed])).trans (if_neg (by decide))

end

/-- Settles O31: a token that is accepted or refused, each access of the debug transport, a recovery image and GET_STATUS. -/
theorem debugRecoveryAndStatusComplete : Obligations.DebugRecoveryAndStatusComplete := by
  intro s
  refine ⟨?unlock, ?transport, ?recovery, ?status⟩
  case unlock =>
    intro n ok h k serves first
    exact ⟨fun good root nonce left => ⟨_, exec_unlock_accepted serves first ⟨good, root, nonce, left⟩, rfl, rfl, rfl, rfl, rfl, rfl, rfl, rfl, rfl, rfl⟩,
      fun refused => ⟨_, exec_unlock_refused serves first refused, rfl, rfl, rfl, rfl⟩⟩
  case transport =>
    refine fun powered => ⟨fun locked => exec_debugTransport_locked powered locked, fun unlocked => ⟨fun g lane reg x there => ⟨?_, fun v => ?_⟩,
      exec_debugTransport_runCore powered unlocked, exec_debugTransport_link powered unlocked, exec_debugTransport_protected powered unlocked⟩⟩
    · exact exec_debugTransport_readReg powered unlocked there lane reg
    · refine ⟨_, _, exec_debugTransport_writeReg powered unlocked there lane reg v, State.groupOf_putGroup s g x _ there rfl rfl, ?_, rfl, rfl⟩
      exact (if_neg (Nat.ne_of_lt reg.isLt)).trans (Tbl.get_set_same ..)
  case recovery => exact fun img ty b failed boot stage => exec_recoveryImage img failed boot stage
  case status => exact fun bus managed => ⟨_, _, exec_getStatus managed bus, rfl, s.statusBytes_length, rfl, rfl, rfl, rfl, rfl⟩

end Sys2Proof.Machine
end
